-- ==== Sys2Proof/Word.lean ====
section
/-! DEFINITION. Word.lean: the plain number types every other file uses. -/
namespace Sys2Proof

/-- A byte as the block's interfaces carry it, held as a number from 0 to 255. -/
abbrev Byte := Nat

/-- A key of the object dictionary: index times 256 plus subindex (R8, R491). -/
abbrev Key := Nat

/-- A count of nanoseconds (R12). -/
abbrev Ns := Nat

end Sys2Proof
end

