-- ==== Sys2Proof/Syntax.lean ====
section
/-! DEFINITION. Syntax.lean: the commands the block takes, and the shapes of their operands. -/
namespace Sys2Proof

/-- Where a dictionary write comes from: SDO, the dictionary window of a function, the mailbox of a function, process
data (R530), or a task input of the event matrix (R429). -/
inductive Path where
  | sdo
  | window (fn : Nat)
  | mailbox (fn : Nat)
  | pdo
  | event
  deriving DecidableEq, Repr

/-- What discovery reads from a CoaXPress camera (R90, R91, R105): the highest rate code it offers, the connections it
offers, whether it takes a high-speed upconnection, DeviceConnectionID per connector lane (none without a signal), the
revision of the standard it reports (major * 65536 + minor), and whether it takes control packets with tag. -/
structure CxpCamera where
  maxRate : Nat
  connections : Nat
  highUplink : Bool
  connIds : List (Option Nat)
  revision : Nat := 0x20000
  tagged : Bool := true
  deriving DecidableEq, Repr

/-- What kind of packet or message a camera sends (R89, R90, R94): image data, a heartbeat, an event, or a kind that the
M12 does not handle. -/
inductive PacketKind where
  | stream
  | heartbeat
  | event
  | other
  deriving DecidableEq, Repr

/-- What a lane's receiver takes in (R101, R103, R113): a 66-bit block as it came, sync header in bits 1:0 and the scrambled payload
above, the bit transmitted first being bit 0, with the slice that received it and the epoch it carries; or, on an 8b/10b lane, a code
violation, a disparity error, or the loss of character alignment. -/
inductive LaneSymbol where
  | block (word slice epoch : Nat)
  | violation
  | disparity
  | alignmentLost
  deriving DecidableEq, Repr

/-- A camera packet as the bay's link layer hands it over (R89, R90, R94, R113, R136 to R142): the connector lane it came on,
the slice that received it and the epoch it carries, and what it holds. -/
structure CamPacket where
  kind : PacketKind := .stream
  lane : Nat
  slice : Nat
  epoch : Nat
  crcOk : Bool
  lineReadable : Bool
  streamId : Nat
  format : Nat
  tag : Nat
  firstPixel : Nat
  samples : List Nat
  last : Bool
  deriving DecidableEq, Repr

/-- Who met poisoned data (R449): the running task of a logical tile, a wharf job, the seam joiner's canvas read for a
bay's line, its warp read for a view's line, the anchor row a view is measuring, a line read from a bay's quay, a read
through a function's aperture, or the supervisor. -/
inductive Consumer where
  | tile (tile : Nat)
  | wharf (chan : Nat)
  | joiner (bay line : Nat)
  | warp (view line : Nat)
  | anchors (view : Nat)
  | quay (bay line : Nat)
  | aperture (fn : Nat)
  | supervisor
  deriving DecidableEq, Repr

/-- Why a DRAM package is declared dead (R452). -/
inductive DramDeath where
  | training
  | uncorrectable
  | commandBus
  | island
  deriving DecidableEq, Repr

/-- What went wrong on a wharf transfer: Unsupported Request, Completer Abort, completion timeout, or poisoned data (R463). -/
inductive BusError where
  | unsupported
  | abort
  | completionTimeout
  | poison
  deriving DecidableEq, Repr

/-- A signal that a CoaXPress receiver shows (R93, R105): the connector lane, and whether a PoCXP device is detected on the
connection. -/
structure CxpSignal where
  lane : Nat
  pocxp : Bool := false
  deriving DecidableEq, Repr

/-- A rising edge of WEB's Z signal (R369, R381): the nanoseconds since the command before it, and for how long the level has held. -/
structure ZEdge where
  dt : Nat
  held : Nat
  deriving DecidableEq, Repr

/-- What a tile's result names as its sender (R278, R303, R316): the physical tile and the epoch it carries. -/
structure TileSender where
  phys : Nat
  epoch : Nat
  deriving DecidableEq, Repr

/-- What the master configured for a state transition (R517): the lengths and settings of SM2 and SM3, the DC
activation (0 none, 1 SYNC0, 3 SYNC0 and SYNC1, 2 SYNC1 alone) and the cycle time. -/
structure SmConfig where
  sm2Length : Nat
  sm2Ok : Bool
  sm3Length : Nat
  sm3Ok : Bool
  dcActivation : Nat
  cycleNs : Nat
  deriving DecidableEq, Repr

/-- Faults of a light-bar channel (R550, R660). -/
inductive BarFault where
  | short
  | openLoad
  | compliance
  | overTemp
  | cleared
  deriving DecidableEq, Repr

/-- What a calibration stage measured (R560). DARK and FLAT bring, by bay and plane, the sum over CAL_LINES lines of each
pixel at the input of stage 4; GEOMETRY brings the fitted map of each
camera: bay, first view column, column count and knots (the spec states no fit); COLOUR brings the means of p0 to p3 of
each patch entry. -/
inductive CalMeas where
  | dark (levels : List (Nat × List (List Nat)))
  | flat (levels : List (Nat × List (List Nat)))
  | geometry (maps : List (Nat × Nat × Nat × List Nat))
  | colour (means : List (List Rat))
  deriving DecidableEq, Repr

/-- What a trim measured (R566 to R570): dark means by plane and 512-pixel segment, and means of the reference columns by
plane. -/
structure TrimMeas where
  dark : List (List Rat)
  reference : List Rat
  deriving DecidableEq, Repr

/-- The commands of the block, one constructor per row of opcode_table.json, in the table's order. Every command
carries first `dt`, the nanoseconds since the command before it (DESIGN CHOICE, log entry 1). -/
inductive Instr where
  /-- OBJECT_WRITE (R73): A write to a dictionary object that has no row of its own is checked against access code and mode, then applied or refused with an abort code. -/
  | objectWrite (dt : Nat) (via : Path) (index sub : Nat) (data : List Nat)
  /-- ENC_COUNT (R369): A valid change of the WEB A/B state adds one count to the web count and updates the high-water mark. -/
  | encCount (dt : Nat) (a b : Bool) (held : Nat)
  /-- ENC_WIRE_FAULT (R370): A differential level below 200 mV for over 1 µs sets WIRE, freezes the count and tallies ENC_WIRE. -/
  | encWireFault (dt : Nat) (line lowNs : Nat)
  /-- SINCOS_QUADRANT_EDGE (R371): A sin/cos comparator quadrant edge advances the count by the quadrant and restarts the fraction. -/
  | sincosQuadrantEdge (dt : Nat) (input quadrant periodNs : Nat)
  /-- ENC_SERIAL_POLL (R374): The poll period expires and the M12 clocks a position request out to the SSI or BiSS C encoder. -/
  | encSerialPoll (dt : Nat)
  /-- ENC_SERIAL_POLL_DONE (R376): A completed poll is checked and its step added to the web count, or failed and tallied, setting SERIAL after three failures. -/
  | encSerialPollDone (dt : Nat) (word : Nat) (idle : Bool)
  /-- INDEX (R381): A qualified rising Z edge latches the web count into INDEX_COUNT and updates the index accounting. -/
  | index (edge : ZEdge)
  /-- OBS_UPDATE (R385): Every 100 ns the observer propagates and corrects position, speed and acceleration while FORWARD or BACKWARD. -/
  | obsUpdate (dt : Nat)
  /-- ENC_STANDSTILL (R387): No count for OBS_STANDSTILL_MS puts the observer in STANDSTILL, emits ENC_STANDSTILL and counts it. -/
  | encStandstill (dt : Nat)
  /-- CYL_TOOTH_EDGE (R393): A CYL tooth edge measures the tooth period in web counts and evaluates it for a missing or extra tooth. -/
  | cylToothEdge (dt : Nat)
  /-- AUX_COUNT (R396): A valid edge on AUX1 or AUX2 changes its count and drives any pulse output sourced from it. -/
  | auxCount (dt : Nat) (input : Nat) (a b : Bool) (held : Nat)
  /-- PULSE_EDGE (R398): An output state change waiting in the backlog is issued once PULSE_MIN_EDGE_NS has passed. -/
  | pulseEdge (dt : Nat) (n : Nat)
  /-- PULSE_DIVIDER_WRITE (R397): A write of PULSE_P or PULSE_Q is refused if P > Q or Q = 0, else applied at once with acc reset to 0. -/
  | pulseDividerWrite (dt : Nat) (via : Path) (n : Nat) (isQ : Bool) (value : Nat)
  /-- WEB_COUNT_SEND (R401): Every 20 µs and whenever a repeat start is fixed, the PRIMARY sends a WEB_COUNT frame. -/
  | webCountSend (dt : Nat)
  /-- WEB_COUNT_FRAME (R401): The SECONDARY receives a WEB_COUNT frame, compares and may adopt the count, and takes line numbers and repeat starts from it. -/
  | webCountFrame (dt : Nat) (frame : List Nat)
  /-- TRIGGER_ISSUE (R123): On a compare tick with a pending line and the minimum period elapsed, the next line trigger is issued to the bays. -/
  | triggerIssue (dt : Nat)
  /-- TRIGGER_WIDTH_END (R125): The trigger width expires and the falling edge is sent, loading any new light currents due for the next strip. -/
  | triggerWidthEnd (dt : Nat) (bay : Nat)
  /-- CAL_LINE_TIMER (R121): In CALIBRATE a line is triggered by time every calibration line period, taking the next line number. -/
  | calLineTimer (dt : Nat)
  /-- MODE_REQUEST (R58): A written mode code is checked against the transition table and pending state and answered at once with its outcome. -/
  | modeRequest (dt : Nat) (via : Path) (code : Nat)
  /-- HOLD_EXIT_FLUSH (R80): On HOLD to READY the frozen data path is flushed, the open repeat closed and covered, lanes retrained and triggering resumed. -/
  | holdExitFlush (dt : Nat)
  /-- BAY_RETRY (R111): In READY, restarts bring-up of one bay. -/
  | bayRetry (dt : Nat) (via : Path) (bay : Nat)
  /-- CXP_SIGNAL_DETECT (R105): A CoaXPress lane shows a signal at CXP-1 and enters DISCOVERY. -/
  | cxpSignalDetect (dt : Nat) (bay : Nat) (signal : CxpSignal)
  /-- CXP_DISCOVERY_DONE (R105): Bootstrap reads complete; connections mapped, MasterHostConnectionID and ConnectionConfig written and lanes enter STEP_UP. -/
  | cxpDiscoveryDone (dt : Nat) (bay : Nat) (cam : Option CxpCamera)
  /-- CXP_STEP_UP_LOCK (R105): Every target lane locks at the target rate; StreamPacketSizeMax is written and the bay reads OK. -/
  | cxpStepUpLock (dt : Nat) (bay : Nat)
  /-- CXP_STEP_UP_TIMEOUT (R106): A target lane fails to lock within 50 ms; ConnectionReset and retry at the next lower rate, or SPEED_BELOW_MIN. -/
  | cxpStepUpTimeout (dt : Nat) (bay : Nat)
  /-- LANE_STEP_DONE (R107): A lock-sequence step completes and the lane moves to the next state. -/
  | laneStepDone (dt : Nat) (quad lane lanesOffered : Nat)
  /-- LANE_STEP_TIMEOUT (R107): A bring-up step exceeds its limit; the lane returns to DETECT, LANE_RETRAIN is tallied, and after the limit it is FAILED. -/
  | laneStepTimeout (dt : Nat) (quad lane : Nat)
  /-- BRINGUP_END (R104): Every configured bay has a bring-up result and the pending DORMANT or HOLD to READY transition completes or fails with LANE_FAIL. -/
  | bringupEnd (dt : Nat)
  /-- LANE_LOCK_LOSS (R109): An ACTIVE lane loses lock; the tally rises and relock attempts start at the negotiated rate. -/
  | laneLockLoss (dt : Nat) (quad lane : Nat)
  /-- LANE_RETRAIN_FAIL (R109): A relock attempt exceeds its limit; after BAY_RETRAIN_MAX the slice is declared dead and the spare routed in. -/
  | laneRetrainFail (dt : Nat) (quad lane : Nat)
  /-- LANE_RETRAIN_DONE (R109): A relocking lane returns to ACTIVE without the exchange step. -/
  | laneRetrainDone (dt : Nat) (quad lane : Nat)
  /-- BLOCK_LOCK_GAINED (R103): After 64 consecutive valid sync headers the receiver declares block lock. -/
  | blockLockGained (dt : Nat) (quad lane : Nat) (symbols : List LaneSymbol)
  /-- ALIGN_ORDER_FAULT (R99): An ALIGN block out of sequence drops block lock on every lane of the port and tallies LANE_LOCK_LOSS. -/
  | alignOrderFault (dt : Nat) (lane seq : Nat)
  /-- POCXP_OVERLOAD (R93): A bay drawing over 18 W for 10 ms, or a shorted connection, has its PoCXP switched off and goes DOWN. -/
  | pocxpOverload (dt : Nat) (bay milliwatt overMs : Nat) (short : Bool)
  /-- LANE_BER (R112): A lane's BER estimate exceeds the limit; it is marked for substitution and LANE_BER emitted. -/
  | laneBer (dt : Nat) (quad lane errors bits : Nat)
  /-- SLICE_SELFTEST (R113): Starts a 10 s near-end PRBS31 loopback on a quarantined slice. -/
  | sliceSelftest (dt : Nat) (via : Path) (quad slice : Nat)
  /-- SLICE_SELFTEST_DONE (R113): The slice self-test ends; an error-free slice becomes SPARE, otherwise it stays in QUARANTINE. -/
  | sliceSelftestDone (dt : Nat) (quad bits errors : Nat)
  /-- SPARE_SLICE_CHECK (R114): Every 10 minutes each SPARE slice starts a 1 s near-end PRBS31 loopback. -/
  | spareSliceCheck (dt : Nat)
  /-- SPARE_SLICE_CHECK_DONE (R114): The spare check ends and a spare with errors goes to QUARANTINE. -/
  | spareSliceCheckDone (dt : Nat) (quad slice errors : Nat)
  /-- LB_RUN_START (R116): Starts a loopback on LB_SLICE if allowed in the mode, else sets LB_STATUS REFUSED. -/
  | lbRunStart (dt : Nat) (via : Path) (quad : Nat) (locked : Bool)
  /-- LB_RUN_STOP (R116): Stops a loopback; an IN_USE lane retrains under R109. -/
  | lbRunStop (dt : Nat) (via : Path) (quad bits errors : Nat)
  /-- BAY_CLEAR (R117): Clears the tallies and SAT bits of one bay, its lanes and slices. -/
  | bayClear (dt : Nat) (via : Path) (bay : Nat)
  /-- CASCADE_CLEAR (R117): Clears the tallies and SAT bits of the cascade port. -/
  | cascadeClear (dt : Nat) (via : Path)
  /-- CAPABILITY (R96): A capability frame is received and checked for role, protocol and firmware revision; success or EXCHANGE_FAIL. -/
  | capability (dt : Nat) (frame : List Nat)
  /-- RTT_REQUEST (R100): The SECONDARY receives an RTT_REQUEST and answers with RTT_REPLY and its turnaround. -/
  | rttRequest (dt : Nat) (frame : List Nat) (turnaround : Nat)
  /-- RTT_REPLY (R100): The PRIMARY computes the round trip, stores half in CASCADE_LATENCY_NS and sends LATENCY. -/
  | rttReply (dt : Nat) (frame : List Nat)
  /-- LATENCY (R100): The SECONDARY receives the one-way latency and stores it. -/
  | latency (dt : Nat) (frame : List Nat)
  /-- LB_REQUEST (R100): The partner receives a far-end loopback request and accepts or refuses it with LB_REPLY. -/
  | lbRequest (dt : Nat) (frame : List Nat)
  /-- LB_REPLY (R100): The requester receives the partner's answer; a refusal sets LB_STATUS REFUSED. -/
  | lbReply (dt : Nat) (frame : List Nat)
  /-- CAMERA_PACKET (R142): A camera stream packet arrives; it is checked for CRC, stream id and type, matched by tag and unpacked into tile packets. -/
  | cameraPacket (dt : Nat) (bay : Nat) (pkt : CamPacket)
  /-- LINE_LATE (R143): An incomplete line passes its time or line limit and becomes late. -/
  | lineLate (dt : Nat) (bay line : Nat)
  /-- EXP_COMMIT (R130): Commits the staged exposure set, registered against the last line triggered, to apply at a strip boundary. -/
  | expCommit (dt : Nat) (via : Path)
  /-- INTAKE_CLEAR (R147): Clears every intake tally and SAT bit. -/
  | intakeClear (dt : Nat) (via : Path)
  /-- TILE_PACKET (R141): A tile packet enters an easel and its CRC is checked. -/
  | tilePacket (dt : Nat) (easel ctx : Nat) (packet : List Nat)
  /-- EASEL_LINE_DONE (R153): An easel finishes a line and its arbiter chooses the next line from context A or the quay. -/
  | easelLineDone (dt : Nat) (easel phys : Nat) (ack : Bool)
  /-- EASEL_LOAD_WINDOW (R154): Each 100 ms window ends and EASEL_LOAD_PERMILLE takes the window's demand. -/
  | easelLoadWindow (dt : Nat) (easel : Nat)
  /-- EASEL_CTX_COMMIT (R160): Validates the staged bank and, if valid, registers it to apply at a strip boundary. -/
  | easelCtxCommit (dt : Nat) (via : Path) (easel ctx : Nat)
  /-- EASEL_PAL_COMMIT (R166): Commits the standby palette to apply at a strip boundary. -/
  | easelPalCommit (dt : Nat) (via : Path) (easel ctx : Nat)
  /-- EASEL_CLEAR (R197): Clears the tallies, SAT bits and peaks of one logical easel. -/
  | easelClear (dt : Nat) (via : Path) (easel : Nat)
  /-- EASEL_HEARTBEAT_SEND (R192): At a strip start, or after 5 ms without one, a heartbeat token is sent through context A of every running easel. -/
  | easelHeartbeatSend (dt : Nat)
  /-- EASEL_HB_DEADLINE (R192): A heartbeat token deadline passes without acknowledgement; three misses declare the easel dead. -/
  | easelHbDeadline (dt : Nat) (easel : Nat)
  /-- EASEL_SELFTEST (R195): Runs the built-in pattern through a quarantined easel. -/
  | easelSelftest (dt : Nat) (via : Path) (phys : Nat)
  /-- EASEL_SELFTEST_DONE (R195): The easel self-test ends; a matching signature makes it SPARE. -/
  | easelSelftestDone (dt : Nat) (pass : Bool)
  /-- SPARE_EASEL_CHECK (R196): Every 10 minutes the self-test pattern runs on the SPARE easel; failure quarantines it. -/
  | spareEaselCheck (dt : Nat)
  /-- JOINER_SEGMENT (R217): A corrected line segment reaches the seam joiner and is gained, placed by stagger and blended into the canvas. -/
  | joinerSegment (dt : Nat) (bay fill : Nat)
  /-- COMPLETION_NOTE (R209): An easel's completion note converts a range of output lines into canvas lines covered by blind records. -/
  | completionNote (dt : Nat) (bay : Nat)
  /-- SEAM_FORCED_COMPLETE (R210): The completion timeout expires; unaccounted lines are covered with blind records and the strip completed. -/
  | seamForcedComplete (dt : Nat) (view : Nat)
  /-- SEAM_CLEAR (R233): Clears the tallies and SAT bits of one view. -/
  | seamClear (dt : Nat) (via : Path) (view : Nat)
  /-- OVERLAP_FRAME (R230): A partner's OVERLAP frame is received and its columns blended into the cascade overlap. -/
  | overlapFrame (dt : Nat) (frame : List Nat)
  /-- MARK_SEARCH_DONE (R240): The register-mark search of a repeat ends, giving the actual start or counting a miss. -/
  | markSearchDone (dt : Nat) (rep : Nat)
  /-- REG_ROW_DONE (R250): The registration engine finishes an anchor row, regularises it and passes or fails it. -/
  | regRowDone (dt : Nat) (view row : Nat)
  /-- REG_LEARN (R261): Starts or restarts learning for every view of the active job in MAKEREADY. -/
  | regLearn (dt : Nat) (via : Path)
  /-- REG_UP_SAVE (R267): Compresses the learned underpaintings into the active job's portfolio entry. -/
  | regUpSave (dt : Nat) (via : Path)
  /-- REG_CLEAR (R268): Clears every registration tally and SAT bit. -/
  | regClear (dt : Nat) (via : Path)
  /-- TASK_ISSUE (R274): Once a strip is released, its anchor rows final and its next strip released, the sequencer issues its tasks to the tiles. -/
  | taskIssue (dt : Nat) (view : Nat)
  /-- FRAGMENT (R303): A fragment from a tile reaches the assembler and is held until its task ends. -/
  | fragment (dt : Nat) (src : TileSender)
  /-- TASK_END (R278): A task-end record reaches the assembler; fragments are accepted or discarded and candidates joined and closed. -/
  | taskEnd (dt : Nat) (src : TileSender) (loadWaitNs : Nat)
  /-- TILE_DEADLINE (R314): A task's deadline passes without acknowledgement; the miss is tallied and three misses declare the tile dead. -/
  | tileDeadline (dt : Nat) (tile : Nat)
  /-- TILE_HEARTBEAT_TASK (R313): A running tile receiving no task for 5 ms is given a heartbeat task. -/
  | tileHeartbeatTask (dt : Nat) (tile : Nat)
  /-- TIDE_COMMIT (R308): Validates the standby tide image and schedules it to become active by mode. -/
  | tideCommit (dt : Nat) (via : Path)
  /-- TIDE_LOAD_WINDOW (R306): Each 100 ms window ends and TIDE_LOAD_PERMILLE takes the busiest tile's load. -/
  | tideLoadWindow (dt : Nat)
  /-- TILE_SELFTEST (R316): Runs the built-in program on a quarantined tile. -/
  | tileSelftest (dt : Nat) (via : Path) (phys : Nat)
  /-- TILE_SELFTEST_DONE (R316): The tile self-test ends; a matching signature makes it SPARE. -/
  | tileSelftestDone (dt : Nat) (pass : Bool)
  /-- SPARE_TILE_CHECK (R317): Each SPARE tile is self-tested in turn every 10 minutes; failure quarantines it. -/
  | spareTileCheck (dt : Nat) (phys : Nat)
  /-- FABRIC_CLEAR (R320): Clears every fabric tally and SAT bit. -/
  | fabricClear (dt : Nat) (via : Path)
  /-- FRAGMENT_FRAME (R330): The PRIMARY receives a SECONDARY candidate in a FRAGMENT frame and joins, drops or emits it. -/
  | fragmentFrame (dt : Nat) (frame : List Nat)
  /-- DEF_CASCADE_WAIT (R331): The cascade wait for a held PRIMARY candidate expires and it is emitted. -/
  | defCascadeWait (dt : Nat)
  /-- REJECT_HOLD_END (R365): A publication's hold expires and the next queued publication is written. -/
  | rejectHoldEnd (dt : Nat)
  /-- MARK_WIDTH_END (R362): A marker on-period timed in µs ends and the output falls unless a later end is due. -/
  | markWidthEnd (dt : Nat) (marker : Nat)
  /-- MARK_ON_LIMIT (R362): An on-period reaching MARK_MAX_ON_MS is ended and tallied. -/
  | markOnLimit (dt : Nat) (marker : Nat)
  /-- MARKER_OVERCURRENT (R659): A marker output passing 1.2 A turns off within 100 µs until its next rising edge. -/
  | markerOvercurrent (dt : Nat) (marker : Nat)
  /-- DEF_CLEAR (R366): Clears every defect and marking tally and SAT bit. -/
  | defClear (dt : Nat) (via : Path)
  /-- MOTION_CLEAR (R402): Clears motion tallies, SAT bits and sticky ENC_FAULT bits. -/
  | motionClear (dt : Nat) (via : Path)
  /-- FILTER_OUTPUT (R406): A group produces its next decimated output, with settling, fading and overload flags, feeding its consumers. -/
  | filterOutput (dt : Nat) (group : Nat) (words : List Nat)
  /-- FC_PRESET_WRITE (R407): A preset write resets the group, loads factory coefficients into both banks and ends any fade. -/
  | fcPresetWrite (dt : Nat) (via : Path) (group value : Nat)
  /-- FC_COEF_COMMIT (R409): Validates the standby bank and starts a cross-fade, or switches at once while settling. -/
  | fcCoefCommit (dt : Nat) (via : Path) (group : Nat)
  /-- FC_COEF_FACTORY (R409): Copies the preset's factory coefficients into the standby bank without committing. -/
  | fcCoefFactory (dt : Nat) (via : Path) (group : Nat)
  /-- FC_SYNC (R413): Performs a synchronising reset of the groups in the mask. -/
  | fcSync (dt : Nat) (via : Path) (mask : Nat)
  /-- FC_CAPTURE_RUN (R421): Starts recording the next 4,096 outputs of the selected channel. -/
  | fcCaptureRun (dt : Nat) (via : Path)
  /-- FC_CLEAR (R422): Clears every filter-chain tally and SAT bit. -/
  | fcClear (dt : Nat) (via : Path)
  /-- DIGITAL_INPUT_EDGE (R428): A filtered digital input edge enters the event matrix as DI_RISE or DI_FALL and can capture a splice switch count. -/
  | digitalInputEdge (dt : Nat) (input : Nat) (level : Bool) (held : Nat)
  /-- EVENT_DELIVER (R427): An event advances one channel or LUT cell per event cycle and reaches its consumer. -/
  | eventDeliver (dt : Nat)
  /-- LUT_GLITCH_EXPIRY (R434): A flip-flop cell's Q has held for GLITCH cycles and LUT_c is emitted. -/
  | lutGlitchExpiry (dt : Nat) (cell : Nat)
  /-- CHAN_HOLDOFF_END (R437): A channel's holdoff ends and its held event is delivered. -/
  | chanHoldoffEnd (dt : Nat) (chan : Nat)
  /-- CHAN_RATE_WINDOW (R437): A rate window ends; a count over the limit is tallied, CHANNEL_RATE emitted and EN possibly cleared. -/
  | chanRateWindow (dt : Nat) (chan : Nat)
  /-- TIMER_EXPIRE (R439): A one-shot timer reaches its period, emits TIMER_n and becomes idle, taking any pending start. -/
  | timerExpire (dt : Nat) (n : Nat)
  /-- MARK_PULSE (R429): Task: turns a marker on for MARK_WIDTH without an item check. -/
  | markPulse (dt : Nat) (marker : Nat)
  /-- TIMER_START (R439): Task: starts timer n. -/
  | timerStart (dt : Nat) (n : Nat)
  /-- TIMER_STOP (R439): Task: stops timer n without emitting and discards its pending start. -/
  | timerStop (dt : Nat) (n : Nat)
  /-- LATCH (R440): Task: latches web count, DC time and speed and increments LATCH_SEQ. -/
  | latch (dt : Nat) (n : Nat)
  /-- EVT_COUNT (R429): Task: adds 1 to event counter n. -/
  | evtCount (dt : Nat) (n : Nat)
  /-- HOST_EVT (R429): Task: writes a host event record with code and DC time toward the event ring. -/
  | hostEvt (dt : Nat) (n : Nat)
  /-- ECAT_TOGGLE (R429): Task: toggles bit n of EVT_TOGGLE in process RAM. -/
  | ecatToggle (dt : Nat) (n : Nat)
  /-- FC_SYNC_GROUP (R413): Task: synchronising reset of one filter group. -/
  | fcSyncGroup (dt : Nat) (group : Nat)
  /-- DET_START (R429): Task: discards a FIXED detector's block in progress and starts a new one. -/
  | detStart (dt : Nat) (det : Nat)
  /-- PULSE_ZERO (R429): Task: sets acc and PULSE_COUNT of a pulse output to 0, keeping levels. -/
  | pulseZero (dt : Nat) (n : Nat)
  /-- HOLD_REQUEST (R430): Task: acts as a write of 5 to MODE_REQUEST. -/
  | holdRequest (dt : Nat)
  /-- TRACE_MARK (R647): Task: writes a MARK record to the trace ring. -/
  | traceMark (dt : Nat)
  /-- EVT_SOFT (R428): Emits EVT_SOFT_n for each set bit in one cycle. -/
  | evtSoft (dt : Nat) (via : Path) (mask : Nat)
  /-- EVT_SAVE (R441): Stores the channel, cell and timer configuration in the logbook. -/
  | evtSave (dt : Nat) (via : Path)
  /-- CHAN_CFG_WRITE (R438): A channel configuration write is checked against R425 and R426 and applied in the next event cycle. -/
  | chanCfgWrite (dt : Nat) (via : Path) (chan value : Nat)
  /-- CELL_CFG_WRITE (R435): A LUT cell configuration write applies and clears Q. -/
  | cellCfgWrite (dt : Nat) (via : Path) (cell value : Nat)
  /-- EVT_CLEAR (R442): Clears every event-matrix tally and SAT bit. -/
  | evtClear (dt : Nat) (via : Path)
  /-- SRAM_UNCORRECTABLE (R443): An uncorrectable SRAM error is tallied and handled by region, declaring units dead or failing work. -/
  | sramUncorrectable (dt : Nat) (region unit : Nat)
  /-- SRAM_SCRUB (R444): The background scrubber reads and corrects SRAM words. -/
  | sramScrub (dt : Nat) (region unit corrected : Nat)
  /-- DRAM_POISON_READ (R449): A read meets an uncorrectable DRAM error and the consuming unit fails only its work in hand. -/
  | dramPoisonRead (dt : Nat) (pkg : Nat) (consumer : Consumer)
  /-- DRAM_PATROL (R450): The daily patrol scrub corrects DRAM and marks packages whose correction rate exceeds the limit. -/
  | dramPatrol (dt : Nat) (rates : List Nat)
  /-- DRAM_MIGRATE (R451): Starts a planned migration of a package onto the SPARE package. -/
  | dramMigrate (dt : Nat) (via : Path) (pkg : Nat)
  /-- DRAM_MIGRATE_DONE (R451): The copy completes; the spare serves the channel and the old package is RETIRED. -/
  | dramMigrateDone (dt : Nat)
  /-- DRAM_PKG_DEAD (R452): A package is declared dead; its epoch increments, the spare is routed and lost regions are handled under R453. -/
  | dramPkgDead (dt : Nat) (pkg : Nat) (cause : DramDeath)
  /-- DRAM_SELFTEST (R455): Runs a march test over a quarantined package. -/
  | dramSelftest (dt : Nat) (via : Path) (pkg : Nat)
  /-- DRAM_SELFTEST_DONE (R455): The march test ends; an error-free package becomes SPARE. -/
  | dramSelftestDone (dt : Nat) (errors : Nat)
  /-- SPARE_DRAM_CHECK (R456): Every 10 minutes a 64 MiB window of the SPARE package is tested. -/
  | spareDramCheck (dt : Nat)
  /-- MEM_CLEAR (R479): Clears memory tallies and SAT bits. -/
  | memClear (dt : Nat) (via : Path)
  /-- WH_START (R459): Checks and starts a wharf job on a channel. -/
  | whStart (dt : Nat) (via : Path) (chan : Nat)
  /-- WH_ABORT (R461): Stops a wharf job at the next burst boundary with status ABORTED. -/
  | whAbort (dt : Nat) (via : Path) (chan : Nat)
  /-- WH_FLUSH (R474): Ends the COMPRESS block in progress with FLUSHED. -/
  | whFlush (dt : Nat) (via : Path) (chan consumed : Nat)
  /-- WH_RESTART (R464): Clears WH_ALL_STOPPED and resumes every stopped job once bursts in flight have ended. -/
  | whRestart (dt : Nat) (via : Path) (settled : Bool)
  /-- WH_JOB_DONE (R461): A wharf job ends, commits or fails, frees its engine and raises its completion cause. -/
  | whJobDone (dt : Nat) (chan : Nat) (host : List Nat)
  /-- WH_BUS_ERROR (R463): A host-side transfer failure stops all channels, sets WH_ALL_STOPPED and records the error. -/
  | whBusError (dt : Nat) (kind : BusError) (addr : Option Nat) (progress : List Nat)
  /-- WH_CLEAR (R479): Clears wharf tallies and SAT bits. -/
  | whClear (dt : Nat) (via : Path)
  /-- CMP_CLEAR (R479): Clears compression tallies and SAT bits. -/
  | cmpClear (dt : Nat) (via : Path)
  /-- HL_RING_CONS_WRITE (R501): The host returns ring space by writing the consumer pointer; invalid values are ignored and tallied. -/
  | hlRingConsWrite (dt : Nat) (fn ring value : Nat)
  /-- HL_MBOX_TAIL_WRITE (R495): The host advances the mailbox tail and the M12 processes new descriptors in order. -/
  | hlMboxTailWrite (dt : Nat) (fn value : Nat)
  /-- HL_IRQ_STATUS_WRITE (R509): Writing 1 clears interrupt causes. -/
  | hlIrqStatusWrite (dt : Nat) (fn : Nat) (hi : Bool) (value : Nat)
  /-- MSIX_UNMASK (R509): Unmasking a vector with its pending bit set sends its message. -/
  | msixUnmask (dt : Nat) (fn vector : Nat)
  /-- HL_WH_COMMIT_LO_READ (R490): Reading the low commit word latches the high word into the function's shadow. -/
  | hlWhCommitLoRead (dt : Nat) (fn chan : Nat)
  /-- HL_WINDOW_READ (R492): A dictionary window read returns the value within 1 µs, latching the high word for a 4-byte pair. -/
  | hlWindowRead (dt : Nat) (fn offset width : Nat)
  /-- HL_WINDOW_WRITE (R493): A posted window write is applied within 10 µs in arrival order or refused with DICT_ERR. -/
  | hlWindowWrite (dt : Nat) (fn offset : Nat) (data : List Nat)
  /-- APERTURE_WRITE (R486): A BAR2 write takes effect inside host scratch only; others are dropped and tallied. -/
  | apertureWrite (dt : Nat) (fn offset : Nat) (data : List Nat)
  /-- RING_ENABLE_WRITE (R500): Enabling a ring sets both pointers to 0; disabling stages its output. -/
  | ringEnableWrite (dt : Nat) (via : Path) (ring value : Nat)
  /-- DICT_READ (R496): Mailbox op: copies an object into the host buffer. -/
  | dictRead (dt : Nat) (index sub bufLen : Nat)
  /-- DICT_WRITE (R496): Mailbox op: replaces an object whole when the transfer completes. -/
  | dictWrite (dt : Nat) (index sub : Nat) (data : List Nat)
  /-- PKG_STORE (R497): Mailbox op: fetches, checks and stores a job package into its portfolio slot. -/
  | pkgStore (dt : Nat) (package : List Nat)
  /-- FW_STORE (R497): Mailbox op: writes a firmware image into the standby image and verifies it. -/
  | fwStore (dt : Nat) (image : List Nat) (signatureOk : Bool)
  /-- CAM_READ (R498): Mailbox op: forwards a camera register read over the control channel. -/
  | camRead (dt : Nat) (fn bay addr len : Nat)
  /-- CAM_WRITE (R498): Mailbox op: forwards a camera register write, refusing registers the M12 owns. -/
  | camWrite (dt : Nat) (fn bay addr : Nat) (data : List Nat)
  /-- CAM_REPLY (R498): The camera's answer completes a pass-through descriptor. -/
  | camReply (dt : Nat) (bay : Nat) (data : List Nat)
  /-- PT_TIMEOUT (R498): A camera does not answer within HL_PT_TIMEOUT_MS; the descriptor ends TIMEOUT and is tallied. -/
  | ptTimeout (dt : Nat) (bay : Nat)
  /-- RING_COALESCE_EXPIRY (R510): The coalescing time after a ring's first advance expires and its cause message is sent. -/
  | ringCoalesceExpiry (dt : Nat) (ring : Nat)
  /-- LINK_DOWN (R511): A link down, hot reset or FLR disables the function's rings, ends its channels and clears its shadows. -/
  | linkDown (dt : Nat) (fn : Nat)
  /-- HL_CLEAR (R512): Clears every host-link tally and SAT bit. -/
  | hlClear (dt : Nat) (via : Path)
  /-- AL_STATE_REQUEST (R517): The master requests an EtherCAT state change, which is checked and performed or refused with an AL status code. -/
  | alStateRequest (dt : Nat) (target : Nat) (sm : SmConfig)
  /-- SM2_WATCHDOG (R518): The SM2 watchdog expires in OP; the slave enters SAFEOP and PDO_WD_ACTION applies. -/
  | sm2Watchdog (dt : Nat)
  /-- RXPDO_BUFFER (R531): A complete SM2 buffer is evaluated for HOLD, mode request, switch arm and exposure commit in order. -/
  | rxpdoBuffer (dt : Nat) (buffer : List Nat)
  /-- SDO_DOWNLOAD (R534): An SDO write, expedited, segmented or Complete Access, is applied entry by entry or aborted. -/
  | sdoDownload (dt : Nat) (index sub : Nat) (complete : Bool) (data : List Nat)
  /-- SDO_UPLOAD (R534): An SDO read returns an object's value or an abort. -/
  | sdoUpload (dt : Nat) (index sub : Nat) (complete : Bool)
  /-- SDO_INFO (R534): An SDO Info request returns object lists and descriptions with access codes. -/
  | sdoInfo (dt : Nat) (kind index sub : Nat)
  /-- SDO_SEGMENT_TIMEOUT (R535): An SDO segment not received within 1 s aborts the transfer. -/
  | sdoSegmentTimeout (dt : Nat)
  /-- MAILBOX_UNSUPPORTED (R513): An EoE, SoE, AoE or VoE message is answered with the unsupported-protocol mailbox error. -/
  | mailboxUnsupported (dt : Nat) (proto : Nat)
  /-- FOE_WRITE (R544): An FoE write delivers a firmware image or job package by file name, or is refused with an FoE error. -/
  | foeWrite (dt : Nat) (name : List Nat) (password : Nat) (data : List Nat) (signatureOk : Bool)
  /-- SYNC0 (R522): A DC SYNC signal enters the event matrix and samples the web count and speed PDO values. -/
  | sync0 (dt : Nat) (which : Nat)
  /-- SYNC_LOST (R522): A missed SYNC0 in OP with DC SYNC0 is tallied. -/
  | syncLost (dt : Nat)
  /-- DC_TIME_STEP (R520): A system time change of over 1 µs not from drift compensation is tallied and recorded. -/
  | dcTimeStep (dt : Nat) (delta : Int)
  /-- DC_LOCK_LOST (R521): A sample outside ±1 µs clears DC_LOCKED and sends emergency 0x8700. -/
  | dcLockLost (dt : Nat) (difference : Int)
  /-- STORE_PARAMETERS (R536): Writing save stores the last written values of rw, rws and rwb objects in the logbook. -/
  | storeParameters (dt : Nat) (via : Path) (value : Nat)
  /-- RESTORE_DEFAULTS (R536): Writing load discards the stored set at the next cold reset. -/
  | restoreDefaults (dt : Nat) (via : Path) (value : Nat)
  /-- M8_MIRROR_WRITE (R537): A mirror write is converted and applied to its M12 object under that object's rules. -/
  | m8MirrorWrite (dt : Nat) (via : Path) (index sub value : Nat)
  /-- M8_JOB_LOAD (R539): Performs PRELOAD of M8_JOB_SLOT, then sets REPEAT mode and arms when LOADED. -/
  | m8JobLoad (dt : Nat) (via : Path)
  /-- FW_ACTIVATE (R543): Makes a VALID standby image run from the next cold reset. -/
  | fwActivate (dt : Nat) (via : Path)
  /-- ECAT_CLEAR (R535): Clears the tallies and SAT bits of 0x2010. -/
  | ecatClear (dt : Nat) (via : Path)
  /-- PRELOAD (R47): Starts loading a portfolio slot into staging and the standby slot, or fails with SLOT_EMPTY. -/
  | preload (dt : Nat) (via : Path)
  /-- LOAD_COMPLETE (R46): Loading ends with state LOADED or FAILED with its result. -/
  | loadComplete (dt : Nat)
  /-- SWITCH_ARM (R48): Arms the loaded job switch, or activates it at once in READY. -/
  | switchArm (dt : Nat) (via : Path)
  /-- SWITCH_CANCEL (R52): Returns ARMED to LOADED. -/
  | switchCancel (dt : Nat) (via : Path)
  /-- BAR_IDENT_READ (R553): The bar memory is read and its identity, ratings and life block evaluated, marking stale views on a change. -/
  | barIdentRead (dt : Nat) (chan : Nat) (memory : Option (List Nat)) (tempMc : Int)
  /-- BAR_LIFE_TICK (R554): Each second of driving adds weighted equivalent and actual on-time to the bar's totals. -/
  | barLifeTick (dt : Nat) (chan meanMa dutyPermille milliVolt : Nat)
  /-- BAR_LIFE_WRITE (R555): Every 10 minutes of use and on entry to DORMANT the next life block is written to the bar. -/
  | barLifeWrite (dt : Nat) (chan : Nat)
  /-- BAR_FAULT (R550): Open or short circuit, compliance or overtemperature puts the channel in FAULT and disables it. -/
  | barFault (dt : Nat) (chan : Nat) (kind : BarFault)
  /-- CAL_STEP (R560): Confirms the target is placed and starts the waiting stage's measurement. -/
  | calStep (dt : Nat) (via : Path)
  /-- CAL_MEASURE_DONE (R560): A calibration stage finishes measuring and computes its results or fails. -/
  | calMeasureDone (dt : Nat) (meas : CalMeas)
  /-- CAL_ACCEPT (R561): Writes and commits the candidate results, stores the calibration and returns to READY. -/
  | calAccept (dt : Nat) (via : Path)
  /-- CAL_ABORT (R561): Discards the calibration results. -/
  | calAbort (dt : Nat) (via : Path)
  /-- TRIM_DUE (R564): A camera's temperature drift and interval make a trim due, scheduled at a trim strip. -/
  | trimDue (dt : Nat) (bay : Nat)
  /-- TRIM_NOW (R564): Makes a trim of the bay due at once in INSPECT. -/
  | trimNow (dt : Nat) (via : Path) (bay : Nat)
  /-- TRIM_RESULT (R568): After the gain lines the trim result is computed, checked for plausibility and committed or rejected. -/
  | trimResult (dt : Nat) (meas : TrimMeas)
  /-- LIGHT_CLEAR (R572): Clears light tallies and SAT bits. -/
  | lightClear (dt : Nat) (via : Path)
  /-- CAL_CLEAR (R572): Clears calibration tallies and SAT bits. -/
  | calClear (dt : Nat) (via : Path)
  /-- MAINS_HALF_CYCLE (R575): A half-cycle with a peak above 80 V arrives and updates the mains state, possibly ending LOSS. -/
  | mainsHalfCycle (dt : Nat) (peakV rmsDeciV centiHz : Nat)
  /-- MAINS_LOSS (R579): No qualifying half-cycle for 12 ms: lights shed, HOLD entered and the logbook commit started. -/
  | mainsLoss (dt : Nat)
  /-- MAINS_POWER_DOWN (R579): At T + 20 ms without a qualifying half-cycle the orderly power-down runs. -/
  | mainsPowerDown (dt : Nat)
  /-- POWER_CHECK (R576): Every 10 ms capacity and required power are computed and POWER_DEFICIT set or cleared. -/
  | powerCheck (dt : Nat)
  /-- PSU_STAGE_FAULT (R578): A stage reports FAULT and leaves the capacity. -/
  | psuStageFault (dt : Nat) (stage : Nat)
  /-- DOMAIN_POWERGOOD (R582): A domain's power-good arrives and the next domain is switched on. -/
  | domainPowergood (dt : Nat) (domain : Nat)
  /-- DOMAIN_POWERGOOD_TIMEOUT (R582): No power-good within 200 µs; the domain reads FAULT and its islands fail. -/
  | domainPowergoodTimeout (dt : Nat) (domain : Nat)
  /-- ISLAND_RELEASE (R587): After LOCK and 1,024 further cycles the island is released from reset. -/
  | islandRelease (dt : Nat) (island cycles : Nat)
  /-- ISLAND_LOCK_TIMEOUT (R588): No LOCK within 200 µs restarts the generator once, then the island FAILS and its units are handled. -/
  | islandLockTimeout (dt : Nat) (island : Nat)
  /-- ISLAND_WAKE (R601): A crossing into a STOPPED island raises a wake request and its clock runs within 2 µs. -/
  | islandWake (dt : Nat) (island : Nat)
  /-- MOORING_TOKEN (R602): After a reset releases, the ferry's mooring token reaches the sender and sending resumes. -/
  | mooringToken (dt : Nat) (island : Nat)
  /-- RESET_WARM (R592): RESET_REQUEST 1 performs a warm reset ending in DORMANT. -/
  | resetWarm (dt : Nat) (via : Path)
  /-- RESET_COLD (R589): RESET_REQUEST 2 performs a cold reset. -/
  | resetCold (dt : Nat) (via : Path) (bootFails : Nat)
  /-- RESET_BUTTON (R589): A front-panel release after under 2 s warm-resets, after 5 s or longer cold-resets. -/
  | resetButton (dt : Nat) (heldMs : Nat) (bootFails : Nat)
  /-- AO_BROWNOUT (R589): The AO rail falls below its limit and a cold reset follows. -/
  | aoBrownout (dt : Nat) (bootFails : Nat)
  /-- POWER_ON (R589): Power-on cold-starts the module: logbook reconciled, stored set applied, DORMANT entered. -/
  | powerOn (dt : Nat) (stages : List (List Nat)) (bootFails : Nat)
  /-- TEMP_SAMPLE (R597): Die and inlet temperatures set or clear OVERTEMP. -/
  | tempSample (dt : Nat) (dieMc inletMc : Int)
  /-- THERMAL_TRIP (R597): A die above 115 °C for 1 ms powers down, waits 60 s and starts as at power-on. -/
  | thermalTrip (dt : Nat)
  /-- WDT_EXPIRY (R593): The supervisor watchdog expires and HOLD is entered with SUPERVISOR. -/
  | wdtExpiry (dt : Nat)
  /-- SUPERVISOR_RESTART (R593): Still unserviced 2 s later, the supervisor is restarted and tallied. -/
  | supervisorRestart (dt : Nat)
  /-- IO_SUPPLY_LOW (R659): The I/O supply falls below 18 V; markers cannot drive, inputs read 0 and the loss is tallied. -/
  | ioSupplyLow (dt : Nat) (milliVolt : Nat)
  /-- POWER_CLEAR (R605): Clears power-chapter tallies, SAT bits and PULSE_LOST, except reset counts. -/
  | powerClear (dt : Nat) (via : Path)
  /-- LOGBOOK_COUNTERS_TIMER (R611): Every 10 minutes the COUNTERS entry is written to both logbook copies. -/
  | logbookCountersTimer (dt : Nat)
  /-- LOGBOOK_WEAR_TIMER (R611): Every 24 hours the WEAR entry is written. -/
  | logbookWearTimer (dt : Nat)
  /-- LOGBOOK_FACTORY_RESET (R619): Writing wipe in DORMANT kills settings entries, frees jobs and selects image A. -/
  | logbookFactoryReset (dt : Nat) (via : Path) (value : Nat)
  /-- SNAP_TAKE (R622): Starts copying retained canvas strips into a snapshot slot. -/
  | snapTake (dt : Nat) (via : Path) (slot : Nat)
  /-- SNAP_DONE (R622): The snapshot copy finishes DONE or FAILED. -/
  | snapDone (dt : Nat)
  /-- SNAP_DELETE (R622): Frees a snapshot slot. -/
  | snapDelete (dt : Nat) (via : Path) (slot : Nat)
  /-- RO_MEASURE (R633): Ring oscillators are measured and units past their drift limit marked. -/
  | roMeasure (dt : Nat) (tiles easels : List Int)
  /-- FAN_DEFICIT (R632): A fan below 80 % of its commanded speed for 60 s is retired. -/
  | fanDeficit (dt : Nat) (fan : Nat)
  /-- LBK_CLEAR (R643): Clears logbook-chapter tallies and SAT bits. -/
  | lbkClear (dt : Nat) (via : Path)
  /-- OBS_SAMPLE_TIMER (R651): Every millisecond all performance counters are copied into the sample block. -/
  | obsSampleTimer (dt : Nat)
  /-- DC_LOCKED (R521): The system time difference has stayed within ±100 ns for 100 ms and DC_LOCKED becomes 1, clearing the 0x8700 cause. -/
  | dcLocked (dt : Nat)
  /-- WIRE_CLEAR (R370): The differential level of A, B and Z returns above 200 mV, WIRE clears and the count resumes. -/
  | wireClear (dt : Nat)
  /-- HOST_LINK_UP (R526): A PCI Express function completes training and HOST_LINK_UP in STATUS_WORD sets. -/
  | hostLinkUp (dt : Nat) (fn gen width : Nat)
  /-- IO_SUPPLY_RETURN (R659): The I/O supply rises back to 18 V or more, IO_SUPPLY_LOW clears and markers and inputs work again. -/
  | ioSupplyReturn (dt : Nat) (milliVolt : Nat)
  /-- SPARE_EASEL_CHECK_DONE (R196): The periodic self-test pattern on the SPARE easel ends and a failing spare goes to QUARANTINE. -/
  | spareEaselCheckDone (dt : Nat) (pass : Bool)
  /-- SPARE_TILE_CHECK_DONE (R317): The periodic self-test of a SPARE tile ends within 50 ms and a failing spare goes to QUARANTINE. -/
  | spareTileCheckDone (dt : Nat) (phys : Nat) (pass : Bool)
  /-- SPARE_DRAM_CHECK_DONE (R456): The test of a 64 MiB window of the SPARE package ends and a spare with any error goes to QUARANTINE. -/
  | spareDramCheckDone (dt : Nat) (errors : Nat)
  /-- SUPERVISOR_REGION_REBUILT (R453): The supervisor DRAM region is rebuilt from the logbook and SRAM after a package loss, releasing a waiting easel takeover. -/
  | supervisorRegionRebuilt (dt : Nat)
  /-- SEAM_HOLDBACK_END (R214): A view's canvas write queue drains to 50 % and the joiner releases every context B it held back. -/
  | seamHoldbackEnd (dt : Nat) (view : Nat)
  /-- FAN_TRAY_CHANGE (R635): The fan tray's I²C serial changes, every fan returns to IN_USE and the tray life counters restart. -/
  | fanTrayChange (dt : Nat) (serial : List Nat)
  deriving DecidableEq, Repr

end Sys2Proof
end

