-- ==== Sys2Proof/Decode.lean ====
section
/-! DEFINITION. Decode.lean: the commands that words of the opcode table spell. -/
namespace Sys2Proof

/-- The command a word spells: none, since no row of the opcode table gives bits (log entry 3). -/
def decodeTableWord (_nbits _w : Nat) : Option Instr := none

end Sys2Proof
end

