-- ==== Sys2Proof/Config.lean ====
section
/-! DEFINITION. Config.lean: what the module's maker fixes and what the spec leaves open. Each constant has no body, so
no proof can see a value of it; each is named in the assumption log. -/
namespace Sys2Proof.Config

/-- FW_REVISION of firmware image A as delivered (R3, R541). -/
opaque fwRevision : Nat
/-- The module serial of the factory entry (R642). -/
opaque moduleSerial : Nat
/-- The wafer number burned into the die (R642). -/
opaque asicWafer : Nat
/-- The die column (R642), as a 16-bit two's complement word. -/
opaque dieX : Nat
/-- The die row (R642), as a 16-bit two's complement word. -/
opaque dieY : Nat
/-- The manufacture date of the factory entry (R642). -/
opaque buildDate : Nat
/-- The DRAM address of the tide debug store. -/
opaque tideDebugAddr : Nat
/-- The characters of ASIC_LOT (R642). -/
opaque asicLot : List Nat
/-- The characters of HW_VERSION and MODULE_HW_REVISION. -/
opaque hwRevision : List Nat

/-- Twice the circle constant, as the observer's arithmetic holds it (R384). -/
opaque twoPi : Rat
/-- Whether a real number that is no whole number is taken up to the next one (R384, R385 state no rounding). -/
opaque roundsUp : Rat → Bool
/-- The speed a release takes from two counts that arrive at the same instant (R389 states none); the argument tells
the occasions apart. -/
opaque obsSpeedAtOnce : Nat → Rat
/-- Counts in a length when COUNT_LENGTH is 0, a quotient the spec does not state. -/
opaque countsOfNoLength : Int → Int
/-- The fraction of a sin/cos pair of zeros, whose angle no rule states (R371). -/
opaque angleOfZero : Nat → Nat → Nat
/-- Which whole number next to the square root of a quotient the module reports where the root is none (R380 states no rounding). -/
opaque rootUp : Nat → Nat → Bool

/-- Whether a PoCXP device is found on a connection (R93), which no command tells before the connection shows a signal; the first argument
tells the occasions apart. -/
opaque pocxpDevice : Nat → Nat → Bool

/-- The REAL32 word nearest a rational, as the module rounds it (R533). -/
opaque real32 : Rat → Nat
/-- What a lane of a tile's working space holds before the task writes it (R279 calls it undefined). -/
opaque undefinedLane : Nat → Nat → Nat → Nat
/-- The column and row sums of a flood fragment, which R302 does not state. -/
opaque floodSum : Nat → Nat → Nat

/-- A power whose exponent is in sixteenths, as the module holds it (R554 states no precision). -/
opaque realPow : Rat → Nat → Rat

/-- The last bit of a resampling weight, of which R190 states the kernel, the format and the sum but no rounding. -/
opaque keysBit : Nat → Nat → Nat
/-- A type's value where no site of it lies within the distance R183 searches. -/
opaque noSample : Nat → Nat → Nat → Int

/-- The severity of the flood record of a truncated candidate, which R350 does not state. -/
opaque floodSeverity : Nat
/-- What the underpainting plane holds for a line that no field registers (R275 loads it as it stands). -/
opaque noReference : Nat → Nat → Nat → Nat

/-- A match the compressor proposes (R473 gives each level a search effort, not a search): level, input and position to
offset and length. A proposal that does not fit the input is not taken. -/
opaque lzMatch : Nat → List Nat → Nat → Nat × Nat
/-- How far a job had come when it was stopped at a burst boundary (R461); the argument tells the occasions apart. -/
opaque progress : Nat → Nat
/-- How far a migration's copy has come within the bounds that R451 gives, by the time it has run. -/
opaque migrated : Nat → Nat
/-- A byte the spec leaves undefined (R459, R477), or host data that no command brought; the argument tells them apart. -/
opaque freeByte : Nat → Nat
/-- A value that the module measures and no rule fixes; the argument tells the occasions apart. -/
opaque measured : Nat → Nat
/-- Whether the program of a logbook copy fails (R610), which no command tells; the argument tells the occasions apart. -/
opaque flashFails : Nat → Bool
/-- What the portfolio's NAND shows on an occasion (R621), which no command tells: blocks retired, uncorrectable reads, reserve, highest
and mean erase count. -/
opaque nand : Nat → Nat → Nat
/-- A palette coefficient that the patches do not determine (R560 asks for a least-squares fit; a plane without signal
leaves its column open). -/
opaque colourFit : Nat → Rat
/-- A factory coefficient of a filter preset's compensator, 2.30 fixed point (R407 loads them; no rule states them). -/
opaque factoryCoef : Nat → Nat → Int
/-- The cosine of an angle in turns, as the detectors' arithmetic holds it (R417 states no precision). -/
opaque cosTurn : Rat → Rat
/-- The sine of an angle in turns, as the detectors' arithmetic holds it (R417). -/
opaque sinTurn : Rat → Rat
/-- The argument of a complex number, real part first, in turns (R417). -/
opaque argTurn : Rat → Rat → Rat
/-- The mean of the photodiode outputs of a bar of which a measurement brought none, a quotient that R556 and R560 do not state; the
first argument tells the occasions apart. -/
opaque noMean : Nat → Nat → Rat
/-- Whether an access to a Camera Link HS camera touches a register of R92: R94 names their form, not their addresses. -/
opaque clhsOwned : Nat → Nat → Bool

/-- The correlation of two patches of which one has no contrast, a quotient that R246 does not state. -/
opaque flatScore : List Nat → List Nat → Int
/-- The sub-pixel offset, in 1/16 pixel, of a peak whose neighbours score as high, a quotient that R248 does not state. -/
opaque flatPeak : Int → Int

end Sys2Proof.Config
end

