-- ==== Sys2Proof/Machine/Bytes.lean ====
section
/-! DEFINITION. Machine/Bytes.lean: byte order, two's complement, checksums and small list helpers. -/
namespace Sys2Proof.Machine

/-- The `n` bytes of `v`, least significant first (R6). -/
def leBytes : Nat → Nat → List Byte
  | 0, _ => []
  | n + 1, v => v % 256 :: leBytes n (v / 256)

/-- The number that little-endian bytes spell (R6). -/
def leNat : List Byte → Nat
  | [] => 0
  | b :: r => b + 256 * leNat r

/-- `n` bytes from offset `off`; bytes past the end read 0. -/
def bytesAt (bs : List Byte) (off n : Nat) : List Byte :=
  let t := (bs.drop off).take n
  t ++ List.replicate (n - t.length) 0

/-- The little-endian number of `n` bytes at offset `off`. -/
def natAt (bs : List Byte) (off n : Nat) : Nat := leNat (bytesAt bs off n)

/-- The integer that the `w`-bit word `v` spells in two's complement. -/
def toSigned (w v : Nat) : Int :=
  let u := v % 2 ^ w
  if 2 * u < 2 ^ w then (u : Int) else (u : Int) - (2 ^ w : Nat)

/-- The `w`-bit two's complement word of an integer. -/
def ofSigned (w : Nat) (i : Int) : Nat := (i % (2 ^ w : Nat)).toNat

/-- Bits `hi` down to `lo` of `v`, inclusive at both ends (R6). -/
def bits (v hi lo : Nat) : Nat := v / 2 ^ lo % 2 ^ (hi + 1 - lo)

/-- Bit `n` of `v`. -/
def bit (v n : Nat) : Bool := v.testBit n

/-- `v` with bit `n` set to `b`. -/
def setBit (v n : Nat) (b : Bool) : Nat :=
  if v.testBit n = b then v else if b then v + 2 ^ n else v - 2 ^ n

/-- 1 for true, 0 for false. -/
def b2n (b : Bool) : Nat := if b then 1 else 0

/-- A number held between two bounds. -/
def clampNat (lo hi v : Nat) : Nat := if v < lo then lo else if hi < v then hi else v

/-- An integer held between two bounds. -/
def clampInt (lo hi v : Int) : Int := if v < lo then lo else if hi < v then hi else v

/-- The integer square root of a number below 4^k, from its high bits down. -/
def sqrtFrom : Nat → Nat → Nat → Nat
  | 0, _, r => r
  | k + 1, n, r => sqrtFrom k n (if (r + 2 ^ k) * (r + 2 ^ k) ≤ n then r + 2 ^ k else r)

/-- Quotient rounded to the nearest integer, ties up. -/
def divRoundUp (a b : Nat) : Nat := (2 * a + b) / (2 * b)

/-- Quotient of integers rounded to nearest, ties away from zero. -/
def divRoundAway (a : Int) (b : Nat) : Int :=
  if a < 0 then -(((2 * a.natAbs + b) / (2 * b) : Nat) : Int) else ((2 * a.natAbs + b) / (2 * b) : Nat)

/-- Quotient of integers rounded to nearest, ties to even. -/
def divRoundEven (a : Int) (b : Nat) : Int :=
  let q := a / (b : Int)
  let r := a % (b : Int)
  if 2 * r < (b : Int) then q else if (b : Int) < 2 * r then q + 1 else if q % 2 = 0 then q else q + 1

/-- Eight steps of a reflected CRC register with polynomial `p`. -/
def crcBits (p : Nat) : Nat → Nat → Nat
  | 0, c => c
  | n + 1, c => crcBits p n (if c % 2 = 1 then Nat.xor (c / 2) p else c / 2)

/-- A reflected 32-bit CRC with initial value and final inversion of all ones. -/
def crcWith (p : Nat) (bs : List Byte) : Nat :=
  Nat.xor (bs.foldl (fun c b => crcBits p 8 (Nat.xor c (b % 256))) 0xFFFFFFFF) 0xFFFFFFFF

/-- CRC-32C, the checksum of packages, frames and records. -/
def crc32c (bs : List Byte) : Nat := crcWith 0x82F63B78 bs

/-- CRC-32, the checksum of the logbook (R607, R608). -/
def crc32 (bs : List Byte) : Nat := crcWith 0xEDB88320 bs

/-- The list with element `i` passed through `f`. -/
def modifyAt {α : Type} (l : List α) (i : Nat) (f : α → α) : List α :=
  match l, i with
  | [], _ => []
  | a :: r, 0 => f a :: r
  | a :: r, i + 1 => a :: modifyAt r i f

/-- `f` applied `n` times. -/
def iter {α : Type} (f : α → α) : Nat → α → α
  | 0, a => a
  | n + 1, a => iter f n (f a)

/-- The lowest number below `n` that passes `p`. -/
def lowest (n : Nat) (p : Nat → Bool) : Option Nat := (List.range n).find? p

/-- How many numbers below `n` pass `p`. -/
def countBelow (n : Nat) (p : Nat → Bool) : Nat := ((List.range n).filter p).length

/-- Insert into a rising list without repeats. -/
def insertNat (k : Nat) : List Nat → List Nat
  | [] => [k]
  | a :: r => if k < a then k :: a :: r else if k = a then a :: r else a :: insertNat k r

/-- A finite map from numbers to numbers: pairs with rising keys. -/
abbrev Dict := List (Nat × Nat)

/-- The value listed under a key. -/
def Dict.look : Dict → Nat → Option Nat
  | [], _ => none
  | (a, v) :: r, k => if a = k then some v else Dict.look r k

/-- The map with `v` under `k`. -/
def Dict.put : Dict → Nat → Nat → Dict
  | [], k, v => [(k, v)]
  | (a, w) :: r, k, v =>
    if k < a then (k, v) :: (a, w) :: r else if k = a then (k, v) :: r else (a, w) :: Dict.put r k v

/-- The map without `k`. -/
def Dict.del (d : Dict) (k : Nat) : Dict := d.filter (fun e => e.1 != k)

/-- The map in canonical form: keys strictly rising. -/
def Dict.sorted : Dict → Bool
  | [] => true
  | [_] => true
  | (a, _) :: (b, w) :: r => decide (a < b) && Dict.sorted ((b, w) :: r)

/-- A store of byte strings by key, keys rising. -/
abbrev Blobs := List (Nat × List Byte)

/-- The bytes under a key. -/
def Blobs.look : Blobs → Nat → Option (List Byte)
  | [], _ => none
  | (a, v) :: r, k => if a = k then some v else Blobs.look r k

/-- The store with `v` under `k`. -/
def Blobs.put : Blobs → Nat → List Byte → Blobs
  | [], k, v => [(k, v)]
  | (a, w) :: r, k, v =>
    if k < a then (k, v) :: (a, w) :: r else if k = a then (k, v) :: r else (a, w) :: Blobs.put r k v

/-- The store without `k`. -/
def Blobs.del (d : Blobs) (k : Nat) : Blobs := d.filter (fun e => e.1 != k)

end Sys2Proof.Machine
end

