-- ==== Sys2Proof/Machine/Angle.lean ====
section
/-! DEFINITION. Machine/Angle.lean: angles, sines and roots that the rules write as real numbers: exact where the result is a whole
number of steps, else within a stated bound of the real value, the rest being free. -/
namespace Sys2Proof.Machine

/-- A free number held within `eps` of `x`. -/
def nearTo (x eps free : Rat) : Rat := max (x - eps) (min (x + eps) free)

/-- Twice the circle constant, free beyond its fifteenth decimal (R384 states no precision; log entry 98). -/
def twoPi : Rat := nearTo (6283185307179586477 / 1000000000000000000) (1 / 1000000000000000) Config.twoPi

/-- A real number as a whole number: one of its two neighbours, which one being free (log entry 98). -/
def wholeOf (x : Rat) : Int := if (x.floor : Rat) = x then x.floor else x.floor + (b2n (Config.roundsUp x) : Nat)

/-- A real number rounded to the nearest whole number; at a tie which neighbour is free (R385; log entry 98). -/
def nearest (x : Rat) : Int :=
  if 2 * (x - (x.floor : Rat)) = 1 then x.floor + (b2n (Config.roundsUp x) : Nat) else (x + 1 / 2).floor

/-- The angle of a vector of the first quadrant, in 2^n steps of the quadrant, rounded down: the angle is doubled bit by bit. -/
def angleSteps : Nat → Int → Int → Nat
  | 0, _, _ => 0
  | n + 1, x, y =>
    let c := x * x - y * y
    let d := 2 * x * y
    if 0 < c then angleSteps n c d else 2 ^ n + angleSteps n d (-c)

/-- The quadrant of a vector, and the vector turned back into the first. -/
def quadrantOf (x y : Int) : Nat × Int × Int :=
  if 0 < x ∧ 0 ≤ y then (0, x, y)
  else if x ≤ 0 ∧ 0 < y then (1, y, -x)
  else if x < 0 ∧ y ≤ 0 then (2, -x, -y)
  else (3, -y, x)

/-- The fraction of a sin/cos pair in 2^n steps of a quadrant: atan2(sin, cos) within the quadrant, clamped into the quadrant `q` that the
comparators report, towards its nearer end (R371). The sense in which the angle rises is the one in which the quadrants count up
(DEDUCED, log entry 180). The angle of a pair of zeros is free. -/
def sinCosFraction (sin cos : Int) (q n : Nat) : Nat :=
  if sin = 0 ∧ cos = 0 then min (2 ^ n - 1) (Config.angleOfZero q n)
  else
    let a := quadrantOf cos sin
    let f := angleSteps n a.2.1 a.2.2
    let off := (a.1 + 4 - q % 4) % 4
    if off = 0 then f else if off = 1 ∨ (off = 2 ∧ 2 * f < 2 ^ n) then 2 ^ n - 1 else 0

/-- The largest number whose sixteenth power is not above `n`, on top of the bits found before. -/
def sixteenthRoot : Nat → Nat → Nat → Nat
  | 0, _, r => r
  | k + 1, n, r => sixteenthRoot k n (if (r + 2 ^ k) ^ 16 ≤ n then r + 2 ^ k else r)

/-- A power with an exponent in sixteenths: exact where the exponent is whole, else free within 2^-32 (R554 states no precision; log
entry 66). -/
def powSixteenths (x : Rat) (e : Nat) : Rat :=
  if e % 16 = 0 then x ^ (e / 16)
  else nearTo (((sixteenthRoot 288 ((x ^ e * 2 ^ 512).floor.toNat) 0 : Nat) : Rat) / 2 ^ 32) (1 / 2 ^ 32) (Config.realPow x e)

/-- Terms of the series of sine and cosine in units of 2^-80. -/
def taylorSum (xx : Int) : Nat → Nat → Int → Int
  | 0, _, _ => 0
  | n + 1, k, t => t + taylorSum xx n (k + 2) (-(t * xx / 2 ^ 80) / (((k + 1) * (k + 2) : Nat) : Int))

/-- An angle in turns as radians in units of 2^-80, within half a turn of zero. -/
def radians (turn : Rat) : Int := ((turn - ((turn + 1 / 2).floor : Rat)) * 7595904947272677161575987).floor

/-- The cosine of an angle in turns, free within 2^-40 (R417 states no precision; log entry 98). -/
def cosTurn (turn : Rat) : Rat :=
  let x := radians turn
  nearTo ((taylorSum (x * x / 2 ^ 80) 32 0 (2 ^ 80) : Int) / 2 ^ 80) (1 / 2 ^ 40) (Config.cosTurn turn)

/-- The sine of an angle in turns, free within 2^-40 (R417 states no precision; log entry 98). -/
def sinTurn (turn : Rat) : Rat :=
  let x := radians turn
  nearTo ((taylorSum (x * x / 2 ^ 80) 32 1 x : Int) / 2 ^ 80) (1 / 2 ^ 40) (Config.sinTurn turn)

/-- A vector shortened to 96 bits. -/
def shorten (x y : Int) : Int × Int :=
  let k := (max x.natAbs y.natAbs).log2 - 96
  (x / 2 ^ k, y / 2 ^ k)

/-- The angle of a vector of the first quadrant in 2^n steps of the quadrant, the vector shortened at each doubling. -/
def angleNear : Nat → Int → Int → Nat
  | 0, _, _ => 0
  | n + 1, x, y =>
    let v := shorten (x * x - y * y) (2 * x * y)
    if 0 < v.1 then angleNear n v.1 v.2 else 2 ^ n + angleNear n v.2 (-v.1)

/-- The argument of a complex number in turns, 0 up to 1, free within 2^-30; of zero it is free (R417; log entry 98). -/
def argTurn (re im : Rat) : Rat :=
  let a := quadrantOf (re.num * im.den) (im.num * re.den)
  if re = 0 ∧ im = 0 then Config.argTurn re im
  else nearTo (((a.1 * 2 ^ 40 + angleNear 40 a.2.1 a.2.2 : Nat) : Rat) / 2 ^ 42) (1 / 2 ^ 30) (Config.argTurn re im)

end Sys2Proof.Machine
end

