-- ==== Sys2Proof/Machine/Objects.lean ====
section
/-! DEFINITION. Machine/Objects.lean: the object dictionary's tables. One definition per row of the spec's object
tables: where its instances lie, its type, its access code, its default, and the values a write may give it. -/
namespace Sys2Proof.Machine

/-- The data types of R533. -/
inductive Ty where
  | bool | u8 | u16 | u32 | u64 | i8 | i16 | i32 | i64 | real32 | str | octets | domain
  deriving DecidableEq, Repr

/-- Bits that a value of the type takes; a string, an octet string or a domain shows its length (R491). -/
def Ty.bits : Ty → Nat
  | .bool => 1
  | .u8 => 8
  | .i8 => 8
  | .u16 => 16
  | .i16 => 16
  | .u32 => 32
  | .i32 => 32
  | .real32 => 32
  | .u64 => 64
  | .i64 => 64
  | .str => 64
  | .octets => 64
  | .domain => 64

/-- Bytes that a value of the type takes; 0 for the types of varying length. -/
def Ty.bytes : Ty → Nat
  | .bool => 1
  | .str => 0
  | .octets => 0
  | .domain => 0
  | t => t.bits / 8

/-- Whether the type is read as two's complement. -/
def Ty.signed : Ty → Bool
  | .i8 => true
  | .i16 => true
  | .i32 => true
  | .i64 => true
  | _ => false

/-- The CoE type code of R533. -/
def Ty.code : Ty → Nat
  | .bool => 0x0001
  | .i8 => 0x0002
  | .i16 => 0x0003
  | .i32 => 0x0004
  | .u8 => 0x0005
  | .u16 => 0x0006
  | .u32 => 0x0007
  | .real32 => 0x0008
  | .str => 0x0009
  | .octets => 0x000A
  | .domain => 0x000F
  | .i64 => 0x0015
  | .u64 => 0x001B

/-- The access codes of R10, with the narrower windows of R74, R500 and R524 and the boundary an rwb object waits for. -/
inductive Acc where
  | ro | rw | rws | rwbRepeat | rwbStrip | rwPreop | rwDisabled | rwGain | cmd | pdo
  deriving DecidableEq, Repr

/-- One row of an object table. Instance `i` lies at `base + outer * (i / m) + inner * (i % m)`. -/
structure Obj where
  base  : Key
  outer : Nat := 0
  inner : Nat := 0
  m     : Nat := 1
  count : Nat := 1
  ty    : Ty
  acc   : Acc
  job   : Bool := false
  dflt  : Nat → Nat := fun _ => 0
  lo    : Int := 0
  hi    : Int := 0
  ranged : Bool := false
  enum  : List Nat := []
  step  : Nat := 1

/-- The key of instance `i` (R118 and the like). -/
def Obj.key (o : Obj) (i : Nat) : Key := o.base + o.outer * (i / o.m) + o.inner * (i % o.m)

/-- Which instance of the row lies at a key. -/
def Obj.instOf (o : Obj) (k : Key) : Option Nat :=
  let d := k - o.base
  let q := if o.outer = 0 then 0 else d / o.outer
  let r := if o.outer = 0 then d else d % o.outer
  let j := if o.inner = 0 then r else r / o.inner
  let i := q * o.m + j
  if o.base ≤ k && decide (i < o.count) && o.key i == k then some i else none

namespace Reg

/-! Objects of 01_web_model.md. -/

def WEB_COUNT : Obj := { base := 0x210001, ty := .i64, acc := .ro }
def WEB_HIGH_WATER : Obj := { base := 0x210002, ty := .i64, acc := .ro }
def LINE_PITCH : Obj :=
  { base := 0x210003, ty := .u32, acc := .rws, job := true, dflt := fun _ => 0x100000, lo := 65536, hi := 4294967295, ranged := true }
def COUNT_LENGTH : Obj := { base := 0x210004, ty := .u32, acc := .rws, job := true, dflt := fun _ => 0xa000 }
def LINE_NUMBER : Obj := { base := 0x210005, ty := .u64, acc := .ro }
def STRIP_NUMBER : Obj := { base := 0x210006, ty := .u64, acc := .ro }
def REPEAT_NUMBER : Obj := { base := 0x210007, ty := .u32, acc := .ro }
def REPEAT_EPOCH : Obj := { base := 0x210008, ty := .u16, acc := .ro }
def JOB_STAMP : Obj := { base := 0x210009, ty := .u32, acc := .ro }
def JOB_START_COUNT : Obj := { base := 0x21000A, ty := .i64, acc := .ro }
def REPEAT_START_COUNT : Obj := { base := 0x21000B, ty := .i64, acc := .ro }
def REPEAT_LINES_MIN : Obj :=
  { base := 0x21000C, ty := .u16, acc := .rws, job := true, dflt := fun _ => 0x200, lo := 512, hi := 40960, ranged := true }
def REPEAT_SHORT : Obj := { base := 0x21000D, ty := .u32, acc := .ro }
def PRELOAD_SLOT : Obj :=
  { base := 0x211001, ty := .u16, acc := .rw, dflt := fun _ => 0xffff, hi := 4095, ranged := true }
def PRELOAD : Obj := { base := 0x211002, ty := .u8, acc := .cmd, enum := [1] }
def SWITCH_MODE : Obj := { base := 0x211003, ty := .u8, acc := .rw, hi := 2, ranged := true }
def SWITCH_COUNT : Obj := { base := 0x211004, ty := .i64, acc := .rw }
def SPLICE_INPUT : Obj := { base := 0x211005, ty := .u8, acc := .rw, hi := 15, ranged := true }
def SPLICE_OFFSET : Obj := { base := 0x211006, ty := .i32, acc := .rw }
def SWITCH_ARM : Obj := { base := 0x211007, ty := .u8, acc := .cmd, enum := [1] }
def SWITCH_CANCEL : Obj := { base := 0x211008, ty := .u8, acc := .cmd, enum := [1] }
def SWITCH_STATE : Obj := { base := 0x211009, ty := .u8, acc := .ro }
def SWITCH_RESULT : Obj := { base := 0x21100A, ty := .u8, acc := .ro }
def SWITCH_LINE : Obj := { base := 0x21100B, ty := .u64, acc := .ro }
def ACTIVE_SLOT : Obj := { base := 0x21100C, ty := .u16, acc := .ro, dflt := fun _ => 0xffff }
def BLIND_POLICY : Obj :=
  { base := 0x21100D, ty := .u8, acc := .rwbRepeat, job := true, dflt := fun _ => 1, hi := 2, ranged := true }
def BLIND_MARK_PERMILLE : Obj :=
  { base := 0x21100E, ty := .u16, acc := .rwbRepeat, job := true, dflt := fun _ => 0xa, hi := 1000, ranged := true }

/-! Objects of 02_modes.md. -/

def MODE : Obj := { base := 0x200001, ty := .u8, acc := .ro }
def MODE_REQUEST : Obj := { base := 0x200002, ty := .u8, acc := .cmd, hi := 5, ranged := true }
def MODE_PENDING : Obj := { base := 0x200003, ty := .u8, acc := .ro, dflt := fun _ => 0xff }
def MODE_RESULT : Obj := { base := 0x200004, ty := .u8, acc := .ro }
def MODE_CHANGE_LINE : Obj := { base := 0x200005, ty := .u64, acc := .ro }
def HOLD_CAUSE : Obj := { base := 0x200006, ty := .u32, acc := .ro }
def CAL_VALID : Obj := { base := 0x200007, ty := .bool, acc := .ro }
def MODE_ENTRY_TIME : Obj := { base := 0x200008, ty := .u64, acc := .ro }
def HOLD_COUNT : Obj := { base := 0x200009, ty := .u32, acc := .ro }
def HOLD_MARKER_DISCARD : Obj := { base := 0x20000A, ty := .u32, acc := .ro }
def HOLD_FROM_DORMANT : Obj := { base := 0x20000B, ty := .bool, acc := .ro }

/-! Objects of 03_lanes.md. -/

def BAY_LINK_TYPE : Obj :=
  { base := 0x220001, outer := 0x1000, inner := 0x0, m := 1, count := 12, ty := .u8, acc := .rws, hi := 2, ranged := true }
def BAY_CXP_MAX_SPEED : Obj :=
  { base := 0x220002, outer := 0x1000, inner := 0x0, m := 1, count := 12, ty := .u8, acc := .rws, dflt := fun _ => 6, hi := 6, ranged := true }
def BAY_CXP_MIN_SPEED : Obj :=
  { base := 0x220003, outer := 0x1000, inner := 0x0, m := 1, count := 13, ty := .u8, acc := .rws, hi := 6, ranged := true }
def BAY_CONNECTIONS : Obj :=
  { base := 0x220004, outer := 0x1000, inner := 0x0, m := 1, count := 13, ty := .u8, acc := .rws, hi := 4, ranged := true }
def BAY_UPLINK : Obj :=
  { base := 0x220005, outer := 0x1000, inner := 0x0, m := 1, count := 13, ty := .u8, acc := .rws, dflt := fun _ => 1, enum := [0, 1] }
def BAY_POCXP_ENABLE : Obj :=
  { base := 0x220006, outer := 0x1000, inner := 0x0, m := 1, count := 13, ty := .bool, acc := .rws, dflt := fun _ => 1, enum := [0, 1] }
def BAY_RETRAIN_MAX : Obj :=
  { base := 0x220007, outer := 0x1000, inner := 0x0, m := 1, count := 13, ty := .u8, acc := .rw, dflt := fun _ => 2, lo := 1, hi := 7, ranged := true }
def BAY_BER_EXP : Obj :=
  { base := 0x220008, outer := 0x1000, inner := 0x0, m := 1, count := 13, ty := .u8, acc := .rw, dflt := fun _ => 0xa, lo := 6, hi := 12, ranged := true }
def BAY_PACKET_SIZE_MAX : Obj :=
  { base := 0x220009, outer := 0x1000, inner := 0x0, m := 1, count := 13, ty := .u16, acc := .rws, dflt := fun _ => 0x2000, lo := 256, hi := 16384, step := 4, ranged := true }
def BAY_CLEAR : Obj :=
  { base := 0x22000A, outer := 0x1000, inner := 0x0, m := 1, count := 12, ty := .u8, acc := .cmd, enum := [1] }
def BAY_RETRY : Obj :=
  { base := 0x22000B, outer := 0x1000, inner := 0x0, m := 1, count := 13, ty := .u8, acc := .cmd, enum := [1] }
def BAY_STATE : Obj := { base := 0x220101, outer := 0x1000, inner := 0x0, m := 1, count := 13, ty := .u8, acc := .ro }
def BAY_SPEED : Obj :=
  { base := 0x220102, outer := 0x1000, inner := 0x0, m := 1, count := 13, ty := .u8, acc := .ro, dflt := fun _ => 0xff }
def BAY_LANES_UP : Obj :=
  { base := 0x220103, outer := 0x1000, inner := 0x0, m := 1, count := 13, ty := .u8, acc := .ro }
def BAY_POCXP_MW : Obj :=
  { base := 0x220104, outer := 0x1000, inner := 0x0, m := 1, count := 13, ty := .u16, acc := .ro }
def BAY_POCXP_FAULT : Obj :=
  { base := 0x220105, outer := 0x1000, inner := 0x0, m := 1, count := 12, ty := .u32, acc := .ro }
def BAY_UNSUPPORTED_PKT : Obj :=
  { base := 0x220106, outer := 0x1000, inner := 0x0, m := 1, count := 12, ty := .u32, acc := .ro }
def BAY_CTRL_TIMEOUT : Obj :=
  { base := 0x220107, outer := 0x1000, inner := 0x0, m := 1, count := 12, ty := .u32, acc := .ro }
def BAY_RESULT : Obj :=
  { base := 0x220108, outer := 0x1000, inner := 0x0, m := 1, count := 12, ty := .u8, acc := .ro }
def LANE_STATE : Obj :=
  { base := 0x220201, outer := 0x1000, inner := 0x100, m := 4, count := 52, ty := .u8, acc := .ro }
def LANE_SLICE : Obj :=
  { base := 0x220202, outer := 0x1000, inner := 0x100, m := 4, count := 52, ty := .u8, acc := .ro, dflt := fun i => i % 4 }
def LANE_CODE_ERR : Obj :=
  { base := 0x220203, outer := 0x1000, inner := 0x100, m := 4, count := 52, ty := .u32, acc := .ro }
def LANE_LOCK_LOSS : Obj :=
  { base := 0x220204, outer := 0x1000, inner := 0x100, m := 4, count := 52, ty := .u32, acc := .ro }
def LANE_RETRAIN : Obj :=
  { base := 0x220205, outer := 0x1000, inner := 0x100, m := 4, count := 52, ty := .u32, acc := .ro }
def LANE_BYTES : Obj :=
  { base := 0x220206, outer := 0x1000, inner := 0x100, m := 4, count := 52, ty := .u64, acc := .ro }
def LANE_BER_EST : Obj :=
  { base := 0x220207, outer := 0x1000, inner := 0x100, m := 4, count := 52, ty := .real32, acc := .ro }
def LANE_CONN_ID : Obj :=
  { base := 0x220208, outer := 0x1000, inner := 0x100, m := 4, count := 52, ty := .u8, acc := .ro, dflt := fun _ => 0xff }
def SLICE_STATE : Obj :=
  { base := 0x220601, outer := 0x1000, inner := 0x1, m := 5, count := 65, ty := .u8, acc := .ro, dflt := fun i => if i % 5 == 4 then 1 else 0 }
def LANE_STALE_RESULT : Obj :=
  { base := 0x220606, outer := 0x1000, inner := 0x0, m := 1, count := 13, ty := .u32, acc := .ro }
def SLICE_SELFTEST : Obj :=
  { base := 0x220607, outer := 0x1000, inner := 0x0, m := 1, count := 13, ty := .u8, acc := .cmd, hi := 4, ranged := true }
def SLICE_SELFTEST_RESULT : Obj :=
  { base := 0x220608, outer := 0x1000, inner := 0x0, m := 1, count := 13, ty := .u8, acc := .ro }
def SLICE_EPOCH : Obj :=
  { base := 0x220609, outer := 0x1000, inner := 0x1, m := 5, count := 65, ty := .u16, acc := .ro }
def LB_MODE : Obj :=
  { base := 0x220801, outer := 0x1000, inner := 0x0, m := 1, count := 13, ty := .u8, acc := .rw, hi := 3, ranged := true }
def LB_SLICE : Obj :=
  { base := 0x220802, outer := 0x1000, inner := 0x0, m := 1, count := 13, ty := .u8, acc := .rw, dflt := fun _ => 4, hi := 4, ranged := true }
def LB_PATTERN : Obj :=
  { base := 0x220803, outer := 0x1000, inner := 0x0, m := 1, count := 13, ty := .u8, acc := .rw, dflt := fun _ => 2, hi := 2, ranged := true }
def LB_RATE : Obj :=
  { base := 0x220804, outer := 0x1000, inner := 0x0, m := 1, count := 13, ty := .u8, acc := .rw, dflt := fun _ => 6, hi := 6, ranged := true }
def LB_RUN : Obj :=
  { base := 0x220805, outer := 0x1000, inner := 0x0, m := 1, count := 13, ty := .u8, acc := .cmd, enum := [0, 1] }
def LB_BITS : Obj := { base := 0x220806, outer := 0x1000, inner := 0x0, m := 1, count := 13, ty := .u64, acc := .ro }
def LB_ERRORS : Obj :=
  { base := 0x220807, outer := 0x1000, inner := 0x0, m := 1, count := 13, ty := .u32, acc := .ro }
def LB_STATUS : Obj := { base := 0x220808, outer := 0x1000, inner := 0x0, m := 1, count := 13, ty := .u8, acc := .ro }
def CASCADE_ENABLE : Obj := { base := 0x22C001, ty := .bool, acc := .rws, enum := [0, 1] }
def CASCADE_ROLE : Obj := { base := 0x22C002, ty := .u8, acc := .rws, enum := [0, 1] }
def CASCADE_FRAME_CRC : Obj := { base := 0x22C105, ty := .u32, acc := .ro }
def CASCADE_FRAME_LOST : Obj := { base := 0x22C106, ty := .u32, acc := .ro }
def CASCADE_LATENCY_NS : Obj := { base := 0x22C107, ty := .u32, acc := .ro }

/-! Objects of 04_intake.md. -/

def TRIG_MIN_PERIOD_NS : Obj :=
  { base := 0x230001, ty := .u32, acc := .rws, dflt := fun _ => 0x9c4, lo := 2500, hi := 1000000, ranged := true }
def TRIG_M8_COMPAT : Obj := { base := 0x230002, ty := .bool, acc := .rws, enum := [0, 1] }
def TRIG_NEXT_COUNT : Obj := { base := 0x230003, ty := .i64, acc := .ro }
def TRIG_DEFERRED : Obj := { base := 0x230004, ty := .u32, acc := .ro }
def TRIG_OVERSPEED_LINES : Obj := { base := 0x230005, ty := .u32, acc := .ro }
def TRIG_WIDTH_CLIP : Obj := { base := 0x230006, ty := .u32, acc := .ro }
def TRIG_MAX_LAG_NS : Obj := { base := 0x230007, ty := .u32, acc := .ro }
def LATE_LIMIT_STRIPS : Obj :=
  { base := 0x230008, ty := .u8, acc := .rw, dflt := fun _ => 2, lo := 1, hi := 8, ranged := true }
def LATE_LIMIT_MS : Obj :=
  { base := 0x230009, ty := .u16, acc := .rw, dflt := fun _ => 0x32, lo := 1, hi := 1000, ranged := true }
def INTAKE_CLEAR : Obj := { base := 0x23000A, ty := .u8, acc := .cmd, enum := [1] }
def EXP_COMMIT : Obj := { base := 0x230101, ty := .u8, acc := .cmd, enum := [1] }
def EXP_GENERATION : Obj := { base := 0x230102, ty := .u8, acc := .ro }
def EXP_PENDING : Obj := { base := 0x230103, ty := .bool, acc := .ro }
def EXP_APPLY_STRIP : Obj := { base := 0x230104, ty := .u64, acc := .ro }
def EXP_COMMIT_REPLACED : Obj := { base := 0x230105, ty := .u32, acc := .ro }
def EXP_CURRENT_MA : Obj :=
  { base := 0x230106, outer := 0x0, inner := 0x1, m := 12, count := 12, ty := .u16, acc := .rw, hi := 3000, ranged := true }
def TRIG_PATH : Obj :=
  { base := 0x231001, outer := 0x100, inner := 0x0, m := 1, count := 12, ty := .u8, acc := .rws, dflt := fun _ => 1, hi := 3, ranged := true }
def EXP_WIDTH_NS : Obj :=
  { base := 0x231002, outer := 0x100, inner := 0x0, m := 1, count := 12, ty := .u32, acc := .rw, dflt := fun _ => 0x7d0, lo := 100, hi := 1000000, ranged := true }
def CAMERA_GAIN : Obj :=
  { base := 0x231003, outer := 0x100, inner := 0x0, m := 1, count := 12, ty := .u16, acc := .rwGain, dflt := fun _ => 0x100, lo := 64, hi := 2048, ranged := true }
def INTAKE_TYPE : Obj :=
  { base := 0x231004, outer := 0x100, inner := 0x1, m := 4, count := 48, ty := .u8, acc := .rws, dflt := fun i => if i % 4 == 0 then 1 else 0, enum := [0, 1, 2, 3, 4, 8, 9, 10, 12, 13, 14, 15, 20, 21, 22] }
def INTAKE_WIDTH : Obj :=
  { base := 0x231008, outer := 0x100, inner := 0x0, m := 1, count := 12, ty := .u16, acc := .rws, hi := 16384, ranged := true }
def LANE_CRC_ERR : Obj :=
  { base := 0x231009, outer := 0x100, inner := 0x1, m := 4, count := 48, ty := .u32, acc := .ro }
def LINES_LATE : Obj :=
  { base := 0x23100D, outer := 0x100, inner := 0x0, m := 1, count := 12, ty := .u32, acc := .ro }
def LINES_SUBSTITUTED : Obj :=
  { base := 0x23100E, outer := 0x100, inner := 0x0, m := 1, count := 12, ty := .u32, acc := .ro }
def LATE_DISCARD : Obj :=
  { base := 0x23100F, outer := 0x100, inner := 0x0, m := 1, count := 12, ty := .u32, acc := .ro }
def TAG_MISMATCH : Obj :=
  { base := 0x231010, outer := 0x100, inner := 0x0, m := 1, count := 12, ty := .u32, acc := .ro }
def PKT_TYPE_ERR : Obj :=
  { base := 0x231011, outer := 0x100, inner := 0x0, m := 1, count := 12, ty := .u32, acc := .ro }
def STAT_ENABLE : Obj :=
  { base := 0x231012, outer := 0x100, inner := 0x0, m := 1, count := 12, ty := .bool, acc := .rw, dflt := fun _ => 1, enum := [0, 1] }
def STAT_HIST_PLANE : Obj :=
  { base := 0x231013, outer := 0x100, inner := 0x0, m := 1, count := 12, ty := .u8, acc := .rw, dflt := fun _ => 1, hi := 3, ranged := true }
def LINES_RECEIVED : Obj :=
  { base := 0x231014, outer := 0x100, inner := 0x0, m := 1, count := 12, ty := .u64, acc := .ro }

/-! Objects of 05_easels.md. -/

def EASEL_STATE : Obj :=
  { base := 0x240001, outer := 0x2000, inner := 0x0, m := 1, count := 6, ty := .u8, acc := .ro }
def EASEL_PHYS : Obj :=
  { base := 0x240002, outer := 0x2000, inner := 0x0, m := 1, count := 6, ty := .u8, acc := .ro, dflt := fun i => i }
def EASEL_INLINE_BAY : Obj :=
  { base := 0x240003, outer := 0x2000, inner := 0x0, m := 1, count := 6, ty := .u8, acc := .rws, enum := [0, 1] }
def EASEL_QUAY_DEPTH : Obj :=
  { base := 0x240004, outer := 0x2000, inner := 0x0, m := 1, count := 6, ty := .u8, acc := .rws, dflt := fun _ => 8, lo := 1, hi := 8, ranged := true }
def EASEL_QUAY_DEPTH_EFF : Obj :=
  { base := 0x240005, outer := 0x2000, inner := 0x0, m := 1, count := 6, ty := .u8, acc := .ro }
def EASEL_QUAY_FILL : Obj :=
  { base := 0x240006, outer := 0x2000, inner := 0x0, m := 1, count := 6, ty := .u8, acc := .ro }
def EASEL_QUAY_PEAK : Obj :=
  { base := 0x240007, outer := 0x2000, inner := 0x0, m := 1, count := 6, ty := .u8, acc := .ro }
def EASEL_QUAY_DROP : Obj :=
  { base := 0x240008, outer := 0x2000, inner := 0x0, m := 1, count := 6, ty := .u32, acc := .ro }
def EASEL_LOAD_PERMILLE : Obj :=
  { base := 0x240009, outer := 0x2000, inner := 0x0, m := 1, count := 6, ty := .u16, acc := .ro }
def EASEL_LOAD_MAX_PERMILLE : Obj :=
  { base := 0x24000A, outer := 0x2000, inner := 0x0, m := 1, count := 6, ty := .u16, acc := .ro }
def EASEL_A_MAX_DELAY_NS : Obj :=
  { base := 0x24000B, outer := 0x2000, inner := 0x0, m := 1, count := 6, ty := .u32, acc := .ro }
def EASEL_CTX_SWITCHES : Obj :=
  { base := 0x24000C, outer := 0x2000, inner := 0x0, m := 1, count := 6, ty := .u64, acc := .ro }
def EASEL_HB_MISS : Obj :=
  { base := 0x24000D, outer := 0x2000, inner := 0x0, m := 1, count := 6, ty := .u32, acc := .ro }
def EASEL_MIXED_LINES : Obj :=
  { base := 0x24000E, outer := 0x2000, inner := 0x0, m := 1, count := 6, ty := .u32, acc := .ro }
def EASEL_CLEAR : Obj :=
  { base := 0x24000F, outer := 0x2000, inner := 0x0, m := 1, count := 6, ty := .u8, acc := .cmd, enum := [1] }
def EASEL_CTX_BAY : Obj :=
  { base := 0x241001, outer := 0x2000, inner := 0x100, m := 2, count := 12, ty := .u8, acc := .ro, dflt := fun i => i }
def EASEL_CTX_COMMIT : Obj :=
  { base := 0x241002, outer := 0x2000, inner := 0x100, m := 2, count := 12, ty := .u8, acc := .cmd, enum := [1] }
def EASEL_CTX_PENDING : Obj :=
  { base := 0x241003, outer := 0x2000, inner := 0x100, m := 2, count := 12, ty := .bool, acc := .ro }
def EASEL_CTX_APPLY_STRIP : Obj :=
  { base := 0x241004, outer := 0x2000, inner := 0x100, m := 2, count := 12, ty := .u64, acc := .ro }
def EASEL_COMMIT_RESULT : Obj :=
  { base := 0x241005, outer := 0x2000, inner := 0x100, m := 2, count := 12, ty := .u8, acc := .ro }
def EASEL_BYPASS : Obj :=
  { base := 0x241006, outer := 0x2000, inner := 0x100, m := 2, count := 12, ty := .u8, acc := .rw, hi := 31, ranged := true }
def EASEL_LIN_LUT : Obj :=
  { base := 0x241007, outer := 0x2000, inner := 0x100, m := 2, count := 12, ty := .domain, acc := .rw }
def EASEL_XTALK : Obj :=
  { base := 0x241008, outer := 0x2000, inner := 0x100, m := 2, count := 12, ty := .domain, acc := .rw, lo := 160, hi := 160, ranged := true }
def EASEL_GREEN : Obj :=
  { base := 0x241009, outer := 0x2000, inner := 0x100, m := 2, count := 12, ty := .domain, acc := .rw, lo := 64, hi := 64, ranged := true }
def EASEL_DARK_FLAT : Obj :=
  { base := 0x24100A, outer := 0x2000, inner := 0x100, m := 2, count := 12, ty := .domain, acc := .rw }
def EASEL_DPX_MAP : Obj :=
  { base := 0x24100B, outer := 0x2000, inner := 0x100, m := 2, count := 12, ty := .domain, acc := .rw, lo := 4, hi := 16388, ranged := true }
def EASEL_MOSAIC : Obj :=
  { base := 0x24100C, outer := 0x2000, inner := 0x100, m := 2, count := 12, ty := .octets, acc := .rw, lo := 16, hi := 16, ranged := true }
def EASEL_PALETTE : Obj :=
  { base := 0x24100D, outer := 0x2000, inner := 0x100, m := 2, count := 12, ty := .domain, acc := .rw }
def EASEL_PAL_COMMIT : Obj :=
  { base := 0x24100E, outer := 0x2000, inner := 0x100, m := 2, count := 12, ty := .u8, acc := .cmd, enum := [1] }
def EASEL_PAL_PENDING : Obj :=
  { base := 0x24100F, outer := 0x2000, inner := 0x100, m := 2, count := 12, ty := .bool, acc := .ro }
def EASEL_RESAMPLE : Obj :=
  { base := 0x241010, outer := 0x2000, inner := 0x100, m := 2, count := 12, ty := .domain, acc := .rw, lo := 24, hi := 2068, ranged := true }
def EASEL_COMMIT_STAGE : Obj :=
  { base := 0x241011, outer := 0x2000, inner := 0x100, m := 2, count := 12, ty := .u8, acc := .ro }
def EASEL_PHYS_STATE : Obj :=
  { base := 0x24E001, outer := 0x0, inner := 0x1, m := 7, count := 7, ty := .u8, acc := .ro, dflt := fun i => if i == 6 then 1 else 0 }
def EASEL_STALE_RESULT : Obj := { base := 0x24E008, ty := .u32, acc := .ro }
def EASEL_SELFTEST : Obj := { base := 0x24E009, ty := .u8, acc := .cmd, hi := 6, ranged := true }
def EASEL_SELFTEST_RESULT : Obj := { base := 0x24E00A, ty := .u8, acc := .ro }
def EASEL_EPOCH : Obj := { base := 0x24E00B, outer := 0x0, inner := 0x1, m := 7, count := 7, ty := .u16, acc := .ro }

/-! Objects of 06_seams_and_canvas.md. -/

def VIEW_WIDTH : Obj :=
  { base := 0x250001, outer := 0x2000, inner := 0x0, m := 1, count := 4, ty := .u32, acc := .rws, hi := 196608, ranged := true }
def VIEW_PLANES : Obj :=
  { base := 0x250002, outer := 0x2000, inner := 0x0, m := 1, count := 4, ty := .u8, acc := .rws, dflt := fun _ => 7 }
def SEAM_MODE : Obj :=
  { base := 0x250003, outer := 0x2000, inner := 0x0, m := 1, count := 4, ty := .u8, acc := .rws, enum := [0, 1] }
def SEAM_BAND : Obj :=
  { base := 0x250004, outer := 0x2000, inner := 0x0, m := 1, count := 4, ty := .u16, acc := .rws, dflt := fun _ => 0x100, lo := 16, hi := 2048, step := 2, ranged := true }
def SEAM_REF_BAY : Obj :=
  { base := 0x250005, outer := 0x2000, inner := 0x0, m := 1, count := 4, ty := .u8, acc := .rws, hi := 11, ranged := true }
def SEAM_GAIN_ENABLE : Obj :=
  { base := 0x250006, outer := 0x2000, inner := 0x0, m := 1, count := 4, ty := .bool, acc := .rw, dflt := fun _ => 1, enum := [0, 1] }
def SEAM_GAIN_MIN_PIXELS : Obj :=
  { base := 0x250007, outer := 0x2000, inner := 0x0, m := 1, count := 4, ty := .u32, acc := .rw, dflt := fun _ => 0x1000, lo := 1, hi := 524288, ranged := true }
def VIEW_CASCADE : Obj :=
  { base := 0x250008, outer := 0x2000, inner := 0x0, m := 1, count := 4, ty := .u8, acc := .rws, hi := 2, ranged := true }
def VIEW_CASCADE_OVERLAP : Obj :=
  { base := 0x250009, outer := 0x2000, inner := 0x0, m := 1, count := 4, ty := .u16, acc := .rws, dflt := fun _ => 0x400, lo := 64, hi := 2048, ranged := true }
def SEAM_COMPLETE_TIMEOUT_MS : Obj :=
  { base := 0x25000A, outer := 0x2000, inner := 0x0, m := 1, count := 4, ty := .u16, acc := .rw, dflt := fun _ => 0x64, lo := 10, hi := 2000, ranged := true }
def SEAM_CLEAR : Obj :=
  { base := 0x25000B, outer := 0x2000, inner := 0x0, m := 1, count := 4, ty := .u8, acc := .cmd, enum := [1] }
def SEAM_GAIN_SHIFT : Obj :=
  { base := 0x25000C, outer := 0x2000, inner := 0x0, m := 1, count := 4, ty := .u8, acc := .rw, dflt := fun _ => 3, hi := 8, ranged := true }
def VIEW_PITCH_UM : Obj :=
  { base := 0x25000D, outer := 0x2000, inner := 0x0, m := 1, count := 4, ty := .u32, acc := .ro }
def VIEW_CONFIG_RESULT : Obj :=
  { base := 0x250101, outer := 0x2000, inner := 0x0, m := 1, count := 4, ty := .u8, acc := .ro }
def VIEW_STATE : Obj := { base := 0x250102, outer := 0x2000, inner := 0x0, m := 1, count := 4, ty := .u8, acc := .ro }
def VIEW_CAMERA_MASK : Obj :=
  { base := 0x250103, outer := 0x2000, inner := 0x0, m := 1, count := 4, ty := .u16, acc := .ro }
def CANVAS_RELEASED_STRIP : Obj :=
  { base := 0x250104, outer := 0x2000, inner := 0x0, m := 1, count := 4, ty := .u64, acc := .ro }
def CANVAS_OLDEST_STRIP : Obj :=
  { base := 0x250105, outer := 0x2000, inner := 0x0, m := 1, count := 4, ty := .u64, acc := .ro }
def VIEW_STAGGER_MAX : Obj :=
  { base := 0x250106, outer := 0x2000, inner := 0x0, m := 1, count := 4, ty := .u16, acc := .ro }
def CANVAS_RING_STRIPS : Obj :=
  { base := 0x250107, outer := 0x2000, inner := 0x0, m := 1, count := 4, ty := .u16, acc := .ro }
def SEAM_FORCED_COMPLETE : Obj :=
  { base := 0x250108, outer := 0x2000, inner := 0x0, m := 1, count := 4, ty := .u32, acc := .ro }
def SEAM_LATE_DISCARD : Obj :=
  { base := 0x250109, outer := 0x2000, inner := 0x0, m := 1, count := 4, ty := .u32, acc := .ro }
def SEAM_STAMP_BLIND_LINES : Obj :=
  { base := 0x25010A, outer := 0x2000, inner := 0x0, m := 1, count := 4, ty := .u32, acc := .ro }
def SEAM_GAIN_LIMIT : Obj :=
  { base := 0x25010B, outer := 0x2000, inner := 0x0, m := 1, count := 4, ty := .u32, acc := .ro }
def CANVAS_OVERRUN : Obj :=
  { base := 0x25010C, outer := 0x2000, inner := 0x0, m := 1, count := 4, ty := .u32, acc := .ro }
def CANVAS_ARCHIVE_EVICT : Obj :=
  { base := 0x25010D, outer := 0x2000, inner := 0x0, m := 1, count := 4, ty := .u32, acc := .ro }
def SEAM_HOLDBACK_NS : Obj :=
  { base := 0x25010E, outer := 0x2000, inner := 0x0, m := 1, count := 4, ty := .u64, acc := .ro }
def SEAM_QUEUE_OVERFLOW : Obj :=
  { base := 0x25010F, outer := 0x2000, inner := 0x0, m := 1, count := 4, ty := .u32, acc := .ro }
def CANVAS_CROP_EVICT : Obj :=
  { base := 0x250110, outer := 0x2000, inner := 0x0, m := 1, count := 4, ty := .u32, acc := .ro }
def CASCADE_OVERLAP_MISSING : Obj :=
  { base := 0x250111, outer := 0x2000, inner := 0x0, m := 1, count := 4, ty := .u32, acc := .ro }
def CAM_STAGGER_LINES : Obj :=
  { base := 0x258001, outer := 0x100, inner := 0x0, m := 1, count := 12, ty := .u16, acc := .rws, hi := 16383, ranged := true }
def CAM_SEAM_GAIN_CAL_L : Obj :=
  { base := 0x258002, outer := 0x100, inner := 0x0, m := 1, count := 12, ty := .u16, acc := .rw, dflt := fun _ => 0x4000 }
def CAM_SEAM_GAIN_CAL_N : Obj :=
  { base := 0x258003, outer := 0x100, inner := 0x0, m := 1, count := 12, ty := .u16, acc := .rw, dflt := fun _ => 0x4000 }
def CAM_SEAM_GAIN_L : Obj :=
  { base := 0x258004, outer := 0x100, inner := 0x0, m := 1, count := 12, ty := .u16, acc := .ro, dflt := fun _ => 0x4000 }
def CAM_SEAM_GAIN_N : Obj :=
  { base := 0x258005, outer := 0x100, inner := 0x0, m := 1, count := 12, ty := .u16, acc := .ro, dflt := fun _ => 0x4000 }

/-! Objects of 07_registration.md. -/

def REG_METHOD : Obj :=
  { base := 0x260001, ty := .u8, acc := .rwbRepeat, job := true, dflt := fun _ => 2, hi := 2, ranged := true }
def REG_REPEAT_LINES : Obj :=
  { base := 0x260002, ty := .u16, acc := .rwbRepeat, job := true, dflt := fun _ => 0x1f40, lo := 1, hi := 40960, ranged := true }
def REG_CYL_OFFSET : Obj := { base := 0x260003, ty := .u32, acc := .rwbRepeat, job := true, dflt := fun _ => 0x2000 }
def REG_REPEATS_PER_REV : Obj :=
  { base := 0x260004, ty := .u8, acc := .rwbRepeat, job := true, dflt := fun _ => 1, lo := 1, hi := 8, ranged := true }
def REG_MARK_VIEW : Obj := { base := 0x260005, ty := .u8, acc := .rwbRepeat, job := true, hi := 3, ranged := true }
def REG_MARK_MISS_MAX : Obj :=
  { base := 0x260006, ty := .u8, acc := .rwbRepeat, job := true, dflt := fun _ => 3, lo := 1, hi := 15, ranged := true }
def REG_ANCHOR_PITCH : Obj :=
  { base := 0x260007, ty := .u16, acc := .rwbRepeat, job := true, dflt := fun _ => 0x100, enum := [256, 512] }
def REG_MIN_NCC : Obj := { base := 0x260008, ty := .u8, acc := .rwbRepeat, job := true, dflt := fun _ => 0x99 }
def REG_MIN_CONTRAST : Obj := { base := 0x260009, ty := .u8, acc := .rwbRepeat, job := true, dflt := fun _ => 6 }
def REG_MIN_MARGIN : Obj := { base := 0x26000A, ty := .u8, acc := .rwbRepeat, job := true, dflt := fun _ => 0x1a }
def REG_OUTLIER : Obj := { base := 0x26000B, ty := .u16, acc := .rwbRepeat, job := true, dflt := fun _ => 0x30 }
def REG_ROW_MIN_PERMILLE : Obj :=
  { base := 0x26000C, ty := .u16, acc := .rwbRepeat, job := true, dflt := fun _ => 0x1f4, hi := 1000, ranged := true }
def REG_PLANE : Obj := { base := 0x26000D, ty := .u8, acc := .rwbRepeat, job := true, enum := [0, 1] }
def REG_LEARN_K : Obj :=
  { base := 0x26000E, ty := .u8, acc := .rwbRepeat, job := true, dflt := fun _ => 5, enum := [3, 5, 7, 9, 11, 13, 15] }
def REG_LEARN : Obj := { base := 0x26000F, ty := .u8, acc := .cmd, enum := [1] }
def REG_UP_SAVE : Obj := { base := 0x260010, ty := .u8, acc := .cmd, enum := [1] }
def REG_VAR_LIMIT : Obj := { base := 0x260011, ty := .u8, acc := .rw, dflt := fun _ => 0x20 }
def REG_CLEAR : Obj := { base := 0x260012, ty := .u8, acc := .cmd, enum := [1] }
def REG_START_LATE : Obj := { base := 0x260013, ty := .u32, acc := .ro }
def REG_MARK_MISS : Obj := { base := 0x260014, ty := .u32, acc := .ro }
def REG_PHASE_STATE : Obj := { base := 0x260015, ty := .u8, acc := .ro }
def REG_MARK_ERR_COUNTS : Obj := { base := 0x260016, ty := .i32, acc := .ro }
def REG_SLOT_ACTIVE : Obj := { base := 0x260017, ty := .u8, acc := .ro }
def REG_LEARN_REJECT : Obj := { base := 0x260018, ty := .u32, acc := .ro }
def REG_REV_COUNTS : Obj := { base := 0x260019, ty := .u32, acc := .ro }
def REG_VIEW_STATE : Obj :=
  { base := 0x261001, outer := 0x1000, inner := 0x0, m := 1, count := 4, ty := .u8, acc := .ro }
def REG_ANCHORS_X : Obj :=
  { base := 0x261002, outer := 0x1000, inner := 0x0, m := 1, count := 4, ty := .u16, acc := .ro }
def REG_ANCHORS_Y : Obj :=
  { base := 0x261003, outer := 0x1000, inner := 0x0, m := 1, count := 4, ty := .u16, acc := .ro }
def REG_CONF_PERMILLE : Obj :=
  { base := 0x261004, outer := 0x1000, inner := 0x0, m := 1, count := 4, ty := .u16, acc := .ro }
def REG_MEAN_DX : Obj :=
  { base := 0x261005, outer := 0x1000, inner := 0x0, m := 1, count := 4, ty := .i32, acc := .ro }
def REG_MEAN_DY : Obj :=
  { base := 0x261006, outer := 0x1000, inner := 0x0, m := 1, count := 4, ty := .i32, acc := .ro }
def REG_UNREG_STRIPS : Obj :=
  { base := 0x261007, outer := 0x1000, inner := 0x0, m := 1, count := 4, ty := .u32, acc := .ro }
def REG_CAPTURES : Obj :=
  { base := 0x261008, outer := 0x1000, inner := 0x0, m := 1, count := 4, ty := .u32, acc := .ro }
def REG_FIELD_ADDR : Obj :=
  { base := 0x261009, outer := 0x1000, inner := 0x0, m := 1, count := 4, ty := .u64, acc := .ro }
def REG_LEARN_STATE : Obj :=
  { base := 0x26100A, outer := 0x1000, inner := 0x0, m := 1, count := 4, ty := .u8, acc := .ro }
def REG_LEARN_BAND : Obj :=
  { base := 0x26100B, outer := 0x1000, inner := 0x0, m := 1, count := 4, ty := .u8, acc := .ro }
def REG_LEARN_BANDS : Obj :=
  { base := 0x26100C, outer := 0x1000, inner := 0x0, m := 1, count := 4, ty := .u8, acc := .ro }
def REG_VAR_MAP_ADDR : Obj :=
  { base := 0x26100D, outer := 0x1000, inner := 0x0, m := 1, count := 4, ty := .u64, acc := .ro }
def REG_LEARN_VAR_BLOCKS : Obj :=
  { base := 0x26100E, outer := 0x1000, inner := 0x0, m := 1, count := 4, ty := .u32, acc := .ro }
def REG_UP_PRESENT : Obj :=
  { base := 0x26100F, outer := 0x1000, inner := 0x0, m := 1, count := 4, ty := .bool, acc := .ro }

/-! Objects of 08_tide_tables_and_fabric.md. -/

def TIDE_IMAGE : Obj := { base := 0x270001, ty := .domain, acc := .rw, lo := 112, hi := 532560, ranged := true }
def TIDE_COMMIT : Obj := { base := 0x270002, ty := .u8, acc := .cmd, enum := [1] }
def TIDE_PENDING : Obj := { base := 0x270003, ty := .bool, acc := .ro }
def TIDE_RESULT : Obj := { base := 0x270004, ty := .u8, acc := .ro }
def TIDE_ERR_ENTRY : Obj := { base := 0x270005, ty := .u16, acc := .ro, dflt := fun _ => 0xffff }
def TIDE_BANK_ACTIVE : Obj := { base := 0x270006, ty := .u8, acc := .ro }
def TIDE_GENERATION : Obj := { base := 0x270007, ty := .u8, acc := .ro }
def TIDE_APPLY_LINE : Obj := { base := 0x270008, ty := .u64, acc := .ro }
def TIDE_LOAD_PERMILLE : Obj := { base := 0x270009, ty := .u16, acc := .ro }
def TIDE_LOAD_MAX_PERMILLE : Obj := { base := 0x27000A, ty := .u16, acc := .ro }
def TIDE_SLICES_USED : Obj := { base := 0x27000B, ty := .u8, acc := .ro }
def TIDE_DEBUG_VIEW : Obj :=
  { base := 0x27000C, ty := .u8, acc := .rw, dflt := fun _ => 0xff, enum := [0, 1, 2, 3, 255] }
def TIDE_DEBUG_ADDR : Obj := { base := 0x27000D, ty := .u64, acc := .ro, dflt := fun _ => Config.tideDebugAddr % 18446744073709551616 }
def FABRIC_CLEAR : Obj := { base := 0x27000E, ty := .u8, acc := .cmd, enum := [1] }
def TILE_HB_MISS : Obj := { base := 0x27000F, ty := .u32, acc := .ro }
def TILE_BLIND_TASKS : Obj := { base := 0x270010, ty := .u32, acc := .ro }
def TILE_RUN_OVERFLOW : Obj := { base := 0x270011, ty := .u32, acc := .ro }
def TILE_LOAD_WAIT_NS : Obj := { base := 0x270012, ty := .u64, acc := .ro }
def TILE_TASKS : Obj := { base := 0x270013, ty := .u64, acc := .ro }
def TILE_FRAGMENTS : Obj := { base := 0x270014, ty := .u64, acc := .ro }
def TILE_STALE_RESULT : Obj := { base := 0x270015, ty := .u32, acc := .ro }
def TILE_SELFTEST : Obj := { base := 0x270016, ty := .u8, acc := .cmd, hi := 103, ranged := true }
def TILE_SELFTEST_RESULT : Obj := { base := 0x270017, ty := .u8, acc := .ro }
def TILE_DEADLINE_NS : Obj := { base := 0x270018, ty := .u32, acc := .ro }
def TILE_PHYS : Obj :=
  { base := 0x271001, outer := 0x0, inner := 0x1, m := 96, count := 96, ty := .u8, acc := .ro, dflt := fun i => i }
def TILE_LOG_STATE : Obj :=
  { base := 0x272001, outer := 0x0, inner := 0x1, m := 96, count := 96, ty := .u8, acc := .ro }
def TILE_PHYS_STATE : Obj :=
  { base := 0x273001, outer := 0x0, inner := 0x1, m := 104, count := 104, ty := .u8, acc := .ro, dflt := fun i => if i < 96 then 0 else 1 }
def TILE_EPOCH : Obj :=
  { base := 0x274001, outer := 0x0, inner := 0x1, m := 104, count := 104, ty := .u16, acc := .ro }
def TIDE_VIEW_SLICE_WIDTH : Obj :=
  { base := 0x275001, outer := 0x100, inner := 0x0, m := 1, count := 4, ty := .u16, acc := .ro }
def TIDE_VIEW_SLICES : Obj :=
  { base := 0x275002, outer := 0x100, inner := 0x0, m := 1, count := 4, ty := .u8, acc := .ro }
def TIDE_VIEW_FIRST_TILE : Obj :=
  { base := 0x275003, outer := 0x100, inner := 0x0, m := 1, count := 4, ty := .u8, acc := .ro }
def TIDE_VIEW_HALO_ROWS : Obj :=
  { base := 0x275004, outer := 0x100, inner := 0x0, m := 1, count := 4, ty := .u8, acc := .ro }
def TIDE_VIEW_CLOCKS : Obj :=
  { base := 0x275005, outer := 0x100, inner := 0x0, m := 1, count := 4, ty := .u32, acc := .ro }

/-! Objects of 09_defects_and_marking.md. -/

def DEF_FLOOD_LIMIT : Obj :=
  { base := 0x280001, ty := .u16, acc := .rwbRepeat, job := true, dflt := fun _ => 0x400, lo := 16, hi := 65535, ranged := true }
def DEF_FLOOD_CLASS : Obj :=
  { base := 0x280002, ty := .u8, acc := .rwbRepeat, job := true, dflt := fun _ => 0xff, hi := 255, ranged := true }
def DEF_FLOOD_ACTION : Obj :=
  { base := 0x280003, ty := .u8, acc := .rwbRepeat, job := true, dflt := fun _ => 1, enum := [0, 1] }
def DEF_CROP_MARGIN : Obj :=
  { base := 0x280004, ty := .u16, acc := .rwbRepeat, job := true, dflt := fun _ => 0x20, hi := 512, ranged := true }
def DEF_CROP_MAX_PER_REPEAT : Obj :=
  { base := 0x280005, ty := .u16, acc := .rwbRepeat, job := true, dflt := fun _ => 0x100, hi := 4096, ranged := true }
def REJECT_HOLD_US : Obj :=
  { base := 0x280006, ty := .u16, acc := .rw, dflt := fun _ => 0x7d, hi := 10000, ranged := true }
def DEF_MAX_OPEN_STRIPS : Obj :=
  { base := 0x280007, ty := .u8, acc := .rws, dflt := fun _ => 0x10, lo := 1, hi := 64, ranged := true }
def DEF_CASCADE_WAIT_MS : Obj :=
  { base := 0x280008, ty := .u8, acc := .rws, dflt := fun _ => 0x14, lo := 1, hi := 200, ranged := true }
def DEF_RULES : Obj := { base := 0x280009, ty := .domain, acc := .ro }
def DEF_ITEMS : Obj := { base := 0x28000A, ty := .domain, acc := .ro }
def DEF_NEXT_ID : Obj := { base := 0x28000E, ty := .u64, acc := .ro, dflt := fun _ => 0 }
def DEF_CLEAR : Obj := { base := 0x28000F, ty := .u8, acc := .cmd, enum := [1] }
def DEF_RECORDS : Obj := { base := 0x280101, ty := .u64, acc := .ro }
def DEF_CANDIDATES : Obj := { base := 0x280102, ty := .u64, acc := .ro }
def DEF_REJECT_ITEMS : Obj := { base := 0x280103, ty := .u64, acc := .ro }
def DEF_SUPPRESSED : Obj := { base := 0x280104, ty := .u32, acc := .ro }
def DEF_CUT : Obj := { base := 0x280105, ty := .u32, acc := .ro }
def CASCADE_MERGE_LATE : Obj := { base := 0x280106, ty := .u32, acc := .ro }
def DEF_DEFAULT_HITS : Obj := { base := 0x280107, ty := .u32, acc := .ro }
def CROP_SKIPPED : Obj := { base := 0x280108, ty := .u32, acc := .ro }
def REJECT_QUEUE_DROP : Obj := { base := 0x280109, ty := .u32, acc := .ro }
def CROP_EVICTED : Obj := { base := 0x28010A, ty := .u32, acc := .ro }
def DEF_FLOOD_RECORDS : Obj := { base := 0x28010B, ty := .u32, acc := .ro }
def MARK_HEAD_OFFSET_UM : Obj :=
  { base := 0x281001, outer := 0x100, inner := 0x0, m := 1, count := 16, ty := .u32, acc := .rws }
def MARK_SHIFT_UM : Obj :=
  { base := 0x281002, outer := 0x100, inner := 0x0, m := 1, count := 16, ty := .i32, acc := .rwbRepeat, job := true }
def MARK_WIDTH : Obj :=
  { base := 0x281003, outer := 0x100, inner := 0x0, m := 1, count := 16, ty := .u32, acc := .rw, dflt := fun _ => 0x3e8, lo := 1, hi := 1000000, ranged := true }
def MARK_WIDTH_UNIT : Obj :=
  { base := 0x281004, outer := 0x100, inner := 0x0, m := 1, count := 16, ty := .u8, acc := .rw, enum := [0, 1] }
def MARK_MAX_ON_MS : Obj :=
  { base := 0x281005, outer := 0x100, inner := 0x0, m := 1, count := 16, ty := .u8, acc := .rw, dflt := fun _ => 0x32, lo := 1, hi := 50, ranged := true }
def MARK_ENABLE : Obj :=
  { base := 0x281006, outer := 0x100, inner := 0x0, m := 1, count := 16, ty := .bool, acc := .rw, dflt := fun _ => 1, enum := [0, 1] }
def MARK_LATE : Obj := { base := 0x281007, outer := 0x100, inner := 0x0, m := 1, count := 16, ty := .u32, acc := .ro }
def MARK_QUEUE_FULL : Obj :=
  { base := 0x281008, outer := 0x100, inner := 0x0, m := 1, count := 16, ty := .u32, acc := .ro }
def MARK_ON_LIMIT : Obj :=
  { base := 0x281009, outer := 0x100, inner := 0x0, m := 1, count := 16, ty := .u32, acc := .ro }
def MARK_QUEUE_FILL : Obj :=
  { base := 0x28100A, outer := 0x100, inner := 0x0, m := 1, count := 16, ty := .u16, acc := .ro }
def MARK_FIRED : Obj :=
  { base := 0x28100B, outer := 0x100, inner := 0x0, m := 1, count := 16, ty := .u64, acc := .ro }
def MARK_NEXT_COUNT : Obj :=
  { base := 0x28100C, outer := 0x100, inner := 0x0, m := 1, count := 16, ty := .i64, acc := .ro }

/-! Objects of 10_web_motion.md. -/

def WEB_TYPE : Obj := { base := 0x290001, ty := .u8, acc := .rws, hi := 3, ranged := true }
def WEB_INVERT : Obj := { base := 0x290002, ty := .bool, acc := .rws, enum := [0, 1] }
def ENC_FILTER_NS : Obj :=
  { base := 0x290003, ty := .u8, acc := .rws, dflt := fun _ => 4, hi := 20, step := 2, ranged := true }
def ENC_Z_GATE : Obj := { base := 0x290004, ty := .u8, acc := .rws, enum := [0, 1] }
def ENC_COUNTS_PER_REV : Obj := { base := 0x290005, ty := .u32, acc := .rws }
def ENC_INDEX_TOL : Obj := { base := 0x290006, ty := .u16, acc := .rw, dflt := fun _ => 2 }
def ENC_INTERP : Obj := { base := 0x290007, ty := .u8, acc := .rws, dflt := fun _ => 8, hi := 10, ranged := true }
def ENC_AMP_NOMINAL_MV : Obj :=
  { base := 0x290008, ty := .u16, acc := .rws, dflt := fun _ => 0x1f4, lo := 100, hi := 1000, ranged := true }
def ENC_AMP_MIN_PERMILLE : Obj :=
  { base := 0x290009, ty := .u16, acc := .rw, dflt := fun _ => 0x1f4, lo := 100, hi := 1000, ranged := true }
def ENC_AMP_MAX_PERMILLE : Obj :=
  { base := 0x29000A, ty := .u16, acc := .rw, dflt := fun _ => 0x514, lo := 1000, hi := 2000, ranged := true }
def ENC_AMP_FAULT_SAMPLES : Obj :=
  { base := 0x29000B, ty := .u8, acc := .rw, dflt := fun _ => 8, lo := 1, hi := 255, ranged := true }
def ENC_SERIAL_BITS : Obj :=
  { base := 0x29000C, ty := .u8, acc := .rws, dflt := fun _ => 0x19, lo := 10, hi := 32, ranged := true }
def ENC_SERIAL_CODE : Obj := { base := 0x29000D, ty := .u8, acc := .rws, enum := [0, 1] }
def ENC_SERIAL_CLOCK_KHZ : Obj :=
  { base := 0x29000E, ty := .u16, acc := .rws, dflt := fun _ => 0x7d0, lo := 100, hi := 10000, ranged := true }
def ENC_SERIAL_PERIOD_NS : Obj :=
  { base := 0x29000F, ty := .u32, acc := .rws, dflt := fun _ => 0xfa0, lo := 1000, hi := 1000000, ranged := true }
def ENC_SERIAL_MAX_STEP : Obj := { base := 0x290010, ty := .u32, acc := .rw, dflt := fun _ => 0x1000 }
def ENC_ILLEGAL_MAX : Obj := { base := 0x290011, ty := .u16, acc := .rw, dflt := fun _ => 0x10 }
def MOTION_CLEAR : Obj := { base := 0x290012, ty := .u8, acc := .cmd, enum := [1] }
def ENC_FAULT : Obj := { base := 0x290101, ty := .u16, acc := .ro }
def ENC_ILLEGAL : Obj := { base := 0x290102, ty := .u32, acc := .ro }
def ENC_INDEX_ERR : Obj := { base := 0x290103, ty := .u32, acc := .ro }
def ENC_AMP_FAULTS : Obj := { base := 0x290104, ty := .u32, acc := .ro }
def ENC_SERIAL_ERR : Obj := { base := 0x290105, ty := .u32, acc := .ro }
def ENC_ABS_POSITION : Obj := { base := 0x290106, ty := .u32, acc := .ro }
def ENC_AMPLITUDE_PERMILLE : Obj := { base := 0x290107, ty := .u16, acc := .ro }
def INDEX_COUNT : Obj := { base := 0x290108, ty := .i64, acc := .ro }
def INDEX_DELTA : Obj := { base := 0x290109, ty := .i64, acc := .ro }
def INDEX_DRIFT : Obj := { base := 0x29010A, ty := .i64, acc := .ro }
def INDEX_SEEN : Obj := { base := 0x29010B, ty := .u64, acc := .ro }
def ENC_WIRE : Obj := { base := 0x29010C, ty := .u32, acc := .ro }
def ENC_SERIAL_WARN : Obj := { base := 0x29010D, ty := .u32, acc := .ro }
def OBS_PRESET : Obj := { base := 0x290201, ty := .u8, acc := .rw, dflt := fun _ => 1, hi := 2, ranged := true }
def OBS_STANDSTILL_MS : Obj :=
  { base := 0x290202, ty := .u16, acc := .rw, dflt := fun _ => 0x14, lo := 1, hi := 1000, ranged := true }
def OBS_STATE : Obj := { base := 0x290203, ty := .u8, acc := .ro }
def OBS_POSITION : Obj := { base := 0x290204, ty := .i64, acc := .ro }
def OBS_SPEED : Obj := { base := 0x290205, ty := .i32, acc := .ro }
def OBS_ACCEL : Obj := { base := 0x290206, ty := .i32, acc := .ro }
def WEB_SPEED_MM_S : Obj := { base := 0x290207, ty := .i32, acc := .ro }
def OBS_REVERSALS : Obj := { base := 0x290208, ty := .u64, acc := .ro }
def OBS_STANDSTILLS : Obj := { base := 0x290209, ty := .u64, acc := .ro }
def OBS_EXTREME : Obj := { base := 0x29020A, ty := .i64, acc := .ro }
def CYL_TYPE : Obj := { base := 0x290801, ty := .u8, acc := .rws, hi := 2, ranged := true }
def CYL_REF_KIND : Obj := { base := 0x290802, ty := .u8, acc := .rws, enum := [0, 1] }
def CYL_TEETH : Obj := { base := 0x290803, ty := .u16, acc := .rws, lo := 3, hi := 4096, ranged := true }
def CYL_REF_COUNT : Obj := { base := 0x290804, ty := .i64, acc := .ro }
def CYL_TOOTH_PERIOD : Obj := { base := 0x290805, ty := .u32, acc := .ro }
def CYL_TOOTH_ERR : Obj := { base := 0x290806, ty := .u32, acc := .ro }
def CYL_REF_MISS : Obj := { base := 0x290807, ty := .u32, acc := .ro }
def CYL_REFS : Obj := { base := 0x290808, ty := .u64, acc := .ro }
def AUX_TYPE : Obj :=
  { base := 0x290901, outer := 0x100, inner := 0x0, m := 1, count := 2, ty := .u8, acc := .rws, hi := 2, ranged := true }
def AUX_INVERT : Obj :=
  { base := 0x290902, outer := 0x100, inner := 0x0, m := 1, count := 2, ty := .bool, acc := .rws, enum := [0, 1] }
def AUX_COUNT : Obj := { base := 0x290903, outer := 0x100, inner := 0x0, m := 1, count := 2, ty := .i64, acc := .ro }
def AUX_SLIP_RATIO : Obj := { base := 0x290904, ty := .u32, acc := .rws }
def AUX_SLIP_WINDOW : Obj := { base := 0x290905, ty := .u32, acc := .rw, dflt := fun _ => 0x186a0 }
def AUX_SLIP_TOL_PERMILLE : Obj :=
  { base := 0x290906, ty := .u16, acc := .rw, dflt := fun _ => 0x14, lo := 1, hi := 1000, ranged := true }
def AUX_SLIP : Obj := { base := 0x290907, ty := .u32, acc := .ro }
def PULSE_ENABLE : Obj :=
  { base := 0x291001, outer := 0x100, inner := 0x0, m := 1, count := 2, ty := .bool, acc := .rw, enum := [0, 1] }
def PULSE_SOURCE : Obj :=
  { base := 0x291002, outer := 0x100, inner := 0x0, m := 1, count := 2, ty := .u8, acc := .rw, hi := 2, ranged := true }
def PULSE_P : Obj :=
  { base := 0x291003, outer := 0x100, inner := 0x0, m := 1, count := 2, ty := .u32, acc := .rw, dflt := fun _ => 1 }
def PULSE_Q : Obj :=
  { base := 0x291004, outer := 0x100, inner := 0x0, m := 1, count := 2, ty := .u32, acc := .rw, dflt := fun _ => 1 }
def PULSE_MIN_EDGE_NS : Obj :=
  { base := 0x291005, outer := 0x100, inner := 0x0, m := 1, count := 2, ty := .u16, acc := .rw, dflt := fun _ => 0x19, lo := 25, hi := 10000, ranged := true }
def PULSE_BACKLOG : Obj :=
  { base := 0x291006, outer := 0x100, inner := 0x0, m := 1, count := 2, ty := .u16, acc := .ro }
def PULSE_OVERRUN : Obj :=
  { base := 0x291007, outer := 0x100, inner := 0x0, m := 1, count := 2, ty := .u32, acc := .ro }
def PULSE_COUNT : Obj :=
  { base := 0x291008, outer := 0x100, inner := 0x0, m := 1, count := 2, ty := .i64, acc := .ro }
def CASCADE_COUNT_TOL : Obj := { base := 0x291801, ty := .u16, acc := .rw, dflt := fun _ => 4 }
def CASCADE_COUNT_ERR : Obj := { base := 0x291802, ty := .u32, acc := .ro }
def CASCADE_COUNT_OFFSET : Obj := { base := 0x291803, ty := .i64, acc := .ro }

/-! Objects of 11_filter_chain.md. -/

def FC_SYNC : Obj := { base := 0x2A0001, ty := .u8, acc := .cmd, hi := 15, ranged := true }
def FC_CLEAR : Obj := { base := 0x2A0002, ty := .u8, acc := .cmd, enum := [1] }
def FC_CAPTURE_CHANNEL : Obj := { base := 0x2A0003, ty := .u8, acc := .rw, hi := 17, ranged := true }
def FC_CAPTURE_RUN : Obj := { base := 0x2A0004, ty := .u8, acc := .cmd, enum := [1] }
def FC_CAPTURE_STATE : Obj := { base := 0x2A0005, ty := .u8, acc := .ro }
def FC_CAPTURE : Obj := { base := 0x2A0006, ty := .domain, acc := .ro }
def FC_PRESET : Obj :=
  { base := 0x2A1001, outer := 0x100, inner := 0x0, m := 1, count := 4, ty := .u8, acc := .rw, dflt := fun i => if i == 2 then 2 else if i == 3 then 1 else 0, hi := 2, ranged := true }
def FC_FADE_SAMPLES : Obj :=
  { base := 0x2A1002, outer := 0x100, inner := 0x0, m := 1, count := 4, ty := .u16, acc := .rw, dflt := fun _ => 0x40, lo := 16, hi := 1024, ranged := true }
def FC_COEF : Obj := { base := 0x2A1003, outer := 0x100, inner := 0x0, m := 1, count := 4, ty := .domain, acc := .rw }
def FC_COEF_COMMIT : Obj :=
  { base := 0x2A1004, outer := 0x100, inner := 0x0, m := 1, count := 4, ty := .u8, acc := .cmd, enum := [1] }
def FC_COMMIT_RESULT : Obj :=
  { base := 0x2A1005, outer := 0x100, inner := 0x0, m := 1, count := 4, ty := .u8, acc := .ro }
def FC_FADE_STATE : Obj :=
  { base := 0x2A1006, outer := 0x100, inner := 0x0, m := 1, count := 4, ty := .u8, acc := .ro }
def FC_SETTLE_LEFT : Obj :=
  { base := 0x2A1007, outer := 0x100, inner := 0x0, m := 1, count := 4, ty := .u16, acc := .ro }
def FC_SYNC_COUNT : Obj :=
  { base := 0x2A1008, outer := 0x100, inner := 0x0, m := 1, count := 4, ty := .u64, acc := .ro }
def FC_BANK_ACTIVE : Obj :=
  { base := 0x2A1009, outer := 0x100, inner := 0x0, m := 1, count := 4, ty := .u8, acc := .ro }
def FC_COEF_FACTORY : Obj :=
  { base := 0x2A100A, outer := 0x100, inner := 0x0, m := 1, count := 4, ty := .u8, acc := .cmd, enum := [1] }
def FC_VALUE : Obj := { base := 0x2A2001, outer := 0x100, inner := 0x0, m := 1, count := 18, ty := .i32, acc := .ro }
def FC_FLAGS : Obj := { base := 0x2A2002, outer := 0x100, inner := 0x0, m := 1, count := 18, ty := .u8, acc := .ro }
def FC_OVERLOAD : Obj :=
  { base := 0x2A2003, outer := 0x100, inner := 0x0, m := 1, count := 18, ty := .u32, acc := .ro }
def FC_SAMPLES : Obj :=
  { base := 0x2A2004, outer := 0x100, inner := 0x0, m := 1, count := 18, ty := .u64, acc := .ro }
def DET_SOURCE : Obj :=
  { base := 0x2A4001, outer := 0x100, inner := 0x0, m := 1, count := 4, ty := .u8, acc := .rw, hi := 19, ranged := true }
def DET_MODE : Obj :=
  { base := 0x2A4002, outer := 0x100, inner := 0x0, m := 1, count := 4, ty := .u8, acc := .rw, hi := 2, ranged := true }
def DET_FREQ_MHZ : Obj :=
  { base := 0x2A4003, outer := 0x100, inner := 0x0, m := 1, count := 4, ty := .u32, acc := .rw, dflt := fun _ => 0x186a0 }
def DET_BLOCK : Obj :=
  { base := 0x2A4004, outer := 0x100, inner := 0x0, m := 1, count := 4, ty := .u32, acc := .rw, dflt := fun _ => 0x1000, lo := 16, hi := 1048576, ranged := true }
def DET_HARMONIC : Obj :=
  { base := 0x2A4005, outer := 0x100, inner := 0x0, m := 1, count := 4, ty := .u8, acc := .rw, dflt := fun _ => 1, lo := 1, hi := 64, ranged := true }
def DET_REVS : Obj :=
  { base := 0x2A4006, outer := 0x100, inner := 0x0, m := 1, count := 4, ty := .u8, acc := .rw, dflt := fun _ => 1, lo := 1, hi := 16, ranged := true }
def DET_LIMIT_PERMILLE : Obj :=
  { base := 0x2A4007, outer := 0x100, inner := 0x0, m := 1, count := 4, ty := .u16, acc := .rw }
def DET_AMPLITUDE : Obj :=
  { base := 0x2A4008, outer := 0x100, inner := 0x0, m := 1, count := 4, ty := .u32, acc := .ro }
def DET_PHASE : Obj := { base := 0x2A4009, outer := 0x100, inner := 0x0, m := 1, count := 4, ty := .u16, acc := .ro }
def DET_MEAN : Obj := { base := 0x2A400A, outer := 0x100, inner := 0x0, m := 1, count := 4, ty := .i32, acc := .ro }
def DET_RATIO_PERMILLE : Obj :=
  { base := 0x2A400B, outer := 0x100, inner := 0x0, m := 1, count := 4, ty := .u16, acc := .ro }
def DET_VALID : Obj := { base := 0x2A400C, outer := 0x100, inner := 0x0, m := 1, count := 4, ty := .bool, acc := .ro }
def DET_BLOCKS : Obj := { base := 0x2A400D, outer := 0x100, inner := 0x0, m := 1, count := 4, ty := .u64, acc := .ro }
def DET_DISCARDED : Obj :=
  { base := 0x2A400E, outer := 0x100, inner := 0x0, m := 1, count := 4, ty := .u32, acc := .ro }
def DET_LIMIT_HITS : Obj :=
  { base := 0x2A400F, outer := 0x100, inner := 0x0, m := 1, count := 4, ty := .u32, acc := .ro }

/-! Objects of 12_event_matrix.md. -/

def EVT_SOFT : Obj := { base := 0x2B0001, ty := .u16, acc := .cmd, hi := 65535, ranged := true }
def EVT_SAVE : Obj := { base := 0x2B0002, ty := .u8, acc := .cmd, enum := [1] }
def EVT_RESULT : Obj := { base := 0x2B0003, ty := .u8, acc := .ro }
def EVT_TASK_LOST : Obj := { base := 0x2B0004, ty := .u32, acc := .ro }
def EVT_TASK_LOST_LAST : Obj := { base := 0x2B0005, ty := .u8, acc := .ro }
def TASK_COINCIDENCE : Obj := { base := 0x2B0006, ty := .u32, acc := .ro }
def TASK_COINCIDENCE_LAST : Obj := { base := 0x2B0007, ty := .u8, acc := .ro }
def EVT_TASK_REFUSED : Obj := { base := 0x2B0008, ty := .u32, acc := .ro }
def EVT_HOLDOFF_LOST : Obj := { base := 0x2B0009, ty := .u32, acc := .ro }
def EVT_CLEAR : Obj := { base := 0x2B000A, ty := .u8, acc := .cmd, enum := [1] }
def EVT_TOGGLE : Obj := { base := 0x2B000B, ty := .u16, acc := .ro }
def CHAN_CFG : Obj := { base := 0x2B1001, outer := 0x100, inner := 0x0, m := 1, count := 64, ty := .u32, acc := .rw }
def CHAN_HOLDOFF : Obj :=
  { base := 0x2B1002, outer := 0x100, inner := 0x0, m := 1, count := 64, ty := .u16, acc := .rw, hi := 65535, ranged := true }
def CHAN_RATE_LIMIT : Obj :=
  { base := 0x2B1003, outer := 0x100, inner := 0x0, m := 1, count := 64, ty := .u16, acc := .rw }
def CHAN_RATE_WINDOW_US : Obj :=
  { base := 0x2B1004, outer := 0x100, inner := 0x0, m := 1, count := 64, ty := .u16, acc := .rw, dflt := fun _ => 0x3e8, lo := 1, hi := 65535, ranged := true }
def CHAN_EVENTS : Obj :=
  { base := 0x2B1005, outer := 0x100, inner := 0x0, m := 1, count := 64, ty := .u64, acc := .ro }
def CHAN_RATE_HITS : Obj :=
  { base := 0x2B1006, outer := 0x100, inner := 0x0, m := 1, count := 64, ty := .u32, acc := .ro }
def CELL_CFG : Obj := { base := 0x2B5001, outer := 0x100, inner := 0x0, m := 1, count := 32, ty := .u32, acc := .rw }
def CELL_STATE : Obj :=
  { base := 0x2B5002, outer := 0x100, inner := 0x0, m := 1, count := 32, ty := .bool, acc := .ro }
def TIMER_PERIOD : Obj :=
  { base := 0x2B7001, outer := 0x100, inner := 0x0, m := 1, count := 16, ty := .u32, acc := .rw, dflt := fun _ => 1, lo := 1, hi := 4294967295, ranged := true }
def TIMER_STATE : Obj :=
  { base := 0x2B7002, outer := 0x100, inner := 0x0, m := 1, count := 16, ty := .u8, acc := .ro }
def LATCH_COUNT : Obj :=
  { base := 0x2B8001, outer := 0x100, inner := 0x0, m := 1, count := 16, ty := .i64, acc := .ro }
def LATCH_TIME : Obj :=
  { base := 0x2B8002, outer := 0x100, inner := 0x0, m := 1, count := 16, ty := .u64, acc := .ro }
def LATCH_SPEED : Obj :=
  { base := 0x2B8003, outer := 0x100, inner := 0x0, m := 1, count := 16, ty := .i32, acc := .ro }
def LATCH_SEQ : Obj := { base := 0x2B8004, outer := 0x100, inner := 0x0, m := 1, count := 16, ty := .u64, acc := .ro }
def EVT_COUNT : Obj := { base := 0x2B8005, outer := 0x100, inner := 0x0, m := 1, count := 16, ty := .u64, acc := .ro }

/-! Objects of 13_memory_wharf_compression.md. -/

def SRAM_CE : Obj := { base := 0x2C0001, ty := .u32, acc := .ro }
def SRAM_UE : Obj := { base := 0x2C0002, ty := .u32, acc := .ro }
def SRAM_UE_LAST_REGION : Obj := { base := 0x2C0003, ty := .u8, acc := .ro, dflt := fun _ => 0xff }
def DRAM_MIGRATE : Obj := { base := 0x2C0005, ty := .u8, acc := .cmd, hi := 12, ranged := true }
def DRAM_MIGRATE_STATE : Obj := { base := 0x2C0006, ty := .u8, acc := .ro }
def DRAM_MIGRATE_PERMILLE : Obj := { base := 0x2C0007, ty := .u16, acc := .ro }
def DRAM_CE_LIMIT : Obj := { base := 0x2C0008, ty := .u32, acc := .rw, dflt := fun _ => 0x3e8 }
def DRAM_UE_DEAD : Obj :=
  { base := 0x2C0009, ty := .u8, acc := .rw, dflt := fun _ => 4, lo := 1, hi := 255, ranged := true }
def CANVAS_BASE : Obj :=
  { base := 0x2C000A, outer := 0x0, inner := 0x1, m := 4, count := 4, ty := .u64, acc := .ro, dflt := fun _ => 0x1390000000 }
def MEM_CLEAR : Obj := { base := 0x2C000E, ty := .u8, acc := .cmd, enum := [1] }
def DRAM_STALE_RESULT : Obj := { base := 0x2C000F, ty := .u32, acc := .ro }
def DRAM_SELFTEST : Obj := { base := 0x2C0010, ty := .u8, acc := .cmd, hi := 12, ranged := true }
def DRAM_SELFTEST_RESULT : Obj := { base := 0x2C0011, ty := .u8, acc := .ro }
def DRAM_POISON_READS : Obj := { base := 0x2C0012, ty := .u32, acc := .ro }
def DRAM_PKG_STATE : Obj :=
  { base := 0x2C0101, outer := 0x100, inner := 0x0, m := 1, count := 13, ty := .u8, acc := .ro, dflt := fun i => if i == 12 then 1 else 0 }
def DRAM_PKG_CHANNEL : Obj :=
  { base := 0x2C0102, outer := 0x100, inner := 0x0, m := 1, count := 13, ty := .u8, acc := .ro, dflt := fun i => if i == 12 then 0xFF else i }
def DRAM_PKG_CE : Obj :=
  { base := 0x2C0103, outer := 0x100, inner := 0x0, m := 1, count := 13, ty := .u32, acc := .ro }
def DRAM_PKG_UE : Obj :=
  { base := 0x2C0104, outer := 0x100, inner := 0x0, m := 1, count := 13, ty := .u32, acc := .ro }
def DRAM_PKG_EPOCH : Obj :=
  { base := 0x2C0105, outer := 0x100, inner := 0x0, m := 1, count := 13, ty := .u16, acc := .ro }
def DRAM_PKG_CE_RATE : Obj :=
  { base := 0x2C0106, outer := 0x100, inner := 0x0, m := 1, count := 13, ty := .u32, acc := .ro }
def WH_ALL_STOPPED : Obj := { base := 0x2C1001, ty := .bool, acc := .ro }
def WH_ERR_INFO : Obj := { base := 0x2C1002, ty := .u8, acc := .ro }
def WH_ERR_ADDR : Obj := { base := 0x2C1003, ty := .u64, acc := .ro }
def WH_RESTART : Obj := { base := 0x2C1004, ty := .u8, acc := .cmd, enum := [1] }
def WH_BUS_ERR : Obj := { base := 0x2C1005, ty := .u32, acc := .ro }
def WH_CLEAR : Obj := { base := 0x2C1006, ty := .u8, acc := .cmd, enum := [1] }
def WH_OP : Obj :=
  { base := 0x2C2001, outer := 0x100, inner := 0x0, m := 1, count := 32, ty := .u8, acc := .rw, hi := 2, ranged := true }
def WH_SRC_SPACE : Obj :=
  { base := 0x2C2002, outer := 0x100, inner := 0x0, m := 1, count := 32, ty := .u8, acc := .rw, enum := [0, 1] }
def WH_SRC_ADDR : Obj :=
  { base := 0x2C2003, outer := 0x100, inner := 0x0, m := 1, count := 32, ty := .u64, acc := .rw }
def WH_SRC_PITCH : Obj :=
  { base := 0x2C2004, outer := 0x100, inner := 0x0, m := 1, count := 32, ty := .i32, acc := .rw }
def WH_DST_SPACE : Obj :=
  { base := 0x2C2005, outer := 0x100, inner := 0x0, m := 1, count := 32, ty := .u8, acc := .rw, enum := [0, 1] }
def WH_DST_ADDR : Obj :=
  { base := 0x2C2006, outer := 0x100, inner := 0x0, m := 1, count := 32, ty := .u64, acc := .rw }
def WH_DST_PITCH : Obj :=
  { base := 0x2C2007, outer := 0x100, inner := 0x0, m := 1, count := 32, ty := .i32, acc := .rw }
def WH_ROW_BYTES : Obj :=
  { base := 0x2C2008, outer := 0x100, inner := 0x0, m := 1, count := 32, ty := .u32, acc := .rw, lo := 1, hi := 16777216, ranged := true }
def WH_ROWS : Obj :=
  { base := 0x2C2009, outer := 0x100, inner := 0x0, m := 1, count := 32, ty := .u32, acc := .rw, lo := 1, hi := 16777216, ranged := true }
def WH_DST_LIMIT : Obj :=
  { base := 0x2C200A, outer := 0x100, inner := 0x0, m := 1, count := 32, ty := .u64, acc := .rw }
def WH_SRC_LIMIT : Obj :=
  { base := 0x2C200B, outer := 0x100, inner := 0x0, m := 1, count := 32, ty := .u64, acc := .rw }
def WH_LEVEL : Obj :=
  { base := 0x2C200C, outer := 0x100, inner := 0x0, m := 1, count := 32, ty := .u8, acc := .rw, dflt := fun _ => 1, hi := 9, ranged := true }
def WH_FILTER : Obj :=
  { base := 0x2C200D, outer := 0x100, inner := 0x0, m := 1, count := 32, ty := .u8, acc := .rw, hi := 2, ranged := true }
def WH_BLOCK_LOG2 : Obj :=
  { base := 0x2C200E, outer := 0x100, inner := 0x0, m := 1, count := 32, ty := .u8, acc := .rw, dflt := fun _ => 0x10, lo := 12, hi := 20, ranged := true }
def WH_START : Obj :=
  { base := 0x2C200F, outer := 0x100, inner := 0x0, m := 1, count := 32, ty := .u8, acc := .cmd, enum := [1] }
def WH_ABORT : Obj :=
  { base := 0x2C2010, outer := 0x100, inner := 0x0, m := 1, count := 32, ty := .u8, acc := .cmd, enum := [1] }
def WH_FLUSH : Obj :=
  { base := 0x2C2011, outer := 0x100, inner := 0x0, m := 1, count := 32, ty := .u8, acc := .cmd, enum := [1] }
def WH_STATUS : Obj := { base := 0x2C2012, outer := 0x100, inner := 0x0, m := 1, count := 32, ty := .u8, acc := .ro }
def WH_PROGRESS_ROWS : Obj :=
  { base := 0x2C2013, outer := 0x100, inner := 0x0, m := 1, count := 32, ty := .u32, acc := .ro }
def WH_DST_COMMIT : Obj :=
  { base := 0x2C2014, outer := 0x100, inner := 0x0, m := 1, count := 32, ty := .u64, acc := .ro }
def WH_ERR_OFFSET : Obj :=
  { base := 0x2C2015, outer := 0x100, inner := 0x0, m := 1, count := 32, ty := .u64, acc := .ro }
def CMP_ENGINES_BUSY : Obj := { base := 0x2D0001, ty := .u8, acc := .ro }
def CMP_BYTES_IN : Obj := { base := 0x2D0002, ty := .u64, acc := .ro }
def CMP_BYTES_OUT : Obj := { base := 0x2D0003, ty := .u64, acc := .ro }
def CMP_FAIL : Obj := { base := 0x2D0004, ty := .u32, acc := .ro }
def CMP_CLEAR : Obj := { base := 0x2D0005, ty := .u8, acc := .cmd, enum := [1] }
def ARCHIVE_ENABLE : Obj :=
  { base := 0x2D0801, outer := 0x100, inner := 0x0, m := 1, count := 4, ty := .bool, acc := .rwbStrip, enum := [0, 1] }
def ARCHIVE_LEVEL : Obj :=
  { base := 0x2D0802, outer := 0x100, inner := 0x0, m := 1, count := 4, ty := .u8, acc := .rwbStrip, dflt := fun _ => 1, hi := 9, ranged := true }
def ARCHIVE_BLOCK_LOG2 : Obj :=
  { base := 0x2D0803, outer := 0x100, inner := 0x0, m := 1, count := 4, ty := .u8, acc := .rwbStrip, dflt := fun _ => 0x10, lo := 12, hi := 20, ranged := true }
def ARCHIVE_STRIPS : Obj :=
  { base := 0x2D0804, outer := 0x100, inner := 0x0, m := 1, count := 4, ty := .u64, acc := .ro }
def ARCHIVE_GAPS : Obj :=
  { base := 0x2D0805, outer := 0x100, inner := 0x0, m := 1, count := 4, ty := .u32, acc := .ro }
def ARCHIVE_SPACE_WAIT : Obj :=
  { base := 0x2D0806, outer := 0x100, inner := 0x0, m := 1, count := 4, ty := .u32, acc := .ro }

/-! Objects of 14_host_link.md. -/

def HL_LINK_MODE : Obj := { base := 0x2E0001, ty := .u8, acc := .rws, enum := [0, 1] }
def HL_LINK_MODE_ACTIVE : Obj := { base := 0x2E0002, ty := .u8, acc := .ro }
def HL_MAX_GEN : Obj :=
  { base := 0x2E0003, ty := .u8, acc := .rws, dflt := fun _ => 5, lo := 1, hi := 5, ranged := true }
def HL_LINK_GEN : Obj := { base := 0x2E0004, ty := .u8, acc := .ro }
def HL_LINK_WIDTH : Obj := { base := 0x2E0005, ty := .u8, acc := .ro }
def HL_APERTURE_BASE : Obj :=
  { base := 0x2E0006, outer := 0x0, inner := 0x1, m := 2, count := 2, ty := .u64, acc := .rw, hi := 205084688384, step := 1073741824, ranged := true }
def HL_APERTURE_WRITE_DROP : Obj := { base := 0x2E0008, ty := .u32, acc := .ro }
def HL_DICT_ERRORS : Obj := { base := 0x2E0009, ty := .u32, acc := .ro }
def HL_PT_TIMEOUT_MS : Obj :=
  { base := 0x2E000A, ty := .u16, acc := .rw, dflt := fun _ => 0xc8, lo := 10, hi := 5000, ranged := true }
def HL_PT_TIMEOUTS : Obj := { base := 0x2E000B, ty := .u32, acc := .ro }
def HL_CLEAR : Obj := { base := 0x2E000D, ty := .u8, acc := .cmd, enum := [1] }
def HL_LINK_DOWNS : Obj := { base := 0x2E000E, ty := .u32, acc := .ro }
def HL_PCI_IDS : Obj := { base := 0x2E000F, ty := .u32, acc := .ro, dflt := fun _ => 0x4D12_0B3D }
def RING_BASE : Obj :=
  { base := 0x2E1001, outer := 0x100, inner := 0x0, m := 1, count := 5, ty := .u64, acc := .rwDisabled, step := 4096 }
def RING_SIZE : Obj :=
  { base := 0x2E1002, outer := 0x100, inner := 0x0, m := 1, count := 5, ty := .u32, acc := .rwDisabled, dflt := fun i => if i == 4 then 1024 else 65536, lo := 16, hi := 2147483648, ranged := true }
def RING_WB_ADDR : Obj :=
  { base := 0x2E1003, outer := 0x100, inner := 0x0, m := 1, count := 5, ty := .u64, acc := .rwDisabled, step := 64 }
def RING_FUNCTION : Obj :=
  { base := 0x2E1004, outer := 0x100, inner := 0x0, m := 1, count := 5, ty := .u8, acc := .rwDisabled, enum := [0, 1] }
def RING_ENABLE : Obj :=
  { base := 0x2E1005, outer := 0x100, inner := 0x0, m := 1, count := 5, ty := .bool, acc := .rw, enum := [0, 1] }
def RING_COALESCE_US : Obj :=
  { base := 0x2E1006, outer := 0x100, inner := 0x0, m := 1, count := 5, ty := .u16, acc := .rw, dflt := fun _ => 0x32, hi := 10000, ranged := true }
def RING_DROP : Obj := { base := 0x2E1007, outer := 0x100, inner := 0x0, m := 1, count := 5, ty := .u32, acc := .ro }
def RING_STAGED_BYTES : Obj :=
  { base := 0x2E1008, outer := 0x100, inner := 0x0, m := 1, count := 5, ty := .u64, acc := .ro }
def RING_FRAMES : Obj :=
  { base := 0x2E1009, outer := 0x100, inner := 0x0, m := 1, count := 5, ty := .u64, acc := .ro }
def RING_OVERSIZE : Obj :=
  { base := 0x2E100A, outer := 0x100, inner := 0x0, m := 1, count := 5, ty := .u32, acc := .ro }

/-! Objects of 15_field_network_and_dictionary.md. -/

def DEVICE_TYPE : Obj := { base := 0x100000, ty := .u32, acc := .ro }
def ERROR_REGISTER : Obj := { base := 0x100100, ty := .u8, acc := .ro }
def DEVICE_NAME : Obj := { base := 0x100800, ty := .str, acc := .ro }
def HW_VERSION : Obj := { base := 0x100900, ty := .str, acc := .ro }
def SW_VERSION : Obj := { base := 0x100A00, ty := .str, acc := .ro }
def STORE_PARAMETERS : Obj := { base := 0x101001, ty := .u32, acc := .rw, dflt := fun _ => 1, enum := [1702257011] }
def RESTORE_DEFAULTS : Obj := { base := 0x101101, ty := .u32, acc := .rw, dflt := fun _ => 1, enum := [1684107116] }
def VENDOR_ID : Obj := { base := 0x101801, ty := .u32, acc := .ro, dflt := fun _ => 0xb3d }
def PRODUCT_CODE : Obj := { base := 0x101802, ty := .u32, acc := .ro, dflt := fun _ => 0x4d120000 }
def REVISION_NUMBER : Obj := { base := 0x101803, ty := .u32, acc := .ro, dflt := fun _ => Config.fwRevision % 4294967296 }
def SERIAL_NUMBER : Obj := { base := 0x101804, ty := .u32, acc := .ro, dflt := fun _ => Config.moduleSerial % 4294967296 }
def SM_TYPE : Obj :=
  { base := 0x1C0001, outer := 0x0, inner := 0x1, m := 4, count := 4, ty := .u8, acc := .ro, dflt := fun i => i + 1 }
def RXPDO_ASSIGN : Obj :=
  { base := 0x1C1201, ty := .u16, acc := .rwPreop, dflt := fun _ => 0x1600, enum := [5632, 5633] }
def TXPDO_ASSIGN : Obj :=
  { base := 0x1C1301, outer := 0x0, inner := 0x1, m := 3, count := 3, ty := .u16, acc := .rwPreop, dflt := fun _ => 0x1a00, lo := 6656, hi := 6658, ranged := true }
def SM2_SYNC_MODE : Obj := { base := 0x1C3201, ty := .u16, acc := .rwPreop, enum := [0, 1, 2] }
def SM2_CYCLE_NS : Obj := { base := 0x1C3202, ty := .u32, acc := .rwPreop }
def SM2_MIN_CYCLE_NS : Obj := { base := 0x1C3205, ty := .u32, acc := .ro, dflt := fun _ => 0xf424 }
def SM2_CALC_COPY_NS : Obj := { base := 0x1C3206, ty := .u32, acc := .ro, dflt := fun _ => 0x7d0 }
def ECAT_STATE : Obj := { base := 0x201001, ty := .u8, acc := .ro, dflt := fun _ => 1 }
def ECAT_AL_STATUS_CODE : Obj := { base := 0x201002, ty := .u16, acc := .ro }
def ECAT_SYNC_MODE : Obj := { base := 0x201003, ty := .u8, acc := .ro }
def ECAT_CYCLE_NS : Obj := { base := 0x201004, ty := .u32, acc := .ro }
def PDO_WD_ACTION : Obj := { base := 0x201005, ty := .u8, acc := .rws, enum := [0, 1] }
def PDO_WD_EXPIRED : Obj := { base := 0x201006, ty := .u32, acc := .ro }
def DC_LOCKED : Obj := { base := 0x201007, ty := .bool, acc := .ro }
def DC_TIME_STEPS : Obj := { base := 0x201008, ty := .u32, acc := .ro }
def DC_STEP_LAST_NS : Obj := { base := 0x201009, ty := .i64, acc := .ro }
def SYNC_LOST : Obj := { base := 0x20100A, ty := .u32, acc := .ro }
def EMCY_SENT : Obj := { base := 0x20100B, ty := .u64, acc := .ro }
def EMCY_LOST : Obj := { base := 0x20100C, ty := .u32, acc := .ro }
def DC_SYSTEM_TIME : Obj := { base := 0x20100D, ty := .u64, acc := .ro }
def ECAT_CLEAR : Obj := { base := 0x20100E, ty := .u8, acc := .cmd, enum := [1] }
def FW_REVISION : Obj := { base := 0x202001, ty := .u32, acc := .ro, dflt := fun _ => Config.fwRevision % 4294967296 }
def FW_IMAGE_ACTIVE : Obj := { base := 0x202002, ty := .u8, acc := .ro }
def FW_STANDBY_REVISION : Obj := { base := 0x202003, ty := .u32, acc := .ro }
def FW_STANDBY_STATE : Obj := { base := 0x202004, ty := .u8, acc := .ro }
def FW_ACTIVATE : Obj := { base := 0x202005, ty := .u8, acc := .cmd, enum := [1] }
def FW_BOOT_FAILS : Obj := { base := 0x202006, ty := .u32, acc := .ro }
def FW_RESULT : Obj := { base := 0x202007, ty := .u8, acc := .ro }

/-! Objects of 16_light_and_calibration.md. -/

def LIGHT_POWER_W : Obj := { base := 0x2F0001, ty := .u16, acc := .ro }
def LIGHT_BUDGET_W : Obj := { base := 0x2F0002, ty := .u16, acc := .ro, dflt := fun _ => 0x1e0 }
def LIGHT_CLEAR : Obj := { base := 0x2F0003, ty := .u8, acc := .cmd, enum := [1] }
def LIGHT_SHED : Obj := { base := 0x2F0004, ty := .u32, acc := .ro }
def BAR_ENABLE : Obj :=
  { base := 0x2F1001, outer := 0x100, inner := 0x0, m := 1, count := 12, ty := .bool, acc := .rws, enum := [0, 1] }
def BAR_MODE : Obj :=
  { base := 0x2F1002, outer := 0x100, inner := 0x0, m := 1, count := 12, ty := .u8, acc := .rws, enum := [0, 1] }
def BAR_STROBE_BAY : Obj :=
  { base := 0x2F1003, outer := 0x100, inner := 0x0, m := 1, count := 12, ty := .u8, acc := .rws, hi := 11, ranged := true }
def BAR_CAM_MASK : Obj :=
  { base := 0x2F1004, outer := 0x100, inner := 0x0, m := 1, count := 12, ty := .u16, acc := .rws, hi := 4095, ranged := true }
def BAR_STATE : Obj := { base := 0x2F1005, outer := 0x100, inner := 0x0, m := 1, count := 12, ty := .u8, acc := .ro }
def BAR_CURRENT_MA : Obj :=
  { base := 0x2F1006, outer := 0x100, inner := 0x0, m := 1, count := 12, ty := .u16, acc := .ro }
def BAR_VOLTAGE_MV : Obj :=
  { base := 0x2F1007, outer := 0x100, inner := 0x0, m := 1, count := 12, ty := .u16, acc := .ro }
def BAR_POWER_W : Obj :=
  { base := 0x2F1008, outer := 0x100, inner := 0x0, m := 1, count := 12, ty := .u16, acc := .ro }
def BAR_TEMP_MC : Obj :=
  { base := 0x2F1009, outer := 0x100, inner := 0x0, m := 1, count := 12, ty := .i32, acc := .ro }
def BAR_OUTPUT_PERMILLE : Obj :=
  { base := 0x2F100A, outer := 0x100, inner := 0x0, m := 1, count := 12, ty := .u16, acc := .ro, dflt := fun _ => 0x3e8 }
def BAR_COMP_PERMILLE : Obj :=
  { base := 0x2F100B, outer := 0x100, inner := 0x0, m := 1, count := 12, ty := .u16, acc := .ro, dflt := fun _ => 0x3e8 }
def BAR_EQ_MINUTES : Obj :=
  { base := 0x2F100C, outer := 0x100, inner := 0x0, m := 1, count := 12, ty := .u32, acc := .ro }
def BAR_ON_MINUTES : Obj :=
  { base := 0x2F100D, outer := 0x100, inner := 0x0, m := 1, count := 12, ty := .u32, acc := .ro }
def BAR_LIFE_PERMILLE : Obj :=
  { base := 0x2F100E, outer := 0x100, inner := 0x0, m := 1, count := 12, ty := .u16, acc := .ro }
def BAR_SERIAL : Obj :=
  { base := 0x2F100F, outer := 0x100, inner := 0x0, m := 1, count := 12, ty := .str, acc := .ro }
def BAR_MODEL : Obj := { base := 0x2F1010, outer := 0x100, inner := 0x0, m := 1, count := 12, ty := .str, acc := .ro }
def BAR_IDENTITY : Obj :=
  { base := 0x2F1011, outer := 0x100, inner := 0x0, m := 1, count := 12, ty := .domain, acc := .ro }
def BAR_RATED_MA_OVERRIDE : Obj :=
  { base := 0x2F1012, outer := 0x100, inner := 0x0, m := 1, count := 12, ty := .u16, acc := .rws, hi := 3000, ranged := true }
def BAR_L70_OVERRIDE_H : Obj :=
  { base := 0x2F1013, outer := 0x100, inner := 0x0, m := 1, count := 12, ty := .u32, acc := .rws }
def BAR_COMP_ENABLE : Obj :=
  { base := 0x2F1014, outer := 0x100, inner := 0x0, m := 1, count := 12, ty := .bool, acc := .rw, dflt := fun _ => 1, enum := [0, 1] }
def BAR_CLAMP : Obj := { base := 0x2F1015, outer := 0x100, inner := 0x0, m := 1, count := 12, ty := .u32, acc := .ro }
def BAR_FAULTS : Obj :=
  { base := 0x2F1016, outer := 0x100, inner := 0x0, m := 1, count := 12, ty := .u32, acc := .ro }
def BAR_IDENT_CHANGES : Obj :=
  { base := 0x2F1017, outer := 0x100, inner := 0x0, m := 1, count := 12, ty := .u32, acc := .ro }
def BAR_LIFE_STATE : Obj :=
  { base := 0x2F1018, outer := 0x100, inner := 0x0, m := 1, count := 12, ty := .u8, acc := .ro }
def BAR_CAL_MA : Obj :=
  { base := 0x2F1019, outer := 0x100, inner := 0x0, m := 1, count := 12, ty := .u16, acc := .rw, dflt := fun _ => 0x3e8, hi := 3000, ranged := true }
def CAL_PROCEDURE : Obj := { base := 0x300001, ty := .u8, acc := .rws, dflt := fun _ => 7, hi := 15, ranged := true }
def CAL_CAMERA_MASK : Obj :=
  { base := 0x300002, ty := .u16, acc := .rws, dflt := fun _ => 0xfff, hi := 4095, ranged := true }
def CAL_STEP : Obj := { base := 0x300003, ty := .u8, acc := .cmd, enum := [1] }
def CAL_ACCEPT : Obj := { base := 0x300004, ty := .u8, acc := .cmd, enum := [1] }
def CAL_ABORT : Obj := { base := 0x300005, ty := .u8, acc := .cmd, enum := [1] }
def CAL_STATE : Obj := { base := 0x300006, ty := .u8, acc := .ro }
def CAL_RESULT : Obj := { base := 0x300007, ty := .u8, acc := .ro }
def CAL_LINE_PERIOD_NS : Obj :=
  { base := 0x300008, ty := .u32, acc := .rws, dflt := fun _ => 0x2710, lo := 2500, hi := 1000000, ranged := true }
def CAL_LINES : Obj :=
  { base := 0x300009, ty := .u16, acc := .rws, dflt := fun _ => 0x400, lo := 256, hi := 8192, step := 256, ranged := true }
def CAL_TILE_CERT : Obj := { base := 0x30000A, ty := .str, acc := .rws }
def CAL_TILE_REFL : Obj :=
  { base := 0x30000B, outer := 0x0, inner := 0x1, m := 4, count := 4, ty := .u16, acc := .rws }
def CAL_CHART_CERT : Obj := { base := 0x30000F, ty := .str, acc := .rws }
def CAL_PATCH_COUNT : Obj := { base := 0x300010, ty := .u8, acc := .rws, hi := 64, ranged := true }
def CAL_PATCHES : Obj := { base := 0x300011, ty := .domain, acc := .rws }
def CAL_VIEW_PITCH_UM : Obj := { base := 0x300012, ty := .u32, acc := .rws, dflt := fun _ => 0x280000 }
def CAL_SCALE_PITCH_UM : Obj := { base := 0x300013, ty := .u32, acc := .rws }
def CAL_STALE_VIEWS : Obj := { base := 0x300014, ty := .u8, acc := .ro }
def CAL_STORED_TIME : Obj := { base := 0x300015, ty := .u64, acc := .ro }
def CAL_RECORD : Obj := { base := 0x300016, ty := .domain, acc := .ro }
def TRIM_ENABLE : Obj := { base := 0x300017, ty := .bool, acc := .rw, dflt := fun _ => 1, enum := [0, 1] }
def TRIM_TEMP_THRESHOLD_MK : Obj :=
  { base := 0x300018, ty := .u16, acc := .rw, dflt := fun _ => 0xfa0, lo := 500, hi := 20000, ranged := true }
def TRIM_MIN_INTERVAL_S : Obj :=
  { base := 0x300019, ty := .u16, acc := .rw, dflt := fun _ => 0x3c, lo := 10, hi := 3600, ranged := true }
def TRIM_DARK_ENABLE : Obj := { base := 0x30001A, ty := .bool, acc := .rw, dflt := fun _ => 1, enum := [0, 1] }
def CAL_REJECT : Obj := { base := 0x30001B, ty := .u32, acc := .ro }
def TRIM_COUNT : Obj := { base := 0x30001C, ty := .u64, acc := .ro }
def TRIM_ABANDONED : Obj := { base := 0x30001D, ty := .u32, acc := .ro }
def CAL_CLEAR : Obj := { base := 0x30001E, ty := .u8, acc := .cmd, enum := [1] }
def TRIM_BUSY_BAY : Obj := { base := 0x30001F, ty := .u8, acc := .ro, dflt := fun _ => 0xff }
def CAL_GEOM_WIDTH : Obj :=
  { base := 0x300101, outer := 0x0, inner := 0x1, m := 4, count := 4, ty := .u32, acc := .ro }
def CAL_COLOUR_TOL : Obj := { base := 0x300021, ty := .u16, acc := .rws, dflt := fun _ => 0x400 }
def CAL_WIDTH_NS : Obj :=
  { base := 0x301001, outer := 0x100, inner := 0x0, m := 1, count := 12, ty := .u32, acc := .rws, dflt := fun _ => 0x7d0, lo := 100, hi := 1000000, ranged := true }
def CAL_REF_COL_FIRST : Obj :=
  { base := 0x301002, outer := 0x100, inner := 0x0, m := 1, count := 12, ty := .u16, acc := .rws }
def CAL_REF_COL_LAST : Obj :=
  { base := 0x301003, outer := 0x100, inner := 0x0, m := 1, count := 12, ty := .u16, acc := .rws }
def CAM_TEMP_MC : Obj :=
  { base := 0x301004, outer := 0x100, inner := 0x0, m := 1, count := 12, ty := .i32, acc := .rw }
def TRIM_BASE_MC : Obj :=
  { base := 0x301005, outer := 0x100, inner := 0x0, m := 1, count := 12, ty := .i32, acc := .ro }
def TRIM_LAST_STRIP : Obj :=
  { base := 0x301006, outer := 0x100, inner := 0x0, m := 1, count := 12, ty := .u64, acc := .ro }
def TRIM_LAST_RESULT : Obj :=
  { base := 0x301007, outer := 0x100, inner := 0x0, m := 1, count := 12, ty := .u8, acc := .ro }
def TRIM_LAST_GAIN : Obj :=
  { base := 0x301008, outer := 0x100, inner := 0x1, m := 4, count := 48, ty := .u16, acc := .ro, dflt := fun _ => 0x4000 }
def TRIM_LAST_DARK_MAX : Obj :=
  { base := 0x30100C, outer := 0x100, inner := 0x0, m := 1, count := 12, ty := .u16, acc := .ro }
def TRIM_NOW : Obj :=
  { base := 0x30100D, outer := 0x100, inner := 0x0, m := 1, count := 12, ty := .u8, acc := .cmd, enum := [1] }

/-! Objects of 17_power_reset_crossings.md. -/

def MAINS_STATE : Obj := { base := 0x310001, ty := .u8, acc := .ro }
def MAINS_VRMS : Obj := { base := 0x310002, ty := .u16, acc := .ro }
def MAINS_HZ : Obj := { base := 0x310003, ty := .u16, acc := .ro }
def INPUT_POWER_W : Obj := { base := 0x310004, ty := .u16, acc := .ro }
def DC_LOAD_W : Obj := { base := 0x310005, ty := .u16, acc := .ro }
def POWER_CAPACITY_W : Obj := { base := 0x310006, ty := .u16, acc := .ro }
def POWER_REQUIRED_W : Obj := { base := 0x310007, ty := .u16, acc := .ro }
def POWER_REDUNDANT : Obj := { base := 0x310008, ty := .bool, acc := .ro }
def MAINS_LOSS_COUNT : Obj := { base := 0x310009, ty := .u32, acc := .ro }
def POWER_CLEAR : Obj := { base := 0x31000A, ty := .u8, acc := .cmd, enum := [1] }
def PSU_STAGE_STATE : Obj :=
  { base := 0x310101, outer := 0x0, inner := 0x1, m := 3, count := 3, ty := .u8, acc := .ro }
def PSU_STAGE_POWER_W : Obj :=
  { base := 0x310104, outer := 0x0, inner := 0x1, m := 3, count := 3, ty := .u16, acc := .ro }
def PSU_STAGE_FAULTS : Obj := { base := 0x310107, ty := .u32, acc := .ro }
def PD_STATE : Obj :=
  { base := 0x310201, outer := 0x0, inner := 0x1, m := 56, count := 56, ty := .u8, acc := .ro, dflt := fun i => if i < 51 then 0 else 1 }
def PD_POWERGOOD_FAIL : Obj := { base := 0x310239, ty := .u32, acc := .ro }
def RESET_REQUEST : Obj := { base := 0x310301, ty := .u8, acc := .cmd, enum := [1, 2] }
def RESET_CAUSE_LAST : Obj := { base := 0x310302, ty := .u8, acc := .ro }
def RESET_WARM_COUNT : Obj := { base := 0x310303, ty := .u32, acc := .ro }
def RESET_COLD_COUNT : Obj := { base := 0x310304, ty := .u32, acc := .ro }
def RESET_TIME_LAST : Obj := { base := 0x310305, ty := .u64, acc := .ro }
def WDT_TIMEOUT_MS : Obj :=
  { base := 0x310306, ty := .u16, acc := .rws, dflt := fun _ => 0x1f4, lo := 100, hi := 5000, ranged := true }
def SUPERVISOR_RESTARTS : Obj := { base := 0x310307, ty := .u32, acc := .ro }
def ISLAND_STATE : Obj :=
  { base := 0x310401, outer := 0x0, inner := 0x1, m := 74, count := 74, ty := .u8, acc := .ro, dflt := fun i => if i < 51 then 0 else 2 }
def ISLAND_LOCK_RETRY : Obj := { base := 0x31044B, ty := .u32, acc := .ro }
def ISLAND_FAIL_LAST : Obj := { base := 0x31044C, ty := .u8, acc := .ro, dflt := fun _ => 0xff }
def ISO_ERROR_RESPONSES : Obj := { base := 0x31044D, ty := .u32, acc := .ro }
def ISLAND_WAKES : Obj := { base := 0x31044E, ty := .u64, acc := .ro }
def XING_STATUS : Obj := { base := 0x310501, ty := .u8, acc := .ro }
def XING_PULSE_LOST : Obj := { base := 0x310502, ty := .u32, acc := .ro }
def XING_PULSE_LOST_LAST : Obj := { base := 0x310503, ty := .u8, acc := .ro, dflt := fun _ => 0xff }
def FERRY_DISCARD : Obj := { base := 0x310504, ty := .u32, acc := .ro }
def FERRY_MOORINGS : Obj := { base := 0x310505, ty := .u64, acc := .ro }
def FERRY_FENCED_DROP : Obj := { base := 0x310506, ty := .u32, acc := .ro }
def TEMP_DIE_MC : Obj := { base := 0x310601, ty := .i32, acc := .ro }
def TEMP_INLET_MC : Obj := { base := 0x310602, ty := .i32, acc := .ro }

/-! Objects of 18_logbook_spares_wear.md. -/

def LOGBOOK_STATE : Obj := { base := 0x320001, ty := .u8, acc := .ro }
def LOGBOOK_SEQ : Obj := { base := 0x320002, ty := .u64, acc := .ro, dflt := fun _ => 0 }
def LOGBOOK_COMMITS : Obj := { base := 0x320003, ty := .u64, acc := .ro }
def LOGBOOK_COMMIT_FAIL : Obj := { base := 0x320004, ty := .u32, acc := .ro }
def LOGBOOK_HEAD_SECTOR : Obj := { base := 0x320005, ty := .u16, acc := .ro, dflt := fun _ => 0x10 }
def LOGBOOK_ERASES_MAX : Obj := { base := 0x320006, ty := .u32, acc := .ro }
def LOGBOOK_SECTORS_RETIRED : Obj :=
  { base := 0x320007, outer := 0x0, inner := 0x1, m := 2, count := 2, ty := .u32, acc := .ro }
def LOGBOOK_FACTORY_RESET : Obj := { base := 0x320009, ty := .u32, acc := .cmd, enum := [1701865847] }
def LOGBOOK_LAST_COMMIT_TIME : Obj := { base := 0x32000A, ty := .u64, acc := .ro }
def LOGBOOK_MAINS_COMMIT_US : Obj := { base := 0x32000B, ty := .u16, acc := .ro }
def LOGBOOK_RECONCILED : Obj := { base := 0x32000C, ty := .u32, acc := .ro }
def LBK_CLEAR : Obj := { base := 0x32000D, ty := .u8, acc := .cmd, enum := [1] }
def PF_STATE : Obj := { base := 0x320101, ty := .u8, acc := .ro }
def PF_RESERVE_PERMILLE : Obj := { base := 0x320102, ty := .u16, acc := .ro, dflt := fun _ => 0 }
def PF_BLOCKS_RETIRED : Obj := { base := 0x320103, ty := .u32, acc := .ro }
def PF_ERASE_MAX : Obj := { base := 0x320104, ty := .u32, acc := .ro }
def PF_ERASE_MEAN : Obj := { base := 0x320105, ty := .u32, acc := .ro }
def PF_JOB_BYTES_FREE : Obj := { base := 0x320106, ty := .u64, acc := .ro, dflt := fun _ => 687194767360 }
def PF_SLOTS_USED : Obj := { base := 0x320107, ty := .u16, acc := .ro }
def PF_READ_FAIL : Obj := { base := 0x320108, ty := .u32, acc := .ro }
def SNAP_VIEW : Obj := { base := 0x320201, ty := .u8, acc := .rw, hi := 3, ranged := true }
def SNAP_FIRST_STRIP : Obj := { base := 0x320202, ty := .u64, acc := .rw }
def SNAP_STRIPS : Obj :=
  { base := 0x320203, ty := .u16, acc := .rw, dflt := fun _ => 1, lo := 1, hi := 1024, ranged := true }
def SNAP_TAKE : Obj := { base := 0x320204, ty := .u8, acc := .cmd, hi := 63, ranged := true }
def SNAP_STATE : Obj := { base := 0x320205, ty := .u8, acc := .ro }
def SNAP_SELECT : Obj := { base := 0x320206, ty := .u8, acc := .rw, hi := 63, ranged := true }
def SNAP_OFFSET : Obj := { base := 0x320207, ty := .u64, acc := .rw }
def SNAP_DATA : Obj := { base := 0x320208, ty := .domain, acc := .ro }
def SNAP_DELETE : Obj := { base := 0x320209, ty := .u8, acc := .cmd, hi := 63, ranged := true }
def SNAP_BYTES_FREE : Obj := { base := 0x32020A, ty := .u64, acc := .ro, dflt := fun _ => 206158430208 }
def SPARE_TILES : Obj := { base := 0x321001, ty := .u8, acc := .ro, dflt := fun _ => 8 }
def SPARE_EASELS : Obj := { base := 0x321002, ty := .u8, acc := .ro, dflt := fun _ => 1 }
def SPARE_SLICES_MIN : Obj := { base := 0x321003, ty := .u8, acc := .ro, dflt := fun _ => 1 }
def SPARE_DRAM : Obj := { base := 0x321004, ty := .u8, acc := .ro, dflt := fun _ => 1 }
def RETIRED_COUNT : Obj := { base := 0x321005, ty := .u16, acc := .ro }
def QUARANTINE_COUNT : Obj := { base := 0x321006, ty := .u16, acc := .ro }
def FANS_IN_USE : Obj := { base := 0x321007, ty := .u8, acc := .ro, dflt := fun _ => 6 }
def NO_SPARE_MASK : Obj := { base := 0x321008, ty := .u8, acc := .ro }
def WEAR_MARKED : Obj := { base := 0x321009, ty := .domain, acc := .ro }
def UNIT_HISTORY : Obj := { base := 0x32100A, ty := .domain, acc := .ro }
def WEAR_SRAM_CE_LIMIT : Obj := { base := 0x321101, ty := .u32, acc := .rw, dflt := fun _ => 0x64 }
def RO_DRIFT_TILE : Obj :=
  { base := 0x321201, outer := 0x0, inner := 0x1, m := 104, count := 104, ty := .i16, acc := .ro }
def RO_DRIFT_EASEL : Obj :=
  { base := 0x321301, outer := 0x0, inner := 0x1, m := 7, count := 7, ty := .i16, acc := .ro }
def FAN_TRAY_SERIAL : Obj := { base := 0x322001, ty := .str, acc := .ro }
def FAN_STATE : Obj := { base := 0x322002, outer := 0x0, inner := 0x1, m := 6, count := 6, ty := .u8, acc := .ro }
def FAN_RPM : Obj := { base := 0x322008, outer := 0x0, inner := 0x1, m := 6, count := 6, ty := .u16, acc := .ro }
def FAN_TRAY_MINUTES : Obj := { base := 0x32200E, ty := .u32, acc := .ro }
def PSU_SERIAL : Obj := { base := 0x322101, outer := 0x0, inner := 0x1, m := 3, count := 3, ty := .str, acc := .ro }
def PSU_ON_MINUTES : Obj :=
  { base := 0x322104, outer := 0x0, inner := 0x1, m := 3, count := 3, ty := .u32, acc := .ro }
def PSU_LIFE_FAULTS : Obj :=
  { base := 0x322107, outer := 0x0, inner := 0x1, m := 3, count := 3, ty := .u8, acc := .ro }
def SAT_COUNT : Obj := { base := 0x323001, ty := .u16, acc := .ro }
def SAT_LAST : Obj := { base := 0x323002, ty := .u32, acc := .ro }
def SAT_LIST : Obj := { base := 0x323003, ty := .domain, acc := .ro }
def MODULE_SERIAL : Obj := { base := 0x324001, ty := .u32, acc := .ro, dflt := fun _ => Config.moduleSerial % 4294967296 }
def ASIC_LOT : Obj := { base := 0x324002, ty := .str, acc := .ro }
def ASIC_WAFER : Obj := { base := 0x324003, ty := .u8, acc := .ro, dflt := fun _ => Config.asicWafer % 256 }
def DIE_X : Obj := { base := 0x324004, ty := .i16, acc := .ro, dflt := fun _ => Config.dieX % 65536 }
def DIE_Y : Obj := { base := 0x324005, ty := .i16, acc := .ro, dflt := fun _ => Config.dieY % 65536 }
def MODULE_BUILD_DATE : Obj := { base := 0x324006, ty := .u32, acc := .ro, dflt := fun _ => Config.buildDate % 4294967296 }
def MODULE_ON_MINUTES : Obj := { base := 0x324007, ty := .u32, acc := .ro }
def MODULE_INSPECT_MINUTES : Obj := { base := 0x324008, ty := .u32, acc := .ro }
def MODULE_HW_REVISION : Obj := { base := 0x324009, ty := .str, acc := .ro }
def IDENTITY_MISMATCH : Obj := { base := 0x32400A, ty := .bool, acc := .ro }

/-! Objects of 19_observation.md. -/

def TRACE_HEAD : Obj := { base := 0x330001, ty := .u64, acc := .ro }
def TRACE_RING : Obj := { base := 0x330002, ty := .domain, acc := .ro }
def TRACE_FILTER : Obj := { base := 0x330003, ty := .u32, acc := .rw, dflt := fun _ => 0x400001fe }
def TRACE_EVENT_MASK : Obj := { base := 0x330004, ty := .octets, acc := .rw }
def TRACE_LOST : Obj := { base := 0x330005, ty := .u32, acc := .ro }
def OBS_SAMPLE_SEQ : Obj := { base := 0x330006, ty := .u64, acc := .ro }
def OBS_SAMPLE : Obj := { base := 0x330007, ty := .domain, acc := .ro }
def DRAM_RD_BYTES : Obj :=
  { base := 0x331001, outer := 0x0, inner := 0x1, m := 12, count := 12, ty := .u64, acc := .ro }
def DRAM_WR_BYTES : Obj :=
  { base := 0x331101, outer := 0x0, inner := 0x1, m := 12, count := 12, ty := .u64, acc := .ro }
def TILE_BUSY_CLOCKS : Obj := { base := 0x332001, ty := .u64, acc := .ro }
def EASEL_BUSY_CLOCKS : Obj := { base := 0x332002, ty := .u64, acc := .ro }
def WHARF_HOST_RD_BYTES : Obj := { base := 0x332003, ty := .u64, acc := .ro }
def WHARF_HOST_WR_BYTES : Obj := { base := 0x332004, ty := .u64, acc := .ro }
def ECAT_FRAMES : Obj := { base := 0x332005, ty := .u64, acc := .ro }
def ECAT_FRAME_ERR : Obj := { base := 0x332006, ty := .u64, acc := .ro }
def HL_WINDOW_ACCESSES : Obj := { base := 0x332007, ty := .u64, acc := .ro }
def SUPERVISOR_BUSY_NS : Obj := { base := 0x332008, ty := .u64, acc := .ro }

/-! Objects of 20_ratings_and_connectors.md. -/

def IO_SUPPLY_MV : Obj := { base := 0x310701, ty := .u16, acc := .ro }
def IO_SUPPLY_LOW : Obj := { base := 0x310702, ty := .bool, acc := .ro }
def IO_SUPPLY_LOSS : Obj := { base := 0x310703, ty := .u32, acc := .ro }

/-! Objects of 15_field_network_and_dictionary.md. -/

def RXPDO_MAP : Obj :=
  { base := 0x160000, outer := 0x100, inner := 0x0, m := 1, count := 2, ty := .domain, acc := .rwPreop }
def TXPDO_MAP : Obj :=
  { base := 0x1A0000, outer := 0x100, inner := 0x0, m := 1, count := 3, ty := .domain, acc := .rwPreop }
def SM3_SYNC_MODE : Obj := { base := 0x1C3301, ty := .u16, acc := .rwPreop, enum := [0, 1, 2] }
def SM3_CYCLE_NS : Obj := { base := 0x1C3302, ty := .u32, acc := .rwPreop }
def SM3_MIN_CYCLE_NS : Obj := { base := 0x1C3305, ty := .u32, acc := .ro, dflt := fun _ => 0xf424 }
def SM3_CALC_COPY_NS : Obj := { base := 0x1C3306, ty := .u32, acc := .ro, dflt := fun _ => 0x3e8 }

/-! Objects of 03_lanes.md. -/

def CASCADE_CLEAR : Obj := { base := 0x22C00A, ty := .u8, acc := .cmd, enum := [1] }
def CASCADE_RESULT : Obj := { base := 0x22C108, ty := .u8, acc := .ro }

/-! Objects of 15_field_network_and_dictionary.md. -/

def M8_MODE : Obj := { base := 0x500001, ty := .u8, acc := .rw }
def M8_LINE_PITCH : Obj := { base := 0x501001, ty := .u16, acc := .rw }
def M8_MARK_OFFSET_MM : Obj :=
  { base := 0x502001, outer := 0x100, inner := 0x0, m := 1, count := 8, ty := .u32, acc := .rw }
def M8_WEB_SPEED : Obj := { base := 0x503001, ty := .i16, acc := .ro }
def M8_JOB_SLOT : Obj := { base := 0x504001, ty := .u16, acc := .rw }
def M8_JOB_LOAD : Obj := { base := 0x504002, ty := .u8, acc := .cmd }
def M8_DEFECT_COUNT : Obj := { base := 0x505001, ty := .u32, acc := .ro }
def M8_CAMERAS_UP : Obj := { base := 0x506001, ty := .u8, acc := .ro }
def M8_LAMP_PWM : Obj := { base := 0x507001, ty := .u8, acc := .rw }
def M8_STATUS : Obj := { base := 0x508001, ty := .u16, acc := .ro }
def M8_REJECT_BITS : Obj := { base := 0x508002, ty := .u32, acc := .ro }
def M8_REJECT_SEQ : Obj := { base := 0x508003, ty := .u16, acc := .ro }
def M8_WEB_COUNT : Obj := { base := 0x508004, ty := .u16, acc := .ro }
def M8_CONTROL : Obj := { base := 0x509001, ty := .u16, acc := .pdo }
def STATUS_WORD : Obj := { base := 0x600001, ty := .u16, acc := .ro }
def REJECT_SEQ : Obj := { base := 0x600002, ty := .u16, acc := .ro }
def REJECT_BITMAP : Obj := { base := 0x600003, ty := .u64, acc := .ro }
def REJECT_REPEAT : Obj := { base := 0x600004, ty := .u32, acc := .ro }
def REJECT_ROW : Obj := { base := 0x600005, ty := .u8, acc := .ro }
def PDO_MODE : Obj := { base := 0x600006, ty := .u8, acc := .ro }
def PDO_EVT_TOGGLE : Obj := { base := 0x600007, ty := .u16, acc := .ro }
def PDO_ENC_FAULT : Obj := { base := 0x600008, ty := .u16, acc := .ro }
def PDO_REPEAT_NUMBER : Obj := { base := 0x600009, ty := .u32, acc := .ro }
def PDO_WEB_COUNT : Obj := { base := 0x60000A, ty := .i64, acc := .ro }
def PDO_WEB_SPEED : Obj := { base := 0x60000B, ty := .i32, acc := .ro }
def PDO_CONTROL : Obj := { base := 0x700001, ty := .u16, acc := .pdo }
def PDO_MODE_REQUEST : Obj := { base := 0x700002, ty := .u8, acc := .pdo }
def PDO_SWITCH_COUNT : Obj := { base := 0x700003, ty := .i64, acc := .pdo }
def PDO_LATCH_COUNT : Obj :=
  { base := 0x601001, outer := 0x100, inner := 0x0, m := 1, count := 2, ty := .i64, acc := .ro }
def PDO_LATCH_TIME : Obj :=
  { base := 0x601002, outer := 0x100, inner := 0x0, m := 1, count := 2, ty := .u64, acc := .ro }
def PDO_LATCH_SPEED : Obj :=
  { base := 0x601003, outer := 0x100, inner := 0x0, m := 1, count := 2, ty := .i32, acc := .ro }
def PDO_LATCH_SEQ : Obj :=
  { base := 0x601004, outer := 0x100, inner := 0x0, m := 1, count := 2, ty := .u64, acc := .ro }

/-- Rows of 01_web_model.md, part 0. -/
def table01_0 : List Obj :=
  [WEB_COUNT, WEB_HIGH_WATER, LINE_PITCH, COUNT_LENGTH, LINE_NUMBER, STRIP_NUMBER, REPEAT_NUMBER,
   REPEAT_EPOCH, JOB_STAMP, JOB_START_COUNT, REPEAT_START_COUNT, REPEAT_LINES_MIN, REPEAT_SHORT,
   PRELOAD_SLOT, PRELOAD, SWITCH_MODE, SWITCH_COUNT, SPLICE_INPUT, SPLICE_OFFSET, SWITCH_ARM, SWITCH_CANCEL,
   SWITCH_STATE, SWITCH_RESULT, SWITCH_LINE, ACTIVE_SLOT, BLIND_POLICY, BLIND_MARK_PERMILLE]

/-- Rows of 02_modes.md, part 0. -/
def table02_0 : List Obj :=
  [ MODE, MODE_REQUEST, MODE_PENDING, MODE_RESULT, MODE_CHANGE_LINE, HOLD_CAUSE, CAL_VALID, MODE_ENTRY_TIME,
   HOLD_COUNT, HOLD_MARKER_DISCARD, HOLD_FROM_DORMANT]

/-- Rows of 03_lanes.md, part 0. -/
def table03_0 : List Obj :=
  [CASCADE_ENABLE, CASCADE_ROLE, CASCADE_FRAME_CRC, CASCADE_FRAME_LOST, CASCADE_LATENCY_NS, CASCADE_CLEAR,
   CASCADE_RESULT, BAY_LINK_TYPE, BAY_CXP_MAX_SPEED, BAY_CXP_MIN_SPEED, BAY_CONNECTIONS, BAY_UPLINK,
   BAY_POCXP_ENABLE, BAY_RETRAIN_MAX, BAY_BER_EXP, BAY_PACKET_SIZE_MAX, BAY_CLEAR, BAY_RETRY, BAY_STATE,
   BAY_SPEED, BAY_LANES_UP, BAY_POCXP_MW, BAY_POCXP_FAULT, BAY_UNSUPPORTED_PKT, BAY_CTRL_TIMEOUT, BAY_RESULT,
   LANE_STATE, LANE_SLICE, LANE_CODE_ERR, LANE_LOCK_LOSS, LANE_RETRAIN, LANE_BYTES, LANE_BER_EST,
   LANE_CONN_ID, SLICE_STATE, LANE_STALE_RESULT, SLICE_SELFTEST, SLICE_SELFTEST_RESULT, SLICE_EPOCH, LB_MODE]

/-- Rows of 03_lanes.md, part 1. -/
def table03_1 : List Obj :=
  [LB_SLICE, LB_PATTERN, LB_RATE, LB_RUN, LB_BITS, LB_ERRORS, LB_STATUS]

/-- Rows of 04_intake.md, part 0. -/
def table04_0 : List Obj :=
  [TRIG_MIN_PERIOD_NS, TRIG_M8_COMPAT, TRIG_NEXT_COUNT, TRIG_DEFERRED, TRIG_OVERSPEED_LINES, TRIG_WIDTH_CLIP,
   TRIG_MAX_LAG_NS, LATE_LIMIT_STRIPS, LATE_LIMIT_MS, INTAKE_CLEAR, EXP_COMMIT, EXP_GENERATION, EXP_PENDING,
   EXP_APPLY_STRIP, EXP_COMMIT_REPLACED, EXP_CURRENT_MA, TRIG_PATH, EXP_WIDTH_NS, CAMERA_GAIN, INTAKE_TYPE,
   INTAKE_WIDTH, LANE_CRC_ERR, LINES_LATE, LINES_SUBSTITUTED, LATE_DISCARD, TAG_MISMATCH, PKT_TYPE_ERR,
   STAT_ENABLE, STAT_HIST_PLANE, LINES_RECEIVED]

/-- Rows of 05_easels.md, part 0. -/
def table05_0 : List Obj :=
  [EASEL_STATE, EASEL_PHYS, EASEL_INLINE_BAY, EASEL_QUAY_DEPTH, EASEL_QUAY_DEPTH_EFF, EASEL_QUAY_FILL,
   EASEL_QUAY_PEAK, EASEL_QUAY_DROP, EASEL_LOAD_PERMILLE, EASEL_LOAD_MAX_PERMILLE, EASEL_A_MAX_DELAY_NS,
   EASEL_CTX_SWITCHES, EASEL_HB_MISS, EASEL_MIXED_LINES, EASEL_CLEAR, EASEL_CTX_BAY, EASEL_CTX_COMMIT,
   EASEL_CTX_PENDING, EASEL_CTX_APPLY_STRIP, EASEL_COMMIT_RESULT, EASEL_BYPASS, EASEL_LIN_LUT, EASEL_XTALK,
   EASEL_GREEN, EASEL_DARK_FLAT, EASEL_DPX_MAP, EASEL_MOSAIC, EASEL_PALETTE, EASEL_PAL_COMMIT,
   EASEL_PAL_PENDING, EASEL_RESAMPLE, EASEL_COMMIT_STAGE, EASEL_PHYS_STATE, EASEL_STALE_RESULT,
   EASEL_SELFTEST, EASEL_SELFTEST_RESULT, EASEL_EPOCH]

/-- Rows of 06_seams_and_canvas.md, part 0. -/
def table06_0 : List Obj :=
  [VIEW_WIDTH, VIEW_PLANES, SEAM_MODE, SEAM_BAND, SEAM_REF_BAY, SEAM_GAIN_ENABLE, SEAM_GAIN_MIN_PIXELS,
   VIEW_CASCADE, VIEW_CASCADE_OVERLAP, SEAM_COMPLETE_TIMEOUT_MS, SEAM_CLEAR, SEAM_GAIN_SHIFT, VIEW_PITCH_UM,
   VIEW_CONFIG_RESULT, VIEW_STATE, VIEW_CAMERA_MASK, CANVAS_RELEASED_STRIP, CANVAS_OLDEST_STRIP,
   VIEW_STAGGER_MAX, CANVAS_RING_STRIPS, SEAM_FORCED_COMPLETE, SEAM_LATE_DISCARD, SEAM_STAMP_BLIND_LINES,
   SEAM_GAIN_LIMIT, CANVAS_OVERRUN, CANVAS_ARCHIVE_EVICT, SEAM_HOLDBACK_NS, SEAM_QUEUE_OVERFLOW,
   CANVAS_CROP_EVICT, CASCADE_OVERLAP_MISSING, CAM_STAGGER_LINES, CAM_SEAM_GAIN_CAL_L, CAM_SEAM_GAIN_CAL_N,
   CAM_SEAM_GAIN_L, CAM_SEAM_GAIN_N]

/-- Rows of 07_registration.md, part 0. -/
def table07_0 : List Obj :=
  [REG_METHOD, REG_REPEAT_LINES, REG_CYL_OFFSET, REG_REPEATS_PER_REV, REG_MARK_VIEW, REG_MARK_MISS_MAX,
   REG_ANCHOR_PITCH, REG_MIN_NCC, REG_MIN_CONTRAST, REG_MIN_MARGIN, REG_OUTLIER, REG_ROW_MIN_PERMILLE,
   REG_PLANE, REG_LEARN_K, REG_LEARN, REG_UP_SAVE, REG_VAR_LIMIT, REG_CLEAR, REG_START_LATE, REG_MARK_MISS,
   REG_PHASE_STATE, REG_MARK_ERR_COUNTS, REG_SLOT_ACTIVE, REG_LEARN_REJECT, REG_REV_COUNTS, REG_VIEW_STATE,
   REG_ANCHORS_X, REG_ANCHORS_Y, REG_CONF_PERMILLE, REG_MEAN_DX, REG_MEAN_DY, REG_UNREG_STRIPS, REG_CAPTURES,
   REG_FIELD_ADDR, REG_LEARN_STATE, REG_LEARN_BAND, REG_LEARN_BANDS, REG_VAR_MAP_ADDR, REG_LEARN_VAR_BLOCKS,
   REG_UP_PRESENT]

/-- Rows of 08_tide_tables_and_fabric.md, part 0. -/
def table08_0 : List Obj :=
  [TIDE_IMAGE, TIDE_COMMIT, TIDE_PENDING, TIDE_RESULT, TIDE_ERR_ENTRY, TIDE_BANK_ACTIVE, TIDE_GENERATION,
   TIDE_APPLY_LINE, TIDE_LOAD_PERMILLE, TIDE_LOAD_MAX_PERMILLE, TIDE_SLICES_USED, TIDE_DEBUG_VIEW,
   TIDE_DEBUG_ADDR, FABRIC_CLEAR, TILE_HB_MISS, TILE_BLIND_TASKS, TILE_RUN_OVERFLOW, TILE_LOAD_WAIT_NS,
   TILE_TASKS, TILE_FRAGMENTS, TILE_STALE_RESULT, TILE_SELFTEST, TILE_SELFTEST_RESULT, TILE_DEADLINE_NS,
   TILE_PHYS, TILE_LOG_STATE, TILE_PHYS_STATE, TILE_EPOCH, TIDE_VIEW_SLICE_WIDTH, TIDE_VIEW_SLICES,
   TIDE_VIEW_FIRST_TILE, TIDE_VIEW_HALO_ROWS, TIDE_VIEW_CLOCKS]

/-- Rows of 09_defects_and_marking.md, part 0. -/
def table09_0 : List Obj :=
  [DEF_FLOOD_LIMIT, DEF_FLOOD_CLASS, DEF_FLOOD_ACTION, DEF_CROP_MARGIN, DEF_CROP_MAX_PER_REPEAT,
   REJECT_HOLD_US, DEF_MAX_OPEN_STRIPS, DEF_CASCADE_WAIT_MS, DEF_RULES, DEF_ITEMS, DEF_NEXT_ID, DEF_CLEAR,
   DEF_RECORDS, DEF_CANDIDATES, DEF_REJECT_ITEMS, DEF_SUPPRESSED, DEF_CUT, CASCADE_MERGE_LATE,
   DEF_DEFAULT_HITS, CROP_SKIPPED, REJECT_QUEUE_DROP, CROP_EVICTED, DEF_FLOOD_RECORDS, MARK_HEAD_OFFSET_UM,
   MARK_SHIFT_UM, MARK_WIDTH, MARK_WIDTH_UNIT, MARK_MAX_ON_MS, MARK_ENABLE, MARK_LATE, MARK_QUEUE_FULL,
   MARK_ON_LIMIT, MARK_QUEUE_FILL, MARK_FIRED, MARK_NEXT_COUNT]

/-- Rows of 10_web_motion.md, part 0. -/
def table10_0 : List Obj :=
  [WEB_TYPE, WEB_INVERT, ENC_FILTER_NS, ENC_Z_GATE, ENC_COUNTS_PER_REV, ENC_INDEX_TOL, ENC_INTERP,
   ENC_AMP_NOMINAL_MV, ENC_AMP_MIN_PERMILLE, ENC_AMP_MAX_PERMILLE, ENC_AMP_FAULT_SAMPLES, ENC_SERIAL_BITS,
   ENC_SERIAL_CODE, ENC_SERIAL_CLOCK_KHZ, ENC_SERIAL_PERIOD_NS, ENC_SERIAL_MAX_STEP, ENC_ILLEGAL_MAX,
   MOTION_CLEAR, ENC_FAULT, ENC_ILLEGAL, ENC_INDEX_ERR, ENC_AMP_FAULTS, ENC_SERIAL_ERR, ENC_ABS_POSITION,
   ENC_AMPLITUDE_PERMILLE, INDEX_COUNT, INDEX_DELTA, INDEX_DRIFT, INDEX_SEEN, ENC_WIRE, ENC_SERIAL_WARN,
   OBS_PRESET, OBS_STANDSTILL_MS, OBS_STATE, OBS_POSITION, OBS_SPEED, OBS_ACCEL, WEB_SPEED_MM_S,
   OBS_REVERSALS, OBS_STANDSTILLS]

/-- Rows of 10_web_motion.md, part 1. -/
def table10_1 : List Obj :=
  [OBS_EXTREME, CYL_TYPE, CYL_REF_KIND, CYL_TEETH, CYL_REF_COUNT, CYL_TOOTH_PERIOD, CYL_TOOTH_ERR,
   CYL_REF_MISS, CYL_REFS, AUX_TYPE, AUX_INVERT, AUX_COUNT, AUX_SLIP_RATIO, AUX_SLIP_WINDOW,
   AUX_SLIP_TOL_PERMILLE, AUX_SLIP, PULSE_ENABLE, PULSE_SOURCE, PULSE_P, PULSE_Q, PULSE_MIN_EDGE_NS,
   PULSE_BACKLOG, PULSE_OVERRUN, PULSE_COUNT, CASCADE_COUNT_TOL, CASCADE_COUNT_ERR, CASCADE_COUNT_OFFSET]

/-- Rows of 11_filter_chain.md, part 0. -/
def table11_0 : List Obj :=
  [FC_SYNC, FC_CLEAR, FC_CAPTURE_CHANNEL, FC_CAPTURE_RUN, FC_CAPTURE_STATE, FC_CAPTURE, FC_PRESET,
   FC_FADE_SAMPLES, FC_COEF, FC_COEF_COMMIT, FC_COMMIT_RESULT, FC_FADE_STATE, FC_SETTLE_LEFT, FC_SYNC_COUNT,
   FC_BANK_ACTIVE, FC_COEF_FACTORY, FC_VALUE, FC_FLAGS, FC_OVERLOAD, FC_SAMPLES, DET_SOURCE, DET_MODE,
   DET_FREQ_MHZ, DET_BLOCK, DET_HARMONIC, DET_REVS, DET_LIMIT_PERMILLE, DET_AMPLITUDE, DET_PHASE, DET_MEAN,
   DET_RATIO_PERMILLE, DET_VALID, DET_BLOCKS, DET_DISCARDED, DET_LIMIT_HITS]

/-- Rows of 12_event_matrix.md, part 0. -/
def table12_0 : List Obj :=
  [EVT_SOFT, EVT_SAVE, EVT_RESULT, EVT_TASK_LOST, EVT_TASK_LOST_LAST, TASK_COINCIDENCE,
   TASK_COINCIDENCE_LAST, EVT_TASK_REFUSED, EVT_HOLDOFF_LOST, EVT_CLEAR, EVT_TOGGLE, CHAN_CFG, CHAN_HOLDOFF,
   CHAN_RATE_LIMIT, CHAN_RATE_WINDOW_US, CHAN_EVENTS, CHAN_RATE_HITS, CELL_CFG, CELL_STATE, TIMER_PERIOD,
   TIMER_STATE, LATCH_COUNT, LATCH_TIME, LATCH_SPEED, LATCH_SEQ, EVT_COUNT]

/-- Rows of 13_memory_wharf_compression.md, part 0. -/
def table13_0 : List Obj :=
  [SRAM_CE, SRAM_UE, SRAM_UE_LAST_REGION, DRAM_MIGRATE, DRAM_MIGRATE_STATE, DRAM_MIGRATE_PERMILLE,
   DRAM_CE_LIMIT, DRAM_UE_DEAD, CANVAS_BASE, MEM_CLEAR, DRAM_STALE_RESULT, DRAM_SELFTEST,
   DRAM_SELFTEST_RESULT, DRAM_POISON_READS, DRAM_PKG_STATE, DRAM_PKG_CHANNEL, DRAM_PKG_CE, DRAM_PKG_UE,
   DRAM_PKG_EPOCH, DRAM_PKG_CE_RATE, WH_ALL_STOPPED, WH_ERR_INFO, WH_ERR_ADDR, WH_RESTART, WH_BUS_ERR,
   WH_CLEAR, WH_OP, WH_SRC_SPACE, WH_SRC_ADDR, WH_SRC_PITCH, WH_DST_SPACE, WH_DST_ADDR, WH_DST_PITCH,
   WH_ROW_BYTES, WH_ROWS, WH_DST_LIMIT, WH_SRC_LIMIT, WH_LEVEL, WH_FILTER, WH_BLOCK_LOG2]

/-- Rows of 13_memory_wharf_compression.md, part 1. -/
def table13_1 : List Obj :=
  [WH_START, WH_ABORT, WH_FLUSH, WH_STATUS, WH_PROGRESS_ROWS, WH_DST_COMMIT, WH_ERR_OFFSET, CMP_ENGINES_BUSY,
   CMP_BYTES_IN, CMP_BYTES_OUT, CMP_FAIL, CMP_CLEAR, ARCHIVE_ENABLE, ARCHIVE_LEVEL, ARCHIVE_BLOCK_LOG2,
   ARCHIVE_STRIPS, ARCHIVE_GAPS, ARCHIVE_SPACE_WAIT]

/-- Rows of 14_host_link.md, part 0. -/
def table14_0 : List Obj :=
  [HL_LINK_MODE, HL_LINK_MODE_ACTIVE, HL_MAX_GEN, HL_LINK_GEN, HL_LINK_WIDTH, HL_APERTURE_BASE,
   HL_APERTURE_WRITE_DROP, HL_DICT_ERRORS, HL_PT_TIMEOUT_MS, HL_PT_TIMEOUTS, HL_CLEAR, HL_LINK_DOWNS,
   HL_PCI_IDS, RING_BASE, RING_SIZE, RING_WB_ADDR, RING_FUNCTION, RING_ENABLE, RING_COALESCE_US, RING_DROP,
   RING_STAGED_BYTES, RING_FRAMES, RING_OVERSIZE]

/-- Rows of 15_field_network_and_dictionary.md, part 0. -/
def table15_0 : List Obj :=
  [DEVICE_TYPE, ERROR_REGISTER, DEVICE_NAME, HW_VERSION, SW_VERSION, STORE_PARAMETERS, RESTORE_DEFAULTS,
   VENDOR_ID, PRODUCT_CODE, REVISION_NUMBER, SERIAL_NUMBER, SM_TYPE, RXPDO_ASSIGN, TXPDO_ASSIGN,
   SM2_SYNC_MODE, SM2_CYCLE_NS, SM2_MIN_CYCLE_NS, SM2_CALC_COPY_NS, ECAT_STATE, ECAT_AL_STATUS_CODE,
   ECAT_SYNC_MODE, ECAT_CYCLE_NS, PDO_WD_ACTION, PDO_WD_EXPIRED, DC_LOCKED, DC_TIME_STEPS, DC_STEP_LAST_NS,
   SYNC_LOST, EMCY_SENT, EMCY_LOST, DC_SYSTEM_TIME, ECAT_CLEAR, FW_REVISION, FW_IMAGE_ACTIVE,
   FW_STANDBY_REVISION, FW_STANDBY_STATE, FW_ACTIVATE, FW_BOOT_FAILS, FW_RESULT, RXPDO_MAP]

/-- Rows of 15_field_network_and_dictionary.md, part 1. -/
def table15_1 : List Obj :=
  [TXPDO_MAP, SM3_SYNC_MODE, SM3_CYCLE_NS, SM3_MIN_CYCLE_NS, SM3_CALC_COPY_NS, M8_MODE, M8_LINE_PITCH,
   M8_MARK_OFFSET_MM, M8_WEB_SPEED, M8_JOB_SLOT, M8_JOB_LOAD, M8_DEFECT_COUNT, M8_CAMERAS_UP, M8_LAMP_PWM,
   M8_STATUS, M8_REJECT_BITS, M8_REJECT_SEQ, M8_WEB_COUNT, M8_CONTROL, STATUS_WORD, REJECT_SEQ,
   REJECT_BITMAP, REJECT_REPEAT, REJECT_ROW, PDO_MODE, PDO_EVT_TOGGLE, PDO_ENC_FAULT, PDO_REPEAT_NUMBER,
   PDO_WEB_COUNT, PDO_WEB_SPEED, PDO_CONTROL, PDO_MODE_REQUEST, PDO_SWITCH_COUNT, PDO_LATCH_COUNT,
   PDO_LATCH_TIME, PDO_LATCH_SPEED, PDO_LATCH_SEQ]

/-- Rows of 16_light_and_calibration.md, part 0. -/
def table16_0 : List Obj :=
  [LIGHT_POWER_W, LIGHT_BUDGET_W, LIGHT_CLEAR, LIGHT_SHED, BAR_ENABLE, BAR_MODE, BAR_STROBE_BAY,
   BAR_CAM_MASK, BAR_STATE, BAR_CURRENT_MA, BAR_VOLTAGE_MV, BAR_POWER_W, BAR_TEMP_MC, BAR_OUTPUT_PERMILLE,
   BAR_COMP_PERMILLE, BAR_EQ_MINUTES, BAR_ON_MINUTES, BAR_LIFE_PERMILLE, BAR_SERIAL, BAR_MODEL, BAR_IDENTITY,
   BAR_RATED_MA_OVERRIDE, BAR_L70_OVERRIDE_H, BAR_COMP_ENABLE, BAR_CLAMP, BAR_FAULTS, BAR_IDENT_CHANGES,
   BAR_LIFE_STATE, BAR_CAL_MA, CAL_PROCEDURE, CAL_CAMERA_MASK, CAL_STEP, CAL_ACCEPT, CAL_ABORT, CAL_STATE,
   CAL_RESULT, CAL_LINE_PERIOD_NS, CAL_LINES, CAL_TILE_CERT, CAL_TILE_REFL]

/-- Rows of 16_light_and_calibration.md, part 1. -/
def table16_1 : List Obj :=
  [CAL_CHART_CERT, CAL_PATCH_COUNT, CAL_PATCHES, CAL_VIEW_PITCH_UM, CAL_SCALE_PITCH_UM, CAL_STALE_VIEWS,
   CAL_STORED_TIME, CAL_RECORD, TRIM_ENABLE, TRIM_TEMP_THRESHOLD_MK, TRIM_MIN_INTERVAL_S, TRIM_DARK_ENABLE,
   CAL_REJECT, TRIM_COUNT, TRIM_ABANDONED, CAL_CLEAR, TRIM_BUSY_BAY, CAL_GEOM_WIDTH, CAL_COLOUR_TOL,
   CAL_WIDTH_NS, CAL_REF_COL_FIRST, CAL_REF_COL_LAST, CAM_TEMP_MC, TRIM_BASE_MC, TRIM_LAST_STRIP,
   TRIM_LAST_RESULT, TRIM_LAST_GAIN, TRIM_LAST_DARK_MAX, TRIM_NOW]

/-- Rows of 17_power_reset_crossings.md, part 0. -/
def table17_0 : List Obj :=
  [MAINS_STATE, MAINS_VRMS, MAINS_HZ, INPUT_POWER_W, DC_LOAD_W, POWER_CAPACITY_W, POWER_REQUIRED_W,
   POWER_REDUNDANT, MAINS_LOSS_COUNT, POWER_CLEAR, PSU_STAGE_STATE, PSU_STAGE_POWER_W, PSU_STAGE_FAULTS,
   PD_STATE, PD_POWERGOOD_FAIL, RESET_REQUEST, RESET_CAUSE_LAST, RESET_WARM_COUNT, RESET_COLD_COUNT,
   RESET_TIME_LAST, WDT_TIMEOUT_MS, SUPERVISOR_RESTARTS, ISLAND_STATE, ISLAND_LOCK_RETRY, ISLAND_FAIL_LAST,
   ISO_ERROR_RESPONSES, ISLAND_WAKES, XING_STATUS, XING_PULSE_LOST, XING_PULSE_LOST_LAST, FERRY_DISCARD,
   FERRY_MOORINGS, FERRY_FENCED_DROP, TEMP_DIE_MC, TEMP_INLET_MC]

/-- Rows of 18_logbook_spares_wear.md, part 0. -/
def table18_0 : List Obj :=
  [LOGBOOK_STATE, LOGBOOK_SEQ, LOGBOOK_COMMITS, LOGBOOK_COMMIT_FAIL, LOGBOOK_HEAD_SECTOR, LOGBOOK_ERASES_MAX,
   LOGBOOK_SECTORS_RETIRED, LOGBOOK_FACTORY_RESET, LOGBOOK_LAST_COMMIT_TIME, LOGBOOK_MAINS_COMMIT_US,
   LOGBOOK_RECONCILED, LBK_CLEAR, PF_STATE, PF_RESERVE_PERMILLE, PF_BLOCKS_RETIRED, PF_ERASE_MAX,
   PF_ERASE_MEAN, PF_JOB_BYTES_FREE, PF_SLOTS_USED, PF_READ_FAIL, SNAP_VIEW, SNAP_FIRST_STRIP, SNAP_STRIPS,
   SNAP_TAKE, SNAP_STATE, SNAP_SELECT, SNAP_OFFSET, SNAP_DATA, SNAP_DELETE, SNAP_BYTES_FREE, SPARE_TILES,
   SPARE_EASELS, SPARE_SLICES_MIN, SPARE_DRAM, RETIRED_COUNT, QUARANTINE_COUNT, FANS_IN_USE, NO_SPARE_MASK,
   WEAR_MARKED, UNIT_HISTORY]

/-- Rows of 18_logbook_spares_wear.md, part 1. -/
def table18_1 : List Obj :=
  [WEAR_SRAM_CE_LIMIT, RO_DRIFT_TILE, RO_DRIFT_EASEL, FAN_TRAY_SERIAL, FAN_STATE, FAN_RPM, FAN_TRAY_MINUTES,
   PSU_SERIAL, PSU_ON_MINUTES, PSU_LIFE_FAULTS, SAT_COUNT, SAT_LAST, SAT_LIST, MODULE_SERIAL, ASIC_LOT,
   ASIC_WAFER, DIE_X, DIE_Y, MODULE_BUILD_DATE, MODULE_ON_MINUTES, MODULE_INSPECT_MINUTES,
   MODULE_HW_REVISION, IDENTITY_MISMATCH]

/-- Rows of 19_observation.md, part 0. -/
def table19_0 : List Obj :=
  [TRACE_HEAD, TRACE_RING, TRACE_FILTER, TRACE_EVENT_MASK, TRACE_LOST, OBS_SAMPLE_SEQ, OBS_SAMPLE,
   DRAM_RD_BYTES, DRAM_WR_BYTES, TILE_BUSY_CLOCKS, EASEL_BUSY_CLOCKS, WHARF_HOST_RD_BYTES,
   WHARF_HOST_WR_BYTES, ECAT_FRAMES, ECAT_FRAME_ERR, HL_WINDOW_ACCESSES, SUPERVISOR_BUSY_NS]

/-- Rows of 20_ratings_and_connectors.md, part 0. -/
def table20_0 : List Obj :=
  [IO_SUPPLY_MV, IO_SUPPLY_LOW, IO_SUPPLY_LOSS]

/-- Every row of every object table; the cascade port comes before the bays, whose layout it shares (R118). -/
def rows : List Obj :=
  table01_0 ++ table02_0 ++ table03_0 ++ table03_1 ++ table04_0 ++ table05_0 ++
  table06_0 ++ table07_0 ++ table08_0 ++ table09_0 ++ table10_0 ++ table10_1 ++
  table11_0 ++ table12_0 ++ table13_0 ++ table13_1 ++ table14_0 ++ table15_0 ++
  table15_1 ++ table16_0 ++ table16_1 ++ table17_0 ++ table18_0 ++ table18_1 ++
  table19_0 ++ table20_0

end Reg
end Sys2Proof.Machine
end

