-- ==== Sys2Proof/Machine/State.lean ====
section
/-! DEFINITION. Machine/State.lean: the block's state as plain data, the state after reset, and the reasons to stop.
Nearly every register, tally and mode code of the spec lives in `dict`, the object dictionary of R532, under its own
key; the structures below hold what the spec names beside the dictionary. -/
namespace Sys2Proof.Machine

/-- Why a command stops the block. -/
inductive Fault where
  /-- Raised by `act` for a command that names a unit the module does not have (a bay above 11, a lane above 3, ...).
  Safe: the sender's command is ill-formed (`Instr.wf` is false) and nothing is claimed about it. -/
  | noSuchUnit
  deriving DecidableEq, Repr

/-- Why a command has no meaning. -/
inductive Refusal where
  /-- Raised by an arm of `exec` whose command is not modelled. Safe: no state follows. -/
  | notModelled (mnemonic : String)
  deriving DecidableEq, Repr

/-- A record of the trace ring (R646); the CRC is computed when the record is read. -/
structure TraceRec where
  seq : Nat := 0
  dc : Nat := 0
  typ : Nat := 0
  island : Nat := 0
  lost : Bool := false
  code : Nat := 0
  arg0 : Nat := 0
  arg1 : Nat := 0
  deriving DecidableEq, Repr

/-- The trace island (R645, R648): the input queue, oldest first, the ring, newest first, and whether a record was
lost since the last one accepted. -/
structure Trace where
  queue : List TraceRec := []
  ring : List TraceRec := []
  lostFlag : Bool := false
  deriving DecidableEq, Repr

/-- A channel of the event matrix (R436 to R438): its held event, when the holdoff ends, its rate window, an event in its
register that a write found there, and the configuration before the last write, which events that entered by the write's own
cycle still meet: that cycle, EN and SRC. -/
structure Chan where
  held : Bool := false
  reg : Bool := false
  old : Option (Nat × Bool × Nat) := none
  freeAt : Nat := 0
  windowEnd : Nat := 0
  count : Nat := 0
  deriving DecidableEq, Repr

/-- A LUT cell (R434): the output waiting to leave, and a change of Q being timed by GLITCH. -/
structure Cell where
  out : Bool := false
  shown : Bool := false
  timing : Bool := false
  reportAt : Nat := 0
  deriving DecidableEq, Repr

/-- The event matrix (R424 to R441) beside its dictionary objects: the event cycle that ran last, the producers that have fired since,
each with the cycle it entered in, the pulses pending at crossings (R604) by producer, channels, cells, cell inputs that a held
event reached, the cycle each timer expires in, the pending event of each task input (R432), whether the saved configuration is
restored (R441), the producers that have lost a pulse since PULSE_LOST was clear (R604), the cycle in which the last capture
ended (R432), and the task inputs that channels reached in the cycle `metAt` (R431). -/
structure Evt where
  cycle : Nat := 0
  fired : List (Nat × Nat) := []
  xing : Dict := []
  chans : List Chan := List.replicate 64 {}
  cells : List Cell := List.replicate 32 {}
  cellIn : List Nat := []
  timerAt : List Nat := List.replicate 16 0
  taskPend : List Nat := []
  restored : Bool := false
  lostBy : List Nat := []
  captureEnd : Nat := 0
  metAt : Nat := 0
  met : List Nat := []
  deriving DecidableEq, Repr

/-- A CoE emergency message (R540). -/
structure Emcy where
  code : Nat
  errReg : Nat
  unit : Nat
  time : Nat
  deriving DecidableEq, Repr

/-- A frame or record waiting for a ring (R503, R506): its type and unit, its payload, the payload that replaces it
when it exceeds its ring (R505), and whether it may use the staging kept for blind and coverage records. -/
structure Frame where
  typ : Nat
  unit : Nat
  payload : List Byte
  short : List Byte := []
  keep : Bool := false
  deriving DecidableEq, Repr

/-- A ring in host memory (R500 to R506): its pointers, staged output oldest first, the next frame sequence number, when
its coalescing time ends (R510), whether a drop run is on (R506), and how its wharf channel's last job ended (R457, R480). -/
structure Ring where
  prod : Nat := 0
  cons : Nat := 0
  staged : List Frame := []
  seq : Nat := 0
  causeAt : Option Nat := none
  dropping : Bool := false
  job : Nat := 0
  deriving DecidableEq, Repr

/-- A function of the host link (R488 to R493, R508, R509): cause, pending and mask bits of its 64 vectors, messages
sent per vector, its shadows, the last refused window access, whether its link is up, with its generation and width, and what the
last read through a window or the fast-path page returned. -/
structure Fn where
  irq : Nat := 0
  pend : Nat := 0
  mask : Nat := 0xFFFFFFFFFFFFFFFF
  msgs : Dict := []
  readShadow : Option Nat := none
  writeShadow : Option (Nat × Nat) := none
  commitShadow : Nat := 0
  errAddr : Nat := 0
  errCode : Nat := 0
  up : Bool := false
  gen : Nat := 0
  width : Nat := 0
  readValue : Nat := 0
  deriving DecidableEq, Repr

/-- A control pass-through request (R498, R499), and once it has gone out, when, on which connector lane, and whether with tag (R90,
R91). -/
structure CamReq where
  fn : Nat
  bay : Nat
  addr : Nat
  write : Bool
  data : List Byte
  len : Nat
  sentAt : Option Nat := none
  lane : Option Nat := none
  tagged : Bool := false
  deriving DecidableEq, Repr

/-- A completed mailbox descriptor (R495): op, result, offset 8 (abort code or package result), bytes transferred, DC
time and the data copied to the buffer. -/
structure MboxDone where
  op : Nat
  result : Nat
  code : Nat
  bytes : Nat
  time : Nat
  data : List Byte := []
  deriving DecidableEq, Repr

/-- The host link beside its dictionary objects. -/
structure HostLink where
  fns : List Fn := [{}, {}]
  rings : List Ring := List.replicate 5 {}
  mboxTail : Nat := 0
  mboxHead : Nat := 0
  mboxLast : Option MboxDone := none
  pt : List CamReq := []
  camLog : List CamReq := []
  /-- Host memory as far as the block has written it, by function * 2^64 + address. -/
  hostMem : List Host.Cell := []
  deriving DecidableEq, Repr

/-- The EtherCAT slave beside its dictionary objects: the reference RxPDO buffer (R531), the latch registers (R522), emergency messages not yet
fetched, when each code was last sent, whether a DC lock was lost (R521), whether a load through the mirror waits for LOADED
(R539), how many of the assignment entries count (R523), and the last answer of the mailbox. -/
structure Ecat where
  rxPrev : Option (List Byte) := none
  latches : List Nat := [0, 0, 0, 0]
  emcyQ : List Emcy := []
  emcyAt : Dict := []
  dcLost : Bool := false
  m8Load : Bool := false
  rxCount : Nat := 1
  txCount : Nat := 1
  answer : List Byte := []
  deriving DecidableEq, Repr

/-- A snapshot in the portfolio (R622 to R624). -/
structure Snapshot where
  slot : Nat
  bytes : List Byte
  size : Nat
  deriving DecidableEq, Repr

/-- A camera's calibration, stored or as a candidate (R560 to R563): its accepted stages (bit 0 DARK to bit 3 COLOUR), its
DARK_FLAT table, segment means of the dark level by plane, reference means by plane, the sum of photodiode means, and the
temperatures of the camera and of the bars at its FLAT stage; and, of a candidate, its defective-pixel map, resampling
map and palette. -/
structure CalCam where
  stages : Nat := 0
  table : List Byte := []
  dCal : List (List Rat) := []
  rCal : List Rat := []
  phiCal : Rat := 0
  temp : Int := 0
  barTemps : List Int := List.replicate 12 0
  dpx : List Byte := []
  map : List Byte := []
  palette : List Byte := []
  deriving DecidableEq, Repr

/-- A bank of an easel context (R159): the bypass mask and the tables of stages 1 to 6 and 8; an empty table stands for
the factory's (R167), and the factory's mosaic descriptor has one row of one type. -/
structure Bank where
  bypass : Nat := 0
  lut : List Byte := []
  xtalk : List Byte := []
  green : List Byte := []
  flat : List Byte := []
  dpx : List Byte := []
  mosaic : List Byte := [0, 0, 0, 0, 1, 1, 0, 0, 0, 0, 0, 0, 0, 0, 0, 0]
  resample : List Byte := []
  deriving DecidableEq, Repr

/-- The CALIBRATION entry of the logbook (R167, R562, R563, R611): cameras by bay, committed banks and palettes by
context, the newest 17 traceability records, newest first, the trim baselines (camera, then bars) by bay, the photodiode
means and currents of the bars, stale views, and the pitch of each view (R25; DEDUCED, log entry 122). -/
structure CalStore where
  cams : List CalCam := List.replicate 12 {}
  banks : List Bank := List.replicate 12 {}
  palettes : List (List Byte) := List.replicate 12 []
  records : List (List Byte) := []
  base : List (Int × List Int) := List.replicate 12 (0, List.replicate 12 0)
  bars : List (Rat × Nat) := List.replicate 12 (0, 0)
  stale : Nat := 0
  pitch : List Nat := [0, 0, 0, 0]
  deriving DecidableEq, Repr

/-- What a copy of a logbook entry reads as beside its content (R608): the header's CRC, the trailer's sequence number and CRCs, and
the CRC of a BULK entry's blob. -/
structure Seal where
  header : Nat := 0
  trailerSeq : Nat := 0
  payload : Nat := 0
  trailer : Nat := 0
  blob : Nat := 0
  deriving DecidableEq, Repr

/-- An entry of the logbook (R608, R610): its type, instance, sequence number and payload length, which copies hold it and what each
reads as, the ring sector it lies in, the bytes it occupies, its content as registers and byte strings, and of a BULK entry its slot
of the bulk area and its blob. -/
structure LogEntry where
  typ : Nat
  inst : Nat := 0
  seq : Nat := 0
  length : Nat := 0
  copy0 : Bool := true
  copy1 : Bool := true
  seal0 : Seal := {}
  seal1 : Seal := {}
  sector : Nat := 16
  size : Nat := 256
  regs : Dict := []
  blobs : Blobs := []
  slot : Nat := 0
  cal : Option CalStore := none
  deriving DecidableEq, Repr

/-- What the portfolio's NAND shows (R621): blocks retired and uncorrectable reads since it was last looked at, the reserve in
thousandths of all blocks, and the highest and the mean erase count of a block. -/
structure NandWear where
  retired : Nat := 0
  readFails : Nat := 0
  reserve : Nat := 1000
  eraseMax : Nat := 0
  eraseMean : Nat := 0
  deriving DecidableEq, Repr

/-- What survives a cold reset (R606): the logbook's newest entries by key and those before them that no erase has taken yet, its
sequence series and write head; the portfolio's
packages, saved underpaintings, snapshots, firmware images and what its NAND last showed, and whether the factory entry's identity is that of the die (R642). -/
structure Nv where
  live : List LogEntry := []
  older : List LogEntry := []
  seq : Nat := 0
  head : Nat := 16
  fill : Nat := 256
  erases : Dict := []
  sectorSeqs : Dict := []
  sectorSeq : Nat := 0
  retired0 : List Nat := []
  retired1 : List Nat := []
  copy0 : Bool := true
  copy1 : Bool := true
  bulkSlot : Dict := []
  nand : Option NandWear := none
  pkgs : Blobs := []
  saved : Blobs := []
  snaps : List Snapshot := []
  imageA : List Byte := []
  imageB : List Byte := []
  active : Nat := 0
  previous : Nat := 0
  bootTries : Nat := 0
  standby : Nat := 0
  dropStored : Bool := false
  identityOk : Bool := true
  cal : CalStore := {}
  deriving DecidableEq, Repr

/-- A retirement mark (R634): kind, unit and trigger. -/
structure Mark where
  kind : Nat
  unit : Nat
  trigger : Nat
  deriving DecidableEq, Repr

/-- A line created and not yet issued (R120): its web count, when it was created, and its target. -/
structure PLine where
  count : Nat
  created : Nat
  target : Nat
  deriving DecidableEq, Repr

/-- A marker output (R357 to R362): queued firing counts in ascending order, whether it is on, since when, the two
kinds of end its on-period waits for, and whether an overcurrent holds it off until its next rising edge (R659). -/
structure Marker where
  queue : List Nat := []
  on : Bool := false
  since : Nat := 0
  endAt : Option Nat := none
  endCount : Option Nat := none
  tripped : Bool := false
  deriving DecidableEq, Repr

/-- A pulse output (R397, R398): the divider's remainder, the changes that wait (true is forward), its A/B phase and
when the last change left. -/
structure Pulse where
  acc : Nat := 0
  backlog : List Bool := []
  phase : Nat := 0
  lastEdge : Option Nat := none
  deriving DecidableEq, Repr

/-- One sin/cos input (R371 to R373, R380): its quadrant, its fraction, OVERRATE, and the run of outputs outside or
inside the amplitude window. -/
structure SinCos where
  quadrant : Nat := 0
  fraction : Nat := 0
  overrate : Bool := false
  ampBad : Bool := false
  outside : Nat := 0
  inside : Nat := 0
  sin : Int := 0
  deriving DecidableEq, Repr

/-- The tooth chain of CYL (R393 to R395): the web count and the count of opposite steps at the last edge, how many more periods are measured without
being evaluated, the last normal period, the period a reference event opened, edges since the last reference event,
whether an accepted reference event came before, whether it stood since resumption, and edges since the last miss. -/
structure Cyl where
  lastEdge : Option Nat := none
  skip : Nat := 2
  period : Option Nat := none
  afterRef : Option Nat := none
  edges : Nat := 0
  missEdges : Nat := 0
  seenRef : Bool := false
  lastRef : Option Nat := none
  deriving DecidableEq, Repr

/-- The motion subsystem beside its dictionary objects. -/
structure Motion where
  ab : List Nat := [0, 0, 0]
  illegalAt : List Nat := []
  wires : Nat := 0
  sinCos : List SinCos := [{}, {}]
  lastAbs : Option Nat := none
  serialFails : Nat := 0
  polling : Bool := false
  polledAt : Option Nat := none
  idxFirst : Option Nat := none
  idxLast : Option Nat := none
  idxDir : Option Bool := none
  idxRevs : Nat := 0
  /-- Observer position in units of 2^-32 counts (R384). -/
  p : Int := 0
  /-- Observer speed in counts per second. -/
  v : Rat := 0
  /-- Observer acceleration in counts per second squared. -/
  a : Rat := 0
  lastDir : Option Bool := none
  pair : Option (Bool × Nat) := none
  lastCount : Nat := 0
  /-- Whether the web has run backwards and not passed its high-water mark since (R53, R390). -/
  behind : Bool := false
  /-- When the observer last took an update (R384). -/
  obsAt : Option Nat := none
  /-- Whether STANDSTILL was entered from FORWARD with no opposite count since (R394). -/
  creeping : Bool := false
  /-- Whether a count opposite to forward came since the last tooth edge (R394). -/
  backStep : Bool := false
  cyl : Cyl := {}
  slip : Option (Nat × Nat) := none
  pulses : List Pulse := [{}, {}]
  markers : List Marker := List.replicate 16 {}
  inputs : Nat := 0
  /-- Recent changes of the web count, newest first: DC time and count (R401). -/
  hist : List (Nat × Nat) := []
  deriving DecidableEq, Repr

/-- A line of the line table: number, web count, DC time and module time of its issue, and the mode it belongs to. -/
structure Line where
  num : Nat
  count : Nat
  dc : Nat
  at_ : Nat
  mode : Nat
  calib : Bool := false
  overspeed : Bool := false
  stamp : Nat := 0
  tgen : Nat := 0
  egen : Nat := 0
  cgen : Nat := 0
  deriving DecidableEq, Repr

/-- An exposure set (R129): a trigger width per bay and a current per light channel. -/
structure ExpSet where
  widths : List Nat := List.replicate 12 2000
  currents : List Nat := List.replicate 12 0
  deriving DecidableEq, Repr

/-- The trigger generator and the exposure sets (R120 to R133). -/
structure Trig where
  running : Bool := false
  target : Nat := 0
  pend : List PLine := []
  lastIssue : Option Nat := none
  lines : List Line := []
  highUntil : List (Option Nat) := List.replicate 12 none
  applied : ExpSet := {}
  waiting : Option (ExpSet × Nat) := none
  calNext : Option Nat := none
  overspeed : Bool := false
  stripAt : Option Nat := none
  stripPeriod : Nat := 0
  /-- The calibration generation (R163). -/
  cgen : Nat := 0
  /-- The first line triggered since the last entry to READY (R213). -/
  firstLine : Option Nat := none
  /-- Every line that was the first since an entry to READY, newest first (R275). -/
  firsts : List Nat := []
  /-- Whether the waiting set's currents are in the drivers already (R133). -/
  loaded : Bool := false
  deriving DecidableEq, Repr

/-- A connector lane (R107, R109): failed attempts of the present bring-up or relock, when its present state began,
whether it relocks, whether the spare slice has been routed to it, whether it waits to be substituted (R112), and its
run of block lock: valid headers in a row and the last 64 headers' validity (R103); the expected ALIGN sequence number and when
the last ALIGN block came (R99), and the blocks received since that wait for the other stripe lanes' (header and payload); whether a signal
is there; the bits by which the receiver has slipped its framing; the shift
registers of descrambler and scrambler (R102); and, sending, blocks since the last ALIGN block, the next ALIGN number, and the
newest blocks sent, newest first (R97, R99). -/
structure Lane where
  attempts : Nat := 0
  since : Nat := 0
  relock : Bool := false
  onSpare : Bool := false
  marked : Bool := false
  blockLock : Bool := false
  validRun : Nat := 0
  recent : List Bool := []
  alignSeq : Option Nat := none
  alignAt : Option Nat := none
  rxq : List (Nat × Nat) := []
  signal : Bool := false
  slip : Nat := 0
  rxScr : Nat := 0
  txScr : Nat := 0
  txCount : Nat := 0
  txAlign : Nat := 0
  out : List Nat := []
  deriving DecidableEq, Repr

/-- A PHY quad (R85, R113 to R116): its self-test, its spare check, its loopback, when each slice's check is due, and the
slices whose recovered and transmit clocks are stopped. -/
structure Quad where
  test : Option (Nat × Nat) := none
  check : Option (Nat × Nat) := none
  loop : Option (Nat × Nat) := none
  loopFar : Bool := false
  checkedAt : List Nat := List.replicate 5 0
  stopped : List Nat := []
  deriving DecidableEq, Repr

/-- A write of the M12 to a bootstrap register of a camera (R92, R105, R106), by what it says: the connection that is the
master, a reset of the connections, the rate code and number of connections, or the largest stream packet. -/
inductive BootWrite where
  | masterHostConnectionId (lane : Nat)
  | connectionReset
  | connectionConfig (rate connections : Nat)
  | streamPacketSizeMax (bytes : Nat)
  deriving DecidableEq, Repr

/-- An edge of a trigger sent over a link (R91, R125): rising or falling, when, on which connector lane, and whether at high speed. -/
structure TrigEdge where
  rise : Bool
  at_ : Nat
  lane : Nat
  high : Bool
  deriving DecidableEq, Repr

/-- A line a bay awaits (R137, R143): its number, issue time, data so far by sub-stream and first pixel, the sub-streams
whose last packet came, and whether it has been replaced. -/
structure OutLine where
  num : Nat
  at_ : Nat
  parts : List (Nat × Nat × List Nat) := []
  done : List Nat := []
  replaced : Bool := false
  deriving DecidableEq, Repr

/-- A strip's statistics in the making (R146): strip, the strip flags its camera's own lines raised (R205), and the lines counted,
each with its planes (bits per sample and samples). -/
structure StripStat where
  strip : Nat
  flags : Nat := 0
  rows : List (Nat × List (Nat × List Nat)) := []
  deriving DecidableEq, Repr

/-- Which lane carried the data of a line and sub-stream from a first pixel on (R141, R142). -/
structure Carried where
  line : Nat
  sub : Nat
  first : Nat
  lane : Nat
  deriving DecidableEq, Repr

/-- A camera bay (R104 to R111, R136 to R146): the step of its bring-up (0 none, 1 detect, 2 discovery, 3 step-up, 4
lock sequence), when it began, the camera found, the target rate and lanes, whether PoCXP is shut down, the pairing of
tags with lines, lines awaited, lines delivered by sub-stream, newest first, statistics, digital gains with the line each is
in force from, newest first, tile packets on the way to the easel, and the lanes that carried data of lines with packets on the way, newest
first; when bring-up entered its first step and when the first lane entered DISCOVERY, the lane of the master connection, whether
control packets go out with tag and the upconnection runs at high speed (R90, R91), the connections on which a PoCXP device was found,
those that PoCXP powers (R93), and what was written to the camera's bootstrap registers, newest first; and of the trigger paths of R125:
whether the TRIG line is high, and the newest edges sent over the link, newest first. -/
structure Bay where
  step : Nat := 0
  stepAt : Nat := 0
  cam : Option CxpCamera := none
  rate : Nat := 0
  targets : List Nat := []
  locked : List Nat := []
  pocxpOff : Bool := false
  pairLine : Option Nat := none
  tagOf : Option (Nat × Nat) := none
  await : List OutLine := []
  prev : List (Nat × List (Nat × List Nat)) := []
  delivered : Bool := false
  lastDone : Option Nat := none
  stats : List StripStat := []
  gains : List (Nat × Nat) := []
  ferry : List (List Byte) := []
  carried : List Carried := []
  entryAt : Nat := 0
  discAt : Option Nat := none
  master : Option Nat := none
  tagged : Bool := false
  highUp : Bool := false
  devices : List Nat := []
  powered : List Nat := []
  writes : List BootWrite := []
  trigHigh : Bool := false
  edges : List TrigEdge := []
  deriving DecidableEq, Repr

/-- The cascade link (R95 to R100, R229, R401): the frame sequence expected and the next to send, whether the exchange
succeeded, the frames sent, whether the first WEB_COUNT frame is awaited at resumption, whether the link is down, when the
last WEB_COUNT frame left, and the views whose OVERLAP frames the partner sends, with the kept planes and columns they show. -/
structure Cascade where
  rxSeq : Option Nat := none
  txSeq : Nat := 0
  exchanged : Bool := false
  sent : List (List Byte) := []
  adopt : Bool := false
  down : Bool := true
  countAt : Nat := 0
  partners : List (Nat × Nat × Nat) := []
  /-- When the transmitters last started, and the rounds of blocks sent since (R97, R99). -/
  txFrom : Nat := 0
  txSent : Nat := 0
  /-- The bytes of the frame whose blocks are coming in, and the newest frames that came in whole, newest first (R97, R99). -/
  rxBuf : Option (List Byte) := none
  rxFrames : List (List Byte) := []
  deriving DecidableEq, Repr

/-- A repeat whose coverage record is still to come (R22, R36): its identity, first and last line, phase at its first
line (none when unknown), nominal start count and, where the start was scheduled, its fixed start count (R240), job stamp, mode, line pitch and count length, and per view the defect and
blind records; crops requested, items rejected, items with a firing queued, item rows closed, the flags and cameras
of the strips that left the assembler, and the views where one of them was BLIND for another reason than UNREGISTERED. -/
structure Rep where
  epoch : Nat
  number : Nat
  first : Nat
  last : Option Nat := none
  phase : Option Nat := none
  start : Nat := 0
  fixed : Option Nat := none
  stamp : Nat := 0
  unregistered : Bool := false
  mode : Nat := 2
  pitch : Nat := 0x100000
  clen : Nat := 0xA000
  height : Nat := 8000
  grid : Nat := 256
  ups : Nat := 0
  defects : List Nat := [0, 0, 0, 0]
  blinds : List Nat := [0, 0, 0, 0]
  crops : Nat := 0
  rejected : List Nat := []
  marked : List Nat := []
  rows : List Nat := []
  flags : Nat := 0
  cams : Nat := 0
  unclean : Nat := 0
  floods : List Nat := [0, 0, 0, 0]
  /-- The "rwb repeat" settings of the assembler and of marking that the repeat opened under, where they differ from the
  default (R10). -/
  cfg : Dict := []
  deriving DecidableEq, Repr

/-- A split (R20): the line, the kind (1 REPEAT_START, 2 JOB_SWITCH, 3 both), job stamp and tide generation after it. -/
structure Split where
  line : Nat
  kind : Nat
  stamp : Nat
  tide : Nat
  deriving DecidableEq, Repr

/-- The repeat-start scheduler (R235 to R244): computed starts in order, the last reference count and revolution, the newest reference events
since lines resumed, newest first, each with the revolution before it (R239), the
last actual start found by marks and the last measured length, misses in a row, whether a start is known late, the actual start at
which the phase is acquired, the repeat of the last actual start, the phase at the last mode-change or switch line, whether
the next start of a SECONDARY carries a known phase, the last reference event since lines resumed (R239), the difference of the
last two actual starts where both are known, the repeat whose mark was searched last, and the first line that the search of an
unknown phase has not covered (R240, R242). -/
structure Sched where
  starts : List Nat := []
  lastRef : Option Nat := none
  refs : List (Nat × Option Nat) := []
  rev : Option Nat := none
  actual : Option Nat := none
  length : Option Nat := none
  misses : Nat := 0
  late : Bool := false
  acquire : Option Nat := none
  counted : Nat := 0
  entry : Option Nat := none
  known : Bool := true
  ref : Option Nat := none
  gap : Option Nat := none
  searched : Option Nat := none
  scan : Nat := 0
  deriving DecidableEq, Repr

/-- A reject word to publish (R364). -/
structure Pub where
  word : Nat
  rep : Nat
  row : Nat
  seq : Nat
  deriving DecidableEq, Repr

/-- The web: the open repeat and those in flight, the mode whose first line is still to come (R64), the armed switch's
parameters and its computed trigger count (R49), and the job's content: the active, the pending and the package whose
lines are still in flight; the newest repeats whose coverage record has left, newest first; whether the last coverage record
showed blind area (R526); the switch lines, newest first (R206); whether the first line of a job armed in READY is still to
come (R48); and whether a load that learning holds up has loaded everything but underpaintings (R266). -/
structure Web where
  open_ : Option Rep := none
  closing : List Rep := []
  done : List Rep := []
  entry : Option Nat := none
  armed : Option (Nat × Nat × Nat × Int) := none
  switchAt : Option Nat := none
  job : Option (List Byte) := none
  oldJob : Option (List Byte) := none
  pendingJob : Option (List Byte) := none
  pendingSlot : Nat := 0xFFFF
  sched : Sched := {}
  splits : List Split := []
  blindLast : Bool := false
  switches : List Nat := []
  fresh : Bool := false
  loaded : Bool := false
  deriving DecidableEq, Repr

/-- The reject path (R364, R365, R528): publications that wait, when the present one's hold ends, and the next sequence
number. -/
structure Reject where
  queue : List Pub := []
  holdUntil : Nat := 0
  nextSeq : Nat := 0
  deriving DecidableEq, Repr

/-- A light-bar channel (R545 to R557): the current a warm reset holds, whether it was shed, whether its fault is still
there, whether it stays in FAULT until an entry to READY, the identity last seen (none before any), the serial whose life totals are
held (empty of a blank bar), its ratings, life totals' remainders in seconds, compensation, the
calibrated photodiode mean and current, the sum and number of its settled photodiode outputs in the strip and in a measurement of its
light level (FLAT's, or the gain lines of a trim), the current of the strip in progress, the run of strips above rating, and the
bar's own memory as last written, and when. -/
structure Bar where
  hold : Option Nat := none
  shed : Bool := false
  faulty : Bool := false
  latched : Bool := false
  serial : Option (List Byte) := none
  totalsOf : Option (List Byte) := none
  blank : Bool := false
  ratedCont : Nat := 0
  ratedPulse : Nat := 0
  maxDuty : Nat := 1000
  volt10mV : Nat := 0
  l70 : Nat := 0
  expo : Nat := 0
  sensor : Nat := 0
  blockSeq : Nat := 0
  nextB : Bool := false
  accEq : Rat := 0
  accOn : Rat := 0
  onSince : Bool := false
  comp : Rat := 1
  phiCal : Rat := 0
  iCal : Nat := 0
  phiSum : Int := 0
  phiN : Nat := 0
  measSum : Int := 0
  measN : Nat := 0
  iStrip : Nat := 0
  above : Nat := 0
  wroteAt : Nat := 0
  written : List Byte := []
  dropped : Bool := false
  deriving DecidableEq, Repr

/-- A camera line that waits in a context (R141, R153, R155): number, exposure generation, SUBST, whether a tile packet
of it failed its CRC, samples by sub-stream and first pixel, the sub-streams whose last packet came, and when its last packet came. -/
structure CamLine where
  num : Nat
  gen : Nat := 0
  subst : Bool := false
  bad : Bool := false
  parts : List (Nat × Nat × List Nat) := []
  done : List Nat := []
  at_ : Nat := 0
  deriving DecidableEq, Repr

/-- A camera line after stage 5, by plane or row. -/
structure DoneLine where
  num : Nat
  gen : Nat
  subst : Bool
  rows : List (List Nat)
  deriving DecidableEq, Repr

/-- An easel context (R149, R159 to R166): lines received, banks and palettes with the line each is active from, newest
first, commits that wait for their strip, and stage-5 lines that wait for alignment, newest first. -/
structure Ctx where
  store : List CamLine := []
  banks : List (Nat × Bank) := []
  pend : Option (Nat × Bank) := none
  palettes : List (Nat × List Byte) := []
  palPend : Option (Nat × List Byte) := none
  rows : List DoneLine := []
  lastOut : Option Nat := none
  deriving DecidableEq, Repr

/-- A logical easel (R148 to R158, R192 to R194): its contexts, the context in force, the line in progress and when it starts, when a
change of context that idles in A is over (R153), quay strips reserved with the place of each in the quay, strips dropped, whether context B is held back, the load window, the
deadlines of heartbeat tokens, and the takeover: whether it runs, and the first line after it. -/
structure Easel where
  ctxs : List Ctx := [{}, {}]
  inB : Bool := false
  running : Option (Nat × CamLine) := none
  startAt : Nat := 0
  freeAt : Nat := 0
  reserved : List (Nat × Nat) := []
  dropped : List Nat := []
  heldB : Bool := false
  winStart : Nat := 0
  tokens : List Nat := []
  sentAt : Nat := 0
  misses : Nat := 0
  takeover : Bool := false
  resumeLine : Nat := 0
  deriving DecidableEq, Repr

/-- A corrected line segment on its way to the seam joiner (R151). -/
structure Seg where
  bay : Nat
  line : Nat
  subst : Bool := false
  mixed : Bool := false
  egen : Nat := 0
  cgen : Nat := 0
  view : Nat := 0
  j0 : Nat := 0
  ctxB : Bool := false
  planes : List (List Nat) := []
  deriving DecidableEq, Repr

/-- A completion note (R209): a range of a camera's output lines and the blind cause of their cover. -/
structure Note where
  first : Nat
  last : Nat
  cause : Nat
  deriving DecidableEq, Repr

/-- A canvas strip of a view (R208 to R213, R223, R226, R227): its number and header as at opening, its flags, the seam gains
of its cameras and the strip they come from, per camera the lines accounted for and written validly as masks, contributions that count as blind
(camera, line, cause), lines blind over the full width, the partner's lines of a cascade seam, the pixel sums of the seam
loops (seam * 8 + plane * 4, then count, left, right), when its completion timeout began and whether it was completed by force (R210),
whether it is BLIND for another reason than UNREGISTERED (R262), and its holds. -/
structure CStrip where
  num : Nat
  header : List Byte := []
  flags : Nat := 0
  gains : List (Nat × Nat) := List.replicate 12 (0x4000, 0x4000)
  gainSrc : Nat := 0
  acc : List Nat := List.replicate 12 0
  ok : List Nat := List.replicate 12 0
  bad : List (Nat × Nat × Nat) := []
  whole : List (Nat × Nat) := []
  partner : Nat := 0
  partnerOk : Nat := 0
  sums : Dict := []
  forceFrom : Option Nat := none
  forced : Bool := false
  blind : Bool := false
  complete : Bool := false
  released : Bool := false
  issued : Bool := false
  left_ : Bool := false
  analysis : Bool := true
  archive : Bool := false
  archLevel : Nat := 1
  archLog2 : Nat := 16
  crops : List Nat := []
  deriving DecidableEq, Repr

/-- A view of the seam joiner: strips retained, oldest first, hold-back of contexts B, the last strip completed, the
last strip that left the assembler, the seam loops whose last update was clamped (2 * bay, or + 1 for N), and the partner's
overlap lines that came before our own. -/
structure View where
  strips : List CStrip := []
  holding : Bool := false
  heldAt : Nat := 0
  gainSrc : Nat := 0
  clamped : List Nat := []
  leftTo : Option Nat := none
  overlap : List (Nat × List Byte) := []
  deriving DecidableEq, Repr

/-- An anchor of a displacement field (R245, R253): displacement in 1/16 pixel, peak score, and its flag byte. -/
structure Anchor where
  dx : Int := 0
  dy : Int := 0
  score : Nat := 0
  flags : Nat := 0
  deriving DecidableEq, Repr

/-- A row of anchors (R250). -/
structure ARow where
  anchors : List Anchor := []
  failed : Bool := false
  deriving DecidableEq, Repr

/-- The field of one repeat (epoch * 2^32 + number) in a view, its first row, the mark error added to its predictions, in 1/16
line (R240), and whether it is completed (R253). -/
structure RField where
  rep : Nat
  first : Nat := 0
  finished : Bool := false
  rows : List ARow := []
  markErr : Int := 0
  deriving DecidableEq, Repr

/-- Registration and learning of a view (R245 to R266): fields of repeats in work, oldest first, the field of the repeat
before the oldest, which buffer the next field takes, whether the search is that of CAPTURE, and learning: the first
repeat it may use, whether it waits to begin, whether the seed is written, the samples of the present band, whether
the result waits for a repeat start, the first canvas line that no seed or sample has taken yet, and where in the sample store its samples
begin. -/
structure RegView where
  fields : List RField := []
  prev : Option RField := none
  buffer : Nat := 0
  capture : Bool := true
  from_ : Nat := 0
  wantLearn : Bool := false
  seeded : Bool := false
  samples : Nat := 0
  ready : Bool := false
  taken : Nat := 0
  store : Nat := 0
  deriving DecidableEq, Repr

/-- An edge span of a fragment (R304): edge 0 left, 1 right, 2 top, 3 bottom, first and last row or column. -/
structure Span where
  edge : Nat
  a : Nat
  b : Nat
  deriving DecidableEq, Repr

/-- A component fragment (R303). -/
structure Frag where
  strip : Nat
  view : Nat
  slice : Nat
  part : Nat
  flags : Nat := 0
  comp : Nat := 0
  x0 : Nat
  x1 : Nat
  r0 : Nat
  r1 : Nat
  gen : Nat := 0
  area : Nat := 0
  sumB : Nat := 0
  sumX : Nat := 0
  sumR : Nat := 0
  maxB : Nat := 0
  classes : Nat := 0
  spans : List Span := []
  epoch : Nat := 0
  deriving DecidableEq, Repr

/-- What a task's run gives (R278, R296 to R302). -/
structure TaskOut where
  frags : List Frag := []
  cnt : Nat := 0
  truncated : Bool := false
  deriving DecidableEq, Repr

/-- A task of the analysis fabric (R273 to R278): its place, the rows of its part, its bank image and generation, its
result once run, the fragments already sent, and the status it ends with when it is not to be DONE. -/
structure Task where
  view : Nat
  slice : Nat
  part : Nat
  strip : Nat
  r0 : Nat
  r1 : Nat
  gen : Nat := 0
  image : List Byte := []
  heartbeat : Bool := false
  out : Option TaskOut := none
  sent : Nat := 0
  status : Nat := 0
  counted : Bool := false
  deriving DecidableEq, Repr

/-- A logical tile (R276, R313 to R318): its queue, head first, tasks held before the queue or for a takeover, when the
deadline clock of the head started, the run of misses, when a task last came, its takeover, and its clocks in the present
load window. -/
structure Tile where
  queue : List Task := []
  held : List Task := []
  clock : Nat := 0
  misses : Nat := 0
  lastTask : Nat := 0
  takeAt : Option Nat := none
  clocks : Nat := 0
  deriving DecidableEq, Repr

/-- A candidate (R322 to R332): view, bounding box in view columns and canvas lines, sums, whether it holds several
fragments or a truncated one, its open edges as (strip, part, slice, span), and what a partner's candidate brings. -/
structure Cand where
  view : Nat
  x0 : Nat
  x1 : Nat
  y0 : Nat
  y1 : Nat
  area : Nat := 0
  sumB : Nat := 0
  sumX : Nat := 0
  sumY : Nat := 0
  maxB : Nat := 0
  classes : Nat := 0
  merged : Bool := false
  truncated : Bool := false
  edges : List (Nat × Nat × Nat × Span) := []
  cascade : Bool := false
  cams : Nat := 0
  lowFlags : Nat := 0
  continued : Bool := false
  closeAt : Nat := 0
  /-- Whether it holds a candidate of this module's own (R331). -/
  own : Bool := true
  deriving DecidableEq, Repr

/-- A task-end record (R278), which the assembler keeps while neighbours may need it (R327). -/
structure Ended where
  view : Nat
  strip : Nat
  part : Nat
  slice : Nat
  status : Nat
  truncated : Bool := false
  gen : Nat := 0
  r0 : Nat := 0
  r1 : Nat := 255
  cnt : Nat := 0
  frags : Nat := 0
  epoch : Nat := 0
  deriving DecidableEq, Repr

/-- A blind rectangle (R347): view, cause, columns and canvas lines, the repeat it belongs to, and whether it is still
open. -/
structure Rect where
  view : Nat
  cause : Nat
  x0 : Nat
  x1 : Nat
  y0 : Nat
  y1 : Nat
  rep : Nat
  open_ : Bool := true
  deriving DecidableEq, Repr

/-- A flood summary of one strip of a view (R349, R350). -/
structure Flood where
  view : Nat
  strip : Nat
  rep : Nat
  count : Nat := 0
  x0 : Nat := 0
  x1 : Nat := 0
  y0 : Nat := 0
  y1 : Nat := 0
  area : Nat := 0
  sumB : Nat := 0
  maxB : Nat := 0
  cls : Nat := 0
  severity : Nat := 0
  sumX : Nat := 0
  sumY : Nat := 0
  rejects : Bool := false
  cams : Nat := 0
  lowFlags : Nat := 0
  deriving DecidableEq, Repr

/-- A crop requested and not yet cut (R353 to R356): handle, record, view, first line and column, size, planes, repeat. -/
structure Crop where
  handle : Nat
  record : Nat
  view : Nat
  y0 : Nat
  x0 : Nat
  w : Nat
  h : Nat
  evicted : Bool := false
  deriving DecidableEq, Repr

/-- The defect assembler beside its dictionary objects (R322 to R356): open candidates, candidates at the cascade boundary
that wait, task-end records, blind rectangles, flood summaries, the end of the block of record IDs, crops, and the boxes
(view, columns, lines) of candidates whose cascade wait has expired. -/
structure Asm where
  cands : List Cand := []
  waiting : List Cand := []
  ended : List Ended := []
  rects : List Rect := []
  floods : List Flood := []
  blockEnd : Nat := 0
  cropSeq : Nat := 0
  crops : List Crop := []
  expired : List (Nat × Nat × Nat × Nat × Nat) := []
  deriving DecidableEq, Repr

/-- Self-tests and spare checks in progress (R195, R196, R316, R317, R455, R456): the unit and when it began; when each
spare was last checked; and the physical tiles whose clock gate is closed (R315, R585). -/
structure Bench where
  easelTest : Option (Nat × Nat) := none
  easelCheck : Option (Nat × Nat) := none
  easelAt : Nat := 0
  tileTest : Option (Nat × Nat) := none
  tileCheck : Option (Nat × Nat) := none
  tileAt : Dict := []
  dramTest : Option (Nat × Nat) := none
  dramCheck : Option (Nat × Nat) := none
  dramAt : Nat := 0
  dramWindow : Nat := 0
  gated : List Nat := []
  deriving DecidableEq, Repr

/-- One side of a wharf job (R458): its space (0 module DRAM, 1 host memory), the address and pitch of its rows, their
length and number. -/
structure Side where
  space : Nat
  addr : Nat
  pitch : Int := 0
  bytes : Nat
  rows : Nat := 1
  /-- The function whose memory the host space is (R484). -/
  fn : Nat := 0
  deriving DecidableEq, Repr

/-- A job of wharf channels 8 to 31 (R457 to R474): its parameters as at the start, what it is doing (1 RUNNING, 2
WAIT_ENGINE, 5 STOPPED), the input positions flushed, its rows done, and the sides other jobs wrote while it ran. -/
structure Job where
  op : Nat
  src : Side
  dst : Side
  dstLimit : Nat
  srcLimit : Nat
  level : Nat
  filter : Nat
  log2 : Nat
  status : Nat
  flushes : List Nat := []
  rows : Nat := 0
  clash : List Side := []
  id : Nat := 0
  served : Nat := 0
  seen : List (Nat × Nat) := []
  deriving DecidableEq, Repr

/-- The wharf (R457 to R466): jobs by channel, the channels that wait for an engine in order of arrival, the compressors that each
archive channel uses, how many jobs have started; and of channel 7 what its decompression does (0 none, 1 has an engine, 2 waits)
and the jobs that take turns with it. -/
structure Wharf where
  jobs : List (Nat × Job) := []
  waiting : List Nat := []
  arch : List Nat := [0, 0, 0, 0]
  started : Nat := 0
  load : Nat := 0
  loadSeen : List (Nat × Nat) := []
  deriving DecidableEq, Repr

/-- Module DRAM beside its objects (R449 to R456): uncorrectable errors of the last second (package, time), the package
being migrated and its spare, since when the copy runs and how long it ran before a HOLD in ns, whether the supervisor region is being rebuilt, the views whose underpainting is
decompressed again, and the package whose migration a cold reset ended (R451). -/
structure DramUnit where
  ueAt : List (Nat × Nat) := []
  moving : Option (Nat × Nat) := none
  movedAt : Nat := 0
  movedFor : Nat := 0
  rebuild : Bool := false
  reload : List Nat := []
  again : Option Nat := none
  deriving DecidableEq, Repr

/-- Power and resets (R575 to R604): domains that wait for power-good, head first; islands whose clock generator was
restarted once; islands whose ferries await a mooring token; mains: when the last qualifying half-cycle came, when LOSS
began, the run of good half-cycles after it; whether a thermal trip holds the module off; since when the die is above
115 °C; since when the supervisor's watchdog has expired, and whether the supervisor has halted (R443); and until when the life
counters are credited, with the remainders in ns of powered time and of time in INSPECT. -/
structure Power where
  rise : List Nat := []
  lockRetry : List Nat := []
  moor : List Nat := []
  peakAt : Nat := 0
  lossAt : Option Nat := none
  goodRun : Nat := 0
  offAt : Option Nat := none
  tripped : Bool := false
  hotAt : Option Nat := none
  wdtAt : Option Nat := none
  halted : Bool := false
  creditAt : Nat := 0
  onRest : Nat := 0
  inspectRest : Nat := 0
  deriving DecidableEq, Repr

/-- The calibration procedure (R559 to R561): stages still to run (0 DARK to 3 COLOUR), lines triggered in the present
measurement, channels it keeps dark, candidates by bay, what it measured of the bars (channel, mean, current), and the
staged tables and palettes its candidates took the place of, by key. -/
structure Cal where
  todo : List Nat := []
  lines : Nat := 0
  off : List Nat := []
  cands : List (Nat × CalCam) := []
  bars : List (Nat × Rat × Nat) := []
  old : List (Nat × List Byte) := []
  deriving DecidableEq, Repr

/-- Trims (R563 to R571): bays due, when each bay was last trimmed and its temperature last written, the trim that runs
(bay, trim strip) and its result while a commit is pending in that bay's context (R164), the channels it keeps dark and the line whose falling edge lights them again, the ranges of output
lines blind by bay, newest first, and the baselines (camera, then bars) by bay. -/
structure Trim where
  due : List Nat := []
  last : List (Option Nat) := List.replicate 12 none
  written : List (Option Nat) := List.replicate 12 none
  run : Option (Nat × Nat) := none
  held : Option TrimMeas := none
  dark : Option (Nat × List Nat) := none
  blind : List (Nat × Nat × Nat) := []
  base : List (Int × List Int) := List.replicate 12 (0, List.replicate 12 0)
  deriving DecidableEq, Repr

/-- The sinc3 filter of a channel (R406, R413): its three integrators, its three differentiators' delays, and its last decimated sum. -/
structure Sinc where
  i1 : Int := 0
  i2 : Int := 0
  i3 : Int := 0
  z1 : Int := 0
  z2 : Int := 0
  z3 : Int := 0
  out : Int := 0
  deriving DecidableEq, Repr

/-- A group of the filter chain (R403 to R414): its active and standby banks (none is the factory's of the preset), the
cross-fade in progress (output and length), the sinc3 filter and the delay line of each channel, newest first, outputs that still
carry SETTLING, and when the next output comes. -/
structure FGroup where
  active : Option (List Byte) := none
  standby : Option (List Byte) := none
  fade : Option (Nat × Nat) := none
  sincs : List Sinc := List.replicate 12 {}
  lines : List (List Int) := List.replicate 12 []
  settle : Nat := 11
  nextAt : Nat := 800
  deriving DecidableEq, Repr

/-- A detector (R416 to R420): samples of the block in progress, newest first; for LOCKED whether a block is in progress,
reference events since its start, the samples of a revolution at its start, samples since the last accepted reference event,
and samples between the last two. -/
structure Det where
  samples : List Int := []
  on : Bool := false
  refs : Nat := 0
  ns0 : Nat := 0
  since : Option Nat := none
  ns : Option Nat := none
  deriving DecidableEq, Repr

/-- The filter chain (R403 to R421): groups, detectors, and the channel being captured. After the reset that starts the module
every group settles. -/
structure Filter where
  groups : List FGroup := [{}, {}, { settle := 35, nextAt := 12800 }, { settle := 19, nextAt := 3200 }]
  dets : List Det := [{}, {}, {}, {}]
  capture : Nat := 0
  deriving DecidableEq, Repr

/-- The supervisor's periodic work: when the COUNTERS and WEAR entries were last written (R611), when the last sample of the
performance counters was taken (R651), and the snapshot being copied: view, slot, first strip, strips and DC time (R622). -/
structure Upkeep where
  countersAt : Nat := 0
  wearAt : Nat := 0
  sampleAt : Nat := 0
  snap : Option (Nat × Nat × Nat × Nat × Nat) := none
  deriving DecidableEq, Repr

/-- The state of the block. -/
structure State where
  /-- The commands that wait, first in, first out. -/
  pending : List Instr := []
  /-- Whether the module has power. -/
  powered : Bool := true
  /-- Nanoseconds of the module's own clock. -/
  now : Nat := 0
  /-- The DC system time (R12, R519). -/
  dc : Nat := 0
  /-- The object dictionary: each register that differs from its default, by key. -/
  dict : Dict := []
  /-- Contents of strings, octet strings and domains, by key. -/
  blobs : Blobs := []
  /-- Tallies whose SAT bit is set (R637), by key. -/
  sat : List Nat := []
  /-- Values of rwb objects that wait for their boundary (R10), by key. -/
  held : Dict := []
  /-- Values last written by the host, which a "save" stores (R536), by key. -/
  written : Dict := []
  /-- Contents last written by the host that a "save" stores, by key. -/
  writtenBlobs : Blobs := []
  /-- The abort code of the last refused write, 0 after an accepted one (R535). -/
  abort : Nat := 0
  /-- The model's own counter for values the spec leaves open. -/
  free : Nat := 0
  trace : Trace := {}
  evt : Evt := {}
  host : HostLink := {}
  ecat : Ecat := {}
  nv : Nv := {}
  /-- Lifetime declaration counts (R628) by kind * 65536 + unit. -/
  decls : Dict := []
  /-- Lifetime self-test failure counts (R628) by kind * 65536 + unit. -/
  fails : Dict := []
  marks : List Mark := []
  /-- SRAM corrections of the last 24 hours, newest first: time, kind, unit, number (R632). -/
  sramCe : List (Nat × Nat × Nat × Nat) := []
  motion : Motion := {}
  filter : Filter := {}
  trig : Trig := {}
  lanes : List Lane := List.replicate 52 {}
  quads : List Quad := List.replicate 13 {}
  bays : List Bay := List.replicate 12 {}
  cascade : Cascade := {}
  web : Web := {}
  reject : Reject := {}
  bars : List Bar := List.replicate 12 {}
  easels : List Easel := List.replicate 6 {}
  /-- Segments that wait for the seam joiner, by bay, oldest first. -/
  segs : List (List Seg) := List.replicate 12 []
  /-- Completion notes that wait for the seam joiner, by bay, oldest first. -/
  notes : List (List Note) := List.replicate 12 []
  views : List View := List.replicate 4 {}
  regs : List RegView := List.replicate 4 {}
  tiles : List Tile := List.replicate 96 {}
  /-- Bank images of the tide table by generation, newest first; a generation not listed has the image of R312. -/
  tide : List (Nat × List Byte) := []
  /-- A committed bank image that waits (R308). -/
  tideNext : Option (List Byte) := none
  /-- When the present window of TIDE_LOAD_PERMILLE began (R306). -/
  tideWin : Nat := 0
  asm : Asm := {}
  bench : Bench := {}
  cal : Cal := {}
  trim : Trim := {}
  wharf : Wharf := {}
  dramUnit : DramUnit := {}
  power : Power := {}
  upkeep : Upkeep := {}
  /-- Module DRAM by physical byte address of the map of R445; an unlisted byte reads 0. -/
  dram : List Host.Cell := []
  deriving DecidableEq, Repr

/-- The block right after reset. -/
def State.reset : State := {}

end Sys2Proof.Machine
end

