-- ==== Sys2Proof/Machine/Ops.lean ====
section
/-! DEFINITION. Machine/Ops.lean: the named operations every command is written over: registers, counters, time, the
event matrix's entry, the trace ring's entry, interrupts, emergency messages, refusals, units and the logbook. -/
namespace Sys2Proof.Machine
open Reg

/-! ## Registers -/

/-- The value of an object's instance; an object not listed holds its default (R536). -/
def State.get (s : State) (o : Obj) (i : Nat := 0) : Nat :=
  if i < o.count then (s.dict.look (o.key i)).getD (o.dflt i) else o.dflt i

/-- The signed value of an object's instance. -/
def State.int (s : State) (o : Obj) (i : Nat := 0) : Int := toSigned o.ty.bits (s.get o i)

/-- The registers with an object's instance holding `v` at its width; an instance that the object does not have holds nothing. -/
def Dict.write (d : Dict) (o : Obj) (i v : Nat) : Dict :=
  if i < o.count then
    (if v % 2 ^ o.ty.bits = o.dflt i then d.del (o.key i) else d.put (o.key i) (v % 2 ^ o.ty.bits))
  else d

/-- The state with an object's instance holding `v` at its width. -/
def State.set (s : State) (o : Obj) (i v : Nat) : State := { s with dict := s.dict.write o i v }

/-- The state with an object's instance holding an integer in two's complement at its width. -/
def State.setInt (s : State) (o : Obj) (i : Nat) (v : Int) : State := s.set o i (ofSigned o.ty.bits v)

/-- The bytes of a string, octet string or domain. -/
def State.blob (s : State) (o : Obj) (i : Nat := 0) : List Byte := (s.blobs.look (o.key i)).getD []

/-- The state with a string, octet string or domain replaced whole (R496). -/
def State.setBlob (s : State) (o : Obj) (i : Nat) (b : List Byte) : State :=
  { s with blobs := s.blobs.put (o.key i) b }

/-- A volume counter counts `n` more and wraps silently at its 64 bits (R639). -/
def State.volume (s : State) (o : Obj) (i : Nat) (n : Nat := 1) : State := s.set o i (s.get o i + n)

/-- A life counter counts `n` more minutes and saturates without a SAT bit (R640). -/
def State.life (s : State) (o : Obj) (i n : Nat) : State := s.set o i (min 0xFFFFFFFF (s.get o i + n))

/-- A fresh number for a value the spec leaves open: the counter advances, so that no two are tied. -/
def State.fresh (s : State) : Nat × State := (s.free, { s with free := s.free + 1 })

/-- Whether every subsystem behaves as R69 states for DORMANT: in DORMANT, and in a HOLD entered from it (R81). -/
def State.asDormant (s : State) : Bool := s.get MODE == 0 || (s.get MODE == 5 && s.get HOLD_FROM_DORMANT == 1)

/-! ## The trace ring's entry (R645 to R649) -/

/-- TRACE_FILTER's bit for a record type; POISONED has bit 30 (R649). -/
def State.traceOn (s : State) (typ : Nat) : Bool :=
  bit (s.get TRACE_FILTER) (if typ = 0xFE then 30 else typ)

/-- The order of records that arrive in the same cycle: source island, then type (R648). -/
def TraceRec.before (a b : TraceRec) : Bool :=
  decide (a.dc < b.dc) || (a.dc == b.dc && (decide (a.island < b.island) || (a.island == b.island && decide (a.typ ≤ b.typ))))

/-- The input queue with a record in its place. -/
def TraceRec.insert (r : TraceRec) : List TraceRec → List TraceRec
  | [] => [r]
  | a :: q => if a.before r then a :: TraceRec.insert r q else r :: a :: q

/-- TRACE_LOST and a SAT bit without any event: the step of `trace` and `lostPulse` that must not call itself. -/
def State.bump (s : State) (o : Obj) (i n : Nat) : State × Bool :=
  let v := s.get o i
  if v = 0xFFFFFFFF then (s, false)
  else (s.set o i (min 0xFFFFFFFF (v + n)), decide (0xFFFFFFFF ≤ v + n))

/-- The sticky SAT bit of a tally, and SAT_LAST (R637, R638). -/
def State.markSat (s : State) (k : Key) : State :=
  { s with sat := insertNat k s.sat }.set SAT_LAST 0 k

/-- Whether a producer lies in AO-MOT, beside the matrix (R428). -/
def isMot (p : Nat) : Bool :=
  (decide (1 ≤ p) && decide (p ≤ 0x60)) || (decide (0x71 ≤ p) && decide (p ≤ 0x74)) ||
  (decide (0x76 ≤ p) && decide (p ≤ 0x81)) || (decide (0x85 ≤ p) && decide (p ≤ 0xA2)) || p == 0xBB

/-- The island a producer's record names: its own domain's island (R428, R585). -/
def producerIsland (p : Nat) : Nat :=
  if isMot p then 68
  else if 0xA3 ≤ p ∧ p ≤ 0xAE then 38 + (p - 0xA3)
  else if p = 0xAF then 38
  else if p = 0xB0 then 26
  else if p = 0xB3 ∨ p = 0xB4 then 33
  else if p = 0x82 ∨ p = 0xB8 then 35
  else if p = 0xB5 ∨ p = 0xB6 ∨ p = 0xB7 then 0
  else if p = 0x83 ∨ p = 0x84 then 67
  else 66

/-! ## Pulses (R428, R598, R604) -/

/-- A pulse reaches its crossing with fewer than 15 pending, or the matrix at once from AO-MOT with the event cycle it enters in; the
matrix acts on it in the next cycle (R427). -/
def State.pulseIn (s : State) (p : Nat) : State :=
  if isMot p then { s with evt := { s.evt with fired := s.evt.fired ++ [(max s.evt.cycle (s.now / 4), p)] } }
  else { s with evt := { s.evt with xing := s.evt.xing.put p ((s.evt.xing.look p).getD 0 + 1) } }

/-- Whether a pulse of this producer would be lost at its crossing (R604). -/
def State.pulseFull (s : State) (p : Nat) : Bool := !isMot p && decide (15 ≤ (s.evt.xing.look p).getD 0)

/-- A producer's pulse is lost: PULSE_LOST, the receiving island, and the tally (R604). -/
def State.lostPulse (s : State) (p : Nat) : State × Bool :=
  let t := { s with evt := { s.evt with lostBy := insertNat p s.evt.lostBy } }
  ((t.set XING_STATUS 0 (setBit (s.get XING_STATUS) 0 true)).set XING_PULSE_LOST_LAST 0 68).bump XING_PULSE_LOST 0 1

/-- SATURATED's pulse leaves for the matrix. Lost here, it counts in XING_PULSE_LOST; where that tally reaches its own top, SATURATED's
next pulse is lost at the same full crossing. -/
def State.pulseSaturated (s : State) : State :=
  if s.pulseFull 0xBC then
    let x := s.lostPulse 0xBC
    if x.2 then x.1.markSat (XING_PULSE_LOST.key 0) else x.1
  else s.pulseIn 0xBC

/-- A record reaches the trace island: it enters the input queue of 64 in its place, or is lost and tallied, and the
next record accepted carries LOST (R648). TRACE_LOST at its top fires SATURATED, whose own record the full queue loses (R428, R637). -/
def State.traceAdd (s : State) (r : TraceRec) : State :=
  if s.trace.queue.length < 64 then
    { s with trace := { s.trace with
        queue := TraceRec.insert { r with lost := s.trace.lostFlag, dc := s.dc } s.trace.queue, lostFlag := false } }
  else
    let x := s.bump TRACE_LOST 0 1
    let t := { x.1 with trace := { x.1.trace with lostFlag := true } }
    if x.2 then (t.markSat (TRACE_LOST.key 0)).pulseSaturated else t

/-- A trace record of a type the filter enables (R647, R649). -/
def State.traceRec (s : State) (typ island code arg0 arg1 : Nat) : State :=
  if s.traceOn typ then
    s.traceAdd { typ := typ, island := island, code := code % 2 ^ 32, arg0 := arg0 % 2 ^ 64, arg1 := arg1 % 2 ^ 64 }
  else s

/-- TRACE_EVENT_MASK's bit for a producer; the factory mask leaves out LINE, STRIP_START and the timers (R649). -/
def State.eventTraced (s : State) (p : Nat) : Bool :=
  match s.blobs.look (TRACE_EVENT_MASK.key 0) with
  | some m => bit (natAt m (p / 8) 1) (p % 8)
  | none => p != 0x71 && p != 0x72 && !(decide (0x51 ≤ p) && decide (p ≤ 0x60))

/-- The queue of the input to the ring as time passes: one record every 2 ns (R645, R648). -/
def State.traceDrain (s : State) : Nat → State
  | 0 => s
  | n + 1 =>
    match s.trace.queue with
    | [] => s
    | r :: q =>
      let h := s.get TRACE_HEAD
      ({ s with trace := { s.trace with
          queue := q, ring := ({ r with seq := h } :: s.trace.ring).take 262144 } }.set TRACE_HEAD 0 (h + 1)).traceDrain n

/-! ## Events (R428, R598, R604) and tallies (R637) -/

/-- Producers in switched domains: bays, easels, seam joiner, fabric and assembler (R428, R581). -/
def isSwitched (p : Nat) : Bool :=
  p == 0x82 || (decide (0xA3 ≤ p) && decide (p ≤ 0xB0)) || (decide (0xB3 ≤ p) && decide (p ≤ 0xB8))

/-- A reset of the switched domains clears PULSE_LOST that they alone have set (R604). -/
def State.lostCleared (s : State) : State :=
  let l := s.evt.lostBy.filter (fun p => !isSwitched p)
  let t := { s with evt := { s.evt with lostBy := l } }
  if l.isEmpty then t.set XING_STATUS 0 (setBit (s.get XING_STATUS) 0 false) else t

/-- The trace record of a producer that fires (R647). -/
def State.traceEvent (s : State) (p : Nat) : State :=
  if s.eventTraced p then s.traceRec 2 (producerIsland p) p (s.get WEB_COUNT) 0 else s

/-- SATURATED leaves for the matrix, with its trace record. -/
def State.emitSaturated (s : State) : State := s.pulseSaturated.traceEvent 0xBC

/-- What a tally does at the moment it reaches 0xFFFF_FFFF (R637, R647). -/
def State.saturate (s : State) (k : Key) : State :=
  ((s.markSat k).traceRec 5 66 0 k 0).emitSaturated

/-- A producer fires: the pulse enters the matrix or its crossing, or is lost there (R428, R604). -/
def State.emit (s : State) (p : Nat) : State :=
  let t := if s.pulseFull p then
      let x := s.lostPulse p
      if x.2 then x.1.saturate (XING_PULSE_LOST.key 0) else x.1
    else s.pulseIn p
  t.traceEvent p

/-- A tally counts `n` more, stops at 0xFFFF_FFFF, and there sets SAT and emits SATURATED once (R637). -/
def State.tallyN (s : State) (o : Obj) (i n : Nat) : State :=
  if n = 0 then s
  else
    let x := s.bump o i n
    if x.2 then x.1.saturate (o.key i) else x.1

/-- A tally counts one more (R637). -/
def State.tally (s : State) (o : Obj) (i : Nat := 0) : State := s.tallyN o i 1

/-! ## Isolation wrappers (R594) -/

/-- Whether an island's wrapper is closed: from before its reset until it is released (R587, R594). -/
def State.wrapperClosed (s : State) (i : Nat) : Bool :=
  s.get ISLAND_STATE i == 0 || s.get ISLAND_STATE i == 3 || s.get ISLAND_STATE i == 4

/-- A wrapper answers requests to its island with errors, each tallied (R594). -/
def State.isoErrors (s : State) (n : Nat) : State := s.tallyN ISO_ERROR_RESPONSES 0 n

/-- A clear command's effect on one counter: it reads 0 and its SAT bit clears (R637). -/
def State.clearTally (s : State) (o : Obj) (i : Nat) : State :=
  { s.set o i 0 with sat := s.sat.filter (fun k => k != o.key i) }

/-- A clear command's effect on every instance of some counters. -/
def State.clearAll (s : State) (os : List Obj) : State :=
  os.foldl (fun t o => (List.range o.count).foldl (fun u i => u.clearTally o i) t) s

/-! ## Host interrupts (R508 to R510) -/

/-- The function record of the host link. -/
def State.fn (s : State) (f : Nat) : Fn := s.host.fns.getD f {}

/-- The state with a function record changed. -/
def State.modFn (s : State) (f : Nat) (g : Fn → Fn) : State :=
  { s with host := { s.host with fns := modifyAt s.host.fns f g } }

/-- A cause of a vector: set by its event; a message goes out when the cause was clear and the vector unmasked, and a
masked one pends (R509). -/
def Fn.cause (f : Fn) (v : Nat) : Fn :=
  if bit f.irq v then f
  else if bit f.mask v then { f with irq := setBit f.irq v true, pend := setBit f.pend v true }
  else { f with irq := setBit f.irq v true, msgs := f.msgs.put v ((f.msgs.look v).getD 0 + 1) }

/-- A cause of one function. -/
def State.irq (s : State) (f v : Nat) : State := s.modFn f (fun x => x.cause v)

/-- A cause of the whole module, to both functions (R508). -/
def State.irqAll (s : State) (v : Nat) : State := (s.irq 0 v).irq 1 v

/-! ## Causes and emergency messages (R540) -/

/-- ERROR_REGISTER: each bit while a cause that names it is active, and bit 0 while any is (R540). A dead tile, easel or
package, an overrun and a completed warm reset are moments, not lasting causes (DEDUCED, log entry 8). -/
def State.errorRegister (s : State) : Nat :=
  let hc := s.get HOLD_CAUSE
  let volt := bit hc 4 || s.get MAINS_STATE == 2
  let temp := bit hc 5
  let comm := s.ecat.dcLost
  let manu := s.get MODE == 5 || (List.range 12).any (fun b => s.get BAY_STATE b == 3)
  let gen := bit hc 1 || bit hc 2 || bit hc 3 || s.get ENC_FAULT != 0
  b2n (gen || volt || temp || comm || manu) + 4 * b2n volt + 8 * b2n temp + 16 * b2n comm + 128 * b2n manu

/-- An emergency message of a code and unit: at most once per 10 ms per code, lost beyond a queue of 16 (R540). -/
def State.emcy (s : State) (code unit : Nat) : State :=
  let recent := match s.ecat.emcyAt.look code with
    | some t => decide (s.now < t + 10000000)
    | none => false
  if recent then s
  else if s.ecat.emcyQ.length < 16 then
    { s with ecat := { s.ecat with
        emcyQ := s.ecat.emcyQ ++ [Emcy.mk code s.errorRegister unit (s.dc % 2 ^ 32)]
        emcyAt := s.ecat.emcyAt.put code s.now } }.volume EMCY_SENT 0
  else s.tally EMCY_LOST

/-- Code 0x0000 when the last cause that was active in `before` is no longer active (R540). -/
def State.emcyCleared (s before : State) : State :=
  if before.errorRegister != 0 && s.errorRegister == 0 then s.emcy 0 0 else s

/-! ## Answers to writes (R493, R535) -/

/-- A write refused with an abort code; the dictionary window records it and tells its function (R493). -/
def State.refuse (s : State) (via : Path) (k : Key) (code : Nat) : State :=
  let t := { s with abort := code }
  match via with
  | .window f => ((t.modFn f (fun x => { x with errAddr := k, errCode := code })).tally HL_DICT_ERRORS).irq f 5
  | _ => t

/-- A write accepted. -/
def State.accept (s : State) : State := { s with abort := 0 }

/-- The abort code of a refusal by mode or unit state (R535). -/
def abortMode : Nat := 0x08000022

/-- The abort code of BUSY (R535). -/
def abortBusy : Nat := 0x08000020

/-- A command object's write: accepted with its effect, or refused in the present mode (R75, R535). -/
def State.command (s : State) (via : Path) (o : Obj) (i : Nat) (ok : Bool) (f : State → State) : State :=
  if ok then f s.accept else s.refuse via (o.key i) abortMode

/-- Objects stored under rules of their own, which a "save" leaves out (R167, R412, R441, R481, R536). -/
def ownRules : List Obj :=
  [EASEL_BYPASS, EASEL_LIN_LUT, EASEL_XTALK, EASEL_GREEN, EASEL_DARK_FLAT, EASEL_DPX_MAP, EASEL_MOSAIC, EASEL_PALETTE,
   EASEL_RESAMPLE, FC_PRESET, FC_COEF, CHAN_CFG, CHAN_HOLDOFF, CHAN_RATE_LIMIT, CHAN_RATE_WINDOW_US, CELL_CFG, TIMER_PERIOD,
   HL_LINK_MODE]

/-- Whether a "save" stores an object: rw, rws and rwb of 0x2000 to 0x33FF (R536). -/
def Obj.saved (o : Obj) : Bool :=
  decide (0x200000 ≤ o.base) && decide (o.base < 0x340000) && (match o.acc with
    | .ro => false
    | .cmd => false
    | .pdo => false
    | _ => true) && !ownRules.any (fun x => x.base == o.base)

/-- The value last written to an object, for the set that "save" stores (R536). -/
def State.remember (s : State) (o : Obj) (i v : Nat) : State :=
  if o.saved then { s with written := s.written.put (o.key i) v } else s

/-- The content last written to an object, for the set that "save" stores (R536). -/
def State.rememberBlob (s : State) (o : Obj) (i : Nat) (b : List Byte) : State :=
  if o.saved then { s with writtenBlobs := s.writtenBlobs.put (o.key i) b } else s

/-- The state with a light-bar channel's record changed. -/
def State.modBar (s : State) (ch : Nat) (f : Bar → Bar) : State := { s with bars := modifyAt s.bars ch f }

/-- The trace record of a commit object's result (R647). -/
def State.traceCommit (s : State) (o : Obj) (i result at_ : Nat) : State :=
  s.traceRec 6 66 result at_ (o.key i)

/-! ## The logbook (R607 to R614) -/

/-- Bytes an entry takes in a ring sector: header, padded payload and trailer, on 256-byte boundaries (R607, R608). -/
def entrySize (payload : Nat) : Nat := (32 + (payload + 15) / 16 * 16 + 16 + 255) / 256 * 256

/-- The next ring sector in ascending order, wrapping, that is not retired (R613, R617). -/
def nextSector (retired : List Nat) (h : Nat) : Nat → Nat
  | 0 => h
  | n + 1 =>
    let c := if h = 2063 then 16 else h + 1
    if retired.contains c then nextSector retired c n else c

/-- The sectors a copy has retired (R617). -/
def Nv.retired (v : Nv) (copy : Nat) : List Nat := if copy = 0 then v.retired0 else v.retired1

/-- The sector the head moves to next. -/
def Nv.after (v : Nv) (h : Nat) : Nat := nextSector (v.retired0 ++ v.retired1) h 2048

/-- Bytes of an entry's content: R611 names it and gives no layout (DESIGN CHOICE, log entry 185). -/
def contentBytes (regs : Dict) (blobs : Blobs) : List Byte :=
  regs.flatMap (fun e => leBytes 4 e.1 ++ leBytes 8 e.2) ++
    blobs.flatMap (fun e => leBytes 4 e.1 ++ leBytes 4 e.2.length ++ e.2.flatMap (leBytes 4))

/-- Bytes of a bank of tables. -/
def Bank.bytes (b : Bank) : List Byte :=
  leBytes 2 b.bypass ++ b.lut ++ b.xtalk ++ b.green ++ b.flat ++ b.dpx ++ b.mosaic ++ b.resample

/-- Bytes of the CALIBRATION entry's blob, in the order of R611; it gives no layout (DESIGN CHOICE, log entry 185). -/
def CalStore.bytes (c : CalStore) : List Byte :=
  c.banks.flatMap Bank.bytes ++ c.palettes.flatten ++ c.records.flatten ++
    c.base.flatMap (fun e => leBytes 4 (ofSigned 32 e.1) ++ e.2.flatMap (fun t => leBytes 4 (ofSigned 32 t))) ++
    c.bars.flatMap (fun e => leBytes 8 (ofSigned 64 e.1.num) ++ leBytes 4 e.1.den ++ leBytes 2 e.2) ++ [c.stale] ++ c.pitch.flatMap (leBytes 4)

/-- The blob of a BULK entry; empty for the others. -/
def LogEntry.blob (e : LogEntry) : List Byte := (e.cal.map CalStore.bytes).getD []

/-- Bytes 0 to 27 of an entry's header (R608). -/
def LogEntry.head (e : LogEntry) : List Byte :=
  [0x4C, 0x42, 0x4B, 0x45, e.typ, b2n e.cal.isSome] ++ leBytes 2 e.inst ++ leBytes 8 e.seq ++ leBytes 4 e.length ++ List.replicate 8 0

/-- An entry's payload without its padding (R608): a BULK entry's points into one half of the bulk area. -/
def LogEntry.payload (e : LogEntry) : List Byte :=
  if e.cal.isSome then leBytes 8 (e.slot * 66584576) ++ leBytes 4 e.blob.length ++ leBytes 4 (crc32 e.blob)
  else contentBytes e.regs e.blobs

/-- A payload padded with zeros to a multiple of 16 bytes (R608). -/
def padded (b : List Byte) : List Byte := b ++ List.replicate ((16 - b.length % 16) % 16) 0

/-- What an entry is programmed with beside its content (R608). -/
def LogEntry.sealed (e : LogEntry) : Seal :=
  let p := crc32 (padded e.payload)
  { header := crc32 e.head, trailerSeq := e.seq, payload := p, trailer := crc32 (leBytes 8 e.seq ++ leBytes 4 p)
    blob := if e.cal.isSome then crc32 e.blob else 0 }

/-- Whether a copy of an entry holds: the CRCs of header and trailer, the sequence number repeated, the payload's CRC and a BULK
entry's blob (R609). -/
def LogEntry.holds (e : LogEntry) (x : Seal) : Bool :=
  x.header == crc32 e.head && x.trailer == crc32 (leBytes 8 x.trailerSeq ++ leBytes 4 x.payload) && x.trailerSeq == e.seq &&
    x.payload == crc32 (padded e.payload) && (e.cal.isNone || x.blob == crc32 e.blob)

/-- Whether copy 0, or copy 1, holds a valid entry (R609). -/
def LogEntry.in0 (e : LogEntry) : Bool := e.copy0 && e.holds e.seal0

/-- Whether copy 1 holds a valid entry (R609). -/
def LogEntry.in1 (e : LogEntry) : Bool := e.copy1 && e.holds e.seal1

/-- Whether an entry exists for the M12: one that fails a check in every copy does not (R609). -/
def LogEntry.valid (e : LogEntry) : Bool := e.in0 || e.in1

/-- Whether two entries have one key (R610). -/
def LogEntry.sameKey (e x : LogEntry) : Bool := e.typ == x.typ && e.inst == x.inst

/-- The live entry of a key: the valid one of the highest sequence number, which is the newest unless that one is not valid
(R610). -/
def Nv.entry (v : Nv) (typ inst : Nat) : Option LogEntry :=
  let of (l : List LogEntry) : Option LogEntry := l.reverse.find? (fun e => e.typ == typ && e.inst == inst && e.valid)
  (of v.live).orElse (fun _ => of v.older)

/-- The live entries of every key (R610). -/
def Nv.lives (v : Nv) : List LogEntry := v.live.filterMap (fun e => v.entry e.typ e.inst)

/-- An entry takes its place at the head, and the head moves on when the sector is full (R607, R613). -/
def Nv.place (v : Nv) (e : LogEntry) : Nv :=
  let full := decide (65536 < v.fill + e.size)
  let h := if full then v.after v.head else v.head
  let f := if full then 256 else v.fill
  let x : LogEntry := { e with seq := v.seq, sector := h, copy0 := v.copy0, copy1 := v.copy1 }
  { v with
    head := h
    fill := f + e.size
    seq := (v.seq + 1) % 2 ^ 64
    older := v.older ++ v.live.filter e.sameKey
    live := v.live.filter (fun y => !e.sameKey y) ++ [{ x with seal0 := x.sealed, seal1 := x.sealed }] }

/-- A sector is erased: its live entries are first copied to the head as new entries; the dead ones are gone (R613). -/
def Nv.recycle (v : Nv) (sector : Nat) : Nv :=
  let w := (v.lives.filter (fun x => x.sector == sector)).foldl (fun u e => u.place e) v
  { w with
    older := w.older.filter (fun x => x.sector != sector)
    erases := w.erases.put sector ((w.erases.look sector).getD 0 + 1)
    sectorSeqs := w.sectorSeqs.put sector (w.sectorSeq + 1), sectorSeq := w.sectorSeq + 1 }

/-- The header of a ring sector, without its padding to 256 bytes (R607): magic, erase count, sector sequence number and CRC. -/
def Nv.sectorHeader (v : Nv) (sector : Nat) : List Byte :=
  let b := [0x4C, 0x42, 0x53, 0x43] ++ leBytes 4 ((v.erases.look sector).getD 0) ++ leBytes 8 ((v.sectorSeqs.look sector).getD 0)
  b ++ leBytes 4 (crc32 b)

/-- An entry is written to both copies; a move of the head recycles the sector that keeps two erased ahead (R612, R613). -/
def Nv.write (v : Nv) (e : LogEntry) : Nv :=
  let w := v.place e
  if w.head = v.head then w else w.recycle (w.after (w.after w.head))

/-- The highest erase count of any ring sector (R607). -/
def Nv.erasesMax (v : Nv) : Nat := v.erases.foldl (fun m e => max m e.2) 0

/-- The logbook writes an entry and its objects follow. -/
def State.logPut (s : State) (e : LogEntry) : State :=
  let v := s.nv.write e
  (((({ s with nv := v }.set LOGBOOK_SEQ 0 v.seq).set LOGBOOK_HEAD_SECTOR 0 v.head).set LOGBOOK_ERASES_MAX 0
    v.erasesMax).volume LOGBOOK_COMMITS 0).set LOGBOOK_LAST_COMMIT_TIME 0 s.dc

/-- An entry of registers and byte strings is written. -/
def State.logWrite (s : State) (typ inst payload : Nat) (regs : Dict) (blobs : Blobs := []) : State :=
  s.logPut { typ := typ, inst := inst, length := payload, size := entrySize payload, regs := regs, blobs := blobs }

/-- The CALIBRATION entry is written: a BULK entry, its blob in the slot that the one before it does not use (R608, R611, R612). -/
def State.logWriteCal (s : State) (c : CalStore) : State :=
  let slot := 1 - (s.nv.bulkSlot.look 5).getD 1
  { s with nv := { s.nv with bulkSlot := s.nv.bulkSlot.put 5 slot } }.logPut
    { typ := 5, length := 16, size := entrySize 16, slot := slot, cal := some c }

/-- An entry's program fails on a copy (R617): the copy does not hold it, its sector is retired there and the head moves on, and a
copy with more than 64 retired sectors is dropped, unless it is the only one. -/
def State.programFails (s : State) (copy : Nat) : State :=
  let v := s.nv
  let gone := v.retired copy ++ [v.head]
  let drop := decide (64 < gone.length) && v.copy0 && v.copy1
  if !(if copy = 0 then v.copy0 else v.copy1) then s
  else
    let live := v.live.map (fun e =>
      if e.seq + 1 = v.seq then (if copy = 0 then { e with seal0 := {} } else { e with seal1 := {} }) else e)
    let w : Nv := if copy = 0 then { v with live := live, fill := 65536, retired0 := gone, copy0 := !drop }
      else { v with live := live, fill := 65536, retired1 := gone, copy1 := !drop }
    (({ s with nv := w }.set LOGBOOK_STATE 0 (b2n (!(w.copy0 && w.copy1)))).tally LOGBOOK_COMMIT_FAIL 0).tally
      LOGBOOK_SECTORS_RETIRED copy

/-- The registers of some objects, every instance, as pairs of key and value. -/
def State.snapshot (s : State) (os : List Obj) : Dict :=
  os.flatMap (fun o => (List.range o.count).map (fun i => (o.key i, s.get o i)))

/-- Registers put back from a snapshot of the same objects. -/
def State.restore (s : State) (os : List Obj) (d : Dict) : State :=
  os.foldl (fun t o => (List.range o.count).foldl (fun u i =>
    match d.look (o.key i) with
    | some v => u.set o i v
    | none => u) t) s

/-- The states and epochs that SPARE_MAP holds (R611). -/
def spareMapObjs : List Obj :=
  [TILE_PHYS_STATE, TILE_EPOCH, EASEL_PHYS_STATE, EASEL_EPOCH, SLICE_STATE, SLICE_EPOCH, DRAM_PKG_STATE, DRAM_PKG_EPOCH]

/-- The SPARE_MAP entry: unit states and epochs, then declaration and self-test failure counts and wear marks (R611). -/
def State.commitSpareMap (s : State) : State :=
  s.logWrite 2 0 960 (s.snapshot spareMapObjs)
    [(0, s.decls.flatMap (fun e => [e.1, e.2])), (1, s.fails.flatMap (fun e => [e.1, e.2])),
     (2, s.marks.flatMap (fun m => [m.kind, m.unit, m.trigger]))]

/-! ## Units of the inventory (R625 to R634) -/

/-- The state object of a kind of unit: 0 tile, 1 easel, 2 lane slice, 3 DRAM package (R643). -/
def unitStateObj : Nat → Obj
  | 0 => TILE_PHYS_STATE
  | 1 => EASEL_PHYS_STATE
  | 2 => SLICE_STATE
  | _ => DRAM_PKG_STATE

/-- The epoch object of a kind of unit. -/
def unitEpochObj : Nat → Obj
  | 0 => TILE_EPOCH
  | 1 => EASEL_EPOCH
  | 2 => SLICE_EPOCH
  | _ => DRAM_PKG_EPOCH

/-- Whether the domain of a tile, or of an easel, holds no unit of use: a group whose tiles are all out of use and not being tested, a
retired easel (R581, R625). -/
def State.domainEmpty (s : State) (kind u : Nat) : Bool :=
  if kind = 0 then
    (List.range 4).all (fun j => decide (2 ≤ s.get TILE_PHYS_STATE (4 * (u / 4) + j))) &&
      s.bench.tileTest.all (fun t => t.1 / 4 != u / 4)
  else kind == 1 && s.get EASEL_PHYS_STATE u == 3

/-- The domain of a tile or an easel loses its power once it holds no unit of use; an island that failed to release still reads FAILED
(R581, R588, R625; DEDUCED, log entry 210). -/
def State.restDomain (s : State) (kind u : Nat) : State :=
  let d := if kind = 0 then u / 4 else 26 + u
  if s.domainEmpty kind u = true ∧ s.get PD_STATE d = 1 then
    let t := s.set PD_STATE d 0
    if t.get ISLAND_STATE d = 4 then t else t.set ISLAND_STATE d 0
  else s

/-- A unit changes state: committed to SPARE_MAP, then reported in the dictionary and traced (R630, R647). -/
def State.setUnit (s : State) (kind u st : Nat) : State :=
  if s.get (unitStateObj kind) u = st then s
  else
    let t := (s.set (unitStateObj kind) u st).commitSpareMap
    t.traceRec 4 66 (kind * 256 + st) u (t.get (unitEpochObj kind) u)

/-- A unit is marked with a retirement trigger, once (R634). -/
def State.addMark (s : State) (kind u trigger : Nat) : State :=
  if s.marks.any (fun m => m.kind == kind && m.unit == u && m.trigger == trigger) then s
  else { s with marks := s.marks ++ [⟨kind, u, trigger⟩] }

/-- A unit meets a retirement trigger: the mark is committed, and a SPARE or QUARANTINE unit is RETIRED at once (R634). -/
def State.markUnit (s : State) (kind u trigger : Nat) : State :=
  if s.marks.any (fun m => m.kind == kind && m.unit == u && m.trigger == trigger) then s
  else
    let t := (s.addMark kind u trigger).commitSpareMap
    if t.get (unitStateObj kind) u = 1 ∨ t.get (unitStateObj kind) u = 2 then t.setUnit kind u 3 else t

/-- A unit is declared dead (R627, R628): its declaration counts, its epoch increments or, at 0xFFFF, stays; it goes to
QUARANTINE, or to RETIRED at its third declaration or at the epoch's end. -/
def State.declareDead (s : State) (kind u : Nat) : State :=
  let n := (s.decls.look (kind * 65536 + u)).getD 0 + 1
  let e := s.get (unitEpochObj kind) u
  let s1 := { s with decls := s.decls.put (kind * 65536 + u) n }
  if e = 0xFFFF then s1.setUnit kind u 3
  else
    let s2 := (s1.set (unitEpochObj kind) u (e + 1)).setUnit kind u 2
    if 3 ≤ n then (s2.addMark kind u 8).setUnit kind u 3 else s2

/-- A unit fails a self-test; the third failure retires it (R628). -/
def State.selfTestFailed (s : State) (kind u : Nat) : State :=
  let n := (s.fails.look (kind * 65536 + u)).getD 0 + 1
  let s1 := { s with fails := s.fails.put (kind * 65536 + u) n }
  if 3 ≤ n then s1.setUnit kind u 3 else s1.commitSpareMap

/-- A unit passes its self-test and becomes a spare; one that was retired meanwhile stays so (R625). -/
def State.selfTestPassed (s : State) (kind u : Nat) : State :=
  if s.get (unitStateObj kind) u = 3 then s else s.setUnit kind u 1

/-- The clock of an easel declared dead stops, unless its island has failed or has no power; a retired one loses its power (R193, R588,
R625). -/
def State.stopEasel (s : State) (p : Nat) : State :=
  (if s.get ISLAND_STATE (26 + p) = 0 ∨ s.get ISLAND_STATE (26 + p) = 4 then s else s.set ISLAND_STATE (26 + p) 5).restDomain 1 p

/-! ## Time and the frame of every command -/

/-- `dt` nanoseconds pass: the module's clock and the DC time advance, the trace island writes its queue at one record
per 2 ns, and the master fetches the emergency messages sent before (DESIGN CHOICE, log entries 1 and 7). -/
def State.advance (s : State) (dt : Ns) : State :=
  if dt = 0 then s
  else
    ({ s with now := s.now + dt, dc := (s.dc + dt) % 2 ^ 64, ecat := { s.ecat with emcyQ := [] } }).traceDrain
      (min (dt / 2) s.trace.queue.length)

/-- A command acts: on a unit the module has, after `dt` nanoseconds, and only while the module has power. Whatever it does,
the commands that wait stay as they are. -/
def act (ok : Bool) (dt : Ns) (s : State) (f : State → State) : Host.Outcome State Fault Refusal :=
  if ok then
    if s.powered then .next { f (s.advance dt) with pending := s.pending } else .next (s.advance dt)
  else .fault .noSuchUnit

end Sys2Proof.Machine
end

