-- ==== Sys2Proof/Machine/Markers.lean ====
section
/-! DEFINITION. Machine/Markers.lean: marker outputs, their queues and their on-periods (R357 to R363, R400, R659). -/
namespace Sys2Proof.Machine
open Reg

/-- The difference of two web counts, modular and signed (R14). -/
def countDiff (a b : Nat) : Int := toSigned 64 (a + (2 ^ 64 - b % 2 ^ 64))

/-- Counts in a length in µm, to the nearest count, ties away from zero (R357, R362; DEDUCED, log entry 12). -/
def umToCounts (um : Int) (countLength : Nat) : Int :=
  if countLength = 0 then Config.countsOfNoLength um else divRoundAway (um * 65536) countLength

/-- A web count moved by a signed number of counts, modulo 2^64 (R13). -/
def addCount (c : Nat) (d : Int) : Nat := ofSigned 64 ((c : Int) + d)

/-- The record of marker `m`. -/
def State.marker (s : State) (m : Nat) : Marker := s.motion.markers.getD m {}

/-- The state with the record of marker `m` changed. -/
def State.modMarker (s : State) (m : Nat) (f : Marker → Marker) : State :=
  { s with motion := { s.motion with markers := modifyAt s.motion.markers m f } }

/-- The later of two optional instants. -/
def laterAt : Option Nat → Option Nat → Option Nat
  | some a, some b => some (max a b)
  | some a, none => some a
  | none, b => b

/-- The later of two optional web counts (R14). -/
def laterCount : Option Nat → Option Nat → Option Nat
  | some a, some b => if 0 < countDiff b a then some b else some a
  | some a, none => some a
  | none, b => b

/-- The ends that MARK_WIDTH gives an on-period whose web position is `base` (R362): an instant for a width in µs, a web
count for a width in web µm. -/
def State.markEnds (s : State) (m base : Nat) : Option Nat × Option Nat :=
  if s.get MARK_WIDTH_UNIT m = 0 then (some (s.now + s.get MARK_WIDTH m * 1000), none)
  else (none, some (addCount base (umToCounts (s.get MARK_WIDTH m) (s.get COUNT_LENGTH))))

/-- A marker output rises, or stays on until the later of the two ends; a rise emits MARK_ON (R362, R428, R659). -/
def State.markRise (s : State) (m base : Nat) : State :=
  let k := s.marker m
  let e := s.markEnds m base
  if k.on then
    s.modMarker m (fun x => { x with endAt := laterAt x.endAt e.1, endCount := laterCount x.endCount e.2 })
  else
    (s.modMarker m (fun x => { x with on := true, since := s.now, endAt := e.1, endCount := e.2, tripped := false })).emit
      (0x21 + m)

/-- A marker output falls. -/
def State.markFall (s : State) (m : Nat) : State :=
  s.modMarker m (fun x => { x with on := false, endAt := none, endCount := none })

/-- Whether every end an on-period waits for has come (R362, R400). -/
def State.markEnded (s : State) (k : Marker) : Bool :=
  (match k.endAt with
    | some t => decide (t ≤ s.now)
    | none => true) &&
  (match k.endCount with
    | some c => decide (0 ≤ countDiff (s.get WEB_HIGH_WATER) c)
    | none => true)

/-- MARK_QUEUE_FILL, and MARK_NEXT_COUNT: the head, or the last firing that left (R366). -/
def State.markHead (s : State) (m left_ : Nat) : State :=
  let q := (s.marker m).queue
  (s.set MARK_QUEUE_FILL m q.length).set MARK_NEXT_COUNT m (q.headD left_)

/-- The firings of a marker that the high-water mark has reached leave the queue and fire (R361, R400). -/
def State.markReached (s : State) (m : Nat) : Nat → State
  | 0 => s
  | n + 1 =>
    match (s.marker m).queue with
    | [] => s
    | c :: q =>
      if 0 ≤ countDiff (s.get WEB_HIGH_WATER) c then
        ((((s.modMarker m (fun x => { x with queue := q })).markHead m c).volume MARK_FIRED m).markRise m c).markReached
          m n
      else s

/-- Position compare on one tick: firings reached, and ends of widths in web µm (R400). -/
def State.compareMarker (s : State) (m : Nat) : State :=
  let t := s.markReached m (s.marker m).queue.length
  let k := t.marker m
  if k.on && k.endCount.isSome && t.markEnded k then t.markFall m else t

/-- Position compare of all 16 outputs on one tick (R400). -/
def State.compareMarkers (s : State) : State := (List.range 16).foldl (fun t m => t.compareMarker m) s

/-- A firing count in its place of a queue that rises by modular difference (R360). -/
def insertFiring (c : Nat) : List Nat → List Nat
  | [] => [c]
  | a :: q => if 0 < countDiff a c then c :: a :: q else a :: insertFiring c q

/-- A firing is queued, unless it is not ahead of the high-water mark or the queue holds 256; whether it was (R360). -/
def State.queueFiring (s : State) (m c : Nat) : State × Bool :=
  if countDiff c (s.get WEB_HIGH_WATER) ≤ 0 then ((s.tally MARK_LATE m).emit 0x82, false)
  else if 256 ≤ (s.marker m).queue.length then (s.tally MARK_QUEUE_FULL m, false)
  else ((s.modMarker m (fun x => { x with queue := insertFiring c x.queue })).markHead m 0, true)

/-- HOLD and cold conditions: every marker off and every queue cleared, the discarded firings counted (R79, R363). -/
def State.clearMarkers (s : State) : State :=
  (List.range 16).foldl (fun t m =>
    let q := (t.marker m).queue
    (((t.modMarker m (fun x => { x with queue := [] })).markFall m).tallyN HOLD_MARKER_DISCARD 0 q.length).markHead m
      (q.getLastD (t.get MARK_NEXT_COUNT m))) s

/-- MARK_WIDTH_END (R362): the ends an on-period waits for have come, and the output falls. -/
def execMarkWidthEnd (dt marker : Nat) (s : State) : Host.Outcome State Fault Refusal :=
  act (decide (marker < 16)) dt s fun s =>
    if (s.marker marker).on && s.markEnded (s.marker marker) then s.markFall marker else s

/-- MARK_ON_LIMIT (R362, R596): an on-period reaches MARK_MAX_ON_MS; the output falls and the end is tallied. -/
def execMarkOnLimit (dt marker : Nat) (s : State) : Host.Outcome State Fault Refusal :=
  act (decide (marker < 16)) dt s fun s =>
    if (s.marker marker).on && decide ((s.marker marker).since + s.get MARK_MAX_ON_MS marker * 1000000 ≤ s.now) then
      (s.markFall marker).tally MARK_ON_LIMIT marker
    else s

/-- MARKER_OVERCURRENT (R659): an output above 1.2 A turns off and stays off until its next rising edge. -/
def execMarkerOvercurrent (dt marker : Nat) (s : State) : Host.Outcome State Fault Refusal :=
  act (decide (marker < 16)) dt s fun s =>
    if (s.marker marker).on then (s.markFall marker).modMarker marker (fun x => { x with tripped := true }) else s

end Sys2Proof.Machine
end

