-- ==== Sys2Proof/Machine/Detectors.lean ====
section
/-! DEFINITION. Machine/Detectors.lean: the single-frequency detectors of the filter chain (R416 to R420). -/
namespace Sys2Proof.Machine
open Reg

/-- The record of detector `d`. -/
def State.det (s : State) (d : Nat) : Det := s.filter.dets.getD d {}

/-- The state with the record of a detector changed. -/
def State.modDet (s : State) (d : Nat) (f : Det → Det) : State :=
  { s with filter := { s.filter with dets := modifyAt s.filter.dets d f } }

/-- The group a channel belongs to (R403). -/
def groupOf (c : Nat) : Nat := if c < 2 then 0 else if c < 4 then 1 else if c < 16 then 2 else 3

/-- The group a detector's source belongs to (R416). -/
def State.detGroup (s : State) (d : Nat) : Nat :=
  let c := s.get DET_SOURCE d
  if c = 18 then 0 else if c = 19 then 1 else groupOf c

/-- Clocks between outputs of a preset, in ns (R406). -/
def presetPeriod (p : Nat) : Nat := if p = 0 then 800 else if p = 1 then 3200 else 12800

/-- Output rate of a preset in mHz (R406). -/
def presetMhz (p : Nat) : Nat := if p = 0 then 1250000000 else if p = 1 then 312500000 else 78125000

/-- The square root of a quotient as a whole number; where it is none, which neighbour the module takes is free (log entry 97). -/
def rootOf (num den : Nat) : Nat :=
  let f := sqrtFrom 40 (num / den) 0
  if f * f * den = num then f else f + b2n (Config.rootUp num den)

/-- The amplitude √(sin² + cos²) of a sin/cos pair in LSB (R380, R416). -/
def amplitudeLsb (a b : Int) : Int := (rootOf (a * a + b * b).toNat 1 : Nat)

/-- The amplitude of a sin/cos pair in thousandths of a nominal amplitude in mV; full scale is 1,000 mV (R380, R404). -/
def amplitudePermille (a b : Int) (nominal : Nat) : Nat :=
  rootOf ((a * a + b * b).toNat * 10 ^ 12) ((8388608 * nominal) ^ 2)

/-- A sample of a detector's source: a channel's last output, or the amplitude of a sin/cos pair (R416). -/
def State.detSource (s : State) (d : Nat) : Int :=
  let c := s.get DET_SOURCE d
  if c = 18 then amplitudeLsb (s.int FC_VALUE 0) (s.int FC_VALUE 1)
  else if c = 19 then amplitudeLsb (s.int FC_VALUE 2) (s.int FC_VALUE 3)
  else s.int FC_VALUE c

/-- The Goertzel recurrence over a block, oldest sample first: s1 and s2 (R417). -/
def goertzel (xs : List Int) (coef : Rat) : Rat × Rat :=
  xs.foldl (fun (p : Rat × Rat) (x : Int) => ((x : Rat) + coef * p.1 - p.2, p.1)) (0, 0)

/-- X of a block at `turn` turns per sample, real and imaginary part, its phase referred to the first sample (R417). -/
def dftOf (xs : List Int) (turn : Rat) : Rat × Rat :=
  let p := goertzel xs (2 * cosTurn turn)
  let yr := p.1 - p.2 * cosTurn turn
  let yi := p.2 * sinTurn turn
  let back : Rat := turn * ((xs.length - 1 : Nat) : Rat)
  let c := cosTurn back
  let n := sinTurn back
  (yr * c + yi * n, yi * c - yr * n)

/-- round(2 |X| / N) (R417). -/
def detAmplitude (xs : List Int) (turn : Rat) : Nat :=
  let x := dftOf xs turn
  let n : Rat := (xs.length : Nat)
  (sqrtFrom 64 (16 * (x.1 * x.1 + x.2 * x.2) / (n * n)).floor.toNat 0 + 1) / 2

/-- arg X in 1/65,536 turn (R417). -/
def detPhase (xs : List Int) (turn : Rat) : Nat :=
  let x := dftOf xs turn
  ((65536 * argTurn x.1 x.2 + 1 / 2).floor % 65536).toNat

/-- Whether a block of a detector is in progress. -/
def Det.busy (x : Det) : Bool := x.on || !x.samples.isEmpty

/-- The block in progress is discarded and tallied; the results stay (R420). -/
def State.detDiscard (s : State) (d : Nat) : State :=
  if (s.det d).busy then (s.modDet d (fun x => { x with samples := [], on := false, refs := 0 })).tally DET_DISCARDED d else s

/-- A block ends: its results change together, and DET_DONE and perhaps DET_LIMIT fire (R417). -/
def State.detDone (s : State) (d : Nat) (turn : Rat) : State :=
  let xs := (s.det d).samples.reverse
  let amp := detAmplitude xs turn
  let mean := divRoundAway xs.sum (max 1 xs.length)
  let ratio := if mean = 0 then 0xFFFF else min 0xFFFF (1000 * (amp % 2 ^ 32) / mean.natAbs)
  let t := ((((s.set DET_AMPLITUDE d amp).set DET_PHASE d (detPhase xs turn)).setInt DET_MEAN d mean).set
    DET_RATIO_PERMILLE d ratio).set DET_VALID d 1
  let t := ((t.modDet d (fun x => { x with samples := [], on := false, refs := 0 })).volume DET_BLOCKS d).emit (0x9B + d)
  if t.get DET_LIMIT_PERMILLE d ≠ 0 ∧ t.get DET_LIMIT_PERMILLE d < ratio then (t.tally DET_LIMIT_HITS d).emit (0x9F + d) else t

/-- A detector takes an output of its source (R416, R418, R420). -/
def State.detSample (s : State) (d : Nat) (settling : Bool) : State :=
  let m := s.get DET_MODE d
  let s := s.modDet d (fun x => { x with since := x.since.map (· + 1) })
  if m = 0 then s
  else
    if settling then s.detDiscard d
    else if m = 1 then
      let t := s.modDet d (fun x => { x with samples := s.detSource d :: x.samples })
      if (t.det d).samples.length < t.get DET_BLOCK d then t
      else t.detDone d (((t.get DET_FREQ_MHZ d : Nat) : Rat) / ((presetMhz (t.get FC_PRESET (t.detGroup d)) : Nat) : Rat))
    else if (s.det d).on then s.modDet d (fun x => { x with samples := s.detSource d :: x.samples })
    else s

/-- Every detector whose source is in a group takes its output. -/
def State.detGroupSample (s : State) (g : Nat) (settling : Bool) : State :=
  (List.range 4).foldl (fun t d => if t.detGroup d = g then t.detSample d settling else t) s

/-- Every detector whose source is in a group loses its block (R420). -/
def State.detGroupDiscard (s : State) (g : Nat) : State :=
  (List.range 4).foldl (fun t d => if t.detGroup d = g ∧ t.get DET_MODE d ≠ 0 then t.detDiscard d else t) s

/-- A reference event for a LOCKED detector: a block ends at the W-th after its start, the 1 % test decides, and the next
block starts at this reference once a revolution's samples are known (R419; DEDUCED, log entry 180). -/
def State.detRef (s : State) (d : Nat) : State :=
  let x := s.det d
  let w := s.get DET_REVS d
  let s1 := if !x.on then s
    else if x.refs + 1 < w then s.modDet d (fun y => { y with refs := y.refs + 1 })
    else if w * x.ns0 < (((x.samples.length : Int) - ((w * x.ns0 : Nat) : Int)).natAbs) * 100 then s.detDiscard d
    else s.detDone d (((s.get DET_HARMONIC d : Nat) : Rat) / ((max 1 x.ns0 : Nat) : Rat))
  let s2 := s1.modDet d (fun y => { y with ns := x.since, since := some 0 })
  match x.since with
  | some n =>
    if (s2.det d).on then s2 else s2.modDet d (fun y => { y with on := true, refs := 0, samples := [], ns0 := n })
  | none => s2

/-- An accepted reference event reaches the detectors: a LOCKED one's block, and every one's count of the samples between the last two
references (R419). -/
def State.detReference (s : State) : State :=
  (List.range 4).foldl (fun t d => if t.get DET_MODE d = 2 then t.detRef d
    else t.modDet d (fun y => { y with ns := y.since, since := some 0 })) s

/-- LOCKED blocks are discarded: the observer leaves FORWARD, or a reference event is discarded or missed (R420). -/
def State.detUnlock (s : State) : State :=
  (List.range 4).foldl (fun t d => if t.get DET_MODE d = 2 then t.detDiscard d else t) s

/-- A group's output rate changes: the samples of a revolution are not known until one has passed (R407, R419). -/
def State.detRate (s : State) (g : Nat) : State :=
  (List.range 4).foldl (fun t d => if t.detGroup d = g then t.modDet d (fun x => { x with since := none, ns := none }) else t) s

/-- The tooth chain restarts: a revolution's samples are not known until one has passed (R394, R419). -/
def State.detRestart (s : State) : State :=
  (List.range 4).foldl (fun t d => t.modDet d (fun x => { x with since := none, ns := none })) s.detUnlock

end Sys2Proof.Machine
end

