-- ==== Sys2Proof/Machine/Memory.lean ====
section
/-! DEFINITION. Machine/Memory.lean: byte memories in canonical form: addresses strictly rising, and no entry equal to
what an unlisted address reads as. -/
namespace Sys2Proof.Machine

/-- A byte memory. -/
abbrev Memory := List Host.Cell

/-- The byte listed at an address. -/
def Memory.look : Memory → Nat → Option (BitVec 8)
  | [], _ => none
  | (a, b) :: r, k => if a = k then some b else Memory.look r k

/-- A byte put in its place. -/
def Memory.insert : Memory → Nat → BitVec 8 → Memory
  | [], k, b => [(k, b)]
  | (a, c) :: r, k, b =>
    if k < a then (k, b) :: (a, c) :: r else if k = a then (k, b) :: r else (a, c) :: Memory.insert r k b

/-- A byte taken out. -/
def Memory.remove (m : Memory) (k : Nat) : Memory := m.filter (fun c => c.1 != k)

/-- A write of one byte to a memory whose unlisted bytes read as `d`; none means they have no value. -/
def Memory.put (d : Option (BitVec 8)) (m : Memory) (k : Nat) (b : BitVec 8) : Memory :=
  if some b = d then m.remove k else m.insert k b

/-- A write of bytes from an address up. -/
def Memory.write (d : Option (BitVec 8)) (m : Memory) (k : Nat) : List Byte → Memory
  | [] => m
  | b :: r => Memory.write d (m.put d k (BitVec.ofNat 8 b)) (k + 1) r

/-- The canonical form: addresses strictly rising from `lo`, and no entry reads as an unlisted address does. -/
def Memory.wfFrom (d : Option (BitVec 8)) : Option Nat → Memory → Bool
  | _, [] => true
  | lo, (a, b) :: r =>
    (match lo with
      | none => true
      | some l => decide (l < a)) && decide (some b ≠ d) && Memory.wfFrom d (some a) r

/-- The canonical form of a memory whose unlisted bytes read as `d`. -/
def Memory.wf (d : Option (BitVec 8)) (m : Memory) : Bool := Memory.wfFrom d none m

/-- What an unlisted byte of module DRAM reads as (DESIGN CHOICE, log entry 5). -/
def dramBlank : Option (BitVec 8) := some 0

/-- A byte of module DRAM. -/
def State.dramByte (s : State) (a : Nat) : Byte := ((Memory.look s.dram a).getD 0).toNat

/-- Bytes of module DRAM from an address up. -/
def State.dramRead (s : State) (a n : Nat) : List Byte := (List.range n).map (fun i => s.dramByte (a + i))

/-- Bytes written to module DRAM from an address up. -/
def State.dramWrite (s : State) (a : Nat) (bs : List Byte) : State :=
  { s with dram := Memory.write dramBlank s.dram a bs }

/-- Zeros written to module DRAM, `n` bytes from an address up: an unlisted byte reads 0. -/
def State.dramZero (s : State) (a n : Nat) : State :=
  { s with dram := s.dram.filter (fun c => decide (c.1 < a) || decide (a + n ≤ c.1)) }

/-! ## Sides of a transfer (R458, R459) -/

/-- The address of a side's row. -/
def Side.row (d : Side) (r : Nat) : Nat := ((d.addr : Int) + (r : Int) * d.pitch).toNat

/-- Whether a side covers an address. -/
def Side.has (d : Side) (a : Nat) : Bool :=
  (List.range d.rows).any (fun r => decide (d.row r ≤ a) && decide (a < d.row r + d.bytes))

/-- The lowest address of a side and the one after its highest. -/
def Side.extent (d : Side) : Int × Int :=
  let far : Int := ((d.rows - 1 : Nat) : Int) * d.pitch
  ((d.addr : Int) + min 0 far, (d.addr : Int) + max 0 far + d.bytes)

/-- Whether two sides may share a byte; the host memories of two functions share none. -/
def Side.meets (a b : Side) : Bool :=
  a.space == b.space && (a.space == 0 || a.fn == b.fn) && decide (a.extent.1 < b.extent.2) && decide (b.extent.1 < a.extent.2)

/-- Bytes as they land: those that another side covers are undefined (R459). -/
def landing (others : List Side) (free a : Nat) (bs : List Byte) : List Byte :=
  if others.isEmpty then bs
  else bs.zipIdx.map (fun e => if others.any (fun d => d.has (a + e.2)) then Config.freeByte (free * 2 ^ 64 + a + e.2) % 256 else e.1)

/-- Jobs that still run remember that another channel has written a side. -/
def State.noteClash (s : State) (n : Nat) (d : Side) : State :=
  { s with wharf := { s.wharf with jobs := s.wharf.jobs.map (fun e =>
      if e.1 ≠ n ∧ d.meets e.2.dst then (e.1, { e.2 with clash := e.2.clash ++ [d] }) else e) } }

/-- Whether an address lies where the spec places content and gives it no layout: job staging, the supervisor region, and the working
area beside the fields, the variability maps and the debug buffers (R445). -/
def noLayout (a : Nat) : Bool :=
  (decide (0x1110000000 ≤ a) && decide (a < 0x1390000000)) ||
    (decide (0x2CAE780000 ≤ a) && decide (a < 0x2E00000000) &&
      !(decide (Config.tideDebugAddr ≤ a) && decide (a < Config.tideDebugAddr + 96 * 1048576)))

/-- Bytes of module DRAM as a transfer to the host reads them; content without a layout is free (R445; DESIGN CHOICE, log entry 202). -/
def State.dramShown (s : State) (free a n : Nat) : List Byte :=
  (List.range n).map (fun i => if noLayout (a + i) && (Memory.look s.dram (a + i)).isNone then
    Config.freeByte (free * 2 ^ 64 + a + i) % 256 else s.dramByte (a + i))

/-- Bytes written to the host memory of a function. -/
def State.hostWrite (s : State) (f a : Nat) (bs : List Byte) : State :=
  { s with host := { s.host with hostMem := Memory.write none s.host.hostMem (f * 2 ^ 64 + a) bs } }.volume
    Reg.WHARF_HOST_WR_BYTES 0 bs.length

/-- A write of one of the M12's own channels to host memory: bytes that a running job writes too are undefined (R457, R459). -/
def State.ownWrite (s : State) (f a : Nat) (bs : List Byte) : State :=
  let d : Side := { space := 1, addr := a, bytes := bs.length, fn := f }
  let others := (s.wharf.jobs.map (fun e => e.2.dst)).filter (fun x => x.meets d)
  if others.isEmpty then s.hostWrite f a bs
  else
    let fr := s.fresh
    (fr.2.hostWrite f a (landing others fr.1 a bs)).noteClash 32 d

/-- Bytes of a function's host memory whose content is undefined from here on. -/
def State.hostSpoil (s : State) (f a n : Nat) : State :=
  { s with host := { s.host with hostMem := s.host.hostMem.filter (fun c =>
      decide (c.1 < f * 2 ^ 64 + a) || decide (f * 2 ^ 64 + a + n ≤ c.1)) } }

end Sys2Proof.Machine
end

