-- ==== Sys2Proof/Machine/Mailbox.lean ====
section
/-! DEFINITION. Machine/Mailbox.lean: completion of mailbox descriptors and the control pass-through queue (R495, R498, R499). -/
namespace Sys2Proof.Machine
open Reg

/-- A mailbox result (R495). -/
def mboxOk : Nat := 1
/-- ABORT (R495, R496). -/
def mboxAbort : Nat := 2
/-- MODE (R497). -/
def mboxMode : Nat := 3
/-- BUSY (R495). -/
def mboxBusy : Nat := 4
/-- TIMEOUT (R498). -/
def mboxTimeout : Nat := 5
/-- NO_LINK (R498). -/
def mboxNoLink : Nat := 6
/-- OWNED (R498). -/
def mboxOwned : Nat := 7
/-- BAD_DESC (R495). -/
def mboxBadDesc : Nat := 8

/-- The mailbox result that goes with an abort code (DEDUCED, log entry 142). -/
def mboxResult (code : Nat) : Nat :=
  if code = 0 then mboxOk else if code = abortMode then mboxMode else if code = abortBusy then mboxBusy else mboxAbort

/-- Whether a function owns the mailbox and it is enabled (R500, R507). -/
def State.mboxOf (s : State) (fn : Nat) : Bool := s.get RING_ENABLE 4 == 1 && s.get RING_FUNCTION 4 == fn

/-- A descriptor completes: its result, abort code, bytes and time are written into it, the head advances and the MBOX cause is
set (R495). A descriptor of a mailbox that was disabled or lost meanwhile is abandoned (R511). -/
def State.mboxFinish (s : State) (fn op result code bytes : Nat) (data : List Byte := []) : State :=
  if !s.mboxOf fn then s
  else
    let a := s.get RING_BASE 4 + s.host.mboxHead % s.get RING_SIZE 4 * 64
    let t := ((s.hostWrite fn (a + 1) [result]).hostWrite fn (a + 8) (leBytes 4 code)).hostWrite fn (a + 28)
      (leBytes 4 bytes ++ leBytes 8 s.dc)
    let u := if data.isEmpty then t else t.volume WHARF_HOST_WR_BYTES 0 data.length
    { u with host := { u.host with
        mboxHead := (u.host.mboxHead + 1) % 2 ^ 32
        mboxLast := some { op := op, result := result, code := code, bytes := bytes, time := s.dc, data := data } } }.irq fn 4

/-- The oldest pass-through request of a bay (R499). -/
def State.ptFirst (s : State) (b : Nat) : Option CamReq := s.host.pt.find? (fun r => r.bay == b)

/-- The oldest pass-through request of a bay leaves the queue. -/
def State.ptDrop (s : State) (b : Nat) : State :=
  { s with host := { s.host with pt := match s.host.pt.findIdx? (fun r => r.bay == b) with
      | some i => s.host.pt.eraseIdx i
      | none => s.host.pt } }

/-- The oldest pass-through request of a bay ends with a result. -/
def State.ptEnds (s : State) (b result bytes : Nat) (data : List Byte := []) (code : Nat := 0) : State :=
  match s.ptFirst b with
  | none => s
  | some r => (s.ptDrop b).mboxFinish r.fn (if r.write then 6 else 5) result code bytes data

/-- The wrapper of a bay quad closes: a request outstanding to it is answered with an error and poisoned data, which the pass-through
channel treats as a poisoned read (R449, R534, R594; the result is DEDUCED, log entry 181). -/
def State.ptWrapped (s : State) (b : Nat) : State :=
  match s.ptFirst b with
  | some r => if r.sentAt.isSome then (s.isoErrors 1).ptEnds b mboxAbort 0 [] 0x06060000 else s
  | none => s

/-- The connector lane that carries a bay's trigger and control traffic: the master connection's, or lane 0 of a Camera Link HS bay
(R91, R94). -/
def State.ctrlLane (s : State) (b : Nat) : Option Nat :=
  if s.get BAY_LINK_TYPE b = 2 then some 0 else (s.bays.getD b {}).master

/-- The oldest request of a bay is forwarded to the camera of a bay that is UP, waits during bring-up, and ends with NO_LINK
otherwise; then the next one (R498, R499). -/
def State.ptRun (s : State) (b : Nat) : Nat → State
  | 0 => s
  | n + 1 =>
    match s.ptFirst b with
    | none => s
    | some r =>
      if r.sentAt.isSome ∨ s.get BAY_STATE b = 1 then s
      else if s.get BAY_STATE b = 2 then
        let sent := { r with sentAt := some s.now, lane := s.ctrlLane b, tagged := (s.bays.getD b {}).tagged }
        { s with host := { s.host with
            pt := s.host.pt.map (fun x => if x == r then sent else x)
            camLog := (sent :: s.host.camLog).take 16 } }
      else (s.ptEnds b mboxNoLink 0).ptRun b n

/-- The pass-through queue of a bay moves on. -/
def State.ptNext (s : State) (b : Nat) : State := s.ptRun b s.host.pt.length

end Sys2Proof.Machine
end

