-- ==== Sys2Proof/Machine/Modes.lean ====
section
/-! DEFINITION. Machine/Modes.lean: the trigger generator's start and stop, repeats, hold causes, and what a change of
mode does (R56 to R83, R665). -/
namespace Sys2Proof.Machine
open Reg

/-- MODE_PENDING takes a value; a change interrupts the host (R508). -/
def State.toPending (s : State) (m : Nat) : State :=
  if s.get MODE_PENDING = m then s else (s.set MODE_PENDING 0 m).irqAll 7

/-- HOLD_CAUSE takes a value; a change interrupts the host (R508). -/
def State.toCause (s : State) (c : Nat) : State :=
  if s.get HOLD_CAUSE = c then s else (s.set HOLD_CAUSE 0 c).irqAll 7

/-! ## The trigger generator (R120, R121) -/

/-- A trigger target, 64.16 fixed point, moved by a pitch in 16.16. -/
def addTarget (t d : Nat) : Nat := (t + d) % 2 ^ 80

/-- TRIG_NEXT_COUNT shows the target's integer part (R147). -/
def State.setTarget (s : State) (t : Nat) : State :=
  { s with trig := { s.trig with target := t } }.set TRIG_NEXT_COUNT 0 (t / 2 ^ 16)

/-- Lines the high-water mark has reached are created: each takes the integer part of the target as its web count, and
the target advances by the pitch (R16, R120). -/
def State.createLines (s : State) : Nat → State
  | 0 => s
  | n + 1 =>
    let c := s.trig.target / 2 ^ 16
    if s.trig.running && !s.cascade.adopt && decide (0 ≤ countDiff (s.get WEB_HIGH_WATER) c) then
      ({ s with trig := { s.trig with pend := s.trig.pend ++ [PLine.mk c s.now s.trig.target] } }.setTarget
        (addTarget s.trig.target (s.get LINE_PITCH))).createLines n
    else s

/-- How many lines a high-water mark can create at most: a pitch is at least one count (R15). -/
def State.linesDue (s : State) : Nat :=
  (countDiff (s.get WEB_HIGH_WATER) (s.trig.target / 2 ^ 16) + 1).toNat

/-- The lines due at the present high-water mark are created. -/
def State.createDue (s : State) : State := s.createLines s.linesDue

/-- The next line's target (R120). -/
def State.nextTarget (s : State) : Nat :=
  match s.trig.pend with
  | l :: _ => l.target
  | [] => s.trig.target

/-- Lines after one of target `t` follow the present pitch (R122): those created already are created afresh. -/
def State.repitch (s : State) (t : Nat) : State := (s.setTarget (addTarget t (s.get LINE_PITCH))).createDue

/-- The generator stops; pending triggers are discarded (R121). -/
def State.suspendLines (s : State) : State :=
  { s with trig := { s.trig with running := false, pend := [] } }

/-- The generator resumes: the target is the high-water mark plus one pitch; the tooth chain restarts, and the next
reference yields one start only (R121, R237, R394); no camera has delivered a line since (R144). -/
def State.resumeLines (s : State) : State :=
  ({ s.detRestart with
    trig := { s.trig with running := true, pend := [], calNext := none, firstLine := none }
    motion := { s.motion with cyl := {} }
    web := { s.web with sched := { s.web.sched with lastRef := none, ref := none, rev := none, refs := [], starts := [], late := false } }
    bays := s.bays.map (fun (b : Bay) => { b with prev := [] })
    cascade := { s.cascade with adopt := s.get CASCADE_ROLE == 1 && s.get CASCADE_ENABLE == 1 } }).setTarget
      (addTarget (s.get WEB_HIGH_WATER * 2 ^ 16) (s.get LINE_PITCH))

/-- Pairing of tags with lines starts afresh in every bay (R136). -/
def State.restartPairing (s : State) : State :=
  { s with bays := s.bays.map (fun b => { b with pairLine := none, tagOf := none, await := [], prev := [], delivered := false }) }

/-- The number of the last line triggered; 0 before any. -/
def State.lastLine (s : State) : Nat := s.get LINE_NUMBER - 1

/-- What one method of repeat starts foresaw is void under another (R243). -/
def State.newMethod (s : State) : State :=
  { s with web := { s.web with sched := { s.web.sched with
      starts := [], late := false, acquire := none, actual := none, gap := none, length := none } } }

/-- Whether the web is at standstill for R665. -/
def State.standing (s : State) : Bool := s.get OBS_STATE != 1

/-! ## Repeats (R22, R26, R65, R66) -/

/-- Counts in `p` lines of the present pitch, to the nearest count (R26). -/
def State.lineCounts (s : State) (p : Nat) : Nat := divRoundUp (p * s.get LINE_PITCH) 65536

/-- The open repeat closes at a line and awaits its coverage record (R36, R66). -/
def State.closeRepeat (s : State) (lastLine : Nat) : State :=
  match s.web.open_ with
  | none => s
  | some r => { s with web := { s.web with open_ := none, closing := s.web.closing ++ [{ r with last := some lastLine }] } }

/-- The "rwb repeat" settings of the assembler and of marking, which bind the repeats opened under them (R10, R19). -/
def repeatObjs : List Obj :=
  [DEF_FLOOD_LIMIT, DEF_FLOOD_CLASS, DEF_FLOOD_ACTION, DEF_CROP_MARGIN, DEF_CROP_MAX_PER_REPEAT, MARK_SHIFT_UM, BLIND_POLICY,
   BLIND_MARK_PERMILLE]

/-- A setting of a repeat. -/
def Rep.get (r : Rep) (o : Obj) (i : Nat := 0) : Nat := (r.cfg.look (o.key i)).getD (o.dflt i)

/-- Those of some objects that differ from their default. -/
def State.changed (s : State) (os : List Obj) : Dict :=
  (s.snapshot os).filter (fun e => (s.dict.look e.1).isSome)

/-- The first anchor row a repeat estimates: the first centre at or after its phase (DEDUCED, log entry 24). -/
def Rep.firstRow (r : Rep) : Nat :=
  let p := r.phase.getD 0
  if p ≤ r.grid / 2 then 0 else (p - r.grid / 2 + r.grid - 1) / r.grid

/-- A repeat opens at a line of a web count with a phase, unknown when none: the number increments, and its wrap
increments the epoch (R22, R26). -/
def State.openRepeat (s : State) (line count : Nat) (phase : Option Nat) (unregistered : Bool := false) : State :=
  let n := (s.get REPEAT_NUMBER + 1) % 2 ^ 32
  let e := if n = 0 then s.get REPEAT_EPOCH + 1 else s.get REPEAT_EPOCH
  let c := addCount count (-((s.lineCounts (phase.getD 0) : Nat) : Int))
  let r : Rep := {
    epoch := e % 65536, number := n, first := line, phase := phase, start := c, stamp := s.get JOB_STAMP,
    unregistered := unregistered || phase.isNone, mode := s.get MODE
    pitch := s.get LINE_PITCH, clen := s.get COUNT_LENGTH, height := s.get REG_REPEAT_LINES, grid := s.get REG_ANCHOR_PITCH
    ups := (List.range 4).foldl (fun m v => if s.get REG_UP_PRESENT v = 1 then m + 2 ^ v else m) 0
    cfg := s.changed repeatObjs }
  let g (x : RegView) : RegView := if phase.isSome && !r.unregistered then { x with fields := x.fields ++ [{ rep := r.epoch * 2 ^ 32 + n, first := r.firstRow }] } else x
  (((({ s with web := { s.web with open_ := some r }, regs := s.regs.map g }).set REPEAT_NUMBER 0 n).set REPEAT_EPOCH 0 e).set
    REPEAT_START_COUNT 0 c).set REG_PHASE_STATE 0 (b2n phase.isSome)

/-! ## Lights (R545, R549) -/

/-- Whether a channel may drive light (R545). -/
def State.lightAllowed (s : State) (ch : Nat) : Bool :=
  s.get BAR_ENABLE ch == 1 && (s.get MODE == 1 || s.get MODE == 2 || s.get MODE == 3 || s.get MODE == 4) &&
    (s.get BAR_STATE ch == 1 || s.get BAR_STATE ch == 2) && !(s.bars.getD ch {}).shed && !s.cal.off.contains ch &&
    !(match s.trim.dark with
      | some d => d.2.contains ch
      | none => false)

/-- A channel's driver is disabled: an ON channel reads OFF and its current 0. -/
def State.lightOff (s : State) (ch : Nat) : State :=
  let t := if s.get BAR_STATE ch = 2 then s.set BAR_STATE ch 1 else s
  { t.set BAR_CURRENT_MA ch 0 with bars := modifyAt t.bars ch (fun b => { b with hold := none }) }

/-- Every driver is disabled (R79, R549). -/
def State.lightsOff (s : State) : State := (List.range 12).foldl (fun t ch => t.lightOff ch) s

/-! ## The end of learning, of a calibration procedure and of a trim (R266, R561, R571) -/

/-- The registration record of a view. -/
def State.reg (s : State) (v : Nat) : RegView := s.regs.getD v {}

/-- The state with a view's registration record changed. -/
def State.modReg (s : State) (v : Nat) (f : RegView → RegView) : State := { s with regs := modifyAt s.regs v f }

/-- Whether a view is learning. -/
def State.learning (s : State) (v : Nat) : Bool := s.get REG_LEARN_STATE v == 1 || s.get REG_LEARN_STATE v == 2

/-- Whether any view is learning. -/
def State.learningAny (s : State) : Bool := (List.range 4).any s.learning

/-- Learning of every view ends with ABORTED (R266). -/
def State.learnAbort (s : State) : State :=
  (List.range 4).foldl (fun t v =>
    if t.learning v || (t.reg v).ready then
      ((t.modReg v (fun x => { x with ready := false, seeded := false, samples := 0 })).set REG_LEARN_STATE v 4).set REG_UP_PRESENT v 0
    else t.modReg v (fun x => { x with wantLearn := false })) s

/-- The procedure ends with a result; candidates are discarded, and the staged tables read as before them (R561). -/
def State.calStop (s : State) (result : Nat) : State :=
  let t := { s with blobs := s.cal.old.foldl (fun (d : Blobs) (e : Nat × List Byte) => d.put e.1 e.2) s.blobs, cal := {} }
  (t.set CAL_STATE 0 0).set CAL_RESULT 0 result

/-- A running trim ends ABANDONED and applies nothing (R571). -/
def State.trimAbandon (s : State) : State :=
  match s.trim.run with
  | none => s
  | some (b, strip) =>
    let t := { s with trim := { s.trim with run := none, held := none, last := s.trim.last.set b (some s.now) } }
    ((((t.tally TRIM_ABANDONED).set TRIM_LAST_STRIP b strip).set TRIM_LAST_RESULT b 3).set TRIM_BUSY_BAY 0 0xFF).emit 0xBE

/-- Something spoils a line: a trim of the bay that uses it is abandoned (R571). -/
def State.trimSpoiled (s : State) (b n : Nat) : State :=
  match s.trim.run with
  | some (c, strip) => if c = b ∧ 256 * strip ≤ n ∧ n ≤ 256 * strip + 63 then s.trimAbandon else s
  | none => s

/-- What the mode that ends takes with it: learning of MAKEREADY, a trim of INSPECT, a procedure of CALIBRATE (R266, R561,
R571, R573). -/
def State.leaveMode (s : State) : State :=
  if s.get MODE = 2 then s.learnAbort
  else if s.get MODE = 3 then s.trimAbandon
  else if s.get MODE = 4 ∧ s.get CAL_STATE ≠ 0 then s.calStop 7
  else s

/-- The switched domains but 51 to 55 lose power, with their islands and what hangs on them (R69, R81, R581): their wrappers close
first, and what a ferry held is discarded (R594, R602). A bay that is DOWN and a FAILED lane stay so until the next bring-up (R104). -/
def State.powerDownDomains (s : State) : State :=
  let n := (s.bays.map (fun b => b.ferry.length)).sum
  let s := ((List.range 12).foldl State.ptWrapped (s.tallyN FERRY_DISCARD 0 n)).lostCleared
  let t := (List.range 51).foldl (fun u d => (u.set PD_STATE d 0).set ISLAND_STATE d 0) s
  let t := (List.range 52).foldl (fun u l => if u.get LANE_STATE l = 9 then u else u.set LANE_STATE l 0) t
  let t := (List.range 13).foldl (fun u b =>
    (if u.get BAY_STATE b = 3 then u else u.set BAY_STATE b 0).set BAY_LANES_UP b 0) t
  let t := (List.range 12).foldl (fun u b => (u.set BAY_SPEED b 0xFF).set BAY_POCXP_MW b 0) t
  let t := (List.range 6).foldl (fun u k => u.set EASEL_STATE k 0) t
  let t := (List.range 96).foldl (fun u k => if u.get TILE_LOG_STATE k = 3 then u else u.set TILE_LOG_STATE k 0) t
  let t := { t with
    bays := t.bays.map (fun b => { b with
      step := 0, targets := [], locked := [], await := [], ferry := [], powered := [], trigHigh := false })
    lanes := t.lanes.map (fun l => { l with
      relock := false, attempts := 0, onSpare := false, blockLock := false, validRun := 0, recent := [], alignSeq := none
      alignAt := none, signal := false })
    cascade := { t.cascade with down := true, exchanged := false, partners := [] }
    power := { t.power with rise := [], lockRetry := [], moor := [] } }
  (List.range 12).foldl State.ptNext t

/-- The life counters of the module, its fan tray and its stages take the minutes that have passed (R635, R636, R640;
DESIGN CHOICE, log entry 45). -/
def State.creditLife (s : State) : State :=
  let p := s.power
  let d := s.now - p.creditAt
  let on := p.onRest + d
  let ins := if s.get MODE = 3 then p.inspectRest + d else p.inspectRest
  let m := on / 60000000000
  let t := { s with power := { p with creditAt := s.now, onRest := on % 60000000000, inspectRest := ins % 60000000000 } }
  let t := if m = 0 then t
    else (List.range 3).foldl (fun u i => if u.get PSU_STAGE_STATE i = 0 then u.life PSU_ON_MINUTES i m else u)
      ((t.life MODULE_ON_MINUTES 0 m).life FAN_TRAY_MINUTES 0 m)
  if ins < 60000000000 then t else t.life MODULE_INSPECT_MINUTES 0 (ins / 60000000000)

/-! ## The change of mode -/

/-- A request ends with an outcome other than OK, or is replaced: a MODE record (R60, R647). -/
def State.traceRequest (s : State) (target result : Nat) : State :=
  s.traceRec 1 66 target (s.get MODE_CHANGE_LINE) (result * 256 + s.get MODE)

/-- The outcome of the most recent request. -/
def State.modeResult (s : State) (r : Nat) : State := s.set MODE_RESULT 0 r

/-- A migration's copy pauses as HOLD begins, and goes on as it ends (R451). -/
def State.copyPauses (s : State) (hold : Bool) : State :=
  if s.dramUnit.moving.isNone ∨ hold = (s.get MODE == 5) then s
  else if hold then { s with dramUnit := { s.dramUnit with movedFor := s.dramUnit.movedFor + (s.now - s.dramUnit.movedAt) } }
  else { s with dramUnit := { s.dramUnit with movedAt := s.now } }

/-- MODE takes a new code at a mode-change line: no transition is pending any more, an accepted request that is the most
recent one ends OK, the entry time is set, and MODE_CHANGE and the mode interrupt follow (R58, R64, R83, R508). -/
def State.setMode (s : State) (m line : Nat) : State :=
  let old := s.get MODE
  let s := s.copyPauses (m == 5)
  let s := if m = old then s else s.creditLife.leaveMode
  let r := if s.get MODE_RESULT = 1 then 0 else s.get MODE_RESULT
  let t := ((((s.modeResult r).set MODE 0 m).set MODE_PENDING 0 0xFF).set MODE_CHANGE_LINE 0 line).set MODE_ENTRY_TIME 0 s.dc
  (((t.traceRec 1 66 m line (r * 256 + old)).emit 0x75).irqAll 7).emcyCleared s

/-- Islands of the frozen data path stop or run again (R69). -/
def State.freezeIslands (s : State) (from_ to_ : Nat) : State :=
  (List.range 38).foldl (fun t i => if t.get ISLAND_STATE i = from_ then t.set ISLAND_STATE i to_ else t) s

/-- The bitmap reads 0 and the queued publications are discarded, each tallied (R79, R529). -/
def State.clearRejects (s : State) : State :=
  ({ s with reject := { s.reject with queue := [] } }.tallyN REJECT_QUEUE_DROP 0 s.reject.queue.length).set REJECT_BITMAP 0 0

/-- Entry to HOLD from any other mode (R78 to R82): a pending transition ends, outputs become safe, the data path
freezes. `byCause` tells a hold cause from a request. -/
def State.enterHold (s : State) (byCause : Bool) : State :=
  let fromDormant := s.get MODE == 0
  let pendingTo := s.get MODE_PENDING
  let was := pendingTo != 0xFF
  let s1 := if was then s.traceRequest pendingTo 12 else s
  let s2 := if byCause then (if was then s1.modeResult 12 else s1) else s1.modeResult 0
  let s3 := s2.clearMarkers.lightsOff.clearRejects.suspendLines
  let s4 := { s3 with
    trig := { s3.trig with highUntil := List.replicate 12 none, calNext := none }, web := { s3.web with entry := none }
    bays := s3.bays.map (fun (b : Bay) => { b with trigHigh := false }) }
  let s5 := if fromDormant then s4.powerDownDomains.set HOLD_FROM_DORMANT 0 1 else s4.freezeIslands 2 1
  (((s5.setMode 5 s5.lastLine).tally HOLD_COUNT).emit 0xBA).emcy 0xFF01 0

/-- The emergency code of a hold cause (R540). -/
def causeEmcy : Nat → Option Nat
  | 1 => some 0x6000
  | 2 => some 0x5000
  | 3 => some 0x5000
  | 4 => some 0x3100
  | 5 => some 0x4200
  | _ => none

/-- A hold cause arises: it is added, and HOLD is entered unless the M12 is in it (R78). -/
def State.addCause (s : State) (b : Nat) : State :=
  if bit (s.get HOLD_CAUSE) b then s
  else
    let t := (s.set HOLD_CAUSE 0 (setBit (s.get HOLD_CAUSE) b true)).irqAll 7
    let u := match causeEmcy b with
      | some c => t.emcy c 0
      | none => t
    if u.get MODE = 5 then u else u.enterHold true

/-- A hold cause's condition has ended (R78); the last cause to clear sends code 0 (R540). -/
def State.clearCause (s : State) (b : Nat) : State :=
  if bit (s.get HOLD_CAUSE) b then
    ((s.set HOLD_CAUSE 0 (setBit (s.get HOLD_CAUSE) b false)).irqAll 7).emcyCleared s
  else s

/-- Life counters and other persisted counters (R641). -/
def countersObjs : List Obj :=
  [RESET_WARM_COUNT, RESET_COLD_COUNT, FW_BOOT_FAILS, MAINS_LOSS_COUNT, LOGBOOK_SECTORS_RETIRED, LOGBOOK_ERASES_MAX,
   PF_BLOCKS_RETIRED, PF_ERASE_MAX, PF_ERASE_MEAN, FAN_TRAY_MINUTES, PSU_ON_MINUTES, PSU_LIFE_FAULTS,
   MODULE_ON_MINUTES, MODULE_INSPECT_MINUTES, BAR_EQ_MINUTES, BAR_ON_MINUTES, FAN_STATE, PSU_STAGE_STATE]

/-- A serial as four words, padded with zeros (R551). -/
def serialWords (serial : List Byte) : List Nat := (List.range 4).map (fun i => natAt serial (4 * i) 4)

/-- The life totals in a channel's words of the COUNTERS entry: serial, equivalent and actual minutes, the oldest first (R555). -/
def totalsIn (w : List Nat) : List (List Nat × Nat × Nat) :=
  (List.range (w.length / 6)).map (fun i => ((w.drop (6 * i)).take 4, w.getD (6 * i + 4) 0, w.getD (6 * i + 5) 0))

/-- The totals of a channel's bars in the live COUNTERS entry (R555, R611). -/
def State.loggedBook (s : State) (ch : Nat) : List (List Nat × Nat × Nat) :=
  totalsIn (((s.nv.entry 1 0).bind (fun e => e.blobs.look (20 + ch))).getD [])

/-- The totals of a channel's bars for the next COUNTERS entry: those it holds, with the bar's that was read last in place of its
former ones; the newest 16 serials (R555, R611; DESIGN CHOICE, log entry 209). -/
def State.barBook (s : State) (ch : Nat) : List Nat :=
  let old := s.loggedBook ch
  let all : List (List Nat × Nat × Nat) := match (s.bars.getD ch {}).totalsOf with
    | none => old
    | some [] => old
    | some x => old.filter (fun e => e.1 != serialWords x) ++
      [(serialWords x, s.get BAR_EQ_MINUTES ch, s.get BAR_ON_MINUTES ch)]
  (all.drop (all.length - 16)).flatMap (fun e => e.1 ++ [e.2.1, e.2.2])

/-- The COUNTERS entry (R611): persisted counters, the bars' serials and life totals, and which persisted tallies have SAT set. -/
def State.commitCounters (s : State) : State :=
  let s := s.creditLife
  let sats := s.sat.filter (fun k => countersObjs.any (fun o => (o.instOf k).isSome))
  s.logWrite 1 0 6144 (s.snapshot countersObjs)
    ((List.range 12).map (fun ch => (ch, ((s.bars.getD ch {}).serial).getD [])) ++
      [(12, sats), (13, s.blob FAN_TRAY_SERIAL), (14, s.blob PSU_SERIAL 0), (15, s.blob PSU_SERIAL 1), (16, s.blob PSU_SERIAL 2)] ++
      (List.range 12).map (fun ch => (20 + ch, s.barBook ch)))

/-- Entry to DORMANT (R61, R69, R81): lines stop, lights go off, switched domains lose power, and the logbook takes the
counters (R611). -/
def State.enterDormant (s : State) : State :=
  let t := s.suspendLines.lightsOff.powerDownDomains
  let u := { t with trig := { t.trig with highUntil := List.replicate 12 none, calNext := none } }
  (u.setMode 0 u.lastLine).commitCounters

/-- A view enters CAPTURE (R247, R256). -/
def State.capture (s : State) (v : Nat) : State :=
  { s with regs := modifyAt s.regs v (fun x => { x with capture := true }) }.tally REG_CAPTURES v

/-- Every view with an underpainting enters CAPTURE, on entry to MAKEREADY or INSPECT and at a switch line (R247). -/
def State.captureViews (s : State) : State :=
  (List.range 4).foldl (fun t v => if t.get REG_UP_PRESENT v = 1 ∨ t.learning v = true then t.capture v else t) s

end Sys2Proof.Machine
end

