-- ==== Sys2Proof/Machine/Frames.lean ====
section
/-! DEFINITION. Machine/Frames.lean: 64b/66b blocks and their scrambler, and Marlith Link frames, sent and received (R97 to
R102). -/
namespace Sys2Proof.Machine
open Reg

/-- Whether this module is a cascade SECONDARY. -/
def State.isSecondary (s : State) : Bool := s.get CASCADE_ENABLE == 1 && s.get CASCADE_ROLE == 1

/-- Whether this module is a cascade PRIMARY. -/
def State.isPrimary (s : State) : Bool := s.get CASCADE_ENABLE == 1 && s.get CASCADE_ROLE == 0

/-- Zero padding of a payload to a multiple of 8 bytes. -/
def pad8 (p : List Byte) : List Byte := p ++ List.replicate ((8 - p.length % 8) % 8) 0

/-- A frame's bytes (R97). -/
def linkFrame (typ seq : Nat) (payload : List Byte) : List Byte :=
  let b := [typ, 0] ++ leBytes 2 seq ++ leBytes 4 payload.length ++ pad8 payload
  b ++ leBytes 4 (crc32c b)

/-! ## The scrambler (R102) -/

/-- The output bit of both equations of R102 for an input bit; bit 0 of the shift register is its newest bit. -/
def scramblerOut (s : Nat) (b : Bool) : Bool := (b != s.testBit 38) != s.testBit 57

/-- The shift register of 58 bits after a bit of the scrambled stream entered it. -/
def scramblerShift (s : Nat) (b : Bool) : Nat := (2 * s + b2n b) % 2 ^ 58

/-- `n` bits of a number, bit 0 first, through the scrambler: what goes out, and the register after it. -/
def scramble : Nat → Nat → Nat → Nat × Nat
  | 0, s, _ => (0, s)
  | n + 1, s, v =>
    let o := scramblerOut s (v.testBit 0)
    let r := scramble n (scramblerShift s o) (v / 2)
    (b2n o + 2 * r.1, r.2)

/-- `n` bits of a number, bit 0 first, through the descrambler: what comes out, and the register after it. -/
def descramble : Nat → Nat → Nat → Nat × Nat
  | 0, s, _ => (0, s)
  | n + 1, s, v =>
    let r := descramble n (scramblerShift s (v.testBit 0)) (v / 2)
    (b2n (scramblerOut s (v.testBit 0)) + 2 * r.1, r.2)

/-! ## Blocks (R97, R99, R101) -/

/-- A block of 66 bits before scrambling: its sync header in bits 1:0, its payload above. -/
def block66 (header : Nat) (payload : List Byte) : Nat := header + 4 * leNat (bytesAt payload 0 8)

/-- A control block: sync header 0b10 and its type in payload byte 0. -/
def controlBlock (typ : Nat) (rest : List Byte) : Nat := block66 2 (typ :: rest)

/-- The blocks that carry a frame: START, its bytes 8 to a data block, TERMINATE with the number in the last; IDLE blocks fill
the last round over the four stripe lanes (DEDUCED, log entry 152). -/
def frameBlocks (f : List Byte) : List Nat :=
  let n := (f.length + 7) / 8
  let bs := controlBlock 0x33 [] :: (List.range n).map (fun i => block66 1 (bytesAt f (8 * i) 8)) ++
    [controlBlock 0x87 [f.length - 8 * (n - 1)]]
  bs ++ List.replicate ((4 - bs.length % 4) % 4) (controlBlock 0x1E [])

/-- A block leaves on a lane, scrambled but for its sync header. -/
def Lane.put (x : Lane) (b : Nat) : Lane :=
  let r := scramble 64 x.txScr (b / 4)
  { x with txScr := r.2, out := ((b % 4 + 4 * r.1) :: x.out).take 32 }

/-- The lane inserts its ALIGN block once it has sent 16,384 blocks since the last one (R99). -/
def Lane.align (x : Lane) (j : Nat) : Lane :=
  if x.txCount < 16384 then x
  else { x.put (controlBlock 0x4B (j :: leBytes 2 x.txAlign)) with txCount := 0, txAlign := (x.txAlign + 1) % 65536 }

/-- A block of the striped stream leaves on stripe lane `j` (R99). -/
def Lane.send (x : Lane) (j b : Nat) : Lane := ({ x.put b with txCount := x.txCount + 1 }).align j

/-! ## Idle blocks (R97, R99) -/

/-- What a block does to the scrambler's register: what zeros become, and what each bit of the register adds to that. -/
structure ShiftMap where
  zero : Nat
  cols : List Nat
  deriving DecidableEq, Repr

/-- What the bits of a register add. -/
def ShiftMap.linear (m : ShiftMap) (v : Nat) : Nat := m.cols.zipIdx.foldl (fun a c => if v.testBit c.2 then Nat.xor a c.1 else a) 0

/-- The register after the block. -/
def ShiftMap.run (m : ShiftMap) (v : Nat) : Nat := Nat.xor m.zero (m.linear v)

/-- The block sent twice. -/
def ShiftMap.twice (m : ShiftMap) : ShiftMap := { zero := m.run m.zero, cols := m.cols.map m.linear }

/-- The register after the block was sent `k` times, for `k` of at most as many bits as the first argument says. -/
def ShiftMap.times : Nat → ShiftMap → Nat → Nat → Nat
  | 0, _, _, v => v
  | f + 1, m, k, v => if k = 0 then v else ShiftMap.times f m.twice (k / 2) (if k % 2 = 1 then m.run v else v)

/-- What an IDLE block does to the scrambler's register. -/
def idleMap : ShiftMap :=
  let f (v : Nat) : Nat := (scramble 64 v 0x1E).2
  { zero := f 0, cols := (List.range 58).map (fun i => Nat.xor (f (2 ^ i)) (f 0)) }

/-- IDLE blocks leave in a row: the newest stand in the state, those before them have passed the scrambler. -/
def Lane.idleRun (x : Lane) (n : Nat) : Lane :=
  let y := iter (fun (z : Lane) => z.put (controlBlock 0x1E [])) (min n 32) { x with txScr := idleMap.times 64 (n - min n 32) x.txScr }
  { y with txCount := x.txCount + n }

/-- `n` IDLE blocks leave on stripe lane `j`, with the ALIGN blocks that fall due among them. -/
def Lane.idles (j : Nat) : Nat → Lane → Nat → Lane
  | 0, x, _ => x
  | f + 1, x, n =>
    let k := min n (16384 - x.txCount)
    if n = 0 then x else Lane.idles j f ((x.idleRun k).align j) (n - k)

/-- Rounds of four blocks that have left or could have left since the link's transmitters started: 66 bits a block at 26.5625 Gbaud. -/
def State.txRounds (s : State) : Nat := (s.now - s.cascade.txFrom) * 265625 / 660000

/-- The gap since the last frame is filled with IDLE blocks (R97, R99). -/
def State.idleBlocks (s : State) : State :=
  let n := s.txRounds - s.cascade.txSent
  { s with
    lanes := (List.range 4).foldl (fun ls j => modifyAt ls (48 + j) (fun x => Lane.idles j (n / 16384 + 2) x n)) s.lanes
    cascade := { s.cascade with txSent := s.cascade.txSent + n } }

/-- A frame's blocks leave, block k on stripe lane k mod 4, after the IDLE blocks that fill the gap before them; connector lane j carries
stripe lane j (log entry 153). -/
def State.sendBlocks (s : State) (f : List Byte) : State :=
  let t := s.idleBlocks
  let bs := frameBlocks f
  { t with
    lanes := bs.zipIdx.foldl (fun ls e => modifyAt ls (48 + e.2 % 4) (fun x => x.send (e.2 % 4) e.1)) t.lanes
    cascade := { t.cascade with txSent := t.cascade.txSent + bs.length / 4 } }

/-! ## Frames (R97, R98) -/

/-- A frame leaves on the cascade link; the newest sixteen stand in the state. -/
def State.sendFrame (s : State) (typ : Nat) (payload : List Byte) : State :=
  { s.sendBlocks (linkFrame typ s.cascade.txSeq payload) with cascade := { s.cascade with
    txSeq := (s.cascade.txSeq + 1) % 65536
    sent := (linkFrame typ s.cascade.txSeq payload :: s.cascade.sent).take 16 } }

/-- The bytes a frame's CRC covers have the CRC the frame carries, and its length is its own (R97). -/
def frameOk (f : List Byte) : Bool :=
  let n := natAt f 4 4
  let m := 8 + (n + 7) / 8 * 8
  f.length == m + 4 && crc32c (f.take m) == natAt f m 4

/-- A frame's payload of `n` bytes counts on the lanes that carried it, eight bytes at a time: its data blocks follow a START
block on stripe lane 0 and hold the payload from the second on (R97, R117; DEDUCED, log entry 154). -/
def State.laneBytes (s : State) (n : Nat) : State :=
  (List.range 4).foldl (fun t j =>
    let k := (j + 2) % 4
    let whole := (n / 8 + 3 - k) / 4
    let part := if n / 8 % 4 = k then n % 8 else 0
    t.volume LANE_BYTES (48 + j) (8 * whole + part)) s

/-- Whether the cascade's lanes carry frames: a frame is striped over all four, and while one of them is not up, what it would carry is
lost (R97, R109); a lane in the EXCHANGE step carries the capability frame, and one in a far-end loopback the frame that ends it
(DEDUCED, log entry 192). -/
def State.linkCarries (s : State) : Bool :=
  (List.range 4).all (fun j => s.get LANE_STATE (48 + j) == 7 || s.get LANE_STATE (48 + j) == 8 || s.get LANE_STATE (48 + j) == 10)

/-- A received frame: discarded and tallied when its CRC fails; missing sequence numbers are tallied; else its payload,
when it is of the type wanted (R98). A frame that fails its CRC takes no sequence number, so the next good one shows the gap and
tallies it as lost too (DESIGN CHOICE, log entry 189). -/
def State.takeFrame (s : State) (typ : Nat) (f : List Byte) : State × Option (List Byte) :=
  if s.get CASCADE_ENABLE = 0 ∨ !s.linkCarries then (s, none)
  else if !frameOk f then (s.tally CASCADE_FRAME_CRC, none)
  else
    let seq := natAt f 2 2
    let gap := match s.cascade.rxSeq with
      | some e => (seq + 65536 - e) % 65536
      | none => 0
    let t := { s with cascade := { s.cascade with rxSeq := some ((seq + 1) % 65536) } }.tallyN CASCADE_FRAME_LOST 0 gap
    (t.laneBytes (natAt f 4 4), if natAt f 0 1 = typ then some ((f.drop 8).take (natAt f 4 4)) else none)

end Sys2Proof.Machine
end

