-- ==== Sys2Proof/Machine/Tide.lean ====
section
/-! DEFINITION. Machine/Tide.lean: the tide table: its image format, its checks, its clocks, and what a tile does with it
(R279 to R304). -/
namespace Sys2Proof.Machine

/-! ## The image (R284 to R286) -/

/-- A tide-table entry (R286). -/
structure TEntry where
  op : Nat
  fin : Bool
  sat : Bool
  signed : Bool
  maskMode : Nat
  axis : Nat
  winR : Nat
  shift : Nat
  level : Nat
  count : Nat
  start : Nat
  idxEn : Nat
  idxSel : Nat
  idxStride : Nat
  rows : Nat
  chunks : Nat
  stride : Nat
  d : Nat
  a : Nat
  b : Nat
  c : Nat
  imm0 : Nat
  imm1 : Nat
  imm2 : Nat
  deriving DecidableEq, Repr

/-- The entry that 256 bits spell (R286). -/
def TEntry.ofNat (n : Nat) : TEntry := {
  op := bits n 255 248, fin := bit n 247, sat := bit n 246, signed := bit n 245, maskMode := bits n 244 243
  axis := bits n 242 241, winR := bits n 240 237, shift := bits n 236 232, level := bits n 231 230
  count := bits n 229 218, start := bits n 217 204, idxEn := bits n 203 200, idxSel := bits n 199 198
  idxStride := bits n 197 185, rows := bits n 184 176, chunks := bits n 175 169, stride := bits n 168 161
  d := bits n 160 148, a := bits n 147 135, b := bits n 134 122, c := bits n 121 109
  imm0 := bits n 108 93, imm1 := bits n 92 77, imm2 := bits n 76 61 }

/-- The image that stands when none was loaded: one NOP with END and every view disabled (R312). ROWS and CHUNKS are 1, the least that
R286 allows (DESIGN CHOICE, log entry 178). -/
def tideBlank : List Byte := leBytes 4 1 ++ List.replicate 76 0 ++ List.replicate 21 0 ++ [2, 1] ++ List.replicate 7 0 ++ [0x80, 0]

/-- An image as it stands: an empty one is the image of R312. -/
def tideImage (image : List Byte) : List Byte := if image.isEmpty then tideBlank else image

/-- Entry count of an image. -/
def tideCount (image : List Byte) : Nat := natAt image 0 4

/-- Constant block length of an image, in words. -/
def tideConsts (image : List Byte) : Nat := natAt image 4 2

/-- Entry `e` of an image. -/
def tideEntry (image : List Byte) (e : Nat) : TEntry :=
  TEntry.ofNat (leNat (bytesAt image (80 + 128 * tideConsts image + 32 * e) 32))

/-- Start entry of a view's program (R285). -/
def tideStart (image : List Byte) (v : Nat) : Nat := natAt image (16 + 16 * v) 2

/-- Slice width of a view (R285). -/
def tideWs (image : List Byte) (v : Nat) : Nat := natAt image (18 + 16 * v) 2

/-- Halo rows of a view (R285). -/
def tideHd (image : List Byte) (v : Nat) : Nat := natAt image (20 + 16 * v) 1

/-- Whether a view is enabled (R285). -/
def tideEnabled (image : List Byte) (v : Nat) : Bool := bit (natAt image (21 + 16 * v) 1) 0

/-! ## What each operation is (R289) -/

/-- Whether an opcode is assigned. -/
def opKnown (o : Nat) : Bool :=
  decide (o ≤ 0x07) || (decide (0x10 ≤ o) && decide (o ≤ 0x26)) || (decide (0x28 ≤ o) && decide (o ≤ 0x2A)) ||
    (decide (0x30 ≤ o) && decide (o ≤ 0x34)) || (decide (0x38 ≤ o) && decide (o ≤ 0x3C)) ||
    (decide (0x40 ≤ o) && decide (o ≤ 0x43))

/-- Whether an operation works on a block of ROWS × CHUNKS words: all but NOP and FLUSH. -/
def opBlock (o : Nat) : Bool := o != 0x00 && o != 0x42

/-- Whether an operation is a stream load with a source row (R290). -/
def opLoad (o : Nat) : Bool := decide (1 ≤ o) && decide (o ≤ 4)

/-- Whether an operation reads A. -/
def opReadsA (o : Nat) : Bool := opBlock o && !opLoad o && o != 0x05 && o != 0x41

/-- Whether an operation reads B. -/
def opReadsB (o : Nat) : Bool :=
  [0x10, 0x11, 0x12, 0x14, 0x19, 0x1A, 0x1C, 0x1D, 0x1E, 0x20, 0x21, 0x22, 0x28, 0x40].contains o

/-- Whether an operation uses C as data (R294). -/
def opDataC (o : Nat) : Bool := o == 0x28 || o == 0x29 || o == 0x40 || o == 0x43

/-- Whether an operation writes D. -/
def opWritesD (o : Nat) : Bool := opBlock o && o != 0x07 && o != 0x40 && o != 0x41 && o != 0x43

/-- Axes a window operation uses. -/
def axes (axis : Nat) : Nat := if axis = 0 then 2 else 1

/-- The cost of one execution of an entry (R289, R301). -/
def TEntry.cost (e : TEntry) : Nat :=
  let n := e.rows * e.chunks
  if e.op = 0x00 then 0
  else if e.op = 0x42 then 64
  else if e.op = 0x02 ∨ e.op = 0x41 then 2 * n
  else if e.op = 0x32 then
    (if e.axis = 0 then (2 * e.winR + 1) * (2 * e.winR + 1) else 2 * e.winR + 1) * n
  else if e.op = 0x34 then 9 * n
  else if e.op = 0x3A ∨ e.op = 0x3B then 2 * axes e.axis * n
  else if e.op = 0x30 ∨ e.op = 0x31 ∨ e.op = 0x33 ∨ e.op = 0x38 ∨ e.op = 0x39 ∨ e.op = 0x3C then axes e.axis * n
  else n

/-! ## Checks (R288) -/

/-- The checks of one entry by itself: ranges, reserved codes, MASK_MODE beside data in C, windows (R286, R288, R292). -/
def TEntry.ok (e : TEntry) : Bool :=
  opKnown e.op && e.maskMode != 3 && e.axis != 3 &&
    decide (1 ≤ e.rows) && decide (e.rows ≤ 320) && decide (1 ≤ e.chunks) && decide (e.chunks ≤ 66) &&
    (!(e.op == 1 || e.op == 2) || decide (e.imm0 ≤ 3)) && (!opDataC e.op || e.maskMode == 0) &&
    (e.op != 0x32 || decide (e.winR ≤ (if e.axis = 0 then 2 else 7))) && (e.op != 0x34 || decide (e.imm0 ≤ 4087))

/-- Whether the loop that entry `i` closes is properly nested among the loops closed before it. -/
def loopOk (es : List TEntry) (i : Nat) (e : TEntry) : Bool :=
  e.count == 0 || (decide (e.start ≤ i) &&
    ((List.range i).zip es).all (fun p =>
      p.2.count == 0 || decide (p.1 < e.start) || (decide (e.start ≤ p.2.start) && p.2.level != e.level)))

/-- A walk's record: loop indices, executions, clocks, the last RLE's shape, the next row RLE may record, whether RLE was used, and
whether a FLUSH has come after the last LINK, and the lowest-numbered entry that has offended so far (R288). -/
structure Walk where
  pc : Nat
  i : List Nat := [0, 0, 0, 0]
  clocks : Nat := 64
  rle : Option (Nat × Nat) := none
  nextRow : Nat := 0
  used : Bool := false
  flushed : Bool := false
  bad : Option Nat := none
  deriving DecidableEq, Repr

/-- The offset that operand bit `n` (3 D, 2 A, 1 B, 0 C) adds (R281). -/
def TEntry.off (e : TEntry) (i : List Nat) (n : Nat) : Nat := if bit e.idxEn n then i.getD e.idxSel 0 * e.idxStride else 0

/-- Whether a block of words at `x` lies inside 0 to 8,191. -/
def TEntry.fits (e : TEntry) (x : Nat) : Bool := decide (x + (e.rows - 1) * e.stride + (e.chunks - 1) ≤ 8191)

/-- The first strip row of an RLE or CNT (R296). -/
def TEntry.rleRow (e : TEntry) (i : List Nat) : Nat := e.imm0 + i.getD e.idxSel 0 * e.imm1

/-- The checks of one execution (R288, R290, R297, R298). -/
def Walk.ok (w : Walk) (e : TEntry) (ws hd : Nat) : Bool :=
  (!opReadsA e.op || e.fits (e.a + e.off w.i 2)) && (!opReadsB e.op || e.fits (e.b + e.off w.i 1)) &&
    (!(opDataC e.op || (opBlock e.op && e.maskMode != 0)) || e.fits (e.c + e.off w.i 0)) &&
    (!opWritesD e.op || (e.fits (e.d + e.off w.i 3) && decide (64 ≤ e.d + e.off w.i 3))) &&
    (e.op != 0x07 || e.fits e.imm0) &&
    (!opLoad e.op || (decide (e.a + e.off w.i 2 + e.rows ≤ 256 + 2 * hd) && decide (e.chunks ≤ ws / 64 + 2))) &&
    (e.op != 0x40 || decide (w.nextRow ≤ e.rleRow w.i)) && (e.op != 0x41 || w.rle == some (e.rows, e.chunks))

/-- The record after one execution, before the loop closes. -/
def Walk.ran (w : Walk) (e : TEntry) : Walk :=
  let x := { w with clocks := w.clocks + 8 + e.cost }
  if e.op = 0x40 then { x with rle := some (e.rows, e.chunks), nextRow := e.rleRow w.i + e.rows, used := true }
  else if e.op = 0x41 then { x with flushed := false }
  else if e.op = 0x42 then { x with flushed := true }
  else x

/-- Where the sequencer goes after an entry (R287): the record, and whether the program is done. -/
def Walk.next (w : Walk) (e : TEntry) : Walk × Bool :=
  let k := w.i.getD e.level 0
  if e.count ≠ 0 ∧ k < e.count then ({ w with i := w.i.set e.level (k + 1), pc := e.start }, false)
  else
    let w := if e.count ≠ 0 then { w with i := w.i.set e.level 0 } else w
    if e.fin then (w, true) else ({ w with pc := w.pc + 1 }, false)

/-- The walk with entry `i` found to offend. -/
def Walk.offends (w : Walk) (i : Nat) : Walk := { w with bad := some (min i (w.bad.getD i)) }

/-- What a walk that has ended answers: the first offending entry, or its clocks. -/
def Walk.answer (w : Walk) : Except Nat Nat :=
  match w.bad with
  | some i => .error i
  | none => .ok w.clocks

/-- A view's walk under R287: its clocks, or the first offending entry, which is the lowest-numbered one (R288; DESIGN CHOICE, log
entry 196). -/
def tideWalk (image : List Byte) (n ws hd : Nat) : Nat → Walk → Except Nat Nat
  | 0, w => (w.offends w.pc).answer
  | fuel + 1, w =>
    if n ≤ w.pc then (w.offends (n - 1)).answer
    else
      let e := tideEntry image w.pc
      let u := if w.ok e ws hd then w else w.offends w.pc
      let x := (u.ran e).next e
      if x.2 then (if x.1.used && !x.1.flushed then x.1.offends w.pc else x.1).answer else tideWalk image n ws hd fuel x.1

/-- The walk of view `v` of an image. -/
def tideView (image : List Byte) (v : Nat) : Except Nat Nat :=
  tideWalk image (tideCount image) (tideWs image v) (tideHd image v) 262144 { pc := tideStart image v }

/-- Clocks of a task of view `v` (R301); 0 where the image does not enable the view. -/
def tideClocks (image : List Byte) (v : Nat) : Nat :=
  if tideEnabled image v then
    match tideView image v with
    | .ok c => c
    | .error _ => 0
  else 0

/-- The header and descriptor checks of R288. -/
def tideHeaderOk (image : List Byte) : Bool :=
  decide (1 ≤ tideCount image) && decide (tideCount image ≤ 16384) && decide (tideConsts image ≤ 64) &&
    image.length == 80 + 128 * tideConsts image + 32 * tideCount image &&
    (List.range 4).all (fun v => !tideEnabled image v ||
      (decide (256 ≤ tideWs image v) && decide (tideWs image v ≤ 4096) && tideWs image v % 64 == 0 &&
        decide (tideHd image v ≤ 32) && decide (tideStart image v < tideCount image)))

/-- The first entry of an image whose own fields offend, or that closes a loop out of place (R288). -/
def tideStatic (image : List Byte) : Option Nat :=
  let n := tideCount image
  let es := (List.range n).map (tideEntry image)
  (List.range n).find? (fun i =>
    match es[i]? with
    | some e => !(e.ok && loopOk es i e)
    | none => true)

/-- The entry that the walk of view `v` finds to offend first. -/
def tideFault (image : List Byte) (v : Nat) : Option Nat :=
  match tideView image v with
  | .ok _ => none
  | .error e => some e

/-- R288 on a bank image: none when it holds, else what TIDE_ERR_ENTRY reads: the lowest-numbered entry that offends by itself or in the
walk of any view (DESIGN CHOICE, log entry 196). -/
def tideCheck (image : List Byte) : Option Nat :=
  if !tideHeaderOk image then some 0xFFFF
  else ((tideStatic image).toList ++ ((List.range 4).filter (tideEnabled image)).filterMap (tideFault image)).min?

/-! ## A tile's run (R279 to R283, R289 to R304) -/

/-- What a task's loads read (R271, R275, R290, R291, R299): by row of the load space and layout column, which counts
from the left edge of the halo. -/
structure TaskEnv where
  ws : Nat
  slice : Nat
  width : Nat
  r0 : Nat
  r1 : Nat
  canvas : Nat → Nat → Nat → Nat
  ref : Nat → Nat → Nat → Nat
  cls : Nat → Nat → Nat
  mask : Nat → Nat → Bool
  hd : Nat
  free : Nat

/-- Tile SRAM: words written so far in this task, each of 64 lanes. -/
abbrev Sram := List (Nat × List Nat)

/-- A lane of a word; a word that nothing wrote in this task is undefined (R279). -/
def Sram.lane (m : Sram) (free w l : Nat) : Nat :=
  match m.find? (fun e => e.1 == w) with
  | some e => e.2.getD l 0
  | none => Config.undefinedLane free w l % 65536

/-- A word replaced. -/
def Sram.put (m : Sram) (w : Nat) (ls : List Nat) : Sram := (w, ls) :: m.filter (fun e => e.1 != w)

/-- A constant K[e] (R279). -/
def Sram.konst (m : Sram) (free e : Nat) : Nat := m.lane free (e / 64) (e % 64)

/-- A run of set pixels in one row (R296): row, slice columns, count, sum and maximum of b, taken as SIGNED says, class set. -/
structure Run where
  row : Nat
  s : Nat
  e : Nat
  n : Nat
  sumB : Int
  maxB : Int
  classes : Nat
  deriving DecidableEq, Repr

/-- A component under construction (R297): its runs, newest first. -/
structure Comp where
  runs : List Run
  deriving DecidableEq, Repr

/-- A tile in the middle of a task. -/
structure TileRun where
  w : Walk
  m : Sram
  fresh : List Run := []
  lastRow : Nat := 0
  comps : List Comp := []
  emitted : List Comp := []
  runs : Nat := 0
  overRow : Option Nat := none
  overN : Nat := 0
  overB : Int := 0
  overMax : Int := 0
  overCls : Nat := 0
  cnt : Nat := 0
  debugWords : List (Nat × List (Option Nat)) := []
  deriving DecidableEq, Repr

/-- The value of a lane as the entry takes it. -/
def TEntry.val (e : TEntry) (v : Nat) : Int := if e.signed then toSigned 16 v else ((v % 65536 : Nat) : Int)

/-- A result as a lane: wrapped, or saturated to the type's range (R282). -/
def TEntry.res (e : TEntry) (v : Int) : Nat :=
  if e.sat then ofSigned 16 (if e.signed then clampInt (-32768) 32767 v else clampInt 0 65535 v) else ofSigned 16 v

/-- A right shift with the entry's rounding (R289). -/
def TEntry.shr (e : TEntry) (v : Int) : Int :=
  (v + (if e.shift = 0 then 0 else (2 ^ (e.shift - 1) : Nat))) / ((2 ^ e.shift : Nat) : Int)

/-- All ones for true. -/
def lane (b : Bool) : Nat := if b then 0xFFFF else 0

/-- The result of a per-lane operation from lanes a, b, c and the constants (R289). -/
def TEntry.lanes (e : TEntry) (k : Nat → Nat) (a b c : Nat) : Nat :=
  let x := e.val a
  let y := e.val b
  let i0 := e.val e.imm0
  match e.op with
  | 0x05 => e.imm0
  | 0x06 => a
  | 0x10 => e.res (x + y)
  | 0x11 => e.res (x - y)
  | 0x12 => e.res ((x - y).natAbs : Nat)
  | 0x13 => e.res ((toSigned 16 a).natAbs : Nat)
  | 0x14 => e.res (e.shr (x * y))
  | 0x15 => e.res (x + i0)
  | 0x16 => e.res (e.shr (x * i0))
  | 0x17 => e.res (e.shr x)
  | 0x18 => e.res (x * (2 ^ e.shift : Nat))
  | 0x19 => e.res (min x y)
  | 0x1A => e.res (max x y)
  | 0x1B => e.res (min (max x i0) (e.val e.imm1))
  | 0x1C => Nat.land a b
  | 0x1D => Nat.lor a b
  | 0x1E => Nat.xor a b
  | 0x1F => 0xFFFF - a % 65536
  | 0x20 => lane (decide (y < x))
  | 0x21 => lane (decide (y ≤ x))
  | 0x22 => lane (x == y)
  | 0x23 => lane (decide (i0 < x))
  | 0x24 => lane (decide (i0 ≤ x))
  | 0x25 => lane (decide (i0 ≤ x) && decide (x ≤ e.val e.imm1))
  | 0x26 => k ((e.imm0 + a) % 4096)
  | 0x28 => if c ≠ 0 then a else b
  | 0x29 => if c ≠ 0 then a else e.imm0
  | 0x2A => lane (bit e.imm0 (a % 16))
  | _ => 0

/-- Offsets -R to R on an axis, or 0 alone. -/
def winOffsets (on : Bool) (r : Nat) : List Int :=
  if on then (List.range (2 * r + 1)).map (fun (i : Nat) => (i : Int) - (r : Int)) else [0]

/-- A window's values (R283): a read beyond the block takes the nearest row or column of the block. -/
def TEntry.window (e : TEntry) (get : Nat → Nat → Nat) (axis radius r x : Nat) : List Nat :=
  let cl (n : Nat) (i : Int) : Nat := (clampInt 0 ((n : Int) - 1) i).toNat
  (winOffsets (axis != 1) radius).flatMap (fun dr =>
    (winOffsets (axis != 2) radius).map (fun dx =>
      get (cl e.rows ((r : Int) + dr)) (cl (64 * e.chunks) ((x : Int) + dx))))

/-- A value in its place of an ascending list. -/
def insertInt (v : Int) : List Int → List Int
  | [] => [v]
  | a :: r => if v ≤ a then v :: a :: r else a :: insertInt v r

/-- Values in ascending order. -/
def sortInts (l : List Int) : List Int := l.foldr insertInt []

/-- The result of a window or morphology operation at row r, column x of the block, reading a through `get` (R289, R292). -/
def TEntry.winRes (e : TEntry) (k : Nat → Nat) (get : Nat → Nat → Nat) (r x : Nat) : Nat :=
  let ws := e.window get e.axis e.winR r x
  let vs := ws.map e.val
  match e.op with
  | 0x30 => e.res (vs.foldl min (vs.headD 0))
  | 0x31 => e.res (vs.foldl max (vs.headD 0))
  | 0x32 => e.res ((sortInts vs).getD (vs.length / 2) 0)
  | 0x33 => e.res (e.shr vs.sum)
  | 0x34 =>
    let ks := (List.range 9).map (fun i => toSigned 16 (k (e.imm0 + i)))
    let cs := (e.window get 0 1 r x).map e.val
    e.res (((List.zipWith (· * ·) ks cs).sum + 0x2000) / 16384)
  | 0x38 => lane (ws.all (· != 0))
  | 0x39 => lane (ws.any (· != 0))
  | 0x3A => lane ((e.window (fun r x => lane ((e.window get e.axis e.winR r x).all (· != 0))) e.axis e.winR r x).any (· != 0))
  | 0x3B => lane ((e.window (fun r x => lane ((e.window get e.axis e.winR r x).any (· != 0))) e.axis e.winR r x).all (· != 0))
  | 0x3C => lane (get r x != 0 && !ws.all (· != 0))
  | _ => 0

/-- A block operation's word (r, k): its 64 lanes, lanes not written keeping their value (R282). -/
def TileRun.word (t : TileRun) (env : TaskEnv) (e : TEntry) (r k : Nat) : List Nat :=
  let at_ (x off : Nat) (r k : Nat) : Nat := x + off + r * e.stride + k
  let rd (x off r k l : Nat) : Nat := t.m.lane env.free (at_ x off r k) l
  let kk := t.m.konst env.free
  let src := e.a + e.off t.w.i 2 + r
  (List.range 64).map (fun l =>
    let keep := rd e.d (e.off t.w.i 3) r k l
    let c := rd e.c (e.off t.w.i 0) r k l
    let v :=
      if e.op = 0x01 then env.canvas e.imm0 src (64 * k + l)
      else if e.op = 0x02 then env.ref e.imm0 src (64 * k + l)
      else if e.op = 0x03 then env.cls src (64 * k + l)
      else if e.op = 0x04 then lane (env.mask src (64 * k + l))
      else if 0x30 ≤ e.op then
        e.winRes kk (fun r x => rd e.a (e.off t.w.i 2) r (x / 64) (x % 64)) r (64 * k + l)
      else e.lanes kk (rd e.a (e.off t.w.i 2) r k l) (rd e.b (e.off t.w.i 1) r k l) c
    if e.maskMode = 0 then v else if (e.maskMode == 1) == (c != 0) then v else keep)

/-- The words a block operation writes, all read before any is written. -/
def TileRun.block (t : TileRun) (env : TaskEnv) (e : TEntry) : List (Nat × List Nat) :=
  (List.range e.rows).flatMap (fun r => (List.range e.chunks).map (fun k =>
    (e.d + e.off t.w.i 3 + r * e.stride + k, t.word env e r k)))

/-- The slice column of a pixel that RLE and CNT may count, by layout word and lane (R296). -/
def TaskEnv.column (env : TaskEnv) (layout l : Nat) : Option Nat :=
  if 1 ≤ layout ∧ layout ≤ env.ws / 64 ∧ env.ws * env.slice + 64 * (layout - 1) + l < env.width then
    some (64 * (layout - 1) + l)
  else none

/-- A set pixel joins the run before it or starts one. -/
def addPixel (row x : Nat) (b : Int) (c : Nat) : List Run → List Run
  | [] => [⟨row, x, x, 1, b, b, 2 ^ (c % 16)⟩]
  | r :: rs =>
    if r.row = row ∧ r.e + 1 = x then
      { r with e := x, n := r.n + 1, sumB := r.sumB + b, maxB := max r.maxB b, classes := Nat.lor r.classes (2 ^ (c % 16)) } :: rs
    else ⟨row, x, x, 1, b, b, 2 ^ (c % 16)⟩ :: r :: rs

/-- The runs that one RLE finds, in row order (R296). -/
def TileRun.rleRuns (t : TileRun) (env : TaskEnv) (e : TEntry) : List Run :=
  let rd (x n r k l : Nat) : Nat := t.m.lane env.free (x + e.off t.w.i n + r * e.stride + k) l
  ((List.range e.rows).foldl (fun acc r =>
    let row := e.rleRow t.w.i + r
    if row < env.r0 ∨ env.r1 < row then acc
    else
      (List.range e.chunks).foldl (fun acc k => (List.range 64).foldl (fun acc l =>
        match env.column (e.imm2 + k) l with
        | some x =>
          if rd e.a 2 r k l ≠ 0 ∧ env.mask (env.hd + row) (64 + x) then addPixel row x (e.val (rd e.b 1 r k l)) (rd e.c 0 r k l) acc
          else acc
        | none => acc) acc) acc) []).reverse

/-- A run beyond a limit is counted and not recorded (R302). -/
def TileRun.overflow (t : TileRun) (r : Run) : TileRun :=
  { t with overRow := some (min (t.overRow.getD r.row) r.row), overN := t.overN + r.n, overB := t.overB + r.sumB
           overMax := if t.overN = 0 then r.maxB else max t.overMax r.maxB, overCls := Nat.lor t.overCls r.classes }

/-- RLE (R296, R302). -/
def TileRun.rle (t : TileRun) (env : TaskEnv) (e : TEntry) : TileRun :=
  (t.rleRuns env e).foldl (fun t r =>
    if t.overRow.isSome ∨ 16384 ≤ t.runs then t.overflow r
    else { t with fresh := t.fresh ++ [r], runs := t.runs + 1 })
    { t with lastRow := e.rleRow t.w.i + e.rows - 1 }

/-- CNT: the nonzero lanes of a under the row, column and part rules (R296). -/
def TileRun.count (t : TileRun) (env : TaskEnv) (e : TEntry) : TileRun :=
  let rd (r k l : Nat) : Nat := t.m.lane env.free (e.a + e.off t.w.i 2 + r * e.stride + k) l
  let n := ((List.range e.rows).map (fun r =>
    let row := e.rleRow t.w.i + r
    if row < env.r0 ∨ env.r1 < row then 0
    else ((List.range e.chunks).map (fun k => countBelow 64 (fun l =>
      (env.column (e.imm2 + k) l).isSome && rd r k l != 0))).sum)).sum
  { t with cnt := t.cnt + n }

/-- Whether a run joins a run of the row above by 8-connectivity (R297). -/
def Run.joins (r above : Run) : Bool :=
  above.row + 1 == r.row && decide (r.s ≤ above.e + 1) && decide (above.s ≤ r.e + 1)

/-- One recorded run is linked: it joins every open component it meets, or starts one, or meets the limit of components (R297,
R302). -/
def TileRun.linkRun (t : TileRun) (r : Run) : TileRun :=
  let hit := t.comps.filter (fun c => c.runs.any (fun a => r.joins a))
  let rest := t.comps.filter (fun c => !c.runs.any (fun a => r.joins a))
  if hit.isEmpty ∧ 4096 ≤ t.comps.length + t.emitted.length then t.overflow r
  else { t with comps := rest ++ [⟨r :: (hit.flatMap Comp.runs)⟩] }

/-- LINK: runs since the previous LINK are linked in row order, and components without a run in the last row leave
(R297). -/
def TileRun.link (t : TileRun) : TileRun :=
  let u := t.fresh.foldl TileRun.linkRun { t with fresh := [] }
  let isOpen (c : Comp) : Bool := c.runs.any (fun r => r.row == u.lastRow)
  { u with comps := u.comps.filter isOpen, emitted := u.emitted ++ u.comps.filter (fun c => !isOpen c) }

/-- One execution of an entry (R287, R289). -/
def TileRun.exec (t : TileRun) (env : TaskEnv) (e : TEntry) : TileRun :=
  if e.op = 0x00 then t
  else if e.op = 0x07 then
    { t with debugWords := t.debugWords ++ (List.range e.rows).flatMap (fun r => (List.range e.chunks).map (fun k =>
        (e.imm0 + r * e.stride + k,
          (List.range 64).map (fun l =>
            let c := t.m.lane env.free (e.c + e.off t.w.i 0 + r * e.stride + k) l
            if e.maskMode = 0 ∨ (e.maskMode == 1) = (c != 0) then
              some (t.m.lane env.free (e.a + e.off t.w.i 2 + r * e.stride + k) l)
            else none)))) }
  else if e.op = 0x40 then t.rle env e
  else if e.op = 0x41 then t.link
  else if e.op = 0x42 then { t with emitted := t.emitted ++ t.comps, comps := [] }
  else if e.op = 0x43 then t.count env e
  else { t with m := (t.block env e).foldl (fun m x => m.put x.1 x.2) t.m }

/-- A task's program to its END (R287). -/
def TileRun.go (env : TaskEnv) (image : List Byte) : Nat → TileRun → TileRun
  | 0, t => t
  | fuel + 1, t =>
    let e := tideEntry image t.w.pc
    let u := t.exec env e
    let x := (t.w.ran e).next e
    if x.2 then { u with w := x.1 } else TileRun.go env image fuel { u with w := x.1 }

/-- The constant block as SRAM words (R272, R284). -/
def tideSram (image : List Byte) : Sram :=
  (List.range (tideConsts image)).map (fun w => (w, (List.range 64).map (fun l => natAt image (80 + 128 * w + 2 * l) 2)))

/-- A task's run from its start. -/
def tileRun (env : TaskEnv) (image : List Byte) (v : Nat) : TileRun :=
  TileRun.go env image 262144 { w := { pc := tideStart image v }, m := tideSram image }

end Sys2Proof.Machine
end

