-- ==== Sys2Proof/Machine/Package.lean ====
section
/-! DEFINITION. Machine/Package.lean: the job package, its sections, and the checks made when one is stored (R38 to R43,
R134, R185, R259, R334, R340). -/
namespace Sys2Proof.Machine

/-- A package's bytes. -/
abbrev Package := List Byte

/-- How many sections a package holds (R38). -/
def Package.count (p : Package) : Nat := natAt p 18 2

/-- A directory entry: type, instance, CRC, offset and length (R39). -/
structure DirEntry where
  typ : Nat
  inst : Nat
  crc : Nat
  off : Nat
  len : Nat
  deriving DecidableEq, Repr

/-- Directory entry `i` (R39). -/
def Package.entry (p : Package) (i : Nat) : DirEntry :=
  let o := 64 + 24 * i
  ⟨natAt p o 2, natAt p (o + 2) 2, natAt p (o + 4) 4, natAt p (o + 8) 8, natAt p (o + 16) 8⟩

/-- The directory. -/
def Package.dir (p : Package) : List DirEntry := (List.range p.count).map p.entry

/-- The bytes of a section. -/
def Package.bytes (p : Package) (e : DirEntry) : List Byte := (p.drop e.off).take e.len

/-- A section by type and instance (R40). -/
def Package.sec (p : Package) (typ inst : Nat) : Option (List Byte) :=
  (p.dir.find? (fun e => e.typ == typ && e.inst == inst)).map p.bytes

/-- Section types (R40). -/
def secPreset : Nat := 1
def secItems : Nat := 2
def secTide : Nat := 3
def secPalette : Nat := 4
def secRules : Nat := 5
def secRegion : Nat := 6
def secUnder : Nat := 7
def secExposure : Nat := 8
def secMark : Nat := 9

/-- The tide-table section. -/
def Package.tide (p : Package) : List Byte := (p.sec secTide 0).getD []

/-- The views of a job: those its tide table enables (R43). -/
def Package.views (p : Package) : List Nat := (List.range 4).filter (tideEnabled (tideImage p.tide))

/-! ## The preset list (R41) -/

/-- A preset entry: key, value length, value. -/
structure Preset where
  key : Key
  len : Nat
  value : Nat
  deriving DecidableEq, Repr

/-- The entries of a preset list. -/
def presets (b : List Byte) : List Preset :=
  (List.range (b.length / 16)).map (fun i =>
    ⟨natAt b (16 * i) 2 * 256 + natAt b (16 * i + 2) 1, natAt b (16 * i + 3) 1, natAt b (16 * i + 8) 8⟩)

/-- The object and instance at a key. -/
def findObj (k : Key) : Option (Obj × Nat) := Reg.rows.findSome? (fun o => (o.instOf k).map (fun i => (o, i)))

/-- Whether an object may appear in a preset list: rwb, or one of 0x2100 marked "job" (R41). -/
def Obj.mayPreset (o : Obj) : Bool := o.acc == .rwbRepeat || o.acc == .rwbStrip || (o.job && o.base / 256 == 0x2100)

/-- Whether the object at a key may appear in a preset list (R41). -/
def presetAllowed (k : Key) : Bool :=
  match findObj k with
  | some (o, _) => o.mayPreset
  | none => false

/-- A preset value that a list gives a key. -/
def Package.preset (p : Package) (k : Key) : Option Nat :=
  ((presets ((p.sec secPreset 0).getD [])).filter (fun e => e.key == k)).getLast?.map Preset.value

/-- The format of a preset list (R41). -/
def presetOk (b : List Byte) : Bool :=
  b.length % 16 == 0 && (presets b).all (fun e => decide (1 ≤ e.len) && decide (e.len ≤ 8) && presetAllowed e.key)

/-! ## Items and rules (R334, R335, R340) -/

/-- An item of the item layout (R340). -/
structure Item where
  x0 : Nat
  x1 : Nat
  y0 : Nat
  y1 : Nat
  views : Nat
  column : Nat
  row : Nat
  markers : Nat
  deriving DecidableEq, Repr

/-- The items of an item layout. -/
def items (b : List Byte) : List Item :=
  (List.range (natAt b 0 2)).map (fun i =>
    let o := 16 + 24 * i
    ⟨natAt b o 4, natAt b (o + 4) 4, natAt b (o + 8) 4, natAt b (o + 12) 4, natAt b (o + 16) 1 % 16, natAt b (o + 17) 1,
      natAt b (o + 18) 1, natAt b (o + 20) 2⟩)

/-- The format of an item layout (R340). -/
def itemsOk (b : List Byte) : Bool :=
  let is := items b
  decide (natAt b 0 2 ≤ 4096) && decide (1 ≤ natAt b 2 1) && b.length == 16 + 24 * natAt b 0 2 &&
    is.all (fun i => decide (i.x0 < i.x1) && decide (i.y0 < i.y1) && decide (i.column < 64) && decide (i.row < natAt b 2 1)) &&
    ((is.map (fun i => (i.row, i.column))).eraseDups).length == is.length

/-- The format of a rules section (R334, R335). -/
def rulesOk (b : List Byte) : Bool :=
  let n := natAt b 0 2
  decide (n ≤ 256) && decide (natAt b 4 1 ≤ 2) && b.length == 16 + 64 * n &&
    (List.range n).all (fun r =>
      let o := 16 + 64 * r
      decide (natAt b (o + 2) 1 ≤ 2) && (List.range 8).all (fun c =>
        decide (natAt b (o + 16 + 6 * c) 1 ≤ 15) && decide (natAt b (o + 17 + 6 * c) 1 ≤ 7)))

/-- The exposure-set sections (R134). -/
def exposureOk (secs : List (List Byte)) : Bool :=
  secs.all (fun b => b.length == 16 && decide (100 ≤ natAt b 0 4) && decide (natAt b 0 4 ≤ 1000000) && decide (natAt b 6 2 ≤ 3000)) &&
    (List.range 12).all (fun ch => decide ((secs.filter (fun b => bit (natAt b 4 2) ch)).length ≤ 1))

/-! ## The checks at store (R43) -/

/-- Header, length, directory and section bounds. -/
def Package.frameOk (p : Package) (fw : Nat) : Bool :=
  decide (64 ≤ p.length) && p.take 4 == [0x4D, 0x4A, 0x50, 0x4B] && natAt p 4 2 == 1 && natAt p 6 2 == 64 &&
    natAt p 60 4 == crc32c (p.take 60) && natAt p 8 8 == p.length && decide (natAt p 24 4 ≤ fw) &&
    decide (1 ≤ p.count) && decide (p.count ≤ 64) && decide (64 + 24 * p.count ≤ p.length)

/-- Sections lie after the directory and within the package, apart from one another, each of its own type and instance
and of a known type, with its CRC. -/
def Package.dirOk (p : Package) : Bool :=
  let d := p.dir
  d.all (fun e => decide (64 + 24 * p.count ≤ e.off) && decide (e.off + e.len ≤ p.length) && decide (1 ≤ e.typ) &&
    decide (e.typ ≤ 9) && e.crc == crc32c (p.bytes e)) &&
    (List.range d.length).all (fun i => (List.range i).all (fun j =>
      match d[i]?, d[j]? with
      | some a, some b => !(a.typ == b.typ && a.inst == b.inst) && (decide (a.off + a.len ≤ b.off) || decide (b.off + b.len ≤ a.off))
      | _, _ => true))

/-- The sections a package must hold (R40), and the flag that an underpainting is supplied. -/
def Package.required (p : Package) : Bool :=
  let has (t i : Nat) : Bool := (p.sec t i).isSome
  has secPreset 0 && has secItems 0 && has secTide 0 && has secRules 0 &&
    p.views.all (fun v => has secRegion v || has secUnder v) &&
    bit (natAt p 20 4) 0 == p.dir.any (fun e => e.typ == secUnder) &&
    (p.preset (Reg.REG_METHOD.key 0) != some 1 || has secMark ((p.preset (Reg.REG_MARK_VIEW.key 0)).getD 0))

/-- R42: all sections but underpaintings fit the job staging area. -/
def Package.fits (p : Package) : Bool :=
  decide (((p.dir.filter (fun e => e.typ != secUnder)).map DirEntry.len).sum ≤ 8589934592)

/-- Every check of R43. -/
def Package.ok (p : Package) (fw : Nat) : Bool :=
  p.frameOk fw && p.dirOk && p.required && p.fits && presetOk ((p.sec secPreset 0).getD []) &&
    itemsOk ((p.sec secItems 0).getD []) && (tideCheck p.tide).isNone &&
    (p.dir.filter (fun e => e.typ == secPalette)).all (fun e => e.len == 29542) && rulesOk ((p.sec secRules 0).getD []) &&
    exposureOk ((p.dir.filter (fun e => e.typ == secExposure)).map p.bytes)

end Sys2Proof.Machine
end

