-- ==== Sys2Proof/Machine/Rings.lean ====
section
/-! DEFINITION. Machine/Rings.lean: rings in host memory: staging, delivery, frames, and their causes (R500 to R510). -/
namespace Sys2Proof.Machine
open Reg

/-- The record of ring `r`. -/
def State.ring (s : State) (r : Nat) : Ring := s.host.rings.getD r {}

/-- The state with the record of ring `r` changed. -/
def State.modRing (s : State) (r : Nat) (f : Ring → Ring) : State :=
  { s with host := { s.host with rings := modifyAt s.host.rings r f } }

/-- A ring's size in bytes; ring 4's size is in descriptors of 64 bytes (R495, R500). -/
def State.ringBytes (s : State) (r : Nat) : Nat := if r = 4 then s.get RING_SIZE 4 * 64 else s.get RING_SIZE r

/-- Bytes a ring holds: prod - cons, modulo 2^32 (R500). -/
def Ring.held (g : Ring) : Nat := (g.prod + 2 ^ 32 - g.cons) % 2 ^ 32

/-- Whether a ring delivers: enabled, its function's link up, the wharf running and the M12 out of HOLD and DORMANT (R506). -/
def State.ringRuns (s : State) (r : Nat) : Bool :=
  s.get RING_ENABLE r == 1 && (s.fn (s.get RING_FUNCTION r)).up && s.get WH_ALL_STOPPED == 0 && s.get MODE != 5 && s.get MODE != 0

/-- Bytes a staged frame takes: a record 64, a frame its header and payload rounded up (R502, R503). -/
def Frame.bytes (ring : Nat) (f : Frame) : Nat := if ring = 0 then 64 else (16 + f.payload.length + 63) / 64 * 64

/-- RING_STAGED_BYTES follows the staged output. -/
def State.ringStaged (s : State) (r : Nat) : State :=
  s.set RING_STAGED_BYTES r ((s.ring r).staged.foldl (fun n f => n + f.bytes r) 0)

/-- The producer pointer advances: the entry, then the write-back, are written to host memory, and the ring's cause is
sent at once or starts its coalescing time (R501, R508, R510). -/
def State.ringAdvance (s : State) (r n : Nat) (entry : List Byte) : State :=
  let g := s.ring r
  let f := s.get RING_FUNCTION r
  let prod := (g.prod + n) % 2 ^ 32
  let t := ((s.ownWrite f (s.get RING_BASE r + g.prod % s.ringBytes r) entry).modRing r (fun x =>
    { x with prod := prod, job := 3 })).ownWrite f (s.get RING_WB_ADDR r) (leBytes 4 prod)
  if bit (t.fn f).irq r then t
  else if t.get RING_COALESCE_US r = 0 then t.irq f r
  else if g.causeAt.isSome then t
  else t.modRing r (fun x => { x with causeAt := some (t.now + t.get RING_COALESCE_US r * 1000) })

/-- A frame's bytes: header, payload and padding (R503). -/
def frameBytes (typ unit_ seq : Nat) (payload : List Byte) : List Byte :=
  let b := [typ, unit_, 0, 0] ++ leBytes 4 payload.length ++ leBytes 8 seq ++ payload
  b ++ List.replicate ((64 - b.length % 64) % 64) 0

/-- A PAD frame that fills `n` bytes (R503). -/
def padBytes (n : Nat) : List Byte := frameBytes 0 0 0 (List.replicate (n - 16) 0)

/-- Whether a frame of `n` bytes, with the PAD it may need, fits a ring now (R503). -/
def State.frameFits (s : State) (r n : Nat) : Bool :=
  let g := s.ring r
  let size := s.ringBytes r
  let toEnd := size - g.prod % size
  decide (n + (if n ≤ toEnd then 0 else toEnd) ≤ size - g.held)

/-- A frame that fits is delivered, after a PAD to the ring's end where it does not fit before it (R503). -/
def State.frameWrite (s : State) (r : Nat) (f : Frame) (payload : List Byte) : State :=
  let n := (16 + payload.length + 63) / 64 * 64
  let size := s.ringBytes r
  let toEnd := size - (s.ring r).prod % size
  let t := if n ≤ toEnd then s else s.ringAdvance r toEnd (padBytes toEnd)
  ((t.ringAdvance r n (frameBytes f.typ f.unit (t.ring r).seq payload)).modRing r (fun x =>
    { x with seq := (x.seq + 1) % 2 ^ 64 })).volume RING_FRAMES r

/-- One staged record or frame leaves, if it can (R502 to R506). -/
def State.ringTake (s : State) (r : Nat) : Option State :=
  match (s.ring r).staged with
  | [] => none
  | f :: q =>
    if !s.ringRuns r then none
    else if r = 0 then
      if 64 ≤ s.ringBytes 0 - (s.ring 0).held then
        some (((s.modRing 0 (fun x => { x with staged := q })).ringAdvance 0 64 f.payload).volume RING_FRAMES 0)
      else none
    else
      let big := decide (s.ringBytes r < (16 + f.payload.length + 63) / 64 * 64)
      let payload := if big then f.short else f.payload
      if s.frameFits r ((16 + payload.length + 63) / 64 * 64) then
        let t := (s.modRing r (fun x => { x with staged := q })).frameWrite r f payload
        some (if big then t.tally RING_OVERSIZE r else t)
      else none

/-- Staged output leaves, oldest first, as far as it can (R506). -/
def State.ringDrain (s : State) (r : Nat) : Nat → State
  | 0 => s.ringStaged r
  | n + 1 =>
    match s.ringTake r with
    | none => s.ringStaged r
    | some t => t.ringDrain r n

/-- Everything a ring has staged leaves as far as it can. -/
def State.ringFlush (s : State) (r : Nat) : State := s.ringDrain r (s.ring r).staged.length

/-- Bytes of staging a ring has for an entry (R506): records 256 MB, the last 16 MB only for blind and coverage records;
events 64 MB; crops and archive have none of their own and wait in their strips. -/
def stagingLimit (r : Nat) (keep : Bool) : Option Nat :=
  if r = 0 then (if keep then none else some (240 * 2 ^ 20)) else if r = 3 then some (64 * 2 ^ 20) else none

/-- A drop: tallied, and the first after a drop-free period sets the DROP cause (R506). -/
def State.ringDropped (s : State) (r : Nat) : State :=
  let t := s.tally RING_DROP r
  if (s.ring r).dropping then t
  else (t.modRing r (fun x => { x with dropping := true })).irq (t.get RING_FUNCTION r) 8

/-- A record or frame joins a ring's output: delivered when it can be, else staged, else dropped (R506). -/
def State.ringPut (s : State) (r : Nat) (f : Frame) : State :=
  let t := s.ringFlush r
  let used := t.get RING_STAGED_BYTES r
  let fits := match stagingLimit r f.keep with
    | none => true
    | some n => decide (used + f.bytes r ≤ n) || (t.ring r).staged.isEmpty
  if fits then
    ((t.modRing r (fun x => { x with staged := x.staged ++ [f], dropping := false })).ringFlush r)
  else t.ringDropped r

/-- A 64-byte record goes to the record ring (R502). -/
def State.record (s : State) (bytes : List Byte) (keep : Bool) : State :=
  s.ringPut 0 { typ := 0, unit := 0, payload := bytes, keep := keep }

/-- An event frame: a statistics record or a host event (R503). -/
def State.eventFrame (s : State) (typ unit_ : Nat) (payload : List Byte) : State :=
  s.ringPut 3 { typ := typ, unit := unit_, payload := payload, short := payload }

/-- Every ring delivers what it can. -/
def State.flushRings (s : State) : State := (List.range 4).foldl (fun t r => t.ringFlush r) s

/-- RING_ENABLE's write (R500): enabling sets both pointers to 0, of the mailbox's ring too. -/
def State.writeRingEnable (s : State) (via : Path) (r v : Nat) : State :=
  if 1 < v then s.refuse via (RING_ENABLE.key r) 0x06090031
  else if v = 0 then ((s.accept.set RING_ENABLE r 0).remember RING_ENABLE r 0).modRing r (fun x => { x with causeAt := none })
  else if s.get RING_ENABLE r = 1 then s.accept.remember RING_ENABLE r 1
  else
    let t := ((s.accept.set RING_ENABLE r 1).remember RING_ENABLE r 1).modRing r (fun x => { x with prod := 0, cons := 0 })
    let u := if r = 4 then { t with host := { t.host with mboxTail := 0, mboxHead := 0 } } else t
    u.ringFlush r

/-- RING_ENABLE_WRITE (R500, R506). -/
def execRingEnableWrite (dt : Nat) (via : Path) (ring value : Nat) (s : State) : Host.Outcome State Fault Refusal :=
  act (decide (ring < 5)) dt s fun s => s.writeRingEnable via ring value

/-- RING_COALESCE_EXPIRY (R510): a ring's coalescing time ends and its cause is sent. -/
def execRingCoalesceExpiry (dt ring : Nat) (s : State) : Host.Outcome State Fault Refusal :=
  act (decide (ring < 5)) dt s fun s =>
    match (s.ring ring).causeAt with
    | some t =>
      if t ≤ s.now then (s.modRing ring (fun x => { x with causeAt := none })).irq (s.get RING_FUNCTION ring) ring else s
    | none => s

/-- HL_RING_CONS_WRITE (R488, R500, R501): the host returns space; a value that would hold more than the size is ignored
and tallied. The page answers nothing in DORMANT (R81, R487). -/
def execHlRingConsWrite (dt fn ring value : Nat) (s : State) : Host.Outcome State Fault Refusal :=
  act (decide (fn < 2) && decide (ring < 4)) dt s fun s =>
    if s.asDormant ∨ s.get RING_FUNCTION ring ≠ fn then s
    else if s.ringBytes ring < ((s.ring ring).prod + 2 ^ 32 - value % 2 ^ 32) % 2 ^ 32 then s.tally HL_DICT_ERRORS
    else (s.modRing ring (fun x => { x with cons := value % 2 ^ 32 })).ringFlush ring

end Sys2Proof.Machine
end

