-- ==== Sys2Proof/Machine/Records.lean ====
section
/-! DEFINITION. Machine/Records.lean: lines and repeats, positions, views and their cameras, record IDs, records, and
blind rectangles (R25 to R37, R199, R205, R338 to R348). -/
namespace Sys2Proof.Machine
open Reg

/-! ## Lines and repeats -/

/-- The identity of a repeat as one number (R22). -/
def Rep.key (r : Rep) : Nat := r.epoch * 2 ^ 32 + r.number

/-- Whether a line belongs to a repeat. -/
def Rep.has (r : Rep) (n : Nat) : Bool :=
  decide (r.first ≤ n) && (match r.last with
    | some l => decide (n ≤ l)
    | none => true)

/-- Whether a repeat has a line from `a` to `b`. -/
def Rep.meets (r : Rep) (a b : Nat) : Bool :=
  decide (r.first ≤ b) && (match r.last with
    | some l => decide (a ≤ l)
    | none => true)

/-- The line-in-repeat of a line; none while the phase is unknown. -/
def Rep.lineIn (r : Rep) (n : Nat) : Option Nat := r.phase.map (fun p => n - r.first + p)

/-- The repeats whose coverage record is still to come, oldest first. -/
def State.reps (s : State) : List Rep := s.web.closing ++ s.web.open_.toList

/-- The repeat a line belongs to. -/
def State.repAt (s : State) (n : Nat) : Option Rep := s.reps.find? (fun r => r.has n)

/-- The repeat of an identity. -/
def State.repOf (s : State) (k : Nat) : Option Rep := s.reps.find? (fun r => r.key == k)

/-- The state with a repeat changed. -/
def State.modRep (s : State) (k : Nat) (f : Rep → Rep) : State :=
  let g (r : Rep) : Rep := if r.key = k then f r else r
  { s with web := { s.web with open_ := s.web.open_.map g, closing := s.web.closing.map g, done := s.web.done.map g } }

/-- The repeat of a candidate's first line, also one whose coverage record has left (R37, R332). -/
def State.repAtDone (s : State) (n : Nat) : Option Rep :=
  match s.repAt n with
  | some r => some r
  | none => s.web.done.find? (fun r => r.has n)

/-- The line table's entry of a line (R120). -/
def State.lineAt (s : State) (n : Nat) : Option Line := s.trig.lines.find? (fun l => l.num == n)

/-- The web count of a line. -/
def State.countAt (s : State) (n : Nat) : Nat := ((s.lineAt n).map Line.count).getD 0

/-- The job a repeat belongs to: the active one, or the one before it (R50). -/
def State.jobOf (s : State) (r : Rep) : Package :=
  (if r.stamp = s.get JOB_STAMP then s.web.job else s.web.oldJob).getD []

/-- The items of a repeat's job. -/
def State.itemsOf (s : State) (r : Rep) : List Item := items (((s.jobOf r).sec secItems 0).getD [])

/-! ## Views and cameras (R149, R199, R205) -/

/-- The record of a view. -/
def State.view (s : State) (v : Nat) : View := s.views.getD v {}

/-- The state with a view's record changed. -/
def State.modView (s : State) (v : Nat) (f : View → View) : State := { s with views := modifyAt s.views v f }

/-- The record of a logical easel. -/
def State.easel (s : State) (k : Nat) : Easel := s.easels.getD k {}

/-- The state with an easel's record changed. -/
def State.modEasel (s : State) (k : Nat) (f : Easel → Easel) : State := { s with easels := modifyAt s.easels k f }

/-- The context of a bay on its easel: 0 for A, in-line, 1 for B (R149). -/
def State.ctxOf (s : State) (b : Nat) : Nat := if s.get EASEL_INLINE_BAY (b / 2) = b % 2 then 0 else 1

/-- The bay of a context. -/
def State.bayOf (s : State) (k c : Nat) : Nat :=
  2 * k + (if c = 0 then s.get EASEL_INLINE_BAY k else 1 - s.get EASEL_INLINE_BAY k)

/-- The context record of a bay. -/
def State.ctx (s : State) (b : Nat) : Ctx := (s.easel (b / 2)).ctxs.getD (s.ctxOf b) {}

/-- The state with a bay's context changed. -/
def State.modCtx (s : State) (b : Nat) (f : Ctx → Ctx) : State :=
  s.modEasel (b / 2) (fun e => { e with ctxs := modifyAt e.ctxs (s.ctxOf b) f })

/-- The bank active for a line (R162); the factory bank before any commit. -/
def Ctx.bankAt (c : Ctx) (n : Nat) : Bank := ((c.banks.find? (fun e => decide (e.1 ≤ n))).map Prod.snd).getD {}

/-- The palette active for a line; an empty one stands for the neutral palette. -/
def Ctx.paletteAt (c : Ctx) (n : Nat) : List Byte := ((c.palettes.find? (fun e => decide (e.1 ≤ n))).map Prod.snd).getD []

/-- The newest active bank. -/
def Ctx.bank (c : Ctx) : Bank := (c.banks.head?.map Prod.snd).getD {}

/-- The view a resampling map names; none for 0xFF or the factory's empty map (R188). -/
def Bank.view (b : Bank) : Option Nat := if b.resample.isEmpty ∨ 3 < natAt b.resample 0 1 then none else some (natAt b.resample 0 1)

/-- First view column and column count of a map. -/
def Bank.j0 (b : Bank) : Nat := natAt b.resample 4 4

/-- Column count of a map. -/
def Bank.cols (b : Bank) : Nat := natAt b.resample 8 4

/-- A camera of a view: bay, first column, column count. -/
structure Cam where
  bay : Nat
  j0 : Nat
  n : Nat
  deriving DecidableEq, Repr

/-- A camera in its place by ascending j0. -/
def Cam.insert (c : Cam) : List Cam → List Cam
  | [] => [c]
  | a :: r => if c.j0 < a.j0 then c :: a :: r else a :: Cam.insert c r

/-- The last column a camera writes. -/
def Cam.last (c : Cam) : Nat := c.j0 + c.n - 1

/-- Whether a bay has a camera configured. -/
def State.bayUsed (s : State) (b : Nat) : Bool := s.get BAY_LINK_TYPE b != 0

/-- The cameras of a view by ascending j0 (R199). -/
def State.cams (s : State) (v : Nat) : List Cam :=
  (List.range 12).foldl (fun l b =>
    let k := (s.ctx b).bank
    if s.bayUsed b && k.view == some v then Cam.insert ⟨b, k.j0, k.cols⟩ l else l) []

/-- Cameras whose columns meet a range, as a mask. -/
def State.camsMeeting (s : State) (v x0 x1 : Nat) : Nat :=
  (s.cams v).foldl (fun m c => if c.j0 ≤ x1 ∧ x0 ≤ c.last then setBit m c.bay true else m) 0

/-- Whether a range meets a column that two cameras write (R326). -/
def State.meetsSeam (s : State) (v x0 x1 : Nat) : Bool :=
  let cs := s.cams v
  cs.any (fun a => cs.any (fun b => decide (a.bay < b.bay) &&
    (let lo := max x0 (max a.j0 b.j0)
     let hi := min x1 (min a.last b.last)
     decide (lo ≤ hi))))

/-- The stagger offset of a bay (R205). -/
def State.stagger (s : State) (b : Nat) : Nat := s.get CAM_STAGGER_LINES b

/-- The largest stagger offset of a view's cameras. -/
def State.staggerMax (s : State) (v : Nat) : Nat := (s.cams v).foldl (fun m c => max m (s.stagger c.bay)) 0

/-! ## Strips of the canvas -/

/-- The record of a canvas strip. -/
def State.strip (s : State) (v n : Nat) : Option CStrip := (s.view v).strips.find? (fun x => x.num == n)

/-- The state with a canvas strip's record changed. -/
def State.modStrip (s : State) (v n : Nat) (f : CStrip → CStrip) : State :=
  s.modView v (fun w => { w with strips := w.strips.map (fun x => if x.num = n then f x else x) })

/-! ## The compressors of the archive channels (R466) -/

/-- Compressors in use by jobs, and by the archive channels. -/
def State.compressorsBusy (s : State) : Nat :=
  (s.wharf.jobs.filter (fun e => e.2.op == 1 && e.2.status == 1)).length + s.wharf.arch.sum

/-- Whether channel 7 has an underpainting to decompress: of a package being loaded, or one lost with a DRAM channel (R453, R457). -/
def State.unpacking (s : State) : Bool :=
  !s.dramUnit.reload.isEmpty || (s.get SWITCH_STATE == 1 && s.web.pendingJob.any (fun p =>
    (List.range 4).any (fun v => (Package.sec p secUnder v).isSome && (s.nv.saved.look (s.web.pendingSlot * 4 + v)).isNone)))

/-- Jobs that always have a burst ready when their turn comes: a running COPY from module DRAM (R460). -/
def Job.ready (j : Job) : Bool := j.op == 0 && j.status == 1 && j.src.space == 0

/-- The jobs that take turns with one of channel `n` that starts to run now, and the bursts each has had. -/
def State.turnsWith (s : State) (n : Nat) : List (Nat × Nat) :=
  (s.wharf.jobs.filter (fun e => e.1 != n && e.2.ready)).map (fun e => (e.2.id, e.2.served))

/-- Channel 7 takes one of the two decompressors, waits for one, or returns it (R457, R466). -/
def State.loadEngine (s : State) : State :=
  if !s.unpacking then { s with wharf := { s.wharf with load := 0 } }
  else if s.wharf.load = 1 then s
  else if (s.wharf.jobs.filter (fun e => e.2.op == 2 && e.2.status == 1)).length < 2 then
    { s with wharf := { s.wharf with load := 1, loadSeen := s.turnsWith 7 } }
  else { s with wharf := { s.wharf with load := 2 } }

/-- The compressors that the archive of a view has work for: one per released strip that waits, two at most (R466, R475). -/
def State.archWant (s : State) (v : Nat) : Nat :=
  if s.ringRuns 2 then min 2 ((s.view v).strips.filter (fun x => x.archive && x.released)).length else 0

/-- An archive channel takes the compressors it has work for, as far as they are free, and returns the others. Work that goes away
unwritten reads ABORTED (DEDUCED, log entry 76). -/
def State.archTake (s : State) (v : Nat) : State :=
  let want := s.archWant v
  let cur := s.wharf.arch.getD v 0
  let n := if want ≤ cur then want else cur + min (want - cur) (8 - s.compressorsBusy)
  let t := { s with wharf := { s.wharf with arch := s.wharf.arch.set v n } }
  let st := s.get WH_STATUS (2 + v)
  if 0 < n then t.set WH_STATUS (2 + v) 1
  else if 0 < want then t.set WH_STATUS (2 + v) 2
  else if st = 1 ∨ st = 2 then t.set WH_STATUS (2 + v) 4
  else t

/-- The archive channels take their compressors; in HOLD, in DORMANT and while the wharf is stopped nothing moves (R462, R463, R466). -/
def State.archSettle (s : State) : State :=
  if s.get MODE = 0 ∨ s.get MODE = 5 ∨ s.get WH_ALL_STOPPED = 1 then s
  else
    let t := (List.range 4).foldl State.archTake s
    t.set CMP_ENGINES_BUSY 0 t.compressorsBusy

/-- A flag mask with BLIND where SUBSTITUTED, UNREGISTERED or QUAY_DROP sets it (R34). -/
def withBlind (mask : Nat) : Nat := if Nat.land mask 0x1A ≠ 0 then Nat.lor mask 4 else mask

/-- Strip flags (R33, R34): a flag sets on an open or retained strip; SUBSTITUTED, UNREGISTERED and QUAY_DROP set BLIND. -/
def State.flag (s : State) (v n mask : Nat) : State :=
  s.modStrip v n (fun x => { x with
    flags := Nat.lor x.flags (withBlind mask), blind := x.blind || decide (Nat.land mask 0x16 ≠ 0) })

/-- The statistics of a bay's own strip carry a flag that its line `n` raises (R146, R205). -/
def State.statFlag (s : State) (b n mask : Nat) : State :=
  { s with bays := modifyAt s.bays b (fun x => { x with stats := x.stats.map (fun (z : StripStat) =>
      if z.strip = n / 256 then { z with flags := Nat.lor z.flags (withBlind mask) } else z) }) }

/-- A flag that a camera's output line raises falls on the canvas strip of line n - o in the view it writes, and on the statistics
of its own strip (R205). -/
def State.camFlag (s : State) (b n mask : Nat) : State :=
  let t := s.statFlag b n mask
  match ((s.ctx b).bankAt n).view with
  | some v => if s.stagger b ≤ n then t.flag v ((n - s.stagger b) / 256) mask else t
  | none => t

/-- Flags of the strips from line y0 to line y1 of a view. -/
def State.flagsOver (s : State) (v y0 y1 : Nat) : Nat :=
  (s.view v).strips.foldl (fun m x => if y0 / 256 ≤ x.num ∧ x.num ≤ y1 / 256 then Nat.lor m x.flags else m) 0

/-- A strip's flags and the cameras that wrote it count for the repeats whose lines it holds (R351). -/
def State.noteStrip (s : State) (v : Nat) (x : CStrip) : State :=
  let wrote := (List.range 12).foldl (fun m b => if x.ok.getD b 0 = 0 then m else setBit m b true) 0
  let g (r : Rep) : Rep :=
    if r.meets (256 * x.num) (256 * x.num + 255) then
      { r with flags := Nat.lor r.flags x.flags, cams := Nat.lor r.cams wrote, unclean := if x.blind then setBit r.unclean v true else r.unclean }
    else r
  { s with web := { s.web with open_ := s.web.open_.map g, closing := s.web.closing.map g } }

/-! ## Positions (R25 to R27, R338, R339) -/

/-- A cross-web position in µm: x / den view pixels times the view pitch, to the nearest µm. -/
def State.crossUm (s : State) (v x den : Nat) : Nat :=
  if den = 0 then 0 else (divRoundAway ((x * s.get VIEW_PITCH_UM v : Nat) : Int) (den * 65536)).toNat

/-- The in-repeat position of a web count in µm (R27). -/
def Rep.um (r : Rep) (c : Nat) : Int := divRoundAway (countDiff c r.start * (r.clen : Int)) 65536

/-- The position of a web count from the job's start in µm (R27). -/
def State.jobUm (s : State) (c : Nat) : Int :=
  divRoundAway (countDiff c (s.get JOB_START_COUNT) * (s.get COUNT_LENGTH : Int)) 65536

/-- Whether an item meets the area of a pixel rectangle of a repeat (R29; DEDUCED, log entry 20). A repeat of unknown
phase has no in-repeat position. -/
def State.itemMeets (s : State) (r : Rep) (v x0 x1 y0 y1 : Nat) (i : Item) : Bool :=
  let p : Int := s.get VIEW_PITCH_UM v
  let lo : Int := countDiff (s.countAt y0) r.start * r.clen * 131072 - (r.pitch * r.clen : Nat)
  let hi : Int := countDiff (s.countAt y1) r.start * r.clen * 131072 + (r.pitch * r.clen : Nat)
  r.phase.isSome && bit i.views v &&
    decide ((2 * (x0 : Int) - 1) * p < (i.x1 : Int) * 131072) && decide ((i.x0 : Int) * 131072 < (2 * (x1 : Int) + 1) * p) &&
    decide (lo < (i.y1 : Int) * 2 ^ 33) && decide ((i.y0 : Int) * 2 ^ 33 < hi)

/-! ## Records (R343 to R347) -/

/-- A record's content before its ID (R344). -/
structure Rec where
  typ : Nat := 0
  view : Nat := 0
  line : Nat
  count : Nat
  item : Nat := 0xFFFF
  at24 : Nat := 0
  at28 : Nat := 0
  w : Nat := 0
  h : Nat := 0
  area : Nat := 0
  high : Nat := 0
  cams : Nat := 0
  cls : Nat := 0
  severity : Nat := 0
  maxD : Nat := 0
  meanD : Nat := 0
  low : Nat := 0
  crop : Nat := 0xFFFFFFFF
  deriving DecidableEq, Repr

/-- The stamps of a line (R30, R32): job stamp, then tide, exposure and calibration generations. -/
def State.stamps (s : State) (n : Nat) : List Byte :=
  match s.lineAt n with
  | some l => leBytes 4 l.stamp ++ [l.tgen % 256, l.egen % 256, l.cgen % 256, 0]
  | none => leBytes 4 (s.get JOB_STAMP) ++ [s.get TIDE_GENERATION, s.get EXP_GENERATION, s.trig.cgen, 0]

/-- The bytes of a defect, blind or flood record (R344). -/
def State.recBytes (s : State) (id : Nat) (r : Rep) (d : Rec) : List Byte :=
  leBytes 8 id ++ leBytes 8 d.count ++ leBytes 4 r.number ++ leBytes 2 r.epoch ++ leBytes 2 d.item ++ leBytes 4 d.at24 ++
    leBytes 4 d.at28 ++ leBytes 2 (min 0xFFFF d.w) ++ leBytes 2 (min 0xFFFF d.h) ++ leBytes 4 (min 0xFFFFFFFF d.area) ++
    [d.typ, d.view * 16 + d.high] ++ leBytes 2 d.cams ++ [d.cls, d.severity] ++ leBytes 2 (min 0xFFFF d.maxD) ++
    leBytes 2 (min 0xFFFF d.meanD) ++ leBytes 2 d.low ++ s.stamps d.line ++ leBytes 4 d.crop

/-- The next record ID; the first of a block is issued after the block's end is stored (R343). -/
def State.recordId (s : State) : Nat × State :=
  let id := s.get DEF_NEXT_ID
  let t := if s.asm.blockEnd ≤ id then
      { s.logWrite 3 0 8 [(0, id + 2 ^ 20)] with asm := { s.asm with blockEnd := id + 2 ^ 20 } }
    else s
  (id, t.set DEF_NEXT_ID 0 (id + 1))

/-- A record leaves for the record ring (R346, R502). -/
def State.emitRecord (s : State) (keep : Bool) (bytes : Nat → List Byte) : State :=
  let x := s.recordId
  (x.2.volume DEF_RECORDS 0).record (bytes x.1) keep

/-! ## Blind rectangles (R347, R348) -/

/-- The causes of R348. -/
def blindSubst : Nat := 1
def blindQuay : Nat := 2
def blindUnreg : Nat := 3
def blindOverspeed : Nat := 4
def blindTile : Nat := 5
def blindTrim : Nat := 6
def blindMixed : Nat := 7
def blindStamp : Nat := 8
def blindForced : Nat := 9
def blindOverrun : Nat := 10
def blindHold : Nat := 11
def blindEasel : Nat := 12
def blindCascade : Nat := 13

/-- The causes whose cover clears the inspect mask (R299): SUBSTITUTED, QUAY_DROP, OVERSPEED, TRIM, MIXED, STAMP and FORCED, and EASEL,
whose lines never came (DEDUCED, log entry 198). UNREGISTERED lines clear it by themselves. -/
def maskCauses : List Nat := [blindSubst, blindQuay, blindOverspeed, blindTrim, blindMixed, blindStamp, blindForced, blindEasel]

/-- The record of a closed blind rectangle (R347, R352). -/
def State.blindRecord (s : State) (r : Rep) (b : Rect) : State :=
  let idx := (s.itemsOf r).findIdx? (fun i => s.itemMeets r b.view b.x0 b.x1 b.y0 b.y1 i)
  let d : Rec := {
    typ := 1, view := b.view, line := b.y0, count := s.countAt b.y0, item := idx.getD 0xFFFF
    at24 := s.crossUm b.view b.x0 1
    at28 := if r.phase.isSome then ofSigned 32 (r.um (s.countAt b.y0)) else 0xFFFFFFFF
    w := b.x1 + 1 - b.x0, h := b.y1 + 1 - b.y0, area := (b.x1 + 1 - b.x0) * (b.y1 + 1 - b.y0)
    high := 4 * b2n (idx.any (fun i => (((s.repOf r.key).getD r).marked.contains i))) + b2n (r.mode == 2)
    cams := s.camsMeeting b.view b.x0 b.x1, cls := b.cause
    low := s.flagsOver b.view b.y0 b.y1 }
  (s.modRep r.key (fun x => { x with blinds := modifyAt x.blinds b.view (· + 1) })).emitRecord true
    (fun id => s.recBytes id r d)

/-- Open rectangles that meet a condition close and their records leave (R346). -/
def State.closeRects (s : State) (p : Rect → Bool) : State :=
  let out := s.asm.rects.filter (fun b => b.open_ && p b)
  let t := { s with asm := { s.asm with
    rects := s.asm.rects.map (fun b => if b.open_ && p b then { b with open_ := false } else b) } }
  out.foldl (fun u b =>
    match u.repOf b.rep with
    | some r => u.blindRecord r b
    | none => u) t

/-- Blind cover of columns x0 to x1 of one line: an open rectangle of the same cause, view and columns extends over the
next line, else a new one opens (R347). A line of no repeat takes no record. -/
def State.blindCols (s : State) (v cause x0 x1 n : Nat) : State :=
  match s.repAt n with
  | none => s
  | some r =>
    let same (b : Rect) : Bool := b.view == v && b.cause == cause && b.x0 == x0 && b.x1 == x1 && b.rep == r.key
    if s.asm.rects.any (fun b => same b && decide (b.y0 ≤ n) && decide (n ≤ b.y1)) then s
    else if s.asm.rects.any (fun b => b.open_ && same b && b.y1 + 1 == n) then
      { s with asm := { s.asm with
          rects := s.asm.rects.map (fun b => if b.open_ && same b && b.y1 + 1 == n then { b with y1 := n } else b) } }
    else { s with asm := { s.asm with rects := s.asm.rects ++ [⟨v, cause, x0, x1, n, n, r.key, true⟩] } }

/-- Blind cover of a range of columns, in rectangles of at most 65,535 columns (R347). -/
def State.blindRange (s : State) (v cause x0 x1 n : Nat) : State :=
  if x1 < x0 then s
  else (List.range ((x1 - x0) / 65535 + 1)).foldl (fun t i =>
    t.blindCols v cause (x0 + 65535 * i) (min x1 (x0 + 65535 * i + 65534)) n) s

/-- Blind cover of a line across the full width of a view. -/
def State.blindLine (s : State) (v cause n : Nat) : State :=
  if s.get VIEW_WIDTH v = 0 then s else s.blindRange v cause 0 (s.get VIEW_WIDTH v - 1) n

/-- Whether a pixel of a line is covered by a blind rectangle of a cause that clears the inspect mask (R299). -/
def State.unmasked (s : State) (v x n : Nat) : Bool :=
  s.asm.rects.any (fun b => b.view == v && maskCauses.contains b.cause && decide (b.x0 ≤ x) && decide (x ≤ b.x1) &&
    decide (b.y0 ≤ n) && decide (n ≤ b.y1))

end Sys2Proof.Machine
end

