-- ==== Sys2Proof/Machine/Canvas.lean ====
section
/-! DEFINITION. Machine/Canvas.lean: view geometry, the canvas ring, strips, blending, seam gains, completion and release
(R199 to R232, R445, R446). -/
namespace Sys2Proof.Machine
open Reg

/-! ## Geometry (R200, R201, R224, R225, R234) -/

/-- Planes a view keeps, in the order L, A, B, N (R204). -/
def State.kept (s : State) (v : Nat) : List Nat :=
  let p := s.get VIEW_PLANES v
  [0] ++ (if bit p 1 then [1, 2] else []) ++ (if bit p 2 then [3] else [])

/-- Columns that two neighbours share. -/
def overlapOf (a b : Cam) : Nat := min a.last b.last + 1 - b.j0

/-- The seams of a view: neighbours by ascending j0. -/
def State.seams (s : State) (v : Nat) : List (Cam × Cam) := (s.cams v).zip ((s.cams v).drop 1)

/-- A view's row pitch in a slot: its width rounded up to 64 bytes (R225). -/
def State.rowPitch (s : State) (v : Nat) : Nat := (s.get VIEW_WIDTH v + 63) / 64 * 64

/-- A view's slot size (R225). -/
def State.slotSize (s : State) (v : Nat) : Nat :=
  if s.get VIEW_WIDTH v = 0 then 0
  else 4096 + (s.kept v).length * 256 * s.rowPitch v +
    ((s.seams v).map (fun p => 256 * overlapOf p.1 p.2 * (s.kept v).length)).sum

/-- The ring depth R (R224). -/
def State.ringDepth (s : State) : Nat :=
  let n := ((List.range 4).map s.slotSize).sum
  if n = 0 then 0 else min 65535 (107374182400 / n)

/-- Where a view's ring starts (R446). -/
def State.canvasBase (s : State) (v : Nat) : Nat :=
  0x1390000000 + ((List.range v).map (fun u => s.ringDepth * s.slotSize u)).sum

/-- The cameras that write a column. -/
def camsAt (cs : List Cam) (j : Nat) : List Cam := cs.filter (fun d => decide (d.j0 ≤ j) && decide (j ≤ d.last))

/-- Whether three cameras share a column: the most cameras meet where one begins. -/
def threeAtOnce (cs : List Cam) : Bool := cs.any (fun c => decide (2 < (camsAt cs c.j0).length))

/-- Whether a column below a width is written by no camera: the first such column is 0 or follows a camera's last. -/
def gapIn (cs : List Cam) (w : Nat) : Bool :=
  (0 :: cs.map (fun c => c.last + 1)).any (fun j => decide (j < w) && (camsAt cs j).isEmpty)

/-- The kept-planes bits of an OVERLAP frame (R230). -/
def State.planeBits (s : State) (v : Nat) : Nat :=
  let p := s.get VIEW_PLANES v
  2 + (if bit p 1 then 4 else 0) + (if bit p 2 then 8 else 0)

/-- VIEW_CONFIG_RESULT of a view by this module's own settings: the first condition of R200 that fails, in the order R200 lists them
(DEDUCED, log entry 21). The band may be no wider than the cascade overlap either. -/
def State.ownGeometry (s : State) (v : Nat) : Nat :=
  let cs := s.cams v
  let w := s.get VIEW_WIDTH v
  let casc := s.get VIEW_CASCADE v
  let band := s.get SEAM_BAND v
  if cs.isEmpty then 1
  else if gapIn cs w then 3
  else if threeAtOnce cs then 4
  else if cs.any (fun c => decide (w ≤ c.last)) then 2
  else if (s.seams v).any (fun p => decide (overlapOf p.1 p.2 < 64) || decide (2048 < overlapOf p.1 p.2)) then 4
  else if band % 2 = 1 ∨ (s.seams v).any (fun p => decide (overlapOf p.1 p.2 < band)) ∨
      (casc ≠ 0 ∧ s.get VIEW_CASCADE_OVERLAP v < band) then 5
  else if cs.all (fun c => s.stagger c.bay != 0) then 6
  else if s.ringDepth < (s.staggerMax v + 255) / 256 + 20 then 7
  else if 196608 < ((List.range 4).map (fun u => s.get VIEW_WIDTH u)).sum then 2
  else if casc ≠ 0 ∧ (!((s.isPrimary && casc == 1) || (s.isSecondary && casc == 2)) ∨ w < s.get VIEW_CASCADE_OVERLAP v) then 8
  else 0

/-- Whether the partner's OVERLAP frames show a breach of R229: frames of a view that is not cascaded here, with other planes or another
overlap than here, or, for a view cascaded here, of another view that is not (DESIGN CHOICE, log entry 39). -/
def State.partnerClash (s : State) (v : Nat) : Bool :=
  s.cascade.partners.any (fun e =>
    if e.1 = v then
      s.get VIEW_CASCADE v == 0 || e.2.1 != s.planeBits v / 2 || e.2.2 != s.get VIEW_CASCADE_OVERLAP v
    else s.get VIEW_CASCADE v != 0 && (decide (4 ≤ e.1) || s.get VIEW_CASCADE e.1 == 0))

/-- VIEW_CONFIG_RESULT of a view (R200, R229, R234). -/
def State.geometry (s : State) (v : Nat) : Nat :=
  let g := s.ownGeometry v
  if g = 0 ∧ s.partnerClash v then 8 else g

/-- VIEW_STATE: UNUSED, ACTIVE or INVALID (R201). A breach that the partner's frames show while lines are inspected or calibrated is
found at the next check. -/
def State.viewState (s : State) (v : Nat) : Nat :=
  let m := s.get MODE
  let g := if m = 2 ∨ m = 3 ∨ m = 4 then s.ownGeometry v else s.geometry v
  if s.get VIEW_WIDTH v = 0 then 0 else if g = 0 then 1 else 2

/-- The check of every view's geometry; VIEW_CONFIG_RESULT takes its result (R201). -/
def State.checkGeometry (s : State) : State × Bool :=
  let t := (List.range 4).foldl (fun u v =>
    u.set VIEW_CONFIG_RESULT v (if u.get VIEW_WIDTH v = 0 then 0 else u.geometry v)) s
  (t, (List.range 4).all (fun v => s.get VIEW_WIDTH v == 0 || s.geometry v == 0))

/-! ## Addresses (R225) -/

/-- The start of a strip's slot. -/
def State.slotAddr (s : State) (v n : Nat) : Nat := s.canvasBase v + (n % s.ringDepth) * s.slotSize v

/-- The place of a plane among the kept ones. -/
def State.planeSlot (s : State) (v p : Nat) : Option Nat := (s.kept v).idxOf? p

/-- The address of a pixel of a kept plane. -/
def State.pixelAddr (s : State) (v k c j : Nat) : Nat :=
  s.slotAddr v (c / 256) + 4096 + k * 256 * s.rowPitch v + (c % 256) * s.rowPitch v + j

/-- A canvas pixel; a plane the view does not keep reads 0 (R204). -/
def State.pixel (s : State) (v p c j : Nat) : Nat :=
  match s.planeSlot v p with
  | some k => s.dramByte (s.pixelAddr v k c j)
  | none => 0

/-- The address of a side buffer's byte: seam, line, plane slot, column from the overlap's first (R217, R225; the order
within the buffer is a DESIGN CHOICE, log entry 22). -/
def State.sideAddr (s : State) (v i c k x : Nat) : Nat :=
  let ks := (s.kept v).length
  let before := (((s.seams v).take i).map (fun p => 256 * overlapOf p.1 p.2 * ks)).sum
  let ov := (((s.seams v)[i]?).map (fun p => overlapOf p.1 p.2)).getD 0
  s.slotAddr v (c / 256) + 4096 + ks * 256 * s.rowPitch v + before + (c % 256) * ov * ks + k * ov + x

/-! ## The header (R226) -/

/-- The splits inside a strip (R20). -/
def State.splitsOf (s : State) (n : Nat) : List Split :=
  (s.web.splits.filter (fun x => x.line / 256 == n && x.line % 256 != 0)).take 2

/-- The strip header of a view's strip with its present flags. -/
def State.headerOf (s : State) (v : Nat) (x : CStrip) : List Byte :=
  let n := 256 * x.num
  let l := s.lineAt n
  let r := s.repAt n
  let sp := s.splitsOf x.num
  let split (i : Nat) : List Byte :=
    match sp[i]? with
    | some p => [p.line % 256, p.kind, p.tide, 0] ++ leBytes 4 p.stamp
    | none => List.replicate 8 0
  let mask := (s.cams v).foldl (fun m c => setBit m c.bay true) 0
  let gain (b : Nat) : List Byte :=
    if bit mask b then leBytes 2 (x.gains.getD b (0, 0)).1 ++ leBytes 2 (x.gains.getD b (0, 0)).2 else [0, 0, 0, 0]
  let body := leBytes 8 x.num ++ leBytes 8 (s.countAt n) ++ leBytes 8 ((l.map Line.dc).getD 0) ++
    leBytes 4 ((r.map Rep.number).getD (s.get REPEAT_NUMBER)) ++ leBytes 2 ((r.map Rep.epoch).getD (s.get REPEAT_EPOCH)) ++
    leBytes 2 ((r.bind (fun q => q.lineIn n)).getD 0xFFFF) ++ s.stamps n ++ [v, x.flags % 256] ++ leBytes 2 mask ++
    [0, 0, 0, 0] ++ split 0 ++ split 1 ++ (List.range 12).flatMap gain ++ leBytes 8 x.gainSrc ++ [0, 0, 0, 0]
  body ++ leBytes 4 (crc32c body)

/-- The header written to the strip's slot, with its zero padding (R225). -/
def State.writeHeader (s : State) (v : Nat) (x : CStrip) : State :=
  (s.dramZero (s.slotAddr v x.num) 4096).dramWrite (s.slotAddr v x.num) (s.headerOf v x)

/-! ## Leaving (R227, R355, R476) -/

/-- A crop's frame: header, then pixels (R355, R505). -/
def State.cropFrame (s : State) (c : Crop) (status : Nat) (pixels : List Byte) : Frame :=
  let head (st : Nat) : List Byte := leBytes 4 c.handle ++ [st, c.view, s.get VIEW_PLANES c.view % 8, 0] ++ leBytes 8 c.record ++
    leBytes 8 c.y0 ++ leBytes 4 c.x0 ++ leBytes 2 c.w ++ leBytes 2 c.h ++ List.replicate 28 0 ++ leBytes 4 (crc32c pixels)
  { typ := 1, unit := c.view, payload := head status ++ pixels, short := head 3 }

/-- The empty stream with one GAP block that names a strip (R467 to R469, R476). -/
def gapStream (strip rowBytes e : Nat) : List Byte :=
  let block (typ ulen : Nat) (p : List Byte) : List Byte :=
    let b := [typ, 0, 0, 0] ++ leBytes 4 ulen ++ leBytes 4 p.length ++ leBytes 4 (crc32c []) ++ p
    b ++ leBytes 4 (crc32c b)
  let h := [0x4B, 0x42, 0x53, 0x31, 1, 0, 0, 0] ++ leBytes 8 0 ++ [e, 0, 0, 0] ++ leBytes 4 rowBytes ++ [0, 0, 0, 0]
  h ++ leBytes 4 (crc32c h) ++ block 3 0 (leBytes 8 strip) ++ block 0xFF 0 (leBytes 4 1 ++ [0, 0, 0, 0])

/-- The header of a strip: final once it is released (R226). -/
def State.stripHeader (s : State) (v : Nat) (x : CStrip) : List Byte := if x.released then x.header else s.headerOf v x

/-- A strip's archive is abandoned: a gap packet stands for it (R476). -/
def State.gapPacket (s : State) (v : Nat) (x : CStrip) : State :=
  let p := s.stripHeader v x ++ gapStream x.num (s.rowPitch v) x.archLog2
  (s.tally ARCHIVE_GAPS v).ringPut 2 { typ := 2, unit := v, payload := p, short := p }

/-- A slot is reclaimed while holds are still set (R227). -/
def State.reclaim (s : State) (v : Nat) (x : CStrip) : State :=
  let s1 := if x.analysis then
      let t := (List.range 256).foldl (fun u i => u.blindLine v blindOverrun (256 * x.num + i)) s
      let t := (((t.flag v x.num 4).tally CANVAS_OVERRUN v).emit 0xB4).emcy 0xFF06 v
      { t with tiles := t.tiles.map (fun tl =>
          let drop (l : List Task) : List Task := l.filter (fun k => !(k.view == v && k.strip == x.num))
          let mark (l : List Task) : List Task := l.map (fun k => if k.view = v ∧ k.strip = x.num then { k with status := 3 } else k)
          { tl with queue := mark (tl.queue.take 1) ++ drop (tl.queue.drop 1), held := drop tl.held }) }
    else s
  let s2 := if x.archive then (s1.gapPacket v x).tally CANVAS_ARCHIVE_EVICT v else s1
  let s3 := if x.crops.isEmpty then s2
    else
      let cs := s2.asm.crops.map (fun c => if x.crops.contains c.handle then { c with evicted := true } else c)
      { s2 with asm := { s2.asm with crops := cs } }.tallyN CANVAS_CROP_EVICT v
        (s2.asm.crops.filter (fun (c : Crop) => x.crops.contains c.handle && !c.evicted)).length
  let s4 := if x.left_ then s3 else s3.noteStrip v ((s3.strip v x.num).getD x)
  s4.modView v (fun w => { w with
    strips := w.strips.filter (fun y => y.num != x.num)
    leftTo := if x.left_ || !x.released then w.leftTo else some (max x.num (w.leftTo.getD 0)) })

/-- Every strip of a view is treated as reclaimed (R17, R453). -/
def State.reclaimAll (s : State) (v : Nat) : State := (s.view v).strips.foldl (fun t x => t.reclaim v x) s

/-! ## Opening (R208, R213, R223, R224) -/

/-- The lines of a strip before its line `m` are zero (R213). -/
def State.zeroLines (s : State) (v num m : Nat) : State :=
  (List.range (s.kept v).length).foldl (fun t k => (List.range m).foldl (fun u i =>
    u.dramWrite (s.pixelAddr v k (256 * num + i) 0) (List.replicate (s.get VIEW_WIDTH v) 0)) t) s

/-- The strips a crop names. -/
def Crop.strips (c : Crop) : List Nat := (List.range ((c.y0 + c.h - 1) / 256 + 1 - c.y0 / 256)).map (fun i => c.y0 / 256 + i)

/-- A strip of a view opens at line `n`: the slot is taken from strip s - R, and gains and holds are fixed; crops that name it
already hold it. Lines before the first triggered line since the entry to READY carry no contribution. -/
def State.openStrip (s : State) (v n : Nat) : State :=
  let num := n / 256
  let r := s.ringDepth
  let s1 := (s.view v).strips.foldl (fun t x => if x.num + r ≤ num then t.reclaim v x else t) s
  let missing := 2 ^ (n % 256) - 1
  let arch := s.get ARCHIVE_ENABLE v == 1 && (s.get MODE == 2 || s.get MODE == 3)
  let x : CStrip := {
    num := num, flags := if n % 256 = 0 then 0 else 4, blind := decide (n % 256 ≠ 0)
    gains := (List.range 12).map (fun b => (s.get CAM_SEAM_GAIN_L b, s.get CAM_SEAM_GAIN_N b)), gainSrc := (s.view v).gainSrc
    crops := (s1.asm.crops.filter (fun c => c.view == v && c.strips.contains num)).map Crop.handle
    acc := List.replicate 12 missing, partner := missing
    archive := arch, archLevel := s.get ARCHIVE_LEVEL v, archLog2 := s.get ARCHIVE_BLOCK_LOG2 v }
  ((s1.modView v (fun w => { w with strips := w.strips ++ [x] })).writeHeader v x).zeroLines v num (n % 256)

/-- The strip of a triggered line opens in every view that is assembled, unless it is open. -/
def State.openStrips (s : State) (n : Nat) : State :=
  (List.range 4).foldl (fun t v =>
    if t.viewState v = 1 ∧ (t.strip v (n / 256)).isNone then t.openStrip v n else t) s

/-- A line that is triggered starts the completion timeout of the strip whose last contribution it is (R210). -/
def State.forceClock (s : State) (n : Nat) : State :=
  (List.range 4).foldl (fun t v =>
    let o := t.staggerMax v
    if o ≤ n ∧ (n - o) % 256 = 255 then t.modStrip v ((n - o) / 256) (fun x => { x with forceFrom := some t.now }) else t) s

/-! ## Blending (R216 to R219) -/

/-- A gained value (R219). -/
def gained (v g : Nat) : Nat := min 0xFF ((v * g + 0x2000) / 16384)

/-- The blend of one pixel of an overlap (R217): `a` its first and `e` its last column. -/
def blendPixel (mode wb a e j left right : Nat) : Nat :=
  let b0 := a + (e - a + 1 - wb) / 2
  if j < b0 then left
  else if b0 + wb ≤ j then right
  else if mode = 1 then (if j < b0 + wb / 2 then left else right)
  else
    let w := (2 * (j - b0) + 1) * 128 / wb
    (left * (256 - w) + right * w + 128) / 256

/-- Whether a band pixel counts for a seam loop (R221). -/
def loopPixel (wb a e j left right : Nat) : Bool :=
  let b0 := a + (e - a + 1 - wb) / 2
  decide (b0 ≤ j) && decide (j < b0 + wb) && decide (8 ≤ left) && decide (left ≤ 247) && decide (8 ≤ right) && decide (right ≤ 247)

/-- Sums of a seam loop after one line of an overlap. -/
def addLoop (d : Dict) (key wb a e : Nat) (left right : List Nat) : Dict :=
  let ps := ((List.range left.length).zip (left.zip right)).filter (fun p => loopPixel wb a e (a + p.1) p.2.1 p.2.2)
  let up (d : Dict) (k n : Nat) : Dict := if n = 0 then d else d.put k ((d.look k).getD 0 + n)
  up (up (up d key ps.length) (key + 1) (ps.map (fun p => p.2.1)).sum) (key + 2) (ps.map (fun p => p.2.2)).sum

/-- One overlap of one canvas line is written once both contributions are in (R217, R218): columns a to e, the two
sides' kept planes, and whether each is valid. -/
def State.blendLine (s : State) (v key c a e : Nat) (left right : Nat → List Nat) (okL okR : Bool) : State :=
  let ks := s.kept v
  let wb := s.get SEAM_BAND v
  (List.range ks.length).foldl (fun t k =>
    let p := ks.getD k 0
    let l := left k
    let r := right k
    if okL && okR then
      let out := ((List.range l.length).zip (l.zip r)).map (fun q => blendPixel (s.get SEAM_MODE v) wb a e (a + q.1) q.2.1 q.2.2)
      let u := t.dramWrite (s.pixelAddr v k c a) out
      if p = 0 ∨ p = 3 then
        u.modStrip v (c / 256) (fun x => { x with sums := addLoop x.sums (key * 8 + (if p = 3 then 4 else 0)) wb a e l r })
      else u
    else if okR then t.dramWrite (s.pixelAddr v k c a) r
    else if okL then t.dramWrite (s.pixelAddr v k c a) l
    else t) s

/-- Seam `i` of a view on canvas line `c`, when both of its cameras have accounted for the line. -/
def State.blendSeam (s : State) (v i c : Nat) : State :=
  match (s.seams v)[i]?, s.strip v (c / 256) with
  | some (l, r), some x =>
    let has (m : List Nat) (b : Nat) : Bool := bit (m.getD b 0) (c % 256)
    if has x.acc l.bay && has x.acc r.bay then
      let ov := overlapOf l r
      s.blendLine v i c r.j0 (r.j0 + ov - 1) (fun k => s.dramRead (s.pixelAddr v k c r.j0) ov)
        (fun k => s.dramRead (s.sideAddr v i c k 0) ov) (has x.ok l.bay) (has x.ok r.bay)
    else s
  | _, _ => s

/-! ## Cascade overlaps (R229 to R232) -/

/-- The first column of the cascade overlap on this module. -/
def State.cascadeFirst (s : State) (v : Nat) : Nat :=
  if s.get VIEW_CASCADE v = 1 then s.get VIEW_WIDTH v - s.get VIEW_CASCADE_OVERLAP v else 0

/-- The camera at the cascade edge of a view. -/
def State.edgeCam (s : State) (v : Nat) : Option Cam :=
  if s.get VIEW_CASCADE v = 1 then (s.cams v).getLast? else if s.get VIEW_CASCADE v = 2 then (s.cams v).head? else none

/-- This module's OVERLAP frame of a canvas line (R230). -/
def State.sendOverlap (s : State) (v c : Nat) (blind : Bool) : State :=
  let n := s.get VIEW_CASCADE_OVERLAP v
  s.sendFrame 1 (leBytes 8 c ++ [v, s.planeBits v + b2n blind] ++ leBytes 2 n ++ [0, 0, 0, 0] ++
    (List.range (s.kept v).length).flatMap (fun k => s.dramRead (s.pixelAddr v k c (s.cascadeFirst v)) n))

/-- The partner's overlap of a canvas line is blended with our own; the PRIMARY is the left camera (R231). -/
def State.blendPartner (s : State) (v c : Nat) (payload : List Byte) : State :=
  match s.strip v (c / 256), s.edgeCam v with
  | some x, some cam =>
    let n := s.get VIEW_CASCADE_OVERLAP v
    let a := s.cascadeFirst v
    let okOwn := bit (x.ok.getD cam.bay 0) (c % 256)
    let okP := !bit (natAt payload 9 1) 0
    let own (k : Nat) : List Nat := s.dramRead (s.pixelAddr v k c a) n
    let far (k : Nat) : List Nat := bytesAt payload (16 + k * n) n
    let t := s.modStrip v (c / 256) (fun y => { y with
      partner := setBit y.partner (c % 256) true, partnerOk := setBit y.partnerOk (c % 256) okP })
    if s.get VIEW_CASCADE v = 1 then t.blendLine v 15 c a (a + n - 1) own far okOwn okP
    else t.blendLine v 15 c a (a + n - 1) far own okP okOwn
  | _, _ => s

/-- The partner's half of a line, when it has come and our own is in. -/
def State.tryPartner (s : State) (v c : Nat) : State :=
  match (s.view v).overlap.find? (fun e => e.1 == c) with
  | some e => (s.blendPartner v c e.2).modView v (fun w => { w with overlap := w.overlap.filter (fun y => y.1 != c) })
  | none => s

/-! ## Accounting (R205 to R209) -/

/-- A camera accounts for a canvas line: validly, or as blind with a cause. Overlaps follow. -/
def State.account (s : State) (v b c : Nat) (cause : Option Nat) : State :=
  let i := c % 256
  let t := s.modStrip v (c / 256) (fun x => { x with
    acc := modifyAt x.acc b (fun m => setBit m i true)
    ok := if cause.isNone then modifyAt x.ok b (fun m => setBit m i true) else x.ok
    bad := match cause with
      | some k => x.bad ++ [(b, i, k)]
      | none => x.bad })
  let u := (List.range (t.seams v).length).foldl (fun w k =>
    match (t.seams v)[k]? with
    | some p => if p.1.bay = b ∨ p.2.bay = b then w.blendSeam v k c else w
    | none => w) t
  match u.edgeCam v with
  | some cam => if cam.bay = b then (u.sendOverlap v c cause.isSome).tryPartner v c else u
  | none => u

/-- Column ranges less the columns from `a` to `e`. -/
def lessSpan (l : List (Nat × Nat)) (a e : Nat) : List (Nat × Nat) :=
  l.flatMap (fun p =>
    if p.2 < a ∨ e < p.1 then [p]
    else (if p.1 < a then [(p.1, a - 1)] else []) ++ (if e < p.2 then [(e + 1, p.2)] else []))

/-- The columns of a blind contribution: those the camera writes, less those where a neighbour, or the cascade partner, is valid
(R207). -/
def State.blindSpans (s : State) (v : Nat) (x : CStrip) (b i : Nat) : List (Nat × Nat) :=
  let cs := s.cams v
  match cs.find? (fun c => c.bay == b) with
  | none => []
  | some c =>
    let own := (cs.filter (fun d => d.bay != b && bit (x.ok.getD d.bay 0) i)).foldl (fun l d => lessSpan l d.j0 d.last) [(c.j0, c.last)]
    let n := s.get VIEW_CASCADE_OVERLAP v
    if s.get VIEW_CASCADE v ≠ 0 ∧ bit x.partnerOk i ∧ 0 < n then lessSpan own (s.cascadeFirst v) (s.cascadeFirst v + n - 1) else own

/-- The blind cover of a completed strip, line by line. -/
def State.coverStrip (s : State) (v : Nat) (x : CStrip) : State :=
  (List.range 256).foldl (fun t i =>
    let n := 256 * x.num + i
    let t1 := (x.bad.filter (fun e => e.2.1 == i)).foldl (fun u e =>
      (u.blindSpans v x e.1 i).foldl (fun w p => w.blindRange v e.2.2 p.1 p.2 n) u) t
    (x.whole.filter (fun e => e.1 == i)).foldl (fun u e => u.blindLine v e.2 n) t1) s

/-! ## Seam gains (R220 to R223) -/

/-- One seam loop's update: gain `g` of calibration `cal`, sums over the counted pixels; the new gain and whether it was
clamped (R221). -/
def gainUpdate (g cal shift n near far : Nat) : Nat × Bool :=
  let mNear := near * 256 / n
  let mFar := far * 256 / n
  let ratio : Int := ((mNear * 16384 / mFar : Nat) : Int)
  let g1 : Int := (g : Int) + ((g : Int) * (ratio - 16384)) / ((2 ^ (14 + shift) : Nat) : Int)
  let lo : Int := ((cal - cal * 5 / 100 : Nat) : Int)
  let hi : Int := ((cal + cal * 5 / 100 : Nat) : Int)
  ((clampInt lo hi g1).toNat, decide (g1 < lo) || decide (hi < g1))

/-- One plane's loop of a seam: far camera `b`, key of the sums, and whether the far camera is the right one. -/
def State.seamLoop (s : State) (v : Nat) (x : CStrip) (b key plane : Nat) (farRight : Bool) : State :=
  let d (k : Nat) : Nat := (x.sums.look (key * 8 + 4 * plane + k)).getD 0
  let n := d 0
  if n = 0 ∨ n < s.get SEAM_GAIN_MIN_PIXELS v then s
  else
    let o := if plane = 0 then CAM_SEAM_GAIN_L else CAM_SEAM_GAIN_N
    let cal := s.get (if plane = 0 then CAM_SEAM_GAIN_CAL_L else CAM_SEAM_GAIN_CAL_N) b
    let u := gainUpdate (s.get o b) cal (s.get SEAM_GAIN_SHIFT v) n (if farRight then d 1 else d 2) (if farRight then d 2 else d 1)
    let t := s.set o b u.1
    let id := 2 * b + plane
    let was := (s.view v).clamped.contains id
    let t1 := t.modView v (fun w => { w with clamped := if u.2 then insertNat id w.clamped else w.clamped.filter (· != id) })
    if u.2 then
      let t2 := t1.tally SEAM_GAIN_LIMIT v
      if was then t2 else t2.emit 0xB3
    else t1

/-- The seam loops after a strip completes (R221, R231). -/
def State.seamLoops (s : State) (v : Nat) (x : CStrip) : State :=
  if s.get SEAM_GAIN_ENABLE v = 0 then s
  else
    let cs := s.cams v
    let ref := if s.get VIEW_CASCADE v = 2 then 0 else (cs.findIdx? (fun c => c.bay == s.get SEAM_REF_BAY v)).getD 0
    let planes := if bit (s.get VIEW_PLANES v) 2 then [0, 1] else [0]
    let t := (List.range (s.seams v).length).foldl (fun u i =>
      let right := decide (ref ≤ i)
      let far := (cs.getD (if right then i + 1 else i) ⟨0, 0, 0⟩).bay
      planes.foldl (fun w p => w.seamLoop v x far i p right) u) s
    if s.get VIEW_CASCADE v = 2 then planes.foldl (fun w p => w.seamLoop v x (cs.headD ⟨0, 0, 0⟩).bay 15 p true) t else t

/-- A bay's seam gains start from its calibration (R220). -/
def State.gainsStart (s : State) (b : Nat) : State :=
  (s.set CAM_SEAM_GAIN_L b (s.get CAM_SEAM_GAIN_CAL_L b)).set CAM_SEAM_GAIN_N b (s.get CAM_SEAM_GAIN_CAL_N b)

/-! ## Completion and release (R209 to R213) -/

/-- Whether every camera, and a cascade partner, has accounted for every line of a strip. -/
def State.accounted (s : State) (v : Nat) (x : CStrip) : Bool :=
  (s.cams v).all (fun c => x.acc.getD c.bay 0 == 2 ^ 256 - 1) && (s.get VIEW_CASCADE v == 0 || x.partner == 2 ^ 256 - 1)

/-- Whether any line of a strip belongs to a repeat, so that the fabric analyses it. -/
def State.analysed (s : State) (n : Nat) : Bool :=
  s.reps.any (fun r => decide (r.first ≤ 256 * n + 255) && (match r.last with
    | some l => decide (256 * n ≤ l)
    | none => true))

/-- A complete strip is released: its header is final (R211, R226). A strip without a repeat's line is not analysed. -/
def State.releaseStrip (s : State) (v : Nat) (x : CStrip) : State :=
  let go := s.analysed x.num
  let y := { x with released := true, analysis := go, left_ := !go, header := s.headerOf v x }
  let t := (s.modStrip v x.num (fun _ => y)).writeHeader v y
  ((t.set CANVAS_RELEASED_STRIP v x.num).modView v (fun w => if go then w else { w with leftTo := some x.num })).archSettle

/-- Strips are released in ascending order as far as they are complete (R211). -/
def State.releaseStrips (s : State) (v : Nat) : Nat → State
  | 0 => s
  | n + 1 =>
    match (s.view v).strips.find? (fun x => !x.released) with
    | some x => if x.complete then (s.releaseStrip v x).releaseStrips v n else s
    | none => s

/-- A strip completes: blind cover, seam loops, release (R209, R211, R221, R223). -/
def State.completeStrip (s : State) (v n : Nat) : State :=
  match s.strip v n with
  | none => s
  | some x =>
    if x.complete then s
    else
      let t := ((s.modStrip v n (fun y => { y with complete := true })).coverStrip v x).seamLoops v x
      (t.modView v (fun w => { w with gainSrc := n })).releaseStrips v (t.view v).strips.length

/-- A strip completes if all is accounted for. -/
def State.tryComplete (s : State) (v n : Nat) : State :=
  match s.strip v n with
  | some x => if !x.complete && s.accounted v x then s.completeStrip v n else s
  | none => s

/-! ## Segments (R206, R214, R217, R219) -/

/-- Whether a job switch at a line after canvas line `c`, up to output line `n`, changed the palette of a bay (R206). -/
def State.paletteSwitched (s : State) (b c n : Nat) : Bool :=
  s.web.switches.any (fun l => decide (c < l) && decide (l ≤ n) && (s.ctx b).paletteAt (l - 1) != (s.ctx b).paletteAt l)

/-- Whether a contribution's stamps are not those of canvas line `c` (R206). -/
def State.stampsDiffer (s : State) (g : Seg) (c : Nat) : Bool :=
  ((s.lineAt c).map Line.egen).getD g.egen != g.egen || s.paletteSwitched g.bay c g.line

/-- Why a contribution counts as blind: a trim (R567), SUBST, MIXED, or stamps that are not the canvas line's (R144, R182, R206). -/
def State.segCause (s : State) (g : Seg) (c : Nat) : Option Nat :=
  if s.trim.blind.any (fun e => e.1 == g.bay && decide (e.2.1 ≤ g.line) && decide (g.line ≤ e.2.2)) then some blindTrim
  else if g.subst then some blindSubst
  else if g.mixed then some blindMixed
  else if s.stampsDiffer g c then some blindStamp
  else none

/-- A segment's pixels are gained and written: overlap columns with the left neighbour to the side buffer, all others
to the canvas (R217, R219). -/
def State.writeSeg (s : State) (g : Seg) (c : Nat) (gains : Nat × Nat) : State :=
  let v := g.view
  let ks := s.kept v
  let cs := s.cams v
  let k := (cs.findIdx? (fun x => x.bay == g.bay)).getD 0
  let left := if k = 0 then 0 else
    match (s.seams v)[k - 1]? with
    | some p => overlapOf p.1 p.2
    | none => 0
  (List.range ks.length).foldl (fun t i =>
    let p := ks.getD i 0
    let raw := g.planes.getD p []
    let px := if p = 0 then raw.map (gained · gains.1) else if p = 3 then raw.map (gained · gains.2) else raw
    let t1 := if left = 0 then t else t.dramWrite (s.sideAddr v (k - 1) c i 0) (px.take left)
    t1.dramWrite (s.pixelAddr v i c (g.j0 + left)) (px.drop left)) s

/-- A segment reaches the joiner (R205, R206, R210, R213). -/
def State.joinSeg (s : State) (g : Seg) : State :=
  let o := s.stagger g.bay
  if g.line < o ∨ s.viewState g.view ≠ 1 then s
  else
    let c := g.line - o
    match s.strip g.view (c / 256) with
    | none => s
    | some x =>
      if x.complete then (if x.forced then s.tally SEAM_LATE_DISCARD g.view else s)
      else if bit (x.acc.getD g.bay 0) (c % 256) then s
      else
        let cause := s.segCause g c
        let s1 := if s.stampsDiffer g c then (s.tally SEAM_STAMP_BLIND_LINES g.view).statFlag g.bay g.line 4 else s
        let s2 := if cause.isSome then s1.flag g.view (c / 256) 4 else s1
        ((s2.writeSeg g c (x.gains.getD g.bay (0x4000, 0x4000))).account g.view g.bay c cause).tryComplete g.view (c / 256)

/-- A camera's output line is accounted for without pixels, as blind (R209). -/
def State.accountLine (s : State) (b n cause : Nat) : State :=
  match ((s.ctx b).bankAt n).view with
  | none => s
  | some v =>
    let o := s.stagger b
    if n < o then s
    else
      match s.strip v ((n - o) / 256) with
      | none => s
      | some x =>
        if x.complete || bit (x.acc.getD b 0) ((n - o) % 256) then s
        else ((s.flag v ((n - o) / 256) 4).account v b (n - o) (some cause)).tryComplete v ((n - o) / 256)

/-- A camera's output lines are accounted for without pixels, as blind (R209). -/
def State.accountRange (s : State) (b first last cause : Nat) : State :=
  (List.range (last + 1 - first)).foldl (fun t i => t.accountLine b (first + i) cause) s

/-! ## Commands -/

/-- Contexts B that write a view are held back or released (R214). -/
def State.holdB (s : State) (v : Nat) (on : Bool) : State :=
  (s.cams v).foldl (fun t c => if t.ctxOf c.bay = 1 then t.modEasel (c.bay / 2) (fun e => { e with heldB := on }) else t) s

/-- JOINER_SEGMENT (R214, R215, R217): the oldest segment of a bay reaches the joiner, whose view's write queue is
`fill` percent full. -/
def execJoinerSegment (dt bay fill : Nat) (s : State) : Host.Outcome State Fault Refusal :=
  act (decide (bay < 12)) dt s fun s =>
    match s.segs.getD bay [] with
    | [] => s
    | g :: rest =>
      if s.get MODE = 5 ∨ s.get MODE = 0 ∨ (g.ctxB && (s.easel (bay / 2)).heldB) then s
      else
        let t := { s with segs := s.segs.set bay rest }
        let full := 100 ≤ fill && !g.ctxB
        let t1 := if 75 < fill && !(t.view g.view).holding then
            (t.modView g.view (fun w => { w with holding := true, heldAt := t.now })).holdB g.view true
          else t
        if full then
          ((t1.tally SEAM_QUEUE_OVERFLOW g.view).camFlag bay g.line 2).accountRange bay g.line g.line blindSubst
        else t1.joinSeg g

/-- COMPLETION_NOTE (R209): a camera's note reaches the joiner. -/
def execCompletionNote (dt bay : Nat) (s : State) : Host.Outcome State Fault Refusal :=
  act (decide (bay < 12)) dt s fun s =>
    match s.notes.getD bay [] with
    | [] => s
    | n :: rest =>
      if s.get MODE = 5 then s
      else { s with notes := s.notes.set bay rest }.accountRange bay n.first n.last n.cause

/-- Unaccounted lines of a strip are covered, and the strip completes (R210, R232). -/
def State.forceStrip (s : State) (v : Nat) (x : CStrip) : State :=
  let t := (s.tally SEAM_FORCED_COMPLETE v).modStrip v x.num (fun y => { y with forced := true })
  let t1 := (t.cams v).foldl (fun u c => (List.range 256).foldl (fun w i =>
    if bit (x.acc.getD c.bay 0) i then w else (w.flag v x.num 4).account v c.bay (256 * x.num + i) (some blindForced)) u) t
  let came := ((t1.strip v x.num).map CStrip.partner).getD x.partner
  let missing := if t.get VIEW_CASCADE v = 0 then [] else (List.range 256).filter (fun i => !bit came i)
  let t2 := missing.foldl (fun u i =>
    let own := match u.strip v x.num, u.edgeCam v with
      | some y, some cam => bit (y.ok.getD cam.bay 0) i
      | _, _ => true
    let u1 := u.tally CASCADE_OVERLAP_MISSING v
    if own then u1
    else u1.blindRange v blindCascade (u.cascadeFirst v) (u.cascadeFirst v + u.get VIEW_CASCADE_OVERLAP v - 1) (256 * x.num + i)) t1
  t2.completeStrip v x.num

/-- SEAM_FORCED_COMPLETE (R210): the completion timeout of a view's strips expires; it does not run in HOLD. -/
def execSeamForcedComplete (dt view : Nat) (s : State) : Host.Outcome State Fault Refusal :=
  act (decide (view < 4)) dt s fun s =>
    if s.get MODE = 5 then s
    else (s.view view).strips.foldl (fun t x =>
      match x.forceFrom with
      | some f => if !x.complete && decide (f + s.get SEAM_COMPLETE_TIMEOUT_MS view * 1000000 ≤ s.now) then t.forceStrip view x else t
      | none => t) s

/-- The tallies of a view (R233). -/
def seamTallies : List Obj :=
  [SEAM_FORCED_COMPLETE, SEAM_LATE_DISCARD, SEAM_STAMP_BLIND_LINES, SEAM_GAIN_LIMIT, CANVAS_OVERRUN, CANVAS_ARCHIVE_EVICT,
   SEAM_QUEUE_OVERFLOW, CANVAS_CROP_EVICT, CASCADE_OVERLAP_MISSING]

/-- SEAM_CLEAR's effect (R233). -/
def State.seamClear (s : State) (via : Path) (v : Nat) : State :=
  s.command via SEAM_CLEAR v true (fun t => seamTallies.foldl (fun u o => u.clearTally o v) t)

/-- SEAM_CLEAR (R233). -/
def execSeamClear (dt : Nat) (via : Path) (view : Nat) (s : State) : Host.Outcome State Fault Refusal :=
  act (decide (view < 4)) dt s fun s => s.seamClear via view

/-- What a frame shows of the partner's view: its planes and its overlap (R229). -/
def State.partnerShows (s : State) (v planes overlap : Nat) : State :=
  { s with cascade := { s.cascade with partners :=
    (v, planes, overlap) :: s.cascade.partners.filter (fun e => e.1 != v) } }

/-- The partner's columns of line `c`, kept until the edge camera writes that line. -/
def State.keepOverlap (s : State) (v c : Nat) (p : List Byte) : State :=
  s.modView v (fun w => { w with overlap := w.overlap ++ [(c, p)] })

/-- The partner's columns of line `c` join the line where the edge camera has written it, and are kept for it elsewhere; those that come
late for a strip completed by force are discarded (R210, R231). -/
def State.joinPartner (s : State) (v c : Nat) (p : List Byte) : State :=
  match s.strip v (c / 256), s.edgeCam v with
  | some x, some cam =>
    if x.complete then (if x.forced then s.tally SEAM_LATE_DISCARD v else s)
    else if bit (x.acc.getD cam.bay 0) (c % 256) then (s.blendPartner v c p).tryComplete v (c / 256)
    else s.keepOverlap v c p
  | _, _ => s.keepOverlap v c p

/-- Overlap columns of a canvas line, from the partner (R229 to R231). -/
def State.takeOverlap (s : State) (p : List Byte) : State :=
  let c := natAt p 0 8
  let v := natAt p 8 1
  let planes := natAt p 9 1 / 2 % 8
  let t := s.partnerShows v planes (natAt p 10 2)
  if t.get MODE = 5 ∨ t.get MODE = 0 then t
  else if 4 ≤ v ∨ t.get VIEW_CASCADE v = 0 ∨ planes ≠ t.planeBits v / 2 ∨
      natAt p 10 2 ≠ t.get VIEW_CASCADE_OVERLAP v then t.tally CASCADE_OVERLAP_MISSING (v % 4)
  else t.joinPartner v c p

/-- OVERLAP_FRAME (R98, R230, R231): a partner's overlap columns of one canvas line. -/
def execOverlapFrame (dt : Nat) (frame : List Nat) (s : State) : Host.Outcome State Fault Refusal :=
  act true dt s fun s =>
    match s.takeFrame 1 frame with
    | (t, none) => t
    | (t, some p) => t.takeOverlap p

end Sys2Proof.Machine
end

