-- ==== Sys2Proof/Machine/Registration.lean ====
section
/-! DEFINITION. Machine/Registration.lean: anchor rows and displacement fields, the warp, register marks, and learning of
underpaintings (R240 to R268). -/
namespace Sys2Proof.Machine
open Reg

/-! ## The anchor grid (R245) -/

/-- Anchors across a view for a grid pitch. -/
def State.anchorsX (s : State) (v g : Nat) : Nat := (s.get VIEW_WIDTH v + g - 1) / g

/-- Anchor rows of a repeat. -/
def Rep.anchorsY (r : Rep) : Nat := (r.height + r.grid - 1) / r.grid

/-- Whether a repeat's field needs no further row: its last row is done, or the repeat closed before the next row's
centre. -/
def State.fieldDone (s : State) (f : RField) : Bool :=
  match s.repOf f.rep with
  | none => true
  | some r =>
    let k := f.first + f.rows.length
    decide (r.anchorsY ≤ k) || (match r.last with
      | some l => decide ((r.lineIn l).getD 0 < r.grid * k + r.grid / 2)
      | none => false)

/-- The field of a repeat in a view. -/
def State.fieldOf (s : State) (v key : Nat) : Option RField := (s.reg v).fields.find? (fun f => f.rep == key)

/-- The row of a field that stands for anchor row `k`: its own, or the nearest (R251). -/
def RField.row (f : RField) (k : Nat) : ARow :=
  f.rows.getD (min (k - f.first) (f.rows.length - 1)) {}

/-- The rows that bracket a line-in-repeat (R254). -/
def Rep.bracket (r : Rep) (y : Nat) : Nat × Nat :=
  let g := r.grid
  let k := if 2 * y < g then 0 else min ((2 * y - g) / (2 * g)) (r.anchorsY - 1)
  (k, min (k + 1) (r.anchorsY - 1))

/-- Whether the rows a line needs are final: estimated, or standing for rows that never come (R252). -/
def State.rowsFinal (s : State) (v n : Nat) : Bool :=
  match s.repAt n with
  | none => true
  | some r =>
    match r.lineIn n, s.fieldOf v r.key with
    | some y, some f => s.fieldDone f || decide ((r.bracket y).2 < f.first + f.rows.length)
    | _, _ => true

/-- Whether a canvas line of a view is registered (R251, R255). -/
def State.registered (s : State) (v n : Nat) : Bool :=
  match s.repAt n with
  | none => false
  | some r =>
    match r.lineIn n, s.fieldOf v r.key with
    | some y, some f =>
      let b := r.bracket y
      !r.unregistered && !f.rows.isEmpty && decide (y < r.height + 256) && !(f.row b.1).failed && !(f.row b.2).failed
    | _, _ => false

/-! ## Correlation (R240, R246 to R249) -/

/-- The zero-mean product sum of two patches, times their number of pixels. -/
def covariance (a b : List Nat) : Int :=
  ((a.length * ((a.zip b).map (fun p => p.1 * p.2)).sum : Nat) : Int) - ((a.sum * b.sum : Nat) : Int)

/-- Zero-mean normalised cross-correlation in units of 2^-32 (the unit is a DESIGN CHOICE, log entry 174). A patch without contrast
has no correlation the spec states. -/
def ncc (a b : List Nat) : Int :=
  let va := covariance a a
  let vb := covariance b b
  if va ≤ 0 ∨ vb ≤ 0 then clampInt (-(2 ^ 32)) (2 ^ 32) (Config.flatScore a b)
  else
    let c := covariance a b
    let q : Int := (sqrtFrom 34 (c.natAbs * c.natAbs * 2 ^ 64 / (va.toNat * vb.toNat)) 0 : Nat)
    if c < 0 then -q else q

/-- A search's result: the displacement of the best score, its score, the best score outside two pixels of it, and whether it lies on
the border. -/
structure Peak where
  dx : Int := 0
  dy : Int := 0
  score : Int := 0
  second : Int := 0
  border : Bool := true
  deriving DecidableEq, Repr

/-- The displacements within `n` of a centre, line by line. -/
def searchRange (cx cy : Int) (n : Nat) : List (Int × Int) :=
  (List.range (2 * n + 1)).flatMap (fun (j : Nat) => (List.range (2 * n + 1)).map (fun (i : Nat) => (cx - n + i, cy - n + j)))

/-- The best of the displacements within `n` of a centre; of equal scores the first, line by line (DESIGN CHOICE, log entry 174). -/
def searchPeak (cx cy : Int) (n : Nat) (score : Int → Int → Int) : Peak :=
  let all := (searchRange cx cy n).map (fun d => (d.1, d.2, score d.1 d.2))
  let best := all.foldl (fun (b : Int × Int × Int) e => if b.2.2 < e.2.2 then e else b) (all.headD (cx, cy, 0))
  let rest := all.filter (fun e => decide (2 < (e.1 - best.1).natAbs) || decide (2 < (e.2.1 - best.2.1).natAbs))
  { dx := best.1, dy := best.2.1, score := best.2.2, second := rest.foldl (fun m e => max m e.2.2) (-(2 ^ 32))
    border := (best.1 - cx).natAbs == n || (best.2.1 - cy).natAbs == n }

/-- A displacement in 1/16 pixel from an integer peak and the scores at it and its neighbours (R248). Three equal scores leave the
quotient open. -/
def subPixel (peak cm1 c0 cp1 : Int) : Int :=
  let den := 2 * (cm1 - 2 * c0 + cp1)
  let off : Int := if den = 0 then Config.flatPeak c0
    else if den < 0 then divRoundAway (-(16 * (cm1 - cp1))) den.natAbs else divRoundAway (16 * (cm1 - cp1)) den.natAbs
  16 * peak + clampInt (-8) 8 off

/-! ## Estimation (R246 to R250) -/

/-- The size of a view's region in an underpainting slot (R257). -/
def State.upSize (s : State) (v h : Nat) : Nat := 4 * s.get VIEW_WIDTH v * h + (s.get VIEW_WIDTH v + 1) / 2 * h

/-- The start of a view's region in a slot. -/
def State.upBase (s : State) (slot v h : Nat) : Nat := slot * 36238786560 + ((List.range v).map (fun u => s.upSize u h)).sum

/-- The slot a repeat's underpainting lies in: the active one, or the old job's (R50). -/
def State.upSlot (s : State) (r : Rep) : Nat :=
  if r.stamp = s.get JOB_STAMP then s.get REG_SLOT_ACTIVE else 1 - s.get REG_SLOT_ACTIVE

/-- A pixel of an underpainting's plane. -/
def State.upPixel (s : State) (slot v h p x y : Nat) : Nat :=
  s.dramByte (s.upBase slot v h + p * s.get VIEW_WIDTH v * h + y * s.get VIEW_WIDTH v + x)

/-- The plane registration compares (R246). -/
def State.regPlane (s : State) : Nat := if s.get REG_PLANE = 0 then 0 else 3

/-- The canvas line that shows a line-in-repeat of a repeat. -/
def Rep.lineOf (r : Rep) (y : Nat) : Nat := r.first + y - r.phase.getD 0

/-- Columns of an anchor's patch, clipped at the view's edges (R246). -/
def State.patchCols (s : State) (v cx : Nat) : List Nat :=
  (List.range (min (s.get VIEW_WIDTH v) (cx + 32) - (cx - 32))).map (fun i => cx - 32 + i)

/-- Positions of an anchor's patch: view columns and lines-in-repeat (R246). -/
def State.patch (s : State) (v : Nat) (r : Rep) (i k : Nat) : List (Nat × Nat) :=
  let cx := r.grid * i + r.grid / 2
  let cy := r.grid * k + r.grid / 2
  (List.range 64).flatMap (fun j => (s.patchCols v cx).map (fun x => (x, cy - 32 + j)))

/-- The underpainting pixel at a position, the nearest edge pixel outside it (as in R255; DESIGN CHOICE, log entry 174). -/
def State.upAt (s : State) (v : Nat) (r : Rep) (x y : Int) : Nat :=
  s.upPixel (s.upSlot r) v r.height s.regPlane (clampInt 0 ((s.get VIEW_WIDTH v : Int) - 1) x).toNat (clampInt 0 ((r.height : Int) - 1) y).toNat

/-- The underpainting under a patch displaced by (dx, dy). -/
def State.upPatch (s : State) (v : Nat) (r : Rep) (ps : List (Nat × Nat)) (dx dy : Int) : List Nat :=
  ps.map (fun q => s.upAt v r (q.1 + dx) (q.2 + dy))

/-- The coarse blocks of a patch: those of 8 x 8 pixels that lie in it whole (R247). -/
def State.coarseBlocks (s : State) (v : Nat) (r : Rep) (i k : Nat) : List (Nat × Nat) :=
  let cx := r.grid * i + r.grid / 2
  let cy := r.grid * k + r.grid / 2
  (List.range 8).flatMap (fun j => (List.range ((s.patchCols v cx).length / 8)).map (fun b => ((cx - 32) / 8 + b, (cy - 32) / 8 + j)))

/-- The sum of the 8 x 8 pixels of a coarse block, 64 times their mean. -/
def blockSum (px : Int → Int → Nat) (bx by_ : Int) : Nat :=
  ((List.range 8).map (fun (j : Nat) => ((List.range 8).map (fun (i : Nat) => px (8 * bx + i) (8 * by_ + j))).sum)).sum

/-- The coarse search of CAPTURE around a predicted displacement in 1/16 line (R247). -/
def State.coarsePeak (s : State) (v : Nat) (r : Rep) (i k : Nat) (pred : Int × Int) : Peak :=
  let bs := s.coarseBlocks v r i k
  let own := bs.map (fun q => blockSum (fun x y => s.pixel v s.regPlane (r.lineOf y.toNat) x.toNat) q.1 q.2)
  searchPeak (divRoundAway pred.1 128) (divRoundAway pred.2 128) 32 (fun dx dy =>
    ncc own (bs.map (fun q => blockSum (s.upAt v r) (q.1 + dx) (q.2 + dy))))

/-- An anchor is measured around its prediction: search, sub-pixel fit, and whether it is weak (R246 to R249). -/
def State.measure (s : State) (v : Nat) (r : Rep) (i k : Nat) (pred : Int × Int) : Anchor :=
  let ps := s.patch v r i k
  let own := ps.map (fun q => s.pixel v s.regPlane (r.lineOf q.2) q.1)
  let score (dx dy : Int) : Int := ncc own (s.upPatch v r ps dx dy)
  let cap := (s.reg v).capture
  let centre : Int × Int := if cap then
      let c := s.coarsePeak v r i k pred
      (8 * c.dx, 8 * c.dy)
    else (divRoundAway pred.1 16, divRoundAway pred.2 16)
  let p := searchPeak centre.1 centre.2 16 score
  let under := s.upPatch v r ps p.dx p.dy
  let weak := decide (ps.length < 1024) || p.border || decide (p.score * 255 < (s.get REG_MIN_NCC : Int) * 2 ^ 32) ||
    decide ((p.score - p.second) * 255 < (s.get REG_MIN_MARGIN : Int) * 2 ^ 32) ||
    decide (covariance under under < ((s.get REG_MIN_CONTRAST * s.get REG_MIN_CONTRAST * (ps.length * ps.length) : Nat) : Int))
  { dx := subPixel p.dx (score (p.dx - 1) p.dy) p.score (score (p.dx + 1) p.dy)
    dy := subPixel p.dy (score p.dx (p.dy - 1)) p.score (score p.dx (p.dy + 1))
    score := (divRoundAway (max 0 p.score * 255) (2 ^ 32)).toNat, flags := b2n weak + 4 * b2n cap }

/-- The field of the repeat before a field's own, in a view (R247). -/
def State.fieldBefore (s : State) (v : Nat) (f : RField) : Option RField :=
  (((s.reg v).prev.toList ++ (s.reg v).fields).find? (fun g => (g.rep + 1) % 2 ^ 48 == f.rep && !g.rows.isEmpty))

/-- What the search of an anchor predicts (R240, R247); a repeat without a field before it counts as displaced by nothing
(DEDUCED, log entry 25). -/
def State.predict (s : State) (v : Nat) (f : RField) (i k : Nat) : Int × Int :=
  if (s.reg v).capture then (0, f.markErr)
  else
    let old (j : Nat) : Anchor := match s.fieldBefore v f with
      | some p => (p.row j).anchors.getD i {}
      | none => {}
    if f.rows.isEmpty then ((old k).dx, (old k).dy + f.markErr)
    else
      let up := (f.row (k - 1)).anchors.getD i {}
      ((old k).dx + up.dx - (old (k - 1)).dx, (old k).dy + up.dy - (old (k - 1)).dy + f.markErr)

/-- Twice the median of some numbers; the mean of the two middle ones for an even count (DEDUCED, log entry 26). -/
def median2 (l : List Int) : Int :=
  let q := l.foldl (fun a x => (a.takeWhile (fun y => decide (y < x))) ++ x :: (a.dropWhile (fun y => decide (y < x)))) []
  let n := q.length
  if n % 2 = 1 then 2 * q.getD (n / 2) 0 else q.getD (n / 2 - 1) 0 + q.getD (n / 2) 0

/-- Whether an anchor is weak. -/
def Anchor.isWeak (a : Anchor) : Bool := bit a.flags 0

/-- Neighbours of anchor `i` in its own row and the row above. -/
def neighbours (row above : List Anchor) (i : Nat) : List Anchor :=
  let at_ (l : List Anchor) (j : Nat) : List Anchor := (l[j]?).toList
  let left (l : List Anchor) : List Anchor := if i = 0 then [] else at_ l (i - 1)
  left row ++ at_ row (i + 1) ++ left above ++ at_ above i ++ at_ above (i + 1)

/-- Regularisation of a row against the row above (R250): the row, and whether it passes. -/
def regularise (row above : List Anchor) (outlier permille : Nat) (pred : Nat → Int × Int) : ARow :=
  let far (a b : Int) : Bool := decide (2 * (outlier : Int) < (2 * a - b).natAbs)
  let idx := (List.range row.length).zip row
  let one := idx.map (fun e =>
    let ns := (neighbours row above e.1).filter (fun a => !a.isWeak)
    if !e.2.isWeak && decide (3 ≤ ns.length) && (far e.2.dx (median2 (ns.map Anchor.dx)) || far e.2.dy (median2 (ns.map Anchor.dy))) then
      { e.2 with flags := Nat.lor e.2.flags 3 }
    else e.2)
  let conf := (one.filter (fun a => !a.isWeak)).length
  let failed := decide (conf * 1000 < permille * row.length)
  let two := ((List.range one.length).zip one).map (fun e =>
    let a : Anchor := e.2
    let b : Anchor := if !a.isWeak then a
      else
        let ns := (neighbours one above e.1).filter (fun x => !x.isWeak)
        if ns.isEmpty then { a with dx := (pred e.1).1, dy := (pred e.1).2 }
        else { a with dx := divRoundAway (ns.map Anchor.dx).sum ns.length, dy := divRoundAway (ns.map Anchor.dy).sum ns.length }
    { b with flags := if failed then Nat.lor b.flags 8 else b.flags })
  { anchors := two, failed := failed }

/-- Where the working area keeps a view's field (R253; the area's layout is a DESIGN CHOICE, log entry 27). -/
def fieldAddr (v buffer : Nat) : Nat := 0x2C90000000 + (2 * v + buffer) * 983040

/-- Where the working area keeps a view's variability map (R264; log entry 27). -/
def varMapAddr (v : Nat) : Nat := 0x2C90000000 + 8 * 983040 + v * 125829120

/-- A field's bytes: every row of the grid (R251, R253). -/
def RField.bytes (f : RField) (rows : Nat) : List Byte :=
  (List.range rows).flatMap (fun k => (f.row k).anchors.flatMap (fun a =>
    leBytes 2 (ofSigned 16 a.dx) ++ leBytes 2 (ofSigned 16 a.dy) ++ [a.score % 256, a.flags % 256, 0, 0]))

/-- A field of a view changes. -/
def State.modField (s : State) (v : Nat) (rep : Nat) (g : RField → RField) : State :=
  s.modReg v (fun x => { x with fields := x.fields.map (fun h => if h.rep = rep then g h else h) })

/-- A completed field is kept in DRAM, once, in the buffer that the field before did not take, and its figures show (R253, R268). -/
def State.finishField (s : State) (v : Nat) (r : Rep) (f : RField) : State :=
  let x := s.reg v
  let all := f.rows.flatMap ARow.anchors
  let n := all.length
  if n = 0 ∨ f.finished then s
  else
    let t := (s.dramWrite (fieldAddr v x.buffer) (f.bytes r.anchorsY)).modReg v (fun y => { y with buffer := 1 - y.buffer })
    let t := t.modField v f.rep (fun h => { h with finished := true })
    let t := ((t.set REG_FIELD_ADDR v (fieldAddr v x.buffer)).set REG_ANCHORS_X v ((f.rows.headD {}).anchors.length)).set REG_ANCHORS_Y v r.anchorsY
    ((t.set REG_CONF_PERMILLE v ((all.filter (fun a => !a.isWeak)).length * 1000 / n)).setInt REG_MEAN_DX v
      (divRoundAway (all.map Anchor.dx).sum n)).setInt REG_MEAN_DY v (divRoundAway (all.map Anchor.dy).sum n)

/-- The row of a field after those it has, measured and regularised (R246 to R250). -/
def State.rowRegular (s : State) (v : Nat) (f : RField) (r : Rep) : ARow :=
  let k := f.first + f.rows.length
  let above := if f.rows.isEmpty then [] else (f.row (k - 1)).anchors
  regularise ((List.range (s.anchorsX v r.grid)).map (fun i => s.measure v r i k (s.predict v f i k))) above (s.get REG_OUTLIER)
    (s.get REG_ROW_MIN_PERMILLE) (fun i => s.predict v f i k)

/-- A field takes a row: a failed one starts a capture, a good one ends it, and the last one finishes the field (R250, R255). -/
def State.rowTaken (s : State) (v : Nat) (r : Rep) (f : RField) (out : ARow) : State :=
  let g := { f with rows := f.rows ++ [out] }
  let t := s.modField v f.rep (fun _ => g)
  let t := if out.failed then (if (s.reg v).capture then t else t.capture v) else t.modReg v (fun x => { x with capture := false })
  if t.fieldDone g then t.finishField v r g else t

/-- The last canvas line that a row's patch needs has left the joiner, or the repeat has closed (R246, R252). -/
def State.rowDue (s : State) (v : Nat) (r : Rep) (k : Nat) : Bool :=
  r.last.isSome || ((s.strip v (r.lineOf (r.grid * k + r.grid / 2 + 31) / 256)).any CStrip.complete)

/-- The row in progress of the oldest unfinished field is taken as `out` makes it of what is measured (R246 to R250), once its lines are
there or `at_` once. -/
def State.regRow (s : State) (v : Nat) (at_ : Bool) (out : ARow → ARow) : State :=
  match (s.reg v).fields.find? (fun f => !s.fieldDone f) with
  | none => s
  | some f =>
    match s.repOf f.rep with
    | none => s
    | some r => if at_ || s.rowDue v r (f.first + f.rows.length) then s.rowTaken v r f (out (s.rowRegular v f r)) else s

/-- The anchor row in progress fails, whatever was measured (R250, R443). -/
def State.regRowFails (s : State) (v : Nat) : State :=
  s.regRow v true (fun a => { a with failed := true, anchors := a.anchors.map (fun x => { x with flags := Nat.lor x.flags 8 }) })

/-- The anchor row that a view measures next, row by row and in repeat order (R246). -/
def State.rowNext (s : State) (v : Nat) : Option Nat :=
  ((s.reg v).fields.find? (fun f => !s.fieldDone f)).map (fun f => f.first + f.rows.length)

/-- REG_ROW_DONE (R246 to R250): the engine has measured an anchor row of a view, the one it measures next; it is frozen in HOLD and
off in DORMANT. -/
def execRegRowDone (dt view row : Nat) (s : State) : Host.Outcome State Fault Refusal :=
  act (decide (view < 4)) dt s fun s =>
    if s.get MODE = 0 ∨ s.get MODE = 5 ∨ s.rowNext view ≠ some row then s else s.regRow view false id

/-- A repeat's coverage record has left: its fields are done with, the last one kept for the next repeat's predictions. -/
def State.dropFields (s : State) (key : Nat) : State :=
  (List.range 4).foldl (fun t v =>
    match t.fieldOf v key with
    | some f =>
      let u := match t.repOf key with
        | some r => t.finishField v r f
        | none => t
      u.modReg v (fun x => { x with
        fields := x.fields.filter (fun g => g.rep != key), prev := if f.rows.isEmpty then x.prev else some f })
    | none => t) s

/-! ## The warp (R254, R255) -/

/-- The displacement of a canvas pixel of a registered line, in 1/16 pixel (R254). -/
def State.warp (s : State) (v : Nat) (r : Rep) (f : RField) (x y : Nat) : Int × Int :=
  let g := r.grid
  let nx := s.anchorsX v g
  let hold (n : Nat) (c : Nat) : Nat × Rat :=
    if 2 * c < g then (0, 0)
    else
      let i := (2 * c - g) / (2 * g)
      if n ≤ i + 1 then (n - 1, 0) else (i, (((2 * c - g) % (2 * g) : Nat) : Rat) / ((2 * g : Nat) : Rat))
  let cu := hold nx x
  let cv := hold r.anchorsY y
  let at_ (k i : Nat) : Anchor := (f.row k).anchors.getD i {}
  let lerp (a b : Int) (t : Rat) : Rat := ((a : Int) : Rat) + (((b - a : Int)) : Rat) * t
  let mix (c : Anchor → Int) : Int :=
    let i2 := min (cu.1 + 1) (nx - 1)
    let k2 := min (cv.1 + 1) (r.anchorsY - 1)
    let a := lerp (c (at_ cv.1 cu.1)) (c (at_ cv.1 i2)) cu.2
    let b := lerp (c (at_ k2 cu.1)) (c (at_ k2 i2)) cu.2
    let m := a + (b - a) * cv.2
    if m < 0 then -((-m + 1 / 2).floor) else (m + 1 / 2).floor
  (mix Anchor.dx, mix Anchor.dy)

/-- A pixel's tolerance class (R257). -/
def State.upClass (s : State) (slot v h x y : Nat) : Nat :=
  let b := s.dramByte (s.upBase slot v h + 4 * s.get VIEW_WIDTH v * h + y * ((s.get VIEW_WIDTH v + 1) / 2) + x / 2)
  if x % 2 = 0 then b % 16 else b / 16

/-- The position the warp reads, in 1/16 pixel, clamped to the underpainting (R255). -/
def warpPos (w h : Nat) (x y : Nat) (d : Int × Int) : Nat × Nat :=
  ((clampInt 0 (16 * ((w : Int) - 1)) (16 * (x : Int) + d.1)).toNat, (clampInt 0 (16 * ((h : Int) - 1)) (16 * (y : Int) + d.2)).toNat)

/-- The reference pixel of a plane under the warp (R255). -/
def State.refPixel (s : State) (v : Nat) (r : Rep) (f : RField) (p x y : Nat) : Nat :=
  let w := s.get VIEW_WIDTH v
  let h := r.height
  let q := warpPos w h x y (s.warp v r f x y)
  let px (i j : Nat) : Nat := s.upPixel (s.upSlot r) v h p (min i (w - 1)) (min j (h - 1))
  let i := q.1 / 16
  let j := q.2 / 16
  let a := q.1 % 16
  let b := q.2 % 16
  ((16 - a) * (16 - b) * px i j + a * (16 - b) * px (i + 1) j + (16 - a) * b * px i (j + 1) + a * b * px (i + 1) (j + 1) + 128) / 256

/-- The tolerance class of a canvas pixel: that of the nearest underpainting pixel (R255). -/
def State.refClass (s : State) (v : Nat) (r : Rep) (f : RField) (x y : Nat) : Nat :=
  let w := s.get VIEW_WIDTH v
  let q := warpPos w r.height x y (s.warp v r f x y)
  s.upClass (s.upSlot r) v r.height (min ((q.1 + 8) / 16) (w - 1)) (min ((q.2 + 8) / 16) (r.height - 1))

/-! ## Register marks (R240 to R242) -/

/-- The mark template of the active job for the view REG_MARK_VIEW names (R260). -/
def State.markTemplate (s : State) : Option (List Byte) := s.web.job.bind (fun p => Package.sec p secMark (s.get REG_MARK_VIEW))

/-- Offsets of a template's pixels from its centre. -/
def templateCells (p : List Byte) : List (Int × Int) :=
  let w := natAt p 0 1
  let h := natAt p 1 1
  (List.range h).flatMap (fun (j : Nat) => (List.range w).map (fun (i : Nat) => ((i : Int) - (w / 2 : Nat), (j : Int) - (h / 2 : Nat))))

/-- The score of a mark template whose centre lies at a view column and canvas line, on plane L; columns outside the view and lines
before the first take the nearest edge (R240; DEDUCED, log entry 175). -/
def State.markScore (s : State) (p : List Byte) (x y : Int) : Int :=
  let v := s.get REG_MARK_VIEW
  ncc ((templateCells p).map (fun d => s.pixel v 0 (y + d.2).toNat (clampInt 0 ((s.get VIEW_WIDTH v : Int) - 1) (x + d.1)).toNat))
    (bytesAt p 16 (natAt p 0 1 * natAt p 1 1))

/-- The canvas line of the best mark on lines from `lo` up to `end_` within the template's cross-web window, if its score reaches the
minimum (R240, R260). -/
def State.markSearch (s : State) (p : List Byte) (lo end_ : Nat) : Option Nat :=
  let c := natAt p 12 2
  let x0 : Int := (natAt p 4 4 : Int) - c
  let all := (List.range (end_ - lo)).flatMap (fun j => (List.range (2 * c + 1)).map (fun (i : Nat) => (lo + j, s.markScore p (x0 + i) (lo + j : Nat))))
  let best := all.foldl (fun (b : Nat × Int) e => if b.2 < e.2 then e else b) (all.headD (0, -(2 ^ 32)))
  if !all.isEmpty && decide ((natAt p 14 1 : Int) * 2 ^ 32 ≤ best.2 * 255) then some best.1 else none

/-- The lines of a template below its centre. -/
def templateTail (p : List Byte) : Nat := natAt p 1 1 - 1 - natAt p 1 1 / 2

/-- The canvas line where a repeat's mark is predicted (R240). -/
def Rep.markLine (r : Rep) (p : List Byte) : Int := (r.first : Int) + natAt p 8 2 - r.phase.getD 0

/-- Repeats whose marks are still to be searched, oldest first. -/
def State.unsearched (s : State) : List Rep :=
  match s.reps.findIdx? (fun r => s.web.sched.searched == some r.key) with
  | some i => s.reps.drop (i + 1)
  | none => s.reps

/-- The repeat-start scheduler changes. -/
def State.modSched (s : State) (f : Sched → Sched) : State := { s with web := { s.web with sched := f s.web.sched } }

/-- The phase is lost: the lines from the last phase-known start on are unregistered (R242). -/
def State.losePhase (s : State) : State :=
  let u := s.set REG_PHASE_STATE 0 0
  match (u.reps.filter (fun r => r.phase.isSome)).getLast? with
  | some r => u.modRep r.key (fun q => { q with unregistered := true })
  | none => u

/-- A mark is not found (R241). With REG_MARK_MISS_MAX misses in a row the phase is unknown, and the lines from the last phase-known
start on are unregistered (R242). -/
def State.markMiss (s : State) : State :=
  let t := s.tally REG_MARK_MISS
  let n := t.web.sched.misses + 1
  let t := t.modSched (fun c => { c with misses := n })
  if n < s.get REG_MARK_MISS_MAX ∨ s.get REG_PHASE_STATE = 0 then t
  else (t.modSched (fun c => { c with actual := none, gap := none, scan := s.get LINE_NUMBER })).losePhase

/-- The web count of a repeat's start when its mark lies at canvas line `n` (R240). -/
def State.markStart (s : State) (p : List Byte) (n : Nat) : Nat := addCount (s.countAt n) (-((s.lineCounts (natAt p 8 2) : Nat) : Int))

/-- The mark of a repeat is found at canvas line `n`: its actual start, the length since the one before, and the error that later anchor
rows allow for (R240). -/
def State.markFound (s : State) (p : List Byte) (r : Rep) (n : Nat) : State :=
  let a := s.markStart p n
  let sc := s.web.sched
  let gap := match sc.actual with
    | some b => if (sc.counted + 1) % 2 ^ 32 = r.number then some (countDiff a b).toNat else none
    | none => none
  let err := countDiff a (r.fixed.getD r.start)
  let t := (s.modSched (fun c => { c with
    actual := some a, gap := gap, length := if gap.isSome then gap else c.length, counted := r.number, misses := 0 })).setInt
      REG_MARK_ERR_COUNTS 0 err
  let d16 := divRoundAway (err * 65536 * 16) (max 1 r.pitch)
  { t with regs := t.regs.map (fun (x : RegView) => { x with
      fields := x.fields.map (fun (f : RField) => if f.rep = r.key then { f with markErr := d16 } else f) }) }

/-- The complete lines of the mark's view from `lo` to `hi` that no gap parts from `lo`: the line after the last. -/
def State.completeTo (s : State) (lo hi : Nat) : Nat :=
  (List.range (hi + 1 - lo)).foldl (fun m i =>
    if m = lo + i ∧ (s.strip (s.get REG_MARK_VIEW) (m / 256)).any CStrip.complete then m + 1 else m) lo

/-- The search while the phase is unknown: every line of a repeat under which the canvas is complete to the template's last row. A mark
acquires the phase; a repeat without one is a miss (R241, R242). -/
def State.searchAll (s : State) (p : List Byte) (r : Rep) : State :=
  let lo := max r.first s.web.sched.scan
  let end_ := max lo (s.completeTo lo (r.last.getD s.lastLine + templateTail p) - templateTail p)
  match s.markSearch p lo end_ with
  | some n => s.modSched (fun c => { c with acquire := some (s.markStart p n), misses := 0, scan := n + 1, searched := some r.key })
  | none =>
    let t := s.modSched (fun c => { c with scan := end_ })
    if r.last.any (fun l => decide (l < end_)) then (t.modSched (fun c => { c with searched := some r.key })).markMiss else t

/-- The search of a repeat of known phase, around its predicted mark, once the canvas is complete to the last row that the template needs, or
the strip of that row is gone (R240, R241). A repeat that opens after the place of its mark
has none to find (DEDUCED, log entry 175). -/
def State.searchOne (s : State) (p : List Byte) (r : Rep) : State :=
  let m := r.markLine p
  let lo := (m - natAt p 10 2).toNat
  let hi := (m + natAt p 10 2).toNat
  let last := hi + templateTail p
  let t := s.modSched (fun c => { c with searched := some r.key })
  if m < r.first then t
  else if !(match s.strip (s.get REG_MARK_VIEW) (last / 256) with
      | some x => x.complete
      | none => decide (256 * (last / 256) + 255 < s.get LINE_NUMBER)) then s
  else
    match s.markSearch p lo (hi + 1) with
    | some n => t.markFound p r n
    | none => t.markMiss

/-- The search of the next repeat ends (R240 to R242). Without a template nothing is found. -/
def State.searchEnds (s : State) : State :=
  match s.unsearched with
  | [] => s
  | r :: _ =>
    match s.markTemplate with
    | none => (s.modSched (fun c => { c with searched := some r.key })).markMiss
    | some p => if s.get REG_PHASE_STATE = 0 ∨ r.phase.isNone then s.searchAll p r else s.searchOne p r

/-! ## Learning (R261 to R267) -/

/-- Views of the active job. -/
def State.jobViews (s : State) : List Nat := Package.views (s.web.job.getD [])

/-- The bands of a view's learning (R263). -/
def State.learnBands (s : State) : Nat :=
  let vs := s.jobViews.filter s.learning
  let need (b : Nat) : Nat := (s.get REG_LEARN_K - 1) * (vs.map (fun v =>
    (s.kept v).length * ((s.get VIEW_WIDTH v + b - 1) / b) * s.get REG_REPEAT_LINES)).sum
  ((List.range 256).map (· + 1)).find? (fun b => decide (need b ≤ 36238786560)) |>.getD 255

/-- The bytes of the sample store that a view's learning takes (R263). -/
def State.storeSize (s : State) (v : Nat) : Nat :=
  let bands := max 1 (s.get REG_LEARN_BANDS v)
  (s.get REG_LEARN_K - 1) * (s.kept v).length * ((s.get VIEW_WIDTH v + bands - 1) / bands) * s.get REG_REPEAT_LINES

/-- A repeat start in MAKEREADY: results that wait become active, and learning begins where it is due (R261, R265). -/
def State.learnAtStart (s : State) (number : Nat) : State :=
  let s1 := (List.range 4).foldl (fun t v =>
    if (t.reg v).ready then ((t.modReg v (fun x => { x with ready := false })).set REG_UP_PRESENT v 1).capture v else t) s
  if s1.get MODE ≠ 2 ∨ s1.get SWITCH_STATE ≠ 0 then s1
  else
    let begun := s1.jobViews.filter (fun v => (s1.reg v).wantLearn || (s1.get REG_UP_PRESENT v == 0 && !s1.learning v))
    let t := begun.foldl (fun t v =>
      ((((t.modReg v (fun x => { x with wantLearn := false, seeded := false, samples := 0, taken := 0, from_ := number })).set REG_LEARN_STATE v 1).set
        REG_LEARN_BAND v 0).set REG_UP_PRESENT v 0)) s1
    let u := begun.foldl (fun u v => u.set REG_LEARN_BANDS v t.learnBands) t
    let others := (List.range 4).filter (fun v => u.learning v && !begun.contains v)
    let free := others.foldl (fun m v => max m ((u.reg v).store + u.storeSize v)) 0
    (begun.foldl (fun (r : State × Nat) v =>
      (r.1.modReg v (fun x => { x with store := r.2 }), r.2 + r.1.storeSize v)) (u, free)).1

/-- Where a view's samples begin in the sample store, and where sample `j` of a kept plane's band does (R262; the store's
layout is a DESIGN CHOICE, log entry 28). -/
def State.sampleAddr (s : State) (v h bands j k x y : Nat) : Nat :=
  let band (u : Nat) : Nat := (s.get VIEW_WIDTH u + bands - 1) / bands
  (1 - s.get REG_SLOT_ACTIVE) * 36238786560 + (s.reg v).store + ((j * (s.kept v).length + k) * h + y) * band v + x

/-- Whether no strip of a repeat is BLIND in a view, but for UNREGISTERED: a view that learns has no reference that its lines could be
registered against (R256, R262; DESIGN CHOICE, log entry 176). -/
def State.cleanRepeat (s : State) (v : Nat) (r : Rep) : Bool :=
  r.last.isSome && !bit r.unclean v &&
    (s.view v).strips.all (fun x => !x.blind || !r.meets (256 * x.num) (256 * x.num + 255))

/-- Bytes written pixel by pixel. -/
def State.fillPixels (s : State) (w h : Nat) (addr : Nat → Nat → Nat) (px : Nat → Nat → Nat) : State :=
  (List.range h).foldl (fun t y => t.dramWrite (addr 0 y) ((List.range w).map (fun x => px x y))) s

/-- The canvas line that stands for a line-in-repeat: that line, or the repeat's nearest. -/
def Rep.near (r : Rep) (y : Nat) : Nat := min (max r.first (r.lineOf y)) (r.last.getD (r.lineOf y))

/-- Lines-in-repeat `y0` to `y1` of the seed: the repeat's planes are written into the view's region of the active slot (R262). -/
def State.seedRows (s : State) (v : Nat) (r : Rep) (y0 n : Nat) : State :=
  let w := s.get VIEW_WIDTH v
  let h := s.get REG_REPEAT_LINES
  let base := s.upBase (s.get REG_SLOT_ACTIVE) v h
  (List.range 4).foldl (fun t p =>
    t.fillPixels w n (fun x y => base + p * w * h + (y0 + y) * w + x) (fun x y => s.pixel v p (r.near (y0 + y)) x)) s

/-- A repeat's sample of an underpainting pixel: the canvas at the position less the displacement there (R262;
DEDUCED, log entry 29). -/
def State.samplePixel (s : State) (v : Nat) (r : Rep) (f : RField) (p x y : Nat) : Nat :=
  let w := s.get VIEW_WIDTH v
  let d := s.warp v r f x y
  let q := warpPos w r.height x y (-d.1, -d.2)
  let px (i j : Nat) : Nat := s.pixel v p (r.near (min j (r.height - 1))) (min i (w - 1))
  let a := q.1 % 16
  let b := q.2 % 16
  let i := q.1 / 16
  let j := q.2 / 16
  ((16 - a) * (16 - b) * px i j + a * (16 - b) * px (i + 1) j + (16 - a) * b * px i (j + 1) + a * b * px (i + 1) (j + 1) + 128) / 256

/-- The median of an odd number of values. -/
def medianOf (l : List Nat) : Nat := (median2 (l.map (fun n => ((n : Nat) : Int))) / 2).toNat

/-- A band with all its samples: medians over the seed, and the variability map (R264). -/
def State.learnBand (s : State) (v band : Nat) : State :=
  let w := s.get VIEW_WIDTH v
  let h := s.get REG_REPEAT_LINES
  let bands := s.get REG_LEARN_BANDS v
  let bw := (w + bands - 1) / bands
  let x0 := band * bw
  let n := min bw (w - x0)
  let slot := s.get REG_SLOT_ACTIVE
  let base := s.upBase slot v h
  let vals (k p x y : Nat) : List Nat :=
    s.upPixel slot v h p (x0 + x) y :: (List.range (s.get REG_LEARN_K - 1)).map (fun j => s.dramByte (s.sampleAddr v h bands j k x y))
  let t := (List.range (s.kept v).length).foldl (fun t k =>
    let p := (s.kept v).getD k 0
    t.fillPixels n h (fun x y => base + p * w * h + y * w + x0 + x) (fun x y => medianOf (vals k p x y))) s
  let spread (x y : Nat) : Nat := let l := vals 0 0 x y; l.foldl max 0 - l.foldl min 255
  let bx := (w + 7) / 8
  (List.range ((h + 7) / 8)).foldl (fun u j => (List.range ((x0 + n + 7) / 8 - x0 / 8)).foldl (fun z i =>
    let c := 8 * (x0 / 8 + i)
    let cols := (List.range 8).filter (fun dx => decide (x0 ≤ c + dx) && decide (c + dx < x0 + n))
    let m := (List.range 8).foldl (fun a dy => cols.foldl (fun b dx =>
      if 8 * j + dy < h then max b (spread (c + dx - x0) (8 * j + dy)) else b) a) 0
    let addr := varMapAddr v + j * bx + x0 / 8 + i
    z.dramWrite addr [if x0 ≤ c then m else max m (z.dramByte addr)]) u) t

/-- A band is complete; after the last one the result waits for the next repeat start (R264, R265). -/
def State.bandDone (s : State) (v : Nat) : State :=
  let band := s.get REG_LEARN_BAND v
  let t := (s.learnBand v band).modReg v (fun x => { x with samples := 0 })
  if band + 1 < t.get REG_LEARN_BANDS v then t.set REG_LEARN_BAND v (band + 1)
  else
    let n := (t.get VIEW_WIDTH v + 7) / 8 * ((t.get REG_REPEAT_LINES + 7) / 8)
    let varying := ((t.dramRead (varMapAddr v) n).filter (fun m => decide (t.get REG_VAR_LIMIT < m))).length
    (((t.set REG_LEARN_VAR_BLOCKS v varying).set REG_VAR_MAP_ADDR v (varMapAddr v)).set REG_LEARN_STATE v 3).modReg v (fun x => { x with ready := true })

/-- Lines-in-repeat `y0` on of a repeat's sample of the band being learnt take their place in the sample store (R262). -/
def State.sampleRows (s : State) (v : Nat) (r : Rep) (f : RField) (y0 n : Nat) : State :=
  let h := s.get REG_REPEAT_LINES
  let bands := s.get REG_LEARN_BANDS v
  let bw := (s.get VIEW_WIDTH v + bands - 1) / bands
  let x0 := s.get REG_LEARN_BAND v * bw
  (List.range (s.kept v).length).foldl (fun t k =>
    t.fillPixels (min bw (s.get VIEW_WIDTH v - x0)) n (fun x y => s.sampleAddr v h bands (s.reg v).samples k x (y0 + y))
      (fun x y => s.samplePixel v r f ((s.kept v).getD k 0) (x0 + x) (y0 + y))) s

/-- Canvas lines up to `to_` of a repeat that a view learns from are taken into the seed or the sample; the first take the lines before
them too. -/
def State.takeRows (s : State) (v : Nat) (r : Rep) (to_ : Nat) : State :=
  let p := r.phase.getD 0
  let from_ := (s.reg v).taken
  let y0 := if from_ ≤ r.first then 0 else from_ - r.first + p
  let y1 := if r.last.any (fun l => decide (l < to_)) then s.get REG_REPEAT_LINES else min (s.get REG_REPEAT_LINES) (to_ - r.first + p)
  let t := s.modReg v (fun x => { x with taken := max from_ to_ })
  if to_ ≤ max from_ r.first ∨ r.phase.isNone ∨ r.key < (s.reg v).from_ then s
  else if s.get REG_LEARN_STATE v = 1 then t.seedRows v r y0 (y1 - y0)
  else if s.get REG_LEARN_STATE v = 2 then
    match s.fieldOf v r.key with
    | some f => t.sampleRows v r f y0 (y1 - y0)
    | none => t
  else s

/-- As a strip is issued, the lines that lie four strips back are taken: those that a displacement reaches are still on the canvas
(R262; DESIGN CHOICE, log entry 176). -/
def State.learnRows (s : State) (v num : Nat) : State :=
  match s.reps with
  | r :: _ => if s.learning v then s.takeRows v r (min (256 * (num - 3)) ((r.last.map (· + 1)).getD (256 * num))) else s
  | [] => s

/-- An accepted repeat's sample counts; the last of a band ends it (R262 to R264). -/
def State.takeSample (s : State) (v : Nat) : State :=
  let j := (s.reg v).samples
  let t := s.modReg v (fun x => { x with samples := j + 1 })
  if j + 1 = s.get REG_LEARN_K - 1 then t.bandDone v else t

/-- The lines of a closed repeat. -/
def Rep.lines (r : Rep) : Nat :=
  match r.last with
  | some l => l + 1 - r.first
  | none => 0

/-- A repeat closes while a view learns: it is the seed, a sample, or rejected (R262). -/
def State.learnView (s : State) (v : Nat) (r : Rep) : State :=
  if !s.learning v || decide (r.key < (s.reg v).from_) then s
  else
    let t := s.takeRows v r ((r.last.map (· + 1)).getD 0)
    if s.get REG_LEARN_STATE v = 1 then
      if r.phase.isSome && decide (s.get REG_REPEAT_LINES ≤ r.lines) && s.cleanRepeat v r then
        (t.set REG_LEARN_STATE v 2).modReg v (fun x => { x with seeded := true, capture := true })
      else t
    else if s.cleanRepeat v r && (List.range r.lines).all (fun i => s.registered v (r.first + i)) then t.takeSample v
    else t.tally REG_LEARN_REJECT

/-- REG_LEARN's write (R261). -/
def State.regLearn (s : State) (via : Path) : State :=
  s.command via REG_LEARN 0 (s.get MODE == 2) (fun t => t.jobViews.foldl (fun u v => u.modReg v (fun x => { x with wantLearn := true })) t)

/-- REG_LEARN (R261). -/
def execRegLearn (dt : Nat) (via : Path) (s : State) : Host.Outcome State Fault Refusal := act true dt s fun s => s.regLearn via

/-- An underpainting section's content for a view, read from the active slot (R258). -/
def State.upSection (s : State) (v : Nat) : List Byte :=
  let w := s.get VIEW_WIDTH v
  let h := s.get REG_REPEAT_LINES
  let base := s.upBase (s.get REG_SLOT_ACTIVE) v h
  let body := (s.kept v).flatMap (fun p => s.dramRead (base + p * w * h) (w * h)) ++ s.dramRead (base + 4 * w * h) ((w + 1) / 2 * h)
  leBytes 4 w ++ leBytes 2 h ++ [s.get VIEW_PLANES v % 8, 0] ++ leBytes 4 (crc32c body) ++ List.replicate 20 0 ++ body

/-- REG_UP_SAVE's write (R45, R267). -/
def State.regUpSave (s : State) (via : Path) : State :=
  let k := REG_UP_SAVE.key 0
  if s.get MODE ≠ 1 ∧ s.get MODE ≠ 2 then s.refuse via k abortMode
  else if s.learningAny then s.refuse via k abortBusy
  else
    s.jobViews.foldl (fun t v =>
      if t.get REG_LEARN_STATE v = 3 ∧ t.get REG_UP_PRESENT v = 1 then
        { t with nv := { t.nv with saved := t.nv.saved.put (t.get ACTIVE_SLOT * 4 + v) (t.upSection v) } }
      else t) s.accept

/-- REG_UP_SAVE (R267). -/
def execRegUpSave (dt : Nat) (via : Path) (s : State) : Host.Outcome State Fault Refusal := act true dt s fun s => s.regUpSave via

/-- REG_CLEAR's effect (R268). -/
def State.regClear (s : State) (via : Path) : State :=
  s.command via REG_CLEAR 0 true (fun t => t.clearAll [REG_START_LATE, REG_MARK_MISS, REG_LEARN_REJECT, REG_UNREG_STRIPS, REG_CAPTURES])

/-- REG_CLEAR (R268). -/
def execRegClear (dt : Nat) (via : Path) (s : State) : Host.Outcome State Fault Refusal := act true dt s fun s => s.regClear via

/-- REG_VIEW_STATE: OFF, CAPTURE, TRACK, LEARNING, NO_REFERENCE (R247, R268). -/
def State.regViewState (s : State) (v : Nat) : Nat :=
  if s.get MODE ≠ 2 ∧ s.get MODE ≠ 3 ∨ !s.jobViews.contains v then 0
  else if s.learning v then 3
  else if s.get REG_UP_PRESENT v = 0 then 4
  else if (s.reg v).capture then 1 else 2

end Sys2Proof.Machine
end

