-- ==== Sys2Proof/Machine/Assembler.lean ====
section
/-! DEFINITION. Machine/Assembler.lean: the defect assembler: fragments become candidates, candidates become records, and
repeats close with their rows, floods and coverage (R322 to R366). -/
namespace Sys2Proof.Machine
open Reg

/-! ## Parts and slices of a strip (R270, R273) -/

/-- A part of a strip: first and last strip row and tide generation. -/
structure Part where
  r0 : Nat
  r1 : Nat
  gen : Nat
  deriving DecidableEq, Repr

/-- The bank image of a tide generation. -/
def State.imageAt (s : State) (g : Nat) : List Byte := tideImage (((s.tide.find? (fun e => e.1 == g)).map Prod.snd).getD [])

/-- The image of the active bank. -/
def State.activeImage (s : State) : List Byte := s.imageAt (s.get TIDE_GENERATION)

/-- The tide generation of a line; a line not triggered has the present one. -/
def State.tideGen (s : State) (n : Nat) : Nat := ((s.lineAt n).map Line.tgen).getD (s.get TIDE_GENERATION)

/-- The parts of a strip: one, and one more after each split whose tide generation differs from the one before it (R273). -/
def State.partsOf (s : State) (n : Nat) : List Part :=
  let cuts := (s.splitsOf n).foldl (fun (acc : List (Nat × Nat)) x =>
    if (acc.getLastD (0, 0)).2 = x.tide then acc else acc ++ [(x.line % 256, x.tide)]) [(0, s.tideGen (256 * n))]
  (cuts.zip ((cuts.drop 1).map Prod.fst ++ [256])).map (fun e => ⟨e.1.1, e.2 - 1, e.1.2⟩)

/-- Slices of a view under a bank image (R270, R285). -/
def State.slicesOf (s : State) (image : List Byte) (v : Nat) : Nat :=
  if s.get VIEW_WIDTH v = 0 ∨ tideWs image v = 0 ∨ !tideEnabled image v then 0
  else (s.get VIEW_WIDTH v + tideWs image v - 1) / tideWs image v

/-- The logical tile of a view's first slice (R270). -/
def State.firstTile (s : State) (image : List Byte) (v : Nat) : Nat := ((List.range v).map (fun u => s.slicesOf image u)).sum

/-- View columns of a slice. -/
def State.sliceCols (s : State) (image : List Byte) (v j : Nat) : Nat × Nat :=
  let ws := tideWs image v
  (ws * j, min (ws * (j + 1)) (s.get VIEW_WIDTH v) - 1)

/-! ## Joining (R323 to R327) -/

/-- Whether part `q` of strip `m` follows part `p` of strip `n` (R324). -/
def State.follows (s : State) (n p m q : Nat) : Bool :=
  (n == m && q == p + 1) || (m == n + 1 && q == 0 && p + 1 == (s.partsOf n).length)

/-- Whether two edges of a view's candidates join. -/
def State.edgeJoins (s : State) (a b : Nat × Nat × Nat × Span) : Bool :=
  let near := decide (a.2.2.2.a ≤ b.2.2.2.b + 1) && decide (b.2.2.2.a ≤ a.2.2.2.b + 1)
  near &&
    ((a.1 == b.1 && a.2.1 == b.2.1 &&
        ((a.2.2.2.edge == 1 && b.2.2.2.edge == 0 && b.2.2.1 == a.2.2.1 + 1) ||
          (b.2.2.2.edge == 1 && a.2.2.2.edge == 0 && a.2.2.1 == b.2.2.1 + 1))) ||
      (a.2.2.2.edge == 3 && b.2.2.2.edge == 2 && s.follows a.1 a.2.1 b.1 b.2.1) ||
      (b.2.2.2.edge == 3 && a.2.2.2.edge == 2 && s.follows b.1 b.2.1 a.1 a.2.1))

/-- Two candidates combined (R326). -/
def Cand.join (a b : Cand) : Cand := {
  view := a.view, x0 := min a.x0 b.x0, x1 := max a.x1 b.x1, y0 := min a.y0 b.y0, y1 := max a.y1 b.y1
  area := a.area + b.area, sumB := a.sumB + b.sumB, sumX := a.sumX + b.sumX, sumY := a.sumY + b.sumY
  maxB := max a.maxB b.maxB, classes := Nat.lor a.classes b.classes, merged := true
  truncated := a.truncated || b.truncated, edges := a.edges ++ b.edges, cascade := a.cascade || b.cascade
  cams := Nat.lor a.cams b.cams, lowFlags := Nat.lor a.lowFlags b.lowFlags, continued := a.continued || b.continued
  closeAt := if a.own == b.own then max a.closeAt b.closeAt else if a.own then a.closeAt else b.closeAt
  own := a.own || b.own }

/-- The candidate a fragment opens (R322, R326): columns of top and bottom spans become view columns. -/
def State.candOf (s : State) (f : Frag) (image : List Byte) : Cand :=
  let shift := (s.sliceCols image f.view f.slice).1
  { view := f.view, x0 := f.x0, x1 := f.x1, y0 := 256 * f.strip + f.r0, y1 := 256 * f.strip + f.r1
    area := f.area, sumB := f.sumB, sumX := f.sumX, sumY := f.sumR + 256 * f.strip * f.area
    maxB := f.maxB, classes := f.classes, truncated := bit f.flags 4
    edges := f.spans.map (fun x => (f.strip, f.part, f.slice, if 2 ≤ x.edge then { x with a := x.a + shift, b := x.b + shift } else x)) }

/-- A fragment opens a candidate or joins those it meets (R322 to R325). -/
def State.addFrag (s : State) (image : List Byte) (f : Frag) : State :=
  let c := s.candOf f image
  let meets (d : Cand) : Bool := d.view == c.view && d.edges.any (fun a => c.edges.any (fun b => s.edgeJoins a b))
  { s with asm := { s.asm with
      cands := s.asm.cands.filter (fun d => !meets d) ++ [(s.asm.cands.filter meets).foldl (fun x d => d.join x) c] } }

/-- Whether a strip of a view may still be analysed (R327). -/
def State.stripPending (s : State) (v n : Nat) : Bool :=
  match s.strip v n with
  | some x => if x.released then x.analysis && !x.left_ else s.analysed n
  | none => decide (((s.view v).strips.getLast?.map CStrip.num).getD 0 < n) && s.analysed n

/-- Whether the task of a place has still to end. -/
def State.taskOpen (s : State) (v n p j : Nat) : Bool :=
  s.stripPending v n && !s.asm.ended.any (fun e => e.view == v && e.strip == n && e.part == p && e.slice == j)

/-- Whether any task of a part whose columns meet a span has still to end. -/
def State.partOpen (s : State) (v n p : Nat) (x : Span) : Bool :=
  match (s.partsOf n)[p]? with
  | none => false
  | some q =>
    let im := s.imageAt q.gen
    (List.range (s.slicesOf im v)).any (fun j =>
      let c := s.sliceCols im v j
      decide (c.1 ≤ x.b + 1) && decide (x.a ≤ c.2 + 1) && s.taskOpen v n p j)

/-- Whether an edge holds its candidate open (R327). -/
def State.edgeOpen (s : State) (v : Nat) (e : Nat × Nat × Nat × Span) : Bool :=
  let n := e.1
  let p := e.2.1
  let j := e.2.2.1
  let x := e.2.2.2
  let im := s.imageAt (((s.partsOf n)[p]?.map Part.gen).getD 0)
  if x.edge = 0 then decide (0 < j) && s.taskOpen v n p (j - 1)
  else if x.edge = 1 then decide (j + 1 < s.slicesOf im v) && s.taskOpen v n p (j + 1)
  else if x.edge = 2 then
    if 0 < p then s.partOpen v n (p - 1) x
    else if n = 0 then false
    else s.partOpen v (n - 1) ((s.partsOf (n - 1)).length - 1) x
  else if p + 1 < (s.partsOf n).length then s.partOpen v n (p + 1) x
  else s.partOpen v (n + 1) 0 x

/-- Whether a candidate is open. -/
def State.candOpen (s : State) (c : Cand) : Bool := c.edges.any (s.edgeOpen c.view)

/-! ## Features and rules (R333 to R339, R341) -/

/-- The features and positions of a candidate. -/
structure Feat where
  mean : Nat
  crossUm : Nat
  downUm : Int
  item : Option Nat
  low : Nat
  cams : Nat
  deriving DecidableEq, Repr

/-- A quotient of naturals to the nearest integer, ties away from zero; 0 for a zero divisor. -/
def divNearest (a b : Nat) : Nat := if b = 0 then 0 else (2 * a + b) / (2 * b)

/-- The in-repeat centroid (R339). -/
def State.downUm (s : State) (r : Rep) (c : Cand) : Int :=
  if c.area = 0 then 0
  else
    let l0 := c.sumY / c.area
    r.um (addCount (s.countAt l0) ((divNearest (c.sumY % c.area * r.pitch) (c.area * 65536) : Nat) : Int))

/-- The item that holds a position in a view (R29, R341). -/
def itemAt (is : List Item) (v x : Nat) (y : Int) : Option Nat :=
  is.findIdx? (fun i => bit i.views v && decide (i.x0 ≤ x) && decide (x < i.x1) && decide ((i.y0 : Int) ≤ y) && decide (y < (i.y1 : Int)))

/-- Flags-low of a candidate (R345): its strips' flags, SEAM, MERGED, CASCADE and what a partner's candidate brought. -/
def State.lowOf (s : State) (c : Cand) : Nat :=
  Nat.lor (Nat.lor (s.flagsOver c.view c.y0 c.y1) c.lowFlags)
    ((if s.meetsSeam c.view c.x0 c.x1 then 32 else 0) + (if c.merged then 64 else 0) + (if c.cascade then 256 else 0))

/-- A candidate's features. -/
def State.feat (s : State) (r : Rep) (c : Cand) : Feat :=
  let x := s.crossUm c.view c.sumX c.area
  let y := s.downUm r c
  { mean := divNearest c.sumB c.area, crossUm := x, downUm := y
    item := if r.phase.isSome then itemAt (s.itemsOf r) c.view x y else none
    low := s.lowOf c, cams := Nat.lor c.cams (s.camsMeeting c.view c.x0 c.x1) }

/-- The value of a feature code (R333). -/
def State.feature (s : State) (r : Rep) (c : Cand) (f : Feat) (code : Nat) : Nat :=
  let w := c.x1 + 1 - c.x0
  let h := c.y1 + 1 - c.y0
  min 0xFFFFFFFF
    (match code with
      | 1 => c.area
      | 2 => w
      | 3 => h
      | 4 => c.maxB
      | 5 => f.mean
      | 6 => c.classes
      | 7 => divNearest (1000 * c.area) (w * h)
      | 8 => divNearest (16 * max w h) (min w h)
      | 9 => c.view
      | 10 => b2n (bit f.low 5)
      | 11 => f.crossUm
      | 12 => if f.downUm < 2 ^ 32 then ofSigned 32 f.downUm else 0xFFFFFFFF
      | 13 => f.cams
      | 14 => divNearest (c.area * s.get VIEW_PITCH_UM c.view * (r.pitch * r.clen)) (1000 * 2 ^ 48)
      | 15 => match f.item with
        | some i => ((s.itemsOf r)[i]?.map Item.column).getD 0xFF
        | none => 0xFF
      | _ => 0)

/-- A condition of a rule (R335). -/
def condHolds (op a v : Nat) : Bool :=
  if op = 0 then a == v
  else if op = 1 then a != v
  else if op = 2 then decide (a < v)
  else if op = 3 then decide (a ≤ v)
  else if op = 4 then decide (v < a)
  else if op = 5 then decide (v ≤ a)
  else if op = 6 then Nat.land a v != 0
  else Nat.land a v == 0

/-- A classification: class, severity, action (0 REPORT, 1 REJECT, 2 SUPPRESS), crop, and whether by default. -/
structure Verdict where
  cls : Nat
  severity : Nat
  action : Nat
  crop : Bool
  byDefault : Bool
  deriving DecidableEq, Repr

/-- The first rule whose conditions all hold, or the defaults (R336). -/
def classify (rules : List Byte) (feature : Nat → Nat) : Verdict :=
  let holds (i : Nat) : Bool := (List.range 8).all (fun n =>
    let o := 32 + 64 * i + 6 * n
    natAt rules o 1 == 0 || condHolds (natAt rules (o + 1) 1) (feature (natAt rules o 1)) (natAt rules (o + 2) 4))
  match (List.range (natAt rules 0 2)).find? holds with
  | some i =>
    let o := 16 + 64 * i
    ⟨natAt rules o 1, natAt rules (o + 1) 1, natAt rules (o + 2) 1, bit (natAt rules (o + 3) 1) 0, false⟩
  | none => ⟨natAt rules 2 1, natAt rules 3 1, natAt rules 4 1, bit (natAt rules 5 1) 0, true⟩

/-! ## Marking (R357 to R360) -/

/-- An item's firings are queued on the enabled markers of its mask; whether any was (R357, R358, R363). -/
def State.fireItem (s : State) (r : Rep) (i : Item) : State × Bool :=
  (List.range 16).foldl (fun acc m =>
    if bit i.markers m ∧ acc.1.get MARK_ENABLE m = 1 then
      let um : Int := (i.y0 : Int) + toSigned 32 (r.get MARK_SHIFT_UM m) + (acc.1.get MARK_HEAD_OFFSET_UM m : Int)
      let x := acc.1.queueFiring m (addCount r.start (umToCounts um r.clen))
      (x.1, acc.2 || x.2)
    else acc) (s, false)

/-- An item is rejected in a repeat (R358, R359): at the first rejection its firings are queued, in INSPECT. -/
def State.rejectItem (s : State) (key idx : Nat) : State :=
  match (s.reps ++ s.web.done).find? (fun r => r.key == key) with
  | none => s
  | some r =>
    match (s.itemsOf r)[idx]? with
    | none => s
    | some i =>
      if r.rejected.contains idx then s
      else
        let t := ((s.modRep key (fun x => { x with rejected := x.rejected ++ [idx] })).volume DEF_REJECT_ITEMS 0).emit 0xB8
        if r.mode = 3 then
          let x := t.fireItem r i
          if x.2 then x.1.modRep key (fun y => { y with marked := y.marked ++ [idx] }) else x.1
        else t

/-- Whether an item of a repeat has a firing queued. -/
def State.isMarked (s : State) (key : Nat) (item : Option Nat) : Bool :=
  match item, (s.reps ++ s.web.done).find? (fun r => r.key == key) with
  | some i, some r => r.marked.contains i
  | _, _ => false

/-! ## Crops (R353 to R356) -/

/-- One side of a crop: the box widened and clipped, or 2,048 centred on the centroid, moved only as far as the view's edges ask (R353;
DEDUCED, log entry 200). -/
def cropSide (a b margin limit centre : Nat) : Nat × Nat :=
  let lo := a - margin
  let hi := min (b + margin) limit
  if hi + 1 - lo ≤ 2048 then (lo, hi + 1 - lo) else (min (centre - 1024) (limit - 2047), 2048)

/-- The next crop handle; 0xFFFF_FFFF is skipped (R354). -/
def nextHandle (n : Nat) : Nat := if n + 1 = 0xFFFFFFFF then 0 else n + 1

/-- A crop is requested: the handle, and the holds of its strips (R353, R354, R356). A strip reclaimed already evicts it. -/
def State.requestCrop (s : State) (r : Rep) (c : Cand) (id : Nat) : State × Nat :=
  let r' := ((s.reps ++ s.web.done).find? (fun x => x.key == r.key)).getD r
  if r.get DEF_CROP_MAX_PER_REPEAT ≤ r'.crops then (s.tally CROP_SKIPPED, 0xFFFFFFFF)
  else
    let m := r.get DEF_CROP_MARGIN
    let xs := cropSide c.x0 c.x1 m (s.get VIEW_WIDTH c.view - 1) (if c.area = 0 then c.x0 else c.sumX / c.area)
    let ys := cropSide c.y0 c.y1 m (2 ^ 64) (if c.area = 0 then c.y0 else c.sumY / c.area)
    let h := s.asm.cropSeq
    let crop : Crop := { handle := h, record := id, view := c.view, y0 := ys.1, x0 := xs.1, w := xs.2, h := ys.2 }
    let newest := ((s.view c.view).strips.getLast?.map CStrip.num).getD 0
    let crop := { crop with evicted := crop.strips.any (fun n => (s.strip c.view n).isNone && decide (n ≤ newest)) }
    let t := crop.strips.foldl (fun u n => u.modStrip c.view n (fun x => { x with crops := x.crops ++ [h] })) s
    (({ t with asm := { t.asm with crops := t.asm.crops ++ [crop], cropSeq := nextHandle h } }).modRep r.key
      (fun x => { x with crops := x.crops + 1 }), h)

/-! ## Emission (R337, R343 to R350) -/

/-- The record of a candidate. -/
def State.candRec (s : State) (r : Rep) (c : Cand) (f : Feat) (cls severity high crop : Nat) : Rec := {
  view := c.view, line := c.y0, count := s.countAt c.y0, item := f.item.getD 0xFFFF, at24 := f.crossUm, at28 := ofSigned 32 f.downUm
  w := c.x1 + 1 - c.x0, h := c.y1 + 1 - c.y0, area := c.area, high := high + b2n (r.mode == 2), cams := f.cams
  cls := cls, severity := severity, maxD := c.maxB, meanD := f.mean, low := f.low, crop := crop }

/-- The place of a flood record: its first column and first line (R350). -/
def State.floodPlace (s : State) (r : Rep) (v x0 y0 : Nat) (d : Rec) : Rec :=
  { d with typ := 3, at24 := s.crossUm v x0 1, at28 := ofSigned 32 (r.um (s.countAt y0)), low := Nat.lor d.low 128 }

/-- A record of a repeat's view leaves; flood records are counted (R351). -/
def State.defectRecord (s : State) (r : Rep) (v : Nat) (d : Rec) : State :=
  let t := s.modRep r.key (fun x => { x with
    defects := modifyAt x.defects v (· + 1), floods := if d.typ = 3 then modifyAt x.floods v (· + 1) else x.floods })
  (if d.typ = 3 then t.tally DEF_FLOOD_RECORDS else t).emitRecord false (fun id => t.recBytes id r d)

/-- A flood candidate's record (R329, R350); no rule gives it a severity. -/
def State.emitFloodCand (s : State) (r : Rep) (c : Cand) (continued : Bool) : State :=
  let f := s.feat r c
  let act := r.get DEF_FLOOD_ACTION
  let touched := (s.itemsOf r).zipIdx.filter (fun i => s.itemMeets r c.view c.x0 c.x1 c.y0 c.y1 i.1)
  let t := if act = 1 then touched.foldl (fun u i => u.rejectItem r.key i.2) s else s
  let high := 8 * b2n continued + 4 * b2n (t.isMarked r.key f.item) + 2 * b2n (act == 1)
  t.defectRecord r c.view (t.floodPlace r c.view c.x0 c.y0 (t.candRec r c f (r.get DEF_FLOOD_CLASS) (Config.floodSeverity % 256) high 1))

/-- A candidate beyond the flood limit joins its strip's summary (R349, R350). -/
def State.addFlood (s : State) (r : Rep) (c : Cand) (f : Feat) (v : Verdict) : State :=
  let n := c.y0 / 256
  let mine (x : Flood) : Bool := x.view == c.view && x.strip == n && x.rep == r.key
  let up (x : Flood) : Flood :=
    let higher := decide (x.severity < v.severity)
    { x with count := x.count + 1, x0 := min x.x0 c.x0, x1 := max x.x1 c.x1, y0 := min x.y0 c.y0, y1 := max x.y1 c.y1
             area := x.area + c.area, sumB := x.sumB + c.sumB, sumX := x.sumX + c.sumX, sumY := x.sumY + c.sumY
             maxB := max x.maxB c.maxB, cls := if higher then v.cls else x.cls, severity := max x.severity v.severity
             rejects := x.rejects || v.action == 1, lowFlags := Nat.lor x.lowFlags f.low, cams := Nat.lor x.cams f.cams }
  if s.asm.floods.any mine then
    { s with asm := { s.asm with floods := s.asm.floods.map (fun x => if mine x then up x else x) } }
  else
    let x : Flood := {
      view := c.view, strip := n, rep := r.key, count := 1, x0 := c.x0, x1 := c.x1, y0 := c.y0, y1 := c.y1, area := c.area
      sumB := c.sumB, maxB := c.maxB, cls := v.cls, severity := v.severity, sumX := c.sumX, sumY := c.sumY
      rejects := v.action == 1, lowFlags := f.low, cams := f.cams }
    { s with asm := { s.asm with floods := s.asm.floods ++ [x] } }

/-- A classified candidate is emitted, summarised or suppressed (R336, R337, R349). -/
def State.emitCand (s : State) (c : Cand) (continued : Bool) : State :=
  match s.repAtDone c.y0 with
  | none => s
  | some r =>
    if c.truncated then s.emitFloodCand r c continued
    else
      let f := s.feat r c
      let v := classify (((s.jobOf r).sec secRules 0).getD []) (s.feature r c f)
      let s1 := if v.byDefault then s.tally DEF_DEFAULT_HITS else s
      if v.action = 2 then s1.tally DEF_SUPPRESSED
      else
        let s2 := if v.action = 1 then
            (match f.item with
              | some i => s1.rejectItem r.key i
              | none => s1)
          else s1
        let now := ((s2.reps ++ s2.web.done).find? (fun x => x.key == r.key)).getD r
        if r.get DEF_FLOOD_LIMIT ≤ now.defects.getD c.view 0 - now.floods.getD c.view 0 then s2.addFlood r c f v
        else
          let x := if v.crop then s2.requestCrop r c (s2.get DEF_NEXT_ID) else (s2, 0xFFFFFFFF)
          let high := 8 * b2n continued + 4 * b2n (x.1.isMarked r.key f.item) + 2 * b2n (v.action == 1)
          x.1.defectRecord r c.view (x.1.candRec r c f v.cls v.severity high x.2)

/-! ## The cascade boundary (R330 to R332) -/

/-- The FRAGMENT payload of a candidate (R330). -/
def State.fragmentPayload (s : State) (c : Cand) : List Byte :=
  leBytes 8 c.y0 ++ leBytes 4 (c.y1 + 1 - c.y0) ++ [c.view, b2n c.truncated] ++ leBytes 2 c.classes ++ leBytes 4 c.x0 ++
    leBytes 4 c.x1 ++ leBytes 4 c.area ++ leBytes 2 c.maxB ++ leBytes 2 (s.camsMeeting c.view c.x0 c.x1) ++ leBytes 8 c.sumB ++
    leBytes 8 c.sumX ++ leBytes 8 (c.sumY - c.y0 * c.area) ++
    leBytes 2 (Nat.lor (s.lowOf c % 256) (128 * b2n c.truncated)) ++ List.replicate 6 0

/-- The candidate a FRAGMENT payload describes, in the PRIMARY's columns (R330). -/
def State.candOfPayload (s : State) (p : List Byte) : Cand :=
  let v := natAt p 12 1
  let d := s.get VIEW_WIDTH v - s.get VIEW_CASCADE_OVERLAP v
  let y0 := natAt p 0 8
  let area := natAt p 24 4
  { view := v, x0 := natAt p 16 4 + d, x1 := natAt p 20 4 + d, y0 := y0, y1 := y0 + natAt p 8 4 - 1, area := area
    sumB := natAt p 32 8, sumX := natAt p 40 8 + d * area, sumY := natAt p 48 8 + y0 * area, maxB := natAt p 28 2
    classes := natAt p 14 2, truncated := bit (natAt p 13 1) 0, cascade := true, own := false
    cams := natAt p 30 2, lowFlags := natAt p 56 2 }

/-- Whether two boxes meet or touch (R331). -/
def Cand.near (a b : Cand) : Bool :=
  a.view == b.view && decide (a.x0 ≤ b.x1 + 1) && decide (b.x0 ≤ a.x1 + 1) && decide (a.y0 ≤ b.y1 + 1) && decide (b.y0 ≤ a.y1 + 1)

/-- Whether two boxes share a pixel. -/
def Cand.meets (a b : Cand) : Bool :=
  a.view == b.view && decide (a.x0 ≤ b.x1) && decide (b.x0 ≤ a.x1) && decide (a.y0 ≤ b.y1) && decide (b.y0 ≤ a.y1)

/-- A received candidate against the waiting ones it meets: dropped, or joined (R331). -/
def State.mergeReceived (s : State) (d : Cand) (hit : Cand → Bool) : State :=
  let hits := s.asm.waiting.filter hit
  let inside := decide (d.x1 < s.get VIEW_WIDTH d.view) && hits.any (fun c => c.own && c.meets d)
  if inside then s
  else
    { s with asm := { s.asm with
        waiting := s.asm.waiting.filter (fun c => !hit c) ++ [hits.foldl (fun x c => c.join x) d] } }

/-- One of the PRIMARY's own candidates begins its wait; received ones that wait and that it meets join it. -/
def State.beginWait (s : State) (c : Cand) : State :=
  let c := { c with closeAt := s.now + s.get DEF_CASCADE_WAIT_MS * 1000000 }
  let got (d : Cand) : Bool := !d.own && c.near d
  let inside (d : Cand) : Bool := decide (s.get VIEW_WIDTH c.view - s.get VIEW_CASCADE_OVERLAP c.view ≤ d.x0) && decide (d.x1 < s.get VIEW_WIDTH c.view) && c.meets d
  let hits := s.asm.waiting.filter got
  { s with asm := { s.asm with
      waiting := s.asm.waiting.filter (fun d => !got d) ++ [(hits.filter (fun d => !inside d)).foldl (fun x d => x.join d) c] } }

/-- A candidate closes or is cut (R327, R328, R330, R331). -/
def State.closeCand (s : State) (c : Cand) (continued : Bool) : State :=
  let t := s.volume DEF_CANDIDATES 0
  let ov := t.get VIEW_CASCADE_OVERLAP c.view
  if t.isSecondary ∧ t.get VIEW_CASCADE c.view = 2 ∧ c.x0 < ov then t.sendFrame 2 (t.fragmentPayload c)
  else if t.isPrimary ∧ t.get VIEW_CASCADE c.view = 1 ∧ t.get VIEW_WIDTH c.view - ov ≤ c.x1 then t.beginWait { c with continued := continued }
  else t.emitCand c continued

/-! ## Areas -/

/-- The length of the union of half-open intervals that rise by their start. -/
def unionLength : Int → List (Int × Int) → Int
  | _, [] => 0
  | at_, (a, b) :: r => max 0 (b - max a at_) + unionLength (max at_ b) r

/-- An interval in its place by start. -/
def insertPair (p : Int × Int) : List (Int × Int) → List (Int × Int)
  | [] => [p]
  | q :: r => if p.1 ≤ q.1 then p :: q :: r else q :: insertPair p r

/-- The area of the union of half-open boxes (x0, x1, y0, y1). -/
def unionArea (bs : List (Int × Int × Int × Int)) : Int :=
  let ys := (sortInts (bs.flatMap (fun b => [b.2.2.1, b.2.2.2]))).eraseDups
  ((ys.zip (ys.drop 1)).map (fun e =>
    let here := (bs.filter (fun b => decide (b.2.2.1 ≤ e.1) && decide (e.2 ≤ b.2.2.2))).map (fun b => (b.1, b.2.1))
    let row := here.foldl (fun l p => insertPair p l) []
    unionLength ((row.head?.map Prod.fst).getD 0) row * (e.2 - e.1))).sum

/-! ## Item rows (R342, R358, R364, R365) -/

/-- The bitmap objects take a publication, which holds for REJECT_HOLD_US (R364, R365). -/
def State.putReject (s : State) (p : Pub) : State :=
  let t := (((s.set REJECT_BITMAP 0 p.word).set REJECT_REPEAT 0 p.rep).set REJECT_ROW 0 p.row).set REJECT_SEQ 0 p.seq
  { t with reject := { t.reject with holdUntil := t.now + t.get REJECT_HOLD_US * 1000 } }.emit 0xB9

/-- A publication: at once, queued, or dropped (R364, R365). -/
def State.publish (s : State) (word rep row : Nat) : State :=
  let p : Pub := ⟨word, rep, row, s.reject.nextSeq⟩
  let t := { s with reject := { s.reject with nextSeq := (s.reject.nextSeq + 1) % 65536 } }
  if t.reject.queue.isEmpty ∧ t.reject.holdUntil ≤ t.now then t.putReject p
  else if t.reject.queue.length < 16 then { t with reject := { t.reject with queue := t.reject.queue ++ [p] } }
  else t.tally REJECT_QUEUE_DROP

/-- The blind boxes of a repeat that meet an item, clipped to it, in 1/131,072 µm across and 2^-33 µm along. -/
def State.itemBlind (s : State) (r : Rep) (v : Nat) (i : Item) : Int :=
  let p : Int := s.get VIEW_PITCH_UM v
  unionArea ((s.asm.rects.filter (fun b => b.view == v && b.rep == r.key && s.itemMeets r v b.x0 b.x1 b.y0 b.y1 i)).map (fun b =>
    (max ((2 * (b.x0 : Int) - 1) * p) ((i.x0 : Int) * 131072), min ((2 * (b.x1 : Int) + 1) * p) ((i.x1 : Int) * 131072),
      max (countDiff (s.countAt b.y0) r.start * r.clen * 131072 - (r.pitch * r.clen : Nat)) ((i.y0 : Int) * 2 ^ 33),
      min (countDiff (s.countAt b.y1) r.start * r.clen * 131072 + (r.pitch * r.clen : Nat)) ((i.y1 : Int) * 2 ^ 33))))

/-- Whether the blind policy marks an item (R54; the area is taken over the item's views of the job, DEDUCED, log entry 31; a preset policy
above 2 marks as FRACTION, DESIGN CHOICE, log entry 172). -/
def State.blindMarks (s : State) (r : Rep) (i : Item) : Bool :=
  let vs := (Package.views (s.jobOf r)).filter (fun v => bit i.views v)
  if r.get BLIND_POLICY = 0 then false
  else if r.get BLIND_POLICY = 1 then
    vs.any (fun v => s.asm.rects.any (fun b => b.view == v && b.rep == r.key && s.itemMeets r v b.x0 b.x1 b.y0 b.y1 i))
  else
    let area : Int := ((i.x1 - i.x0) * 131072 * ((i.y1 - i.y0) * 2 ^ 33) : Nat)
    decide (area * vs.length * (r.get BLIND_MARK_PERMILLE : Int) < 1000 * (vs.map (fun v => s.itemBlind r v i)).sum)

/-- Whether a strip of a view has left the assembler, or holds nothing it waits for. -/
def State.stripLeft (s : State) (v n : Nat) : Bool :=
  match s.strip v n with
  | some x => x.left_
  | none => true

/-- Whether a strip has left in every view that is assembled. -/
def State.allLeft (s : State) (n : Nat) : Bool := (List.range 4).all (fun v => s.viewState v != 1 || s.stripLeft v n)

/-- The lines of a repeat's row as far as they are known, and whether no later line can join them (R342). -/
def State.rowLines (s : State) (r : Rep) (y0 y1 : Nat) : List Nat × Bool :=
  let ls := s.trig.lines.filter (fun l => r.has l.num)
  let pos (l : Line) : Int := countDiff l.count r.start * r.clen
  ((ls.filter (fun l => decide ((y0 : Int) * 65536 ≤ pos l) && decide (pos l < (y1 : Int) * 65536))).map Line.num,
    r.last.isSome || ls.any (fun l => decide ((y1 : Int) * 65536 ≤ pos l)))

/-- Whether an item row closes (R342). -/
def State.rowDone (s : State) (r : Rep) (is : List Item) : Bool :=
  let x := s.rowLines r (is.foldl (fun m i => min m i.y0) ((is.head?.map Item.y0).getD 0)) (is.foldl (fun m i => max m i.y1) 0)
  let strips := (x.1.map (· / 256)).eraseDups
  x.2 && strips.all s.allLeft && !s.asm.cands.any (fun c => strips.contains (c.y0 / 256))

/-- An item row closes: the blind policy, then its publication in INSPECT (R54, R358, R364). -/
def State.closeRow (s : State) (r : Rep) (row : Nat) : State :=
  let is := (s.itemsOf r).zipIdx.filter (fun i => i.1.row == row)
  let t := (is.filter (fun i => s.blindMarks r i.1)).foldl (fun u i => u.rejectItem r.key i.2) s
  let t := t.modRep r.key (fun x => { x with rows := x.rows ++ [row] })
  let rejected := ((t.repOf r.key).map Rep.rejected).getD []
  let word := (is.filter (fun i => rejected.contains i.2)).foldl (fun m i => setBit m i.1.column true) 0
  if r.mode = 3 ∧ t.get MODE ≠ 2 then t.publish word r.number row else t

/-- The rows of a repeat that have items and have not closed. -/
def State.openRows (s : State) (r : Rep) : List Nat :=
  (((s.itemsOf r).map Item.row).eraseDups).filter (fun row => !r.rows.contains row)

/-- Every row that closes does, in the order of the repeats and of the rows' last lines (R342). A repeat of unknown phase has
no positions and no rows. -/
def State.closeRows (s : State) : State :=
  s.reps.foldl (fun t r =>
    if r.phase.isNone then t
    else
      let is := t.itemsOf r
      let due := (t.openRows r).filter (fun row => t.rowDone r (is.filter (fun i => i.row == row)))
      let far (row : Nat) : Nat := (is.filter (fun i => i.row == row)).foldl (fun m i => max m i.y1) 0
      (due.foldl (fun l x => insertPair ((far x : Nat), (x : Nat)) l) []).foldl (fun u x =>
        u.closeRow ((u.repOf r.key).getD r) x.2.toNat) t) s

/-! ## Floods and coverage (R36, R349 to R351) -/

/-- Summaries whose strip can have no further candidate leave (R349). -/
def State.emitFloods (s : State) : State :=
  let due (x : Flood) : Bool := s.stripLeft x.view x.strip &&
    !(s.asm.cands ++ s.asm.waiting).any (fun c => c.view == x.view && c.y0 / 256 == x.strip)
  let t := { s with asm := { s.asm with floods := s.asm.floods.filter (fun x => !due x) } }
  (s.asm.floods.filter due).foldl (fun u x =>
    match (u.reps ++ u.web.done).find? (fun r => r.key == x.rep) with
    | none => u
    | some r =>
      let c : Cand := {
        view := x.view, x0 := x.x0, x1 := x.x1, y0 := x.y0, y1 := x.y1, area := x.area, sumB := x.sumB, sumX := x.sumX
        sumY := x.sumY, maxB := x.maxB, cams := x.cams, lowFlags := x.lowFlags }
      let f := u.feat r c
      let high := 4 * b2n (u.isMarked r.key f.item) + 2 * b2n x.rejects
      u.defectRecord r x.view (u.floodPlace r x.view x.x0 x.y0 (u.candRec r c f x.cls x.severity high x.count))) t

/-- The blind part of a view's repeat area in 1/255, rounded up (R351). -/
def State.blindShare (s : State) (r : Rep) (lines v : Nat) : Nat :=
  let bs := (s.asm.rects.filter (fun b => b.view == v && b.rep == r.key)).map (fun b =>
    (((b.x0 : Nat) : Int), ((b.x1 + 1 : Nat) : Int), ((b.y0 : Nat) : Int), ((b.y1 + 1 : Nat) : Int)))
  let all := s.get VIEW_WIDTH v * lines
  if all = 0 then 0 else min 255 (((unionArea bs).toNat * 255 + all - 1) / all)

/-- The bytes of a coverage record (R351). -/
def State.coverageBytes (s : State) (id : Nat) (r : Rep) : List Byte :=
  let lines := (r.last.getD r.first) + 1 - r.first
  let views := (Package.views (s.jobOf r)).foldl (fun m v => setBit m v true) 0
  let four (l : List Nat) : List Byte := (List.range 4).flatMap (fun v => leBytes 2 (min 0xFFFF (l.getD v 0)))
  leBytes 8 id ++ leBytes 8 (s.countAt r.first) ++ leBytes 4 r.number ++ leBytes 2 r.epoch ++ leBytes 2 0xFFFF ++ four r.defects ++
    four r.blinds ++ [2, views * 16 + b2n (r.mode == 2)] ++ leBytes 2 r.cams ++ [0, 0] ++ leBytes 2 lines ++
    leBytes 2 (r.phase.getD 0xFFFF) ++ leBytes 2 r.flags ++ s.stamps r.first ++
    (List.range 4).map (fun v => s.blindShare r lines v)

/-- A repeat's coverage record leaves, with everything kept for the repeat (R36, R262). -/
def State.cover (s : State) (r : Rep) : State :=
  let s1 := s.closeRects (fun b => b.rep == r.key)
  let r1 := (s1.repOf r.key).getD r
  let s2 := s1.emitRecord true (fun id => s1.coverageBytes id r1)
  let s3 := (List.range 4).foldl (fun t v => t.learnView v r1) s2
  let s4 := s3.dropFields r.key
  { s4 with
    asm := { s4.asm with rects := s4.asm.rects.filter (fun b => b.rep != r.key) }
    web := { s4.web with
      closing := s4.web.closing.filter (fun x => x.key != r.key)
      done := r1 :: s4.web.done
      blindLast := (List.range 4).any (fun v => s1.blindShare r1 ((r1.last.getD r1.first) + 1 - r1.first) v != 0) } }

/-- Whether a repeat can close (R36): its strips have left, its candidates and summaries are out, and its rows have closed (R342). -/
def State.canCover (s : State) (r : Rep) : Bool :=
  match r.last with
  | none => false
  | some l =>
    (r.phase.isNone || (s.openRows r).isEmpty) && (List.range (l / 256 + 1 - r.first / 256)).all (fun i => s.allLeft (r.first / 256 + i)) &&
      !(s.asm.cands ++ s.asm.waiting).any (fun c => r.has c.y0) && !s.asm.floods.any (fun x => x.rep == r.key)

/-- Coverage records leave in repeat order (R36). -/
def State.coverAll (s : State) : Nat → State
  | 0 => s
  | n + 1 =>
    match s.web.closing with
    | r :: _ => if s.canCover r then (s.cover r).coverAll n else s
    | [] => s

/-- SWITCHING ends when the last strip that holds lines of the old job has left (R50); the old job's content is kept while
a repeat of it is still in work. -/
def State.switchDone (s : State) : State :=
  let t := if s.get SWITCH_STATE = 4 ∧ (s.get SWITCH_LINE = 0 ∨ s.allLeft ((s.get SWITCH_LINE - 1) / 256)) then
      (s.set SWITCH_STATE 0 0).traceRec 7 66 (s.get SWITCH_RESULT) (s.get SWITCH_LINE) (s.get JOB_STAMP)
    else s
  if t.get SWITCH_STATE ≠ 4 ∧ !t.reps.any (fun r => r.stamp != t.get JOB_STAMP) then { t with web := { t.web with oldJob := none } } else t

/-! ## Strips leave; the assembler settles -/

/-- Whether every task of a strip has ended. -/
def State.stripEnded (s : State) (v : Nat) (x : CStrip) : Bool :=
  x.issued && (s.partsOf x.num).zipIdx.all (fun p =>
    (List.range (s.slicesOf (s.imageAt p.1.gen) v)).all (fun j =>
      s.asm.ended.any (fun e => e.view == v && e.strip == x.num && e.part == p.2 && e.slice == j)))

/-- A strip leaves the assembler: its ANALYSIS hold ends, and rectangles that no later line can extend close. -/
def State.leaveStrip (s : State) (v : Nat) (x : CStrip) : State :=
  let t := (s.modStrip v x.num (fun y => { y with left_ := true, analysis := false })).noteStrip v x
  let t := t.modView v (fun w => { w with leftTo := some x.num })
  let t := { t with asm := { t.asm with ended := t.asm.ended.filter (fun e => !(e.view == v && e.strip == x.num)) } }
  t.closeRects (fun b => b.view == v && decide (b.y1 < 256 * x.num + 255))

/-- Strips whose tasks have all ended leave. -/
def State.leaveStrips (s : State) : State :=
  (List.range 4).foldl (fun t v =>
    (t.view v).strips.foldl (fun u x => if x.released && !x.left_ && u.stripEnded v x then u.leaveStrip v x else u) t) s

/-- Candidates that no edge holds open close; those too long are cut (R327, R328; "reach" counts strips after the first
line's, DEDUCED, log entry 32). -/
def State.closeCands (s : State) : State :=
  let isCut (c : Cand) : Bool := decide (c.y0 / 256 + s.get DEF_MAX_OPEN_STRIPS ≤ c.y1 / 256)
  let shut := s.asm.cands.filter (fun c => !s.candOpen c)
  let cut := s.asm.cands.filter (fun c => s.candOpen c && isCut c)
  let t := { s with asm := { s.asm with cands := s.asm.cands.filter (fun c => s.candOpen c && !isCut c) } }
  cut.foldl (fun u c => (u.tally DEF_CUT).closeCand c true) (shut.foldl (fun u c => u.closeCand c false) t)

/-- Everything the assembler can finish in its present state is finished, in the order records must leave. -/
def State.asmSettle (s : State) : State :=
  let t := s.closeCands.leaveStrips.emitFloods.closeRows
  (t.coverAll t.web.closing.length).switchDone

/-! ## Commands -/

/-- FRAGMENT_FRAME (R330 to R332): a SECONDARY's candidate reaches the PRIMARY. -/
def execFragmentFrame (dt : Nat) (frame : List Nat) (s : State) : Host.Outcome State Fault Refusal :=
  act true dt s fun s =>
    match s.takeFrame 2 frame with
    | (t, none) => t
    | (t, some p) =>
      let d := t.candOfPayload p
      if !t.isPrimary || decide (4 ≤ d.view) || t.get VIEW_CASCADE d.view != 1 || t.get MODE == 5 || t.get MODE == 0 then t
      else
        let late := t.asm.expired.any (fun e => d.near { view := e.1, x0 := e.2.1, x1 := e.2.2.1, y0 := e.2.2.2.1, y1 := e.2.2.2.2 })
        if t.asm.waiting.any (fun c => c.own && c.near d) then t.mergeReceived d (fun c => c.near d)
        else if late then ((t.tally CASCADE_MERGE_LATE).emitCand d false).asmSettle
        else
          let e := { d with closeAt := t.now + t.get DEF_CASCADE_WAIT_MS * 1000000 }
          { t with asm := { t.asm with waiting := t.asm.waiting ++ [e] } }

/-- DEF_CASCADE_WAIT (R331): the wait of candidates at the cascade boundary expires; it is frozen in HOLD. -/
def execDefCascadeWait (dt : Nat) (s : State) : Host.Outcome State Fault Refusal :=
  act true dt s fun s =>
    if s.get MODE = 5 then s
    else
      let due := s.asm.waiting.filter (fun c => decide (c.closeAt ≤ s.now))
      let t := { s with asm := { s.asm with
        waiting := s.asm.waiting.filter (fun c => !decide (c.closeAt ≤ s.now))
        expired := (due.filter (fun (c : Cand) => c.own)).map (fun (c : Cand) => (c.view, c.x0, c.x1, c.y0, c.y1)) ++ s.asm.expired } }
      (due.foldl (fun (u : State) (c : Cand) => u.emitCand c c.continued) t).asmSettle

/-- REJECT_HOLD_END (R365): the present publication has held long enough, and the next one follows. -/
def execRejectHoldEnd (dt : Nat) (s : State) : Host.Outcome State Fault Refusal :=
  act true dt s fun s =>
    match s.reject.queue with
    | [] => s
    | p :: q => if s.reject.holdUntil ≤ s.now then { s with reject := { s.reject with queue := q } }.putReject p else s

/-- The tallies of the chapter (R366). -/
def defTallies : List Obj :=
  [DEF_SUPPRESSED, DEF_CUT, CASCADE_MERGE_LATE, DEF_DEFAULT_HITS, CROP_SKIPPED, REJECT_QUEUE_DROP, CROP_EVICTED, DEF_FLOOD_RECORDS,
   MARK_LATE, MARK_QUEUE_FULL, MARK_ON_LIMIT]

/-- DEF_CLEAR's effect (R366). -/
def State.defClear (s : State) (via : Path) : State := s.command via DEF_CLEAR 0 true (fun t => t.clearAll defTallies)

/-- DEF_CLEAR (R366). -/
def execDefClear (dt : Nat) (via : Path) (s : State) : Host.Outcome State Fault Refusal := act true dt s fun s => s.defClear via

end Sys2Proof.Machine
end

