-- ==== Sys2Proof/Machine/Bays.lean ====
section
/-! DEFINITION. Machine/Bays.lean: camera bays, serial lanes, lane slices, loopbacks and the cascade link's control
frames (R84 to R119). -/
namespace Sys2Proof.Machine
open Reg

/-! ## Lanes and bays -/

/-- The record of lane `l` (quad * 4 + connector lane). -/
def State.lane (s : State) (l : Nat) : Lane := s.lanes.getD l {}

/-- The state with the record of a lane changed. -/
def State.modLane (s : State) (l : Nat) (f : Lane → Lane) : State := { s with lanes := modifyAt s.lanes l f }

/-- The record of bay `b`. -/
def State.bay (s : State) (b : Nat) : Bay := s.bays.getD b {}

/-- The state with the record of a bay changed. -/
def State.modBay (s : State) (b : Nat) (f : Bay → Bay) : State := { s with bays := modifyAt s.bays b f }

/-- The record of a quad. -/
def State.quad (s : State) (q : Nat) : Quad := s.quads.getD q {}

/-- The state with the record of a quad changed. -/
def State.modQuad (s : State) (q : Nat) (f : Quad → Quad) : State := { s with quads := modifyAt s.quads q f }

/-- Whether a quad's lanes use the lock sequence: Camera Link HS bays and the cascade port (R88). -/
def State.lockSequence (s : State) (q : Nat) : Bool := q == 12 || s.get BAY_LINK_TYPE q == 2

/-- Whether a quad is configured: a bay of a type other than NONE, or the cascade port enabled (R104). -/
def State.quadUsed (s : State) (q : Nat) : Bool :=
  if q = 12 then s.get CASCADE_ENABLE == 1 else s.get BAY_LINK_TYPE q != 0

/-- BAY_LANES_UP follows the ACTIVE lanes. -/
def State.lanesUp (s : State) (q : Nat) : State :=
  s.set BAY_LANES_UP q ((List.range 4).foldl (fun m j => if s.get LANE_STATE (4 * q + j) = 8 then m + 2 ^ j else m) 0)

/-- A lane enters a state now. -/
def State.laneTo (s : State) (l state : Nat) : State :=
  (s.set LANE_STATE l state).modLane l (fun x => { x with since := s.now })

/-- The result object of a quad's bring-up (R104, R119). -/
def State.quadResult (s : State) (q code : Nat) : State :=
  if q = 12 then s.set CASCADE_RESULT 0 code else s.set BAY_RESULT q code

/-- A quad goes DOWN: the bay's lines are late from now on, BAY_DOWN fires and its emergency goes out; the cascade
link is down (R98, R111). -/
def State.quadDown (s : State) (q : Nat) : State :=
  if q = 12 then { s.set BAY_STATE 12 3 with cascade := { s.cascade with down := true, exchanged := false } }
  else if s.get BAY_STATE q = 3 then s
  else ((((s.set BAY_STATE q 3).modBay q (fun b => { b with step := 0 })).emit (0xA3 + q)).emcy 0xFF04 q).ptNext q

/-- Bring-up of a quad ends with a result other than OK: the failed lanes read FAILED (R104). -/
def State.bringupFails (s : State) (q code : Nat) : State :=
  let t := (List.range 4).foldl (fun u j =>
    if u.get LANE_STATE (4 * q + j) = 0 ∨ u.get LANE_STATE (4 * q + j) = 8 then u else u.set LANE_STATE (4 * q + j) 9) s
  ((t.quadResult q code).lanesUp q).quadDown q

/-- Bring-up of a bay ends OK: the bay is UP, and pairing starts with the first line after it (R105, R136). -/
def State.bringupOk (s : State) (q : Nat) : State :=
  let t := ((s.quadResult q 0).lanesUp q).set BAY_STATE q 2
  if q = 12 then { t with cascade := { t.cascade with down := false } }
  else (t.modBay q (fun b => { b with
    step := 0, pairLine := none, tagOf := none, await := b.await.filter (fun l => !l.replaced), delivered := false })).ptNext q

/-- A lane's receiver without block lock. -/
def Lane.unlocked (x : Lane) : Lane :=
  { x with blockLock := false, validRun := 0, recent := [], alignSeq := none, alignAt := none, rxq := [] }

/-- Whether PoCXP may feed a bay (R69, R93): a CoaXPress bay that enables it, outside DORMANT and outside a HOLD entered from it
unless the bay is coming up, and not shut down. -/
def State.pocxpOn (s : State) (b : Nat) : Bool :=
  s.get BAY_LINK_TYPE b == 1 && s.get BAY_POCXP_ENABLE b == 1 && (!s.asDormant || s.get BAY_STATE b == 1) && !(s.bay b).pocxpOff

/-- PoCXP powers each connection of a bay on which a device was found, while it may (R93). -/
def State.pocxpFeed (s : State) (b : Nat) : State :=
  if s.pocxpOn b then s.modBay b (fun x => { x with powered := x.devices })
  else (s.modBay b (fun x => { x with powered := [] })).set BAY_POCXP_MW b 0

/-- Bring-up of a bay starts anew; on which connections of a CoaXPress bay PoCXP devices are found then is free (R93, R105 step 1; log
entry 193). -/
def State.bayStart (s : State) (q n : Nat) : State :=
  let f := s.fresh
  ((f.2.set BAY_SPEED q 0xFF).modBay q (fun b => { b with
    step := if s.get BAY_LINK_TYPE q = 1 then 1 else 4, stepAt := s.now, entryAt := s.now, discAt := none, cam := none
    pocxpOff := false, devices := (List.range 4).filter (Config.pocxpDevice f.1), master := none, tagged := false, highUp := false
    writes := [], rate := s.get BAY_CXP_MAX_SPEED q, targets := List.range n, locked := [] })).pocxpFeed q

/-- Bring-up of a quad starts: its lanes enter DETECT, and PoCXP is on where a device is found (R93, R104, R105, R107). The cascade's
transmitters start; the sequence number expected next stays what it was (DESIGN CHOICE, log entry 189). -/
def State.bringupStart (s : State) (q : Nat) : State :=
  let n := if q = 12 then 4 else if s.get BAY_LINK_TYPE q = 2 ∧ s.get BAY_CONNECTIONS q ≠ 0 then s.get BAY_CONNECTIONS q else 4
  let t := (((List.range 4).foldl (fun u j =>
    (u.laneTo (4 * q + j) (if j < n then 1 else 0)).modLane (4 * q + j) (fun x => { x.unlocked with
      attempts := 0, relock := false, onSpare := false, signal := false })) s).lanesUp q).set BAY_STATE q 1
  if q = 12 then { t with cascade := { t.cascade with
      exchanged := false, down := true, txFrom := s.now, txSent := 0, rxBuf := none } }
  else t.bayStart q n

/-- BAY_RETRY's write (R104, R111): accepted in READY. -/
def State.bayRetry (s : State) (via : Path) (b : Nat) : State :=
  s.command via BAY_RETRY b (s.get MODE == 1) (fun t => if t.quadUsed b then t.bringupStart b else t)

/-- BAY_RETRY (R104, R111). -/
def execBayRetry (dt : Nat) (via : Path) (bay : Nat) (s : State) : Host.Outcome State Fault Refusal :=
  act (decide (bay < 12)) dt s fun s => s.bayRetry via bay

/-- A write to a bootstrap register of a bay's camera (R92). -/
def State.bootWrite (s : State) (b : Nat) (w : BootWrite) : State := s.modBay b (fun x => { x with writes := w :: x.writes })

/-- CXP_SIGNAL_DETECT (R93, R105, step 2): a connector lane in DETECT shows a signal within 6 s of step 1, and whether its connection
has a PoCXP device. -/
def execCxpSignalDetect (dt bay : Nat) (signal : CxpSignal) (s : State) : Host.Outcome State Fault Refusal :=
  act (decide (bay < 12) && decide (signal.lane < 4)) dt s fun s =>
    let lane := signal.lane
    let b := s.bay bay
    if (b.step == 1 || b.step == 2) && s.get LANE_STATE (4 * bay + lane) == 1 && decide (s.now ≤ b.entryAt + 6000000000) then
      ((s.laneTo (4 * bay + lane) 2).modBay bay (fun x => { x with
        step := 2, stepAt := if b.step = 1 then s.now else b.stepAt, discAt := some (b.discAt.getD s.now)
        devices := if signal.pocxp then insertNat lane x.devices else x.devices.filter (· != lane) })).pocxpFeed bay
    else s

/-- Whether a camera's revision has the features that the standard's revision 2.0 brought: CXP-10 and CXP-12, the high-speed upconnection,
and control packets with tag (R90; which revision has which is PRESUMED, log entry 155). -/
def modernCamera (c : CxpCamera) : Bool := decide (0x20000 ≤ c.revision)

/-- The connection that a lane in DISCOVERY was found to be (R91). -/
def State.connOf (s : State) (bay : Nat) (c : CxpCamera) (j : Nat) : Option Nat :=
  if s.get LANE_STATE (4 * bay + j) = 2 then c.connIds.getD j none else none

/-- Connections are mapped on the lanes that show a signal, and the lane of connection 0 is the master's (R90, R91, R105 steps 3 and 4).
No feature beyond the camera's revision is used. -/
def State.connMapped (s : State) (bay : Nat) (c : CxpCamera) : State :=
  let t := (List.range 4).foldl (fun u j => u.set LANE_CONN_ID (4 * bay + j) ((s.connOf bay c j).getD 0xFF)) s
  match (List.range 4).find? (fun j => s.connOf bay c j == some 0) with
  | some m => (t.modBay bay (fun x => { x with
      master := some m, tagged := c.tagged && modernCamera c
      highUp := c.highUplink && modernCamera c && s.get BAY_UPLINK bay == 1 })).bootWrite bay (.masterHostConnectionId m)
  | none => t

/-- The target lanes enter STEP_UP (R105 step 5). -/
def State.stepUpStart (s : State) (bay : Nat) (c : CxpCamera) (rate n : Nat) (targets : List Nat) : State :=
  ((targets.foldl (fun u j => u.laneTo (4 * bay + j) 3) s).bootWrite bay (.connectionConfig rate n)).modBay bay (fun x => { x with
    step := 3, stepAt := s.now, cam := some c, rate := rate, targets := targets })

/-- What the read bootstrap registers lead to (R90, R91, R105 steps 3 to 5). -/
def State.discovered (s : State) (bay : Nat) (c : CxpCamera) : State :=
  let want := s.get BAY_CONNECTIONS bay
  let n := if want = 0 then c.connections else want
  let rate := min (if modernCamera c then c.maxRate else min 4 c.maxRate) (s.bay bay).rate
  let t := s.connMapped bay c
  let targets := (List.range 4).filter (fun j =>
    match s.connOf bay c j with
    | some i => decide (i < n)
    | none => false)
  if c.connections < n then t.bringupFails bay 4
  else if rate < s.get BAY_CXP_MIN_SPEED bay then t.bringupFails bay 3
  else if targets.length < n then t.bringupFails bay 4
  else t.stepUpStart bay c rate n targets

/-- CXP_DISCOVERY_DONE (R90, R91, R105 steps 3 to 5): within 200 ms of the first lane in DISCOVERY the bootstrap registers have
been read; they could not be, or too late, or the camera reports a revision below 1.1 (log entry 155). -/
def State.discoveryDone (s : State) (bay : Nat) (cam : Option CxpCamera) : State :=
  let b := s.bay bay
  if b.step ≠ 2 then s
  else
    match cam with
    | none => (s.tally BAY_CTRL_TIMEOUT bay).bringupFails bay 2
    | some c =>
      if b.discAt.getD s.now + 200000000 < s.now ∨ c.revision < 0x10001 then s.bringupFails bay 2 else s.discovered bay c

/-- CXP_STEP_UP_LOCK (R105 step 6): every target lane locked at the target rate within 50 ms. A lane that is no target reads OFF then
(DESIGN CHOICE, log entry 190). -/
def execCxpStepUpLock (dt bay : Nat) (s : State) : Host.Outcome State Fault Refusal :=
  act (decide (bay < 12)) dt s fun s =>
    let b := s.bay bay
    if b.step = 3 ∧ s.now ≤ b.stepAt + 50000000 then
      let t := b.targets.foldl (fun u j => u.laneTo (4 * bay + j) 8) s
      let t := (List.range 4).foldl (fun u j => if b.targets.contains j then u else u.set LANE_STATE (4 * bay + j) 0) t
      ((t.bootWrite bay (.streamPacketSizeMax (s.get BAY_PACKET_SIZE_MAX bay))).set BAY_SPEED bay b.rate).bringupOk bay
    else s

/-- CXP_STEP_UP_TIMEOUT (R106): a target lane did not lock within 50 ms; after a ConnectionReset the next lower rate is tried
from step 2 on, whose limit still runs from step 1. -/
def State.stepUpTimeout (s : State) (bay : Nat) : State :=
  let b := s.bay bay
  if b.step ≠ 3 ∨ s.now < b.stepAt + 50000000 then s
  else if b.rate ≤ s.get BAY_CXP_MIN_SPEED bay then (s.bootWrite bay .connectionReset).bringupFails bay 3
  else
    let t := (List.range 4).foldl (fun u j => u.laneTo (4 * bay + j) 1) (s.bootWrite bay .connectionReset)
    t.modBay bay (fun x => { x with step := 1, stepAt := s.now, discAt := none, rate := b.rate - 1 })

/-- The limit of a lane state in ns (R107). -/
def laneLimit : Nat → Nat
  | 1 => 6000000000
  | 4 => 20000000
  | 5 => 1000000
  | 6 => 1000000
  | 7 => 10000000
  | _ => 0

/-- The Camera Link HS bay is UP once its exchange is done and every target lane has reached EXCHANGE. -/
def State.clhsReady (s : State) (bay : Nat) : State :=
  let b := s.bay bay
  if b.cam.isSome && b.targets.all (fun j => s.get LANE_STATE (4 * bay + j) == 7) then
    (b.targets.foldl (fun u j => u.laneTo (4 * bay + j) 8) s).bringupOk bay
  else s

/-! ## Block lock, deskew and relock (R97, R99, R103, R107, R109) -/

/-- Whether every lane of a lock-sequence quad that takes part has block lock; a lane of a camera that shows no signal takes no part, since
the camera reports its lanes only in the exchange (R94, R107; DEDUCED, log entry 191). -/
def State.blocksLocked (s : State) (quad : Nat) : Bool :=
  (List.range 4).all (fun j =>
    let st := s.get LANE_STATE (4 * quad + j)
    st == 0 || st == 9 || st == 10 || (st == 1 && quad != 12) || (s.lane (4 * quad + j)).blockLock)

/-- Whether the cascade's lanes are deskewed: their ALIGN blocks of one round came within 32 blocks of one another (R97, R99; 32
blocks last 2,112 bits at 26.5625 Gbaud; DEDUCED, log entry 156). -/
def State.deskewed (s : State) : Bool :=
  (List.range 4).all (fun i => (List.range 4).all (fun j =>
    match (s.lane (48 + i)).alignSeq, (s.lane (48 + j)).alignSeq, (s.lane (48 + i)).alignAt, (s.lane (48 + j)).alignAt with
    | some a, some b, some x, some y => a == b && decide ((x - y) * 265625 ≤ 21120000)
    | _, _, _, _ => false))

/-- Whether the BLOCK_LOCK step of a lock-sequence quad may end (R107 step 4). -/
def State.blockStepOver (s : State) (quad : Nat) : Bool := s.blocksLocked quad && (quad != 12 || s.deskewed)

/-- A relocking lane is ACTIVE again (R109). -/
def State.relocked (s : State) (quad l : Nat) : State :=
  ((s.laneTo l 8).modLane l (fun x => { x with relock := false, onSpare := false, attempts := 0 })).lanesUp quad

/-- A CONTROL frame of the cascade: its length counts the message, and the padding of R97 follows (R97, R100; DEDUCED, log entry 189). -/
def State.sendControl (s : State) (payload : List Byte) : State := s.sendFrame 4 payload

/-- Whether the cascade port is in its EXCHANGE step. -/
def State.exchanging (s : State) : Bool := (List.range 4).all (fun j => s.get LANE_STATE (48 + j) == 7)

/-- This module's capability message (R100); the lane map is the identity, stripe lane j on connector lane j (DESIGN CHOICE,
log entry 153). -/
def State.capability (s : State) : List Byte :=
  [1, 1, s.get CASCADE_ROLE, 0xE4] ++ leBytes 4 (s.get FW_REVISION) ++ leBytes 4 (s.get MODULE_SERIAL) ++ List.replicate 12 0

/-- A cascade lane enters EXCHANGE; when the last one does, this module sends its capability frame, once per exchange (R96,
R100). -/
def State.exchangeStep (s : State) (l : Nat) : State :=
  let t := s.laneTo l 7
  if t.exchanging then t.sendControl t.capability else t

/-- LANE_STEP_DONE (R107): a lane of a lock-sequence quad completes its step within its limit. -/
def State.laneStepDone (s : State) (quad lane lanesOffered : Nat) : State :=
  let l := 4 * quad + lane
  let st := s.get LANE_STATE l
  if !s.lockSequence quad || decide ((s.lane l).since + laneLimit st < s.now) then s
  else
    match st with
    | 1 => s.laneTo l 4
    | 4 => s.laneTo l 5
    | 5 => s.laneTo l 6
    | 6 =>
      if !s.blockStepOver quad then s
      else if (s.lane l).relock then s.relocked quad l
      else if quad = 12 then s.exchangeStep l else (s.laneTo l 7).clhsReady quad
    | 7 =>
      if quad = 12 ∨ lane ≠ 0 then s
      else
        let want := s.get BAY_CONNECTIONS quad
        if want ≠ 0 ∧ lanesOffered < want then s.bringupFails quad 4
        else
          let n := if want = 0 then lanesOffered else want
          let t := (List.range 4).foldl (fun u j => if j < n then u else u.set LANE_STATE (4 * quad + j) 0) s
          (t.modBay quad (fun b => { b with
            cam := some { maxRate := 0, connections := lanesOffered, highUplink := false, connIds := [] }, targets := (List.range 4).filter (fun j => decide (j < n)) })).clhsReady quad
    | _ => s

/-- LANE_STEP_TIMEOUT (R105, R107): a lane exceeds the limit of its step during bring-up. -/
def State.laneStepTimeout (s : State) (quad lane : Nat) : State :=
  let l := 4 * quad + lane
  let st := s.get LANE_STATE l
  let x := s.lane l
  if x.relock || !(st == 1 || st == 4 || st == 5 || st == 6 || st == 7) then s
  else if !s.lockSequence quad then
    if st = 1 ∧ (s.bay quad).step = 1 ∧ (s.bay quad).entryAt + 6000000000 ≤ s.now then s.bringupFails quad 1 else s
  else if s.now < x.since + laneLimit st then s
  else
    let n := x.attempts + 1
    let t := ((s.tally LANE_RETRAIN l).laneTo l 1).modLane l (fun y => { y with attempts := n })
    if s.get BAY_RETRAIN_MAX quad ≤ n then
      (t.set LANE_STATE l 9).bringupFails quad (if st = 1 then 1 else if st = 7 then 6 else 5)
    else t

/-! ## Loss of lock and slices (R109 to R114) -/

/-- A relock attempt begins: a CoaXPress lane from BIT_LOCK, a lock-sequence lane from TRAIN (R109). -/
def State.relock (s : State) (quad l : Nat) : State :=
  ((s.laneTo l (if s.lockSequence quad then 4 else 5)).modLane l (fun x => { x.unlocked with relock := true })).lanesUp quad

/-- The lowest SPARE slice of a quad. -/
def State.spareSlice (s : State) (quad : Nat) : Option Nat := lowest 5 (fun i => s.get SLICE_STATE (5 * quad + i) == 1)

/-- A spare slice takes a connector lane: routed, in use, its running check abandoned (R109, R629). -/
def State.routeSlice (s : State) (quad l slice : Nat) : State :=
  ((s.set LANE_SLICE l slice).setUnit 2 (5 * quad + slice) 0).modQuad quad (fun q =>
    { q with check := if (q.check.map Prod.fst) = some slice then none else q.check, stopped := q.stopped.filter (· != slice) })

/-- A lane has failed for good: FAILED, its quad DOWN with a result (R110). -/
def State.laneFailed (s : State) (quad l code : Nat) : State :=
  ((((s.laneTo l 9).modLane l (fun x => { x with relock := false })).quadResult quad code).lanesUp quad).quadDown quad

/-- The slice that serves a lane is declared dead and the quad's spare takes over, with no mark of its own, or the bay goes DOWN (R109,
R110, R112). -/
def State.sliceDead (s : State) (quad l : Nat) : State :=
  let t := s.declareDead 2 (5 * quad + s.get LANE_SLICE l)
  match t.spareSlice quad with
  | some i => ((t.routeSlice quad l i).modLane l (fun x => { x with attempts := 0, onSpare := true, marked := false })).relock quad l
  | none => t.laneFailed quad l 8

/-- LANE_LOCK_LOSS (R109): an ACTIVE lane loses lock. -/
def execLaneLockLoss (dt quad lane : Nat) (s : State) : Host.Outcome State Fault Refusal :=
  act (decide (quad < 13) && decide (lane < 4)) dt s fun s =>
    let l := 4 * quad + lane
    if s.get LANE_STATE l ≠ 8 then s
    else ((s.tally LANE_LOCK_LOSS l).modLane l (fun x => { x with attempts := 0, onSpare := false })).relock quad l

/-- LANE_RETRAIN_FAIL (R109, R110): a relock attempt exceeds its limit. -/
def State.laneRetrainFail (s : State) (quad lane : Nat) : State :=
  let l := 4 * quad + lane
  let x := s.lane l
  if !x.relock || decide (s.now < x.since + laneLimit (s.get LANE_STATE l)) then s
  else
    let n := x.attempts + 1
    let t := (s.tally LANE_RETRAIN l).modLane l (fun y => { y with attempts := n })
    if n < s.get BAY_RETRAIN_MAX quad then t.relock quad l
    else if x.onSpare then t.laneFailed quad l 5
    else t.sliceDead quad l

/-- LANE_RETRAIN_DONE (R109): a relocking lane locks within the limit of its last step and is ACTIVE again: a CoaXPress lane in
BIT_LOCK, a lock-sequence lane in BLOCK_LOCK. -/
def execLaneRetrainDone (dt quad lane : Nat) (s : State) : Host.Outcome State Fault Refusal :=
  act (decide (quad < 13) && decide (lane < 4)) dt s fun s =>
    let l := 4 * quad + lane
    let x := s.lane l
    let st := s.get LANE_STATE l
    if x.relock && decide (s.now ≤ x.since + laneLimit st) &&
        (if s.lockSequence quad then st == 6 && s.blockStepOver quad else st == 5) then s.relocked quad l
    else s

/-- An ACTIVE lane that lost lock starts its first relock attempt; in bring-up and in a relock the attempts go on (R107, R109). -/
def State.lockLost (s : State) (quad l : Nat) : State :=
  if s.get LANE_STATE l = 8 then (s.modLane l (fun x => { x with attempts := 0, onSpare := false })).relock quad l else s

/-- A lane leaves block lock, tallied; an ACTIVE one relocks (R99, R103, R109). -/
def State.blockLost (s : State) (quad l : Nat) : State :=
  ((s.tally LANE_LOCK_LOSS l).modLane l Lane.unlocked).lockLost quad l

/-- The receiver slips its framing by one bit and searches again (R103). -/
def Lane.slipped (x : Lane) : Lane := { x with slip := (x.slip + 1) % 66, validRun := 0 }

/-- One sync header of a 64b/66b lane: 0b01 and 0b10 are valid; 64 valid in a row give block lock, and 16 invalid among
64 lose it (R101, R103). While the receiver searches, an invalid header slips it too (DEDUCED, log entry 157). -/
def State.syncHeader (s : State) (quad l h : Nat) : State :=
  let ok := h == 1 || h == 2
  let x := s.lane l
  let recent := (ok :: x.recent).take 64
  let t := if ok then s else s.tally LANE_CODE_ERR l
  if x.blockLock then
    if 16 ≤ (recent.filter (fun b => !b)).length then (t.blockLost quad l).modLane l Lane.slipped
    else t.modLane l (fun y => { y with recent := recent })
  else if !ok then t.modLane l Lane.slipped
  else if 64 ≤ x.validRun + 1 then t.modLane l (fun y => { y with blockLock := true, validRun := 0, recent := [] })
  else t.modLane l (fun y => { y with validRun := x.validRun + 1 })

/-- An ALIGN block on a lane of the cascade port; out of order, every lane of the port leaves block lock (R99). -/
def State.alignBlock (s : State) (lane seq : Nat) : State :=
  let l := 48 + lane
  let ok := match (s.lane l).alignSeq with
    | some e => e == seq % 65536
    | none => true
  if ok then s.modLane l (fun x => { x with alignSeq := some ((seq + 1) % 65536), alignAt := some s.now })
  else (List.range 4).foldl (fun t j => t.blockLost 12 (48 + j)) s

/-- A control block of the cascade, as descrambled: an ALIGN block aligns, and a type that R99 does not list is tallied. -/
def State.linkControl (s : State) (lane payload : Nat) : State :=
  match payload % 256 with
  | 0x1E => s
  | 0x33 => s
  | 0x87 => s
  | 0x4B => s.alignBlock lane (payload / 2 ^ 16 % 2 ^ 16)
  | _ => s.tally LANE_CODE_ERR (48 + lane)

/-- The cascade's receiver takes a block of the striped stream: START begins a frame, a data block brings eight of its bytes, and TERMINATE
ends it with the number in the last (R97, R99). -/
def Cascade.takeBlock (c : Cascade) (header payload : Nat) : Cascade :=
  if header = 1 then { c with rxBuf := c.rxBuf.map (fun b => b ++ leBytes 8 payload) }
  else
    match payload % 256 with
    | 0x33 => { c with rxBuf := some [] }
    | 0x87 => { c with
        rxFrames := match c.rxBuf with
          | some b => (b.take (b.length + payload / 256 % 256 - 8) :: c.rxFrames).take 16
          | none => c.rxFrames
        rxBuf := none }
    | _ => c

/-- Blocks of the striped stream are taken in order, stripe lane 0 first, as far as every lane has brought its own (R97, R99). -/
def State.takeRound (s : State) : Nat → State
  | 0 => s
  | n + 1 =>
    let heads := (List.range 4).filterMap (fun j => (s.lane (48 + j)).rxq.head?)
    if heads.length < 4 then s
    else
      State.takeRound { s with
        lanes := (List.range 4).foldl (fun ls j => modifyAt ls (48 + j) (fun x => { x with rxq := x.rxq.drop 1 })) s.lanes
        cascade := heads.foldl (fun c e => c.takeBlock e.1 e.2) s.cascade } n

/-- A block of the cascade's striped stream arrives on a lane that is aligned, and waits for those of the other lanes (R97, R99). -/
def State.stripeBlock (s : State) (lane header payload : Nat) : State :=
  if (s.lane (48 + lane)).alignSeq.isNone ∨ (header = 2 ∧ payload % 256 = 0x4B) then s
  else
    (s.modLane (48 + lane) (fun x => { x with rxq := (x.rxq ++ [(header, payload)]).take 64 })).takeRound 64

/-- A block arrives on a 64b/66b lane: its header is judged, its payload descrambled, and with block lock a block of Marlith Link is
taken (R97, R99, R101 to R103). -/
def State.rxBlock (s : State) (quad lane w : Nat) : State :=
  let l := 4 * quad + lane
  let r := descramble 64 (s.lane l).rxScr (w / 4 % 2 ^ 64)
  let t := (s.modLane l (fun x => { x with rxScr := r.2 })).syncHeader quad l (w % 4)
  if quad = 12 ∧ (w % 4 = 1 ∨ w % 4 = 2) ∧ (t.lane l).blockLock = true then
    (if w % 4 = 2 then t.linkControl lane r.1 else t).stripeBlock lane (w % 4) r.1
  else t

/-- Data of a slice that no longer serves the lane, or of an epoch that has ended, is stale (R113). -/
def State.sliceStale (s : State) (quad lane slice epoch : Nat) : Bool :=
  slice != s.get LANE_SLICE (4 * quad + lane) || epoch != s.get SLICE_EPOCH (5 * quad + slice)

/-- A quarantined slice that still delivers is stopped; a spare one goes to quarantine (R113). -/
def State.staleSlice (s : State) (b slice : Nat) : State :=
  let t := s.tally LANE_STALE_RESULT b
  if t.get SLICE_STATE (5 * b + slice) = 0 then t
  else
    let u := t.modQuad b (fun q => { q with stopped := insertNat slice q.stopped })
    if u.get SLICE_STATE (5 * b + slice) = 1 then u.setUnit 2 (5 * b + slice) 2 else u

/-- What a lane's receiver takes in: blocks on a 64b/66b lane, stale ones of the cascade discarded; code violations, disparity errors and
losses of character alignment on an 8b/10b lane (R101, R103, R113). -/
def State.rxSymbol (s : State) (quad lane : Nat) (x : LaneSymbol) : State :=
  let l := 4 * quad + lane
  match x with
  | .block w slice epoch =>
    if !s.lockSequence quad then s
    else if quad = 12 ∧ s.sliceStale quad lane slice epoch = true then s.staleSlice quad slice
    else s.rxBlock quad lane w
  | .alignmentLost => if s.lockSequence quad then s else (s.tally LANE_LOCK_LOSS l).lockLost quad l
  | _ => if s.lockSequence quad then s else s.tally LANE_CODE_ERR l

/-- BLOCK_LOCK_GAINED (R99, R101 to R103): blocks arrive on a powered lane, in the receiver's present framing. -/
def execBlockLockGained (dt quad lane : Nat) (symbols : List LaneSymbol) (s : State) : Host.Outcome State Fault Refusal :=
  act (decide (quad < 13) && decide (lane < 4)) dt s fun s =>
    if s.get LANE_STATE (4 * quad + lane) = 0 then s else symbols.foldl (fun t x => t.rxSymbol quad lane x) s

/-- ALIGN_ORDER_FAULT (R99): an ALIGN block's sequence on a lane of the cascade port; out of order, every lane of the
port leaves block lock. -/
def execAlignOrderFault (dt lane seq : Nat) (s : State) : Host.Outcome State Fault Refusal :=
  act (decide (lane < 4)) dt s fun s => s.alignBlock lane seq

/-- POCXP_OVERLOAD (R93): the draw of the connections that PoCXP powers in a bay; above 18 W for longer than 10 ms, or on a short
circuit of a connection, it is shut down. -/
def State.pocxpOverload (s : State) (bay milliwatt overMs : Nat) (short : Bool) : State :=
  if !s.pocxpOn bay then s
  else if short || (!(s.bay bay).powered.isEmpty && decide (18000 < milliwatt) && decide (10 < overMs)) then
    (((s.set BAY_POCXP_MW bay 0).tally BAY_POCXP_FAULT bay).modBay bay (fun b => { b with pocxpOff := true, powered := [] })).bringupFails
      bay 7
  else s.set BAY_POCXP_MW bay (if (s.bay bay).powered.isEmpty then 0 else milliwatt)

/-- A marked lane's slice is substituted by the quad's spare and retired; its lane retrains (R112, R625, R634). An unpowered lane
has none to substitute. -/
def State.substituteLane (s : State) (quad l : Nat) : State :=
  match (if s.get LANE_STATE l = 0 then none else s.spareSlice quad) with
  | none => s
  | some i =>
    let old := s.get LANE_SLICE l
    ((((s.routeSlice quad l i).setUnit 2 (5 * quad + old) 3).modLane l (fun x => { x with
      marked := false, attempts := 0, onSpare := false }))).relock quad l

/-- Whether a lane's slice waits to be substituted: since its estimate, or by the mark the logbook keeps (R112, R634). -/
def State.laneMarked (s : State) (l : Nat) : Bool :=
  (s.lane l).marked || s.marks.any (fun m => m.kind == 2 && m.unit == 5 * (l / 4) + s.get LANE_SLICE l)

/-- Every lane marked for substitution is substituted, at an entry to READY (R112). -/
def State.substituteLanes (s : State) : State :=
  (List.range 52).foldl (fun t l => if t.laneMarked l then t.substituteLane (l / 4) l else t) s

/-- LANE_BER (R112, R632): a lane's error estimate over the last 60 s; above the limit its slice is marked, and in READY
substituted at once. -/
def execLaneBer (dt quad lane errors bits : Nat) (s : State) : Host.Outcome State Fault Refusal :=
  act (decide (quad < 13) && decide (lane < 4)) dt s fun s =>
    let l := 4 * quad + lane
    if s.get MODE = 0 ∨ bits = 0 ∨ s.get LANE_STATE l ≠ 8 then s
    else
      let t := s.set LANE_BER_EST l (Config.real32 (((errors : Nat) : Rat) / ((bits : Nat) : Rat)))
      if errors * 10 ^ s.get BAY_BER_EXP quad ≤ bits then t
      else
        let u := ((t.markUnit 2 (5 * quad + t.get LANE_SLICE l) 4).modLane l (fun x => { x with marked := true })).emit 0xAF
        if u.get MODE = 1 then u.substituteLane quad l else u

/-- The domain and the island of a quad (R581, R585). -/
def quadDomain (q : Nat) : Nat := 38 + q

/-- In DORMANT a self-test powers its unit's domain and releases its island; afterwards the domain is off again (R584). -/
def State.testPower (s : State) (domain : Nat) (on : Bool) : State :=
  if s.asDormant then (s.set PD_STATE domain (b2n on)).set ISLAND_STATE domain (if on then 2 else 0) else s

/-- SLICE_SELFTEST's write (R113, R628, R629, R664). While a self-test runs in the quad, one of another slice is answered BUSY
(DESIGN CHOICE, log entry 158). A test whose island lies behind a closed wrapper meets an error and fails (R594; DEDUCED, log entry
181). -/
def State.sliceSelftest (s : State) (via : Path) (quad slice : Nat) : State :=
  let k := SLICE_SELFTEST.key quad
  if 4 < slice then s.refuse via k 0x06090031
  else if s.get MODE ≠ 0 ∧ s.get MODE ≠ 1 then s.refuse via k abortMode
  else if s.get SLICE_STATE (5 * quad + slice) ≠ 2 then s.refuse via k abortMode
  else if (s.quad quad).test.isSome then s.refuse via k abortBusy
  else if !s.asDormant && s.wrapperClosed (quadDomain quad) then (s.accept.isoErrors 1).set SLICE_SELFTEST_RESULT quad 3
  else ((s.accept.testPower (quadDomain quad) true).set SLICE_SELFTEST_RESULT quad 1).modQuad quad (fun q =>
    { q with test := some (slice, s.now), stopped := q.stopped.filter (· != slice) })

/-- SLICE_SELFTEST (R113, R664). -/
def execSliceSelftest (dt : Nat) (via : Path) (quad slice : Nat) (s : State) : Host.Outcome State Fault Refusal :=
  act (decide (quad < 13)) dt s fun s => s.sliceSelftest via quad slice

/-- SLICE_SELFTEST_DONE (R113, R628): ten seconds of PRBS31 end with a count of errors. -/
def execSliceSelftestDone (dt quad bits errors : Nat) (s : State) : Host.Outcome State Fault Refusal :=
  act (decide (quad < 13)) dt s fun s =>
    match (s.quad quad).test with
    | none => s
    | some (slice, t0) =>
      if s.now < t0 + 10000000000 ∨ bits = 0 then s
      else
        let t := (s.modQuad quad (fun q => { q with test := none })).testPower (quadDomain quad) false
        if errors = 0 then (t.set SLICE_SELFTEST_RESULT quad 2).selfTestPassed 2 (5 * quad + slice)
        else (t.set SLICE_SELFTEST_RESULT quad 3).selfTestFailed 2 (5 * quad + slice)

/-- SPARE_SLICE_CHECK (R114): in every mode but DORMANT, each SPARE slice whose ten minutes are over is checked, unless
a loopback runs on it. -/
def execSpareSliceCheck (dt : Nat) (s : State) : Host.Outcome State Fault Refusal :=
  act true dt s fun s =>
    if s.asDormant then s
    else
      (List.range 13).foldl (fun t q =>
        match lowest 5 (fun i => t.get SLICE_STATE (5 * q + i) == 1 && decide ((t.quad q).checkedAt.getD i 0 + 600000000000 ≤ t.now) &&
          (t.quad q).check.isNone && ((t.quad q).loop.map Prod.fst) != some i) with
        | some i => if t.quadUsed q then t.modQuad q (fun x => { x with check := some (i, t.now) }) else t
        | none => t) s

/-- SPARE_SLICE_CHECK_DONE (R114, R625): a second of PRBS31 ends; errors quarantine the spare. -/
def execSpareSliceCheckDone (dt quad slice errors : Nat) (s : State) : Host.Outcome State Fault Refusal :=
  act (decide (quad < 13) && decide (slice < 5)) dt s fun s =>
    match (s.quad quad).check with
    | some (i, t0) =>
      if i = slice ∧ t0 + 1000000000 ≤ s.now then
        let t := s.modQuad quad (fun x => { x with check := none, checkedAt := x.checkedAt.set slice s.now })
        if errors = 0 then t else t.setUnit 2 (5 * quad + slice) 2
      else s
    | none => s

/-! ## Loopbacks (R115, R116) -/

/-- The connector lane that a slice serves. -/
def State.laneOfSlice (s : State) (quad slice : Nat) : Option Nat :=
  if s.get SLICE_STATE (5 * quad + slice) = 0 then lowest 4 (fun j => s.get LANE_SLICE (4 * quad + j) == slice) else none

/-- A loopback ends: the checked bits and errors are added, and its lane retrains (R116); the partner of a far-end loopback is
told the stripe lane (R100). -/
def State.loopStop (s : State) (quad bits errors : Nat) : State :=
  match (s.quad quad).loop with
  | none => s
  | some (slice, _) =>
    let t := (((s.volume LB_BITS quad bits).tallyN LB_ERRORS quad errors).set LB_STATUS quad 0).modQuad quad (fun q => { q with
      loop := none, loopFar := false })
    match t.laneOfSlice quad slice with
    | some j =>
      let u := if (s.quad quad).loopFar then t.sendControl [5, j, t.get LB_PATTERN quad, 0, 0, 0, 0, 0] else t
      if u.get LANE_STATE (4 * quad + j) = 10 then u.relock quad (4 * quad + j) else u
    | none => t

/-- Whether a loopback may start (R115, R116): on a slice in use in READY, on a spare in every mode but DORMANT; the far end's
only in READY, on a slice that serves a lane of the cascade port (log entry 159). -/
def State.loopAllowed (s : State) (quad : Nat) : Bool :=
  let slice := s.get LB_SLICE quad
  let st := s.get SLICE_STATE (5 * quad + slice)
  s.get LB_MODE quad != 0 && ((st == 0 && s.get MODE == 1) || (st == 1 && !s.asDormant)) &&
    (s.get LB_MODE quad != 3 ||
      (quad == 12 && s.get MODE == 1 && !s.cascade.down && (s.laneOfSlice quad slice).isSome))

/-- LB_RUN = 1 (R115, R116). A loopback that runs in the quad ends first, and the new one takes its place (DESIGN CHOICE, log
entry 159). -/
def State.loopStart (s : State) (via : Path) (quad : Nat) (locked : Bool) : State :=
  if !s.loopAllowed quad then (s.set LB_STATUS quad 3).refuse via (LB_RUN.key quad) abortMode
  else
    let slice := s.get LB_SLICE quad
    let far := s.get LB_MODE quad == 3
    let t := ((s.accept.loopStop quad 0 0).set LB_STATUS quad (if locked then 1 else 2)).modQuad quad (fun q => { q with
      loop := some (slice, s.now), loopFar := far })
    match t.laneOfSlice quad slice with
    | some j =>
      let u := (t.laneTo (4 * quad + j) 10).lanesUp quad
      if far then u.sendControl [5, j, u.get LB_PATTERN quad, 1, 0, 0, 0, 0] else u
    | none => t

/-- LB_RUN_START (R115, R116): 1 is written to LB_RUN; `locked` tells whether the checker finds lock. -/
def execLbRunStart (dt : Nat) (via : Path) (quad : Nat) (locked : Bool) (s : State) : Host.Outcome State Fault Refusal :=
  act (decide (quad < 13)) dt s fun s => s.loopStart via quad locked

/-- LB_RUN_STOP (R116): 0 is written to LB_RUN; `bits` were checked since the start with `errors`. -/
def execLbRunStop (dt : Nat) (_via : Path) (quad bits errors : Nat) (s : State) : Host.Outcome State Fault Refusal :=
  act (decide (quad < 13)) dt s fun s => s.accept.loopStop quad bits errors

/-! ## Clears (R117) -/

/-- The tallies and SAT bits of one quad: its bay's, its lanes' and its slices'. -/
def State.quadClear (s : State) (q : Nat) : State :=
  let t := [BAY_POCXP_FAULT, BAY_UNSUPPORTED_PKT, BAY_CTRL_TIMEOUT, LANE_STALE_RESULT, LB_ERRORS].foldl (fun u o => u.clearTally o q) s
  (List.range 4).foldl (fun u j =>
    [LANE_CODE_ERR, LANE_LOCK_LOSS, LANE_RETRAIN].foldl (fun w o => w.clearTally o (4 * q + j)) u) t

/-- BAY_CLEAR (R117). -/
def execBayClear (dt : Nat) (via : Path) (bay : Nat) (s : State) : Host.Outcome State Fault Refusal :=
  act (decide (bay < 12)) dt s fun s => s.command via BAY_CLEAR bay true (fun t => t.quadClear bay)

/-- The cascade port's tallies and SAT bits (R117). -/
def State.cascadeClear (s : State) : State := ((s.quadClear 12).clearTally CASCADE_FRAME_CRC 0).clearTally CASCADE_FRAME_LOST 0

/-- CASCADE_CLEAR (R117). -/
def execCascadeClear (dt : Nat) (via : Path) (s : State) : Host.Outcome State Fault Refusal :=
  act true dt s fun s => s.command via CASCADE_CLEAR 0 true State.cascadeClear

/-! ## The cascade's control frames (R96, R100) -/

/-- A CONTROL frame that is not the one its step awaits, of an unknown code in the EXCHANGE step (R100). -/
def State.controlUnknown (s : State) (p : List Byte) : State :=
  if s.exchanging && !(decide (1 ≤ natAt p 0 1) && decide (natAt p 0 1 ≤ 6)) then s.bringupFails 12 6 else s

/-- CAPABILITY (R96, R100): the partner's capability frame in the exchange step. -/
def execCapability (dt : Nat) (frame : List Nat) (s : State) : Host.Outcome State Fault Refusal :=
  act true dt s fun s =>
    match s.takeFrame 4 frame with
    | (t, none) => t
    | (t, some p) =>
      if natAt p 0 1 ≠ 1 then t.controlUnknown p
      else if !t.exchanging then t
      else if natAt p 2 1 = t.get CASCADE_ROLE ∨ natAt p 1 1 ≠ 1 ∨ natAt p 4 4 / 65536 ≠ t.get FW_REVISION / 65536 then
        t.bringupFails 12 6
      else
        let u := ((List.range 4).foldl (fun w j => w.laneTo (48 + j) 8) t).bringupOk 12
        let u := { u with cascade := { u.cascade with exchanged := true } }
        if u.isPrimary then u.sendControl ([2, 0, 0, 0, 0, 0, 0, 0] ++ leBytes 8 u.dc) else u

/-- RTT_REQUEST (R100): the SECONDARY answers with the time echoed and its turnaround. -/
def execRttRequest (dt : Nat) (frame : List Nat) (turnaround : Nat) (s : State) : Host.Outcome State Fault Refusal :=
  act true dt s fun s =>
    match s.takeFrame 4 frame with
    | (t, none) => t
    | (t, some p) =>
      if natAt p 0 1 ≠ 2 then t.controlUnknown p
      else if t.isSecondary then
        t.sendControl ([3, 0, 0, 0, 0, 0, 0, 0] ++ leBytes 8 (natAt p 8 8) ++ leBytes 4 turnaround)
      else t

/-- RTT_REPLY (R96, R100): the PRIMARY stores half the round trip and sends it on. -/
def execRttReply (dt : Nat) (frame : List Nat) (s : State) : Host.Outcome State Fault Refusal :=
  act true dt s fun s =>
    match s.takeFrame 4 frame with
    | (t, none) => t
    | (t, some p) =>
      if natAt p 0 1 ≠ 3 then t.controlUnknown p
      else if t.isPrimary then
        let half := (t.dc - natAt p 8 8 - natAt p 16 4) / 2
        (t.set CASCADE_LATENCY_NS 0 half).sendControl ([4, 0, 0, 0] ++ leBytes 4 half)
      else t

/-- LATENCY (R100): the SECONDARY stores the link latency. -/
def execLatency (dt : Nat) (frame : List Nat) (s : State) : Host.Outcome State Fault Refusal :=
  act true dt s fun s =>
    match s.takeFrame 4 frame with
    | (t, none) => t
    | (t, some p) =>
      if natAt p 0 1 ≠ 4 then t.controlUnknown p
      else if t.isSecondary then t.set CASCADE_LATENCY_NS 0 (natAt p 4 4) else t

/-- LB_REQUEST (R100, R115): the partner asks for a far-end loopback on a stripe lane, granted in READY. -/
def execLbRequest (dt : Nat) (frame : List Nat) (s : State) : Host.Outcome State Fault Refusal :=
  act true dt s fun s =>
    match s.takeFrame 4 frame with
    | (t, none) => t
    | (t, some p) =>
      if natAt p 0 1 ≠ 5 then t.controlUnknown p
      else
        let j := natAt p 1 1 % 4
        if natAt p 3 1 = 1 then
          if t.get MODE = 1 then ((t.laneTo (48 + j) 10).lanesUp 12).sendControl [6, j, 0, 0, 0, 0, 0, 0]
          else t.sendControl [6, j, 1, 0, 0, 0, 0, 0]
        else if t.get LANE_STATE (48 + j) = 10 then (t.relock 12 (48 + j)).sendControl [6, j, 0, 0, 0, 0, 0, 0]
        else t.sendControl [6, j, 0, 0, 0, 0, 0, 0]

/-- LB_REPLY (R100, R116): the partner refuses a far-end loopback, or accepts it. -/
def execLbReply (dt : Nat) (frame : List Nat) (s : State) : Host.Outcome State Fault Refusal :=
  act true dt s fun s =>
    match s.takeFrame 4 frame with
    | (t, none) => t
    | (t, some p) =>
      if natAt p 0 1 ≠ 6 then t.controlUnknown p
      else if (t.quad 12).loopFar && natAt p 2 1 == 1 then
        (((t.modQuad 12 (fun q => { q with loopFar := false })).loopStop 12 0 0).set LB_STATUS 12 3)
      else t

end Sys2Proof.Machine
end

