-- ==== Sys2Proof/Machine/Light.lean ====
section
/-! DEFINITION. Machine/Light.lean: light-bar channels: commanded currents, the illumination budget, compensation, identity
and life (R545 to R557). -/
namespace Sys2Proof.Machine
open Reg

/-- The record of a light-bar channel. -/
def State.bar (s : State) (ch : Nat) : Bar := s.bars.getD ch {}

/-- A rational rounded to the nearest number, ties up; negative values give 0. -/
def ratNat (x : Rat) : Nat := (x + 1 / 2).floor.toNat

/-- LIGHT_BUDGET_W (R548, R575). -/
def State.lightBudget (s : State) : Nat := if s.get MAINS_STATE = 0 then 480 else 320

/-- A channel's duty for some trigger widths and a line period: 1 in CONTINUOUS; in STROBE its bay's width over the
period, at most the bar's maximum pulse duty (R546, R547; the period is DEDUCED, log entry 23). -/
def State.duty (s : State) (widths : List Nat) (period ch : Nat) : Rat :=
  if s.get BAR_MODE ch = 0 then 1
  else if period = 0 then 0
  else min ((((s.bar ch).maxDuty : Nat) : Rat) / 1000) ((((widths.getD (s.get BAR_STROBE_BAY ch) 0 : Nat) : Rat)) / ((period : Nat) : Rat))

/-- Whether the bar's maximum pulse duty shortens a channel's on-time (R547). -/
def State.dutyCut (s : State) (widths : List Nat) (period ch : Nat) : Bool :=
  s.get BAR_MODE ch == 1 && decide (period * (s.bar ch).maxDuty < 1000 * widths.getD (s.get BAR_STROBE_BAY ch) 0)

/-- The rating that limits a channel in its drive mode (R547). -/
def State.rated (s : State) (ch : Nat) : Nat := if s.get BAR_MODE ch = 0 then (s.bar ch).ratedCont else (s.bar ch).ratedPulse

/-- A channel's current before any limit: its set's, or the procedure's during a measurement, times the compensation (R545, R547,
R556). -/
def State.wanted (s : State) (x : ExpSet) (ch : Nat) : Rat :=
  if s.get MODE = 4 ∧ s.get CAL_STATE = 2 then ((s.get BAR_CAL_MA ch : Nat) : Rat) else ((x.currents.getD ch 0 : Nat) : Rat) * (s.bar ch).comp

/-- The commanded current of a channel in mA, limited by rating, 3,000 mA and 60 W (R547). -/
def State.commanded (s : State) (x : ExpSet) (period ch : Nat) : Nat :=
  let d := s.duty x.widths period ch
  let v := s.get BAR_VOLTAGE_MV ch
  let lim := min (min ((s.rated ch : Nat) : Rat) 3000) (if v = 0 ∨ d = 0 then 3000 else 60000000 / (((v : Nat) : Rat) * d))
  if lim < s.wanted x ch then lim.floor.toNat else ratNat (s.wanted x ch)

/-- Whether any limit of R547 acts on a channel. -/
def State.limited (s : State) (x : ExpSet) (period ch : Nat) : Bool :=
  decide (((s.commanded x period ch : Nat) : Rat) + 1 / 2 < s.wanted x ch) || s.dutyCut x.widths period ch

/-- The nominal load of some currents in tenths of a watt (R548). -/
def State.loadOf (s : State) (current : Nat → Nat) (widths : List Nat) (period : Nat) : Rat :=
  (List.range 12).foldl (fun a ch =>
    a + (((s.bar ch).volt10mV : Nat) : Rat) * 10 * ((current ch : Nat) : Rat) * s.duty widths period ch / 100000) 0

/-- Whether an exposure set stays within the illumination budget, at the shortest line period (R548). -/
def State.withinBudget (s : State) (x : ExpSet) : Bool :=
  decide (s.loadOf (fun ch => s.commanded x (s.get TRIG_MIN_PERIOD_NS) ch) x.widths (s.get TRIG_MIN_PERIOD_NS) ≤ ((s.lightBudget * 10 : Nat) : Rat))

/-- The line period of the last strip; the shortest one before any. -/
def State.linePeriod (s : State) : Nat := if s.trig.stripPeriod = 0 then s.get TRIG_MIN_PERIOD_NS else s.trig.stripPeriod / 256

/-- LIGHT_POWER_W reads the present light load. -/
def State.lightLoad (s : State) : State :=
  s.set LIGHT_POWER_W 0 (ratNat (s.loadOf (fun ch => s.get BAR_CURRENT_MA ch) s.trig.applied.widths s.linePeriod))

/-- A channel takes its commanded current of a set, and is ON while it drives light (R545, R547). -/
def State.drive (s : State) (x : ExpSet) (ch : Nat) : State :=
  if s.lightAllowed ch then
    let i := s.commanded x s.linePeriod ch
    (s.set BAR_CURRENT_MA ch i).set BAR_STATE ch (if i = 0 then 1 else 2)
  else s

/-- The currents of a set are loaded into the light drivers (R133, R545). -/
def State.loadCurrents (s : State) (x : ExpSet) : State := ((List.range 12).foldl (fun t ch => t.drive x ch) s).lightLoad

/-- Whether a bar's temperature sensor last read above 85 °C (R550). -/
def State.barHot (s : State) (ch : Nat) : Bool := (s.bar ch).sensor != 0 && decide (85000 < s.int BAR_TEMP_MC ch)

/-- Entry to READY: shed and held channels take the applied set, and a FAULT whose cause is gone clears (R549, R550). -/
def State.lightsReady (s : State) : State :=
  ((List.range 12).foldl (fun (t : State) ch =>
    let there := (t.bar ch).faulty || t.barHot ch
    let u := t.modBar ch (fun b => { b with shed := false, hold := none, latched := b.latched && there })
    if u.get BAR_STATE ch = 3 ∧ there = false then u.set BAR_STATE ch 1 else u)
      { s with trig := { s.trig with loaded := false } }).loadCurrents s.trig.applied

/-- Every channel is shed (R549, R579). -/
def State.shedLights (s : State) : State :=
  ((List.range 12).foldl (fun t ch =>
    let was := t.get BAR_CURRENT_MA ch != 0
    let u := (t.lightOff ch).modBar ch (fun b => { b with shed := true })
    if was then u.tally LIGHT_SHED else u) s).lightLoad

/-- The compensation of a channel moves toward 1 / eta by at most 1 % per strip (R556). -/
def State.compensate (s : State) (ch : Nat) : State :=
  let b := s.bar ch
  let t := if b.phiN = 0 ∨ b.phiCal = 0 ∨ b.iCal = 0 ∨ b.iStrip = 0 then s
    else
      let phi : Rat := ((b.phiSum : Int) : Rat) / ((b.phiN : Nat) : Rat)
      let eta := phi / ((b.iStrip : Nat) : Rat) * (((b.iCal : Nat) : Rat) / b.phiCal)
      let want : Rat := if eta ≤ 0 then b.comp * 101 / 100 else 1 / eta
      let next := if want < b.comp * 99 / 100 then b.comp * 99 / 100 else if b.comp * 101 / 100 < want then b.comp * 101 / 100 else want
      (s.set BAR_OUTPUT_PERMILLE ch (min 65535 (ratNat (eta * 1000)))).modBar ch (fun x => { x with comp := next })
  let u := if s.get BAR_COMP_ENABLE ch = 0 ∨ s.get MODE = 4 ∨ b.iCal = 0 then t.modBar ch (fun x => { x with comp := 1 }) else t
  (u.modBar ch (fun x => { x with phiSum := 0, phiN := 0 })).set BAR_COMP_PERMILLE ch (min 65535 (ratNat ((u.bar ch).comp * 1000)))

/-- A strip begins: each limit that acts is tallied once, and a bar above its rating for 100 strips is exhausted (R547,
R557). -/
def State.stripLights (s : State) : State :=
  (List.range 12).foldl (fun t ch =>
    if !t.lightAllowed ch then t.modBar ch (fun b => { b with above := 0, iStrip := 0 })
    else
      let x := t.trig.applied
      let u := if t.limited x t.linePeriod ch then t.tally BAR_CLAMP ch else t
      let excess := decide (((u.rated ch : Nat) : Rat) < u.wanted x ch)
      let n := if excess then (u.bar ch).above + 1 else 0
      let w := u.modBar ch (fun b => { b with above := n, iStrip := u.get BAR_CURRENT_MA ch })
      if 100 ≤ n ∧ w.get BAR_LIFE_STATE ch ≠ 2 then (w.set BAR_LIFE_STATE ch 2).emit 0xC0 else w) s

/-! ## Identity (R551 to R553) -/

/-- Whether a life block is valid (R552). -/
def lifeOk (b : List Byte) : Bool := crc32c (b.take 28) == natAt b 28 4

/-- Whether block B of a bar's memory is the current one: valid, and of a higher sequence number than a valid block A (R552). -/
def lifeInB (m : List Byte) : Bool :=
  lifeOk (bytesAt m 96 32) && (!lifeOk (bytesAt m 64 32) || decide (natAt m 64 4 < natAt m 96 4))

/-- The current life block of a bar's memory: the valid one with the higher sequence number (R552). -/
def lifeBlock (m : List Byte) : Option (List Byte) :=
  if lifeInB m then some (bytesAt m 96 32) else if lifeOk (bytesAt m 64 32) then some (bytesAt m 64 32) else none

/-- Views that hold a camera of a channel's mask (R553). -/
def State.barViews (s : State) (ch : Nat) : Nat :=
  (List.range 12).foldl (fun m b =>
    match (s.ctx b).bank.view with
    | some v => if bit (s.get BAR_CAM_MASK ch) b && s.bayUsed b then setBit m v true else m
    | none => m) 0

/-- BAR_LIFE_PERMILLE, and SERVICE at 80 % of the rated life (R554, R557). -/
def State.barLife (s : State) (ch : Nat) : State :=
  let l := (s.bar ch).l70
  let t := s.set BAR_LIFE_PERMILLE ch (if l = 0 then 0 else min 65535 (s.get BAR_EQ_MINUTES ch * 1000 / (60 * l)))
  if l ≠ 0 ∧ 48 * l ≤ t.get BAR_EQ_MINUTES ch ∧ t.get BAR_LIFE_STATE ch = 0 then (t.set BAR_LIFE_STATE ch 1).emit 0xBF else t

/-- A change of identity (R553). -/
def State.barChanged (s : State) (ch : Nat) (life : Option (List Byte)) : State :=
  let t := s.tally BAR_IDENT_CHANGES ch
  let t := t.set CAL_STALE_VIEWS 0 (Nat.lor (t.get CAL_STALE_VIEWS) (t.barViews ch))
  let f := (life.map (fun b => natAt b 12 1)).getD 0
  ((t.modBar ch (fun b => { b with comp := 1, above := 0 })).set BAR_COMP_PERMILLE ch 1000).set BAR_LIFE_STATE ch
    (if bit f 1 then 2 else if bit f 0 then 1 else 0)

/-- The totals that the logbook holds for a serial on a channel: equivalent and actual minutes (R555). -/
def State.loggedTotals (s : State) (ch : Nat) (serial : List Byte) : Option (Nat × Nat) :=
  ((s.loggedBook ch).find? (fun x => x.1 == serialWords serial)).map Prod.snd

/-- The totals of a bar that a channel has read, known by its serial (none of a blank bar): those held go on while it is the same
bar; else the logbook's of its serial; and its own block's where they are larger. Its block's flags stay set (R553, R555, R557). The
next block written is the one that is not current (R552). -/
def State.barTotals (s : State) (ch : Nat) (serial : List Byte) (life : Option (List Byte)) (inB : Bool) : State :=
  let at_ (o : Nat) : Nat := (life.map (fun b => natAt b o 4)).getD 0
  let f := (life.map (fun b => natAt b 12 1)).getD 0
  let same := (s.bar ch).totalsOf == some serial
  let known : Nat × Nat := if same then (s.get BAR_EQ_MINUTES ch, s.get BAR_ON_MINUTES ch)
    else if serial = [] then (0, 0) else (s.loggedTotals ch serial).getD (0, 0)
  let t := (s.set BAR_EQ_MINUTES ch (max known.1 (at_ 4))).set BAR_ON_MINUTES ch (max known.2 (at_ 8))
  let t := t.set BAR_LIFE_STATE ch (max (t.get BAR_LIFE_STATE ch) (if bit f 1 then 2 else if bit f 0 then 1 else 0))
  let u := t.modBar ch (fun b => { b with blockSeq := at_ 0, nextB := life.isSome && !inB, totalsOf := some serial })
  (if same then u else u.modBar ch (fun b => { b with accEq := 0, accOn := 0 })).barLife ch

/-- A channel's state after a read that leaves it usable: FAULT until it clears, else OFF, or ON as it was (R550, R553). -/
def State.barUsable (s : State) (ch : Nat) : State :=
  let st := s.get BAR_STATE ch
  if (s.bar ch).latched then s.set BAR_STATE ch 3
  else if st = 2 ∨ st = 3 then s
  else (s.set BAR_STATE ch 1).drive s.trig.applied ch

/-- A bar's memory has been read, or did not answer (R553). -/
def State.barRead (s : State) (ch : Nat) (memory : Option (List Nat)) : State :=
  match memory with
  | none => ((s.lightOff ch).set BAR_STATE ch 0).modBar ch (fun b => { b with blank := false })
  | some raw =>
    let m := raw.map (· % 256)
    let s := s.setBlob BAR_IDENTITY ch (bytesAt m 0 256)
    let life := lifeBlock m
    let b := s.bar ch
    if bytesAt m 0 4 ≠ [0x4B, 0x4C, 0x42, 0x31] then
      let r := s.get BAR_RATED_MA_OVERRIDE ch
      let l := s.get BAR_L70_OVERRIDE_H ch
      let t := s.modBar ch (fun x => { x with
        blank := true, ratedCont := r, ratedPulse := r, maxDuty := 1000, expo := 0, l70 := l, sensor := 0, volt10mV := 0 })
      let t := if b.blank then t else t.barChanged ch life
      let t := ((t.setBlob BAR_SERIAL ch []).setBlob BAR_MODEL ch []).barTotals ch [] life (lifeInB m)
      if r = 0 ∨ l = 0 then (t.lightOff ch).set BAR_STATE ch 5 else t.barUsable ch
    else if crc32c (bytesAt m 0 60) ≠ natAt m 60 4 then (s.lightOff ch).set BAR_STATE ch 4
    else
      let serial := (bytesAt m 32 16).takeWhile (· != 0)
      let changed := match b.serial with
        | some x => x != serial
        | none => false
      let t := s.modBar ch (fun x => { x with
        serial := some serial, blank := false, ratedCont := natAt m 48 2, ratedPulse := natAt m 50 2, maxDuty := natAt m 52 2
        volt10mV := natAt m 54 2, l70 := natAt m 56 4, expo := natAt m 6 1, sensor := natAt m 7 1 })
      let t := if changed then t.barChanged ch life else t
      let t := (t.setBlob BAR_SERIAL ch serial).setBlob BAR_MODEL ch ((bytesAt m 8 24).takeWhile (· != 0))
      (t.barTotals ch serial life (lifeInB m)).barUsable ch

/-- A channel that is not disabled enters FAULT, where it stays until an entry to READY finds the fault gone; whether the fault
itself lasts is known by BAR_FAULT, or by the sensor's next reading (R550). -/
def State.barFaulted (s : State) (ch : Nat) (lasts : Bool) : State :=
  if s.get BAR_STATE ch = 1 ∨ s.get BAR_STATE ch = 2 then
    (((s.lightOff ch).set BAR_STATE ch 3).modBar ch (fun b => { b with
      faulty := b.faulty || lasts, latched := true })).tally BAR_FAULTS ch |>.lightLoad
  else s

/-- BAR_IDENT_READ (R550, R553): the memory and the temperature sensor of a channel are read, on DORMANT to READY and in
every mode but DORMANT; a sensor that reads above 85 °C is a fault. -/
def execBarIdentRead (dt chan : Nat) (memory : Option (List Nat)) (tempMc : Int) (s : State) : Host.Outcome State Fault Refusal :=
  act (decide (chan < 12)) dt s fun s =>
    if s.asDormant ∧ s.get MODE_PENDING ≠ 1 then s
    else
      let t := ((s.barRead chan memory).setInt BAR_TEMP_MC chan tempMc).lightLoad
      if t.barHot chan then t.barFaulted chan false else t

/-! ## Life (R554, R555) -/

/-- The life weight of a mean current (R554): a power with the bar's exponent, 4.4 fixed point, 0 standing for 1.0. -/
def lifeWeight (mean rated expo : Nat) : Rat :=
  if rated = 0 then 0
  else
    let r : Rat := ((mean : Nat) : Rat) / ((rated : Nat) : Rat)
    powSixteenths r (if expo = 0 then 16 else expo)

/-- BAR_LIFE_TICK (R547, R554, R557): a second of driving ends with its mean current, duty and forward voltage. -/
def execBarLifeTick (dt chan meanMa dutyPermille milliVolt : Nat) (s : State) : Host.Outcome State Fault Refusal :=
  act (decide (chan < 12)) dt s fun s =>
    if s.get BAR_STATE chan ≠ 2 then s
    else
      let b := s.bar chan
      let duty : Rat := if s.get BAR_MODE chan = 0 then 1 else ((dutyPermille : Nat) : Rat) / 1000
      let eq := b.accEq + duty * lifeWeight meanMa b.ratedCont b.expo
      let on := b.accOn + duty
      let me := (eq / 60).floor.toNat
      let mo := (on / 60).floor.toNat
      let t := s.modBar chan (fun x => { x with
        accEq := eq - 60 * ((me : Nat) : Rat), accOn := on - 60 * ((mo : Nat) : Rat), onSince := true })
      let t := ((t.life BAR_EQ_MINUTES chan me).life BAR_ON_MINUTES chan mo).set BAR_VOLTAGE_MV chan milliVolt
      (t.set BAR_POWER_W chan (ratNat (((milliVolt : Nat) : Rat) * ((meanMa : Nat) : Rat) * duty / 100000))).barLife chan

/-- BAR_LIFE_WRITE (R552, R555): the next life block is written, ten minutes after the last while the bar has been on, or
in DORMANT. -/
def execBarLifeWrite (dt chan : Nat) (s : State) : Host.Outcome State Fault Refusal :=
  act (decide (chan < 12)) dt s fun s =>
    let b := s.bar chan
    let st := s.get BAR_STATE chan
    if st = 0 ∨ st = 4 ∨ !(s.asDormant || (b.onSince && decide (b.wroteAt + 600000000000 ≤ s.now))) then s
    else
      let l := s.get BAR_LIFE_STATE chan
      let body := leBytes 4 (b.blockSeq + 1) ++ leBytes 4 (s.get BAR_EQ_MINUTES chan) ++ leBytes 4 (s.get BAR_ON_MINUTES chan) ++
        [b2n (decide (1 ≤ l)) + 2 * b2n (l == 2), 0, 0, 0] ++ leBytes 4 (s.get MODULE_SERIAL) ++ List.replicate 8 0
      let block := body ++ leBytes 4 (crc32c body)
      s.modBar chan (fun x => { x with
        blockSeq := (b.blockSeq + 1) % 2 ^ 32, nextB := !b.nextB, onSince := false, wroteAt := s.now
        written := leBytes 1 (if b.nextB then 96 else 64) ++ block })

/-- BAR_FAULT (R550, R660): a fault of a driven channel puts it in FAULT; or the fault is gone. -/
def execBarFault (dt chan : Nat) (kind : BarFault) (s : State) : Host.Outcome State Fault Refusal :=
  act (decide (chan < 12)) dt s fun s =>
    match kind with
    | .cleared => s.modBar chan (fun b => { b with faulty := false })
    | _ => s.barFaulted chan true

/-- LIGHT_CLEAR's effect (R572). -/
def State.lightClear (s : State) (via : Path) : State :=
  s.command via LIGHT_CLEAR 0 true (fun t => t.clearAll [LIGHT_SHED, BAR_CLAMP, BAR_FAULTS, BAR_IDENT_CHANGES])

/-- LIGHT_CLEAR (R572). -/
def execLightClear (dt : Nat) (via : Path) (s : State) : Host.Outcome State Fault Refusal :=
  act true dt s fun s => s.lightClear via

end Sys2Proof.Machine
end

