-- ==== Sys2Proof/Machine/Intake.lean ====
section
/-! DEFINITION. Machine/Intake.lean: exposure sets, matching of lines to triggers, tile packets, replacement of lines, and
strip statistics (R129 to R147). -/
namespace Sys2Proof.Machine
open Reg

/-! ## Data types (R139) -/

/-- A data type: planes (and samples per pixel), bits, stored bits, whether it is a mosaic, and whether its fourth plane
is N or C. -/
structure PixType where
  planes : Nat
  bits : Nat
  stored : Nat
  mosaic : Bool := false
  deriving DecidableEq, Repr

/-- The data type of a code; none for a reserved one. -/
def pixType : Nat → Option PixType
  | 0x01 => some ⟨1, 8, 8, false⟩
  | 0x02 => some ⟨1, 10, 10, false⟩
  | 0x03 => some ⟨1, 12, 12, false⟩
  | 0x04 => some ⟨1, 12, 16, false⟩
  | 0x08 => some ⟨3, 8, 8, false⟩
  | 0x09 => some ⟨3, 10, 10, false⟩
  | 0x0A => some ⟨3, 12, 12, false⟩
  | 0x0C => some ⟨4, 8, 8, false⟩
  | 0x0D => some ⟨4, 12, 12, false⟩
  | 0x0E => some ⟨4, 8, 8, false⟩
  | 0x0F => some ⟨4, 12, 12, false⟩
  | 0x14 => some ⟨1, 8, 8, true⟩
  | 0x15 => some ⟨1, 10, 10, true⟩
  | 0x16 => some ⟨1, 12, 12, true⟩
  | _ => none

/-- The names of a data type's planes in order: of three or four planes R, G, B and N or C; one plane has no order among others
(R139). -/
def planeOrder (code : Nat) : Nat :=
  match code with
  | 0x08 | 0x09 | 0x0A => 1
  | 0x0C | 0x0D => 2
  | 0x0E | 0x0F => 3
  | _ => 0

/-- Whether two data types have the same sample depth and plane order, whatever their packing and filters (R139, R140). -/
def samePixels (a b : Nat) : Bool :=
  match pixType a, pixType b with
  | some t, some u => t.bits == u.bits && planeOrder a == planeOrder b
  | _, _ => false

/-- The type of a bay's sub-stream; none where it is unused. -/
def State.subType (s : State) (b sub : Nat) : Option PixType := pixType (s.get INTAKE_TYPE (4 * b + sub))

/-- The used sub-streams of a bay, ascending. -/
def State.subs (s : State) (b : Nat) : List Nat := (List.range 4).filter (fun i => (s.subType b i).isSome)

/-- Samples as a bit stream, sample 0 from bit 0 of byte 0, padded with zeros to `n` bytes. -/
def packSamples (w n : Nat) (xs : List Nat) : List Byte :=
  leBytes n (xs.foldr (fun x acc => x % 2 ^ w + 2 ^ w * acc) 0)

/-- Samples read back from a bit stream. -/
def unpackSamples (w : Nat) : Nat → Nat → List Nat
  | 0, _ => []
  | n + 1, v => v % 2 ^ w :: unpackSamples w n (v / 2 ^ w)

/-! ## Tile packets (R138) -/

/-- A tile packet's bytes. CRC_ERR, of which no rule says when it is set, stays 0 (DESIGN CHOICE, log entry 160). -/
def tilePacket (bay sub code : Nat) (t : PixType) (line first flags gen : Nat) (xs : List Nat) : List Byte :=
  let n := ((t.stored * xs.length + 7) / 8 + 7) / 8 * 8
  let b := [bay * 4 + sub, code] ++ leBytes 2 xs.length ++ leBytes 4 line ++ leBytes 2 first ++ [flags, gen % 256, 0, 0, 0, 0] ++
    packSamples t.stored n xs
  b ++ leBytes 4 (crc32c b)

/-- A run of samples of one line cut into tile packets of at most 4,096 samples, whole pixels each; LAST on the last one. -/
def tilePackets (bay sub code : Nat) (t : PixType) (line gen : Nat) (subst last : Bool) : Nat → Nat → List Nat → List (List Byte)
  | 0, _, _ => []
  | fuel + 1, first, xs =>
    let n := 4096 / t.planes * t.planes
    if xs.isEmpty then []
    else
      let rest := xs.drop n
      tilePacket bay sub code t line first (b2n (last && rest.isEmpty) + 2 * b2n subst) gen (xs.take n) ::
        tilePackets bay sub code t line gen subst last fuel (first + n / t.planes) rest

/-- Tile packets of a run of samples set out for the easel. -/
def State.sendTiles (s : State) (b sub line first : Nat) (subst last : Bool) (xs : List Nat) : State :=
  match s.subType b sub with
  | none => s
  | some t =>
    let gen := ((s.lineAt line).map Line.egen).getD (s.get EXP_GENERATION)
    s.modBay b (fun x => { x with
      ferry := x.ferry ++ tilePackets b sub (s.get INTAKE_TYPE (4 * b + sub)) t line gen subst last (xs.length + 1) first xs })

/-! ## Strip statistics (R146) -/

/-- A strip's statistics begin for a camera at the strip's first line (R146). -/
def State.statOpen (s : State) (b strip : Nat) : State :=
  if s.get STAT_ENABLE b = 1 ∧ (s.bay b).stats.all (fun x => x.strip != strip) then
    s.modBay b (fun x => { x with stats := x.stats ++ [{ strip := strip }] })
  else s

/-- The planes of a line in the order of R169: sub-stream by sub-stream, plane by plane, with their bits. -/
def State.rawPlanes (s : State) (b : Nat) (rows : List (Nat × List Nat)) : List (Nat × List Nat) :=
  (s.subs b).flatMap (fun sub =>
    match s.subType b sub with
    | some t =>
      let xs := ((rows.find? (fun r => r.1 == sub)).map Prod.snd).getD []
      (List.range t.planes).map (fun p =>
        (t.bits, (List.range (xs.length / t.planes)).map (fun i => xs.getD (t.planes * i + p) 0)))
    | none => [])

/-- Counts by key: `n` more under a key. -/
def Dict.count (d : Dict) (k n : Nat) : Dict := d.put k ((d.look k).getD 0 + n)

/-- A strip's histogram of one plane: how many samples fall in each of 256 bins. -/
def StripStat.hist (x : StripStat) (plane : Nat) : Dict :=
  x.rows.foldl (fun d r =>
    match r.2[plane]? with
    | some (w, xs) => xs.foldl (fun e v => e.count (v / 2 ^ (w - 8)) 1) d
    | none => d) []

/-- A strip's totals per segment and plane (segment * 4 + plane) of what each sample gives. -/
def StripStat.total (x : StripStat) (f : Nat → Nat) : Dict :=
  x.rows.foldl (fun d r => ((List.range r.2.length).zip r.2).foldl (fun d p =>
    ((List.range p.2.2.length).zip p.2.2).foldl (fun e q => e.count (q.1 / 512 * 4 + p.1) (f q.2)) d) d) []

/-- The statistics record's 1,312 bytes; its flags are those of the camera's own strip (R146, R205). -/
def State.statBytes (s : State) (b : Nat) (x : StripStat) : List Byte :=
  let n := 256 * x.strip
  let st := s.stamps n
  let planes := min 4 ((s.subs b).foldl (fun a i => a + ((s.subType b i).map PixType.planes).getD 0) 0)
  let segs := (s.get INTAKE_WIDTH b + 511) / 512
  let hist := x.hist (s.get STAT_HIST_PLANE b)
  let sums := x.total id
  let counts := x.total (fun _ => 1)
  let mean (k : Nat) : Nat := match counts.look k with
    | some c => (sums.look k).getD 0 * 16 / c
    | none => 0
  leBytes 8 x.strip ++ st.take 4 ++ [st.getD 5 0, st.getD 6 0, st.getD 4 0, b, x.flags % 256, s.get STAT_HIST_PLANE b, planes, segs] ++
    leBytes 2 x.rows.length ++ List.replicate 10 0 ++ (List.range 256).flatMap (fun i => leBytes 4 ((hist.look i).getD 0)) ++
    (List.range 128).flatMap (fun k => leBytes 2 (mean k))

/-- The full line number whose low 32 bits a packet carries: the nearest at or before the last line triggered. -/
def State.fullLine (s : State) (low : Nat) : Nat :=
  let l := s.lastLine
  let c := l / 2 ^ 32 * 2 ^ 32 + low
  if l < c ∧ 2 ^ 32 ≤ c then c - 2 ^ 32 else c

/-- Whether a tile packet of a line before `n` is still on its way to the easel. -/
def State.ferryBefore (s : State) (b n : Nat) : Bool := (s.bay b).ferry.any (fun p => decide (s.fullLine (natAt p 4 4) < n))

/-- The records of strips whose lines have all come or been replaced, and reached the easel, leave on the event ring, in strip
order (R141, R146). -/
def State.statFlush (s : State) (b : Nat) : Nat → State
  | 0 => s
  | n + 1 =>
    match (s.bay b).stats with
    | [] => s
    | x :: rest =>
      if 256 * x.strip + 255 < s.get LINE_NUMBER ∧ s.ferryBefore b (256 * x.strip + 256) = false ∧
          (s.bay b).await.all (fun l => l.replaced || decide (256 * x.strip + 255 < l.num)) then
        ((s.modBay b (fun y => { y with stats := rest })).eventFrame 3 b (s.statBytes b x)).statFlush b n
      else s

/-- The statistics of a bay are settled. -/
def State.statSettle (s : State) (b : Nat) : State := s.statFlush b (s.bay b).stats.length

/-! ## Replacement (R143, R144) -/

/-- The camera's line before line `n` that it delivered, or zeros (R144). -/
def State.substitute (s : State) (b n : Nat) : List (Nat × List Nat) :=
  match (s.bay b).prev.find? (fun e => decide (e.1 < n)) with
  | some e => e.2
  | none => (s.subs b).map (fun i => (i, List.replicate (s.get INTAKE_WIDTH b * ((s.subType b i).map PixType.planes).getD 0) 0))

/-- The replacement packets of a line (R144). -/
def State.sendSubst (s : State) (b n : Nat) : State :=
  (s.substitute b n).foldl (fun u r => u.sendTiles b r.1 n 0 true true r.2) s

/-- A missing or late line is replaced: SUBST packets, the strip's flags, the tally (R144); it leaves its strip's statistics
(R146), and a trim that uses it is abandoned (R571). -/
def State.replaceLine (s : State) (b n : Nat) : State :=
  let t := (s.sendSubst b n).modBay b (fun x => { x with
    await := x.await.map (fun l => if l.num = n then { l with replaced := true } else l)
    stats := x.stats.map (fun (z : StripStat) => { z with rows := z.rows.filter (fun r => r.1 != n) }) })
  (((t.camFlag b n 2).tally LINES_SUBSTITUTED b).trimSpoiled b n).statSettle b

/-- A line that still waits is replaced, if it does. -/
def State.missing (s : State) (b n : Nat) : State :=
  if (s.bay b).await.any (fun l => l.num == n && !l.replaced) then s.replaceLine b n else s

/-- A line is late (R143, R145). -/
def State.lateLine (s : State) (b n : Nat) : State := (s.tally LINES_LATE b).replaceLine b n

/-- Whether a bay's lines are late at once: it is DOWN, or its easel is (R143, R194). -/
def State.lateAtOnce (s : State) (b : Nat) : Bool := s.get BAY_STATE b == 3 || s.get EASEL_STATE (b / 2) == 3

/-- Whether a waiting line is late (R143). A line that was replaced before, for a skipped tag or a CRC error, does not become late too
(DESIGN CHOICE, log entry 205). -/
def State.isLate (s : State) (b : Nat) (l : OutLine) : Bool :=
  !l.replaced && (s.lateAtOnce b || decide (l.num + 256 * s.get LATE_LIMIT_STRIPS ≤ s.lastLine) ||
    decide (l.at_ + s.get LATE_LIMIT_MS * 1000000 ≤ s.now))

/-- A triggered line is awaited from every used bay; where it is late at once it is replaced (R136, R143). -/
def State.awaitLine (s : State) (n : Nat) : State :=
  (List.range 12).foldl (fun t b =>
    if !t.bayUsed b then t
    else
      let u := (t.statOpen b (n / 256)).modBay b (fun x => { x with
        pairLine := match x.pairLine with
          | some p => some p
          | none => if t.get BAY_STATE b = 2 then some n else none
        await := x.await ++ [{ num := n, at_ := t.now }] })
      if u.lateAtOnce b then u.lateLine b n else u) s

/-- LINE_LATE (R143 to R145): a waiting line passes its limit. -/
def execLineLate (dt bay line : Nat) (s : State) : Host.Outcome State Fault Refusal :=
  act (decide (bay < 12)) dt s fun s =>
    match (s.bay bay).await.find? (fun l => l.num == line) with
    | some l => if s.isLate bay l then s.lateLine bay line else s
    | none => s

/-! ## Camera packets (R136, R137, R140 to R142, R145) -/

/-- The line a tag stands for: the first tag pairs with the first line triggered, each later one continues (R136). -/
def State.tagLine (s : State) (b tag : Nat) : Option Nat :=
  match (s.bay b).tagOf, (s.bay b).pairLine with
  | some (n, t), _ =>
    let d := toSigned 16 (tag + 65536 - t % 65536)
    if (n : Int) + d < 0 then none else some ((n : Int) + d).toNat
  | none, p => p

/-- A tag is matched: the line it stands for, when that line is outstanding; lines skipped over are missing at once
(R136, R137). -/
def State.matchTag (s : State) (b tag : Nat) : State × Option Nat :=
  match s.tagLine b tag with
  | none => (s.tally TAG_MISMATCH b, none)
  | some n =>
    if (s.bay b).await.all (fun l => l.num != n) then (s.tally TAG_MISMATCH b, none)
    else
      let ahead := match (s.bay b).tagOf with
        | some (m, _) => decide (m < n)
        | none => true
      let t := if ahead then s.modBay b (fun x => { x with tagOf := some (n, tag % 65536) }) else s
      let after := match (s.bay b).tagOf with
        | some (m, _) => m + 1
        | none => n
      let skipped := if ahead then
          ((s.bay b).await.filter (fun l =>
            decide (after ≤ l.num) && decide (l.num < n) && !l.replaced && l.parts.isEmpty && l.done.isEmpty)).map OutLine.num
        else []
      (skipped.foldl (fun u m => u.missing b m) t, some n)

/-- Whether every used sub-stream of a line is whole. -/
def State.lineWhole (s : State) (b : Nat) (l : OutLine) : Bool :=
  (s.subs b).all (fun i =>
    l.done.contains i &&
      ((l.parts.filter (fun p => p.1 == i)).map (fun p => p.2.2.length)).sum ==
        s.get INTAKE_WIDTH b * ((s.subType b i).map PixType.planes).getD 0)

/-- A part in its place by first pixel. -/
def insertPart (p : Nat × Nat × List Nat) : List (Nat × Nat × List Nat) → List (Nat × Nat × List Nat)
  | [] => [p]
  | a :: r => if p.2.1 < a.2.1 then p :: a :: r else a :: insertPart p r

/-- A line's samples by sub-stream. -/
def OutLine.rows (l : OutLine) (subs : List Nat) : List (Nat × List Nat) :=
  subs.map (fun i => (i, ((l.parts.filter (fun p => p.1 == i)).foldl (fun a p => insertPart p a) []).flatMap (fun p => p.2.2)))

/-- Delivered lines in descending order of number. -/
def insertPrev (e : Nat × List (Nat × List Nat)) : List (Nat × List (Nat × List Nat)) → List (Nat × List (Nat × List Nat))
  | [] => [e]
  | a :: r => if a.1 < e.1 then e :: a :: r else a :: insertPrev e r

/-- Delivered lines are kept while a line before them may still need a copy of them or of the one before. -/
def Bay.keepPrev (x : Bay) : List (Nat × List (Nat × List Nat)) :=
  let waiting := (x.await.filter (fun l => !l.replaced)).map OutLine.num
  let low := waiting.foldl min ((x.prev.head?.map Prod.fst).getD 0)
  if x.ferry.isEmpty then x.prev.filter (fun e => decide (low ≤ e.1)) ++ (x.prev.filter (fun e => decide (e.1 < low))).take 1
  else x.prev

/-- A line is complete: received and counted, or, when it had been replaced, discarded (R145, R146). -/
def State.lineComplete (s : State) (b : Nat) (l : OutLine) : State :=
  let rest (x : Bay) : List OutLine := x.await.filter (fun y => y.num != l.num)
  if l.replaced then ((s.modBay b (fun x => { x with await := rest x })).tally LATE_DISCARD b).statSettle b
  else
    let rows := l.rows (s.subs b)
    let planes := s.rawPlanes b rows
    let t := s.modBay b (fun x =>
      let y := { x with
        await := rest x, prev := insertPrev (l.num, rows) x.prev, delivered := true, lastDone := some l.num
        stats := x.stats.map (fun (z : StripStat) =>
          if z.strip = l.num / 256 then { z with rows := z.rows ++ [(l.num, planes)] } else z) }
      { y with prev := y.keepPrev })
    (t.volume LINES_RECEIVED b).statSettle b

/-- A packet's data is taken: packets for the easel, unless the line had been replaced, and the line's record (R137,
R140). -/
def State.takeSamples (s : State) (b n : Nat) (k : CamPacket) (t : PixType) : State :=
  let room := (s.get INTAKE_WIDTH b - k.firstPixel) * t.planes
  let xs := (k.samples.map (· % 2 ^ t.bits)).take room
  let last := k.last || (room ≠ 0 && xs.length == room)
  let was := (s.bay b).await.find? (fun l => l.num == n)
  let s1 := if (was.map OutLine.replaced).getD true then s else s.sendTiles b k.streamId n k.firstPixel false last xs
  let s2 := s1.modBay b (fun x => { x with
    carried := { line := n, sub := k.streamId, first := k.firstPixel, lane := k.lane } :: x.carried.filter (fun (e : Carried) =>
      x.ferry.any (fun p => s.fullLine (natAt p 4 4) == e.line))
    await := x.await.map (fun l =>
      if l.num = n then
        { l with
          parts := if xs.isEmpty then l.parts else l.parts ++ [(k.streamId, k.firstPixel, xs)]
          done := if last then insertNat k.streamId l.done else l.done }
      else l) })
  match (s2.bay b).await.find? (fun l => l.num == n) with
  | some l => if s2.lineWhole b l then s2.lineComplete b l else s2
  | none => s2

/-- The payload bytes of a stream packet (R117). -/
def packetBytes (k : CamPacket) : Nat := (((pixType k.format).map PixType.stored).getD 8 * k.samples.length + 7) / 8

/-- Whether a packet comes from a slice that no longer serves its lane, or carries an old epoch (R113). -/
def State.isStale (s : State) (b : Nat) (k : CamPacket) : Bool :=
  s.sliceStale b k.lane k.slice k.epoch

/-- A packet failed its CRC (R142). -/
def State.badPacket (s : State) (b : Nat) (k : CamPacket) : State :=
  let t := s.tally LANE_CRC_ERR (4 * b + k.lane)
  if k.lineReadable then
    match t.matchTag b k.tag with
    | (u, some n) => (u.camFlag b n 1).missing b n
    | (u, none) => u
  else
    match (t.bay b).lastDone with
    | some n => t.camFlag b n 1
    | none => t

/-- A stream packet (R89, R136, R137, R140). One of a sub-stream whose INTAKE_TYPE is 0 is discarded and tallied as a format
mismatch, its tag unmatched (DESIGN CHOICE, log entry 161). -/
def State.streamPacket (s : State) (b : Nat) (k : CamPacket) : State :=
  if 3 < k.streamId then s.tally BAY_UNSUPPORTED_PKT b
  else
    match s.subType b k.streamId with
    | none => s.tally PKT_TYPE_ERR b
    | some t =>
      match s.matchTag b k.tag with
      | (u, none) => u
      | (u, some n) =>
        if samePixels k.format (s.get INTAKE_TYPE (4 * b + k.streamId)) then u.takeSamples b n k t
        else (u.tally PKT_TYPE_ERR b).missing b n

/-- A camera packet in a bay that takes packets (R89, R90, R94, R142): CRC first, then its kind. Heartbeats play no part in
image timing; event packets and messages of unhandled types are discarded and tallied. -/
def State.cameraPacket (s : State) (b : Nat) (k : CamPacket) : State :=
  if !k.crcOk then s.badPacket b k
  else
    match k.kind with
    | .stream => (s.volume LANE_BYTES (4 * b + k.lane) (packetBytes k)).streamPacket b k
    | .heartbeat => if s.get BAY_LINK_TYPE b = 1 then s else s.tally BAY_UNSUPPORTED_PKT b
    | _ => s.tally BAY_UNSUPPORTED_PKT b

/-- Whether a lane of a bay carries data: it is ACTIVE, and so is every lane of a Camera Link HS camera, which stripes each line over
all its lanes (R109). -/
def State.laneCarries (s : State) (b lane : Nat) : Bool :=
  s.get LANE_STATE (4 * b + lane) == 8 &&
    (s.get BAY_LINK_TYPE b != 2 || (s.bay b).targets.all (fun j => s.get LANE_STATE (4 * b + j) == 8))

/-- CAMERA_PACKET (R69, R109, R113, R116, R142): a packet on a lane of a bay. Stale data is discarded at the landing; in HOLD, in a
bay that is not UP and on a lane that does not carry it data is discarded or lost; in DORMANT slices are unpowered. -/
def execCameraPacket (dt bay : Nat) (pkt : CamPacket) (s : State) : Host.Outcome State Fault Refusal :=
  act (decide (bay < 12) && decide (pkt.lane < 4) && decide (pkt.slice < 5)) dt s fun s =>
    if s.asDormant then s
    else if s.isStale bay pkt then s.staleSlice bay pkt.slice
    else if s.get MODE = 5 ∨ s.get BAY_STATE bay ≠ 2 ∨ s.laneCarries bay pkt.lane = false then s
    else s.cameraPacket bay pkt

/-! ## Exposure sets (R129 to R132) -/

/-- The staged exposure set (R129). -/
def State.stagedSet (s : State) : ExpSet :=
  { widths := (List.range 12).map (fun b => s.get EXP_WIDTH_NS b), currents := (List.range 12).map (fun i => s.get EXP_CURRENT_MA i) }

/-- The strip a commit registered after line `l` applies from: the next when at least four lines of the present one
remain, else the one after (R130, R161). -/
def strideStrip (l : Nat) : Nat := if l % 256 ≤ 251 then l / 256 + 1 else l / 256 + 2

/-- The first strip whose first line comes at or after the next line. -/
def State.strideNext (s : State) : Nat := (s.get LINE_NUMBER + 255) / 256

/-- The application strip of a commit made now; before any line since the cold reset, and while no lines run, the first strip whose
first line comes after (R130, R165). -/
def State.applyStrip (s : State) : Nat :=
  if s.trig.lastIssue.isNone ∨ s.get MODE = 0 ∨ s.get MODE = 5 then s.strideNext else strideStrip (s.get LINE_NUMBER - 1)

/-- A set waits for a strip; an earlier one that waits is replaced (R131), and where its currents were in the drivers already,
those of the applied set return. -/
def State.registerSet (s : State) (x : ExpSet) (strip : Nat) : State :=
  let t := if s.trig.waiting.isSome then s.tally EXP_COMMIT_REPLACED else s
  let t := if s.trig.loaded then t.loadCurrents s.trig.applied else t
  ({ t with trig := { t.trig with waiting := some (x, strip), loaded := false } }.set EXP_PENDING 0 1).set EXP_APPLY_STRIP 0 strip

/-- EXP_COMMIT's write (R130, R131, R548). -/
def State.expCommit (s : State) (via : Path) : State :=
  let k := EXP_COMMIT.key 0
  if s.get MODE = 4 then (s.refuse via k abortMode)
  else if !s.withinBudget s.stagedSet then s.refuse via k 0x06040043
  else
    let strip := s.applyStrip
    (s.accept.registerSet s.stagedSet strip).traceCommit EXP_COMMIT 0 0 strip

/-- EXP_COMMIT (R130). -/
def execExpCommit (dt : Nat) (via : Path) (s : State) : Host.Outcome State Fault Refusal := act true dt s fun s => s.expCommit via

/-- A job's exposure set over the set in use (R132, R134). -/
def State.jobSet (s : State) (p : Package) : Option ExpSet :=
  let es := (List.range 12).filterMap (fun b => (p.sec secExposure b).map (fun e => (b, e)))
  if es.isEmpty then none
  else some (es.foldl (fun x e =>
    { widths := x.widths.set e.1 (natAt e.2 0 4)
      currents := (List.range 12).map (fun ch => if bit (natAt e.2 4 2) ch then natAt e.2 6 2 else x.currents.getD ch 0) }) s.trig.applied)

/-- The set that waits becomes the applied one at the first line of its strip (R130, R133). -/
def State.applySet (s : State) (strip : Nat) : State :=
  match s.trig.waiting with
  | some (x, n) =>
    if n ≤ strip then
      let t := { s with trig := { s.trig with applied := x, waiting := none } }
      let t := (t.set EXP_GENERATION 0 (t.get EXP_GENERATION + 1)).set EXP_PENDING 0 0
      if s.trig.loaded then { t with trig := { t.trig with loaded := false } } else t.loadCurrents x
    else s
  | none => s

/-! ## CAMERA_GAIN (R135) and the clear command (R147) -/

/-- A written gain applies from the next strip boundary (R135). -/
def State.gainWritten (s : State) (b : Nat) : State :=
  let n := (s.get LINE_NUMBER + 255) / 256 * 256
  s.modBay b (fun x => { x with gains := (n, s.get CAMERA_GAIN b) :: x.gains.filter (fun e => decide (e.1 < n)) })

/-- The gain in force for a camera line. -/
def Bay.gainAt (x : Bay) (n : Nat) : Nat := ((x.gains.find? (fun e => decide (e.1 ≤ n))).map Prod.snd).getD 0x100

/-- INTAKE_CLEAR's effect (R147). -/
def State.intakeClear (s : State) (via : Path) : State :=
  s.command via INTAKE_CLEAR 0 true (fun t =>
    (t.clearAll [TRIG_DEFERRED, TRIG_OVERSPEED_LINES, TRIG_WIDTH_CLIP, EXP_COMMIT_REPLACED, LANE_CRC_ERR, LINES_LATE,
      LINES_SUBSTITUTED, LATE_DISCARD, TAG_MISMATCH, PKT_TYPE_ERR]).set TRIG_MAX_LAG_NS 0 0)

/-- INTAKE_CLEAR (R147). -/
def execIntakeClear (dt : Nat) (via : Path) (s : State) : Host.Outcome State Fault Refusal :=
  act true dt s fun s => s.intakeClear via

end Sys2Proof.Machine
end

