-- ==== Sys2Proof/Machine/Stages.lean ====
section
/-! DEFINITION. Machine/Stages.lean: the eight stages of an easel (R169 to R190) and the rules their tables obey. Table
values are read from the bytes of a bank; an empty table stands for the factory's identity. -/
namespace Sys2Proof.Machine

/-- What a bank is used with: planes or rows, bits per sample, width, whether a mosaic, and whether a fourth plane is N or
C. -/
structure Shape where
  planes : Nat
  bits : List Nat
  width : Nat
  mosaic : Bool
  near : List Bool
  subs : Nat := 0
  deriving DecidableEq, Repr

/-- The shape of a bay's lines: planes of the used sub-streams in order; mixed tells whether mosaic and interleaved types
meet, or rows differ (R169, R179). -/
def State.shape (s : State) (b : Nat) : Shape × Bool :=
  let ts := (s.subs b).filterMap (fun i => s.subType b i)
  let mosaic := ts.any (fun t => t.mosaic)
  ({ planes := (ts.map PixType.planes).sum, bits := ts.flatMap (fun t => List.replicate t.planes t.bits)
     width := s.get Reg.INTAKE_WIDTH b, mosaic := mosaic
     near := ts.flatMap (fun t => (List.range t.planes).map (fun p => t.planes == 4 && p == 3)), subs := ts.length },
   mosaic && ts.any (fun t => !t.mosaic || t != ts.headD t))

/-- A signed 16-bit table entry. -/
def int16At (b : List Byte) (i : Nat) : Int := toSigned 16 (natAt b (2 * i) 2)

/-- A mirrored index (R173). -/
def mirrorIdx (w : Nat) (x : Int) : Nat :=
  let y := if x < 0 then -x else x
  (if (w : Int) - 1 < y then 2 * (w : Int) - 2 - y else y).toNat

/-- The phase of a mosaic pixel (R170). -/
def phase (mosaic : List Byte) (x : Nat) : Nat := (x + natAt mosaic 12 1) % 4

/-- The filter code of a row at a phase (R179). -/
def filterCode (mosaic : List Byte) (r ph : Nat) : Nat := bits (natAt mosaic 0 4) (8 * r + 2 * ph + 1) (8 * r + 2 * ph)

/-- Clamp to 16 bits. -/
def clamp16 (i : Int) : Nat := (clampInt 0 0xFFFF i).toNat

/-- Stage 1: left-justified, gained and linearised (R171, R172). -/
def stage1 (k : Bank) (p w gain raw : Nat) : Nat :=
  let v := min 0xFFFF ((raw * 2 ^ (16 - w) * gain + 0x80) / 256)
  if bit k.bypass 0 ∨ k.lut.isEmpty then v
  else
    let i := v / 16
    let a := natAt k.lut (2 * (p * 4097 + i)) 2
    let e := natAt k.lut (2 * (p * 4097 + i + 1)) 2
    ((a : Int) + (((e : Int) - a) * (v % 16 : Nat) + 8) / 16).toNat

/-- Stage 2: crosstalk (R173). -/
def stage2 (k : Bank) (h : Shape) (rows : List (List Nat)) : List (List Nat) :=
  if bit k.bypass 1 ∨ k.xtalk.isEmpty then rows
  else
    (List.range rows.length).map (fun o => (List.range h.width).map (fun x =>
      let code := if h.mosaic then filterCode k.mosaic o (phase k.mosaic x) else o
      let src (q : Nat) : List Nat := if h.mosaic then (if q = 0 then rows.getD o [] else []) else rows.getD q []
      let acc := (List.range 4).foldl (fun a q => (List.range 5).foldl (fun a d =>
        a + int16At k.xtalk (code * 20 + q * 5 + d) * ((src q).getD (mirrorIdx h.width ((x : Int) + d - 2)) 0 : Nat)) a) (0 : Int)
      clamp16 ((acc + 0x2000) / 0x4000)))

/-- Stage 3: green imbalance, of mosaic types only (R174). -/
def stage3 (k : Bank) (h : Shape) (rows : List (List Nat)) : List (List Nat) :=
  if !h.mosaic || bit k.bypass 2 || k.green.isEmpty then rows
  else
    (List.range rows.length).map (fun r => ((List.range h.width).zip (rows.getD r [])).map (fun e =>
      let i := 4 * r + phase k.mosaic e.1
      clamp16 ((((e.2 * natAt k.green (4 * i) 2 + 0x2000) / 0x4000 : Nat) : Int) + toSigned 16 (natAt k.green (4 * i + 2) 2))))

/-- Stage 4: dark and flat-field (R175). -/
def stage4 (k : Bank) (h : Shape) (rows : List (List Nat)) : List (List Nat) :=
  if bit k.bypass 3 ∨ k.flat.isEmpty then rows
  else
    (List.range rows.length).map (fun p => ((List.range h.width).zip (rows.getD p [])).map (fun e =>
      let i := p * h.width + e.1
      min 0xFFFF (((e.2 - natAt k.flat (4 * i) 2) * natAt k.flat (4 * i + 2) 2 + 0x2000) / 0x4000)))

/-- The entries of a defective-pixel map: method, plane or row, pixel (R176). -/
def dpxEntries (m : List Byte) : List (Nat × Nat × Nat) :=
  (List.range (natAt m 0 4)).map (fun i =>
    let e := natAt m (4 + 4 * i) 4
    (bits e 31 30, bits e 29 28, bits e 13 0))

/-- The neighbour of a listed pixel within 8 pixels to one side: same plane or row, same filter code, not listed (R177). -/
def dpxNeighbour (k : Bank) (h : Shape) (es : List (Nat × Nat × Nat)) (p x : Nat) (right : Bool) : Option Nat :=
  (((List.range 8).map (fun d => if right then x + d + 1 else x - (d + 1))).zip (List.range 8)).findSome? (fun e =>
    let y := e.1
    if (!right && x < e.2 + 1) || h.width ≤ y then none
    else if h.mosaic && filterCode k.mosaic p (phase k.mosaic y) != filterCode k.mosaic p (phase k.mosaic x) then none
    else if es.any (fun f => f.2.1 == p && f.2.2 == y) then none
    else some y)

/-- Stage 5: defective pixels (R177). -/
def stage5 (k : Bank) (h : Shape) (rows : List (List Nat)) : List (List Nat) :=
  if bit k.bypass 4 ∨ k.dpx.isEmpty then rows
  else
    let es := dpxEntries k.dpx
    es.foldl (fun out e =>
      let row := rows.getD e.2.1 []
      let l := (dpxNeighbour k h es e.2.1 e.2.2 false).map (fun y => row.getD y 0)
      let r := (dpxNeighbour k h es e.2.1 e.2.2 true).map (fun y => row.getD y 0)
      let v := match e.1, l, r with
        | 1, some a, _ => some a
        | 2, _, some b => some b
        | 0, some a, some b => some ((a + b + 1) / 2)
        | 0, some a, none => some a
        | 0, none, some b => some b
        | _, _, _ => none
      match v with
      | some v => out.set e.2.1 ((out.getD e.2.1 []).set e.2.2 v)
      | none => out) rows

/-- Stages 1 to 5 on a camera line's planes. -/
def stages15 (k : Bank) (h : Shape) (gain : Nat) (raw : List (List Nat)) : List (List Nat) :=
  let v := (List.range raw.length).map (fun p => ((raw.getD p []).map (stage1 k p (h.bits.getD p 8) gain)))
  stage5 k h (stage4 k h (stage3 k h (stage2 k h v)))

/-! ## Stage 6 (R178 to R184) -/

/-- Palette inputs of an interleaved line: N or C to p3, the others from p0 upward; one plane to p0, p1 and p2 (R178). -/
def passPlanes (h : Shape) (rows : List (List Nat)) : List (List Nat) :=
  let zero := List.replicate h.width 0
  if rows.length = 1 then [rows.headD [], rows.headD [], rows.headD [], zero]
  else
    let near := ((rows.zip h.near).filter (fun e => e.2)).map Prod.fst
    let rest := ((rows.zip h.near).filter (fun e => !e.2)).map Prod.fst
    let three (i : Nat) : List Nat := rest.getD i zero
    [three 0, three 1, three 2, near.headD (three 3)]

/-- Rows of a descriptor. -/
def mosaicRows (m : List Byte) : Nat := natAt m 4 1

/-- Line offset of a row. -/
def mosaicOffset (m : List Byte) (r : Nat) : Nat := natAt m (8 + r) 1

/-- The largest offset of the used rows. -/
def mosaicSpan (m : List Byte) : Nat := (List.range (mosaicRows m)).foldl (fun a r => max a (mosaicOffset m r)) 0

/-- The mean of a type's sites at a column; none where it has no site (R183). -/
def siteVal (m : List Byte) (rows : List (List Nat)) (t x : Nat) : Option Int :=
  let vs := ((List.range (mosaicRows m)).filter (fun r => filterCode m r (phase m x) == t)).map (fun r => (rows.getD r []).getD x 0)
  if vs.isEmpty then none else some (divRoundAway ((vs.sum : Nat) : Int) vs.length)

/-- Interpolation along a line between the nearest sites, mirrored at the ends, to a distance of 7 (R183). -/
def interpolate (w : Nat) (f : Nat → Option Int) (gap : Int) (x : Nat) : Int :=
  match f x with
  | some v => v
  | none =>
    let side (sgn : Int) : Option (Int × Int) := ((List.range 7).map (fun d => ((d + 1 : Nat) : Int))).findSome? (fun d =>
      (f (mirrorIdx w ((x : Int) + sgn * d))).map (fun v => (d, v)))
    match side (-1), side 1 with
    | some (dl, l), some (dr, r) => divRoundAway (l * dr + r * dl) (dl + dr).toNat
    | some (_, l), none => l
    | none, some (_, r) => r
    | none, none => gap

/-- The demosaicked value of a type at a column (R183, R184). -/
def demosaicAt (m : List Byte) (w : Nat) (rows : List (List Nat)) (t x : Nat) : Nat :=
  let lin (t x : Nat) : Int := interpolate w (siteVal m rows t) (Config.noSample w t x) x
  let guide := bits (natAt m 7 1) 2 1
  if bit (natAt m 7 1) 0 && t != guide then
    clamp16 (lin guide x + interpolate w (fun y => (siteVal m rows t y).map (fun v => v - lin guide y)) (Config.noSample w t x) x)
  else clamp16 (lin t x)

/-- Palette inputs of a mosaic line from its aligned rows. -/
def demosaic (m : List Byte) (w : Nat) (rows : List (List Nat)) : List (List Nat) :=
  (List.range 4).map (fun p =>
    match (List.range (natAt m 5 1)).find? (fun t => bits (natAt m 6 1) (2 * t + 1) (2 * t) == p) with
    | some t => (List.range w).map (demosaicAt m w rows t)
    | none => List.replicate w 0)

/-! ## Stage 7: palette (R185 to R187) -/

/-- One pixel through a palette; an empty one is the neutral palette. -/
def palettePixel (pal : List Byte) (p : List Nat) : List Nat :=
  let coef (i j : Nat) : Int :=
    if pal.isEmpty then (match i, j with
      | 0, 0 => 0x400
      | 0, 1 => 0x800
      | 0, 2 => 0x400
      | 3, 3 => 0x1000
      | _, _ => 0)
    else int16At pal (4 * i + j)
  let off (i : Nat) : Int := if pal.isEmpty then (if i = 1 ∨ i = 2 then 0x8000 else 0) else toSigned 32 (natAt pal (32 + 4 * i) 4)
  let m (i : Nat) : Nat :=
    clamp16 (((List.range 4).foldl (fun a j => a + coef i j * ((p.getD j 0 : Nat) : Int)) (0 : Int) + 0x800) / 0x1000 + off i)
  if pal.isEmpty ∨ !bit (natAt pal 48 1) 0 then [m 0, m 1, m 2, m 3]
  else
    let c (f u : Nat) : Nat := if u = 1 then f else 0x1000 - f
    let node (a b d o : Nat) : Nat := natAt pal (64 + 2 * (3 * (a * 289 + b * 17 + d) + o)) 2
    let res (o : Nat) : Nat :=
      ((List.range 8).foldl (fun acc k =>
        acc + c (m 0 % 0x1000) (k / 4) * c (m 1 % 0x1000) (k / 2 % 2) * c (m 2 % 0x1000) (k % 2) *
          node (m 0 / 0x1000 + k / 4) (m 1 / 0x1000 + k / 2 % 2) (m 2 / 0x1000 + k % 2) o) 0 + 2 ^ 35) / 2 ^ 36
    [res 0, res 1, res 2, m 3]

/-- A line through a palette: planes L, A, B, N. -/
def palette (pal : List Byte) (w : Nat) (planes : List (List Nat)) : List (List Nat) :=
  let px := (List.range w).map (fun x => palettePixel pal (planes.map (fun r => r.getD x 0)))
  (List.range 4).map (fun i => px.map (fun v => v.getD i 0))

/-! ## Stage 8: resampling (R188 to R190) -/

/-- A weight that R190 leaves in its last bit: exact where the kernel's value is a whole number of 2^-14. -/
def keysRound (num : Int) (t i : Nat) : Int := if num % 32 = 0 then num / 32 else num / 32 + (Config.keysBit t i % 2 : Nat)

/-- The Keys kernel's weight of a tap at a phase, 2.14; each phase sums to 0x4000 (R190). -/
def keysWeight (t i : Nat) : Int :=
  let k : Int := t
  let w0 := keysRound (-(k * k * k) + 128 * (k * k) - 4096 * k) t 0
  let w2 := keysRound (-3 * (k * k * k) + 256 * (k * k) + 4096 * k) t 2
  let w3 := keysRound (k * k * k - 64 * (k * k)) t 3
  match i with
  | 0 => w0
  | 1 => 0x4000 - w0 - w2 - w3
  | 2 => w2
  | _ => w3

/-- The knot of a map. -/
def knotAt (m : List Byte) (k : Nat) : Nat := natAt m (16 + 4 * k) 4

/-- One view pixel of a plane (R190). -/
def resamplePixel (m : List Byte) (w : Nat) (row : List Nat) (j : Nat) : Nat :=
  let a := knotAt m (j / 64)
  let e := knotAt m (j / 64 + 1)
  let pos : Int := (a : Int) + (((e : Int) - a) * (j % 64 : Nat) + 32) / 64
  let i0 := pos / 65536
  let t0 := (pos % 65536 + 0x200) / 0x400
  let i := if t0 = 64 then i0 + 1 else i0
  let t := if t0 = 64 then 0 else t0.toNat
  let tap (d : Int) : Int := ((row.getD (mirrorIdx w (i + d)) 0 : Nat) : Int)
  let acc := keysWeight t 0 * tap (-1) + keysWeight t 1 * tap 0 + keysWeight t 2 * tap 1 + keysWeight t 3 * tap 2
  min 0xFF ((clamp16 ((acc + 0x2000) / 0x4000) + 0x80) / 256)

/-- A line's view pixels by plane. -/
def resample (m : List Byte) (w : Nat) (planes : List (List Nat)) : List (List Nat) :=
  planes.map (fun r => (List.range (natAt m 8 4)).map (resamplePixel m w r))

/-! ## Table rules (R160, R168, R172, R176, R177, R180, R189) -/

/-- What a bank's first failing check says: 3 BAD_TABLE or 4 TYPE_MISMATCH, and the stage; 0 for a valid bank. A bank refused for
its number or mix of planes reads stage 1, and one with the reserved METHOD 3 is BAD_TABLE at stage 5 (DESIGN CHOICE, log entry
166). The descriptor's cases of BAD_TABLE bind banks of every type, its rows count those of mosaic types (DEDUCED, log entry 167). -/
def Bank.check (k : Bank) (h : Shape) (mixed : Bool) : Nat × Nat :=
  let es := dpxEntries k.dpx
  let dkey (e : Nat × Nat × Nat) : Nat := e.2.1 * 16384 + e.2.2
  let ordered := (es.zip (es.drop 1)).all (fun e => decide (dkey e.1 < dkey e.2))
  let lacks (e : Nat × Nat × Nat) : Bool :=
    let l := (dpxNeighbour k h es e.2.1 e.2.2 false).isNone
    let r := (dpxNeighbour k h es e.2.1 e.2.2 true).isNone
    (l && r) || (e.1 == 1 && l) || (e.1 == 2 && r)
  let m := k.mosaic
  let rows := mosaicRows m
  let types := natAt m 5 1
  let codes := (List.range rows).flatMap (fun r => (List.range 4).map (fun c => filterCode m r c))
  let maps := (List.range types).map (fun t => bits (natAt m 6 1) (2 * t + 1) (2 * t))
  let n := natAt k.resample 8 4
  let knots := (n + 63) / 64 + 1
  let ks := (List.range knots).map (knotAt k.resample)
  if 4 < h.planes ∨ mixed then (4, 1)
  else if k.lut ≠ [] ∧ k.lut.length ≠ h.planes * 8194 then (4, 1)
  else if k.lut ≠ [] ∧ (List.range h.planes).any (fun p => (List.range 4096).any (fun i =>
      decide (natAt k.lut (2 * (p * 4097 + i + 1)) 2 < natAt k.lut (2 * (p * 4097 + i)) 2))) then (3, 1)
  else if k.xtalk ≠ [] ∧ h.mosaic ∧ (List.range 80).any (fun i => decide (5 ≤ i % 20) && int16At k.xtalk i != 0) then (3, 2)
  else if k.flat ≠ [] ∧ k.flat.length ≠ h.planes * h.width * 4 then (4, 4)
  else if k.dpx ≠ [] ∧ (4096 < natAt k.dpx 0 4 ∨ k.dpx.length ≠ 4 + 4 * natAt k.dpx 0 4 ∨ !ordered ∨ es.any (fun e => e.1 == 3)) then (3, 5)
  else if k.dpx ≠ [] ∧ es.any (fun e => decide (h.planes ≤ e.2.1) || decide (h.width ≤ e.2.2)) then (4, 5)
  else if k.dpx ≠ [] ∧ es.any lacks then (3, 5)
  else if rows ≠ h.subs then (4, 6)
  else if rows = 0 ∨ 4 < rows ∨ types = 0 ∨ 4 < types ∨ codes.any (fun c => decide (types ≤ c)) ∨
      (List.range types).any (fun t => !codes.contains t) ∨ !(decide (maps.eraseDups.length = maps.length)) ∨
      (List.range rows).all (fun r => mosaicOffset m r != 0) ∨ (List.range rows).any (fun r => decide (63 < mosaicOffset m r)) ∨
      3 < natAt m 12 1 ∨ types ≤ bits (natAt m 7 1) 2 1 then (3, 6)
  else if k.resample ≠ [] ∧ k.resample ≠ 0xFF :: List.replicate 23 0 ∧ ((3 < natAt k.resample 0 1 ∧ natAt k.resample 0 1 ≠ 0xFF) ∨ n = 0 ∨ 32768 < n ∨ natAt k.resample 2 2 ≠ knots ∨
      k.resample.length ≠ 16 + 4 * knots ∨ 196608 < natAt k.resample 4 4 + n ∨
      ks.any (fun x => decide ((h.width - 1) * 65536 < x)) ∨
      (ks.zip (ks.drop 1)).any (fun e => decide (e.2 < e.1 + 32 * 65536) || decide (e.1 + 128 * 65536 < e.2))) then (3, 8)
  else (0, 0)

end Sys2Proof.Machine
end

