-- ==== Sys2Proof/Machine/Easels.lean ====
section
/-! DEFINITION. Machine/Easels.lean: easels: contexts, the quay, the arbiter, banks and commits, heartbeats and the spare
(R148 to R168, R181, R182, R192 to R198). -/
namespace Sys2Proof.Machine
open Reg

/-! ## Contexts, demand and the quay (R149, R154, R155) -/

/-- Whether a context of an easel has a camera. -/
def State.ctxUsed (s : State) (k c : Nat) : Bool := s.bayUsed (s.bayOf k c)

/-- Whether an easel has any used context; with none it is powered down in every mode (R149). -/
def State.easelUsed (s : State) (k : Nat) : Bool := s.ctxUsed k 0 || s.ctxUsed k 1

/-- Clocks that one line of a context needs (R154). -/
def State.lineClocks (s : State) (b : Nat) : Nat :=
  let samples := s.get INTAKE_WIDTH b * (s.shape b).1.planes
  let k := (s.ctx b).bank
  max ((samples + 11) / 12) (((if k.view.isSome then k.cols else 0) + 11) / 12)

/-- An easel's demand per line period in clocks of 1 ns (R148, R154). -/
def State.easelDemand (s : State) (k : Nat) : Nat :=
  let part (c : Nat) : Nat := if s.ctxUsed k c then s.lineClocks (s.bayOf k c) else 0
  part 0 + part 1 + (if s.ctxUsed k 0 && s.ctxUsed k 1 then 32 else 0)

/-- The bytes that one line of a sub-stream takes in the quay (R155). -/
def State.quayTerm (s : State) (b i : Nat) : Nat :=
  match s.subType b i with
  | some t => ((s.get INTAKE_WIDTH b * t.stored * t.planes + 7) / 8 + 63) / 64 * 64
  | none => 0

/-- The bytes that one line of a bay takes in the quay. -/
def State.quayLine (s : State) (b : Nat) : Nat := ((s.subs b).map (s.quayTerm b)).sum

/-- The effective quay depth (R155); a context B without a used sub-stream has none (DESIGN CHOICE, log entry 162). -/
def State.quayDepth (s : State) (k : Nat) : Nat :=
  let raw := 256 * s.quayLine (s.bayOf k 1)
  if raw = 0 then 0 else min (s.get EASEL_QUAY_DEPTH k) (134217728 / raw)

/-- The samples of a tile packet of context B are stored in the quay area (R155, R445): strips in turn, lines in order, then
sub-streams (the order within the area is a DESIGN CHOICE, log entry 163). -/
def State.quayStore (s : State) (k b n : Nat) (p : List Byte) : State :=
  let sub := natAt p 0 1 % 4
  match s.subType b sub, (s.easel k).reserved.find? (fun r => r.1 == n / 256) with
  | some t, some r =>
      let line := 0x10E0000000 + k * 0x8000000 + (256 * r.2 + n % 256) * s.quayLine b
      let first := natAt p 8 2 * t.planes * t.stored
      let a := line + (((s.subs b).filter (fun i => decide (i < sub))).map (s.quayTerm b)).sum + first / 8
      s.dramWrite a (leBytes ((first % 8 + t.stored * natAt p 2 2 + 7) / 8)
        (s.dramByte a % 2 ^ (first % 8) + 2 ^ (first % 8) * leNat (bytesAt p 16 (p.length - 20))))
  | _, _ => s

/-- The lowest place in a quay that no strip reserved takes. -/
def Easel.quaySlot (e : Easel) : Nat := ((List.range 8).find? (fun i => e.reserved.all (fun r => r.2 != i))).getD 0

/-- EASEL_QUAY_FILL and its peak follow the strips reserved (R156). -/
def State.quayFill (s : State) (k : Nat) : State :=
  let n := (s.easel k).reserved.length
  (s.set EASEL_QUAY_FILL k n).set EASEL_QUAY_PEAK k (max n (s.get EASEL_QUAY_PEAK k))

/-- A quay strip is dropped (R158). -/
def State.quayDrop (s : State) (k strip : Nat) : State :=
  let b := s.bayOf k 1
  let span := if (s.shape b).1.mosaic then mosaicSpan (s.ctx b).bank.mosaic else 0
  let notes := (if span = 0 then [] else [Note.mk (256 * strip - span) (256 * strip - 1) blindSubst]) ++
    [Note.mk (256 * strip) (256 * strip + 255) blindQuay]
  let t := ((s.modEasel k (fun e => { e with dropped := e.dropped ++ [strip] })).tally EASEL_QUAY_DROP k).emit 0xB0
  let t := (t.camFlag b (256 * strip) 16).camFlag b (256 * strip + 255) 16
  { t with notes := modifyAt t.notes b (· ++ notes) }

/-- A line is triggered: the quays reserve the strip at its first line, or overflow (R156, R158). -/
def State.quayTrigger (s : State) (n : Nat) : State :=
  (List.range 6).foldl (fun t k =>
    let e := t.easel k
    if !t.ctxUsed k 1 || t.quayDepth k == 0 || !(n % 256 == 0 || t.trig.firstLine == some n) ||
        e.reserved.any (fun r => r.1 == n / 256) then t
    else if e.reserved.length = t.quayDepth k then t.quayDrop k (n / 256)
    else (t.modEasel k (fun e => { e with reserved := e.reserved ++ [(n / 256, e.quaySlot)] })).quayFill k) s

/-- Whether more of a line is still on its way to an easel: its bay awaits it, or tile packets of it are on the ferry. -/
def State.coming (s : State) (b n : Nat) : Bool :=
  (s.bay b).await.any (fun l => l.num == n && !l.replaced) || (s.bay b).ferry.any (fun p => s.fullLine (natAt p 4 4) == n)

/-- The lines that a quay holds: those of context B stored whole, and those of which no more will come. -/
def State.quayLines (s : State) (k : Nat) : List Nat :=
  let b := s.bayOf k 1
  (((s.easel k).ctxs.getD 1 {}).store.filter (fun l => s.lineWhole b { num := l.num, at_ := 0, parts := l.parts, done := l.done } ||
    !s.coming b l.num)).map CamLine.num

/-- Whether a strip of context B still has its last line to come or a line in work. -/
def State.quayOpen (s : State) (k strip : Nat) : Bool :=
  let b := s.bayOf k 1
  let last := 256 * strip + 255
  decide (s.get LINE_NUMBER ≤ last) || s.coming b last || (match (s.easel k).running with
    | some (1, l) => l.num / 256 == strip
    | _ => false)

/-- A quay is emptied (R72, R157): the lines it holds are lost and covered like those of a quay strip dropped; a line in work and
lines on their way complete normally, and their strips stay reserved (R66; DEDUCED, log entry 164). -/
def State.quayEmpty (s : State) (k : Nat) : State :=
  let b := s.bayOf k 1
  let lost := s.quayLines k
  let t := (lost.foldl (fun u n => u.camFlag b n 16) s).modEasel k (fun e => { e with
    reserved := e.reserved.filter (fun r => s.quayOpen k r.1)
    ctxs := modifyAt e.ctxs 1 (fun c => { c with store := c.store.filter (fun l => !lost.contains l.num) }) })
  ({ t with notes := modifyAt t.notes b (· ++ lost.map (fun n => Note.mk n n blindQuay)) }).quayFill k

/-- The quays are emptied on entry to READY (R72, R157). -/
def State.quaysEmpty (s : State) : State :=
  (List.range 6).foldl (fun t k => if t.ctxUsed k 1 then t.quayEmpty k else t) s

/-! ## Banks and commits (R159 to R168) -/

/-- The staged bank of a context (index 2 k + c). -/
def State.stagedBank (s : State) (i : Nat) : Bank :=
  let base : Bank := {}
  { bypass := s.get EASEL_BYPASS i, lut := s.blob EASEL_LIN_LUT i, xtalk := s.blob EASEL_XTALK i, green := s.blob EASEL_GREEN i
    flat := s.blob EASEL_DARK_FLAT i, dpx := s.blob EASEL_DPX_MAP i
    mosaic := if (s.blob EASEL_MOSAIC i).isEmpty then base.mosaic else s.blob EASEL_MOSAIC i
    resample := s.blob EASEL_RESAMPLE i }

/-- The staged bank set to a bank's content (R164). -/
def State.stageBank (s : State) (i : Nat) (k : Bank) : State :=
  (((((((s.set EASEL_BYPASS i k.bypass).setBlob EASEL_LIN_LUT i k.lut).setBlob EASEL_XTALK i k.xtalk).setBlob EASEL_GREEN i
    k.green).setBlob EASEL_DARK_FLAT i k.flat).setBlob EASEL_DPX_MAP i k.dpx).setBlob EASEL_MOSAIC i k.mosaic).setBlob
      EASEL_RESAMPLE i k.resample

/-- Whether a job's palette is on its way to a bay (R166). -/
def State.jobPalette (s : State) (b : Nat) : Bool :=
  let st := s.get SWITCH_STATE
  (st == 1 || st == 2 || st == 3) && (match s.web.pendingJob with
    | some p => (Package.sec p secPalette b).isSome
    | none => false)

/-- Whether a context still holds or awaits a line before `n` (R164). -/
def State.ctxBusyBefore (s : State) (b n : Nat) : Bool :=
  let e := s.easel (b / 2)
  (s.bay b).await.any (fun l => decide (l.num < n) && !l.replaced) || s.ferryBefore b n ||
    (s.ctx b).store.any (fun l => decide (l.num < n)) || e.running.any (fun r => r.1 == s.ctxOf b && decide (r.2.num < n))

/-- A commit's bank with the line it applies from, registered (R161, R165). -/
def State.registerBank (s : State) (k c : Nat) (bank : Bank) (strip : Nat) : State :=
  let i := 2 * k + c
  let t := s.modEasel k (fun e => { e with ctxs := modifyAt e.ctxs c (fun x => { x with pend := some (256 * strip, bank) }) })
  (((t.set EASEL_COMMIT_RESULT i 1).set EASEL_COMMIT_STAGE i 0).set EASEL_CTX_PENDING i 1).set EASEL_CTX_APPLY_STRIP i strip

/-- The state in which every bank that waits for its strip is active, and `bank` in a context. -/
def State.withBanks (s : State) (k c : Nat) (bank : Bank) : State :=
  let due (x : Ctx) : Ctx := match x.pend with
    | some e => { x with banks := [(0, e.2)] }
    | none => x
  { s with easels := s.easels.map (fun (e : Easel) => { e with ctxs := e.ctxs.map due }) }.modEasel k
    (fun e => { e with ctxs := modifyAt e.ctxs c (fun x => { x with banks := [(0, bank)] }) })

/-- Whether a bank in a context, with the banks that wait in others, would make a view's geometry invalid where the mode forbids it
(R202). -/
def State.breaksGeometry (s : State) (k c : Nat) (bank : Bank) : Bool :=
  let m := s.get MODE
  (m == 2 || m == 3 || m == 4) && (List.range 4).any (fun v => (s.withBanks k c bank).viewState v == 2)

/-- EASEL_CTX_COMMIT's write (R160, R161, R164, R202). -/
def State.ctxCommit (s : State) (via : Path) (k c : Nat) : State :=
  let i := 2 * k + c
  let key := EASEL_CTX_COMMIT.key i
  let bank := s.stagedBank i
  let h := s.shape (s.bayOf k c)
  let r := bank.check h.1 h.2
  let no (code stage : Nat) : State :=
    ((((s.set EASEL_COMMIT_RESULT i code).set EASEL_COMMIT_STAGE i stage).traceCommit EASEL_CTX_COMMIT i code 0).refuse via key 0x06040043)
  if s.get EASEL_CTX_PENDING i = 1 then ((s.set EASEL_COMMIT_RESULT i 2).traceCommit EASEL_CTX_COMMIT i 2 0).refuse via key abortBusy
  else if r.1 ≠ 0 then no r.1 r.2
  else if s.breaksGeometry k c bank then no 3 8
  else
    let strip := s.applyStrip
    (s.accept.registerBank k c bank strip).traceCommit EASEL_CTX_COMMIT i 1 strip

/-- EASEL_CTX_COMMIT (R160). -/
def execEaselCtxCommit (dt : Nat) (via : Path) (easel ctx : Nat) (s : State) : Host.Outcome State Fault Refusal :=
  act (decide (easel < 6) && decide (ctx < 2)) dt s fun s => s.ctxCommit via easel ctx

/-- EASEL_PAL_COMMIT's write (R166). -/
def State.palCommit (s : State) (via : Path) (k c : Nat) : State :=
  let i := 2 * k + c
  let key := EASEL_PAL_COMMIT.key i
  if s.get EASEL_PAL_PENDING i = 1 ∨ s.jobPalette (s.bayOf k c) then
    ((s.set EASEL_COMMIT_RESULT i 2).traceCommit EASEL_PAL_COMMIT i 2 0).refuse via key abortBusy
  else
    let strip := s.applyStrip
    let t := s.accept.modEasel k (fun e => { e with ctxs := modifyAt e.ctxs c (fun x => { x with
      palPend := some (256 * strip, s.blob EASEL_PALETTE i) }) })
    (((t.set EASEL_COMMIT_RESULT i 1).set EASEL_PAL_PENDING i 1).set EASEL_CTX_APPLY_STRIP i strip).traceCommit EASEL_PAL_COMMIT i 1 strip

/-- EASEL_PAL_COMMIT (R166). -/
def execEaselPalCommit (dt : Nat) (via : Path) (easel ctx : Nat) (s : State) : Host.Outcome State Fault Refusal :=
  act (decide (easel < 6) && decide (ctx < 2)) dt s fun s => s.palCommit via easel ctx

/-- A context's pending flags clear once the last line before the application strip is processed (R164, R166). -/
def State.settleCtx (s : State) (k c : Nat) : State :=
  let i := 2 * k + c
  let b := s.bayOf k c
  let x := (s.easel k).ctxs.getD c {}
  let done (n : Nat) : Bool := decide (n < s.get LINE_NUMBER) && !s.ctxBusyBefore b n
  let s1 := if s.get EASEL_CTX_PENDING i = 1 && x.pend.isNone && (match x.banks.head? with
      | some e => done e.1
      | none => true) then
      ((s.set EASEL_CTX_PENDING i 0).set EASEL_COMMIT_RESULT i 0).stageBank i x.bank
    else s
  if s1.get EASEL_PAL_PENDING i = 1 && x.palPend.isNone && (match x.palettes.head? with
      | some e => done e.1
      | none => true) then
    (s1.set EASEL_PAL_PENDING i 0).set EASEL_COMMIT_RESULT i 0
  else s1

/-- Banks and palettes whose strip begins with line `n` become active, and the calibration generation increments once
(R161, R163, R166). The standby palette keeps the content that was committed (DESIGN CHOICE, log entry 207). -/
def State.applyBanks (s : State) (n : Nat) : State :=
  let due (x : Ctx) : Bool := match x.pend with
    | some e => decide (e.1 ≤ n)
    | none => false
  let any := s.easels.any (fun e => e.ctxs.any due)
  let up (x : Ctx) : Ctx :=
    let y := match x.pend with
      | some e => if e.1 ≤ n then { x with banks := (n, e.2) :: x.banks, pend := none } else x
      | none => x
    match y.palPend with
    | some e => if e.1 ≤ n then { y with palettes := (n, e.2) :: y.palettes, palPend := none } else y
    | none => y
  let t := { s with easels := s.easels.map (fun e => { e with ctxs := e.ctxs.map up }) }
  let t := if any then { t with trig := { t.trig with cgen := (t.trig.cgen + 1) % 256 } } else t
  (List.range 12).foldl (fun u i => u.settleCtx (i / 2) (i % 2)) t

/-- A job's palettes become active at line `n` (R50, R166). -/
def State.applyPalettes (s : State) (p : Package) (n : Nat) : State :=
  (List.range 12).foldl (fun t b =>
    match p.sec secPalette b with
    | some q => t.modCtx b (fun x => { x with palettes := (n, q) :: x.palettes })
    | none => t) s

/-- R168: every used context's active bank fits its bay; a mismatch shows in EASEL_COMMIT_RESULT. -/
def State.checkBanks (s : State) : State × Bool :=
  (List.range 12).foldl (fun r i =>
    let k := i / 2
    let c := i % 2
    let b := s.bayOf k c
    let h := s.shape b
    if s.bayUsed b && (((s.easel k).ctxs.getD c {}).bank.check h.1 h.2).1 != 0 then (r.1.set EASEL_COMMIT_RESULT i 4, false) else r) (s, true)

/-- The demand at the shortest line period, on every entry to MAKEREADY, INSPECT or CALIBRATE (R154). -/
def State.loadMax (s : State) : State :=
  (List.range 6).foldl (fun t k =>
    t.set EASEL_LOAD_MAX_PERMILLE k (min 65535 (t.easelDemand k * 1000 / t.get TRIG_MIN_PERIOD_NS))) s

/-- EASEL_LOAD_WINDOW (R154): a window of 100 ms ends. -/
def execEaselLoadWindow (dt easel : Nat) (s : State) : Host.Outcome State Fault Refusal :=
  act (decide (easel < 6)) dt s fun s =>
    let e := s.easel easel
    if s.now < e.winStart + 100000000 then s
    else
      let lines := (s.trig.lines.filter (fun l => decide (e.winStart ≤ l.at_))).length
      (s.set EASEL_LOAD_PERMILLE easel (min 65535 (s.easelDemand easel * lines * 1000 / (s.now - e.winStart)))).modEasel easel
        (fun e => { e with winStart := s.now })

/-! ## Lines (R151, R153, R162, R181, R182) -/

/-- An output line leaves for the joiner (R151, R162, R182). -/
def State.deliver (s : State) (b n : Nat) (planes : List (List Nat)) (subst mixed : Bool) (gen : Nat) : State :=
  let x := s.ctx b
  let bank := x.bankAt n
  let s1 := if subst then s.camFlag b n 2 else s
  let s2 := if mixed then ((s1.camFlag b n 4).tally EASEL_MIXED_LINES (b / 2)).trimSpoiled b n else s1
  match bank.view with
  | none => s2
  | some v =>
    let w := (s.shape b).1.width
    let g : Seg := {
      bay := b, line := n, subst := subst, mixed := mixed, egen := gen
      cgen := ((s.lineAt n).map Line.cgen).getD s.trig.cgen, view := v, j0 := bank.j0, ctxB := s.ctxOf b == 1
      planes := resample bank.resample w (palette (x.paletteAt n) w planes) }
    { s2 with segs := modifyAt s2.segs b (· ++ [g]) }

/-- Output line `n` of a mosaic camera, if every row it combines is there (R181, R182). -/
def State.tryOutput (s : State) (b n : Nat) : State :=
  let x := s.ctx b
  let m := (x.bankAt n).mosaic
  let rs := (List.range (mosaicRows m)).map (fun r => (r, x.rows.find? (fun d => d.num == n + mosaicOffset m r)))
  if rs.all (fun e => e.2.isSome) then
    let ds := rs.filterMap (fun e => e.2.map (fun d => (e.1, d)))
    let rows := ds.map (fun e => e.2.rows.getD e.1 [])
    let gen := (ds.head?.map (fun e => e.2.gen)).getD 0
    s.deliver b n (demosaic m (s.shape b).1.width rows) (ds.any (fun e => e.2.subst)) (ds.any (fun e => e.2.gen != gen)) gen
  else s

/-- The samples of a camera line by plane (R139, R169). -/
def State.linePlanes (s : State) (b : Nat) (l : CamLine) : List (List Nat) :=
  let subs := s.subs b
  let rows := OutLine.rows { num := l.num, at_ := 0, parts := l.parts } subs
  ((s.rawPlanes b rows).map Prod.snd).map (fun r => bytesAt r 0 (s.get INTAKE_WIDTH b))

/-- The output lines that combine a row of camera line `n`, by the bank of each output line (R162, R181). -/
def Ctx.outputsOf (x : Ctx) (n : Nat) : List Nat :=
  ((List.range 64).filter (fun o => decide (o ≤ n) &&
    (let m := (x.bankAt (n - o)).mosaic
     (List.range (mosaicRows m)).any (fun r => mosaicOffset m r == o)))).map (fun o => n - o)

/-- An easel finishes a camera line: stages 1 to 5 with the bank of its own number, then alignment, palette and
resampling (R162, R169, R181). -/
def State.processLine (s : State) (b : Nat) (l : CamLine) : State :=
  let h := (s.shape b).1
  let x := s.ctx b
  let planes := stages15 (x.bankAt l.num) h ((s.bay b).gainAt l.num) (s.linePlanes b l)
  if h.mosaic then
    let d : DoneLine := { num := l.num, gen := l.gen, subst := l.subst, rows := planes }
    let t := s.modCtx b (fun y => { y with rows := (d :: y.rows.filter (fun z => z.num != l.num)).filter (fun z => decide (l.num < z.num + 4096)) })
    (x.outputsOf l.num).foldl (fun u n => u.tryOutput b n) t
  else s.deliver b l.num (passPlanes h planes) l.subst false l.gen

/-- Whether a stored line is whole. -/
def State.camWhole (s : State) (b : Nat) (l : CamLine) : Bool :=
  s.lineWhole b { num := l.num, at_ := 0, parts := l.parts, done := l.done }

/-- The lowest complete line that waits in a context; context B consumes in line order (R153, R156). -/
def State.nextLine (s : State) (k c : Nat) : Option CamLine :=
  let b := s.bayOf k c
  let ls := ((s.easel k).ctxs.getD c {}).store
  let low := ls.foldl (fun m l => match m with
    | none => some l
    | some (x : CamLine) => if l.num < x.num then some l else some x) none
  if c = 0 then
    (ls.filter (fun l => s.camWhole b l)).foldl (fun m l => match m with
      | none => some l
      | some (x : CamLine) => if l.num < x.num then some l else some x) none
  else
    match low with
    | some l =>
      if s.camWhole b l && !s.ferryBefore b l.num && (s.bay b).await.all (fun a => a.replaced || decide (l.num < a.num) ||
          (s.easel k).dropped.contains (a.num / 256)) then some l
      else none
    | none => none

/-- A line starts once a change of context in progress is over; a further change, which only an easel with both contexts used makes,
costs 16 clocks first (R153, R154). -/
def State.startLine (s : State) (k c : Nat) (l : CamLine) : State :=
  let turn := s.ctxUsed k 0 && s.ctxUsed k 1 && (s.easel k).inB != (c == 1)
  let start := max s.now (s.easel k).freeAt + (if turn then 16 else 0)
  let t := if turn then s.volume EASEL_CTX_SWITCHES k else s
  let t := t.modEasel k (fun e => { e with
    inB := c == 1, running := some (c, l), startAt := start
    ctxs := modifyAt e.ctxs c (fun x => { x with store := x.store.filter (fun z => z.num != l.num) }) })
  if c = 0 then t.set EASEL_A_MAX_DELAY_NS k (max (t.get EASEL_A_MAX_DELAY_NS k) (start - l.at_)) else t

/-- The arbiter of a RUNNING easel, at a line boundary (R153, R157, R193). -/
def State.arbiter (s : State) (k : Nat) : State :=
  if (s.easel k).running.isSome ∨ s.get EASEL_STATE k ≠ 1 then s
  else
    match s.nextLine k 0 with
    | some l => s.startLine k 0 l
    | none =>
      match (if (s.easel k).heldB then none else s.nextLine k 1) with
      | some l => s.startLine k 1 l
      | none =>
        if (s.easel k).inB && s.ctxUsed k 0 then 
          (s.volume EASEL_CTX_SWITCHES k).modEasel k (fun e => { e with inB := false, freeAt := max s.now e.freeAt + 16 }) else s

/-- Easels work in READY, MAKEREADY, INSPECT and CALIBRATE (R69). -/
def State.easelsRun (s : State) : Bool := s.get MODE != 0 && s.get MODE != 5

/-- A tile packet's samples join their line in the context; replacement packets that begin a sub-stream anew take the place of what
came of it before (R144). -/
def State.storePacket (s : State) (b : Nat) (p : List Byte) : State :=
  let sub := natAt p 0 1 % 4
  let n := s.fullLine (natAt p 4 4)
  let flags := natAt p 10 1
  let w := ((pixType (natAt p 1 1)).map PixType.stored).getD 8
  let xs := unpackSamples w (natAt p 2 2) (leNat (bytesAt p 16 (p.length - 20)))
  let had := (s.ctx b).store.find? (fun l => l.num == n)
  let l0 : CamLine := had.getD { num := n, gen := natAt p 11 1 }
  let subst := bit flags 1
  if !subst && (l0.subst || l0.bad) then s
  else
    let l1 := if subst && !l0.subst then { l0 with subst := true, bad := false, parts := [], done := [] }
      else if subst && natAt p 8 2 == 0 then
        { l0 with parts := l0.parts.filter (fun x => x.1 != sub), done := l0.done.filter (· != sub) }
      else l0
    let l2 := { l1 with
      parts := l1.parts ++ [(sub, natAt p 8 2, xs)], done := if bit flags 0 then insertNat sub l1.done else l1.done, at_ := s.now }
    s.modCtx b (fun x => { x with store := if had.isSome then x.store.map (fun l => if l.num = n then l2 else l) else x.store ++ [l2] })

/-- The lane that carried a tile packet of a line: that of the camera packet with the highest first pixel at or before its own. -/
def Bay.laneOf (x : Bay) (n sub first : Nat) : Option Nat :=
  ((x.carried.filter (fun e => e.line == n && e.sub == sub && decide (e.first ≤ first))).foldl (fun (m : Option Carried) e =>
    match m with
    | some c => if c.first < e.first then some e else m
    | none => some e) none).map Carried.lane

/-- Whether a line has been replaced: replacement packets of it are stored or on their way. -/
def State.tileReplaced (s : State) (b n : Nat) : Bool :=
  (s.ctx b).store.any (fun l => l.num == n && (l.bad || l.subst)) ||
    (s.bay b).ferry.any (fun p => s.fullLine (natAt p 4 4) == n && bit (natAt p 10 1) 1)

/-- A tile packet of a line, `sent` as it left the intake, failed its CRC: a CRC error of that line, on the lane that carried it, and the
line is replaced, once (R141, R142). A replacement packet that fails is sent anew (DEDUCED, log entry 165). -/
def State.badTile (s : State) (b n : Nat) (sent : List Byte) : State :=
  let subst := bit (natAt sent 10 1) 1
  let t := s.camFlag b n 1
  let u := match (if subst then none else (s.bay b).laneOf n (natAt sent 0 1 % 4) (natAt sent 8 2)) with
    | some lane => t.tally LANE_CRC_ERR (4 * b + lane)
    | none => t
  if !subst && s.tileReplaced b n then u
  else
    let w := u.modCtx b (fun x => { x with store := x.store.filter (fun l => l.num != n) ++ [{ num := n, bad := true }] })
    if subst then w.sendSubst b n else w.replaceLine b n

/-- TILE_PACKET (R138, R141, R142, R155, R158): the oldest packet on the way from a bay reaches its easel as `packet`. -/
def execTilePacket (dt easel ctx : Nat) (packet : List Nat) (s : State) : Host.Outcome State Fault Refusal :=
  act (decide (easel < 6) && decide (ctx < 2)) dt s fun s =>
    let b := s.bayOf easel ctx
    match (s.bay b).ferry with
    | [] => s
    | sent :: rest =>
      if !s.easelsRun then s
      else
        let t := s.modBay b (fun x => { x with ferry := rest })
        let p := packet.map (· % 256)
        let n := t.fullLine (natAt sent 4 4)
        let e := t.easel easel
        let u :=
          if t.get EASEL_STATE easel != 1 || decide (n < e.resumeLine) || (ctx == 1 && e.dropped.contains (n / 256)) then t
          else if p.length < 20 ∨ crc32c (p.take (p.length - 4)) ≠ leNat (p.drop (p.length - 4)) then
            t.badTile b n sent
          else (if ctx = 1 then t.quayStore easel b n p else t).storePacket b p
        (u.arbiter easel).statSettle b

/-- EASEL_LINE_DONE (R153, R192, R195): a line that physical easel `phys` processed leaves stage 8, with the heartbeat
token when `ack`; output of a declared-dead easel is discarded at the landing. -/
def execEaselLineDone (dt easel phys : Nat) (ack : Bool) (s : State) : Host.Outcome State Fault Refusal :=
  act (decide (easel < 6) && decide (phys < 7)) dt s fun s =>
    if !s.easelsRun then s
    else if s.get EASEL_PHYS easel ≠ phys ∨ s.get EASEL_PHYS_STATE phys ≠ 0 then
      (s.tally EASEL_STALE_RESULT).set ISLAND_STATE (26 + phys) 5
    else
      let s0 := if ack then s.modEasel easel (fun e => { e with tokens := e.tokens.drop 1, misses := 0 }) else s
      match (s0.easel easel).running with
      | none => s0.arbiter easel
      | some (c, l) =>
        let b := s0.bayOf easel c
        let t := (s0.modEasel easel (fun e => { e with running := none })).processLine b l
        let clocks := t.lineClocks b
        let t := t.volume EASEL_BUSY_CLOCKS 0 clocks
        let t := if c = 1 ∧ l.num % 256 = 255 then
            (t.modEasel easel (fun e => { e with reserved := e.reserved.filter (fun r => r.1 != l.num / 256) })).quayFill easel
          else t
        (t.settleCtx easel c).arbiter easel

/-- SEAM_HOLDBACK_END (R153, R214): the write queue has fallen to 50 %, and idle easels look for a line. -/
def execSeamHoldbackEnd (dt view : Nat) (s : State) : Host.Outcome State Fault Refusal :=
  act (decide (view < 4)) dt s fun s =>
    if (s.view view).holding then
      let t := ((s.modView view (fun w => { w with holding := false })).holdB view false).volume SEAM_HOLDBACK_NS view
        (s.now - (s.view view).heldAt)
      if t.easelsRun then (List.range 6).foldl State.arbiter t else t
    else s

/-! ## Heartbeats and takeover (R192 to R196) -/

/-- A heartbeat token enters every running easel that is `due`; its deadline is `ns` away (R192). -/
def State.sendTokens (s : State) (ns : Nat) (due : Easel → Bool) : State :=
  if !s.easelsRun then s
  else
    (List.range 6).foldl (fun t k =>
      if t.get EASEL_STATE k = 1 ∧ due (t.easel k) = true then t.modEasel k (fun e => { e with tokens := e.tokens ++ [s.now + ns], sentAt := s.now })
      else t) s

/-- EASEL_HEARTBEAT_SEND (R192): 5 ms after the last token while no strip begins; a token at a strip start is part of its
first line's trigger. -/
def execEaselHeartbeatSend (dt : Nat) (s : State) : Host.Outcome State Fault Refusal :=
  act true dt s fun s =>
    s.sendTokens 6250000 (fun e => decide (e.sentAt + 5000000 ≤ s.now))

/-- The lowest SPARE physical easel. -/
def State.spareEasel (s : State) : Option Nat := lowest 7 (fun p => s.get EASEL_PHYS_STATE p == 1)

/-- A spare takes a logical easel: it is in use, and its island is to be released (R193, R194). -/
def State.routeEasel (s : State) (k p : Nat) : State :=
  let t := ((s.set EASEL_PHYS k p).setUnit 1 p 0)
  let t := { t with bench := { t.bench with easelCheck := if (t.bench.easelCheck.map Prod.fst) = some p then none else t.bench.easelCheck } }
  let t := t.set PD_STATE (26 + p) 1
  if t.get ISLAND_STATE (26 + p) = 2 then t else t.set ISLAND_STATE (26 + p) 3

/-- A physical easel is declared dead: its clock stops, unless it has failed or lost its power; the spare takes over, or the logical
easel goes DOWN (R193, R194, R588, R625). -/
def State.easelDead (s : State) (k : Nat) : State :=
  let p := s.get EASEL_PHYS k
  let t := (((s.declareDead 1 p).stopEasel p).emit 0xB1).emcy 0xFF03 p
  let t := t.modEasel k (fun e => { e with tokens := [], misses := 0, running := none, resumeLine := 0 })
  match t.spareEasel with
  | some q => ((t.routeEasel k q).set EASEL_STATE k 2).modEasel k (fun e => { e with takeover := true })
  | none =>
    let u := ((t.modEasel k (fun e => { e with
      takeover := false, ctxs := e.ctxs.map (fun (x : Ctx) => { x with store := [], rows := [] }) })).set EASEL_STATE k 3).emit 0xB2
    [0, 1].foldl (fun w c =>
      let b := w.bayOf k c
      if w.bayUsed b then
        (((w.bay b).await.filter (fun l => !l.replaced)).map OutLine.num).foldl (fun x n => x.lateLine b n) w
      else w) u

/-- EASEL_HB_DEADLINE (R192): a token's deadline passes without acknowledgement; the third miss in a row declares the easel
dead. -/
def execEaselHbDeadline (dt easel : Nat) (s : State) : Host.Outcome State Fault Refusal :=
  act (decide (easel < 6)) dt s fun s =>
    match (s.easel easel).tokens with
    | d :: rest =>
      if s.now < d ∨ !s.easelsRun then s
      else
        let t := (s.tally EASEL_HB_MISS easel).modEasel easel (fun e => { e with tokens := rest, misses := e.misses + 1 })
        if 3 ≤ (t.easel easel).misses then t.easelDead easel else t
    | [] => s

/-- The camera's lines before `n` that were not delivered to the joiner, as single notes (R193 step 4). -/
def State.undelivered (s : State) (b n : Nat) : List Note :=
  match (s.ctx b).bank.view with
  | none => []
  | some v =>
    let o := s.stagger b
    ((s.view v).strips.filter (fun x => !x.complete)).flatMap (fun x =>
      (List.range 256).filterMap (fun i =>
        let l := 256 * x.num + i + o
        if decide (l < n) && !bit (x.acc.getD b 0) i && (s.segs.getD b []).all (fun g => g.line != l) then
          some (Note.mk l l blindEasel)
        else none))

/-- A takeover whose spare is ready completes at the first line of strip S (R193 steps 3 and 4). -/
def State.takeovers (s : State) (n : Nat) : State :=
  (List.range 6).foldl (fun t k =>
    if (t.easel k).takeover && !t.dramUnit.rebuild && t.get ISLAND_STATE (26 + t.get EASEL_PHYS k) == 2 then
      let u := (t.set EASEL_STATE k 1).modEasel k (fun e => { e with
        takeover := false, resumeLine := n, running := none, reserved := e.reserved.filter (fun r => decide (n / 256 ≤ r.1))
        ctxs := e.ctxs.map (fun x => { x with store := x.store.filter (fun l => decide (n ≤ l.num)), rows := [] }) })
      [0, 1].foldl (fun w c =>
        let b := w.bayOf k c
        if w.bayUsed b then
          let ns := w.undelivered b n
          let w1 := ns.foldl (fun y m => y.camFlag b m.first 4) w
          { w1 with notes := modifyAt w1.notes b (· ++ ns) }
        else w) (u.quayFill k)
    else t) s

/-- Entry to READY: every logical easel with a used context runs; one whose physical easel is out of use takes any SPARE, or is DOWN
(R149, R194). -/
def State.easelsReady (s : State) : State :=
  (List.range 6).foldl (fun t k =>
    if !t.easelUsed k then t.set EASEL_STATE k 0
    else if t.get EASEL_PHYS_STATE (t.get EASEL_PHYS k) = 0 then
      if t.get EASEL_STATE k = 2 then t else t.set EASEL_STATE k 1
    else
      match t.spareEasel with
      | some q => (t.routeEasel k q).set EASEL_STATE k 1
      | none => t.set EASEL_STATE k 3) s

/-- EASEL_SELFTEST's write (R195, R628, R629, R664). -/
def State.easelSelftest (s : State) (via : Path) (p : Nat) : State :=
  let k := EASEL_SELFTEST.key 0
  if 6 < p then s.refuse via k 0x06090031
  else if s.get MODE ≠ 0 ∧ s.get MODE ≠ 1 then s.refuse via k abortMode
  else if s.get EASEL_PHYS_STATE p ≠ 2 then s.refuse via k abortMode
  else if s.bench.easelTest.isSome then s.refuse via k abortBusy
  else if !s.asDormant && s.wrapperClosed (26 + p) then (s.accept.isoErrors 1).set EASEL_SELFTEST_RESULT 0 3
  else { ((s.accept.testPower (26 + p) true).set ISLAND_STATE (26 + p) 2).set EASEL_SELFTEST_RESULT 0 1 with
    bench := { s.bench with easelTest := some (p, s.now) } }

/-- EASEL_SELFTEST (R195, R664). -/
def execEaselSelftest (dt : Nat) (via : Path) (phys : Nat) (s : State) : Host.Outcome State Fault Refusal :=
  act true dt s fun s => s.easelSelftest via phys

/-- EASEL_SELFTEST_DONE (R195, R628): the pattern's signature matches the stored one, or not. -/
def execEaselSelftestDone (dt : Nat) (pass : Bool) (s : State) : Host.Outcome State Fault Refusal :=
  act true dt s fun s =>
    match s.bench.easelTest with
    | none => s
    | some (p, _) =>
      let t := ({ s with bench := { s.bench with easelTest := none } }).testPower (26 + p) false
      if pass then (t.set EASEL_SELFTEST_RESULT 0 2).selfTestPassed 1 p
      else
        let u := if s.asDormant then t else t.set ISLAND_STATE (26 + p) 5
        ((u.set EASEL_SELFTEST_RESULT 0 3).selfTestFailed 1 p).restDomain 1 p

/-- SPARE_EASEL_CHECK (R81, R196): every ten minutes in every mode but DORMANT. -/
def execSpareEaselCheck (dt : Nat) (s : State) : Host.Outcome State Fault Refusal :=
  act true dt s fun s =>
    match s.spareEasel with
    | some p =>
      if s.asDormant = false ∧ s.bench.easelCheck.isNone ∧ s.bench.easelAt + 600000000000 ≤ s.now then
        { s with bench := { s.bench with easelCheck := some (p, s.now), easelAt := s.now } }
      else s
    | none => s

/-- SPARE_EASEL_CHECK_DONE (R196, R625): a spare that fails goes to QUARANTINE, its clock stopped; one that is no spare any more keeps
its state. -/
def execSpareEaselCheckDone (dt : Nat) (pass : Bool) (s : State) : Host.Outcome State Fault Refusal :=
  act true dt s fun s =>
    match s.bench.easelCheck with
    | some (p, _) =>
      let t := { s with bench := { s.bench with easelCheck := none } }
      if pass ∨ t.get EASEL_PHYS_STATE p ≠ 1 then t else (t.setUnit 1 p 2).set ISLAND_STATE (26 + p) 5
    | none => s

/-- EASEL_CLEAR's effect (R197). -/
def State.easelClear (s : State) (via : Path) (k : Nat) : State :=
  s.command via EASEL_CLEAR k true (fun t =>
    (([EASEL_QUAY_DROP, EASEL_HB_MISS, EASEL_MIXED_LINES].foldl (fun u o => u.clearTally o k) t).clearTally EASEL_STALE_RESULT 0
      |>.set EASEL_QUAY_PEAK k 0).set EASEL_A_MAX_DELAY_NS k 0)

/-- EASEL_CLEAR (R197). -/
def execEaselClear (dt : Nat) (via : Path) (easel : Nat) (s : State) : Host.Outcome State Fault Refusal :=
  act (decide (easel < 6)) dt s fun s => s.easelClear via easel

end Sys2Proof.Machine
end

