-- ==== Sys2Proof/Machine/Calibration.lean ====
section
/-! DEFINITION. Machine/Calibration.lean: the calibration procedure and trims (R558 to R573). -/
namespace Sys2Proof.Machine
open Reg

/-! ## The stored calibration (R558, R562, R563) -/

/-- The cameras of a calibration run: bays of CAL_CAMERA_MASK with a camera. -/
def State.calBays (s : State) : List Nat :=
  (List.range 12).filter (fun b => s.bayUsed b && bit (s.get CAL_CAMERA_MASK) b)

/-- Whether a full calibration is stored (R558). -/
def State.fullCal (s : State) : Bool :=
  s.nv.cal.records != [] && (List.range 12).all (fun b => !s.bayUsed b || (s.nv.cal.cams.getD b {}).stages % 8 == 7)

/-- Channels that light a bay. -/
def State.barsOf (s : State) (b : Nat) : List Nat := (List.range 12).filter (fun ch => bit (s.get BAR_CAM_MASK ch) b)

/-- The mean of some rationals; 0 of none. -/
def ratMean (xs : List Rat) : Rat := if xs.isEmpty then 0 else xs.foldl (· + ·) 0 / ((xs.length : Nat) : Rat)

/-- A list cut into runs of 512. -/
def segments512 {α : Type} (xs : List α) : List (List α) :=
  (List.range ((xs.length + 511) / 512)).map (fun g => (xs.drop (512 * g)).take 512)

/-- The palette input a plane's or row's pixel goes to (R178, R180). -/
def paletteInput (k : Bank) (h : Shape) (p x : Nat) : Nat :=
  if h.mosaic then
    let t := filterCode k.mosaic p (phase k.mosaic x)
    bits (natAt k.mosaic 6 1) (2 * t + 1) (2 * t)
  else if h.planes = 1 then 0
  else if h.near.getD p false then 3
  else ((List.range p).filter (fun i => !(h.near.getD i false))).length

/-- The dark value and flat of a pixel in a DARK_FLAT table; an empty one stands for dark 0 and flat 1.0 (R167). -/
def darkAt (table : List Byte) (i : Nat) : Nat := if table.isEmpty then 0 else natAt table (4 * i) 2
def flatAt (table : List Byte) (i : Nat) : Nat := if table.isEmpty then 0x4000 else natAt table (4 * i + 2) 2

/-- A DARK_FLAT table from the values of each pixel of each plane. -/
def darkFlatTable (h : Shape) (f : Nat → Nat → Nat × Nat) : List Byte :=
  (List.range h.planes).flatMap (fun p => (List.range h.width).flatMap (fun x =>
    leBytes 2 (f p x).1 ++ leBytes 2 (f p x).2))

/-- The columns of a bay's reference (R560). -/
def State.refCols (s : State) (b : Nat) : List Nat :=
  (List.range (s.get CAL_REF_COL_LAST b + 1 - s.get CAL_REF_COL_FIRST b)).map (· + s.get CAL_REF_COL_FIRST b)

/-! ## The procedure (R559, R560) -/

/-- A bay's candidate; before any stage of this run, the stored calibration with its table in force and no stage. -/
def State.cand (s : State) (b : Nat) : CalCam :=
  match s.cal.cands.find? (fun e => e.1 == b) with
  | some e => e.2
  | none =>
    let k := s.stagedBank (2 * (b / 2) + s.ctxOf b)
    { s.nv.cal.cams.getD b {} with stages := 0, table := k.flat, dpx := k.dpx, map := k.resample, palette := [] }

/-- A bay's candidate replaced. -/
def State.putCand (s : State) (b : Nat) (c : CalCam) : State :=
  { s with cal := { s.cal with cands := s.cal.cands.filter (fun e => e.1 != b) ++ [(b, c)] } }

/-- The procedure ends, and the mode returns to READY at the next strip boundary (R61, R561). -/
def State.calEnd (s : State) (result : Nat) : State :=
  let t := (s.calStop result).loadCurrents s.trig.applied
  if t.get MODE = 4 then t.toPending 1 else t

/-- A staged table takes a candidate's content; what it held comes back if the candidates are discarded. -/
def State.stageCand (s : State) (o : Obj) (i : Nat) (b : List Byte) : State :=
  ({ s with cal := { s.cal with old := s.cal.old ++ [(o.key i, s.blob o i)] } }).setBlob o i b

/-- Every stage has measured: the results are read from the staged banks and palettes (R561). -/
def State.calCandidate (s : State) : State :=
  s.cal.cands.foldl (fun t e =>
    let i := 2 * (e.1 / 2) + t.ctxOf e.1
    let c := e.2
    let t1 := if c.stages % 4 = 0 then t else (t.stageCand EASEL_DARK_FLAT i c.table).stageCand EASEL_DPX_MAP i c.dpx
    let t2 := if bit c.stages 2 then t1.stageCand EASEL_RESAMPLE i c.map else t1
    if bit c.stages 3 then t2.stageCand EASEL_PALETTE i c.palette else t2) (s.set CAL_STATE 0 3)

/-- A measurement of light levels begins: no photodiode output of it has come yet. -/
def State.photoAnew (s : State) : State :=
  { s with bars := s.bars.map (fun b => { b with measSum := 0, measN := 0 }) }

/-- The mean of a bar's settled photodiode outputs in the measurement (R556, R560, R566). Where none came, that quotient is free (log
entry 204). -/
def State.photoMean (s : State) (ch : Nat) : Rat :=
  if (s.bar ch).measN = 0 then Config.noMean s.now ch else (((s.bar ch).measSum : Int) : Rat) / (((s.bar ch).measN : Nat) : Rat)

/-- The light level of a camera: the sum of the means of the bars in whose mask it lies (R560, R566). -/
def State.photoSum (s : State) (b : Nat) : Rat := ((s.barsOf b).map s.photoMean).foldl (· + ·) 0

/-- A measurement begins: its lines are counted, and the bars take their calibration currents; DARK keeps those of its
cameras off (R559, R560). -/
def State.calMeasure (s : State) : State :=
  let off := if s.cal.todo.head? = some 0 then (s.calBays.flatMap s.barsOf).eraseDups else []
  let t := off.foldl (fun u ch => u.lightOff ch) ({ s.photoAnew with cal := { s.cal with lines := 0, off := off } }.set CAL_STATE 0 2)
  t.loadCurrents t.trig.applied

/-- The next stage: DARK measures at once, the others wait for their target (R560). -/
def State.calNext (s : State) : State :=
  match s.cal.todo with
  | [] => s.calCandidate
  | 0 :: _ => s.calMeasure
  | _ => s.set CAL_STATE 0 1

/-- Whether a selected stage lacks its certified values (R559; DEDUCED which: log entry 40). -/
def State.noCert (s : State) : Bool :=
  let p := s.get CAL_PROCEDURE
  let inputs := s.calBays.flatMap (fun b =>
    let i := 2 * (b / 2) + s.ctxOf b
    let h := (s.shape b).1
    (List.range h.planes).flatMap (fun q => (List.range 4).map (paletteInput (s.stagedBank i) h q)))
  (bit p 1 && ((s.blob CAL_TILE_CERT).isEmpty || inputs.any (fun q => s.get CAL_TILE_REFL q == 0))) ||
  (bit p 2 && ((s.blob CAL_CHART_CERT).isEmpty || s.get CAL_SCALE_PITCH_UM == 0)) ||
  (bit p 3 && ((s.blob CAL_CHART_CERT).isEmpty || s.get CAL_PATCH_COUNT == 0))

/-- The procedure starts on entry to CALIBRATE (R559). -/
def State.calStart (s : State) : State :=
  let p := s.get CAL_PROCEDURE
  let t := { s.set CAL_RESULT 0 1 with cal := { todo := (List.range 4).filter (fun i => bit p i) } }
  if s.get CAL_LINE_PERIOD_NS < s.get TRIG_MIN_PERIOD_NS then t.calEnd 3
  else if s.noCert then t.calEnd 2
  else t.calNext

/-- CAL_STEP (R560): the target of the waiting stage is placed. -/
def State.calStep (s : State) (via : Path) : State := s.command via CAL_STEP 0 (s.get CAL_STATE == 1) State.calMeasure

/-- CAL_STEP (R560). -/
def execCalStep (dt : Nat) (via : Path) (s : State) : Host.Outcome State Fault Refusal :=
  act true dt s fun s => s.calStep via

/-- A sum over CAL_LINES lines as a mean. -/
def State.calMean (s : State) (x : Nat) : Rat := ((x : Nat) : Rat) / ((s.get CAL_LINES : Nat) : Rat)

/-- DARK (R560): per-pixel dark level and segment means. -/
def State.calDark (s : State) (b : Nat) (sums : List (List Nat)) : State :=
  let h := (s.shape b).1
  let c := s.cand b
  let dark (p x : Nat) : Nat := min 0xFFFF (ratNat (s.calMean ((sums.getD p []).getD x 0)))
  s.putCand b { c with
    stages := setBit c.stages 0 true
    table := darkFlatTable h (fun p x => (dark p x, flatAt c.table (p * h.width + x)))
    dCal := sums.map (fun row => (segments512 (row.map s.calMean)).map ratMean) }

/-- The flat of a pixel in 2.14 from its tile reflectance and its level above dark (R560). -/
def flatOf (refl : Nat) (level : Rat) : Rat := ((refl * 0xE000 * 16384 : Nat) : Rat) / (10000 * level)

/-- FLAT's result for one camera, before its map is checked (R560); a pixel not above its dark level has no stated
quotient. -/
def State.calFlat (s : State) (b : Nat) (sums : List (List Nat)) : State × Bool :=
  let h := (s.shape b).1
  let i := 2 * (b / 2) + s.ctxOf b
  let k := s.stagedBank i
  let c := s.cand b
  let f := s.fresh
  let level (p x : Nat) : Rat := s.calMean ((sums.getD p []).getD x 0) - ((darkAt c.table (p * h.width + x) : Nat) : Rat)
  let refl (p x : Nat) : Nat := s.get CAL_TILE_REFL (paletteInput k h p x)
  let flat (p x : Nat) : Nat :=
    if level p x ≤ 0 then Config.measured (f.1 * 65536 + p * h.width + x) % 65536
    else min 0xFFFF (ratNat (flatOf (refl p x) (level p x)))
  let bad := (List.range h.planes).flatMap (fun p => ((List.range h.width).filter (fun x =>
    decide (level p x < 0x400) || decide ((39 : Rat) / 10 * 16384 < flatOf (refl p x) (level p x)))).map (fun x => p * 16384 + x))
  let listed := (if c.dpx.isEmpty then [] else dpxEntries c.dpx).map (fun e => (e.2.1 * 16384 + e.2.2, e.1))
  let keys := (listed.map Prod.fst).foldl (fun l x => insertNat x l) (bad.foldl (fun l x => insertNat x l) [])
  let map := if keys.isEmpty then [] else leBytes 4 keys.length ++ keys.flatMap (fun q =>
    leBytes 4 ((if bad.contains q then 0 else ((listed.find? (fun e => e.1 == q)).map Prod.snd).getD 0) * 2 ^ 30 +
      q / 16384 * 2 ^ 28 + q % 16384))
  let r := (Bank.check { k with dpx := map } h (s.shape b).2)
  let t := if bad.any (fun q => decide (level (q / 16384) (q % 16384) ≤ 0)) then f.2 else s
  (t.putCand b { c with
    stages := setBit c.stages 1 true
    table := darkFlatTable h (fun p x => (darkAt c.table (p * h.width + x), flat p x))
    rCal := (List.range h.planes).map (fun p => ratMean ((s.refCols b).map (level p)))
    phiCal := s.photoSum b
    temp := s.int CAM_TEMP_MC b
    barTemps := (List.range 12).map (fun ch => s.int BAR_TEMP_MC ch)
    dpx := map }, decide (keys.length ≤ 4096) && r.2 != 5)

/-- A resampling map's bytes (R188). -/
def mapBytes (view j0 n : Nat) (knots : List Nat) : List Byte :=
  [view, 0] ++ leBytes 2 knots.length ++ leBytes 4 j0 ++ leBytes 4 n ++ List.replicate 4 0 ++ knots.flatMap (leBytes 4)

/-- GEOMETRY (R560): each camera's fitted map in the view its staged map names; the views' widths; whether R189, R200 and
VIEW_WIDTH hold. -/
def State.calGeometry (s : State) (maps : List (Nat × Nat × Nat × List Nat)) : State × Bool :=
  let r := maps.foldl (fun (r : State × Bool) e =>
    let t := r.1
    let i := 2 * (e.1 / 2) + t.ctxOf e.1
    let k := t.stagedBank i
    match k.view with
    | none => r
    | some v =>
      let m := mapBytes v e.2.1 e.2.2.1 e.2.2.2
      let c := t.cand e.1
      let h := t.shape e.1
      (t.putCand e.1 { c with stages := setBit c.stages 2 true, map := m }, r.2 && (Bank.check { k with resample := m } h.1 h.2).2 != 8)) (s, true)
  let now := r.1.cal.cands.foldl (fun (t : State) e => t.modCtx e.1 (fun x => { x with banks := [(0, { x.bank with resample := e.2.map })] })) r.1
  let width (v : Nat) : Nat := (now.cams v).foldl (fun m c => max m (c.last + 1)) 0
  let views := (List.range 4).filter (fun v => (now.cams v).any (fun c => maps.any (fun e => e.1 == c.bay)))
  let t := views.foldl (fun t v => t.set CAL_GEOM_WIDTH v (width v)) r.1
  (t, r.2 && views.all (fun v => now.viewState v != 2 && width v == s.get VIEW_WIDTH v))

/-- One pass of elimination over the normal equations: the column, the rows (coefficients and right sides) and the rows
already led by a pivot, newest first, each with its column. -/
def eliminate (col : Nat) (rows : List (List Rat)) : Option (List Rat) × List (List Rat) :=
  match rows.find? (fun r => r.getD col 0 != 0) with
  | none => (none, rows)
  | some p =>
    let lead := p.map (· / p.getD col 1)
    let rest := rows.erase p
    (some lead, rest.map (fun r => (r.zip lead).map (fun e => e.1 - r.getD col 0 * e.2)))

/-- The pivots of columns from `col` on. -/
def pivots : Nat → Nat → List (List Rat) → List (Nat × List Rat)
  | 0, _, _ => []
  | n + 1, col, rows =>
    match eliminate col rows with
    | (some p, rest) => (col, p) :: pivots n (col + 1) rest
    | (none, rest) => pivots n (col + 1) rest

/-- The five unknowns that solve the equations; a column without a pivot takes `open_`. -/
def solve5 (open_ : Nat → Rat) (rows : List (List Rat)) : List Rat :=
  let ps := pivots 5 0 rows
  (List.range 5).foldr (fun j xs =>
    (match ps.find? (fun p => p.1 == j) with
      | some p => p.2.getD 5 0 - ((List.range (4 - j)).foldl (fun a i => a + p.2.getD (j + 1 + i) 0 * xs.getD i 0) 0)
      | none => open_ j) :: xs) []

/-- A rational rounded to the nearest whole number, ties away from zero, and clamped to a signed width. -/
def ratInt (bits_ : Nat) (x : Rat) : Int :=
  let v := if x < 0 then -(((-x + 1 / 2).floor)) else (x + 1 / 2).floor
  clampInt (-(2 ^ (bits_ - 1) : Nat)) ((2 ^ (bits_ - 1) : Nat) - 1) v

/-- COLOUR for one camera (R560): the least-squares rows L, A and B, row N neutral, the LUT disabled; whether every patch
meets its target. -/
def State.calColour (s : State) (b : Nat) (means : List (List Rat)) : State × Bool :=
  let ps := ((List.range (s.get CAL_PATCH_COUNT)).map (fun i => (bytesAt (s.blob CAL_PATCHES) (16 * i) 16, means.getD i []))).filter
    (fun e => natAt e.1 0 1 == b)
  let u (m : List Rat) (j : Nat) : Rat := if j = 4 then 1 else m.getD j 0 / 4096
  let f := s.fresh
  let fit (o : Nat) : List Rat := solve5 (fun j => Config.colourFit (f.1 * 16 + 5 * o + j)) ((List.range 5).map (fun i =>
    (List.range 5).map (fun j => ps.foldl (fun a e => a + u e.2 i * u e.2 j) 0) ++
      [ps.foldl (fun a e => a + u e.2 i * ((natAt e.1 (8 + 2 * o) 2 : Nat) : Rat)) 0]))
  let coef := (List.range 3).map (fun o => (List.range 4).map (fun j => ratInt 16 ((fit o).getD j 0)))
  let off := (List.range 3).map (fun o => ratInt 32 ((fit o).getD 4 0))
  let pal := (coef ++ [[0, 0, 0, (0x1000 : Int)]]).flatMap (fun (r : List Int) => r.flatMap (fun x => leBytes 2 (ofSigned 16 x))) ++
    (off ++ [0]).flatMap (fun x => leBytes 4 (ofSigned 32 x)) ++ List.replicate 29494 0
  let miss := ps.any (fun e => (List.range 3).any (fun o =>
    let v := (List.range 4).foldl (fun a j => a + ((((coef.getD o []).getD j 0 : Int)) : Rat) * u e.2 j) (((off.getD o 0 : Int)) : Rat)
    let d := v - ((natAt e.1 (8 + 2 * o) 2 : Nat) : Rat)
    decide (((s.get CAL_COLOUR_TOL : Nat) : Rat) < (if d < 0 then -d else d))))
  let c := s.cand b
  (f.2.putCand b { c with stages := setBit c.stages 3 true, palette := pal }, decide (6 ≤ ps.length) && !miss)

/-- The measured stage's results, and the code it fails with (R560). -/
def State.calResults (s : State) (m : CalMeas) : Option (State × Nat) :=
  match s.cal.todo.head?, m with
  | some 0, .dark levels => some (levels.foldl (fun t e => if s.calBays.contains e.1 then t.calDark e.1 e.2 else t) s, 0)
  | some 1, .flat levels =>
    let r := levels.foldl (fun (r : State × Bool) e =>
      if s.calBays.contains e.1 then
        let x := r.1.calFlat e.1 e.2
        (x.1, r.2 && x.2)
      else r) (s, true)
    let chs := (s.calBays.flatMap s.barsOf).eraseDups
    some ({ r.1 with cal := { r.1.cal with bars := chs.map (fun ch => (ch, s.photoMean ch, s.get BAR_CURRENT_MA ch)) } }, if r.2 then 0 else 4)
  | some 2, .geometry maps =>
    let r := s.calGeometry (maps.filter (fun e => s.calBays.contains e.1))
    some (r.1, if r.2 then 0 else 5)
  | some 3, .colour means =>
    let r := s.calBays.foldl (fun (r : State × Bool) b =>
      let x := r.1.calColour b means
      (x.1, r.2 && x.2)) (s, true)
    some (r.1, if r.2 then 0 else 6)
  | _, _ => none

/-- CAL_MEASURE_DONE (R560): the stage in progress has its lines and computes its results, or fails. -/
def execCalMeasureDone (dt : Nat) (meas : CalMeas) (s : State) : Host.Outcome State Fault Refusal :=
  act true dt s fun s =>
    if s.get CAL_STATE ≠ 2 ∨ s.cal.lines < s.get CAL_LINES then s
    else
      match s.calResults meas with
      | none => s
      | some (t, code) =>
        if code ≠ 0 then t.calEnd code
        else
          let u := { t with cal := { t.cal with todo := t.cal.todo.drop 1, off := [], lines := 0 } }
          let w := u.calNext
          w.loadCurrents w.trig.applied

/-! ## Acceptance (R561 to R563) -/

/-- The traceability record's bytes (R562 names its content; the order and widths are a DESIGN CHOICE, log entry 41). -/
def State.calRecord (s : State) : List Byte :=
  let cams := s.cal.cands
  let mask := cams.foldl (fun m e => setBit m e.1 true) 0
  let stages := cams.foldl (fun m e => Nat.lor m e.2.stages) 0
  let fix (n : Nat) (b : List Byte) : List Byte := b.take n ++ List.replicate (n - b.length) 0
  leBytes 8 s.dc ++ leBytes 4 (s.get MODULE_SERIAL) ++ leBytes 4 (s.get FW_REVISION) ++ fix 32 (s.blob CAL_TILE_CERT) ++
    (List.range 4).flatMap (fun i => leBytes 2 (s.get CAL_TILE_REFL i)) ++ fix 32 (s.blob CAL_CHART_CERT) ++
    leBytes 4 (s.get CAL_SCALE_PITCH_UM) ++ [s.get CAL_PATCH_COUNT] ++ s.blob CAL_PATCHES ++
    [stages] ++ leBytes 2 mask ++ [(s.trig.cgen + 1) % 256] ++
    cams.flatMap (fun e => [e.1] ++ leBytes 4 (ofSigned 32 e.2.temp) ++
      (List.range 4).flatMap (fun p => leBytes 4 (ratNat (e.2.rCal.getD p 0 * 65536) % 2 ^ 32)) ++ leBytes 8 (ofSigned 64 (ratInt 64 e.2.phiCal))) ++
    s.cal.bars.flatMap (fun e => [e.1] ++ fix 16 (s.blob BAR_SERIAL e.1) ++ leBytes 8 (ofSigned 64 (ratInt 64 e.2.1)) ++ leBytes 2 e.2.2 ++
      leBytes 4 (s.get BAR_TEMP_MC e.1))

/-- The logbook takes the calibration: the banks and palettes of every context, committed or registered (R167, R611). -/
def State.storeCal (s : State) (cams : List CalCam) (records : List (List Byte)) (base : List (Int × List Int)) : State :=
  let bank (i : Nat) : Bank :=
    let x := (s.easel (i / 2)).ctxs.getD (i % 2) {}
    (x.pend.map Prod.snd).getD x.bank
  let pal (i : Nat) : List Byte :=
    let x := (s.easel (i / 2)).ctxs.getD (i % 2) {}
    (x.palPend.map Prod.snd).getD ((x.palettes.head?.map Prod.snd).getD [])
  let c : CalStore := {
    cams := cams, banks := (List.range 12).map bank, palettes := (List.range 12).map pal, records := records.take 17
    base := base, bars := s.bars.map (fun b => (b.phiCal, b.iCal)), stale := s.get CAL_STALE_VIEWS
    pitch := (List.range 4).map (fun v => s.get VIEW_PITCH_UM v) }
  { s with nv := { s.nv with cal := c } }.logWriteCal c

/-- A candidate's results are committed (R160, R166, R561). -/
def State.commitCand (s : State) (b : Nat) (c : CalCam) : State :=
  let k := b / 2
  let x := s.ctxOf b
  let i := 2 * k + x
  let strip := s.applyStrip
  let t := if c.stages % 8 = 0 then s else (s.registerBank k x (s.stagedBank i) strip).traceCommit EASEL_CTX_COMMIT i 1 strip
  if bit c.stages 3 then t.palCommit .event k x else t

/-- CAL_ACCEPT's effect (R561). -/
def State.calApply (s : State) : State :=
  let cs := s.cal.cands
  let rec_ := s.calRecord
  let t := cs.foldl (fun u e => u.commitCand e.1 e.2) s
  let t := cs.foldl (fun u e =>
    if bit e.2.stages 1 then
      let w := (((u.set CAM_SEAM_GAIN_CAL_L e.1 0x4000).set CAM_SEAM_GAIN_CAL_N e.1 0x4000).setInt TRIM_BASE_MC e.1 e.2.temp)
      ({ w with trim := { w.trim with base := w.trim.base.set e.1 (e.2.temp, e.2.barTemps) } }).gainsStart e.1
    else u) t
  let t := s.cal.bars.foldl (fun u e => u.modBar e.1 (fun b => { b with phiCal := e.2.1, iCal := e.2.2 })) t
  let flat (v : Nat) : Bool := !(s.cams v).isEmpty && (s.cams v).all (fun c => cs.any (fun e => e.1 == c.bay && bit e.2.stages 1))
  let geo (v : Nat) : Bool := (s.cams v).any (fun c => cs.any (fun e => e.1 == c.bay && bit e.2.stages 2))
  let t := (List.range 4).foldl (fun u v =>
    let w := if flat v then u.set CAL_STALE_VIEWS 0 (setBit (u.get CAL_STALE_VIEWS) v false) else u
    if geo v then w.set VIEW_PITCH_UM v (s.get CAL_VIEW_PITCH_UM) else w) t
  let cams := (List.range 12).map (fun b =>
    match cs.find? (fun e => e.1 == b) with
    | some e => { e.2 with stages := Nat.lor e.2.stages (s.nv.cal.cams.getD b {}).stages, dpx := [], map := [], palette := [] }
    | none => s.nv.cal.cams.getD b {})
  let base := (List.range 12).map (fun b =>
    match cs.find? (fun e => e.1 == b && bit e.2.stages 1) with
    | some e => (e.2.temp, e.2.barTemps)
    | none => s.nv.cal.base.getD b (0, List.replicate 12 0))
  let t := ((t.storeCal cams (rec_ :: s.nv.cal.records) base).set CAL_STORED_TIME 0 s.dc).setBlob CAL_RECORD 0 rec_
  { t with cal := { t.cal with old := [] } }.calEnd 0

/-- The state in which every candidate's staged bank, and every bank that waits for its strip, is active. -/
def State.withCands (s : State) (cs : List (Nat × CalCam)) : State :=
  cs.foldl (fun (t : State) e => t.withBanks (e.1 / 2) (s.ctxOf e.1) (s.stagedBank (2 * (e.1 / 2) + s.ctxOf e.1))) s

/-- Why the commit of the candidates' banks would be refused: the context, the code and the stage (R160, R202). -/
def State.candFault (s : State) : Option (Nat × Nat × Nat) :=
  let cs := s.cal.cands.filter (fun e => e.2.stages % 8 != 0)
  let bad := cs.findSome? (fun e =>
    let i := 2 * (e.1 / 2) + s.ctxOf e.1
    let h := s.shape e.1
    let r := (s.stagedBank i).check h.1 h.2
    if r.1 = 0 then none else some (i, r.1, r.2))
  match bad, cs with
  | some x, _ => some x
  | none, e :: _ =>
    if s.get MODE = 4 ∧ (List.range 4).any (fun v => (s.withCands cs).viewState v == 2) = true then
      some (2 * (e.1 / 2) + s.ctxOf e.1, 3, 8)
    else none
  | none, [] => none

/-- CAL_ACCEPT's write (R160, R164, R202, R561): where a bank of the candidates would be refused, the whole acceptance is (DESIGN CHOICE,
log entry 195). -/
def State.calAccept (s : State) (via : Path) : State :=
  let busy := s.cal.cands.any (fun e =>
    let i := 2 * (e.1 / 2) + s.ctxOf e.1
    s.get EASEL_CTX_PENDING i == 1 || s.get EASEL_PAL_PENDING i == 1 || (bit e.2.stages 3 && s.jobPalette e.1))
  if s.get CAL_STATE = 3 ∧ busy then s.refuse via (CAL_ACCEPT.key 0) abortBusy
  else
    match (if s.get CAL_STATE = 3 then s.candFault else none) with
    | some (i, code, stage) =>
      (((s.set EASEL_COMMIT_RESULT i code).set EASEL_COMMIT_STAGE i stage).traceCommit EASEL_CTX_COMMIT i code 0).refuse via
        (CAL_ACCEPT.key 0) 0x06040043
    | none => s.command via CAL_ACCEPT 0 (s.get CAL_STATE == 3) State.calApply

/-- CAL_ACCEPT (R561). -/
def execCalAccept (dt : Nat) (via : Path) (s : State) : Host.Outcome State Fault Refusal :=
  act true dt s fun s => s.calAccept via

/-- CAL_ABORT's write (R561). -/
def State.calAbort (s : State) (via : Path) : State :=
  s.command via CAL_ABORT 0 (s.get CAL_STATE != 0) (fun t => t.calEnd 7)

/-- CAL_ABORT (R561). -/
def execCalAbort (dt : Nat) (via : Path) (s : State) : Host.Outcome State Fault Refusal :=
  act true dt s fun s => s.calAbort via

/-- The stored banks and palettes come back on DORMANT to READY; before any calibration is stored they are the factory's
(R167). The staged bank takes the stored one too, and keeps its content where the factory's come back (DESIGN CHOICE, log entry 208). -/
def State.restoreBanks (s : State) : State :=
  if s.nv.cal.records.isEmpty then
    { s with easels := s.easels.map (fun e => { e with
        ctxs := e.ctxs.map (fun x => { x with banks := [(0, {})], palettes := [(0, [])] }) }) }
  else
    (List.range 12).foldl (fun t i =>
      let bank := s.nv.cal.banks.getD i {}
      (t.modEasel (i / 2) (fun e => { e with ctxs := modifyAt e.ctxs (i % 2) (fun x => { x with
        banks := [(0, bank)], palettes := [(0, s.nv.cal.palettes.getD i [])] }) })).stageBank i bank) s

/-! ## Trims (R563 to R571) -/

/-- The temperatures of a camera that count now: its own, when written within 10 s, and those of the bars with a sensor
that light it; each with its baseline (R564). -/
def State.trimTemps (s : State) (b : Nat) : List (Int × Int) :=
  let base := s.trim.base.getD b (0, [])
  (match s.trim.written.getD b none with
    | some t => if s.now ≤ t + 10000000000 then [(s.int CAM_TEMP_MC b, base.1)] else []
    | none => []) ++
  ((s.barsOf b).filter (fun ch => (s.bar ch).sensor != 0)).map (fun ch => (s.int BAR_TEMP_MC ch, base.2.getD ch 0))

/-- Whether a trim of a bay may be served now (R565). -/
def State.trimReady (s : State) (b : Nat) : Bool :=
  s.get MODE == 3 && s.trim.run.isNone && s.get SWITCH_STATE != 4 && s.get EASEL_CTX_PENDING (2 * (b / 2) + s.ctxOf b) == 0 &&
    (s.nv.cal.cams.getD b {}).stages % 4 == 3

/-- The lowest due bay that may be served is registered at its trim strip (R565, R566). -/
def State.trimServe (s : State) : State :=
  match lowest 12 (fun b => s.trim.due.contains b && s.trimReady b) with
  | none => s
  | some b => { s with trim := { s.trim with due := s.trim.due.filter (· != b), run := some (b, strideStrip s.lastLine) } }.set
      TRIM_BUSY_BAY 0 b

/-- TRIM_DUE (R564): a temperature has left its baseline by more than the threshold, and the interval has passed. -/
def execTrimDue (dt bay : Nat) (s : State) : Host.Outcome State Fault Refusal :=
  act (decide (bay < 12)) dt s fun s =>
    let far : Bool := (s.trimTemps bay).any (fun e => decide (s.get TRIM_TEMP_THRESHOLD_MK < (e.1 - e.2).natAbs))
    let rested : Bool := match s.trim.last.getD bay none with
      | some t => decide (t + s.get TRIM_MIN_INTERVAL_S * 1000000000 ≤ s.now)
      | none => true
    if s.bayUsed bay && far && rested && s.get TRIM_ENABLE == 1 && s.trim.run.all (fun r => r.1 != bay) then
      { s with trim := { s.trim with due := insertNat bay s.trim.due } }.trimServe
    else s

/-- TRIM_NOW's write (R564): in INSPECT only. -/
def State.trimNow (s : State) (via : Path) (b : Nat) : State :=
  s.command via TRIM_NOW b (s.get MODE == 3) (fun t => { t with trim := { t.trim with due := insertNat b t.trim.due } }.trimServe)

/-- TRIM_NOW (R564). -/
def execTrimNow (dt : Nat) (via : Path) (bay : Nat) (s : State) : Host.Outcome State Fault Refusal :=
  act (decide (bay < 12)) dt s fun s => s.trimNow via bay

/-- The span of camera lines an output line of a bay combines beyond its own (R181). -/
def State.spanOf (s : State) (b : Nat) : Nat := if (s.shape b).1.mosaic then mosaicSpan (s.ctx b).bank.mosaic else 0

/-- Blind ranges of a trim: its camera's lines, and with the bars off, those of every other camera they light (R567). -/
def State.trimBlind (s : State) (b n : Nat) : State :=
  let others := if s.get TRIM_DARK_ENABLE = 1 then
      (List.range 12).filter (fun c => c != b && s.bayUsed c && (s.barsOf b).any (fun ch => bit (s.get BAR_CAM_MASK ch) c))
    else []
  let rs := (b, n - s.spanOf b, n + 63) :: others.map (fun c => (c, n - s.spanOf c, n + 31))
  let t := { s with trim := { s.trim with blind := (rs ++ s.trim.blind).take 24 } }
  rs.foldl (fun u r => (u.camFlag r.1 r.2.1 4).camFlag r.1 n 4) t

/-- The first line of a trim's strip starts it (R566, R567). -/
def State.trimBegin (s : State) (n : Nat) : State :=
  match s.trim.run with
  | some (b, strip) => if n = 256 * strip then ((s.photoAnew.emit 0xBD).volume TRIM_COUNT 0).trimBlind b n else s
  | none => s.trimServe

/-- The falling edge of a line: the bars of a trim go off before its strip and return after its dark lines (R566). -/
def State.trimFall (s : State) (n : Nat) : State :=
  let s1 := match s.trim.dark with
    | some d =>
      if d.1 ≤ n then { s with trim := { s.trim with dark := none } }.loadCurrents s.trig.applied else s
    | none => s
  match s1.trim.run with
  | some (b, strip) =>
    if n + 1 = 256 * strip ∧ s1.get TRIM_DARK_ENABLE = 1 then
      let chs := s1.barsOf b
      (chs.foldl (fun (u : State) ch => u.lightOff ch) { s1 with trim := { s1.trim with dark := some (256 * strip + 31, chs) } }).lightLoad
    else s1
  | none => s1

/-- The trigger width of a bay at a line: the applied set's, or CAL_WIDTH_NS in a calibration measurement and on a trim's
gain lines (R125, R559, R566). -/
def State.widthAt (s : State) (b n : Nat) : Nat :=
  let gain : Bool := match s.trim.run with
    | some (c, strip) => c == b && decide (256 * strip + 32 ≤ n) && decide (n ≤ 256 * strip + 63)
    | none => false
  if gain ∨ (s.get MODE = 4 ∧ s.get CAL_STATE = 2) then s.get CAL_WIDTH_NS b else s.trig.applied.widths.getD b 2000

/-- A trim's corrections against the stored calibration (R568): delta by plane and segment, k by plane, and whether the
result is plausible (R569); a quotient by zero is not. -/
def State.trimMath (s : State) (b : Nat) (m : TrimMeas) : List (List Rat) × List Rat × Bool :=
  let h := (s.shape b).1
  let c := s.nv.cal.cams.getD b {}
  let phi := s.photoSum b
  let delta := if s.get TRIM_DARK_ENABLE = 0 then c.dCal.map (fun r => r.map (fun _ => (0 : Rat)))
    else (List.range h.planes).map (fun p => ((m.dark.getD p []).zip (c.dCal.getD p [])).map (fun e => e.1 - e.2))
  let rT (p : Nat) : Rat := m.reference.getD p 0 -
    ratMean ((s.refCols b).map (fun x => ((darkAt c.table (p * h.width + x) : Nat) : Rat) + (delta.getD p []).getD (x / 512) 0))
  let k := (List.range h.planes).map (fun p =>
    c.rCal.getD p 0 * phi / (c.phiCal * rT p))
  let defined := decide (phi ≠ 0) && decide (c.phiCal ≠ 0) && (List.range h.planes).all (fun p => decide (rT p ≠ 0))
  let ok := defined && k.all (fun x => decide ((92 : Rat) / 100 ≤ x) && decide (x ≤ (108 : Rat) / 100)) &&
    (List.range h.planes).all (fun p => (delta.getD p []).all (fun d =>
      decide ((if d < 0 then -d else d) ≤ ((16 * 2 ^ (16 - h.bits.getD p 8) : Nat) : Rat))))
  (delta, k, ok)

/-- The table of a trim's result (R568). -/
def State.trimTable (s : State) (b : Nat) (delta : List (List Rat)) (k : List Rat) : List Byte :=
  let h := (s.shape b).1
  let c := s.nv.cal.cams.getD b {}
  darkFlatTable h (fun p x =>
    let i := p * h.width + x
    (min 0xFFFF (ratNat (((darkAt c.table i : Nat) : Rat) + (delta.getD p []).getD (x / 512) 0)),
     min 0xFFFF (ratNat (((flatAt c.table i : Nat) : Rat) * k.getD p 1))))

/-- The baseline of a camera takes its present temperatures (R563, R569). -/
def State.rebase (s : State) (b : Nat) : State :=
  let w := s.setInt TRIM_BASE_MC b (s.int CAM_TEMP_MC b)
  { w with trim := { w.trim with base := w.trim.base.set b (s.int CAM_TEMP_MC b, (List.range 12).map (fun ch => s.int BAR_TEMP_MC ch)) } }

/-- A trim's result is accepted or rejected, and the trim ends (R566, R569, R570). -/
def State.trimEnd (s : State) (b strip : Nat) (m : TrimMeas) : State :=
  let r := s.trimMath b m
  let largest := (List.range r.1.length).foldl (fun a p => (r.1.getD p []).foldl (fun (x : Rat) d =>
    max x ((if d < 0 then -d else d) / ((2 ^ (16 - (s.shape b).1.bits.getD p 8) : Nat) : Rat))) a) 0
  let t := { s with trim := { s.trim with run := none, held := none, last := s.trim.last.set b (some s.now) } }
  let t := (((t.rebase b).set TRIM_LAST_STRIP b strip).set TRIM_BUSY_BAY 0 0xFF).emit 0xBE
  if r.2.2 then
    let k := b / 2
    let x := t.ctxOf b
    let i := 2 * k + x
    let at_ := t.applyStrip
    let u := (t.registerBank k x { (t.ctx b).bank with flat := t.trimTable b r.1 r.2.1 } at_).traceCommit EASEL_CTX_COMMIT i 1 at_
    let u := (List.range 4).foldl (fun w p => w.set TRIM_LAST_GAIN (4 * b + p) (min 0xFFFF (ratNat (r.2.1.getD p 1 * 16384)))) u
    ((u.set TRIM_LAST_DARK_MAX b (min 0xFFFF (ratNat largest))).set TRIM_LAST_RESULT b 1).storeCal
      s.nv.cal.cams s.nv.cal.records s.nv.cal.base
  else (t.tally CAL_REJECT).set TRIM_LAST_RESULT b 2

/-- A trim's result is known: while a commit is pending in the context of its bay, one that is accepted waits for it (R164). -/
def State.trimKnown (s : State) (b strip : Nat) (m : TrimMeas) : State :=
  if s.get EASEL_CTX_PENDING (2 * (b / 2) + s.ctxOf b) = 1 ∧ (s.trimMath b m).2.2 = true then
    { s with trim := { s.trim with held := some m } }
  else (s.trimEnd b strip m).trimServe

/-- Line `n` is triggered: a result that waited for a pending commit is looked at again (R164; DESIGN CHOICE, log entry 194: at each
line), and a trim starts at the first line of its strip. -/
def State.trimLine (s : State) (n : Nat) : State :=
  (match s.trim.run, s.trim.held with
    | some (b, strip), some m => s.trimKnown b strip m
    | _, _ => s).trimBegin n

/-- TRIM_RESULT (R164, R566 to R571): the gain lines of the running trim are done. -/
def execTrimResult (dt : Nat) (meas : TrimMeas) (s : State) : Host.Outcome State Fault Refusal :=
  act true dt s fun s =>
    match s.trim.run with
    | some (b, strip) =>
      if s.lastLine < 256 * strip + 63 ∨ s.get LINE_NUMBER = 0 then s
      else if s.trim.held.isSome then s
      else s.trimKnown b strip meas
    | none => s

/-- CAL_CLEAR's effect (R572). -/
def State.calClear (s : State) (via : Path) : State :=
  s.command via CAL_CLEAR 0 true (fun t => t.clearAll [CAL_REJECT, TRIM_ABANDONED])

/-- CAL_CLEAR (R572). -/
def execCalClear (dt : Nat) (via : Path) (s : State) : Host.Outcome State Fault Refusal :=
  act true dt s fun s => s.calClear via

end Sys2Proof.Machine
end

