-- ==== Sys2Proof/Machine/Fabric.lean ====
section
/-! DEFINITION. Machine/Fabric.lean: the tide sequencer, banks and tiles: tasks, fragments, deadlines and takeovers (R269 to
R321). -/
namespace Sys2Proof.Machine
open Reg

/-! ## Load and banks (R305 to R312) -/

/-- TIDE_LOAD_MAX_PERMILLE of a bank image (R305). -/
def State.tideLoadMax (s : State) (image : List Byte) : Nat :=
  (List.range 4).foldl (fun m v =>
    if s.slicesOf image v = 0 ∨ s.get TRIG_MIN_PERIOD_NS = 0 then m
    else max m (tideClocks image v * 625 / (256 * s.get TRIG_MIN_PERIOD_NS))) 0

/-- The limits of R305 for a bank image: 0, OVERLOAD or RESOURCE. -/
def State.tideLimits (s : State) (image : List Byte) : Nat :=
  if 96 < s.firstTile image 4 ∨ (List.range 4).any (fun v => s.get VIEW_WIDTH v != 0 && !tideEnabled image v) then 5
  else if (List.range 4).any (fun v => s.slicesOf image v != 0 &&
      decide (900 * 256 * s.get TRIG_MIN_PERIOD_NS < tideClocks image v * 625)) then 4
  else 0

/-- The check of R305 on mode entry: TIDE_RESULT reads a failure. -/
def State.checkTide (s : State) : State × Bool :=
  let r := s.tideLimits s.activeImage
  if r = 0 then (s, true) else (s.set TIDE_RESULT 0 r, false)

/-- The standby bank becomes active at a line: the banks change places, and the generation increments (R307 to R311). -/
def State.tideApply (s : State) (image : List Byte) (line : Nat) : State :=
  let old := s.activeImage
  let g := (s.get TIDE_GENERATION + 1) % 256
  let t := { s with tide := ((g, image) :: s.tide.filter (fun e => e.1 != g)).take 4, tideNext := none }
  ((((t.set TIDE_GENERATION 0 g).set TIDE_BANK_ACTIVE 0 (1 - t.get TIDE_BANK_ACTIVE)).set TIDE_APPLY_LINE 0 line).set TIDE_PENDING 0
    1).setBlob TIDE_IMAGE 0 (tideImage old)

/-- A bank becomes active at line `n`, which is no repeat start or switch: inside a strip the line takes a split of neither kind (R311;
DESIGN CHOICE, log entry 33). -/
def State.tideNow (s : State) (image : List Byte) (n : Nat) : State :=
  let t := (s.tideApply image n).set TIDE_RESULT 0 0
  if n % 256 = 0 then t
  else { t with web := { t.web with splits := t.web.splits ++ [⟨n, 0, t.get JOB_STAMP, t.get TIDE_GENERATION⟩] } }

/-- Whether a task, or a strip whose tasks are still to be issued, uses a bank that is no longer active (R309). -/
def State.oldBankUsed (s : State) : Bool :=
  let g := s.get TIDE_GENERATION
  s.tiles.any (fun x => (x.queue ++ x.held).any (fun t => !t.heartbeat && t.gen != g)) ||
    (List.range 4).any (fun v => (s.view v).strips.any (fun x =>
      !x.left_ && !x.issued && decide (256 * x.num < s.get TIDE_APPLY_LINE) && s.stripPending v x.num))

/-- A commit that waits becomes active once the mode is one of those that take it at once; TIDE_PENDING ends (R308, R309). -/
def State.tideSettleAt (s : State) (line : Nat) : State :=
  let t := match s.tideNext with
    | some im => if s.get MODE = 0 ∨ s.get MODE = 1 ∨ s.get MODE = 4 then s.tideNow im line else s
    | none => s
  if t.get TIDE_PENDING = 1 ∧ t.tideNext.isNone ∧ !t.oldBankUsed then t.set TIDE_PENDING 0 0 else t

/-- A commit that waits becomes active, and TIDE_PENDING ends, between triggers: the first line is the next one (R308, R309). -/
def State.tideSettle (s : State) : State := s.tideSettleAt (s.get LINE_NUMBER)

/-- The active bank takes an image in its place. A content that differs is a new generation (R30; DEDUCED, log entry 35). -/
def State.tideReload (s : State) (image : List Byte) : State :=
  if image = s.activeImage then s
  else
    let n := s.get LINE_NUMBER
    let g := (s.get TIDE_GENERATION + 1) % 256
    let t := ({ s with tide := ((g, image) :: s.tide.filter (fun e => e.1 != g)).take 4 }.set TIDE_GENERATION 0 g).set TIDE_APPLY_LINE 0 n
    if n % 256 = 0 then t else { t with web := { t.web with splits := t.web.splits ++ [⟨n, 0, t.get JOB_STAMP, g⟩] } }

/-- On DORMANT → READY the active bank is loaded from the active job's package; without a job both banks hold the image of R312. -/
def State.tideLoad (s : State) : State :=
  match s.web.job with
  | none => (s.setBlob TIDE_IMAGE 0 tideBlank).tideReload tideBlank
  | some p => s.tideReload (tideImage (Package.tide p))

/-- A commit refused with a result code. -/
def State.tideRefuse (s : State) (via : Path) (code abortCode : Nat) : State :=
  ((s.set TIDE_RESULT 0 code).traceCommit TIDE_COMMIT 0 code 0).refuse via (TIDE_COMMIT.key 0) abortCode

/-- TIDE_COMMIT's write (R308 to R310). -/
def State.tideCommit (s : State) (via : Path) : State :=
  let sw := s.get SWITCH_STATE
  if s.get TIDE_PENDING = 1 ∨ sw = 1 ∨ sw = 2 ∨ sw = 3 then s.tideRefuse via 2 abortBusy
  else
    let im := tideImage (s.blob TIDE_IMAGE)
    match tideCheck im with
    | some e => (s.set TIDE_ERR_ENTRY 0 e).tideRefuse via 3 0x06040043
    | none =>
      let r := s.tideLimits im
      if r ≠ 0 then s.tideRefuse via r 0x06040043
      else
        let t := s.accept.set TIDE_ERR_ENTRY 0 0xFFFF
        if s.get MODE = 2 ∨ s.get MODE = 3 ∨ s.get MODE = 5 then
          (({ t with tideNext := some im }.set TIDE_PENDING 0 1).set TIDE_RESULT 0 1).traceCommit TIDE_COMMIT 0 1 0
        else ((t.tideNow im (t.get LINE_NUMBER)).traceCommit TIDE_COMMIT 0 0 (t.get LINE_NUMBER)).tideSettle

/-- TIDE_COMMIT (R308). -/
def execTideCommit (dt : Nat) (via : Path) (s : State) : Host.Outcome State Fault Refusal := act true dt s fun s => s.tideCommit via

/-! ## Tiles (R276, R313 to R318) -/

/-- The record of a logical tile. -/
def State.tile (s : State) (k : Nat) : Tile := s.tiles.getD k {}

/-- The state with a tile's record changed. -/
def State.modTile (s : State) (k : Nat) (f : Tile → Tile) : State := { s with tiles := modifyAt s.tiles k f }

/-- Whether the fabric works: it is off in DORMANT and frozen in HOLD (R69, R319). -/
def State.fabricRuns (s : State) : Bool := s.get MODE != 0 && s.get MODE != 5

/-- Logical tiles with a slice under the active bank (R270). -/
def State.slicesUsed (s : State) : Nat := s.firstTile s.activeImage 4

/-- TILE_LOG_STATE: a takeover is over when its time has come (R315, R318). -/
def State.tileState (s : State) (k : Nat) : Nat :=
  let st := s.get TILE_LOG_STATE k
  if st = 3 then 3
  else if st == 2 && (match (s.tile k).takeAt with
      | some t => decide (s.now < t)
      | none => false) then 2
  else if !s.asDormant ∧ k < s.slicesUsed then 1
  else 0

/-- A task enters a tile's queue: it is issued, and its deadline clock starts if none runs (R276, R313). -/
def Tile.push (x : Tile) (now : Nat) (t : Task) : Tile :=
  { x with queue := x.queue ++ [t], lastTask := now, clock := if x.queue.all Task.counted then max x.clock now else x.clock }

/-- The head of the queue is acknowledged: the clock of the next task starts now, unless its deadline was missed already; then that of
the task after it runs from the missed deadline (R313). -/
def Tile.ack (x : Tile) (now : Nat) : Tile :=
  let q := x.queue.drop 1
  { x with queue := q, clock := if q.head?.any Task.counted then x.clock else now }

/-- Held tasks enter the queue as far as it has places. -/
def Tile.fill (x : Tile) (now : Nat) : Tile :=
  let n := 4 - x.queue.length
  (x.held.take n).foldl (fun y t => y.push now t) { x with held := x.held.drop n }

/-- Takeovers whose time has come end: held tasks run on the spare (R315 step 4). -/
def State.tilesWake (s : State) : State :=
  (List.range 96).foldl (fun t k =>
    match (t.tile k).takeAt with
    | some at_ => if at_ ≤ t.now then (t.set TILE_LOG_STATE k 1).modTile k (fun x => { x with takeAt := none }.fill t.now) else t
    | none => t) s

/-- The period of the most recently completed strip in ns gives the deadline (R313); none before any. -/
def State.tileDeadline (s : State) (t : Task) : Option Nat :=
  if t.heartbeat then some 6250000 else if s.get TILE_DEADLINE_NS = 0 then none else some (s.get TILE_DEADLINE_NS)

/-! ## What a task reads (R271, R275, R290, R291, R299) -/

/-- The repeat and field of a line whose reference the warp reads. -/
def State.fieldFor (s : State) (v n : Nat) : Option (Rep × RField × Nat) :=
  match s.repAtDone n with
  | none => none
  | some r =>
    match r.lineIn n, (match s.fieldOf v r.key with
      | some f => some f
      | none => (s.reg v).prev.filter (fun f => f.rep == r.key)) with
    | some y, some f => if f.rows.isEmpty then none else some (r, f, y)
    | _, _ => none

/-- Whether a line of a view may be inspected: registered, with an underpainting (R251, R256, R299). -/
def State.lineInspected (s : State) (v n : Nat) : Bool :=
  s.registered v n && (match s.repAt n with
    | some r => bit r.ups v
    | none => false)

/-- The first line of the stay that began at the last entry to READY before a task's part ended; 0 before any (R275; DEDUCED, log entry
197). -/
def State.stayFirst (s : State) (t : Task) : Nat := (s.trig.firsts.find? (fun m => decide (m ≤ 256 * t.strip + t.r1))).getD 0

/-- The line a load row of a task reads (R275). -/
def State.loadLine (s : State) (t : Task) (hd row : Nat) : Nat :=
  let base := 256 * t.strip
  let l0 : Int := (base : Int) - hd + row
  let l1 := if 0 < t.r0 then max l0 (base + t.r0 : Nat) else l0
  let l2 := if t.r1 < 255 then min l1 (base + t.r1 : Nat) else l1
  (max l2 ((s.stayFirst t : Nat) : Int)).toNat

/-- The environment of a task's run. -/
def State.taskEnv (s : State) (t : Task) : TaskEnv :=
  let v := t.view
  let hd := tideHd t.image v
  let ws := tideWs t.image v
  let w := s.get VIEW_WIDTH v
  let col (l : Nat) : Nat := (clampInt 0 ((w : Int) - 1) ((ws * t.slice + l : Nat) - 64)).toNat
  { ws := ws, slice := t.slice, width := w, r0 := t.r0, r1 := t.r1, hd := hd, free := s.free
    canvas := fun p row l => s.pixel v p (s.loadLine t hd row) (col l)
    ref := fun p row l =>
      let n := s.loadLine t hd row
      match s.fieldFor v n with
      | some (r, f, y) => if (s.kept v).contains p then s.refPixel v r f p (col l) y else 0
      | none => if (s.kept v).contains p then Config.noReference p n (col l) % 256 else 0
    cls := fun row l =>
      let n := s.loadLine t hd row
      match s.fieldFor v n with
      | some (r, f, y) => s.refClass v r f (col l) y
      | none => Config.noReference 4 n (col l) % 16
    mask := fun row l =>
      let n := 256 * t.strip + row - hd
      decide (hd ≤ row) && decide (t.r0 ≤ row - hd) && decide (row - hd ≤ t.r1) && s.lineInspected v n && !s.unmasked v (col l) n }

/-! ## Fragments (R302 to R304) -/

/-- Consecutive numbers as spans. -/
def spansOf (l : List Nat) : List (Nat × Nat) :=
  (sortInts (l.map (fun n => ((n : Nat) : Int)))).foldl (fun acc x =>
    match acc.getLast? with
    | some (a, b) => if x.toNat = b then acc else if x.toNat = b + 1 then acc.dropLast ++ [(a, b + 1)] else acc ++ [(x.toNat, x.toNat)]
    | none => [(x.toNat, x.toNat)]) []

/-- The edge spans of a component (R304). -/
def Comp.spans (c : Comp) (right r0 r1 : Nat) : List Span :=
  let rows (p : Run → Bool) : List (Nat × Nat) := spansOf ((c.runs.filter p).map Run.row)
  let cols (row : Nat) : List (Nat × Nat) :=
    let rs := (c.runs.filter (fun r => r.row == row)).map (fun r => (((r.s : Nat) : Int), ((r.e : Nat) : Int)))
    (rs.foldl (fun l p => insertPair p l) []).map (fun p => (p.1.toNat, p.2.toNat))
  (rows (fun r => r.s == 0)).map (fun p => ⟨0, p.1, p.2⟩) ++ (rows (fun r => r.e == right)).map (fun p => ⟨1, p.1, p.2⟩) ++
    (cols r0).map (fun p => ⟨2, p.1, p.2⟩) ++ (cols r1).map (fun p => ⟨3, p.1, p.2⟩)

/-- One span per touched edge. -/
def coarseSpans (l : List Span) : List Span :=
  (List.range 4).filterMap (fun e =>
    let m := l.filter (fun x => x.edge == e)
    m.head?.map (fun h => ⟨e, m.foldl (fun a x => min a x.a) h.a, m.foldl (fun b x => max b x.b) h.b⟩))

/-- The touch bits of some spans. -/
def touchBits (l : List Span) : Nat := l.foldl (fun m x => setBit m x.edge true) 0

/-- The bytes of a fragment (R303, R304). -/
def Frag.bytes (f : Frag) : List Byte :=
  leBytes 8 f.strip ++ [f.view, f.slice, f.part, f.flags] ++ leBytes 2 f.comp ++ leBytes 2 f.spans.length ++ leBytes 4 f.x0 ++
    leBytes 4 f.x1 ++ [f.r0, f.r1, f.gen, 0] ++ leBytes 4 f.area ++ leBytes 8 f.sumB ++ leBytes 8 f.sumX ++ leBytes 4 f.sumR ++
    leBytes 2 f.maxB ++ leBytes 2 f.classes ++ leBytes 2 f.epoch ++ List.replicate 6 0 ++
    f.spans.flatMap (fun p => [p.edge, 0] ++ leBytes 2 p.a ++ leBytes 2 p.b ++ [0, 0])

/-- The bytes of a task-end record (R278). -/
def Ended.bytes (e : Ended) : List Byte :=
  leBytes 8 e.strip ++ [e.view, e.slice, e.part, e.status, b2n e.truncated, e.gen, e.r0, e.r1] ++ leBytes 4 e.cnt ++
    leBytes 2 e.frags ++ leBytes 2 e.epoch ++ List.replicate 8 0

/-- The fragment of a component (R303, R304). -/
def Comp.frag (c : Comp) (t : Task) (ws right k epoch : Nat) : Frag :=
  let sp := c.spans right t.r0 t.r1
  let coarse := decide (256 < sp.length)
  let base := ws * t.slice
  let lo (f : Run → Nat) : Nat := c.runs.foldl (fun m r => min m (f r)) ((c.runs.head?.map f).getD 0)
  let hi (f : Run → Nat) : Nat := c.runs.foldl (fun m r => max m (f r)) 0
  { strip := t.strip, view := t.view, slice := t.slice, part := t.part, flags := touchBits sp + 32 * b2n coarse, comp := k
    x0 := base + lo Run.s, x1 := base + hi Run.e, r0 := lo Run.row, r1 := hi Run.row, gen := t.gen
    area := (c.runs.map Run.n).sum, sumB := ofSigned 64 (c.runs.map Run.sumB).sum, epoch := epoch
    sumX := (c.runs.map (fun r => (r.e + 1 - r.s) * (2 * base + r.s + r.e) / 2)).sum
    sumR := (c.runs.map (fun r => r.n * r.row)).sum
    maxB := ofSigned 16 (c.runs.foldl (fun m r => max m r.maxB) ((c.runs.head?.map Run.maxB).getD 0)), classes := c.runs.foldl (fun m r => Nat.lor m r.classes) 0
    spans := if coarse then coarseSpans sp else sp }

/-- The flood fragment (R302); its column and row sums are free. -/
def floodFrag (t : Task) (x : TileRun) (ws right k rv free epoch : Nat) : Frag :=
  let sp : List Span := [⟨0, rv, t.r1⟩, ⟨1, rv, t.r1⟩] ++ (if rv = t.r0 then [⟨2, 0, right⟩] else []) ++ [⟨3, 0, right⟩]
  { strip := t.strip, view := t.view, slice := t.slice, part := t.part, flags := touchBits sp + 48, comp := k
    x0 := ws * t.slice, x1 := ws * t.slice + right, r0 := rv, r1 := t.r1, gen := t.gen
    area := x.overN, sumB := ofSigned 64 x.overB, sumX := Config.floodSum free 0, sumR := Config.floodSum free 1
    maxB := ofSigned 16 x.overMax, classes := x.overCls, spans := sp, epoch := epoch }

/-- The debug words of a task of the view that TIDE_DEBUG_VIEW names, written to the tile's debug area (R295). -/
def State.writeDebug (s : State) (k view : Nat) (words : List (Nat × List (Option Nat))) : State :=
  if s.get TIDE_DEBUG_VIEW = view then
    words.foldl (fun u e => e.2.zipIdx.foldl (fun w l =>
      match l.1 with
      | some n => w.dramWrite (Config.tideDebugAddr + k * 1048576 + 128 * e.1 + 2 * l.2) (leBytes 2 n)
      | none => w) u) s
  else s

/-- A task runs: its fragments, debug words and overflow (R287, R295, R302). -/
def State.runTask (s : State) (k : Nat) (t : Task) : State × TaskOut :=
  if t.heartbeat then (s, {})
  else
    let x := tileRun (s.taskEnv t) t.image t.view
    let cols := s.sliceCols t.image t.view t.slice
    let right := cols.2 - cols.1
    let ws := tideWs t.image t.view
    let ep := s.get TILE_EPOCH (s.get TILE_PHYS k)
    let fs := x.emitted.zipIdx.map (fun c => c.1.frag t ws right c.2 ep)
    let fr := s.fresh
    let s1 := fr.2
    let out : TaskOut := match x.overRow with
      | some rv => { frags := fs ++ [floodFrag t x ws right fs.length rv fr.1 ep], cnt := x.cnt, truncated := true }
      | none => { frags := fs, cnt := x.cnt }
    let s2 := s1.writeDebug k t.view x.debugWords
    (if out.truncated then (s2.tally TILE_RUN_OVERFLOW).emit 0xB7 else s2, out)

/-- The head of a tile's queue runs if it has not; the task with its result. -/
def State.headRun (s : State) (k : Nat) : State × Option (Task × TaskOut) :=
  match (s.tile k).queue with
  | [] => (s, none)
  | t :: _ =>
    match t.out with
    | some o => (s, some (t, o))
    | none =>
      let x := s.runTask k t
      (x.1.modTile k (fun y => { y with queue := { t with out := some x.2 } :: y.queue.drop 1 }), some ({ t with out := some x.2 }, x.2))

/-! ## The end of a task (R278, R300, R314, R315) -/

/-- The blind cover of a task's area (R315, R318). -/
def State.blindTask (s : State) (t : Task) : State :=
  let c := s.sliceCols t.image t.view t.slice
  (List.range (t.r1 + 1 - t.r0)).foldl (fun u i => u.blindRange t.view blindTile c.1 c.2 (256 * t.strip + t.r0 + i))
    (s.flag t.view t.strip 4)

/-- A task's end record reaches the assembler: 0 DONE, 1 SKIPPED, 2 BLIND_TILE, 3 ABANDONED (R278, R300, R322). -/
def State.endTask (s : State) (t : Task) (status : Nat) (o : TaskOut) : State :=
  let s1 := s.volume TILE_TASKS 0
  if t.heartbeat then (if status = 2 then s1.tally TILE_BLIND_TASKS else s1)
  else
    let e : Ended := {
      view := t.view, strip := t.strip, part := t.part, slice := t.slice, status := status, truncated := o.truncated, gen := t.gen
      r0 := t.r0, r1 := t.r1, cnt := o.cnt, frags := o.frags.length
      epoch := s.get TILE_EPOCH (s.get TILE_PHYS (s.firstTile t.image t.view + t.slice)) }
    let s2 := if status = 2 then (s1.blindTask t).tally TILE_BLIND_TASKS else s1
    let s3 := if (s2.strip t.view t.strip).isNone then s2
      else { s2 with asm := { s2.asm with ended := s2.asm.ended ++ [e] } }
    if status = 0 then o.frags.foldl (fun u f => u.addFrag t.image f) s3 else s3

/-- The assembler and the banks settle after tasks have ended. -/
def State.fabricSettle (s : State) : State := s.asmSettle.tideSettle

/-- What the fabric can finish at a mode-change line, which is the first line of a bank that becomes active (R311). -/
def State.fabricSettleAt (s : State) (line : Nat) : State := s.asmSettle.tideSettleAt line

/-! ## Issue (R273, R274, R277) -/

/-- Whether the anchor rows a line needs are final, where the registration engine works on them (R252). -/
def State.rowsReady (s : State) (v n : Nat) : Bool :=
  match s.repAt n with
  | none => true
  | some r => (!bit r.ups v && !(s.reg v).seeded) || s.rowsFinal v n

/-- Whether a released strip's tasks can be issued (R274). -/
def State.canIssue (s : State) (v : Nat) (x : CStrip) : Bool :=
  (List.range 256).all (fun i => s.rowsReady v (256 * x.num + i)) &&
    ((s.partsOf x.num).all (fun p => tideHd (s.imageAt p.gen) v == 0) || (match s.strip v (x.num + 1) with
      | some y => y.released
      | none => false))

/-- The cover of a strip's unregistered lines (R256). -/
def State.coverUnregistered (s : State) (v : Nat) (x : CStrip) : State :=
  let ls := (List.range 256).filter (fun i => (s.repAt (256 * x.num + i)).isSome && !s.lineInspected v (256 * x.num + i))
  if ls.isEmpty then s
  else
    let t := ls.foldl (fun u i => u.blindLine v blindUnreg (256 * x.num + i)) (s.flag v x.num 8)
    if bit x.flags 3 then t else t.tally REG_UNREG_STRIPS v

/-- One task is issued: skipped when its mask is 0 everywhere, blind on a DOWN tile, else queued or held (R276, R277, R318). -/
def State.issueTask (s : State) (k : Nat) (t : Task) : State :=
  let c := s.sliceCols t.image t.view t.slice
  let inspected := (List.range (t.r1 + 1 - t.r0)).any (fun i =>
    let n := 256 * t.strip + t.r0 + i
    s.lineInspected t.view n && (List.range (c.2 + 1 - c.1)).any (fun j => !s.unmasked t.view (c.1 + j) n))
  if !inspected then s.endTask t 1 {}
  else if s.tileState k = 3 then s.endTask t 2 {}
  else if s.tileState k = 2 ∨ 4 ≤ (s.tile k).queue.length ∨ !(s.tile k).held.isEmpty then
    s.modTile k (fun x => { x with held := x.held ++ [t] })
  else s.modTile k (fun x => x.push s.now t)

/-- The tasks of a strip are issued for all slices at once (R274). -/
def State.issueStrip (s : State) (v : Nat) (x : CStrip) : State :=
  let t := (((s.coverUnregistered v x).learnRows v x.num).modStrip v x.num (fun y => { y with issued := true }))
  ((t.partsOf x.num).zipIdx).foldl (fun u p =>
    let im := u.imageAt p.1.gen
    (List.range (u.slicesOf im v)).foldl (fun w j =>
      w.issueTask (w.firstTile im v + j)
        { view := v, slice := j, part := p.2, strip := x.num, r0 := p.1.r0, r1 := p.1.r1, gen := p.1.gen, image := im }) u) t

/-- TASK_ISSUE (R274): the sequencer issues the tasks of a view's next strip, once its conditions hold. -/
def execTaskIssue (dt view : Nat) (s : State) : Host.Outcome State Fault Refusal :=
  act (decide (view < 4)) dt s fun s =>
    if !s.fabricRuns then s
    else
      let t := s.tilesWake
      match (t.view view).strips.find? (fun x => x.released && x.analysis && !x.issued && !x.left_) with
      | some x => if t.canIssue view x then (t.issueStrip view x).fabricSettle else t
      | none => t

/-! ## Results (R303, R314, R316) -/

/-- The logical tile a physical tile serves. -/
def State.tileOf (s : State) (phys : Nat) : Option Nat := lowest 96 (fun k => s.get TILE_PHYS k == phys)

/-- The clock gate of a physical tile closes (R315, R585). -/
def State.gateTile (s : State) (phys : Nat) : State := { s with bench := { s.bench with gated := insertNat phys s.bench.gated } }

/-- Whether data of a physical tile is out of date: it bears an old epoch, or the tile is out of use (R316). -/
def State.tileStale (s : State) (phys epoch : Nat) : Bool :=
  s.get TILE_EPOCH phys != epoch || s.get TILE_PHYS_STATE phys == 2 || s.get TILE_PHYS_STATE phys == 3

/-- Whether a logical tile is idle: no slice, and no task left of a bank before (R270). -/
def State.tileIdle (s : State) (k : Nat) : Bool :=
  decide (s.slicesUsed ≤ k) && (s.tile k).queue.isEmpty && (s.tile k).held.isEmpty

/-- Whether a physical tile is being tested, so that its clock runs (R316, R317). -/
def State.tileTested (s : State) (p : Nat) : Bool :=
  ((s.bench.tileTest.toList ++ s.bench.tileCheck.toList).any (fun t => t.1 == p))

/-- Whether a physical tile's clock is stopped for idleness: it serves an idle logical tile, or none (R270, R315). -/
def State.tileRests (s : State) (p : Nat) : Bool :=
  !s.tileTested p && (match s.tileOf p with
    | some k => s.tileIdle k
    | none => true)

/-- ISLAND_STATE as read: a tile group whose four clock gates are all closed is STOPPED (R270, R585, R586). -/
def State.islandState (s : State) (i : Nat) : Nat :=
  if s.get ISLAND_STATE i = 2 ∧ i < 26 ∧
      (List.range 4).all (fun j => s.bench.gated.contains (4 * i + j) || s.tileRests (4 * i + j)) then 1
  else s.get ISLAND_STATE i

/-- Data that reaches a landing out of date is discarded and tallied, and the tile's clock stop is requested again (R316). -/
def State.staleTile (s : State) (phys : Nat) : State := (s.tally TILE_STALE_RESULT).gateTile phys

/-- The logical tile that a physical tile in use serves (R315, R318). -/
def State.servedBy (s : State) (phys : Nat) : Option Nat :=
  if s.get TILE_PHYS_STATE phys = 0 then
    lowest 96 (fun k => s.get TILE_PHYS k == phys && s.tileState k != 3)
  else none

/-- FRAGMENT (R303, R316): the next fragment of the task at the head of a tile's queue reaches the assembler. -/
def execFragment (dt : Nat) (src : TileSender) (s : State) : Host.Outcome State Fault Refusal :=
  act (decide (src.phys < 104)) dt s fun s =>
    if !s.fabricRuns then s
    else
      let t := s.tilesWake
      if t.tileStale src.phys src.epoch then t.staleTile src.phys
      else
        match t.servedBy src.phys with
        | none => t
        | some k =>
          match t.headRun k with
          | (u, some (h, o)) =>
            if h.sent < o.frags.length then
              (u.modTile k (fun x => { x with queue := { h with sent := h.sent + 1 } :: x.queue.drop 1 })).volume TILE_FRAGMENTS 0
            else u
          | (u, none) => u

/-! ## Deadlines and takeovers (R313 to R315, R318) -/

/-- The lowest-numbered SPARE physical tile. -/
def State.spareTile (s : State) : Option Nat := lowest 104 (fun p => s.get TILE_PHYS_STATE p == 1)

/-- A spare is woken and routed to a logical tile (R315, R318). -/
def State.routeTile (s : State) (k p : Nat) : State :=
  ({ s with bench := { s.bench with gated := s.bench.gated.filter (· != p) } }.set TILE_PHYS k p).setUnit 0 p 0

/-- A logical tile's physical tile is declared dead (R315, R318). -/
def State.tileDead (s : State) (k : Nat) : State :=
  let p := s.get TILE_PHYS k
  let s1 := ((((s.declareDead 0 p).restDomain 0 p).gateTile p).emit 0xB5).emcy 0xFF02 p
  let lost := (s1.tile k).queue
  let s2 := s1.modTile k (fun x => { x with queue := [], misses := 0 })
  let s3 := lost.foldl (fun u t => u.endTask t 2 {}) s2
  match s3.spareTile with
  | some q =>
    ((s3.routeTile k q).set TILE_LOG_STATE k 2).modTile k (fun x => { x with takeAt := some (s3.now + 100000) })
  | none =>
    let held := (s3.tile k).held
    let s4 := ((s3.set TILE_LOG_STATE k 3).emit 0xB6).modTile k (fun x => { x with held := [], takeAt := none })
    held.foldl (fun u t => u.endTask t 2 {}) s4

/-- A deadline that has passed counts one miss; the third in a row declares the tile dead (R314). -/
def State.tileMiss (s : State) (k : Nat) : State :=
  let x := s.tile k
  match x.queue.findIdx? (fun t => !t.counted) with
  | none => s
  | some i =>
    match s.tileDeadline (x.queue.getD i { view := 0, slice := 0, part := 0, strip := 0, r0 := 0, r1 := 0 }) with
    | none => s
    | some d =>
      if x.clock + d < s.now then
        let t := (s.tally TILE_HB_MISS).modTile k (fun y => { y with
          queue := modifyAt y.queue i (fun q => { q with counted := true }), misses := y.misses + 1, clock := y.clock + d })
        if 3 ≤ (t.tile k).misses then t.tileDead k else t
      else s

/-- TILE_DEADLINE (R313, R314): a deadline passes without acknowledgement. -/
def execTileDeadline (dt tile : Nat) (s : State) : Host.Outcome State Fault Refusal :=
  act (decide (tile < 96)) dt s fun s => if s.fabricRuns then (s.tilesWake.tileMiss tile).fabricSettle else s

/-- The head of a tile's queue is acknowledged (R276, R300, R301, R313, R314). -/
def State.ackTask (s : State) (k wait : Nat) (t : Task) (o : TaskOut) : State :=
  let clocks := if t.heartbeat then 72 else tideClocks t.image t.view
  let busy := clocks + wait * 8 / 5
  let inTime := !t.counted
  let s1 := s.modTile k (fun x => { x.ack s.now with clocks := x.clocks + busy, misses := if inTime then 0 else x.misses }.fill s.now)
  let s2 := (((s1.volume TILE_FRAGMENTS 0 (o.frags.length - t.sent)).volume TILE_LOAD_WAIT_NS 0 wait).volume TILE_BUSY_CLOCKS 0 busy)
  s2.endTask t t.status o

/-- TASK_END (R278, R300, R314, R316, R322): a task-end record reaches the assembler; fragments it follows that no FRAGMENT
brought come with it. -/
def execTaskEnd (dt : Nat) (src : TileSender) (loadWaitNs : Nat) (s : State) : Host.Outcome State Fault Refusal :=
  act (decide (src.phys < 104)) dt s fun s =>
    if !s.fabricRuns then s
    else
      let t := s.tilesWake
      if t.tileStale src.phys src.epoch then t.staleTile src.phys
      else
        match t.servedBy src.phys with
        | none => t
        | some k =>
          let t1 := match (t.tile k).queue with
            | h :: _ => if h.counted then t else t.tileMiss k
            | [] => t
          if t1.tileStale src.phys src.epoch then (t1.staleTile src.phys).fabricSettle
          else
            match t1.headRun k with
            | (u, some (h, o)) => (u.ackTask k loadWaitNs h o).fabricSettle
            | (u, none) => u

/-- TILE_HEARTBEAT_TASK (R313): a running tile without a task for 5 ms gets a heartbeat task in MAKEREADY and INSPECT. -/
def execTileHeartbeatTask (dt tile : Nat) (s : State) : Host.Outcome State Fault Refusal :=
  act (decide (tile < 96)) dt s fun s =>
    let t := s.tilesWake
    if (s.get MODE = 2 ∨ s.get MODE = 3) ∧ t.tileState tile = 1 ∧ (t.tile tile).lastTask + 5000000 ≤ t.now ∧ (t.tile tile).queue.length < 4 then
      t.modTile tile (fun x => x.push t.now { view := 0, slice := 0, part := 0, strip := 0, r0 := 0, r1 := 0, heartbeat := true })
    else s

/-- Entry to READY: a logical tile that is DOWN, or whose physical tile is out of use, takes any SPARE, or is DOWN (R318). -/
def State.tilesReady (s : State) : State :=
  (List.range 96).foldl (fun t k =>
    if t.get TILE_PHYS_STATE (t.get TILE_PHYS k) = 0 ∧ t.get TILE_LOG_STATE k ≠ 3 then t
    else
      match t.spareTile with
      | some q => (t.routeTile k q).set TILE_LOG_STATE k 1
      | none => t.set TILE_LOG_STATE k 3) s

/-- Tasks in flight are discarded and no miss is counted (R80, R319). -/
def State.flushTiles (s : State) : State :=
  { s with tiles := s.tiles.map (fun x => { x with queue := [], held := [], misses := 0, clock := s.now }) }

/-- TIDE_LOAD_WINDOW (R306): a window of 100 ms ends. -/
def execTideLoadWindow (dt : Nat) (s : State) : Host.Outcome State Fault Refusal :=
  act true dt s fun s =>
    if s.now < s.tideWin + 100000000 then s
    else
      let most := s.tiles.foldl (fun m x => max m x.clocks) 0
      { s.set TIDE_LOAD_PERMILLE 0 (min 65535 (most * 625 / (s.now - s.tideWin))) with
        tideWin := s.now, tiles := s.tiles.map (fun x => { x with clocks := 0 }) }

/-! ## Self-tests (R316, R317) -/

/-- TILE_SELFTEST's write (R316, R628, R629, R664). -/
def State.tileSelftest (s : State) (via : Path) (p : Nat) : State :=
  let k := TILE_SELFTEST.key 0
  if 103 < p then s.refuse via k 0x06090031
  else if s.get MODE ≠ 0 ∧ s.get MODE ≠ 1 then s.refuse via k abortMode
  else if s.get TILE_PHYS_STATE p ≠ 2 then s.refuse via k abortMode
  else if s.bench.tileTest.isSome then s.refuse via k abortBusy
  else if !s.asDormant && s.wrapperClosed (p / 4) then (s.accept.isoErrors 1).set TILE_SELFTEST_RESULT 0 3
  else { (s.accept.testPower (p / 4) true).set TILE_SELFTEST_RESULT 0 1 with
    bench := { s.bench with tileTest := some (p, s.now), gated := s.bench.gated.filter (· != p) } }

/-- TILE_SELFTEST (R316, R664). -/
def execTileSelftest (dt : Nat) (via : Path) (phys : Nat) (s : State) : Host.Outcome State Fault Refusal :=
  act true dt s fun s => s.tileSelftest via phys

/-- TILE_SELFTEST_DONE (R316, R628): fragments and task-end record match the stored signature, or not. -/
def execTileSelftestDone (dt : Nat) (pass : Bool) (s : State) : Host.Outcome State Fault Refusal :=
  act true dt s fun s =>
    match s.bench.tileTest with
    | none => s
    | some (p, _) =>
      let t := ({ s with bench := { s.bench with tileTest := none } }).testPower (p / 4) false
      if pass then (t.set TILE_SELFTEST_RESULT 0 2).selfTestPassed 0 p
      else (((t.gateTile p).set TILE_SELFTEST_RESULT 0 3).selfTestFailed 0 p).restDomain 0 p

/-- SPARE_TILE_CHECK (R317): each spare every ten minutes in every mode but DORMANT. -/
def execSpareTileCheck (dt phys : Nat) (s : State) : Host.Outcome State Fault Refusal :=
  act (decide (phys < 104)) dt s fun s =>
    if s.asDormant = false ∧ s.get TILE_PHYS_STATE phys = 1 ∧ s.bench.tileCheck.isNone ∧
        (s.bench.tileAt.look phys).getD 0 + 600000000000 ≤ s.now then
      { s with bench := { s.bench with tileCheck := some (phys, s.now), tileAt := s.bench.tileAt.put phys s.now } }
    else s

/-- SPARE_TILE_CHECK_DONE (R317): a spare that fails goes to QUARANTINE. -/
def execSpareTileCheckDone (dt phys : Nat) (pass : Bool) (s : State) : Host.Outcome State Fault Refusal :=
  act (decide (phys < 104)) dt s fun s =>
    match s.bench.tileCheck with
    | some (p, _) =>
      if p = phys then
        let t := { s with bench := { s.bench with tileCheck := none } }
        if pass || t.get TILE_PHYS_STATE p != 1 then t else ((t.setUnit 0 p 2).gateTile p).restDomain 0 p
      else s
    | none => s

/-- FABRIC_CLEAR's effect (R320). -/
def State.fabricClear (s : State) (via : Path) : State :=
  s.command via FABRIC_CLEAR 0 true (fun t => t.clearAll [TILE_HB_MISS, TILE_BLIND_TASKS, TILE_RUN_OVERFLOW, TILE_STALE_RESULT])

/-- FABRIC_CLEAR (R320). -/
def execFabricClear (dt : Nat) (via : Path) (s : State) : Host.Outcome State Fault Refusal := act true dt s fun s => s.fabricClear via

end Sys2Proof.Machine
end

