-- ==== Sys2Proof/Machine/Stream.lean ====
section
/-! DEFINITION. Machine/Stream.lean: the block stream format of the compression engine: writer and reader (R467 to R478). -/
namespace Sys2Proof.Machine

/-! ## Filters (R470) -/

/-- What a filter subtracts from the byte at index `i` of a block that begins at stream offset `b`: the byte before it, or
the byte one row up. -/
def filterRef (filter w b i : Nat) : Option Nat :=
  if filter = 1 then (if i = 0 ∨ (w ≠ 0 ∧ (b + i) % w = 0) then none else some (i - 1))
  else if filter = 2 then (if i < w then none else some (i - w))
  else none

/-- A block after its filter. -/
def filterBlock (filter w b : Nat) (xs : List Byte) : List Byte :=
  xs.zipIdx.map (fun e => match filterRef filter w b e.2 with
    | some j => (e.1 + 256 - xs.getD j 0) % 256
    | none => e.1)

/-- The filter reversed, in ascending order. -/
def unfilterBlock (filter w b : Nat) (xs : List Byte) : List Byte :=
  xs.foldl (fun out x => out ++ [match filterRef filter w b out.length with
    | some j => (x + out.getD j 0) % 256
    | none => x]) []

/-! ## LZ payloads (R471) -/

/-- A length beyond 15 in bytes of 255. -/
def lzMore : Nat → Nat → List Byte
  | 0, n => [n]
  | f + 1, n => if n < 255 then [n] else 255 :: lzMore f (n - 255)

/-- One sequence: literals, then a match of `len` at `off`, or none at the end of the block. -/
def lzSeq (lits : List Byte) (m : Option (Nat × Nat)) (tail : Nat) : List Byte :=
  let n := lits.length
  let k := match m with
    | some e => min 15 (e.2 - 4)
    | none => tail % 16
  [min 15 n * 16 + k] ++ (if n < 15 then [] else lzMore n (n - 15)) ++ lits ++ (match m with
    | some e => leBytes 3 e.1 ++ (if e.2 - 4 < 15 then [] else lzMore e.2 (e.2 - 19))
    | none => [])

/-- Whether a match of `len` at `off` back from position `i` holds in the input. -/
def lzFits (xs : List Byte) (i off len : Nat) : Bool :=
  decide (1 ≤ off) && decide (off ≤ i) && decide (off < 2 ^ 24) && decide (4 ≤ len) && decide (i + len ≤ xs.length) &&
    (List.range len).all (fun j => xs.getD (i + j) 0 == xs.getD (i + j - off) 0)

/-- An LZ payload of an input, with the matches the compressor's search proposes. -/
def lzEncode (level : Nat) (xs : List Byte) : Nat → Nat → List Byte → List Byte
  | 0, _, lits => lzSeq lits none (Config.lzMatch level xs xs.length).2
  | f + 1, i, lits =>
    if xs.length ≤ i then lzSeq lits none (Config.lzMatch level xs xs.length).2
    else
      let m := Config.lzMatch level xs i
      if lzFits xs i m.1 m.2 then lzSeq lits (some m) 0 ++ lzEncode level xs f (i + m.2) []
      else lzEncode level xs f (i + 1) (lits ++ [xs.getD i 0])

/-- A length's further bytes: the sum and the rest of the payload. -/
def lzExt : List Byte → Nat → Option (Nat × List Byte)
  | [], _ => none
  | x :: r, n => if x = 255 then lzExt r (n + 255) else some (n + x, r)

/-- An LZ payload decoded onto the output so far, newest byte first; none where a field is cut short or a match reaches
before the block. -/
def lzDecode : Nat → List Byte → List Byte → Option (List Byte)
  | 0, _, _ => none
  | _ + 1, [], _ => none
  | f + 1, t :: p, out =>
    match (if t / 16 = 15 then lzExt p 15 else some (t / 16, p)) with
    | none => none
    | some (lit, q) =>
      if q.length < lit then none
      else
        let out1 := (q.take lit).reverse ++ out
        let q1 := q.drop lit
        if q1.isEmpty then some out1
        else if q1.length < 3 then none
        else
          let off := leNat (q1.take 3)
          match (if t % 16 = 15 then lzExt (q1.drop 3) 15 else some (t % 16, q1.drop 3)) with
          | none => none
          | some (m, q2) =>
            if off = 0 ∨ out1.length < off then none
            else lzDecode f q2 ((List.range (m + 4)).foldl (fun o _ => o.getD (off - 1) 0 :: o) out1)

/-! ## Writing (R467 to R474) -/

/-- The 32-byte stream header (R467). -/
def streamHeader (level len e row : Nat) : List Byte :=
  let h := [0x4B, 0x42, 0x53, 0x31, 1, level, 0, 0] ++ leBytes 8 len ++ [e, 0, 0, 0] ++ leBytes 4 row ++ [0, 0, 0, 0]
  h ++ leBytes 4 (crc32c h)

/-- A block: header, padded payload, CRC (R468). -/
def streamBlock (typ filter flags len crc : Nat) (p : List Byte) : List Byte :=
  let b := [typ, filter] ++ leBytes 2 flags ++ leBytes 4 len ++ leBytes 4 p.length ++ leBytes 4 crc ++ p ++
    List.replicate ((8 - p.length % 8) % 8) 0
  b ++ leBytes 4 (crc32c b)

/-- The shortest of some filtered LZ payloads, the first of equals. -/
def shortest (l : List (Nat × List Byte)) : Nat × List Byte :=
  match l with
  | [] => (0, [])
  | a :: r => r.foldl (fun m x => if x.2.length < m.2.length then x else m) a

/-- One data block of the compressor (R472). -/
def compressBlock (level filter w b : Nat) (flushed : Bool) (xs : List Byte) : List Byte :=
  let flags := b2n flushed
  let x0 := xs.headD 0
  if xs.all (· == x0) then streamBlock 2 0 flags xs.length (crc32c xs) [x0, 0, 0, 0, 0, 0, 0, 0]
  else
    let try_ (f : Nat) : Nat × List Byte :=
      let ys := filterBlock f w b xs
      (f, lzEncode level ys ys.length 0 [])
    let best := if level ≤ 5 then try_ filter else shortest ((if w = 0 then [0, 1] else [0, 1, 2]).map try_)
    if level = 0 ∨ xs.length ≤ best.2.length then streamBlock 0 0 flags xs.length (crc32c xs) xs
    else streamBlock 1 best.1 flags xs.length (crc32c xs) best.2

/-- The data blocks from stream offset `b` on: each ends at its nominal size, or at a flush within it (R469, R474). -/
def compressBlocks (level filter e w : Nat) (flushes : List Nat) : Nat → Nat → List Byte → List (List Byte)
  | 0, _, _ => []
  | f + 1, b, xs =>
    if xs.isEmpty then []
    else
      let cut := flushes.find? (fun p => decide (b < p) && decide (p < b + 2 ^ e) && decide (p < b + xs.length))
      let n := match cut with
        | some p => p - b
        | none => 2 ^ e
      compressBlock level filter w b cut.isSome (xs.take n) :: compressBlocks level filter e w flushes f (b + n) (xs.drop n)

/-- A whole stream (R467 to R474). -/
def compress (level filter e w : Nat) (flushes : List Nat) (xs : List Byte) : List Byte :=
  let bs := compressBlocks level filter e w flushes xs.length 0 xs
  streamHeader level xs.length e w ++ bs.flatten ++ streamBlock 0xFF 0 0 0 (crc32c []) (leBytes 4 bs.length ++ [0, 0, 0, 0])

/-! ## Reading (R478) -/

/-- How reading a stream ends: with its bytes, malformed at an offset, or longer than its limit. -/
inductive Unpacked where
  | ok (bytes : List Byte)
  | malformed (at_ : Nat)
  | limit
  deriving DecidableEq, Repr

/-- A block's bytes: its payload of `n` bytes decoded, at stream offset `b` of the output; none when it breaks its rules. -/
def blockBytes (typ filter len w b : Nat) (p : List Byte) : Option (List Byte) :=
  if typ = 0 then (if filter = 0 ∧ p.length = len then some p else none)
  else if typ = 1 then
    match lzDecode (p.length + 1) p [] with
    | some out => if out.length = len then some (unfilterBlock filter w b out.reverse) else none
    | none => none
  else if filter = 0 ∧ p.length = 8 ∧ (p.drop 1).all (· == 0) then some (List.replicate len (p.headD 0)) else none

/-- The blocks from source offset `o`: blocks before it, output so far, and the offset of a data block shorter than nominal,
which only the last may be. -/
def readBlocks (src : List Byte) (e w total limit : Nat) : Nat → Nat → Nat → List Byte → Option Nat → Unpacked
  | 0, o, _, _, _ => .malformed o
  | f + 1, o, k, out, short =>
    if src.length < o + 20 then .malformed o
    else
      let typ := natAt src o 1
      let filter := natAt src (o + 1) 1
      let len := natAt src (o + 4) 4
      let n := natAt src (o + 8) 4
      let padded := (n + 7) / 8 * 8
      let p := (src.drop (o + 16)).take n
      let next := o + 20 + padded
      if src.length < next ∨ natAt src (16 + o + padded) 4 ≠ crc32c ((src.drop o).take (16 + padded)) ∨ 2 < filter ∨
          (filter = 2 ∧ w = 0) ∨ ((src.drop (o + 16 + n)).take (padded - n)).any (· != 0) then .malformed o
      else if typ = 0xFF then
        if n = 8 ∧ len = 0 ∧ leNat (p.take 4) = k ∧ out.length = total ∧ natAt src (o + 12) 4 = crc32c [] then .ok out
        else .malformed o
      else if typ = 3 then
        if n = 8 ∧ len = 0 ∧ k = 0 ∧ total = 0 ∧ natAt src (o + 12) 4 = crc32c [] then
          readBlocks src e w total limit f next (k + 1) out (some o)
        else .malformed o
      else if 3 < typ then .malformed o
      else
        match short with
        | some q => .malformed q
        | none =>
          if 2 ^ e < len then .malformed o
          else
            match blockBytes typ filter len w out.length p with
            | none => .malformed o
            | some bs =>
              if natAt src (o + 12) 4 ≠ crc32c bs then .malformed o
              else if limit < out.length + bs.length then .limit
              else
                let flushed := bit (natAt src (o + 2) 2) 0
                readBlocks src e w total limit f next (k + 1) (out ++ bs) (if len < 2 ^ e && !flushed then some o else none)

/-- Where a stream's END block ends, from the block at offset `o`; the whole source where none is found. -/
def endOfBlocks (src : List Byte) : Nat → Nat → Nat
  | 0, _ => src.length
  | f + 1, o =>
    let next := o + 20 + (natAt src (o + 8) 4 + 7) / 8 * 8
    if src.length < next then src.length else if natAt src o 1 = 0xFF then next else endOfBlocks src f next

/-- The length of the stream that a source holds. -/
def streamLength (src : List Byte) : Nat := endOfBlocks src src.length 32

/-- A stream read whole: its source bytes and the limit of its output (R467 to R471, R478). -/
def decompress (src : List Byte) (limit : Nat) : Unpacked :=
  let h := src.take 32
  if h.length < 32 ∨ h.take 4 ≠ [0x4B, 0x42, 0x53, 0x31] ∨ natAt h 4 1 ≠ 1 ∨ natAt h 28 4 ≠ crc32c (h.take 28) ∨
      9 < natAt h 5 1 ∨ natAt h 16 1 < 12 ∨ 20 < natAt h 16 1 then .malformed 0
  else readBlocks src (natAt h 16 1) (natAt h 20 4) (natAt h 8 8) limit src.length 32 0 [] none

end Sys2Proof.Machine
end

