-- ==== Sys2Proof/Machine/Wharf.lean ====
section
/-! DEFINITION. Machine/Wharf.lean: the wharf's jobs, bus errors, the compression engine, archive packets and crops
(R457 to R480). -/
namespace Sys2Proof.Machine
open Reg

/-! ## Owners of a channel (R479, R484) -/

/-- The function that owns a wharf channel (R484). -/
def State.chanOwner (s : State) (n : Nat) : Nat := if s.get HL_LINK_MODE_ACTIVE = 1 ∧ 20 ≤ n then 1 else 0

/-- Whether a writer may command a channel: channels 0 to 7 are the M12's own, and a function reaches only its own
(R479, R484). -/
def State.chanOpen (s : State) (via : Path) (n : Nat) : Bool :=
  decide (8 ≤ n) && (match via with
    | .window f => f == s.chanOwner n
    | .mailbox f => f == s.chanOwner n
    | _ => true)

/-! ## Jobs -/

/-- The job of a channel. -/
def State.job (s : State) (n : Nat) : Option Job := (s.wharf.jobs.find? (fun e => e.1 == n)).map Prod.snd

/-- The state with a channel's job changed. -/
def State.modJob (s : State) (n : Nat) (f : Job → Job) : State :=
  { s with wharf := { s.wharf with jobs := s.wharf.jobs.map (fun e => if e.1 = n then (e.1, f e.2) else e) } }

/-- A channel's job shows what it is doing. -/
def State.jobTo (s : State) (n st : Nat) : State := (s.modJob n (fun j => { j with status := st })).set WH_STATUS n st

/-- Engines of a kind in use: compressors for 1, decompressors for 2 (R466). -/
def State.enginesBusy (s : State) (op : Nat) : Nat :=
  if op = 1 then s.compressorsBusy
  else (s.wharf.jobs.filter (fun e => e.2.op == op && e.2.status == 1)).length + (if s.wharf.load = 1 then 1 else 0)

/-- Engines of a kind. -/
def engines (op : Nat) : Nat := if op = 1 then 8 else 2

/-! ## Turns (R460) -/

/-- Bursts of at most 4,096 bytes in a row of a job's source; a burst lies within a row (DEDUCED, log entry 182). -/
def Job.perRow (j : Job) : Nat := max 1 ((j.src.bytes + 4095) / 4096)

/-- Bursts that read a job's source. -/
def Job.bursts (j : Job) : Nat := j.src.rows * j.perRow

/-- Rows whose end a job's progress counts: of the source, or of what DECOMPRESS writes (R461). -/
def Job.total (j : Job) : Nat := if j.op = 2 then j.dst.rows else j.src.rows

/-- A job starts to run: from here on it takes turns with those that run already. -/
def State.turnStart (s : State) (n : Nat) : State := s.modJob n (fun j => { j with seen := s.turnsWith n })

/-- Whether the turns let a job of `n` bursts end now: every job that has run beside it from its start has had its bursts but one, and so
must have as many to serve (R460). -/
def State.turnDue (s : State) (j : Job) (n : Nat) : Bool :=
  j.seen.all (fun e => s.wharf.jobs.all (fun x => x.2.id != e.1 || decide (e.2 + n ≤ x.2.bursts + 1)))

/-- Jobs that wait take free engines in order of arrival, the archive channels before them (R466). -/
def State.grant (s : State) : State :=
  let s := s.archSettle.loadEngine
  let t := s.wharf.waiting.foldl (fun u n =>
    match u.job n with
    | some j =>
      if j.status = 2 ∧ u.enginesBusy j.op < engines j.op then
        { (u.jobTo n 1).turnStart n with wharf := { ((u.jobTo n 1).turnStart n).wharf with waiting := u.wharf.waiting.filter (· != n) } }
      else u
    | none => u) s
  t.set CMP_ENGINES_BUSY 0 (t.enginesBusy 1)

/-- A job ends: it leaves its channel and its engine, shows how it ended, and its completion cause is raised (R461, R508). -/
def State.jobEnds (s : State) (n code : Nat) : State :=
  let t := { s with wharf := { s.wharf with
    jobs := s.wharf.jobs.filter (fun e => e.1 != n), waiting := s.wharf.waiting.filter (· != n) } }
  let t := ((t.set WH_STATUS n code).irq (t.chanOwner n) (24 + n)).grant
  match s.job n with
  | some j => if j.op ≠ 0 ∧ 10 ≤ code ∧ code ≤ 13 then t.tally CMP_FAIL else t
  | none => t

/-- Bytes written at an address of one of the two spaces. -/
def State.spaceWrite (s : State) (f space a : Nat) (bs : List Byte) : State :=
  if space = 0 then s.dramWrite a bs else s.hostWrite f a bs

/-- The sides that make a job's destination undefined where they cover it: its own source, what other jobs wrote while it
ran, and what running jobs write (R459). -/
def State.others (s : State) (n : Nat) (j : Job) : List Side :=
  ((if j.src.space = j.dst.space then [j.src] else []) ++ j.clash ++
    ((s.wharf.jobs.filter (fun e => e.1 != n)).map (fun e => e.2.dst))).filter (fun d => d.meets j.dst)

/-- A row of a source: module DRAM's, the host's as delivered, or undefined where no command brought it. -/
def State.srcRow (s : State) (j : Job) (host : Option (List Byte)) (free r : Nat) : List Byte :=
  if j.src.space = 0 then s.dramShown free (j.src.row r) j.src.bytes
  else match host with
    | some h => bytesAt h (r * j.src.bytes) j.src.bytes
    | none => (List.range j.src.bytes).map (fun i => Config.freeByte (free * 2 ^ 64 + j.src.row r + i) % 256)

/-- Rows of a COPY from `a` up to before `b` are done (R458, R461). -/
def State.copyRows (s : State) (n : Nat) (j : Job) (host : Option (List Byte)) (a b : Nat) : State :=
  let fr := s.fresh
  let os := s.others n j
  let t := (List.range (b - a)).foldl (fun u i =>
    let r := a + i
    u.spaceWrite (s.chanOwner n) j.dst.space (j.dst.row r) (landing os fr.1 (j.dst.row r) (s.srcRow j host fr.1 r))) fr.2
  let t := if j.src.space = 1 then t.volume WHARF_HOST_RD_BYTES 0 ((b - a) * j.src.bytes) else t
  (t.noteClash n j.dst).modJob n (fun x => { x with rows := b })

/-- The bytes of a destination that a failed or stopped stream leaves undefined (R477). -/
def State.spoil (s : State) (n : Nat) (j : Job) : State :=
  let fr := s.fresh
  let d : Side := if j.op = 1 then { j.dst with pitch := 0, bytes := j.dstLimit, rows := 1 } else j.dst
  if d.space = 0 then
    (List.range d.rows).foldl (fun u r =>
      u.dramWrite (d.row r) ((List.range d.bytes).map (fun i => Config.freeByte (fr.1 * 2 ^ 64 + d.row r + i) % 256))) fr.2
  else
    let base := s.chanOwner n * 2 ^ 64
    { fr.2 with host := { fr.2.host with hostMem := fr.2.host.hostMem.filter (fun c => !(decide (base ≤ c.1) && d.has (c.1 - base))) } }

/-- A job beside one that ends has had `k` bursts by its turns: the rows that they make up are done (R460, R461). -/
def State.turnServed (s : State) (m : Nat) (b : Job) (k : Nat) : State :=
  let rows := max b.rows (k / b.perRow)
  let t := if b.rows < rows then (s.copyRows m b none b.rows rows).set WH_PROGRESS_ROWS m rows else s
  t.modJob m (fun x => { x with served := k })

/-- Jobs that took turns with one of `n` bursts that ends have been served as often, but for one burst: the rows they have done by then
are done (R460). -/
def State.turnsServe (s : State) (seen : List (Nat × Nat)) (n : Nat) : State :=
  seen.foldl (fun t e =>
    match t.wharf.jobs.find? (fun x => x.2.id == e.1 && x.2.ready) with
    | none => t
    | some x => t.turnServed x.1 x.2 (max x.2.served (min x.2.bursts (e.2 + (n - 1))))) s

/-- A COPY stands still at a burst boundary with `rows` rows done; of the next row some first bursts may be written (R461). -/
def State.copyStops (s : State) (n : Nat) (j : Job) (rows : Nat) : State :=
  let t := s.copyRows n j none j.rows rows
  if rows < j.src.rows then
    let fr := t.fresh
    t.fresh.2.spaceWrite (s.chanOwner n) j.dst.space (j.dst.row rows)
      ((landing (s.others n j) fr.1 (j.dst.row rows) (s.srcRow j none fr.1 rows)).take (4096 * (Config.progress fr.1 % j.perRow)))
  else t

/-- A job is ended before its end (R461, R462): a COPY leaves the rows it has written, a stream commits nothing. -/
def State.jobCut (s : State) (n code : Nat) : State :=
  match s.job n with
  | none => s
  | some j =>
    let fr := s.fresh
    let lo := max j.rows (min j.total (j.served / j.perRow))
    let rows := if j.status = 1 then lo + Config.progress fr.1 % (j.total - lo + 1) else j.rows
    let t := if j.op = 0 then (if j.status = 1 then fr.2.copyStops n j rows else fr.2) else (if j.status = 1 then fr.2.spoil n j else fr.2)
    (t.set WH_PROGRESS_ROWS n rows).jobEnds n code

/-- The archive channels lose their compressors; a job of theirs in progress reads a status. -/
def State.archCut (s : State) (code : Nat) : State :=
  (List.range 4).foldl (fun t v =>
    let st := t.get WH_STATUS (2 + v)
    if st = 1 ∨ st = 2 ∨ st = 5 then t.set WH_STATUS (2 + v) code else t) { s with wharf := { s.wharf with arch := [0, 0, 0, 0] } }

/-- Whether a crop can be cut, or is known to be evicted. -/
def State.cropReady (s : State) (c : Crop) : Bool :=
  c.evicted || c.strips.all (fun n => match s.strip c.view n with
    | some x => x.released
    | none => false)

/-- Whether one of the M12's channels 0, 1, 6 and 7 has a job: staged output of an enabled ring, a crop that can be cut, or a package or
underpainting being loaded (R457). -/
def State.ownBusy (s : State) (n : Nat) : Bool :=
  let up (r : Nat) : Bool := s.get RING_ENABLE r == 1 && (s.fn (s.get RING_FUNCTION r)).up
  if n = 0 then up 0 && !(s.ring 0).staged.isEmpty
  else if n = 1 then up 1 && (s.asm.crops.head?.any s.cropReady)
  else if n = 6 then up 3 && !(s.ring 3).staged.isEmpty
  else s.get SWITCH_STATE == 1 || !s.dramUnit.reload.isEmpty

/-- The M12's own channels but the archive's lose the jobs they had: a reset's status, kept by each ring, or by channel 7's object. -/
def State.ownCut (s : State) (code : Nat) : State :=
  let t := [(0, 0), (1, 1), (6, 3)].foldl (fun (t : State) (e : Nat × Nat) =>
    if s.ownBusy e.1 then t.modRing e.2 (fun x => { x with job := code }) else t) s
  let t := if s.ownBusy 7 then t.set WH_STATUS 7 code else t
  { t with wharf := { t.wharf with load := 0 } }

/-- Every job ends with a status. -/
def State.jobsCut (s : State) (code : Nat) : State :=
  ((s.wharf.jobs.foldl (fun t e => t.jobCut e.1 code) s).archCut code).ownCut code

/-- A job fails with POISONED: a COPY leaves the rows it has written, a stream commits nothing (R443, R449, R453). -/
def State.jobPoisoned (s : State) (n : Nat) : State :=
  match s.job n with
  | some j => if j.op = 0 then s.jobCut n 13 else (s.spoil n j).jobEnds n 13
  | none => s

/-- A view's archive packet in hand fails with POISONED; the strip waits for its next try (R449; log entry 76). -/
def State.archPoisoned (s : State) (v : Nat) : State :=
  if s.wharf.arch.getD v 0 = 0 then s else (s.set WH_STATUS (2 + v) 13).tally CMP_FAIL

/-- Channel 7's job fails with POISONED and is tried again (R449; DESIGN CHOICE, log entry 203). -/
def State.loadPoisoned (s : State) : State :=
  if !s.ownBusy 7 then s
  else
    let t := s.set WH_STATUS 7 13
    if s.wharf.load = 1 then t.tally CMP_FAIL else t

/-- The job of a wharf channel that consumes poisoned data fails (R449). -/
def State.chanPoisoned (s : State) (n : Nat) : State :=
  if 8 ≤ n then s.jobPoisoned n
  else if 2 ≤ n ∧ n ≤ 5 then s.archPoisoned (n - 2)
  else if n = 7 then s.loadPoisoned
  else if s.ownBusy n then s.modRing (if n = 6 then 3 else n) (fun x => { x with job := 13 })
  else s

/-- How far a running job has come, as a read of WH_PROGRESS_ROWS finds it: never less than a read before, or than its turns give
(R460, R461). -/
def State.rowsSeen (s : State) (n : Nat) : State :=
  match s.job n with
  | none => s
  | some j =>
    if j.status ≠ 1 then s
    else
      let fr := s.fresh
      let lo := max j.rows (min j.total (j.served / j.perRow))
      let rows := lo + Config.progress fr.1 % (j.total - lo + 1)
      (fr.2.modJob n (fun x => { x with served := max x.served (rows * j.perRow) })).set WH_PROGRESS_ROWS n rows

/-! ## Start, abort, flush, restart (R459 to R464, R474) -/

/-- The job a channel's objects describe. -/
def State.jobOfChan (s : State) (n : Nat) : Job :=
  let op := s.get WH_OP n
  let rows := s.get WH_ROWS n
  let bytes := s.get WH_ROW_BYTES n
  let f := s.chanOwner n
  let src : Side := if op = 2 then ⟨s.get WH_SRC_SPACE n, s.get WH_SRC_ADDR n, 0, s.get WH_SRC_LIMIT n, 1, f⟩
    else ⟨s.get WH_SRC_SPACE n, s.get WH_SRC_ADDR n, s.int WH_SRC_PITCH n, bytes, rows, f⟩
  let dst : Side := if op = 1 then ⟨s.get WH_DST_SPACE n, s.get WH_DST_ADDR n, 0, s.get WH_DST_LIMIT n, 1, f⟩
    else ⟨s.get WH_DST_SPACE n, s.get WH_DST_ADDR n, s.int WH_DST_PITCH n, bytes, rows, f⟩
  { op := op, src := src, dst := dst, dstLimit := s.get WH_DST_LIMIT n, srcLimit := s.get WH_SRC_LIMIT n
    level := s.get WH_LEVEL n, filter := s.get WH_FILTER n, log2 := s.get WH_BLOCK_LOG2 n, status := 1 }

/-- BAD_PARAM's conditions (R459). -/
def State.badParam (s : State) (n : Nat) : Bool :=
  let bytes := s.get WH_ROW_BYTES n
  let rows := s.get WH_ROWS n
  let op := s.get WH_OP n
  bytes == 0 || decide (16777216 < bytes) || rows == 0 || decide (16777216 < rows) ||
    (op != 1 && decide (1 < rows) && decide ((s.int WH_DST_PITCH n).natAbs < bytes)) ||
    (op != 0 && s.get WH_DST_LIMIT n == 0) ||
    (op == 2 && (decide (rows * bytes < s.get WH_DST_LIMIT n) || s.get WH_SRC_LIMIT n == 0))

/-- BAD_ADDR's conditions (R459). -/
def Job.badAddr (j : Job) : Bool :=
  (j.src.space == 0 && (decide (j.src.extent.1 < 0) || decide (0x3000000000 < j.src.extent.2))) ||
    (j.dst.space == 0 && (decide (j.dst.extent.1 < 0x2E00000000) || decide (0x3000000000 < j.dst.extent.2)))

/-- WH_START's write (R459, R466). -/
def State.whStart (s : State) (via : Path) (n : Nat) : State :=
  let k := WH_START.key n
  let no (code abort_ : Nat) : State := (s.set WH_STATUS n code).refuse via k abort_
  if !s.chanOpen via n then s.refuse via k abortMode
  else if (s.job n).isSome then no 6 abortBusy
  else if s.get MODE = 0 ∨ s.get MODE = 5 then no 7 abortMode
  else if s.badParam n then no 8 0x06040043
  else
    let j := s.jobOfChan n
    if j.badAddr then no 9 0x06040043
    else
      let waits := j.op != 0
      let t := { s.accept with wharf := { s.wharf with
        jobs := s.wharf.jobs ++ [(n, { j with status := if waits then 2 else 1, id := s.wharf.started })]
        waiting := if waits then s.wharf.waiting ++ [n] else s.wharf.waiting
        started := s.wharf.started + 1 } }
      let t := if waits then t else t.turnStart n
      ((t.set WH_STATUS n (if waits then 2 else 1)).set WH_PROGRESS_ROWS n 0).grant

/-- WH_START (R459). -/
def execWhStart (dt : Nat) (via : Path) (chan : Nat) (s : State) : Host.Outcome State Fault Refusal :=
  act (decide (chan < 32)) dt s fun s => s.whStart via chan

/-- WH_ABORT's write (R461, R464). -/
def State.whAbort (s : State) (via : Path) (n : Nat) : State :=
  s.command via WH_ABORT n (s.chanOpen via n) (fun t => t.jobCut n 4)

/-- WH_ABORT (R461, R464). -/
def execWhAbort (dt : Nat) (via : Path) (chan : Nat) (s : State) : Host.Outcome State Fault Refusal :=
  act (decide (chan < 32)) dt s fun s => s.whAbort via chan

/-- WH_FLUSH's write (R474): `consumed` input bytes have been read so far. -/
def State.whFlush (s : State) (via : Path) (n consumed : Nat) : State :=
  s.command via WH_FLUSH n (s.chanOpen via n) (fun t =>
    match t.job n with
    | some j =>
      if j.op = 1 ∧ j.status = 1 ∧ 0 < consumed ∧ j.flushes.all (fun p => decide (p ≤ consumed)) then
        t.modJob n (fun x => { x with flushes := insertNat consumed x.flushes })
      else t
    | none => t)

/-- WH_FLUSH (R474). -/
def execWhFlush (dt : Nat) (via : Path) (chan consumed : Nat) (s : State) : Host.Outcome State Fault Refusal :=
  act (decide (chan < 32)) dt s fun s => s.whFlush via chan consumed

/-- WH_RESTART's write (R464): `settled` tells whether every burst in flight at the stop has completed or timed out. -/
def State.whRestart (s : State) (via : Path) (settled : Bool) : State :=
  if s.get WH_ALL_STOPPED = 1 ∧ !settled then s.refuse via (WH_RESTART.key 0) abortBusy
  else if s.get WH_ALL_STOPPED = 0 then s.accept
  else
    let t := s.accept.set WH_ALL_STOPPED 0 0
    let t := { t with wharf := { t.wharf with jobs := t.wharf.jobs.map (fun (e : Nat × Job) =>
      (e.1, { e.2 with seen := [], served := e.2.rows * e.2.perRow })) } }
    let u := t.wharf.jobs.foldl (fun u e =>
      if e.2.status ≠ 5 then u
      else if e.2.op = 0 then u.jobTo e.1 1
      else
        let w := ((u.jobTo e.1 2).modJob e.1 (fun x => { x with rows := 0, served := 0, flushes := [] })).set WH_PROGRESS_ROWS e.1 0
        { w with wharf := { w.wharf with waiting := w.wharf.waiting ++ [e.1] } }) t
    u.grant.flushRings

/-- WH_RESTART (R464). -/
def execWhRestart (dt : Nat) (via : Path) (settled : Bool) (s : State) : Host.Outcome State Fault Refusal :=
  act true dt s fun s => s.whRestart via settled

/-- The code of a bus error in WH_ERR_INFO. -/
def busErrorCode : BusError → Nat
  | .unsupported => 1
  | .abort => 2
  | .completionTimeout => 3
  | .poison => 4

/-- WH_BUS_ERROR (R463): a host-side failure stops every channel; `progress` gives the rows each channel has done. -/
def execWhBusError (dt : Nat) (kind : BusError) (addr : Option Nat) (progress : List Nat) (s : State) :
    Host.Outcome State Fault Refusal :=
  act true dt s fun s =>
    let t := s.tally WH_BUS_ERR
    if s.get WH_ALL_STOPPED = 1 then t
    else
      let t := (t.set WH_ALL_STOPPED 0 1).set WH_ERR_INFO 0 (busErrorCode kind)
      let t := match addr with
        | some a => t.set WH_ERR_ADDR 0 a
        | none => t
      let t := s.wharf.jobs.foldl (fun u e =>
        let rows := clampNat (max e.2.rows (min e.2.total (e.2.served / e.2.perRow))) e.2.total (progress.getD e.1 0)
        let w := if e.2.op = 0 then u.copyStops e.1 e.2 rows else u
        ((w.modJob e.1 (fun x => { x with rows := rows })).set WH_PROGRESS_ROWS e.1 rows).jobTo e.1 5) t
      ({ t.archCut 5 with wharf := { (t.archCut 5).wharf with waiting := [] } }.grant).irqAll 6

/-! ## The end of a job (R461, R477, R478) -/

/-- A COMPRESS job ends: its stream is committed, or does not fit. -/
def State.compressDone (s : State) (n : Nat) (j : Job) (host : List Byte) : State :=
  let fr0 := s.fresh
  let xs := (List.range j.src.rows).flatMap (fun r => s.srcRow j (some host) fr0.1 r)
  let st := compress j.level j.filter j.log2 j.src.bytes j.flushes xs
  let t := (fr0.2.set WH_PROGRESS_ROWS n j.src.rows).volume CMP_BYTES_IN 0 xs.length
  let t := if j.src.space = 1 then t.volume WHARF_HOST_RD_BYTES 0 xs.length else t
  if j.dstLimit < st.length then (t.spoil n j).jobEnds n 10
  else
    let fr := t.fresh
    let t := fr.2.spaceWrite (s.chanOwner n) j.dst.space j.dst.addr (landing (s.others n j) fr.1 j.dst.addr st)
    (((t.noteClash n j.dst).volume WH_DST_COMMIT n st.length).volume CMP_BYTES_OUT 0 st.length).jobEnds n 3

/-- The stream a DECOMPRESS job reads, within its limit. -/
def State.streamOf (s : State) (j : Job) (free : Nat) (host : List Byte) : List Byte :=
  if j.src.space = 0 then s.dramShown free j.src.addr j.srcLimit else host.take j.srcLimit

/-- Bursts that read a job's source up to its end: of a stream those up to its END block (R460). -/
def State.jobBursts (s : State) (j : Job) (host : List Byte) : Nat :=
  if j.op = 2 then max 1 ((streamLength (s.streamOf j s.free host) + 4095) / 4096) else j.bursts

/-- A DECOMPRESS job ends. -/
def State.decompressDone (s : State) (n : Nat) (j : Job) (host : List Byte) : State :=
  let fr0 := s.fresh
  let src := s.streamOf j fr0.1 host
  let s1 := if j.src.space = 1 then fr0.2.volume WHARF_HOST_RD_BYTES 0 (streamLength src) else fr0.2
  match decompress src j.dstLimit with
  | .limit => (s1.spoil n j).jobEnds n 11
  | .malformed o => ((s1.spoil n j).set WH_ERR_OFFSET n o).jobEnds n 12
  | .ok out =>
    let fr := s1.fresh
    let os := s.others n j
    let rows := (out.length + j.dst.bytes - 1) / j.dst.bytes
    let t := (List.range rows).foldl (fun u r =>
      u.spaceWrite (s.chanOwner n) j.dst.space (j.dst.row r)
        (landing os fr.1 (j.dst.row r) ((out.drop (r * j.dst.bytes)).take j.dst.bytes))) fr.2
    (((t.noteClash n j.dst).volume WH_DST_COMMIT n out.length).set WH_PROGRESS_ROWS n rows).jobEnds n 3

/-- An archive packet of a view's strip: header, then the stream of its kept planes (R475). -/
def State.archivePacket (s : State) (v : Nat) (x : CStrip) : List Byte × Nat :=
  let p := s.rowPitch v
  let xs := (List.range (s.kept v).length).flatMap (fun k => s.dramRead (s.pixelAddr v k (256 * x.num) 0) (256 * p))
  (s.stripHeader v x ++ compress x.archLevel 2 x.archLog2 p [] xs, xs.length)

/-- An archive packet that is ready is written, waits for room, or gives way to its gap packet (R475 to R477, R504, R505). -/
def State.archiveNext (s : State) (v : Nat) : Nat → State
  | 0 => s
  | f + 1 =>
    match (s.view v).strips.find? (fun x => x.archive) with
    | none => s
    | some x =>
      if !x.released || !s.ringRuns 2 || s.wharf.arch.getD v 0 == 0 then s
      else
        let p := s.archivePacket v x
        let n := (16 + p.1.length + 63) / 64 * 64
        let size := s.ringBytes 2
        let held := (s.ring 2).held
        let toEnd := size - (s.ring 2).prod % size
        if n ≤ min toEnd (size - held) then
          let fr : Frame := { typ := 2, unit := v, payload := p.1 }
          let t := (((s.frameWrite 2 fr p.1).volume ARCHIVE_STRIPS v).volume CMP_BYTES_IN 0 p.2).volume CMP_BYTES_OUT 0 (p.1.length - 128)
          (t.modStrip v x.num (fun y => { y with archive := false })).set WH_STATUS (2 + v) 3
        else
          let t := (((s.tally ARCHIVE_SPACE_WAIT v).tally CMP_FAIL).volume CMP_BYTES_IN 0 p.2).set WH_STATUS (2 + v) 10
          let t := t.hostSpoil (s.get RING_FUNCTION 2) (s.get RING_BASE 2 + (s.ring 2).prod % size) (min toEnd (size - held))
          if held = 0 ∧ toEnd = size then
            ((t.gapPacket v x).tally RING_OVERSIZE 2).modStrip v x.num (fun y => { y with archive := false })
          else if toEnd < size - held then (t.ringAdvance 2 toEnd (padBytes toEnd)).archiveNext v f
          else t

/-- The oldest crop is cut into the crop ring, or its header tells that it was evicted (R354 to R356, R506). -/
def State.cropNext (s : State) : State :=
  match s.asm.crops with
  | [] => s
  | c :: rest =>
    if !s.cropReady c || !s.ringRuns 1 then s
    else
      let px := if c.evicted then []
        else (s.kept c.view).flatMap (fun p => (List.range c.h).flatMap (fun y => (List.range c.w).map (fun x => s.pixel c.view p (c.y0 + y) (c.x0 + x))))
      let f := s.cropFrame c (b2n c.evicted) px
      let big := decide (s.ringBytes 1 < f.bytes 1)
      if !s.frameFits 1 (if big then 128 else f.bytes 1) then s
      else
        let t := { s with asm := { s.asm with crops := rest } }.ringPut 1 f
        let t := c.strips.foldl (fun u n => u.modStrip c.view n (fun x => { x with crops := x.crops.filter (· != c.handle) })) t
        if c.evicted then t.tally CROP_EVICTED else t

/-- The highest class has what waits served before a burst of a lower one: records, crops, statistics and events (R460). -/
def State.serveHigh (s : State) : State :=
  ((iter (fun t => t.cropNext) s.asm.crops.length (s.ringFlush 0)).ringFlush 3)

/-- Whether the next archive packet of a view is ready and finds room in its ring. -/
def State.archiveFits (s : State) (v : Nat) : Bool :=
  match (s.view v).strips.find? (fun x => x.archive) with
  | none => false
  | some x => x.released && s.ringRuns 2 && s.wharf.arch.getD v 0 != 0 &&
      s.frameFits 2 ((16 + (s.archivePacket v x).1.length + 63) / 64 * 64)

/-- The archive channels have their ready packets served before a burst of the lowest class (R460; log entry 182). -/
def State.serveArchive (s : State) : State :=
  (List.range 4).foldl (fun t v =>
    iter (fun u => if u.archiveFits v then (u.archiveNext v 2).archSettle else u) (t.view v).strips.length t) s.archSettle

/-- WH_JOB_DONE (R457, R460, R461, R466 to R478): a channel's job ends, where the classes and the turns let it; `host` holds what it
read from host memory. On the M12's own channels the wharf moves what is next: staged records, a crop, a view's archive packet, staged
events. -/
def execWhJobDone (dt chan : Nat) (host : List Nat) (s : State) : Host.Outcome State Fault Refusal :=
  act (decide (chan < 32)) dt s fun s =>
    if s.get MODE = 0 ∨ s.get MODE = 5 ∨ s.get WH_ALL_STOPPED = 1 then s
    else if chan = 0 then s.ringFlush 0
    else if chan = 1 then s.cropNext
    else if chan < 6 then (s.serveHigh.archSettle.archiveNext (chan - 2) 2).grant
    else if chan = 6 then s.ringFlush 3
    else
      match s.job chan with
      | none => s
      | some j =>
        let h := host.map (· % 256)
        let n := s.jobBursts j h
        if j.status ≠ 1 ∨ !s.turnDue j n then s
        else
          let s := s.serveHigh.serveArchive.turnsServe j.seen n
          let j := (s.job chan).getD j
          if j.op = 0 then ((s.copyRows chan j (some h) j.rows j.src.rows).set WH_PROGRESS_ROWS chan j.src.rows).jobEnds chan 3
          else if j.op = 1 then s.compressDone chan j h
          else s.decompressDone chan j h

/-! ## What the M12's own channels show (R457, R466, R480) -/

/-- WH_STATUS as read: a job of the M12's own shows RUNNING, WAIT_ENGINE or STOPPED, else how its last one ended (R457, R463, R466). -/
def State.chanStatus (s : State) (n : Nat) : Nat :=
  if n = 0 ∨ n = 1 ∨ n = 6 ∨ n = 7 then
    if s.ownBusy n then (if s.get WH_ALL_STOPPED = 1 then 5 else if n = 7 ∧ s.wharf.load = 2 then 2 else 1)
    else if n = 7 then s.get WH_STATUS 7
    else (s.ring (if n = 6 then 3 else n)).job
  else s.get WH_STATUS n

/-- WH_OP as read: the operation of the M12's own channels is fixed by their use (R457). -/
def State.chanOp (s : State) (n : Nat) : Nat :=
  if 8 ≤ n then s.get WH_OP n else if 2 ≤ n ∧ n ≤ 5 then 1 else if n = 7 ∧ s.wharf.load ≠ 0 then 2 else 0

/-! ## Clears (R479) -/

/-- WH_CLEAR's effect. -/
def State.whClear (s : State) (via : Path) : State := s.command via WH_CLEAR 0 true (fun t => t.clearTally WH_BUS_ERR 0)

/-- WH_CLEAR (R479). -/
def execWhClear (dt : Nat) (via : Path) (s : State) : Host.Outcome State Fault Refusal := act true dt s fun s => s.whClear via

/-- CMP_CLEAR's effect (R479). -/
def State.cmpClear (s : State) (via : Path) : State :=
  s.command via CMP_CLEAR 0 true (fun t => t.clearAll [CMP_FAIL, ARCHIVE_GAPS, ARCHIVE_SPACE_WAIT])

/-- CMP_CLEAR (R479). -/
def execCmpClear (dt : Nat) (via : Path) (s : State) : Host.Outcome State Fault Refusal := act true dt s fun s => s.cmpClear via

end Sys2Proof.Machine
end

