-- ==== Sys2Proof/Machine/Dram.lean ====
section
/-! DEFINITION. Machine/Dram.lean: errors of on-die SRAM and module DRAM, migration, package loss, and the spare package
(R443 to R456). -/
namespace Sys2Proof.Machine
open Reg

/-! ## Units declared dead at once (R443) -/

/-- A physical tile is declared dead, whatever it does (R315, R443). -/
def State.physTileDead (s : State) (p : Nat) : State :=
  match s.tileOf p with
  | some k => if s.get TILE_PHYS_STATE p = 0 then s.tileDead k
      else if s.get TILE_PHYS_STATE p = 1 then (((s.declareDead 0 p).restDomain 0 p).emit 0xB5).emcy 0xFF02 p else s
  | none => if s.get TILE_PHYS_STATE p = 1 then (((s.declareDead 0 p).restDomain 0 p).emit 0xB5).emcy 0xFF02 p else s

/-- A physical easel is declared dead, whatever it does (R193, R443). -/
def State.physEaselDead (s : State) (p : Nat) : State :=
  match (if s.get EASEL_PHYS_STATE p = 0 then lowest 6 (fun k => s.get EASEL_PHYS k == p) else none) with
  | some k => s.easelDead k
  | none => if s.get EASEL_PHYS_STATE p = 1 then (((s.declareDead 1 p).stopEasel p).emit 0xB1).emcy 0xFF03 p else s

/-- The oldest segment of a bay at the joiner is dropped and covered like a substituted line (R215, R443). -/
def State.dropSeg (s : State) (b : Nat) : State :=
  match s.segs.getD b [] with
  | [] => s
  | g :: rest => ({ s with segs := s.segs.set b rest }.camFlag b g.line 2).accountRange b g.line g.line blindSubst

/-- A record of the trace ring, counted from the newest, is lost; a poisoned marker takes its place, if the filter enables it
(R443, R647, R649). The marker keeps the place; what it reads as is `TraceRec.bytes`. -/
def State.poisonTrace (s : State) (i : Nat) : State :=
  match s.trace.ring[i]? with
  | none => s
  | some r =>
    let ring := if s.traceOn 0xFE then s.trace.ring.set i { seq := r.seq, typ := 0xFE } else s.trace.ring.eraseIdx i
    { s with trace := { s.trace with ring := ring } }

/-- SRAM_UNCORRECTABLE (R443, R444): an uncorrectable error in a region of the table of R443, in a unit of it: a physical
tile or easel, a bay's segment, a view's anchor row, a compressor, or a trace record. The supervisor halts, and its watchdog
expires (R593). -/
def execSramUncorrectable (dt region unit : Nat) (s : State) : Host.Outcome State Fault Refusal :=
  act true dt s fun s =>
    if 6 < region then s
    else
      let t := (s.tally SRAM_UE).set SRAM_UE_LAST_REGION 0 region
      match region with
      | 0 => if unit < 104 then (t.physTileDead unit).fabricSettle else t
      | 1 => if unit < 7 then t.physEaselDead unit else t
      | 2 => t.dropSeg unit
      | 3 => if unit < 4 then t.regRowFails unit else t
      | 4 =>
        let js := t.wharf.jobs.filter (fun e => e.2.op == 1 && e.2.status == 1)
        match js[unit]? with
        | some e => (t.spoil e.1 e.2).jobEnds e.1 13
        | none => match (t.wharf.arch.zipIdx.flatMap (fun e => List.replicate e.1 e.2))[unit - js.length]? with
          | some v => t.archPoisoned v
          | none => t
      | 5 => { t with power := { t.power with halted := true } }
      | 6 => t.poisonTrace unit
      | _ => t

/-- SRAM_SCRUB (R443, R444, R632): corrections in a unit of a region; a tile or easel whose rate over 24 hours exceeds its
limit is marked. -/
def execSramScrub (dt region unit corrected : Nat) (s : State) : Host.Outcome State Fault Refusal :=
  act true dt s fun s =>
    let t := s.tallyN SRAM_CE 0 corrected
    if 1 < region ∨ corrected = 0 then t
    else
      let log := ((t.now, region, unit, corrected) :: t.sramCe).filter (fun e => decide (t.now < e.1 + 86400000000000))
      let sum : Nat := ((log.filter (fun e => e.2.1 == region && e.2.2.1 == unit)).map (fun e => e.2.2.2)).sum
      let t : State := { t with sramCe := log }
      if 24 * t.get WEAR_SRAM_CE_LIMIT < sum then (t.markUnit region unit 2).restDomain region unit else t

/-! ## The loss of a logical channel (R452 to R454) -/

/-- A view's underpainting was supplied, or learned and saved (R45, R453). -/
def State.supplied (s : State) (v : Nat) : Bool :=
  (Package.sec (s.web.job.getD []) secUnder v).isSome || (s.nv.saved.look (s.get ACTIVE_SLOT * 4 + v)).isSome

/-- A view's underpainting and its fields are lost; a supplied one is decompressed again (R453). -/
def State.loseView (s : State) (v : Nat) : State :=
  let had := s.get REG_UP_PRESENT v == 1
  let t := s.modReg v (fun x => { x with
    prev := none, fields := x.fields.map (fun f => { f with rows := f.rows.map (fun r => { r with failed := true }) }) })
  let t := if had then t.set REG_UP_PRESENT v 0 else t
  let f (r : Rep) : Rep := { r with ups := setBit r.ups v false }
  let t := { t with
    web := { t.web with open_ := t.web.open_.map f, closing := t.web.closing.map f }
    dramUnit := { t.dramUnit with reload := if had && t.supplied v then insertNat v t.dramUnit.reload else t.dramUnit.reload } }
  if t.jobViews.contains v then t.capture v else t

/-- The strips reserved for contexts B are dropped and the quays emptied (R158, R453). -/
def State.loseQuays (s : State) : State :=
  (List.range 6).foldl (fun t k =>
    let u := ((t.easel k).reserved.map Prod.fst).foldl (fun w n => w.quayDrop k n) t
    (u.modEasel k (fun e => { e with reserved := [], ctxs := modifyAt e.ctxs 1 (fun c => { c with store := [] }) })).quayFill k) s

/-- A pending job is loaded again; an armed switch ends (R453). -/
def State.loseStaging (s : State) : State :=
  let st := s.get SWITCH_STATE
  if st = 1 ∨ st = 2 ∨ st = 3 then
    let t := s.set SWITCH_STATE 0 1
    if st = 3 then { t.set SWITCH_RESULT 0 8 with web := { t.web with armed := none } } else t
  else s

/-- Jobs that touch host scratch end with POISONED (R453). -/
def State.loseScratch (s : State) : State :=
  let scratch : Side := { space := 0, addr := 0x2E00000000, bytes := 0x200000000 }
  s.wharf.jobs.foldl (fun t e => if scratch.meets e.2.src || scratch.meets e.2.dst then t.jobPoisoned e.1 else t) s

/-- A logical channel's contents are lost: one unit of 256 bytes in twelve of every region, and with them all the fields, variability maps
and debug buffers of the working area (R447, R453). -/
def State.loseChannel (s : State) (ch : Nat) : State :=
  let t := s.learnAbort.loseStaging.loseQuays
  let t := (List.range 4).foldl (fun u v => u.reclaimAll v) t
  let t := (List.range 4).foldl (fun u v => u.loseView v) t.loseScratch
  { t with
    dram := t.dram.filter (fun c => decide (c.1 / 256 % 12 ≠ ch) && !(decide (0x2C90000000 ≤ c.1) && decide (c.1 < 0x2E00000000)))
    dramUnit := { t.dramUnit with rebuild := true } }

/-- A migration in progress ends with FAILED (R451, R452). -/
def State.migrateFails (s : State) : State :=
  if s.dramUnit.moving.isSome then { s.set DRAM_MIGRATE_STATE 0 3 with dramUnit := { s.dramUnit with moving := none } } else s

/-- A package is declared dead: the spare takes its channel, or HOLD is entered (R452 to R454). -/
def State.dramDead (s : State) (p : Nat) : State :=
  let st := s.get DRAM_PKG_STATE p
  if st = 2 ∨ st = 3 then s
  else
    let ch := s.get DRAM_PKG_CHANNEL p
    let t := ((((s.declareDead 3 p).emcy 0xFF05 p).set ISLAND_STATE (52 + p) 5).set DRAM_PKG_CHANNEL p 0xFF).migrateFails
    if ch = 0xFF then t
    else
      let u := t.loseChannel ch
      match lowest 13 (fun q => u.get DRAM_PKG_STATE q == 1) with
      | some q =>
        let w := (u.setUnit 3 q 0).set DRAM_PKG_CHANNEL q ch
        (if (w.bench.dramCheck.map Prod.fst) = some q then { w with bench := { w.bench with dramCheck := none } } else w).fabricSettle
      | none => (u.addCause 3).fabricSettle

/-- DRAM_PKG_DEAD (R452): three commands in a row did not complete, or training failed. -/
def execDramPkgDead (dt pkg : Nat) (_cause : DramDeath) (s : State) : Host.Outcome State Fault Refusal :=
  act (decide (pkg < 13)) dt s fun s => s.dramDead pkg

/-! ## Poisoned reads (R449) -/

/-- A task's area is covered with cause OVERRUN (R449). -/
def State.overrunTask (s : State) (t : Task) : State :=
  let c := s.sliceCols t.image t.view t.slice
  (List.range (t.r1 + 1 - t.r0)).foldl (fun u i => u.blindRange t.view blindOverrun c.1 c.2 (256 * t.strip + t.r0 + i))
    (s.flag t.view t.strip 4)

/-- The unit that consumes poisoned data fails only its work in hand (R449). -/
def State.poisoned (s : State) (c : Consumer) : State :=
  match c with
  | .tile k =>
    match (s.tile k).queue with
    | h :: _ =>
      let t := s.modTile k (fun x => (x.ack s.now).fill s.now)
      if h.heartbeat then t else ((t.overrunTask h).endTask h 3 {}).fabricSettle
    | [] => s
  | .wharf n => s.chanPoisoned n
  | .joiner b n => (s.camFlag b n 2).accountRange b n n blindSubst
  | .warp v n =>
    let x := (s.strip v (n / 256)).getD { num := n / 256 }
    let t := (s.flag v (n / 256) 8).blindLine v blindUnreg n
    if bit x.flags 3 then t else t.tally REG_UNREG_STRIPS v
  | .anchors v => s.regRowFails v
  | .quay b n => s.replaceLine b n
  | .aperture _ => s
  | .supervisor => s

/-- DRAM_POISON_READ (R449, R452, R455): a read of a package's data meets an uncorrectable error; as many as DRAM_UE_DEAD
within a second declare the package dead. Data of a package out of use is stale and discarded. -/
def execDramPoisonRead (dt pkg : Nat) (consumer : Consumer) (s : State) : Host.Outcome State Fault Refusal :=
  act (decide (pkg < 13)) dt s fun s =>
    if s.get DRAM_PKG_STATE pkg = 2 ∨ s.get DRAM_PKG_STATE pkg = 3 then
      (s.tally DRAM_STALE_RESULT).set ISLAND_STATE (52 + pkg) 5
    else
      let t := (s.tally DRAM_PKG_UE pkg).tally DRAM_POISON_READS
      let log := ((pkg, t.now) :: t.dramUnit.ueAt).filter (fun e => decide (t.now ≤ e.2 + 1000000000))
      let t := { t with dramUnit := { t.dramUnit with ueAt := log } }.poisoned consumer
      if t.get DRAM_UE_DEAD ≤ (log.filter (fun e => e.1 == pkg)).length then t.dramDead pkg else t

/-! ## Patrol and migration (R450, R451) -/

/-- DRAM_PATROL (R449, R450): a day's patrol ends; `corrected` gives the corrections that each package reported over that day. -/
def execDramPatrol (dt : Nat) (corrected : List Nat) (s : State) : Host.Outcome State Fault Refusal :=
  act true dt s fun s =>
    (List.range 13).foldl (fun t p =>
      let n := corrected.getD p 0
      let u := (t.tallyN DRAM_PKG_CE p n).set DRAM_PKG_CE_RATE p (min 0xFFFFFFFF (n / 24))
      if 24 * u.get DRAM_CE_LIMIT < n then u.markUnit 3 p 3 else u) s

/-- A migration of a package starts, or fails for want of a spare (R451). -/
def State.migrateStart (s : State) (p : Nat) : State :=
  match lowest 13 (fun q => s.get DRAM_PKG_STATE q == 1) with
  | some q =>
    { (s.set DRAM_MIGRATE_STATE 0 1).set DRAM_MIGRATE_PERMILLE 0 0 with
      dramUnit := { s.dramUnit with moving := some (p, q), movedAt := s.now, movedFor := 0 }
      bench := { s.bench with dramCheck := if (s.bench.dramCheck.map Prod.fst) = some q then none else s.bench.dramCheck } }
  | none => s.set DRAM_MIGRATE_STATE 0 3

/-- How long the copy of a migration has run, in ns: it pauses in HOLD (R451). -/
def State.movedNs (s : State) : Nat := s.dramUnit.movedFor + (if s.get MODE = 5 then 0 else s.now - s.dramUnit.movedAt)

/-- DRAM_MIGRATE_PERMILLE as read: between what at most 5 s for the copy and at most 4 GB/s give, a free value (R451). -/
def State.migratePermille (s : State) : Nat :=
  if s.dramUnit.moving.isNone then s.get DRAM_MIGRATE_PERMILLE
  else
    let lo := min 1000 (s.movedNs / 5000000)
    let hi := min 1000 (s.movedNs * 4000 / 17179869184)
    lo + Config.migrated s.movedNs % (hi - lo + 1)

/-- DRAM_MIGRATE's write (R451). -/
def State.dramMigrate (s : State) (via : Path) (p : Nat) : State :=
  let k := DRAM_MIGRATE.key 0
  let m := s.get MODE
  if 12 < p then s.refuse via k 0x06090031
  else if m = 0 ∨ m = 5 then s.refuse via k abortMode
  else if s.dramUnit.moving.isSome then s.refuse via k abortBusy
  else if s.get DRAM_PKG_STATE p ≠ 0 then s.refuse via k abortMode
  else s.accept.migrateStart p

/-- DRAM_MIGRATE (R451). -/
def execDramMigrate (dt : Nat) (via : Path) (pkg : Nat) (s : State) : Host.Outcome State Fault Refusal :=
  act true dt s fun s => s.dramMigrate via pkg

/-- A marked package, or one whose migration a cold reset ended, starts its migration on an entry to READY (R451, R634). -/
def State.migrateMarked (s : State) : State :=
  if s.dramUnit.moving.isSome then s
  else
    match lowest 13 (fun p => s.get DRAM_PKG_STATE p == 0 &&
        (s.dramUnit.again == some p || s.marks.any (fun m => m.kind == 3 && m.unit == p))) with
    | some p => { s with dramUnit := { s.dramUnit with again := none } }.migrateStart p
    | none => s

/-- DRAM_MIGRATE_DONE (R451): the copy is complete; in HOLD it pauses, and a warm reset does not interrupt it. -/
def execDramMigrateDone (dt : Nat) (s : State) : Host.Outcome State Fault Refusal :=
  act true dt s fun s =>
    match s.dramUnit.moving with
    | none => s
    | some (p, q) =>
      if s.get MODE = 5 then s
      else
        let t := ((s.setUnit 3 q 0).set DRAM_PKG_CHANNEL q (s.get DRAM_PKG_CHANNEL p)).setUnit 3 p 3
        let t := ((t.set DRAM_PKG_CHANNEL p 0xFF).set DRAM_MIGRATE_STATE 0 2).set DRAM_MIGRATE_PERMILLE 0 1000
        { t with dramUnit := { t.dramUnit with moving := none } }

/-! ## Self-test and spare check (R455, R456) -/

/-- DRAM_SELFTEST's write (R455, R628, R629, R664). -/
def State.dramSelftest (s : State) (via : Path) (p : Nat) : State :=
  let k := DRAM_SELFTEST.key 0
  if 12 < p then s.refuse via k 0x06090031
  else if s.get MODE ≠ 0 ∧ s.get MODE ≠ 1 then s.refuse via k abortMode
  else if s.get DRAM_PKG_STATE p ≠ 2 then s.refuse via k abortMode
  else if s.bench.dramTest.isSome then s.refuse via k abortBusy
  else { (s.accept.set DRAM_SELFTEST_RESULT 0 1).set ISLAND_STATE (52 + p) 2 with bench := { s.bench with dramTest := some (p, s.now) } }

/-- DRAM_SELFTEST (R455, R664). -/
def execDramSelftest (dt : Nat) (via : Path) (pkg : Nat) (s : State) : Host.Outcome State Fault Refusal :=
  act true dt s fun s => s.dramSelftest via pkg

/-- DRAM_SELFTEST_DONE (R455, R628): the march test ends with a count of errors; it overwrites the package. -/
def execDramSelftestDone (dt errors : Nat) (s : State) : Host.Outcome State Fault Refusal :=
  act true dt s fun s =>
    match s.bench.dramTest with
    | none => s
    | some (p, _) =>
      let t := { s with bench := { s.bench with dramTest := none } }
      if errors = 0 then (t.set DRAM_SELFTEST_RESULT 0 2).selfTestPassed 3 p
      else ((t.set DRAM_SELFTEST_RESULT 0 3).set ISLAND_STATE (52 + p) 5).selfTestFailed 3 p

/-- SPARE_DRAM_CHECK (R456): every ten minutes in every mode but DORMANT the next of 256 windows of the spare is tested. -/
def execSpareDramCheck (dt : Nat) (s : State) : Host.Outcome State Fault Refusal :=
  act true dt s fun s =>
    match lowest 13 (fun q => s.get DRAM_PKG_STATE q == 1) with
    | some q =>
      if s.asDormant = false ∧ s.bench.dramCheck.isNone ∧ s.dramUnit.moving.isNone ∧ s.bench.dramAt + 600000000000 ≤ s.now then
        { s with bench := { s.bench with
          dramCheck := some (q, s.bench.dramWindow), dramAt := s.now, dramWindow := (s.bench.dramWindow + 1) % 256 } }
      else s
    | none => s

/-- SPARE_DRAM_CHECK_DONE (R456): any error sends the spare to QUARANTINE. -/
def execSpareDramCheckDone (dt errors : Nat) (s : State) : Host.Outcome State Fault Refusal :=
  act true dt s fun s =>
    match s.bench.dramCheck with
    | some (q, _) =>
      let t := { s with bench := { s.bench with dramCheck := none } }
      if errors = 0 then t else (t.setUnit 3 q 2).set ISLAND_STATE (52 + q) 5
    | none => s

/-- SUPERVISOR_REGION_REBUILT (R193, R453): the supervisor region is whole again, and an easel takeover that waited goes on. -/
def execSupervisorRegionRebuilt (dt : Nat) (s : State) : Host.Outcome State Fault Refusal :=
  act true dt s fun s => { s with dramUnit := { s.dramUnit with rebuild := false } }

/-- MEM_CLEAR's effect. -/
def State.memClear (s : State) (via : Path) : State :=
  s.command via MEM_CLEAR 0 true (fun t =>
    t.clearAll [SRAM_CE, SRAM_UE, DRAM_STALE_RESULT, DRAM_POISON_READS, DRAM_PKG_CE, DRAM_PKG_UE])

/-- MEM_CLEAR (R479). -/
def execMemClear (dt : Nat) (via : Path) (s : State) : Host.Outcome State Fault Refusal := act true dt s fun s => s.memClear via

end Sys2Proof.Machine
end

