-- ==== Sys2Proof/Machine/Jobs.lean ====
section
/-! DEFINITION. Machine/Jobs.lean: loading a job, arming and cancelling a switch, and making a job active (R44 to R52,
R257 to R260). -/
namespace Sys2Proof.Machine
open Reg

/-! ## PRELOAD (R47) -/

/-- FAILED is reached, with no job pending; the trace ring takes a SWITCH record (R47, R647). -/
def State.loadFails (s : State) (result : Nat) : State :=
  let t := (({ s with web := { s.web with pendingJob := none, pendingSlot := 0xFFFF } }).set SWITCH_STATE 0 5).set SWITCH_RESULT 0 result
  t.traceRec 7 66 result (t.get SWITCH_LINE) (t.get JOB_STAMP)

/-- The sections that need no standby slot are loaded: the tide section into the standby bank, palettes into the standby
palettes (R166, R310). -/
def State.loadTables (s : State) (p : Package) : State :=
  (List.range 12).foldl (fun t b =>
    match p.sec secPalette b with
    | some q => t.setBlob EASEL_PALETTE (2 * (b / 2) + t.ctxOf b) q
    | none => t) (s.setBlob TIDE_IMAGE 0 (tideImage p.tide))

/-- PRELOAD's write (R47, R75). -/
def State.preload (s : State) (via : Path) : State :=
  let k := PRELOAD.key 0
  let m := s.get MODE
  let st := s.get SWITCH_STATE
  if m ≠ 1 ∧ m ≠ 2 ∧ m ≠ 3 then (s.set SWITCH_RESULT 0 7).refuse via k abortMode
  else if st ≠ 0 ∧ st ≠ 2 ∧ st ≠ 5 then (s.set SWITCH_RESULT 0 3).refuse via k abortBusy
  else
    match s.nv.pkgs.look (s.get PRELOAD_SLOT) with
    | none => s.accept.loadFails 1
    | some p =>
      ({ s.accept with
        web := { s.web with pendingJob := some p, pendingSlot := s.get PRELOAD_SLOT, loaded := false }
        wharf := { s.wharf with load := 0, loadSeen := s.turnsWith 7 } }.set SWITCH_STATE 0 1).loadEngine

/-- PRELOAD (R47). -/
def execPreload (dt : Nat) (via : Path) (s : State) : Host.Outcome State Fault Refusal := act true dt s fun s => s.preload via

/-! ## Loading (R46, R257 to R259) -/

/-- A job's repeat length: its preset's, or the module's. -/
def State.jobHeight (s : State) (p : Package) : Nat := (p.preset (REG_REPEAT_LINES.key 0)).getD (s.get REG_REPEAT_LINES)

/-- The most bytes an underpainting section can give: its view's region and the header. -/
def upLimit : Nat := 36238786560 + 32

/-- The decompressed underpainting a job brings for a view: its section's, or the one saved into its slot (R45, R258). -/
def State.upContent (s : State) (p : Package) (slot v : Nat) : Option Unpacked :=
  match s.nv.saved.look (slot * 4 + v) with
  | some b => some (.ok b)
  | none => (p.sec secUnder v).map (fun b => decompress b upLimit)

/-- Planes that an underpainting's mask holds, in order (R258). -/
def maskPlanes (m : Nat) : List Nat :=
  (if bit m 0 then [0] else []) ++ (if bit m 1 then [1, 2] else []) ++ (if bit m 2 then [3] else [])

/-- Whether decompressed underpainting bytes obey R258 for a repeat length. -/
def upOk (b : List Byte) (height : Nat) : Bool :=
  let w := natAt b 0 4
  let h := natAt b 4 2
  h == height && b.length == 32 + (maskPlanes (natAt b 6 1)).length * w * h + (w + 1) / 2 * h && natAt b 8 4 == crc32c (b.drop 32)

/-- An underpainting is written to a view's region of a slot; planes not kept or not brought are zero (R257). -/
def State.writeUp (s : State) (slot v : Nat) (b : List Byte) : State :=
  let w := natAt b 0 4
  let h := natAt b 4 2
  let ps := maskPlanes (natAt b 6 1)
  let base := s.upBase slot v h
  let t := (List.range 4).foldl (fun t q =>
    t.dramWrite (base + q * w * h)
      (if (s.kept v).contains q then
        match ps.idxOf? q with
        | some i => bytesAt b (32 + i * w * h) (w * h)
        | none => List.replicate (w * h) 0
      else List.replicate (w * h) 0)) s
  t.dramWrite (base + 4 * w * h) (bytesAt b (32 + ps.length * w * h) ((w + 1) / 2 * h))

/-- The class a region map gives a pixel: the last rectangle that holds it, or the default (R259). -/
def regionClass (m : List Byte) (x y : Nat) : Nat :=
  (List.range (natAt m 6 2)).foldl (fun c r =>
    let o := 16 + 16 * r
    if natAt m o 4 ≤ x ∧ x < natAt m (o + 4) 4 ∧ natAt m (o + 8) 2 ≤ y ∧ y < natAt m (o + 10) 2 then natAt m (o + 12) 1 % 16 else c)
    (natAt m 8 1 % 16)

/-- A region map is rasterised into the class map of a view's region (R259). -/
def State.writeRegions (s : State) (slot v h : Nat) (m : List Byte) : State :=
  let w := s.get VIEW_WIDTH v
  let cls (x y : Nat) : Nat := if x < w then regionClass m x y else 0
  s.dramWrite (s.upBase slot v h + 4 * w * h) ((List.range h).flatMap (fun y =>
    (List.range ((w + 1) / 2)).map (fun i => cls (2 * i) y + 16 * cls (2 * i + 1) y)))

/-- Whether every section of a package holds its CRC and every underpainting obeys R258. -/
def State.loadOk (s : State) (p : Package) (slot : Nat) : Bool :=
  p.dir.all (fun e => e.crc == crc32c (p.bytes e)) &&
    (List.range 4).all (fun v =>
      match s.upContent p slot v with
      | some (.ok b) => upOk b (s.jobHeight p)
      | some _ => false
      | none => true)

/-- A job's views are written into an underpainting slot: underpaintings, else region maps (R258, R259). -/
def State.loadSlot (s : State) (p : Package) (jobSlot slot : Nat) (views : List Nat) : State :=
  views.foldl (fun t v =>
    match s.upContent p jobSlot v with
    | some (.ok b) => if natAt b 0 4 = s.get VIEW_WIDTH v then t.writeUp slot v b else t
    | _ =>
      match p.sec secRegion v with
      | some m => t.writeRegions slot v (s.jobHeight p) m
      | none => t) s

/-- Whether a job brings an underpainting for a view. -/
def State.brings (s : State) (p : Package) (slot v : Nat) : Bool := (s.upContent p slot v).isSome

/-- Whether every view of a job that has an underpainting has its width (R258). -/
def State.upWidths (s : State) (p : Package) (slot : Nat) : Bool :=
  (List.range 4).all (fun v =>
    match s.upContent p slot v with
    | some (.ok b) => natAt b 0 4 == s.get VIEW_WIDTH v
    | _ => true)

/-- The active job's views that were lost with a DRAM package are decompressed again (R453). -/
def State.reloadViews (s : State) : State :=
  match s.web.job with
  | none => s
  | some p =>
    let vs := s.dramUnit.reload
    let t := { s.loadSlot p (s.get ACTIVE_SLOT) (s.get REG_SLOT_ACTIVE) vs with dramUnit := { s.dramUnit with reload := [] } }
    let add (r : Rep) : Rep := { r with ups := vs.foldl (fun m v => setBit m v true) r.ups }
    let t := vs.foldl (fun u v => (u.set REG_UP_PRESENT v 1).capture v) t
    { t with web := { t.web with open_ := t.web.open_.map add } }

/-! ## Making a job active (R31, R41, R50) -/

/-- A preset value takes effect at once and replaces a value that waits for its boundary (R41). R41 names no check of the value
against the object's range, and none is made (DESIGN CHOICE, log entry 172). -/
def State.applyPreset (s : State) (e : Preset) : State :=
  match findObj e.key with
  | some (o, i) => if o.mayPreset then { s with held := s.held.del e.key }.set o i e.value else s
  | none => s

/-- The activation count of the logbook (R31, R611). -/
def State.activation (s : State) : Nat := ((s.nv.entry 0x0C 0).bind (fun e => e.regs.look 1)).getD 0

/-- A job becomes active: the logbook takes its slot and the next activation, and the stamp follows (R31, R611). -/
def State.stampJob (s : State) (slot : Nat) : State :=
  let a := (s.activation + 1) % 2 ^ 20
  ((s.logWrite 0x0C 0 8 [(0, slot), (1, a)]).set ACTIVE_SLOT 0 slot).set JOB_STAMP 0 (a * 4096 + slot)

/-- The pending job becomes active at line `n`, whose web count is `c`: what R50 changes together. The exposure sets are
registered as a commit at that line; learning ends. -/
def State.activateJob (s : State) (p : Package) (slot n c strip : Nat) : State :=
  let up (v : Nat) : Bool := s.brings p slot v
  let t := { s.learnAbort with web := { s.learnAbort.web with
    job := some p, oldJob := s.web.job, pendingJob := none, pendingSlot := 0xFFFF, armed := none, switchAt := none
    switches := n :: s.learnAbort.web.switches.filter (fun l => decide (n < l + 65536)) } }
  let t := (presets ((p.sec secPreset 0).getD [])).foldl State.applyPreset (t.stampJob slot)
  let t := if t.get REG_METHOD = s.get REG_METHOD then t else t.newMethod
  let t := t.set REG_SLOT_ACTIVE 0 (1 - t.get REG_SLOT_ACTIVE)
  let t := (List.range 4).foldl (fun u v => (u.set REG_UP_PRESENT v (b2n (up v))).set REG_LEARN_STATE v
    (if u.get REG_LEARN_STATE v = 4 then 4 else 0)) t
  let t := (t.applyPalettes p n).tideApply (tideImage p.tide) n
  let t := match t.jobSet p with
    | some x => t.registerSet x strip
    | none => t
  (((t.set SWITCH_LINE 0 n).set JOB_START_COUNT 0 c).set SWITCH_RESULT 0 0).captureViews

/-- The web count the next line will take. -/
def State.nextCount (s : State) : Nat :=
  match s.trig.pend with
  | l :: _ => l.count
  | [] => s.trig.target / 2 ^ 16

/-! ## SWITCH_ARM and SWITCH_CANCEL (R48, R49, R52) -/

/-- Whether the pending job exceeds what the module has: tide limits, underpainting widths, light budget (R48, R258, R305,
R548). -/
def State.exceeds (s : State) (p : Package) (slot : Nat) : Bool :=
  s.tideLimits (tideImage p.tide) != 0 || !s.upWidths p slot ||
    (match s.jobSet p with
      | some x => !s.withinBudget x
      | none => false)

/-- The loaded job is armed, or in READY made active at once (R48, R49). -/
def State.armJob (s : State) (p : Package) : State :=
  let slot := s.web.pendingSlot
  if s.get MODE = 1 then
    let n := s.get LINE_NUMBER
    let t := (s.activateJob p slot n s.nextCount s.applyStrip).set SWITCH_STATE 0 0
    let t := { t with web := { t.web with fresh := true } }
    (match t.trig.pend with
      | l :: _ => { t with trig := { t.trig with pend := [l] } }.repitch l.target
      | [] => t).fabricSettle
  else
    let mode := s.get SWITCH_MODE
    { s with web := { s.web with
        armed := some (mode, s.get SWITCH_COUNT, s.get SPLICE_INPUT, s.int SPLICE_OFFSET)
        switchAt := if mode = 0 then some (s.get SWITCH_COUNT) else none } }.set SWITCH_STATE 0 3

/-- SWITCH_ARM's write (R48, R49, R55). -/
def State.switchArm (s : State) (via : Path) : State :=
  let m := s.get MODE
  let no (result code : Nat) : State := (s.set SWITCH_RESULT 0 result).refuse via (SWITCH_ARM.key 0) code
  if m ≠ 1 ∧ m ≠ 2 ∧ m ≠ 3 then no 7 abortMode
  else if s.get SWITCH_STATE ≠ 2 then no 3 abortBusy
  else
    match s.web.pendingJob with
    | none => no 3 abortBusy
    | some p =>
      if m = 3 ∧ !(Package.views p).all (s.brings p s.web.pendingSlot) then no 4 abortMode
      else if s.exceeds p s.web.pendingSlot then no 6 0x06040043
      else if m ≠ 1 ∧ s.get SWITCH_MODE = 0 ∧ countDiff (s.get SWITCH_COUNT) (s.get WEB_HIGH_WATER) ≤ 0 then no 5 abortMode
      else (s.accept.armJob p).set SWITCH_RESULT 0 0

/-- SWITCH_ARM (R48). -/
def execSwitchArm (dt : Nat) (via : Path) (s : State) : Host.Outcome State Fault Refusal := act true dt s fun s => s.switchArm via

/-- An armed switch ends with CANCELLED; the job stays loaded (R52). -/
def State.disarm (s : State) : State :=
  ({ s with web := { s.web with armed := none, switchAt := none } }.set SWITCH_STATE 0 2).set SWITCH_RESULT 0 8

/-- SWITCH_CANCEL's write (R52, R75): it has no effect unless a switch is armed. -/
def State.switchCancel (s : State) (via : Path) : State :=
  s.command via SWITCH_CANCEL 0 true (fun t => if t.get SWITCH_STATE = 3 then t.disarm else t)

/-- SWITCH_CANCEL (R52). -/
def execSwitchCancel (dt : Nat) (via : Path) (s : State) : Host.Outcome State Fault Refusal := act true dt s fun s => s.switchCancel via

/-- A load whose sections all check takes its place (R47): the tables at once, the underpaintings once no view learns (R266). A load
asked for by the mirror arms then (R539). -/
def State.loadEnds (s : State) (p : Package) (slot : Nat) : State :=
  if s.learningAny then
    if s.web.loaded then s
    else
      let t := s.loadTables p
      { t with web := { t.web with loaded := true } }
  else
    let t := s.loadSlot p slot (1 - s.get REG_SLOT_ACTIVE) (List.range 4)
    let t := ((if s.web.loaded then t else t.loadTables p).set SWITCH_STATE 0 2).set SWITCH_RESULT 0 0
    if t.ecat.m8Load then ({ t with ecat := { t.ecat with m8Load := false } }.set SWITCH_MODE 0 2).switchArm .sdo else t

/-- How channel 7's job ends: DONE, or the failure of a decompression, which is tallied (R478, R480). -/
def State.loadJobEnds (s : State) (p : Package) (slot : Nat) : State :=
  let bad := (List.range 4).findSome? (fun v => match s.upContent p slot v with
    | some (.malformed _) => some 12
    | some .limit => some 11
    | _ => none)
  match bad with
  | some code => (s.set WH_STATUS 7 code).tally CMP_FAIL
  | none => s.set WH_STATUS 7 3

/-- The underpaintings lost with a DRAM channel are whole again (R453). -/
def State.viewsLoaded (s : State) : State :=
  if s.dramUnit.reload.isEmpty then s else s.reloadViews.set WH_STATUS 7 3

/-- Whether a load waits for a pending tide bank or palette commit (R166, R310). -/
def State.loadWaits (s : State) (p : Package) : Bool :=
  !s.web.loaded && (s.get TIDE_PENDING == 1 || (List.range 12).any (fun b =>
    (Package.sec p secPalette b).isSome && s.get EASEL_PAL_PENDING (2 * (b / 2) + s.ctxOf b) == 1))

/-- Channel 7 has moved a package: the higher classes and the jobs that take turns with it were served, and the load ends LOADED or
FAILED (R46, R460). -/
def State.jobLoaded (s : State) : State :=
  match s.web.pendingJob with
  | none => s
  | some p =>
    if s.get SWITCH_STATE ≠ 1 ∨ s.loadWaits p then s
    else
      let slot := s.web.pendingSlot
      let s := (s.serveHigh.serveArchive.turnsServe s.wharf.loadSeen ((p.length + 4095) / 4096)).loadJobEnds p slot
      if !s.loadOk p slot then
        let t := s.loadFails 2
        { t with ecat := { t.ecat with m8Load := false } }
      else s.loadEnds p slot

/-- LOAD_COMPLETE (R46, R266): the load ends LOADED or FAILED, and a mirror load arms (R539). It waits for a pending tide bank (R310)
and for pending palette commits; while learning holds the standby slot, only what needs no slot is loaded. It runs in neither DORMANT
nor HOLD, nor while a bus error holds the wharf, and waits for a decompressor (R463, R466). -/
def execLoadComplete (dt : Nat) (s : State) : Host.Outcome State Fault Refusal :=
  act true dt s fun s =>
    if s.get MODE = 0 ∨ s.get MODE = 5 ∨ s.get WH_ALL_STOPPED = 1 ∨ !s.ownBusy 7 then s
    else
      let t := s.loadEngine
      if t.wharf.load = 2 then t else t.viewsLoaded.jobLoaded.grant

end Sys2Proof.Machine
end

