-- ==== Sys2Proof/Machine/Transitions.lean ====
section
/-! DEFINITION. Machine/Transitions.lean: what entering READY, MAKEREADY, INSPECT and CALIBRATE does, and the transitions
that wait for a strip boundary or for standstill (R61 to R66, R121, R665). -/
namespace Sys2Proof.Machine
open Reg

/-! ## Entry to READY -/

/-- Units in use that carry a mark are substituted by spares of their kind and retired (R634). -/
def State.substituteUnits (s : State) : State :=
  let marked (t : State) (kind u : Nat) : Bool := t.marks.any (fun m => m.kind == kind && m.unit == u)
  let t := (List.range 96).foldl (fun (t : State) k =>
    let p := t.get TILE_PHYS k
    if t.get TILE_PHYS_STATE p = 0 ∧ marked t 0 p then
      match t.spareTile with
      | some q => ((t.routeTile k q).setUnit 0 p 3).restDomain 0 p
      | none => t
    else t) s
  (List.range 6).foldl (fun (t : State) k =>
    let p := t.get EASEL_PHYS k
    if t.get EASEL_PHYS_STATE p = 0 ∧ marked t 1 p then
      match t.spareEasel with
      | some q =>
        let u := ((t.routeEasel k q).setUnit 1 p 3).restDomain 1 p
        if t.easelUsed k then u else (u.set PD_STATE (26 + q) 0).set ISLAND_STATE (26 + q) 0
      | none => t
    else t) t

/-- Every entry to READY: the quays are emptied, lights take the applied set, units out of use and marked units are substituted, a
marked package starts to migrate, and output that waited for the rings leaves (R72, R112, R157, R194, R318, R451, R506, R549, R550,
R634); no line has been triggered since (R213, R275). -/
def State.readyEntry (s : State) : State :=
  let t := s.quaysEmpty.lightsReady.easelsReady.tilesReady.substituteUnits.substituteLanes.migrateMarked.flushRings
  { t with trig := { t.trig with firstLine := none } }

/-! ## Changes among READY, MAKEREADY, INSPECT and CALIBRATE -/

/-- What follows MODE's change on mode-change line `line` (R66, R121, R247, R559): on READY the repeat in progress closes,
or lines resume after CALIBRATE; on CALIBRATE the generator is suspended and the procedure starts; in MAKEREADY the bitmap reads zero,
and what waited to be published is discarded as on entry to HOLD (R71; DEDUCED, log entry 168). -/
def State.afterChange (s : State) (old line : Nat) (standing : Bool) : State :=
  let m := s.get MODE
  if m = 1 then
    let t := if old = 2 ∨ old = 3 then s.closeRepeat (line - 1) else if old = 4 then s.resumeLines else s
    t.readyEntry.fabricSettleAt line
  else if m = 4 then
    let u := s.loadMax.suspendLines
    let at_ := if standing then u.now else u.now + max (u.get CAL_LINE_PERIOD_NS) (u.get TRIG_MIN_PERIOD_NS)
    ({ u with trig := { u.trig with calNext := some at_ } }).calStart.fabricSettleAt line
  else (if m = 2 then s.clearRejects else s).loadMax.captureViews

/-- A transition that waits for a strip boundary: to MAKEREADY from READY, to CALIBRATE, or to READY (R61). -/
def State.waitsForStrip (s : State) : Bool :=
  let p := s.get MODE_PENDING
  let m := s.get MODE
  (p == 2 && m == 1) || (p == 4 && m == 1) || (p == 1 && (m == 2 || m == 3 || m == 4))

/-- A waiting transition takes effect at once when the web is at standstill, except from CALIBRATE; its mode-change line
is the next line triggered (R61, R64, R665). -/
def State.atStandstill (s : State) : State :=
  if s.waitsForStrip && s.standing && s.get MODE != 4 then
    let old := s.get MODE
    let m := s.get MODE_PENDING
    let n := s.get LINE_NUMBER
    let t := (s.setMode m n).afterChange old n true
    { t with web := { t.web with entry := some m } }
  else s

/-- A waiting transition takes effect on the first line of a strip (R61, R665). -/
def State.atStrip (s : State) (line : Nat) : State :=
  if s.waitsForStrip then
    let old := s.get MODE
    let m := s.get MODE_PENDING
    (s.setMode m line).afterChange old line false
  else s

end Sys2Proof.Machine
end

