-- ==== Sys2Proof/Machine/Motion.lean ====
section
/-! DEFINITION. Machine/Motion.lean: encoder inputs, the web count, the observer, the cylinder reference, AUX inputs and
pulse outputs (R367 to R400). -/
namespace Sys2Proof.Machine
open Reg

/-! ## Fault bits (R383) -/

/-- A bit of ENC_FAULT sets: ENC_FAULT fires, and its emergency message goes out (R383, R540). -/
def State.encFault (s : State) (b : Nat) : State :=
  if bit (s.get ENC_FAULT) b then s
  else ((s.set ENC_FAULT 0 (setBit (s.get ENC_FAULT) b true)).emit 0x79).emcy 0x7300 b

/-- A bit of ENC_FAULT clears. -/
def State.encClear (s : State) (b : Nat) : State :=
  if bit (s.get ENC_FAULT) b then (s.set ENC_FAULT 0 (setBit (s.get ENC_FAULT) b false)).emcyCleared s else s

/-! ## The observer (R384 to R391) -/

/-- The reported speed, acceleration and web speed from v and a; frozen states report 0 (R385, R386). -/
def State.obsReport (s : State) : State :=
  let run := s.get OBS_STATE == 1 || s.get OBS_STATE == 2
  let v := if run then s.motion.v else 0
  let a := if run then s.motion.a else 0
  ((s.setInt OBS_SPEED 0 (if run then wholeOf v else 0)).setInt OBS_ACCEL 0 (if run then wholeOf a else 0)).setInt
    WEB_SPEED_MM_S 0 (if run then wholeOf (v * ((s.get COUNT_LENGTH : Nat) : Rat) / 65536 / 1000) else 0)

/-- The observer is frozen at a held web count (R386 to R388). -/
def State.obsFreeze (s : State) (state held : Nat) : State :=
  ((s.set OBS_STATE 0 state).set OBS_POSITION 0 held).obsReport

/-- A release by a pair of counts in direction `fwd`, the second at web count `c`, `ns` after the first (R389). -/
def State.obsRelease (s : State) (fwd : Bool) (c ns : Nat) : State :=
  let f := s.fresh
  let s0 := if ns = 0 then f.2 else s
  let speed : Rat := if ns = 0 then Config.obsSpeedAtOnce f.1 else (if fwd then 1 else -1) * 1000000000 / ((ns : Nat) : Rat)
  let reversal := s.motion.lastDir == some (!fwd)
  let m := { s0.motion with
    p := (c : Int) * 2 ^ 32, v := speed, a := 0, lastDir := some fwd, pair := none,
    idxFirst := if reversal then none else s0.motion.idxFirst
    idxLast := if reversal then none else s0.motion.idxLast
    idxRevs := if reversal then 0 else s0.motion.idxRevs }
  let t := (((({ s0 with motion := m }.set OBS_STATE 0 (if fwd then 1 else 2)).set OBS_POSITION 0 c).obsReport).emit 0x7B)
  if reversal then (t.emit 0x7C).volume OBS_REVERSALS 0 else t

/-- The observer sees one count in direction `fwd` that took the web count from `old` to `new` (R388, R389). -/
def State.obsCount (s : State) (fwd : Bool) (old new : Nat) : State :=
  let st := s.get OBS_STATE
  let s1 := { s with motion := { s.motion with
    lastCount := s.now
    creeping := s.motion.creeping && fwd
    backStep := s.motion.backStep || !fwd } }
  if st = 1 ∨ st = 2 then
    if (st == 1) == fwd then s1
    else
      (({ s1.detUnlock with motion := { s1.motion with pair := some (fwd, s.now) } }.set OBS_EXTREME 0 old).obsFreeze 3 old).atStandstill
  else
    match s.motion.pair with
    | some (d, t) =>
      if d = fwd then s1.obsRelease fwd new (s.now - t)
      else { s1 with motion := { s1.motion with pair := some (fwd, s.now) } }
    | none => { s1 with motion := { s1.motion with pair := some (fwd, s.now) } }

/-! ## Pulse outputs (R397, R398) -/

/-- The record of pulse output `n`. -/
def State.pulse (s : State) (n : Nat) : Pulse := s.motion.pulses.getD n {}

/-- The state with the record of pulse output `n` changed. -/
def State.modPulse (s : State) (n : Nat) (f : Pulse → Pulse) : State :=
  { s with motion := { s.motion with pulses := modifyAt s.motion.pulses n f } }

/-- An A/B state change of output `n` joins the backlog, or is dropped beyond 65,535 (R398). -/
def State.pulseChange (s : State) (n : Nat) (fwd : Bool) : State :=
  let b := (s.pulse n).backlog
  if 65535 ≤ b.length then (s.tally PULSE_OVERRUN n).emit 0x80
  else ((s.modPulse n (fun p => { p with backlog := b ++ [fwd] })).set PULSE_BACKLOG n (b.length + 1)).set PULSE_COUNT n
    (addCount (s.get PULSE_COUNT n) (if fwd then 1 else -1))

/-- A source change of one count runs the fractional divider of output `n` (R397). -/
def State.pulseStep (s : State) (n : Nat) (fwd : Bool) : State :=
  let q := s.get PULSE_Q n
  let p := s.get PULSE_P n
  let a := (s.pulse n).acc
  if fwd then
    if q ≤ a + p then (s.modPulse n (fun x => { x with acc := a + p - q })).pulseChange n true
    else s.modPulse n (fun x => { x with acc := a + p })
  else if a < p then (s.modPulse n (fun x => { x with acc := a + q - p })).pulseChange n false
  else s.modPulse n (fun x => { x with acc := a - p })

/-- One count of a source (0 WEB, 1 AUX1, 2 AUX2) reaches the outputs that follow it. -/
def State.pulseSource (s : State) (src : Nat) (fwd : Bool) : State :=
  (List.range 2).foldl (fun t n => if t.get PULSE_SOURCE n = src then t.pulseStep n fwd else t) s

/-! ## Slip (R396) -/

/-- The slip check at a WEB count: over each window of WEB counts in FORWARD, the WEB change is held against AUX1's change times
the ratio. -/
def State.slipCheck (s : State) : State :=
  if s.get AUX_SLIP_RATIO = 0 ∨ s.get OBS_STATE ≠ 1 then { s with motion := { s.motion with slip := none } }
  else
    let w := s.get WEB_COUNT
    let x := s.get AUX_COUNT 0
    match s.motion.slip with
    | none => { s with motion := { s.motion with slip := some (w, x) } }
    | some (w0, x0) =>
      let dw := countDiff w w0
      let win := s.get AUX_SLIP_WINDOW
      if dw < win then s
      else
        let dx := countDiff x x0 * s.get AUX_SLIP_RATIO
        let t := { s with motion := { s.motion with slip := some (w, x) } }
        if win * s.get AUX_SLIP_TOL_PERMILLE * 65536 < (dw * 65536 - dx).natAbs * 1000 then
          ((t.encFault 6).tally AUX_SLIP).emit 0x7F
        else t

/-! ## The web count (R13, R120, R377, R378) -/

/-- The web count takes a new value one count from the old: wrap, high-water mark, lines, position compare (R13, R378). -/
def State.webTo (s : State) (c : Nat) (wrapped : Bool) : State :=
  let s1 := { s.set WEB_COUNT 0 c with motion := { s.motion with
    hist := (s.dc, c) :: (s.motion.hist.takeWhile (fun (e : Nat × Nat) => decide (s.dc ≤ e.1 + 100000))) ++
      (s.motion.hist.dropWhile (fun (e : Nat × Nat) => decide (s.dc ≤ e.1 + 100000))).take 1 } }
  let s2 := if wrapped then s1.emit 0x77 else s1
  if 0 < countDiff c (s.get WEB_HIGH_WATER) then
    let s3 := { s2.set WEB_HIGH_WATER 0 c with motion := { s2.motion with behind := false } }
    (s3.createLines s3.linesDue).compareMarkers
  else { s2 with motion := { s2.motion with behind := true } }

/-- The web count `i` counts from `old` in direction `fwd`. -/
def countAfter (old : Nat) (fwd : Bool) (i : Nat) : Nat := addCount old (if fwd then (i : Int) else -(i : Int))

/-- Whether the web count wraps within `n` counts from `old` (R13). -/
def wrapsWithin (old : Nat) (fwd : Bool) (n : Nat) : Bool :=
  decide ((if fwd then 2 ^ 63 - 1 + 2 ^ 64 - old else old + 2 ^ 63) % 2 ^ 64 < n)

/-- Several counts of WEB in one direction at one instant: the web count jumps, and position compare looks once, while the observer and
the pulse outputs take every count (R13, R388 to R390, R396, R397, R400). -/
def State.webCounts (s : State) (fwd : Bool) (n : Nat) : State :=
  if n = 0 then s
  else
    let old := s.get WEB_COUNT
    let t := s.webTo (countAfter old fwd n) (wrapsWithin old fwd n)
    ((List.range n).foldl (fun u i => (u.obsCount fwd (countAfter old fwd i) (countAfter old fwd (i + 1))).pulseSource 0 fwd) t).slipCheck

/-- Whether a line of an input (0 WEB, 1 AUX1, 2 AUX2) has a wire fault (R370). -/
def State.wireFault (s : State) (input : Nat) : Bool := s.motion.wires / 8 ^ input % 8 != 0

/-- The web count moves by a signed step; while a wire of WEB is at fault it does not change (R370). -/
def State.webMove (s : State) (d : Int) : State :=
  if s.wireFault 0 then s else s.webCounts (decide (0 ≤ d)) d.natAbs

/-- One count of AUX input `i` (0 AUX1, 1 AUX2). -/
def State.auxCount (s : State) (i : Nat) (fwd : Bool) : State :=
  (s.set AUX_COUNT i (addCount (s.get AUX_COUNT i) (if fwd then 1 else -1))).pulseSource (i + 1) fwd

/-- Several counts of an AUX input at one instant; while a wire of it is at fault it does not change (R370, R396). -/
def State.auxCounts (s : State) (i : Nat) (fwd : Bool) (n : Nat) : State :=
  if s.wireFault (i + 1) then s else iter (fun t => t.auxCount i fwd) n s

/-- A sin/cos input's counter moves by a signed step: WEB for input 0, AUX1 for input 1 (R371). -/
def State.sinCosMove (s : State) (input : Nat) (d : Int) : State :=
  let e := if s.get (if input = 0 then WEB_INVERT else AUX_INVERT) = 1 then -d else d
  if input = 0 then s.webMove e else s.auxCounts 0 (decide (0 ≤ e)) e.natAbs

/-! ## A/B decoding (R368, R369) -/

/-- The place of an A/B state in the forward cycle, A leading B. -/
def quadPos (a b : Bool) : Nat :=
  match a, b with
  | false, false => 0
  | true, false => 1
  | true, true => 2
  | false, true => 3

/-- What a change of the A/B state is: a count forward or backward, none, or illegal. -/
inductive AbStep where
  | none
  | count (fwd : Bool)
  | illegal
  deriving DecidableEq, Repr

/-- The step from one A/B state to another. -/
def abStep (old new : Nat) : AbStep :=
  if new = old then .none
  else if new = (old + 1) % 4 then .count true
  else if new = (old + 3) % 4 then .count false
  else .illegal

/-- An illegal change of an input: tallied, and ILLEGAL set past the limit within 1 ms (R369, R396; one tally and one bit for WEB and
the AUX inputs is DEDUCED, log entry 180). -/
def State.illegalChange (s : State) : State :=
  let l := s.now :: s.motion.illegalAt.filter (fun t => decide (s.now < t + 1000000))
  let t := { s with motion := { s.motion with illegalAt := l } }.tally ENC_ILLEGAL
  if s.get ENC_ILLEGAL_MAX < l.length then t.encFault 1 else t

/-- ENC_COUNT (R369): a sample of the A/B state of WEB whose level has held for `held` ns. -/
def execEncCount (dt : Nat) (a b : Bool) (held : Nat) (s : State) : Host.Outcome State Fault Refusal :=
  act true dt s fun s =>
    if s.get WEB_TYPE ≠ 0 ∨ held < s.get ENC_FILTER_NS then s
    else
      let old := s.motion.ab.getD 0 0
      let new := quadPos a b
      let t := { s with motion := { s.motion with ab := s.motion.ab.set 0 new } }
      match abStep old new with
      | .none => t
      | .count fwd => t.webMove (if fwd == (s.get WEB_INVERT == 0) then 1 else -1)
      | .illegal => t.illegalChange

/-- ENC_WIRE_FAULT (R370, R396): the differential level of A, B or Z of WEB (lines 0 to 2), AUX1 (3 to 5) or AUX2 (6 to 8) below 200 mV
for `lowNs`. One WIRE bit and one tally for the three inputs is DEDUCED (log entry 180). -/
def execEncWireFault (dt line lowNs : Nat) (s : State) : Host.Outcome State Fault Refusal :=
  act (decide (line < 9)) dt s fun s =>
    if lowNs ≤ 1000 then s
    else ({ s with motion := { s.motion with wires := setBit s.motion.wires line true } }.encFault 0).tally ENC_WIRE

/-- WIRE_CLEAR (R370, R383): every level of every input is back; WIRE follows its condition. -/
def execWireClear (dt : Nat) (s : State) : Host.Outcome State Fault Refusal :=
  act true dt s fun s => { s with motion := { s.motion with wires := 0 } }.encClear 0

/-! ## Sin/cos (R371 to R373) -/

/-- The record of a sin/cos input. -/
def State.sinCos (s : State) (i : Nat) : SinCos := s.motion.sinCos.getD i {}

/-- The state with the record of a sin/cos input changed. -/
def State.modSinCos (s : State) (i : Nat) (f : SinCos → SinCos) : State :=
  { s with motion := { s.motion with sinCos := modifyAt s.motion.sinCos i f } }

/-- Whether an input is set to sin/cos. -/
def State.isSinCos (s : State) (input : Nat) : Bool :=
  if input = 0 then s.get WEB_TYPE == 1 else s.get AUX_TYPE 0 == 2

/-- Whether either filter channel of a sin/cos input carries SETTLING (R372, R406). -/
def State.sinCosSettling (s : State) (input : Nat) : Bool :=
  bit (s.get FC_FLAGS (2 * input)) 0 || bit (s.get FC_FLAGS (2 * input + 1)) 0

/-- OVERRATE follows the signal period: set below 4 µs, clear above 4.4 µs (R373). -/
def State.overrate (s : State) (input periodNs : Nat) : State :=
  let on := decide (periodNs < 4000) || ((s.sinCos input).overrate && decide (periodNs ≤ 4400))
  let t := s.modSinCos input (fun x => { x with overrate := on })
  if (List.range 2).any (fun i => (t.sinCos i).overrate) then t.encFault 4 else t.encClear 4

/-- SINCOS_QUADRANT_EDGE (R371 to R373): the comparators report a new quadrant; the count advances by the quadrant, and
the fraction restarts: clamped into the new quadrant, or 0 while SETTLING, OVERRATE or AMPLITUDE holds it. -/
def execSincosQuadrantEdge (dt input quadrant periodNs : Nat) (s : State) : Host.Outcome State Fault Refusal :=
  act (decide (input < 2) && decide (quadrant < 4)) dt s fun s =>
    if !s.isSinCos input then s
    else
      let t := s.overrate input periodNs
      let x := t.sinCos input
      let n := 2 ^ t.get ENC_INTERP
      match abStep x.quadrant quadrant with
      | .none => t
      | .illegal => t.illegalChange
      | .count fwd =>
        let hold := t.sinCosSettling input || x.overrate || x.ampBad
        let f : Nat := if fwd || hold then 0 else n - 1
        let d : Int := if fwd then (n : Int) - (x.fraction : Int) + (f : Int) else (f : Int) - (n : Int) - (x.fraction : Int)
        (t.modSinCos input (fun y => { y with quadrant := quadrant, fraction := f })).sinCosMove input d

/-! ## SSI and BiSS C (R374 to R376) -/

/-- The binary number a Gray word of `n` bits spells (R374). -/
def grayToBinary : Nat → Nat → Nat
  | 0, _ => 0
  | n + 1, g => let h := grayToBinary n (g / 2); 2 * h + (g + h) % 2

/-- The 6-bit CRC of BiSS C over `n` bits, first bit first (R375). -/
def bissCrc : Nat → Nat → Nat → Nat
  | 0, _, c => c
  | n + 1, w, c =>
    let top := (c / 32 % 2 + w / 2 ^ n % 2) % 2
    bissCrc n w (if top = 1 then Nat.xor (c * 2 % 64) 3 else c * 2 % 64)

/-- A poll fails: it adds nothing and is tallied, and the third in a row sets SERIAL (R376). -/
def State.pollFails (s : State) : State :=
  let n := s.motion.serialFails + 1
  let t := { s with motion := { s.motion with serialFails := n } }.tally ENC_SERIAL_ERR
  if 3 ≤ n then t.encFault 5 else t

/-- A poll gives an absolute position: its step from the last valid one is added, unless it is too large (R376). -/
def State.pollGives (s : State) (pos : Nat) : State :=
  let w := s.get ENC_SERIAL_BITS
  let ok (t : State) : State :=
    ({ t with motion := { t.motion with lastAbs := some pos, serialFails := 0 } }.set ENC_ABS_POSITION 0 pos).encClear 5
  match s.motion.lastAbs with
  | none => ok s
  | some l =>
    let d := toSigned w (pos + (2 ^ w - l % 2 ^ w))
    if s.get ENC_SERIAL_MAX_STEP < d.natAbs then s.pollFails
    else (ok s).webMove (if s.get WEB_INVERT = 1 then -d else d)

/-- ENC_SERIAL_POLL (R374): the poll period expires and the clock goes out. -/
def execEncSerialPoll (dt : Nat) (s : State) : Host.Outcome State Fault Refusal :=
  act true dt s fun s =>
    let due := match s.motion.polledAt with
      | some t => decide (t + s.get ENC_SERIAL_PERIOD_NS ≤ s.now)
      | none => true
    if (s.get WEB_TYPE == 2 || s.get WEB_TYPE == 3) && due then
      { s with motion := { s.motion with polling := true, polledAt := some s.now } }
    else s

/-- ENC_SERIAL_POLL_DONE (R374 to R376): the word read, first bit highest, and whether the data line returned to idle. -/
def execEncSerialPollDone (dt word : Nat) (idle : Bool) (s : State) : Host.Outcome State Fault Refusal :=
  act true dt s fun s =>
    if !s.motion.polling then s
    else
      let t := { s with motion := { s.motion with polling := false } }
      let w := s.get ENC_SERIAL_BITS
      if !idle then t.pollFails
      else if s.get WEB_TYPE = 3 then
        let body := word / 64
        let pos := body / 4 % 2 ^ w
        let t := if bit body 0 then t else t.tally ENC_SERIAL_WARN
        if bissCrc (w + 2) body 0 ≠ 63 - word % 64 ∨ !bit body 1 then t.pollFails else t.pollGives pos
      else
        let raw := word % 2 ^ w
        t.pollGives (if s.get ENC_SERIAL_CODE = 1 then grayToBinary w raw else raw)

/-! ## Index (R381, R382) -/

/-- Whether A and B of WEB are both high; of a sin/cos input, both comparators, which is quadrant 0 (R371, R381; the latter DEDUCED, log
entry 180). -/
def State.bothHigh (s : State) : Bool :=
  if s.get WEB_TYPE = 1 then (s.sinCos 0).quadrant == 0 else s.motion.ab.getD 0 0 == 2

/-- INDEX (R369, R381, R382): a rising edge on Z that the glitch filter and the gate pass latches the web count and continues the
accounting; the differences are those R381 and R382 write, in either direction. -/
def execIndex (edge : ZEdge) (s : State) : Host.Outcome State Fault Refusal :=
  act true edge.dt s fun s =>
    if edge.held < s.get ENC_FILTER_NS ∨ (s.get ENC_Z_GATE = 1 ∧ !s.bothHigh) then s
    else
      let c := s.get WEB_COUNT
      let rev : Int := s.get ENC_COUNTS_PER_REV
      let t := ((s.set INDEX_COUNT 0 c).volume INDEX_SEEN 0).emit 0x78
      match s.motion.idxLast with
      | none => { t with motion := { t.motion with idxFirst := some c, idxLast := some c, idxRevs := 0 } }
      | some l =>
        let k := s.motion.idxRevs + 1
        let d := countDiff c l
        let first := s.motion.idxFirst.getD c
        let u := ({ t with motion := { t.motion with idxLast := some c, idxRevs := k } }.setInt INDEX_DELTA 0 d).setInt
          INDEX_DRIFT 0 (countDiff c first - k * rev)
        if s.get ENC_COUNTS_PER_REV ≠ 0 ∧ s.get ENC_INDEX_TOL < (d - rev).natAbs then (u.encFault 2).tally ENC_INDEX_ERR
        else u

/-! ## Observer commands -/

/-- The observer's frequency in Hz (R384). -/
def obsHz (preset : Nat) : Nat := if preset = 0 then 20 else if preset = 1 then 100 else 500

/-- The observer's update law, one step of 100 ns (R384, R385). `meas` is the web count, which for sin/cos holds the fraction of R371
already (DEDUCED, log entry 180). -/
def State.obsStep (s : State) : State :=
  let d : Rat := 1 / 10000000
  let w : Rat := twoPi * ((obsHz (s.get OBS_PRESET) : Nat) : Rat)
  let p1 := s.motion.p + wholeOf ((s.motion.v * d + s.motion.a * d * d / 2) * 4294967296)
  let v1 := s.motion.v + s.motion.a * d
  let e : Rat := ((toSigned 96 (((s.get WEB_COUNT : Int) * 2 ^ 32 - p1) % 2 ^ 96).toNat : Int) : Rat) / 4294967296
  let p2 := p1 + wholeOf (3 * w * d * e * 4294967296)
  let t := { s with motion := { s.motion with
    p := p2, v := v1 + 3 * w * w * d * e, a := s.motion.a + w * w * w * d * e, obsAt := some s.now } }
  (t.set OBS_POSITION 0 (ofSigned 64 (nearest ((p2 : Rat) / 4294967296)))).obsReport

/-- Whether 100 ns have passed since the observer's last update (R384). -/
def State.obsDue (s : State) : Bool := s.motion.obsAt.all (fun (t : Nat) => decide (t + 100 ≤ s.now))

/-- OBS_UPDATE (R384, R385): one update, every 100 ns, while FORWARD or BACKWARD. -/
def execObsUpdate (dt : Nat) (s : State) : Host.Outcome State Fault Refusal :=
  act true dt s fun s => if (s.get OBS_STATE = 1 ∨ s.get OBS_STATE = 2) ∧ s.obsDue = true then s.obsStep else s

/-- ENC_STANDSTILL (R387): no count for OBS_STANDSTILL_MS. -/
def execEncStandstill (dt : Nat) (s : State) : Host.Outcome State Fault Refusal :=
  act true dt s fun s =>
    if s.get OBS_STATE = 0 ∨ s.now < s.motion.lastCount + s.get OBS_STANDSTILL_MS * 1000000 then s
    else
      let t := { s.detUnlock with motion := { s.motion with pair := none, creeping := s.get OBS_STATE == 1 } }
      (((t.obsFreeze 0 (s.get WEB_COUNT)).emit 0x7A).volume OBS_STANDSTILLS 0).atStandstill

/-! ## Cylinder reference (R392 to R395) -/

/-- The state with the tooth chain changed. -/
def State.modCyl (s : State) (f : Cyl → Cyl) : State :=
  { s with motion := { s.motion with cyl := f s.motion.cyl } }

/-- The starts that a reference event at `t` yields (R237). -/
def refStarts (t off n : Nat) (rev : Option Nat) : List Nat :=
  match rev with
  | none => [addCount t off]
  | some r => (List.range n).map (fun j => addCount t ((off + j * r / n : Nat) : Int))

/-- A computed start takes its place among those to come (R235). -/
def insertStart (c : Nat) : List Nat → List Nat
  | [] => [c]
  | a :: q => if 0 < countDiff a c then c :: a :: q else if a = c then a :: q else a :: insertStart c q

/-- The scheduler computes a start: it joins those to come, unless its line has been triggered. Then, while a repeat is open,
it is late (R235, R236; DEDUCED, log entry 51). -/
def State.addStart (s : State) (x : Nat) : State :=
  let past := match s.trig.lines with
    | l :: _ => decide (countDiff x l.count ≤ 0)
    | [] => false
  if past then
    if s.web.open_.isNone then s
    else { s.tally REG_START_LATE with web := { s.web with sched := { s.web.sched with late := true } } }
  else { s with web := { s.web with sched := { s.web.sched with starts := insertStart x s.web.sched.starts } } }

/-- A reference event at web count `c`: discarded when its edges do not number CYL_TEETH, else latched, with its repeat
starts in CYLINDER (R237, R393, R395). -/
def State.cylReference (s : State) (c edges : Nat) : State :=
  let had := s.motion.cyl.seenRef
  if had && edges != s.get CYL_TEETH then
    { ((s.modCyl (fun y => { y with edges := 0, missEdges := 0 })).tally CYL_TOOTH_ERR).detUnlock with
      web := { s.web with sched := { s.web.sched with lastRef := none } } }
  else
    let rev := s.web.sched.lastRef.map (fun l => (countDiff c l).toNat)
    let t := ((((s.modCyl (fun y => { y with edges := 0, missEdges := 0, seenRef := true })).set CYL_REF_COUNT 0 c).volume
      CYL_REFS 0).emit 0x7D).detReference
    let u := match rev with
      | some r => t.set REG_REV_COUNTS 0 r
      | none => t
    let w := { u with web := { u.web with sched := { u.web.sched with
      lastRef := some c, ref := some c, rev := rev, refs := ((c, rev) :: u.web.sched.refs).take 64 } } }
    if s.get REG_METHOD = 0 ∧ !w.isSecondary then
      (refStarts c (s.get REG_CYL_OFFSET) (s.get REG_REPEATS_PER_REV) rev).foldl State.addStart w
    else w

/-- No reference event for CYL_TEETH + CYL_TEETH / 2 edges (R395). -/
def State.cylMiss (s : State) : State :=
  let n := s.get CYL_TEETH
  if n + n / 2 ≤ s.motion.cyl.missEdges then
    let t := (((s.modCyl (fun y => { y with missEdges := 0 })).tally CYL_REF_MISS).emit 0x7E).detUnlock
    { t with web := { t.web with sched := { t.web.sched with lastRef := none } } }
  else s

/-- An ordinary tooth of period `p` (R393). -/
def State.toothNormal (s : State) (p : Nat) : State :=
  ((s.modCyl (fun z => { z with period := some p, afterRef := none })).set CYL_TOOTH_PERIOD 0 p).cylMiss

/-- A tooth edge at web count `c`, `pk` counts after the last, is evaluated against the chain `y` before it: ordinary, or the
reference edge after a missing tooth or at an extra one (R393, R394). -/
def State.toothEvaluate (s : State) (y : Cyl) (c pk : Nat) : State :=
  if 0 < y.skip then (s.modCyl (fun z => { z with skip := y.skip - 1 })).toothNormal pk
  else
    match y.period with
    | none => s.toothNormal pk
    | some p =>
      match y.afterRef with
      | some r => s.toothNormal (if s.get CYL_REF_KIND = 1 then r + pk else pk)
      | none =>
        if s.get CYL_REF_KIND = 0 ∧ 3 * p < 2 * pk then s.cylReference c (y.edges + 1)
        else if s.get CYL_REF_KIND = 1 ∧ 100 * pk < 67 * p then
          (s.modCyl (fun z => { z with afterRef := some pk })).cylReference c (y.edges + 1)
        else s.toothNormal pk

/-- What ends the chain of tooth periods: a web count below the high-water mark, BACKWARD or CREEP, or a count opposite to
forward since the last edge (R394). -/
def State.toothBroken (s : State) : Bool :=
  decide (countDiff (s.get WEB_COUNT) (s.get WEB_HIGH_WATER) < 0) || s.get OBS_STATE == 2 || s.get OBS_STATE == 3 ||
    s.motion.backStep

/-- A tooth edge of a chain that ended: the chain starts anew (R394). -/
def State.toothRestart (s : State) : State :=
  let t := (s.modCyl (fun _ => {})).detRestart
  { t with web := { t.web with sched := { t.web.sched with lastRef := none } } }

/-- A tooth edge of a chain that holds (R393, R394). -/
def State.toothEdge (s : State) : State :=
  let c := s.get WEB_COUNT
  let y := s.motion.cyl
  if !(s.get OBS_STATE == 1 || (s.get OBS_STATE == 0 && s.motion.creeping)) then s.modCyl (fun z => { z with lastEdge := some c })
  else
    match y.lastEdge with
    | none => s.modCyl (fun z => { z with lastEdge := some c })
    | some l =>
      (s.modCyl (fun z => { z with lastEdge := some c, edges := y.edges + 1, missEdges := y.missEdges + 1 })).toothEvaluate y c
        (countDiff c l).toNat

/-- CYL_TOOTH_EDGE (R393 to R395): a tooth edge measures a period in web counts and is evaluated while the chain holds. -/
def execCylToothEdge (dt : Nat) (s : State) : Host.Outcome State Fault Refusal :=
  act true dt s fun s =>
    if s.get CYL_TYPE = 0 ∨ s.get CYL_TEETH = 0 then s
    else
      let t := { s with motion := { s.motion with backStep := false } }
      if s.toothBroken then t.toothRestart else t.toothEdge

/-! ## AUX and pulse outputs -/

/-- AUX_COUNT (R369, R396): a sample of the A/B state of AUX1 (input 0) or AUX2 (input 1). -/
def execAuxCount (dt input : Nat) (a b : Bool) (held : Nat) (s : State) : Host.Outcome State Fault Refusal :=
  act (decide (input < 2)) dt s fun s =>
    if s.get AUX_TYPE input ≠ 1 ∨ held < s.get ENC_FILTER_NS then s
    else
      let old := s.motion.ab.getD (input + 1) 0
      let new := quadPos a b
      let t := { s with motion := { s.motion with ab := s.motion.ab.set (input + 1) new } }
      match abStep old new with
      | .none => t
      | .count fwd => t.auxCounts input (fwd == (s.get AUX_INVERT input == 0)) 1
      | .illegal => t.illegalChange

/-- PULSE_EDGE (R398): the oldest change of an output's backlog leaves, at least PULSE_MIN_EDGE_NS after the last. -/
def execPulseEdge (dt n : Nat) (s : State) : Host.Outcome State Fault Refusal :=
  act (decide (n < 2)) dt s fun s =>
    let p := s.pulse n
    let free := match p.lastEdge with
      | some t => decide (t + s.get PULSE_MIN_EDGE_NS n ≤ s.now)
      | none => true
    match p.backlog with
    | [] => s
    | d :: q =>
      if free then
        (s.modPulse n (fun x => { x with
          backlog := q, phase := (x.phase + (if d then 1 else 3)) % 4, lastEdge := some s.now })).set PULSE_BACKLOG n q.length
      else s

/-- A write of PULSE_P or PULSE_Q (R397): refused when it would give P > Q or Q = 0, else in force at once with the
remainder 0 and the output count kept. -/
def State.writePulseDivider (s : State) (via : Path) (n : Nat) (isQ : Bool) (v : Nat) : State :=
  let p := if isQ then s.get PULSE_P n else v
  let q := if isQ then v else s.get PULSE_Q n
  let o := if isQ then PULSE_Q else PULSE_P
  if q = 0 ∨ p = 0 then s.refuse via (o.key n) 0x06090032
  else if q < p then s.refuse via (o.key n) (if isQ then 0x06090032 else 0x06090031)
  else ((s.accept.set o n v).remember o n v).modPulse n (fun x => { x with acc := 0 })

/-- PULSE_DIVIDER_WRITE (R397). -/
def execPulseDividerWrite (dt : Nat) (via : Path) (n : Nat) (isQ : Bool) (value : Nat) (s : State) :
    Host.Outcome State Fault Refusal :=
  act (decide (n < 2)) dt s fun s =>
    if value < 2 ^ 32 then s.writePulseDivider via n isQ value
    else s.refuse via ((if isQ then PULSE_Q else PULSE_P).key n) 0x06070010

/-- MOTION_CLEAR (R402): the tallies and SAT bits of the chapter, and the sticky bits of ENC_FAULT (R383). -/
def State.motionClear (s : State) : State :=
  let t := s.clearAll [ENC_ILLEGAL, ENC_INDEX_ERR, ENC_AMP_FAULTS, ENC_SERIAL_ERR, ENC_WIRE, ENC_SERIAL_WARN, CYL_TOOTH_ERR,
    CYL_REF_MISS, AUX_SLIP, PULSE_OVERRUN, CASCADE_COUNT_ERR]
  ((t.encClear 1).encClear 2).encClear 6

/-- MOTION_CLEAR (R383, R402). -/
def execMotionClear (dt : Nat) (via : Path) (s : State) : Host.Outcome State Fault Refusal :=
  act true dt s fun s => s.command via MOTION_CLEAR 0 true State.motionClear

end Sys2Proof.Machine
end

