-- ==== Sys2Proof/Machine/FilterChain.lean ====
section
/-! DEFINITION. Machine/FilterChain.lean: the sampled-signal filter chain: presets, coefficient banks, synchronising resets,
outputs and their consumers, capture (R403 to R423, R371, R372, R380). -/
namespace Sys2Proof.Machine
open Reg

/-! ## Groups -/

/-- The record of group `g`. -/
def State.grp (s : State) (g : Nat) : FGroup := s.filter.groups.getD g {}

/-- The state with the record of a group changed. -/
def State.modGrp (s : State) (g : Nat) (f : FGroup → FGroup) : State :=
  { s with filter := { s.filter with groups := modifyAt s.filter.groups g f } }

/-- The channels of a group (R403). -/
def groupChans (g : Nat) : List Nat := (List.range 18).filter (fun c => groupOf c == g)

/-- Taps of a preset's compensator (R406). -/
def presetTaps (p : Nat) : Nat := if p = 0 then 16 else if p = 1 then 32 else 64

/-- The outputs after a reset that carry SETTLING (R406). -/
def presetSettle (p : Nat) : Nat := 3 + (presetTaps p + 1) / 2

/-- A bank's bytes: written ones, or the factory coefficients of the preset (R407 to R409). -/
def bankBytes (preset : Nat) : Option (List Byte) → List Byte
  | some b => b
  | none => (List.range (presetTaps preset)).flatMap (fun i => leBytes 4 (ofSigned 32 (Config.factoryCoef preset i)))

/-- A bank's coefficients, tap 0 first. -/
def bankCoefs (preset : Nat) (b : Option (List Byte)) : List Int :=
  (List.range (presetTaps preset)).map (fun i => toSigned 32 (natAt (bankBytes preset b) (4 * i) 4))

/-- The compensator's output (R408): the newest sample first. -/
def firOut (cs xs : List Int) : Int :=
  clampInt (-8388608) 8388607 ((((cs.zip xs).map (fun p => p.1 * p.2)).sum + 536870912) / 1073741824)

/-- The banks of a group change places. -/
def State.swapBanks (s : State) (g : Nat) : State :=
  (((s.modGrp g (fun x => { x with active := x.standby, standby := x.active, fade := none })).set FC_BANK_ACTIVE g
    (1 - s.get FC_BANK_ACTIVE g))).set FC_FADE_STATE g 0

/-- A cross-fade in progress ends with the new bank active. -/
def State.endFade (s : State) (g : Nat) : State := if (s.grp g).fade.isSome then s.swapBanks g else s

/-- A synchronising reset of a group: its sinc3 filters and delay lines are cleared (R413, R414). -/
def State.filterReset (s : State) (g : Nat) : State :=
  let p := s.get FC_PRESET g
  (((s.endFade g).detGroupDiscard g).modGrp g (fun x => { x with
    sincs := List.replicate 12 {}, lines := List.replicate 12 [], settle := presetSettle p
    nextAt := s.now + presetPeriod p })).volume FC_SYNC_COUNT g

/-- The FILTER entry of a group: its preset and its committed bank (R412, R611). -/
def State.storeFilter (s : State) (g : Nat) : State :=
  let b := bankBytes (s.get FC_PRESET g) (s.grp g).active
  s.logWrite 6 g (4 + b.length) [(0, s.get FC_PRESET g)] (match (s.grp g).active with
    | some x => [(0, x)]
    | none => [])

/-! ## Writes -/

/-- Whether a detector's frequency is half its source's output rate or more (R418). -/
def State.detTooFast (s : State) (d : Nat) : Bool := decide (presetMhz (s.get FC_PRESET (s.detGroup d)) ≤ 2 * s.get DET_FREQ_MHZ d)

/-- The detector settings that decide whether a detector's frequency is too high (R418). -/
def Obj.givesFreq (o : Obj) : Bool := o.base == DET_FREQ_MHZ.base || o.base == DET_SOURCE.base || o.base == DET_MODE.base

/-- A write to a detector setting: refused where it gives half the output rate or more, whatever the detector's mode; any change discards
the block (R418, R420). -/
def State.writeDet (s : State) (via : Path) (o : Obj) (d v : Nat) : State :=
  let t := s.set o d v
  if o.givesFreq && t.detTooFast d then s.refuse via (o.key d) 0x06090031
  else if s.get o d = v then s.accept
  else
    let u := (s.accept.detDiscard d).set o d v
    if u.detGroup d = s.detGroup d then u else u.modDet d (fun _ => {})

/-- FC_PRESET's write: refused where it gives a detector half the output rate or more (R407, R412, R418). -/
def State.writePreset (s : State) (via : Path) (g v : Nat) : State :=
  if 2 < v then s.refuse via (FC_PRESET.key g) 0x06090031
  else if (List.range 4).any (fun d => s.detGroup d == g && (s.set FC_PRESET g v).detTooFast d) then
    s.refuse via (FC_PRESET.key g) 0x06090031
  else
    let t := (s.accept.endFade g).detRate g
    (((t.set FC_PRESET g v).modGrp g (fun x => { x with active := none, standby := none })).filterReset g).storeFilter g

/-- FC_PRESET_WRITE (R407). -/
def execFcPresetWrite (dt : Nat) (via : Path) (group value : Nat) (s : State) : Host.Outcome State Fault Refusal :=
  act (decide (group < 4)) dt s fun s => s.writePreset via group value

/-- FC_COEF's write: the standby bank, refused while a fade uses it (R408, R411). -/
def State.writeCoef (s : State) (via : Path) (g : Nat) (b : List Byte) : State :=
  if s.get FC_FADE_STATE g = 1 then (s.set FC_COMMIT_RESULT g 2).refuse via (FC_COEF.key g) abortBusy
  else s.accept.modGrp g (fun x => { x with standby := some b })

/-- Whether a standby bank may be committed (R409); the factory coefficients may. -/
def bankOk (preset : Nat) : Option (List Byte) → Bool
  | none => true
  | some b =>
    let c := (bankCoefs preset (some b)).sum
    b.length == 4 * presetTaps preset && decide (536870912 ≤ c) && decide (c ≤ 2147483648)

/-- FC_COEF_COMMIT's write (R409 to R412, R647): refused, or a cross-fade, or a switch at once while the outputs settle. -/
def State.coefCommit (s : State) (via : Path) (g : Nat) : State :=
  let k := FC_COEF_COMMIT.key g
  let no (r code : Nat) : State := ((s.set FC_COMMIT_RESULT g r).traceCommit FC_COEF_COMMIT g r 0).refuse via k code
  if s.get FC_FADE_STATE g = 1 then no 2 abortBusy
  else if !bankOk (s.get FC_PRESET g) (s.grp g).standby then no 1 0x06040043
  else
    let t := (s.accept.set FC_COMMIT_RESULT g 0).traceCommit FC_COEF_COMMIT g 0 (s.get LINE_NUMBER)
    if 0 < (t.grp g).settle then (t.swapBanks g).storeFilter g
    else
      let b := bankBytes (t.get FC_PRESET g) (t.grp g).standby
      let u := (t.modGrp g (fun x => { x with fade := some (0, t.get FC_FADE_SAMPLES g) })).set FC_FADE_STATE g 1
      u.logWrite 6 g (4 + b.length) [(0, u.get FC_PRESET g)] (match (u.grp g).standby with
        | some x => [(0, x)]
        | none => [])

/-- FC_COEF_COMMIT (R409). -/
def execFcCoefCommit (dt : Nat) (via : Path) (group : Nat) (s : State) : Host.Outcome State Fault Refusal :=
  act (decide (group < 4)) dt s fun s => s.coefCommit via group

/-- FC_COEF_FACTORY's write (R409, R411). -/
def State.coefFactory (s : State) (via : Path) (g : Nat) : State :=
  if s.get FC_FADE_STATE g = 1 then s.refuse via (FC_COEF_FACTORY.key g) abortBusy
  else s.accept.modGrp g (fun x => { x with standby := none })

/-- FC_COEF_FACTORY (R409). -/
def execFcCoefFactory (dt : Nat) (via : Path) (group : Nat) (s : State) : Host.Outcome State Fault Refusal :=
  act (decide (group < 4)) dt s fun s => s.coefFactory via group

/-- FC_SYNC's write (R413): every group of the mask is reset. -/
def State.filterSync (s : State) (via : Path) (mask : Nat) : State :=
  if 15 < mask then s.refuse via (FC_SYNC.key 0) 0x06090031
  else (List.range 4).foldl (fun t g => if bit mask g then t.filterReset g else t) s.accept

/-- FC_SYNC (R413). -/
def execFcSync (dt : Nat) (via : Path) (mask : Nat) (s : State) : Host.Outcome State Fault Refusal :=
  act true dt s fun s => s.filterSync via mask

/-- A capture starts (R421). -/
def State.captureRun (s : State) : State :=
  (({ s with filter := { s.filter with capture := s.get FC_CAPTURE_CHANNEL } }).setBlob FC_CAPTURE 0 []).set FC_CAPTURE_STATE 0 1

/-- FC_CAPTURE_RUN (R421). -/
def execFcCaptureRun (dt : Nat) (via : Path) (s : State) : Host.Outcome State Fault Refusal :=
  act true dt s fun s => s.command via FC_CAPTURE_RUN 0 true State.captureRun

/-- FC_CLEAR's effect (R422). -/
def State.filterClear (s : State) (via : Path) : State :=
  s.command via FC_CLEAR 0 true (fun t => t.clearAll [FC_OVERLOAD, DET_DISCARDED, DET_LIMIT_HITS])

/-- FC_CLEAR (R422). -/
def execFcClear (dt : Nat) (via : Path) (s : State) : Host.Outcome State Fault Refusal :=
  act true dt s fun s => s.filterClear via

/-! ## Outputs (R405 to R415) -/

/-- A channel takes its output: value, flags, and the first OVERLOAD of a run (R405, R423). -/
def State.chanOutput (s : State) (c : Nat) (y : Int) (settling fading : Bool) : State :=
  let loud := decide (9 * 8388608 ≤ 10 * y.natAbs)
  let was := bit (s.get FC_FLAGS c) 2
  let t := ((s.setInt FC_VALUE c y).set FC_FLAGS c (b2n settling + 2 * b2n fading + 4 * b2n loud)).volume FC_SAMPLES c
  if loud && !was then (t.tally FC_OVERLOAD c).emit (0x85 + c) else t

/-- The amplitude window of a sin/cos input on a settled pair: AMPLITUDE sets or clears after a run of outputs (R380). -/
def State.amplitudeCheck (s : State) (input : Nat) : State :=
  let a := s.int FC_VALUE (2 * input)
  let b := s.int FC_VALUE (2 * input + 1)
  let sq := (a * a + b * b).toNat * 10 ^ 12
  let at_ (permille : Nat) : Nat := (permille * s.get ENC_AMP_NOMINAL_MV * 8388608) ^ 2
  let out := decide (sq < at_ (s.get ENC_AMP_MIN_PERMILLE)) || decide (at_ (s.get ENC_AMP_MAX_PERMILLE) < sq)
  let n := s.get ENC_AMP_FAULT_SAMPLES
  let s := if input = 0 then s.set ENC_AMPLITUDE_PERMILLE 0 (amplitudePermille a b (s.get ENC_AMP_NOMINAL_MV)) else s
  let x := s.sinCos input
  let t := s.modSinCos input (fun y => if out then { y with outside := x.outside + 1, inside := 0 }
    else { y with outside := 0, inside := x.inside + 1 })
  let y := t.sinCos input
  if out ∧ !x.ampBad ∧ n ≤ y.outside then
    ((t.modSinCos input (fun z => { z with ampBad := true })).encFault 3).tally ENC_AMP_FAULTS
  else if !out ∧ x.ampBad ∧ n ≤ y.inside then
    let u := t.modSinCos input (fun z => { z with ampBad := false })
    if (List.range 2).any (fun i => (u.sinCos i).ampBad) then u else u.encClear 3
  else t

/-- The fraction of a sin/cos input follows its settled outputs, and with it the count; OVERRATE and AMPLITUDE hold it at 0
(R371, R373, R380). -/
def State.fractionFollows (s : State) (input : Nat) : State :=
  let x := s.sinCos input
  let f := if x.overrate || x.ampBad then 0
    else sinCosFraction (s.int FC_VALUE (2 * input)) (s.int FC_VALUE (2 * input + 1)) x.quadrant (s.get ENC_INTERP)
  if f = x.fraction then s
  else (s.modSinCos input (fun y => { y with fraction := f })).sinCosMove input ((f : Int) - (x.fraction : Int))

/-- A sin/cos input takes a pair of outputs (R371, R372, R380). -/
def State.encoderOutput (s : State) (input : Nat) (settling : Bool) : State :=
  if !s.isSinCos input || settling then s else (s.amplitudeCheck input).fractionFollows input

/-- Whether the photodiode outputs of a channel belong to a measurement of its light level: FLAT's, or the gain lines of a trim of a
camera that the channel lights (R560, R566). -/
def State.photoMeasured (s : State) (ch : Nat) : Bool :=
  (s.get CAL_STATE == 2 && s.cal.todo.head? == some 1) ||
    (match s.trim.run with
      | some (b, strip) => bit (s.get BAR_CAM_MASK ch) b && decide (256 * strip + 32 ≤ s.lastLine) &&
          decide (s.lastLine ≤ 256 * strip + 63) && decide (0 < s.get LINE_NUMBER)
      | none => false)

/-- The photodiode outputs reach compensation, FLAT and a trim, which take those of a channel that is on: SETTLING ones are not used
(R415), nor, by compensation, those of trim lines; a trim that meets one ends (R556, R571). -/
def State.photoOutput (s : State) (settling : Bool) : State :=
  let n := s.lastLine
  let inTrim (ch : Nat) : Bool := match s.trim.run with
    | some (b, strip) => bit (s.get BAR_CAM_MASK ch) b && decide (256 * strip ≤ n) && decide (n ≤ 256 * strip + 63) &&
        decide (0 < s.get LINE_NUMBER)
    | none => false
  if settling then
    if (List.range 12).any inTrim then s.trimAbandon else s
  else (List.range 12).foldl (fun t ch =>
    if t.get BAR_STATE ch ≠ 2 then t
    else
      let v := t.int FC_VALUE (4 + ch)
      let u := if inTrim ch then t else t.modBar ch (fun b => { b with phiSum := b.phiSum + v, phiN := b.phiN + 1 })
      if s.photoMeasured ch then u.modBar ch (fun b => { b with measSum := b.measSum + v, measN := b.measN + 1 }) else u) s

/-- A capture takes an output of its channel; the 4,096th ends it (R421). -/
def State.captureOutput (s : State) (g : Nat) : State :=
  let c := s.filter.capture
  if s.get FC_CAPTURE_STATE ≠ 1 ∨ groupOf c ≠ g then s
  else
    let b := s.blob FC_CAPTURE ++ leBytes 4 (s.get FC_VALUE c) ++ [s.get FC_FLAGS c, 0, 0, 0]
    let t := s.setBlob FC_CAPTURE 0 b
    if 32768 ≤ b.length then { t with evt := { t.evt with captureEnd := t.now / 4 } }.set FC_CAPTURE_STATE 0 2 else t

/-- The oversampling ratio of a preset (R406). -/
def presetOsr (p : Nat) : Nat := if p = 0 then 32 else if p = 1 then 128 else 512

/-- One modulator clock of a sinc3 filter: its integrators take a bit, high as +1 and low as -1. -/
def Sinc.clock (x : Sinc) (high : Bool) : Sinc :=
  let a := x.i1 + (if high then 1 else -1)
  let b := x.i2 + a
  { x with i1 := a, i2 := b, i3 := x.i3 + b }

/-- The sinc3 filter's integrators take the modulator's bits of an output period, bit 0 first. -/
def Sinc.clocks (x : Sinc) (word : Nat) : Nat → Sinc
  | 0 => x
  | n + 1 => (x.clock (word % 2 == 1)).clocks (word / 2) n

/-- The differentiators at the decimated rate (R406). -/
def Sinc.decimate (x : Sinc) : Sinc :=
  let a := x.i3 - x.z1
  let b := a - x.z2
  { x with z1 := x.i3, z2 := a, z3 := b, out := b - x.z3 }

/-- The decimated sample in LSB: the filter's gain is OSR^3, and full scale is 2^23 (R404). Below one LSB the rounding is free. -/
def Sinc.sample (x : Sinc) (preset : Nat) : Int := wholeOf ((x.out * 8388608 : Int) / ((presetOsr preset ^ 3 : Nat) : Rat))

/-- A sinc3 filter after the modulator's bits of an output period (R406). -/
def Sinc.take (x : Sinc) (preset word : Nat) : Sinc := (x.clocks word (presetOsr preset)).decimate

/-- The outputs of a group from its decimated samples: filtered by the active bank, or cross-faded into the new one (R408,
R410). -/
def FGroup.outputs (x : FGroup) (preset : Nat) : List Int :=
  let old := bankCoefs preset x.active
  match x.fade with
  | none => x.lines.map (firOut old)
  | some (m, len) =>
    let new := bankCoefs preset x.standby
    x.lines.map (fun l => (firOut old l * ((len : Int) - (m : Int)) + firOut new l * (m : Int) + ((len / 2 : Nat) : Int)) / ((max 1 len : Nat) : Int))

/-- A group's next output and its consumers (R405, R406, R410, R414, R415). -/
def State.groupOutput (s : State) (g : Nat) (words : List Nat) : State :=
  let p := s.get FC_PRESET g
  let x := s.grp g
  let settling := decide (0 < x.settle)
  let fading := x.fade.isSome
  let first := !settling && bit (s.get FC_FLAGS ((groupChans g).headD 0)) 0
  let sincs := x.sincs.zipIdx.map (fun c => c.1.take p (words.getD c.2 0))
  let rows := x.lines.zipIdx.map (fun l => ((sincs.getD l.2 {}).sample p :: l.1).take 64)
  let y := { x with lines := rows, sincs := sincs }
  let s1 := s.modGrp g (fun _ => { y with settle := x.settle - 1, nextAt := x.nextAt + presetPeriod p })
  let out := y.outputs p
  let s2 := (groupChans g).zipIdx.foldl (fun t c => t.chanOutput c.1 (out.getD c.2 0) settling fading) s1
  let s3 := match x.fade with
    | some (m, len) => if len ≤ m + 1 then s2.swapBanks g else s2.modGrp g (fun z => { z with fade := some (m + 1, len) })
    | none => s2
  let s4 := if first then s3.emit (0x97 + g) else s3
  let s5 := if g = 0 then s4.encoderOutput 0 settling
    else if g = 1 then s4.encoderOutput 1 settling
    else if g = 2 then s4.photoOutput settling else s4
  (s5.detGroupSample g settling).captureOutput g

/-- FILTER_OUTPUT (R404, R406): a group's output is due; `words` holds, for each of its channels, the bits that its modulator gave in the
output period, the first one lowest. -/
def execFilterOutput (dt group : Nat) (words : List Nat) (s : State) : Host.Outcome State Fault Refusal :=
  act (decide (group < 4)) dt s fun s => if (s.grp group).nextAt ≤ s.now then s.groupOutput group words else s

end Sys2Proof.Machine
end

