-- ==== Sys2Proof/Machine/LaneCommands.lean ====
section
/-! DEFINITION. Machine/LaneCommands.lean: the commands of lanes and bays by which a bay can go DOWN, whose waiting lines are late at
once (R93, R104 to R110, R143). -/
namespace Sys2Proof.Machine
open Reg

/-- The lines that a bay which is DOWN awaits are late at once (R111, R143). -/
def State.linesDown (s : State) : State :=
  (List.range 12).foldl (fun t b =>
    if t.get BAY_STATE b = 3 then
      ((t.bay b).await.filter (fun l => !l.replaced)).foldl (fun u l => if u.lateAtOnce b then u.lateLine b l.num else u) t
    else t) s

/-- CXP_DISCOVERY_DONE (R90, R91, R105 steps 3 to 5): within 200 ms of the first lane in DISCOVERY the bootstrap registers have
been read; they could not be, or too late, or the camera reports a revision below 1.1 (log entry 155). -/
def execCxpDiscoveryDone (dt bay : Nat) (cam : Option CxpCamera) (s : State) : Host.Outcome State Fault Refusal :=
  act (decide (bay < 12)) dt s fun s => (s.discoveryDone bay cam).linesDown

/-- CXP_STEP_UP_TIMEOUT (R106): a target lane did not lock within 50 ms; after a ConnectionReset the next lower rate is tried
from step 2 on, whose limit still runs from step 1. -/
def execCxpStepUpTimeout (dt bay : Nat) (s : State) : Host.Outcome State Fault Refusal :=
  act (decide (bay < 12)) dt s fun s => (s.stepUpTimeout bay).linesDown

/-- LANE_STEP_DONE (R107): a lane of a lock-sequence quad completes its step within its limit. -/
def execLaneStepDone (dt quad lane lanesOffered : Nat) (s : State) : Host.Outcome State Fault Refusal :=
  act (decide (quad < 13) && decide (lane < 4)) dt s fun s => (s.laneStepDone quad lane lanesOffered).linesDown

/-- LANE_STEP_TIMEOUT (R105, R107): a lane exceeds the limit of its step during bring-up. -/
def execLaneStepTimeout (dt quad lane : Nat) (s : State) : Host.Outcome State Fault Refusal :=
  act (decide (quad < 13) && decide (lane < 4)) dt s fun s => (s.laneStepTimeout quad lane).linesDown

/-- LANE_RETRAIN_FAIL (R109, R110): a relock attempt exceeds its limit. -/
def execLaneRetrainFail (dt quad lane : Nat) (s : State) : Host.Outcome State Fault Refusal :=
  act (decide (quad < 13) && decide (lane < 4)) dt s fun s => (s.laneRetrainFail quad lane).linesDown

/-- POCXP_OVERLOAD (R93): the draw of the connections that PoCXP powers in a bay; above 18 W for longer than 10 ms, or on a short
circuit of a connection, it is shut down. -/
def execPocxpOverload (dt bay milliwatt overMs : Nat) (short : Bool) (s : State) : Host.Outcome State Fault Refusal :=
  act (decide (bay < 12)) dt s fun s => (s.pocxpOverload bay milliwatt overMs short).linesDown

end Sys2Proof.Machine
end

