-- ==== Sys2Proof/Machine/Power.lean ====
section
/-! DEFINITION. Machine/Power.lean: mains and power stages, domains, islands, bring-up's end, temperatures and the
watchdog (R574 to R588, R593, R597, R601, R602, R605). -/
namespace Sys2Proof.Machine
open Reg

/-! ## Capacity (R574 to R577) -/

/-- The rating of a power stage at the present line state (R574; in LOSS the undiminished one, log entry 46). -/
def State.stageRating (s : State) : Nat := if s.get MAINS_STATE = 1 then 480 else 600

/-- Stages that read OK. -/
def State.stagesOk (s : State) : Nat := ((List.range 3).filter (fun i => s.get PSU_STAGE_STATE i == 0)).length

/-- The capacity in W (R576). -/
def State.capacity (s : State) : Nat := s.stagesOk * s.stageRating

/-- The required power in tenths of a watt for a light load in tenths of a watt (R576). -/
def State.requiredFor (s : State) (light : Nat) : Nat :=
  4050 + 180 * ((List.range 12).filter (fun b => s.bayUsed b && s.get BAY_POCXP_ENABLE b == 1)).length + light

/-- The required power now. -/
def State.required (s : State) : Nat := s.requiredFor (s.get LIGHT_POWER_W)

/-- The light load of the applied exposure set, in tenths of a watt (R577). -/
def State.appliedLoad (s : State) : Nat :=
  ratNat (s.loadOf (fun ch => if s.get BAR_ENABLE ch = 1 then s.commanded s.trig.applied s.linePeriod ch else 0) s.trig.applied.widths s.linePeriod)

/-- Capacity and required power are computed, and POWER_DEFICIT follows (R576, R577). -/
def State.powerCheck (s : State) : State :=
  let cap := s.capacity
  let req := s.required
  let redundant := decide (0 < s.stagesOk) && decide (req ≤ 10 * (cap - s.stageRating))
  let t := ((s.set POWER_CAPACITY_W 0 cap).set POWER_REQUIRED_W 0 ((req + 5) / 10)).set POWER_REDUNDANT 0 (b2n redundant)
  if 10 * cap < req ∨ s.get MAINS_STATE = 2 then t.addCause 4 else t.clearCause 4

/-- POWER_CHECK (R576, R577): every 10 ms; the measured powers are the environment's. -/
def execPowerCheck (dt : Nat) (s : State) : Host.Outcome State Fault Refusal :=
  act true dt s fun s =>
    let f := s.fresh
    let m (i : Nat) : Nat := Config.measured (8 * f.1 + i)
    let t := ((f.2.set INPUT_POWER_W 0 (m 0)).set DC_LOAD_W 0 (m 1))
    ((List.range 3).foldl (fun u i => u.set PSU_STAGE_POWER_W i (m (2 + i))) t).powerCheck

/-- PSU_STAGE_FAULT (R578, R632, R636): a stage fails; at its third fault it is retired. -/
def execPsuStageFault (dt stage : Nat) (s : State) : Host.Outcome State Fault Refusal :=
  act (decide (stage < 3)) dt s fun s =>
    if s.get PSU_STAGE_STATE stage ≠ 0 then s
    else
      let n := min 3 (s.get PSU_LIFE_FAULTS stage + 1)
      let t := (s.tally PSU_STAGE_FAULTS).set PSU_LIFE_FAULTS stage n
      if n = 3 then ((t.addMark 4 stage 7).set PSU_STAGE_STATE stage 3).commitSpareMap else t.set PSU_STAGE_STATE stage 1

/-! ## Mains (R575, R579, R580) -/

/-- MAINS_STATE takes a line state; LOW_LINE with a light load above 320 W is a power deficit (R548, R575). -/
def State.lineState (s : State) (st : Nat) : State :=
  let was := s.get MAINS_STATE
  let t := s.set MAINS_STATE 0 st
  if st = 1 ∧ was ≠ 1 ∧ 3200 < s.get LIGHT_POWER_W then t.addCause 4 else t

/-- MAINS_HALF_CYCLE (R575, R580): a half-cycle with its peak, the RMS of the last 10 cycles and the frequency. -/
def execMainsHalfCycle (dt peakV rmsDeciV centiHz : Nat) (s : State) : Host.Outcome State Fault Refusal :=
  act true dt s fun s =>
    let t := (s.set MAINS_VRMS 0 rmsDeciV).set MAINS_HZ 0 centiHz
    if peakV ≤ 80 then { t with power := { t.power with goodRun := 0 } }
    else
      let n := t.power.goodRun + 1
      let u := { t with power := { t.power with peakAt := t.now, lossAt := none, goodRun := n } }
      match u.get MAINS_STATE with
      | 2 => if 10 ≤ n then (u.lineState (if 1900 ≤ rmsDeciV then 0 else 1)).powerCheck else u
      | 1 => if 1900 ≤ rmsDeciV then u.lineState 0 else u
      | _ => if rmsDeciV < 1800 then u.lineState 1 else u

/-- MAINS_LOSS (R579, R580, R614): no qualifying half-cycle for 12 ms; while LOSS lasts only the hold-up starts anew. The commit takes
a free time of at most 8 ms. -/
def execMainsLoss (dt : Nat) (s : State) : Host.Outcome State Fault Refusal :=
  act true dt s fun s =>
    if s.now < s.power.peakAt + 12000000 ∨ s.power.lossAt.isSome then s
    else
      let t := { s with power := { s.power with lossAt := some s.now, goodRun := 0 } }
      if s.get MAINS_STATE = 2 then t
      else
        let f := ((t.set MAINS_STATE 0 2).tally MAINS_LOSS_COUNT).shedLights.fresh
        let u := if bit (f.2.get HOLD_CAUSE) 4 then f.2.emcy 0x3100 0 else f.2.addCause 4
        (u.commitCounters).set LOGBOOK_MAINS_COMMIT_US 0 (Config.measured f.1 % 8001)

/-- The orderly power-down (R579 step 4, R595): outputs take their power-on state, the domains go off, and the module has no
power. -/
def State.powerDown (s : State) : State :=
  let t := s.suspendLines.lightsOff.powerDownDomains
  let t := [51, 52, 53, 54, 55].foldl (fun u d => u.set PD_STATE d 0) t
  { t with
    powered := false
    trig := { t.trig with highUntil := List.replicate 12 none, calNext := none }
    motion := { t.motion with markers := List.replicate 16 {} }
    power := { t.power with offAt := some t.now } }

/-- MAINS_POWER_DOWN (R579): 20 ms after LOSS began, or began anew, without a qualifying half-cycle. -/
def execMainsPowerDown (dt : Nat) (s : State) : Host.Outcome State Fault Refusal :=
  act true dt s fun s =>
    match s.power.lossAt with
    | some t => if s.get MAINS_STATE = 2 ∧ t + 20000000 ≤ s.now then s.powerDown else s
    | none => s

/-! ## Temperature and watchdog (R593, R597) -/

/-- TEMP_SAMPLE (R597). -/
def execTempSample (dt : Nat) (dieMc inletMc : Int) (s : State) : Host.Outcome State Fault Refusal :=
  act true dt s fun s =>
    let t := (s.setInt TEMP_DIE_MC 0 dieMc).setInt TEMP_INLET_MC 0 inletMc
    let t := { t with power := { t.power with hotAt := if 115000 < dieMc then some (t.power.hotAt.getD t.now) else none } }
    if 105000 < dieMc ∨ 55000 < inletMc then t.addCause 5
    else if dieMc < 95000 ∧ inletMc < 50000 then t.clearCause 5
    else t

/-- THERMAL_TRIP (R597): a die above 115 °C for 1 ms. -/
def execThermalTrip (dt : Nat) (s : State) : Host.Outcome State Fault Refusal :=
  act true dt s fun s =>
    match s.power.hotAt with
    | some t => if t + 1000000 ≤ s.now then { s.powerDown with power := { s.powerDown.power with tripped := true } } else s
    | none => s

/-- WDT_EXPIRY (R593): the supervisor's watchdog expires. -/
def execWdtExpiry (dt : Nat) (s : State) : Host.Outcome State Fault Refusal :=
  act true dt s fun s =>
    { s with power := { s.power with wdtAt := some (s.power.wdtAt.getD s.now) } }.addCause 1

/-! ## Islands that fail (R588) -/

/-- An island fails to release, or its domain has no power (R582, R588). -/
def State.islandFailed (s : State) (i : Nat) : State :=
  if i < 26 then (List.range 4).foldl (fun t j => t.physTileDead (4 * i + j)) s
  else if i < 33 then s.physEaselDead (i - 26)
  else if 38 ≤ i ∧ i < 51 then
    let q := i - 38
    let t := (List.range 5).foldl (fun u j =>
      if u.get SLICE_STATE (5 * q + j) < 2 then u.declareDead 2 (5 * q + j) else u) s
    let t := (List.range 4).foldl (fun u j => (u.set LANE_STATE (4 * q + j) 9).modLane (4 * q + j) (fun x => { x with relock := false })) t
    (((t.quadResult q 8).lanesUp q).quadDown q).linesDown
  else if 52 ≤ i ∧ i < 65 then s.dramDead (i - 52)
  else s.addCause 2

/-- An island reads FAILED (R588). -/
def State.islandFail (s : State) (i : Nat) : State := ((s.set ISLAND_STATE i 4).set ISLAND_FAIL_LAST 0 i).islandFailed i

/-- ISLAND_RELEASE (R587, R602): after LOCK and 1,024 further cycles the island runs; its ferries await their mooring
tokens, and a quad begins bring-up (R583). -/
def execIslandRelease (dt island cycles : Nat) (s : State) : Host.Outcome State Fault Refusal :=
  act (decide (island < 74)) dt s fun s =>
    if s.get ISLAND_STATE island ≠ 3 ∨ cycles < 1024 then s
    else
      let t := { s.set ISLAND_STATE island 2 with power := { s.power with
        lockRetry := s.power.lockRetry.filter (· != island), moor := insertNat island s.power.moor } }
      if 38 ≤ island ∧ island < 51 ∧ s.get MODE_PENDING = 1 then t.bringupStart (island - 38) else t

/-- ISLAND_LOCK_TIMEOUT (R588): no LOCK within 200 µs; the generator is restarted once, then the island fails. -/
def execIslandLockTimeout (dt island : Nat) (s : State) : Host.Outcome State Fault Refusal :=
  act (decide (island < 74)) dt s fun s =>
    if s.get ISLAND_STATE island ≠ 3 then s
    else if s.power.lockRetry.contains island then
      { s with power := { s.power with lockRetry := s.power.lockRetry.filter (· != island) } }.islandFail island
    else { s.tally ISLAND_LOCK_RETRY with power := { s.power with lockRetry := insertNat island s.power.lockRetry } }

/-- Whether a wake request reaches an island: it is STOPPED, and not only because its tiles are fenced (R600, R601). -/
def State.canWake (s : State) (i : Nat) : Bool :=
  s.islandState i == 1 && (s.get ISLAND_STATE i == 1 || (List.range 4).any (fun j => !s.bench.gated.contains (4 * i + j)))

/-- ISLAND_WAKE (R601): a crossing into a STOPPED island wakes it; an island frozen in HOLD stays so (R69). A group whose tiles are idle
is stopped again at once by its owner (R270; DESIGN CHOICE, log entry 199). -/
def execIslandWake (dt island : Nat) (s : State) : Host.Outcome State Fault Refusal :=
  act (decide (island < 74)) dt s fun s =>
    if s.canWake island ∧ s.get MODE ≠ 5 then (s.set ISLAND_STATE island 2).volume ISLAND_WAKES 0 else s

/-- MOORING_TOKEN (R602): the token of a released island's ferry reaches the sender. -/
def execMooringToken (dt island : Nat) (s : State) : Host.Outcome State Fault Refusal :=
  act (decide (island < 74)) dt s fun s =>
    if s.power.moor.contains island then
      { s.volume FERRY_MOORINGS 0 with power := { s.power with moor := s.power.moor.filter (· != island) } }
    else s

/-! ## DORMANT → READY (R581 to R584, R104) -/

/-- Whether a physical easel's domain is powered (R581). -/
def State.easelPowered (s : State) (p : Nat) : Bool :=
  s.get EASEL_PHYS_STATE p != 3 && (List.range 6).all (fun k => s.get EASEL_PHYS k != p || s.get EASEL_PHYS_STATE p != 0 || s.easelUsed k)

/-- Whether a tile group's domain is powered (R581). -/
def State.groupPowered (s : State) (g : Nat) : Bool := (List.range 4).any (fun j => decide (s.get TILE_PHYS_STATE (4 * g + j) < 2))

/-- The domains that DORMANT → READY switches on, in order (R581, R583). -/
def State.riseOrder (s : State) : List Nat :=
  ((List.range 12).filter s.bayUsed).map (· + 38) ++ (if s.get CASCADE_ENABLE = 1 then [50] else []) ++
    ((List.range 7).filter s.easelPowered).map (· + 26) ++ [33, 34, 35, 36, 37] ++ (List.range 26).filter s.groupPowered

/-- A request that powers the module is accepted (R583). -/
def State.riseStart (s : State) : State :=
  { (s.toPending 1).modeResult 1 with power := { s.power with rise := s.riseOrder, lockRetry := [], moor := [] } }

/-- Whether a self-test keeps a domain on; a request for READY waits for its end (R584). -/
def State.testing (s : State) : Bool :=
  s.bench.easelTest.isSome || s.bench.tileTest.isSome || s.quads.any (fun q => q.test.isSome)

/-- DOMAIN_POWERGOOD (R582): the domain being switched on is good; its island's release begins and the next follows. -/
def execDomainPowergood (dt domain : Nat) (s : State) : Host.Outcome State Fault Refusal :=
  act (decide (domain < 56)) dt s fun s =>
    match s.power.rise with
    | d :: rest =>
      if d ≠ domain ∨ s.testing then s
      else { (s.set PD_STATE d 1).set ISLAND_STATE d 3 with power := { s.power with rise := rest } }
    | [] => s

/-- DOMAIN_POWERGOOD_TIMEOUT (R582): the domain being switched on is not good within 200 µs. -/
def execDomainPowergoodTimeout (dt domain : Nat) (s : State) : Host.Outcome State Fault Refusal :=
  act (decide (domain < 56)) dt s fun s =>
    match s.power.rise with
    | d :: rest =>
      if d ≠ domain ∨ s.testing then s
      else
        ({ (s.set PD_STATE d 2) with power := { s.power with rise := rest } }.tally PD_POWERGOOD_FAIL).islandFail d
    | [] => s

/-- A job is made active again at the first DORMANT → READY after a cold reset (R31), with the underpaintings it brings. -/
def State.reviveJob (s : State) : State :=
  match s.web.job, s.nv.entry 0x0C 0 with
  | none, some e =>
    let slot := (e.regs.look 0).getD 0xFFFF
    match s.nv.pkgs.look slot with
    | some p =>
      let t := { s with web := { s.web with job := some p } }.stampJob slot
      let t := (presets ((Package.sec p secPreset 0).getD [])).foldl State.applyPreset t
      let vs := (List.range 4).filter (t.brings p slot)
      let t := vs.foldl (fun u v => u.set REG_UP_PRESENT v 1) (t.loadSlot p slot (t.get REG_SLOT_ACTIVE) (List.range 4))
      let t := t.applyPalettes p t.lastLine
      let t := match t.jobSet p with
        | some x => t.registerSet x t.applyStrip
        | none => t
      { t with web := { t.web with fresh := true } }.set JOB_START_COUNT 0 t.nextCount
    | none => s
  | some p, _ => (presets ((Package.sec p secPreset 0).getD [])).foldl State.applyPreset s
  | none, none => s

/-- What EVT_SAVE stores: the configuration of channels, cells and timers (R441). -/
def eventObjs : List Obj := [CHAN_CFG, CHAN_HOLDOFF, CHAN_RATE_LIMIT, CHAN_RATE_WINDOW_US, CELL_CFG, TIMER_PERIOD]

/-- The event cycle of the present instant: 4 ns each (R424). -/
def State.eventCycle (s : State) : Nat := s.now / 4

/-- A channel's rate window starts (R437). -/
def State.startWindow (s : State) (k : Nat) : State :=
  { s with evt := { s.evt with chans := modifyAt s.evt.chans k (fun c => { c with
      count := 0, windowEnd := s.eventCycle + 250 * s.get CHAN_RATE_WINDOW_US k }) } }

/-- The saved event configuration is restored at the first entry to READY after a cold reset (R441). -/
def State.restoreEvents (s : State) : State :=
  if s.evt.restored then s
  else
    let t := { s with evt := { s.evt with restored := true } }
    match s.nv.entry 7 0 with
    | none => t
    | some e =>
      (List.range 64).foldl (fun u k => if bit (u.get CHAN_CFG k) 31 then u.startWindow k else u) (t.restore eventObjs e.regs)

/-- READY is entered from DORMANT, or from a HOLD entered from DORMANT (R61, R72, R81, R121, R136, R167, R312, R536). The target is rebased
with the module's LINE_PITCH, before the job that becomes active again applies its own (DESIGN CHOICE, log entry 188). -/
def State.enterReady (s : State) : State :=
  let n := s.get LINE_NUMBER
  let t := (List.range 12).foldl State.gainsStart s.restoreBanks
  let t := (t.setMode 1 n).set HOLD_FROM_DORMANT 0 0
  let t := (t.clearCause 0).resumeLines.restartPairing
  t.reviveJob.restoreEvents.readyEntry.tideLoad.fabricSettle

/-- BRINGUP_END (R61, R104): every domain is switched on, no island is being released, and every configured bay, and the cascade
port where it is enabled, has a result; READY is entered, or the request ends with LANE_FAIL and the domains go off. -/
def execBringupEnd (dt : Nat) (s : State) : Host.Outcome State Fault Refusal :=
  act true dt s fun s =>
    let bays := (List.range 13).filter s.quadUsed
    if s.get MODE_PENDING == 1 && s.asDormant && s.power.rise.isEmpty && (List.range 51).all (fun i => s.get ISLAND_STATE i != 3) &&
        bays.all (fun b => s.get BAY_STATE b == 2 || s.get BAY_STATE b == 3) then
      let no (r : Nat) : State :=
        ((s.powerDownDomains.modeResult (if s.get MODE_RESULT = 1 then r else s.get MODE_RESULT)).toPending 0xFF).traceRequest 1 r
      if !bays.all (fun b => s.get BAY_STATE b == 2) then no 8
      else if s.get MODE = 5 ∧ 1 < s.get HOLD_CAUSE then no 10
      else s.enterReady
    else s

/-! ## The chapter's clear command (R605) -/

/-- POWER_CLEAR's effect (R605). -/
def State.powerClear (s : State) (via : Path) : State :=
  s.command via POWER_CLEAR 0 true (fun t =>
    let t := { t with evt := { t.evt with lostBy := [] } }
    ((t.clearAll [MAINS_LOSS_COUNT, PSU_STAGE_FAULTS, PD_POWERGOOD_FAIL, SUPERVISOR_RESTARTS, ISLAND_LOCK_RETRY,
      ISO_ERROR_RESPONSES, XING_PULSE_LOST, FERRY_DISCARD, FERRY_FENCED_DROP]).set XING_STATUS 0 (setBit (t.get XING_STATUS) 0 false)))

/-- POWER_CLEAR (R605). -/
def execPowerClear (dt : Nat) (via : Path) (s : State) : Host.Outcome State Fault Refusal := act true dt s fun s => s.powerClear via

end Sys2Proof.Machine
end

