-- ==== Sys2Proof/Machine/ModeRequest.lean ====
section
/-! DEFINITION. Machine/ModeRequest.lean: requests for a mode, their conditions, and the flush of the data path on leaving
HOLD (R58 to R66, R76, R78 to R81, R154, R168, R201, R213, R305, R319). -/
namespace Sys2Proof.Machine
open Reg

/-! ## Conditions (R61, R76) -/

/-- The checks of every entry to MAKEREADY and INSPECT; each shows in its own object (R168, R201, R305). -/
def State.dataChecks (s : State) : State × Bool :=
  let a := s.checkBanks
  let b := a.1.checkGeometry
  let c := b.1.checkTide
  (c.1, a.2 && b.2 && c.2)

/-- Whether every bay of the active job's views is trained (R61). -/
def State.jobTrained (s : State) : Bool :=
  s.jobViews.all (fun v => (s.cams v).all (fun c => s.get BAY_STATE c.bay == 2))

/-- Whether a view of the active job is stale (R76). -/
def State.staleView (s : State) : Bool := s.jobViews.any (fun v => bit (s.get CAL_STALE_VIEWS) v)

/-- The conditions of MAKEREADY → INSPECT: 0, or the refusal code (R61, R63, R76). -/
def State.inspectCheck (s : State) : State × Nat :=
  let r := s.dataChecks
  (r.1, if s.web.job.isNone then 4 else if !s.fullCal then 5 else if s.staleView then 6
    else if !s.jobViews.all (fun v => s.get REG_UP_PRESENT v == 1) then 7 else if !r.2 then 8 else 0)

/-- The conditions of READY → MAKEREADY (R61). -/
def State.makereadyCheck (s : State) : State × Nat :=
  let r := s.dataChecks
  (r.1, if s.web.job.isNone then 4 else if !s.jobTrained || !r.2 then 8 else 0)

/-- The conditions of READY → CALIBRATE (R61). -/
def State.calibrateCheck (s : State) : State × Nat :=
  let a := s.checkBanks
  let b := a.1.checkGeometry
  (b.1, if a.2 && b.2 then 0 else 8)

/-- The condition of powering the module: POWER, or none (R61, R577, R642). -/
def State.powerCode (s : State) : Nat :=
  if 10 * s.capacity < s.requiredFor s.appliedLoad ∨ s.get IDENTITY_MISMATCH = 1 then 9 else 0

/-- The conditions of HOLD → READY (R61, R81). -/
def State.holdExitCode (s : State) : Nat :=
  if 1 < s.get HOLD_CAUSE then 10 else if s.get HOLD_FROM_DORMANT = 1 then s.powerCode else 0

/-- What a transition of R61's table requires now: none where the table has no such row. -/
def State.modeCheck (s : State) (m target : Nat) : Option (State × Nat) :=
  match m, target with
  | 0, 1 => some (s, s.powerCode)
  | 1, 0 => some (s, 0)
  | 1, 2 => some s.makereadyCheck
  | 1, 4 => some s.calibrateCheck
  | 2, 3 => some s.inspectCheck
  | 2, 1 => some (s, 0)
  | 3, 1 => some (s, 0)
  | 3, 2 => some (s, 0)
  | 4, 1 => some (s, 0)
  | 5, 1 => some (s, s.holdExitCode)
  | _, _ => none

/-! ## The flush of the data path (R80, R213, R319) -/

/-- The lines of a strip whose tasks have not all ended are covered (R35, R80). -/
def State.coverFlushed (s : State) (v : Nat) (x : CStrip) : State :=
  let t := s.flag v x.num 4
  if !x.issued then (List.range 256).foldl (fun u i => u.blindLine v blindHold (256 * x.num + i)) t
  else
    (t.partsOf x.num).zipIdx.foldl (fun u p =>
      (List.range (u.slicesOf (u.imageAt p.1.gen) v)).foldl (fun w j =>
        if w.asm.ended.any (fun e => e.view == v && e.strip == x.num && e.part == p.2 && e.slice == j) then w
        else
          let c := w.sliceCols (w.imageAt p.1.gen) v j
          (List.range (p.1.r1 + 1 - p.1.r0)).foldl (fun z i =>
            z.blindRange v blindHold c.1 c.2 (256 * x.num + p.1.r0 + i)) w) u) t

/-- A strip is covered, its header is final, and it leaves the assembler. -/
def State.flushStrip (s : State) (v : Nat) (x : CStrip) : State :=
  let c := s.coverFlushed v x
  let y := (c.strip v x.num).getD x
  let h := c.stripHeader v y
  let t := (c.modStrip v x.num (fun z => { z with complete := true, released := true, issued := true, header := h })).dramWrite
    (c.slotAddr v x.num) h
  match t.strip v x.num with
  | some y => t.leaveStrip v y
  | none => t

/-- A strip that later lines continue is open again, the lines before them zero (R213). -/
def State.reopenStrip (s : State) (v : Nat) : State :=
  let n := s.get LINE_NUMBER
  match s.strip v (n / 256) with
  | none => s
  | some _ =>
    let missing := 2 ^ (n % 256) - 1
    (s.modStrip v (n / 256) (fun y => { y with
      acc := List.replicate 12 missing, ok := List.replicate 12 0, bad := [], whole := [], partner := missing, partnerOk := 0
      sums := [], forceFrom := none, forced := false, complete := false, released := false, issued := false, left_ := false, analysis := true
      flags := Nat.lor y.flags 4 })).zeroLines v (n / 256) (n % 256)

/-- What is on its way between triggers and the fabric is dropped. -/
def State.dropInFlight (s : State) : State :=
  { s with
    bays := s.bays.map (fun b => { b with await := [], ferry := [] })
    easels := s.easels.map (fun e => { e with
      running := none, tokens := [], misses := 0, ctxs := e.ctxs.map (fun c => { c with store := [], rows := [] }) })
    segs := List.replicate 12 []
    notes := List.replicate 12 []
    views := s.views.map (fun w => { w with overlap := [] }) }

/-- When triggering has stopped, the output lines of mosaic cameras whose later rows were never triggered complete as SUBST lines
(R182). -/
def State.finishMosaics (s : State) : State :=
  (List.range 12).foldl (fun t b =>
    if t.bayUsed b && (t.shape b).1.mosaic && decide (0 < t.get LINE_NUMBER) then
      (List.range 63).foldl (fun u i =>
        let n := u.lastLine - (62 - i)
        if 62 - i ≤ u.lastLine ∧ u.lastLine < n + mosaicSpan ((u.ctx b).bankAt n).mosaic then
          (u.camFlag b n 2).accountLine b n blindSubst
        else u) t
    else t) s

/-- The frozen data path is flushed: tasks in flight end without a miss, the open repeat closes, every strip not done is
covered, and the repeats' coverage records leave (R80, R319). -/
def State.flushPath (s : State) : State :=
  let t := (s.closeRepeat s.lastLine).finishMosaics.flushTiles.dropInFlight
  let t := (List.range 4).foldl (fun u v => ((u.view v).strips.filter (fun x => !x.left_)).foldl (fun w x => w.flushStrip v x) u) t
  let due := t.asm.waiting
  let t := due.foldl (fun (u : State) (c : Cand) => u.emitCand c c.continued) { t with asm := { t.asm with waiting := [] } }
  let t := (List.range 12).foldl (fun u b => u.statSettle b) t.asmSettle
  if t.get LINE_NUMBER % 256 = 0 then t else (List.range 4).foldl (fun u v => u.reopenStrip v) t

/-- The strips that were open before a flush are discarded (R213). -/
def State.dropOpen (s before : State) : State :=
  let open_ (v : Nat) : List Nat := ((before.view v).strips.filter (fun x => !x.complete)).map CStrip.num
  (List.range 4).foldl (fun u v => u.modView v (fun w => { w with
    strips := w.strips.filter (fun x => x.complete && !(open_ v).contains x.num) })) s

/-- Entry to DORMANT discards every strip that is open; what was in work is covered first, as a flush covers it (R35, R213; DESIGN
CHOICE, log entry 52). No task uses an old tide bank any more (R309). -/
def State.leaveReady (s : State) : State := (s.flushPath.dropOpen s).enterDormant.tideSettle

/-! ## MODE_REQUEST (R58 to R61, R79, R83) -/

/-- A request refused with a result code. -/
def State.modeRefuse (s : State) (via : Path) (target result : Nat) : State :=
  ((s.modeResult result).traceRequest target result).refuse via (MODE_REQUEST.key 0) (if result = 2 then abortBusy else abortMode)

/-- A request for HOLD (R59, R60, R78, R79): it wins over a pending transition. -/
def State.requestHold (s : State) : State :=
  if s.get MODE ≠ 5 then
    (s.toCause (setBit (s.get HOLD_CAUSE) 0 true)).enterHold false
  else if s.get MODE_PENDING = 0xFF then s.modeResult 0
  else
    let t := s.traceRequest (s.get MODE_PENDING) 12
    let t := if s.get HOLD_FROM_DORMANT = 1 then t.powerDownDomains else t
    ((t.toPending 0xFF).toCause (setBit (t.get HOLD_CAUSE) 0 true)).modeResult 0

/-- A request whose condition holds: at once, at standstill, or on its line (R61, R665). -/
def State.modeAccept (s : State) (target : Nat) : State :=
  let m := s.get MODE
  if m = 1 ∧ target = 0 then (s.modeResult 1).leaveReady
  else if target = 1 ∧ (m = 0 ∨ (m = 5 ∧ s.get HOLD_FROM_DORMANT = 1)) then s.riseStart
  else
    let t := if m = 4 ∧ s.get CAL_STATE ≠ 0 then s.calStop 7 else s
    ((t.toPending target).modeResult 1).atStandstill

/-- A request other than for HOLD (R59 to R61). -/
def State.requestMode (s : State) (via : Path) (target : Nat) : State :=
  let m := s.get MODE
  if target = m then s.accept.modeResult 0
  else
    match s.modeCheck m target with
    | none => s.modeRefuse via target 3
    | some (t, r) => if r ≠ 0 then t.modeRefuse via target r else t.accept.modeAccept target

/-- MODE_REQUEST's write (R58 to R60, R516). -/
def State.modeRequest (s : State) (via : Path) (target : Nat) : State :=
  let p := s.get MODE_PENDING
  if 5 < target then s.refuse via (MODE_REQUEST.key 0) 0x06090031
  else if s.get ECAT_STATE = 3 then s.refuse via (MODE_REQUEST.key 0) abortMode
  else if target = 5 then s.accept.requestHold
  else if p = 0xFF then s.requestMode via target
  else if s.get MODE = 2 ∧ p = 3 ∧ (target = 1 ∨ target = 2) then
    ((s.traceRequest 3 11).toPending 0xFF).requestMode via target
  else s.modeRefuse via target 2

/-- MODE_REQUEST (R58). -/
def execModeRequest (dt : Nat) (via : Path) (code : Nat) (s : State) : Host.Outcome State Fault Refusal :=
  act true dt s fun s => s.modeRequest via code

/-- HOLD_EXIT_FLUSH (R61, R64, R80, R121, R136, R157, R308, R462): the data path is flushed and READY is entered, unless a
cause has arisen meanwhile. A lane that lost lock in HOLD is retraining already (R109). -/
def execHoldExitFlush (dt : Nat) (s : State) : Host.Outcome State Fault Refusal :=
  act true dt s fun s =>
    if s.get MODE ≠ 5 ∨ s.get MODE_PENDING ≠ 1 ∨ s.get HOLD_FROM_DORMANT = 1 then s
    else if 1 < s.get HOLD_CAUSE then
      ((s.modeResult (if s.get MODE_RESULT = 1 then 10 else s.get MODE_RESULT)).toPending 0xFF).traceRequest 1 10
    else
      let t := (s.flushPath.freezeIslands 1 2).clearCause 0
      let t := ((t.setMode 1 (t.get LINE_NUMBER)).resumeLines).restartPairing
      t.readyEntry.fabricSettle

end Sys2Proof.Machine
end

