-- ==== Sys2Proof/Machine/Trigger.lean ====
section
/-! DEFINITION. Machine/Trigger.lean: what the issue of a line's trigger does: exposure, repeat starts, the switch line,
mode-change lines, overspeed and strip openings; the lines of CALIBRATE; and the cascade's web count frames (R16 to R24,
R49 to R51, R61 to R67, R120 to R133, R235 to R244, R401). -/
namespace Sys2Proof.Machine
open Reg

/-! ## Edges of the trigger (R125, R128, R133) -/

/-- The last falling edge of a line: at the end of a strip the bars are compensated and driven with the set that applies
next; a trim switches its bars (R133, R556, R566). -/
def State.lineFallen (s : State) (n : Nat) : State :=
  let t := if n % 256 = 255 then
      let u := (List.range 12).foldl (fun u ch => u.compensate ch) s
      match u.trig.waiting with
      | some (x, k) =>
        if k ≤ (n + 1) / 256 then ({ u with trig := { u.trig with loaded := true } }).loadCurrents x
        else u.loadCurrents u.trig.applied
      | none => u.loadCurrents u.trig.applied
    else s
  t.trimFall n

/-- Whether a bay's trigger is up. -/
def State.isHigh (s : State) (b : Nat) : Bool := (s.trig.highUntil.getD b none).isSome

/-- The lane over which a bay that is UP takes trigger packets or messages, while that lane is ACTIVE (R90, R91, R94). -/
def State.trigLane (s : State) (b : Nat) : Option Nat :=
  (s.ctrlLane b).filter (fun j => s.get BAY_STATE b == 2 && s.get LANE_STATE (4 * b + j) == 8)

/-- An edge of a bay's trigger takes the paths of TRIG_PATH: the TRIG line changes its level, and an edge packet or message goes over
the link, on the lane of the master connection or the command channel's (R91, R94, R125). -/
def State.trigEdge (s : State) (b at_ : Nat) (rise : Bool) : State :=
  let p := s.get TRIG_PATH b
  let link := if s.bayUsed b && (p == 1 || p == 3) then s.trigLane b else none
  s.modBay b (fun x => { x with
    trigHigh := rise && s.bayUsed b && (p == 2 || p == 3)
    edges := match link with
      | some j => (TrigEdge.mk rise at_ j x.highUp :: x.edges).take 8
      | none => x.edges })

/-- A trigger that falls before its width has passed is tallied where it is delivered (R128). -/
def State.clipped (s : State) (b e : Nat) : State :=
  if s.now < e ∧ s.bayUsed b ∧ s.get TRIG_PATH b ≠ 0 then s.tally TRIG_WIDTH_CLIP else s

/-- A new trigger rises: those whose width has passed fell then, those still up ended 100 ns before it (R128). -/
def State.clipTriggers (s : State) : State :=
  if s.trig.highUntil.any Option.isSome then
    let t := (List.range 12).foldl (fun (t : State) b =>
      match s.trig.highUntil.getD b none with
      | some e => (t.clipped b e).trigEdge b (if s.now < e then s.now - 100 else e) false
      | none => t) { s with trig := { s.trig with highUntil := List.replicate 12 none } }
    t.lineFallen s.lastLine
  else s

/-- Whether lines that wait may be triggered: not while the web runs backwards, nor after that until it passes its high-water mark again
(R53, R390). -/
def State.webAhead (s : State) : Bool := s.trig.running && !s.motion.behind

/-- When the next trigger rises, as far as a line waits for it (R121, R123). -/
def State.nextRise (s : State) : Option Nat :=
  if s.get MODE = 4 then s.trig.calNext
  else if s.webAhead && !s.trig.pend.isEmpty then
    some ((s.trig.lastIssue.map (· + s.get TRIG_MIN_PERIOD_NS)).getD s.now)
  else none

/-- A bay's trigger is no longer up. -/
def State.trigDown (s : State) (bay : Nat) : State :=
  { s with trig := { s.trig with highUntil := s.trig.highUntil.set bay none } }

/-- A bay's trigger falls; with the last bay's edge the line has fallen (R125, R131). -/
def State.triggerFalls (s : State) (bay e : Nat) : State :=
  let t := ((s.trigDown bay).clipped bay e).trigEdge bay (min e s.now) false
  if t.trig.highUntil.any Option.isSome then t else t.lineFallen t.lastLine

/-- Whether a trigger that falls at `e` ends now: its width has passed, or the next trigger rises before that and within 100 ns (R128). -/
def State.widthOver (s : State) (e : Nat) : Bool :=
  decide (e ≤ s.now) || s.nextRise.any (fun r => decide (r < e) && decide (r ≤ s.now + 100))

/-- TRIGGER_WIDTH_END (R125, R128): a bay's trigger width has passed and its trigger falls, or the next trigger rises within 100 ns
and ends it. -/
def execTriggerWidthEnd (dt bay : Nat) (s : State) : Host.Outcome State Fault Refusal :=
  act (decide (bay < 12)) dt s fun s =>
    match s.trig.highUntil.getD bay none with
    | some e => if s.widthOver e = true then s.triggerFalls bay e else s
    | none => s

/-! ## Values that wait for a boundary (R10, R19) -/

/-- The rwb objects of a kind of boundary take the values that wait for it. -/
def State.applyHeld (s : State) (a : Acc) : State :=
  s.held.foldl (fun t e =>
    match findObj e.1 with
    | some (o, i) => if o.acc = a then { t with held := t.held.del e.1 }.set o i e.2 else t
    | none => t) s

/-- The first line of a strip: period and deadline of the strip before, held values, exposure set, banks, heartbeat
tokens, takeovers, lights (R130, R161, R192, R193, R276, R547). -/
def State.stripStart (s : State) (n : Nat) : State :=
  let t := match s.trig.stripAt with
    | some a =>
      let p := s.now - a
      ({ s with trig := { s.trig with stripPeriod := p } }).set TILE_DEADLINE_NS 0 (min 0xFFFFFFFF (p * 5 / 4))
    | none => s
  let wait := if s.trig.stripAt.isSome then t.trig.stripPeriod * 5 / 4 else 6250000
  let t := { t with trig := { t.trig with stripAt := some t.now } }
  let t := ((t.applyHeld .rwbStrip).applySet (n / 256)).applyBanks n
  (((t.takeovers n).sendTokens wait (fun _ => true)).stripLights).emit 0x72

/-! ## Repeat starts (R23, R235 to R244) -/

/-- A repeat start that a line is: its phase, none when unknown, whether its lines are unregistered (R236), and the start count that was
fixed for it (R240). -/
structure RepStart where
  phase : Option Nat
  late : Bool := false
  fixed : Option Nat := none
  deriving DecidableEq, Repr

/-- The starts still to come after a line of web count `c`. -/
def State.dropStarts (s : State) (c : Nat) : State :=
  { s with web := { s.web with sched := { s.web.sched with
      starts := s.web.sched.starts.filter (fun x => decide (0 < countDiff x c)) } } }

/-- A start by marks is fixed when its strip opens (R235, R240): once the mark of the repeat before is found, by the difference to the
actual start before it; else by the last actual start and the last measured length; by the nominal length where these are unknown. A
prediction that lies before the strip is late. -/
def State.fixMark (s : State) (l : PLine) (prev : Nat) : State :=
  let sc := s.web.sched
  match s.web.open_, sc.actual with
  | some r, some a =>
    let ahead := (r.number + 2 ^ 32 - sc.counted) % 2 ^ 32
    if s.get REG_METHOD ≠ 1 ∨ s.isSecondary ∨ s.get REG_PHASE_STATE = 0 ∨ !sc.starts.isEmpty ∨ 2 ^ 31 ≤ ahead then s
    else
      let len := (if ahead = 0 then sc.gap else sc.length).getD (s.lineCounts (s.get REG_REPEAT_LINES))
      let p := addCount a (((ahead + 1) * len : Nat) : Int)
      if countDiff p prev ≤ 0 then { s.tally REG_START_LATE with web := { s.web with sched := { sc with late := true } } }
      else if countDiff p l.count * 65536 ≤ 255 * (s.get LINE_PITCH : Int) + ((l.target % 65536 : Nat) : Int) then
        { s with web := { s.web with sched := { sc with starts := [p] } } }
      else s
  | _, _ => s

/-- Lines from the line of web count `a` to a line (R242). -/
def State.linesSince (s : State) (l : PLine) (a : Nat) : Nat :=
  ((countDiff l.count a * 65536 + ((l.target % 65536 : Nat) : Int)) / ((max 1 (s.get LINE_PITCH) : Nat) : Int)).toNat

/-- Whether repeat starts come from marks in this module. -/
def State.byMarks (s : State) : Bool := s.get REG_METHOD == 1 && !s.isSecondary

/-- The phase at a line acquired by an actual start at web count `a` (R242). -/
def State.acquiredPhase (s : State) (l : PLine) (a : Nat) : Nat :=
  let p := s.linesSince l a
  let h := max 1 (s.get REG_REPEAT_LINES)
  if h ≤ p then p % h else p

/-- Phase was acquired by a mark of the repeat that starts at web count `a`: the strip's first line is a start of that phase (R242,
R244). Where whole repeats lie between, the actual start moves on by as many nominal lengths (DEDUCED, log entry 175). R242 opens the
repeat and R23 would ignore a start within REPEAT_LINES_MIN lines of the last: this start is not held against that limit (DESIGN
CHOICE, log entry 187). -/
def State.acquired (s : State) (l : PLine) (a : Nat) (r : Rep) : State × Option RepStart :=
  let p := s.linesSince l a
  let q := s.acquiredPhase l a
  let at_ := addCount a (s.lineCounts (p - q) : Nat)
  ({ s with web := { s.web with sched := { s.web.sched with
      acquire := none, late := false, starts := [], actual := some at_, gap := none
      counted := (r.number + 1) % 2 ^ 32, searched := some r.key } } },
    some ⟨some q, false, some at_⟩)

/-- A start, ignored and tallied when it comes within REPEAT_LINES_MIN lines of the last (R23). -/
def State.unlessShort (s : State) (short : Bool) (x : RepStart) : State × Option RepStart :=
  if short then (s.tally REPEAT_SHORT, none) else (s, some x)

/-- The scheduled start at count `x`: of phase 0, or unknown while the marks have lost it. For a SECONDARY of unknown phase it is the
phase that the PRIMARY acquired, and a start whose phase the PRIMARY does not know is late where a phase is told all the same, else of
unknown phase (R236, R242, R244). -/
def State.scheduled (s : State) (x : Nat) : RepStart :=
  let sc := s.web.sched
  if s.isSecondary then
    if sc.known then ⟨some (if s.get REG_PHASE_STATE = 0 then sc.entry.getD 0 else 0), false, some x⟩ else ⟨sc.entry, sc.entry.isSome, some x⟩
  else ⟨if s.byMarks && s.get REG_PHASE_STATE == 0 then none else some 0, false, some x⟩

/-- The repeat start that line `n` of the open repeat `r` is: phase acquired by marks or a late start, on the first line of a
strip; a scheduled start; a fixed length; or the start R23 forces. -/
def State.openStart (s : State) (r : Rep) (n : Nat) (l : PLine) (prev : Nat) : State × Option RepStart :=
  let t := if n % 256 = 0 ∧ s.byMarks then s.fixMark l prev else s
  let sc := t.web.sched
  let short := decide (n < r.first + s.get REPEAT_LINES_MIN)
  let u := t.dropStarts l.count
  if n % 256 = 0 ∧ s.byMarks ∧ sc.acquire.isSome then u.acquired l (sc.acquire.getD 0) r
  else if n % 256 = 0 ∧ sc.late then
    { u with web := { u.web with sched := { u.web.sched with late := false } } }.unlessShort short ⟨some 0, true, none⟩
  else if (s.get REG_METHOD ≠ 2 ∨ s.isSecondary) ∧ sc.starts.any (fun x => decide (countDiff x l.count ≤ 0)) then
    u.unlessShort short (s.scheduled ((sc.starts.find? (fun x => decide (countDiff x l.count ≤ 0))).getD l.count))
  else if s.get REG_METHOD = 2 ∧ !s.isSecondary ∧ n ≠ r.first ∧ (n - r.first) % s.get REG_REPEAT_LINES = 0 then
    u.unlessShort short ⟨some 0, false, none⟩
  else if r.first + 40960 ≤ n then (u, some ⟨none, false, none⟩)
  else (u, none)

/-- The repeat start that line `n` is, if a repeat is open. -/
def State.repeatStart (s : State) (n : Nat) (l : PLine) (prev : Nat) : State × Option RepStart :=
  match s.web.open_ with
  | none => (s.dropStarts l.count, none)
  | some r => s.openStart r n l prev

/-- The starts of the reference events on record, computed with the settings now in force, where these changed with the job or at the entry
to MAKEREADY (R51, R239): a start held from the old offset is none of the new one's. -/
def State.newOffset (s before : State) : State :=
  if s.get REG_METHOD ≠ 0 ∨ s.isSecondary ∨ (s.get REG_CYL_OFFSET = before.get REG_CYL_OFFSET ∧
      s.get REG_REPEATS_PER_REV = before.get REG_REPEATS_PER_REV) then s
  else { s with web := { s.web with sched := { s.web.sched with
      starts := (s.web.sched.refs.flatMap (fun (e : Nat × Option Nat) => refStarts e.1 (s.get REG_CYL_OFFSET) (s.get REG_REPEATS_PER_REV) e.2)).foldl
        (fun q x => insertStart x q) [] } } }

/-- The phase of the repeat that a switch line or the entry to MAKEREADY opens, and the scheduler set for the settings now in
force (R51, R65, R239, R243, R244). -/
def State.entryPhase (s : State) (l : PLine) (prev : Nat) : State × Option Nat :=
  let sc := s.web.sched
  let put (x : Sched) (p : Option Nat) : State × Option Nat := ({ s with web := { s.web with sched := { x with entry := p, late := false } } }, p)
  if s.isSecondary then (s.dropStarts l.count, sc.entry)
  else if s.get REG_METHOD = 2 then put { sc with starts := [] } (some 0)
  else if s.get REG_METHOD = 1 then
    put { sc with
      starts := [], actual := none, gap := none, length := none, misses := 0, acquire := none
      searched := s.reps.getLast?.map Rep.key, scan := 0 } none
  else
    match sc.ref with
    | none => put { sc with starts := sc.starts.filter (fun x => decide (0 < countDiff x l.count)) } none
    | some k =>
      let of (t : Nat) : List Nat := refStarts t (s.get REG_CYL_OFFSET) (s.get REG_REPEATS_PER_REV) sc.rev
      let held := ((of k).foldl (fun q x => insertStart x q) sc.starts).filter (fun x => decide (0 < countDiff x prev))
      let more := match sc.rev with
        | some r => (of (addCount k r)).filter (fun x => decide (0 < countDiff x prev))
        | none => []
      let ahead := held.filter (fun x => decide (0 < countDiff x l.count))
      let p := (held ++ more).head?.map (fun x =>
        if countDiff x l.count ≤ 0 then 0
        else
          let d := (countDiff x l.count * 65536 - ((l.target % 65536 : Nat) : Int)).toNat
          let pitch := max 1 (s.get LINE_PITCH)
          s.get REG_REPEAT_LINES - (d + pitch - 1) / pitch)
      put { sc with starts := ahead } p

/-- A repeat opens on line `n` (R22, R265, R308): held values and a waiting tide bank come into force, learning goes on, and
REPEAT_START fires. -/
def State.startRepeat (s : State) (n : Nat) (l : PLine) (r : RepStart) : State :=
  let t := s.learnAtStart (let m := (s.get REPEAT_NUMBER + 1) % 2 ^ 32
    (if m = 0 then s.get REPEAT_EPOCH + 1 else s.get REPEAT_EPOCH) % 65536 * 2 ^ 32 + m)
  let t := match t.tideNext with
    | some im => if t.get TIDE_APPLY_LINE + 8192 ≤ n then (t.tideApply im n).set TIDE_RESULT 0 0 else t
    | none => t
  let t := t.openRepeat n l.count r.phase r.late
  { t with web := { t.web with open_ := t.web.open_.map (fun (q : Rep) => { q with fixed := r.fixed }) } }.emit 0x73

/-! ## The switch line (R49 to R51) -/

/-- Whether a line is the switch line of the armed switch; `start` tells whether it is a repeat start. -/
def State.switchDue (s : State) (l : PLine) (start : Bool) : Bool :=
  let m := s.get MODE
  match s.web.armed with
  | none => false
  | some a => s.get SWITCH_STATE == 3 && (m == 1 || m == 2 || m == 3) &&
      (if a.1 = 2 then start
       else match s.web.switchAt with
        | some c => decide (0 ≤ countDiff l.count c)
        | none => false)

/-- The switch line: the job becomes active, the state is SWITCHING, a trim is spoiled, and later lines follow the new pitch
(R50, R122, R571). -/
def State.switchLine (s : State) (n : Nat) (l : PLine) : State :=
  match s.web.pendingJob with
  | none => s
  | some p =>
    let t := ((s.activateJob p s.web.pendingSlot n l.count (strideStrip n)).newOffset s).set SWITCH_STATE 0 4
    let t := ((List.range 12).foldl (fun u b => u.trimSpoiled b n) t).emit 0x74
    ({ t with trig := { t.trig with pend := [] } }).repitch l.target

/-! ## Mode-change lines (R61 to R67) -/

/-- A pending change between MAKEREADY and INSPECT on a repeat start; the conditions of INSPECT are checked again, and a request that
fails here shows its code (R63, R83). -/
def State.changeOnStart (s : State) (n : Nat) : State :=
  let p := s.get MODE_PENDING
  if s.get MODE = 3 ∧ p = 2 then (s.setMode 2 n).afterChange 3 n false
  else if s.get MODE = 2 ∧ p = 3 then
    let r := s.inspectCheck
    if r.2 = 0 then (r.1.setMode 3 n).afterChange 2 n false
    else ((r.1.modeResult r.2).toPending 0xFF).traceRequest 3 r.2
  else s

/-- Whether a strip boundary finds a pending transition to READY (R64). -/
def State.leavesAt (s : State) (n : Nat) : Bool :=
  n % 256 == 0 && s.get MODE_PENDING == 1 && (s.get MODE == 2 || s.get MODE == 3)

/-- The repeat start of a line, if it has one. -/
def State.lineStart (s : State) (n : Nat) (l : PLine) (prev : Nat) : State × Option RepStart :=
  if s.leavesAt n then (s, none) else s.repeatStart n l prev

/-- At a switch, a repeat start or the end of inspection the open repeat closes; then the job switches, the strip's changes
apply and the mode changes. The line that opens a repeat on entry to MAKEREADY is no repeat start for a pending change to INSPECT
(DEDUCED, log entry 169). -/
def State.lineTurn (s : State) (n : Nat) (l : PLine) (sw start leaves : Bool) : State :=
  let t := if sw || start || leaves then s.closeRepeat (n - 1) else s
  let t := if sw then t.switchLine n l else t
  let t := if n % 256 == 0 then t.atStrip n else t
  if (sw || start) && !(s.web.entry == some 2) && s.get MODE == t.get MODE then t.changeOnStart n else t

/-- A repeat opens at a line; where that acquires the phase, the views enter CAPTURE (R247). -/
def State.lineOpen (s : State) (n : Nat) (l : PLine) (prev : Nat) (fresh : Bool) (start : Option RepStart) : State :=
  let u := s.applyHeld .rwbRepeat
  let u := if u.get REG_METHOD = s.get REG_METHOD then u else u.newMethod
  if fresh then
    let e := (u.newOffset s).entryPhase l prev
    e.1.startRepeat n l ⟨e.2, false, none⟩
  else
    let u := { u with web := { u.web with sched := { u.web.sched with entry := none } } }
    let r := start.getD ⟨none, false, none⟩
    let u := if s.get REG_PHASE_STATE = 0 ∧ r.phase.isSome = true then u.captureViews else u
    u.startRepeat n l r

/-- What a line of the web changes before its own record is made: repeat, job and mode. -/
def State.lineChanges (s : State) (n : Nat) (l : PLine) (prev : Nat) : State :=
  let r := s.lineStart n l prev
  let sw := r.1.switchDue l r.2.isSome
  let t := r.1.lineTurn n l sw r.2.isSome (s.leavesAt n)
  let entered := s.web.entry == some 2 || (s.get MODE == 1 && t.get MODE == 2)
  let opens := (t.get MODE == 2 || t.get MODE == 3) && (sw || r.2.isSome || entered)
  let t := if opens then t.lineOpen n l prev (sw || entered) r.2 else t
  if n % 256 == 0 || !(sw || opens) then t
  else { t with web := { t.web with splits := t.web.splits ++
      [⟨n, (if opens then 1 else 0) + (if sw then 2 else 0), t.get JOB_STAMP, t.get TIDE_GENERATION⟩] } }

/-! ## The line itself -/

/-- An overspeed line: tallied, its strips BLIND, covered across every view, the first of a run emitted (R124); its strip's statistics
carry the flag too (R146). -/
def State.overspeedLine (s : State) (n : Nat) : State :=
  let t := (List.range 4).foldl (fun u v => if u.viewState v = 1 then (u.flag v (n / 256) 4).blindLine v blindOverspeed n else u)
    ((List.range 12).foldl (fun u b => u.statFlag b n 4) (s.tally TRIG_OVERSPEED_LINES))
  let t := if s.trig.overspeed then t else t.emit 0x76
  { t with trig := { t.trig with overspeed := true } }

/-- The trigger goes out: the line's record, its strips, the lines the bays await, the edges and the events (R125, R136,
R156, R208, R428). The overspeed test of a switch line takes the new job's pitch (DESIGN CHOICE, log entry 170). -/
def State.lineOut (s : State) (n : Nat) (l : PLine) (calib : Bool) : State :=
  let overspeed := !calib && decide ((s.get LINE_PITCH : Int) ≤ countDiff (s.get WEB_COUNT) l.count * 65536)
  let line : Line := {
    num := n, count := l.count, dc := s.dc, at_ := s.now, mode := s.get MODE, calib := calib, overspeed := overspeed,
    stamp := s.get JOB_STAMP, tgen := s.get TIDE_GENERATION, egen := s.get EXP_GENERATION, cgen := s.trig.cgen }
  let t := { s with
    trig := { s.trig with
      lines := line :: s.trig.lines, firstLine := some (s.trig.firstLine.getD n)
      firsts := if s.trig.firstLine.isNone then n :: s.trig.firsts.filter (fun m => decide (m < n)) else s.trig.firsts }
    web := { s.web with entry := none } }
  let t := ((t.openStrips n).forceClock n).quayTrigger n
  let t := if overspeed then t.overspeedLine n else { t with trig := { t.trig with overspeed := false } }
  let t := t.awaitLine n
  let t := { t with trig := { t.trig with highUntil := (List.range 12).map (fun b => some (t.now + t.widthAt b n)) } }
  let t := (List.range 12).foldl (fun u b => u.trigEdge b u.now true) t
  ((t.trimLine n).emit 0x71).fabricSettle

/-- The next repeat start, where one is fixed or computed (R235, R401). -/
def State.nextStart (s : State) : Option Nat :=
  let at_ (n : Nat) : Nat := (s.nextTarget + (n - s.get LINE_NUMBER) * s.get LINE_PITCH) / 65536 % 2 ^ 64
  match s.web.open_ with
  | none => s.web.sched.starts.head?
  | some r =>
    if s.web.sched.late || s.web.sched.acquire.isSome then some (at_ ((s.get LINE_NUMBER + 255) / 256 * 256))
    else match s.web.sched.starts with
      | x :: _ => some x
      | [] => if s.get REG_METHOD = 2 then some (at_ (r.first + s.get REG_REPEAT_LINES)) else none

/-- The phase a WEB_COUNT frame carries: the phase acquired at the next strip, 0 for a late start, none while the phase is unknown, else that
at the last mode-change or switch line (R236, R242, R401; DEDUCED, log entry 177). -/
def State.framePhase (s : State) : Option Nat :=
  match s.web.sched.acquire with
  | some a =>
    let t := s.nextTarget + ((s.get LINE_NUMBER + 255) / 256 * 256 - s.get LINE_NUMBER) * s.get LINE_PITCH
    some (s.acquiredPhase ⟨t / 65536, 0, t⟩ a)
  | none => if s.web.sched.late then some 0 else if s.get REG_PHASE_STATE = 0 then none else s.web.sched.entry

/-- A WEB_COUNT frame's payload (R401). -/
def State.countFrame (s : State) : List Byte :=
  let x := s.nextStart
  let known := (!s.web.sched.late && (s.get REG_PHASE_STATE == 1 || (!s.byMarks && x.isSome))) || s.web.sched.acquire.isSome
  leBytes 8 s.dc ++ leBytes 8 (s.get WEB_COUNT) ++ leBytes 8 (s.get WEB_HIGH_WATER) ++
    leBytes 8 ((s.get LINE_NUMBER + 2 ^ 64 - 1) % 2 ^ 64) ++ leBytes 8 (s.nextTarget / 65536) ++ leBytes 2 (s.nextTarget % 65536) ++
    [b2n x.isSome + 2 * b2n known, 0] ++ leBytes 2 (s.framePhase.getD 0xFFFF) ++ [0, 0] ++ leBytes 8 (x.getD 0)

/-- Whether this PRIMARY's cascade link carries frames. -/
def State.linkRuns (s : State) : Bool := s.isPrimary && s.cascade.exchanged && !s.cascade.down

/-- The web count frame leaves (R401). -/
def State.sendCount (s : State) : State :=
  ({ s with cascade := { s.cascade with countAt := s.now } }).sendFrame 3 s.countFrame

/-- A start fixed as its strip opens is told to the SECONDARY at once (R401). -/
def State.tellStart (s : State) (n : Nat) : State :=
  if n % 256 = 0 ∧ s.linkRuns then
    match s.nextStart with
    | some x => if countDiff x (s.countAt n) * 65536 ≤ 255 * (s.get LINE_PITCH : Int) then s.sendCount else s
    | none => s
  else s

/-- MARK_SEARCH_DONE (R240 to R242, R244): the search for the mark of a repeat ends, in the order of the repeats; a start that it
fixes, by an acquired phase, is told to the SECONDARY at once (R401). -/
def execMarkSearchDone (dt rep : Nat) (s : State) : Host.Outcome State Fault Refusal :=
  act true dt s fun s =>
    if s.get REG_METHOD ≠ 1 ∨ s.isSecondary ∨ (s.get MODE ≠ 2 ∧ s.get MODE ≠ 3) ∨
        s.unsearched.head?.map Rep.number ≠ some rep then s
    else
      let t := s.searchEnds
      if t.web.sched.acquire.isSome && s.web.sched.acquire.isNone && t.linkRuns then t.sendCount else t

/-- The first line after a job became active in READY gives JOB_START_COUNT its web count (R48). -/
def State.jobStarts (s : State) (c : Nat) : State :=
  if s.web.fresh then { s with web := { s.web with fresh := false } }.set JOB_START_COUNT 0 c else s

/-- A trigger is issued (R120, R123): the line takes the next number, and everything that holds from this line on takes
effect before it leaves. -/
def State.issueLine (s : State) (l : PLine) (calib : Bool) : State :=
  let n := s.get LINE_NUMBER
  let s := s.clipTriggers.jobStarts l.count
  let prev := (s.trig.lines.head?.map Line.count).getD (addCount l.count (-1))
  let t := ({ s with trig := { s.trig with lastIssue := some s.now } }).set LINE_NUMBER 0 (n + 1)
  let t := if n % 256 = 0 then t.stripStart n else t
  let t := if calib then (if n % 256 = 0 then t.atStrip n else t) else t.lineChanges n l prev
  (t.lineOut n l calib).tellStart n

/-- Whether the shortest interval since the last trigger has passed (R123). -/
def State.mayIssue (s : State) : Bool :=
  match s.trig.lastIssue with
  | some t => decide (t + s.get TRIG_MIN_PERIOD_NS ≤ s.now)
  | none => true

/-- A line that waited longer than one compare tick is deferred (R123). -/
def State.deferred (s : State) (l : PLine) : State :=
  let lag := s.now - l.created
  if lag ≤ 2 then s
  else (s.tally TRIG_DEFERRED).set TRIG_MAX_LAG_NS 0 (max (s.get TRIG_MAX_LAG_NS) (min 0xFFFFFFFF lag))

/-- TRIGGER_ISSUE (R123): a compare tick with a line waiting and the minimum period elapsed. A line that waits when the web turns back
waits until the web passes its high-water mark again (R53, R390; log entry 171). -/
def execTriggerIssue (dt : Nat) (s : State) : Host.Outcome State Fault Refusal :=
  act true dt s fun s =>
    match s.trig.pend with
    | [] => s
    | l :: q =>
      if s.webAhead && s.mayIssue then ({ s with trig := { s.trig with pend := q } }.deferred l).issueLine l false
      else s

/-- CAL_LINE_TIMER (R121, R559): in CALIBRATE a line is triggered by time; its web count is the count now. -/
def execCalLineTimer (dt : Nat) (s : State) : Host.Outcome State Fault Refusal :=
  act true dt s fun s =>
    let due : Bool := match s.trig.calNext with
      | some t => decide (t ≤ s.now)
      | none => false
    if s.get MODE = 4 ∧ due ∧ s.mayIssue then
      let t := { s with
        trig := { s.trig with calNext := some (s.now + max (s.get CAL_LINE_PERIOD_NS) (s.get TRIG_MIN_PERIOD_NS)) }
        cal := { s.cal with lines := s.cal.lines + (if s.get CAL_STATE = 2 then 1 else 0) } }
      t.issueLine ⟨t.get WEB_COUNT, t.now, t.get WEB_COUNT * 65536⟩ true
    else s

/-! ## The cascade's web count (R17, R401) -/

/-- WEB_COUNT_SEND (R401): every 20 µs the PRIMARY sends its web count. -/
def execWebCountSend (dt : Nat) (s : State) : Host.Outcome State Fault Refusal :=
  act true dt s fun s => if s.linkRuns && decide (s.cascade.countAt + 20000 ≤ s.now) then s.sendCount else s

/-- The module's own web count at a DC time, as far back as the last 100 µs. -/
def State.countAtTime (s : State) (t : Nat) : Nat :=
  match s.motion.hist.find? (fun e => decide (e.1 ≤ t)) with
  | some e => e.2
  | none => (s.motion.hist.getLast?.map Prod.snd).getD (s.get WEB_COUNT)

/-- The SECONDARY adopts the PRIMARY's count: the difference is added to its count and high-water mark (R401). -/
def State.adoptCount (s : State) (d : Int) : State :=
  let t := (s.tally CASCADE_COUNT_ERR).emit 0x81
  let t := (t.set WEB_COUNT 0 (addCount (t.get WEB_COUNT) d)).set WEB_HIGH_WATER 0 (addCount (t.get WEB_HIGH_WATER) d)
  let t := t.setInt CASCADE_COUNT_OFFSET 0 (t.int CASCADE_COUNT_OFFSET + d)
  let t := { t with motion := { t.motion with hist := t.motion.hist.map (fun e => (e.1, addCount e.2 d)) } }
  if 0 < d then t.createDue.compareMarkers else t

/-- A context after the line number steps back to `next`: what is active stays active, and what waits applies at the first strip
that begins from there (R162, R165). -/
def Ctx.stepBack (x : Ctx) (next : Nat) : Ctx :=
  let first := (next + 255) / 256 * 256
  { x with
    store := x.store.filter (fun l => decide (l.num < next)), rows := x.rows.filter (fun l => decide (l.num < next))
    banks := x.banks.map (fun e => (min e.1 next, e.2)), pend := x.pend.map (fun e => (min e.1 first, e.2))
    palettes := x.palettes.map (fun e => (min e.1 next, e.2)), palPend := x.palPend.map (fun e => (min e.1 first, e.2)) }

/-- A bay after the line number steps back: its gain stays in force, and what it delivered from there on is forgotten (R17, R135). -/
def Bay.stepBack (b : Bay) (next : Nat) : Bay :=
  { b with
    ferry := [], gains := b.gains.map (fun e => (min e.1 next, e.2)), carried := b.carried.filter (fun (e : Carried) => decide (e.line < next))
    prev := b.prev.filter (fun e => decide (e.1 < next)) }

/-- An easel after the line number steps back to `next`: a line in progress from there on is given up (R17). -/
def Easel.stepBack (e : Easel) (next : Nat) : Easel :=
  { e with ctxs := e.ctxs.map (fun (x : Ctx) => x.stepBack next), running := e.running.filter (fun l => decide (l.2.num < next)) }

/-- Lines, splits and switch lines from `next` on are forgotten, in the data path too; banks, palettes, gains and the exposure set keep
their order. -/
def State.forgetFrom (s : State) (next : Nat) : State :=
  { s with
    trig := { s.trig with
      lines := s.trig.lines.filter (fun l => decide (l.num < next))
      waiting := s.trig.waiting.map (fun (e : ExpSet × Nat) => (e.1, min e.2 ((next + 255) / 256))) }
    web := { s.web with
      splits := s.web.splits.filter (fun (x : Split) => decide (x.line < next)), switches := s.web.switches.map (min next) }
    trim := { s.trim with blind := s.trim.blind.filter (fun e => decide (e.2.1 < next)) }
    bays := s.bays.map (fun (b : Bay) => b.stepBack next)
    easels := s.easels.map (fun (e : Easel) => e.stepBack next)
    segs := s.segs.map (fun l => l.filter (fun x => decide (x.line < next)))
    notes := s.notes.map (fun l => l.filter (fun x => decide (x.first < next))) }

/-- The objects that name the strips at which an exposure set and the contexts' commits wait (R130, R165). -/
def State.showWaiting (s : State) : State :=
  (List.range 12).foldl (fun (u : State) i =>
    let x := (u.easel (i / 2)).ctxs.getD (i % 2) {}
    match x.pend, x.palPend with
    | some e, _ => u.set EASEL_CTX_APPLY_STRIP i (e.1 / 256)
    | none, some e => u.set EASEL_CTX_APPLY_STRIP i (e.1 / 256)
    | none, none => u) (match s.trig.waiting with
      | some e => s.set EXP_APPLY_STRIP 0 e.2
      | none => s)

/-- The line number steps back to `next` (R17, R130, R165, R401). -/
def State.stepBack (s : State) (next : Nat) : State :=
  let t := (((List.range 4).foldl (fun u v => u.reclaimAll v) s).forgetFrom next).showWaiting
  if t.tideNext.isSome then t.set TIDE_APPLY_LINE 0 (min next (t.get TIDE_APPLY_LINE)) else t

/-- Tags go on with the lines' new numbers: the tag that line LINE_NUMBER would have borne is that of `next`; lines of the old numbers are
awaited no longer (R136, R401). -/
def State.pairAnew (s : State) (next : Nat) : State :=
  let n := s.get LINE_NUMBER
  { s with bays := s.bays.map (fun b => { b with
      pairLine := b.pairLine.map (fun p => p + next - n), tagOf := b.tagOf.map (fun (e : Nat × Nat) => (next, (e.2 + (n - e.1)) % 65536))
      await := [] }) }

/-- The first frame after a resumption gives the SECONDARY its line number and trigger target; a step backwards reclaims its
canvas (R17, R401). The first line of a job armed in READY, and the first line in the new mode, is the line that takes the new number
(R48, R64); the bays pair their tags with the new numbers (R136). -/
def State.adoptLine (s : State) (next target : Nat) : State :=
  let t := if next < s.get LINE_NUMBER then s.stepBack next else s
  let t := if next = s.get LINE_NUMBER then t else t.pairAnew next
  let t := if s.web.fresh ∧ s.get SWITCH_LINE = s.get LINE_NUMBER then t.set SWITCH_LINE 0 next else t
  let t := if s.get MODE_CHANGE_LINE = s.get LINE_NUMBER then t.set MODE_CHANGE_LINE 0 next else t
  ((({ t with cascade := { t.cascade with adopt := false } }).set LINE_NUMBER 0 next).setTarget target).createDue

/-- What a SECONDARY takes from a WEB_COUNT frame; where the PRIMARY tells of no phase, the phase is lost here too (R242, R244, R401). -/
def State.takeCount (s : State) (p : List Byte) : State :=
  let d := countDiff (natAt p 8 8) (s.countAtTime (natAt p 0 8))
  let t := if s.get CASCADE_COUNT_TOL < d.natAbs then s.adoptCount d else s
  let t := if t.cascade.adopt then t.adoptLine ((natAt p 24 8 + 1) % 2 ^ 64) (natAt p 32 8 * 65536 + natAt p 40 2) else t
  let last := (t.trig.lines.head?.map Line.count).getD (addCount (t.get WEB_HIGH_WATER) (-(2 ^ 32)))
  let x := natAt p 48 8
  let starts := if bit (natAt p 42 1) 0 ∧ 0 < countDiff x last then [x] else []
  let t := if bit (natAt p 42 1) 1 ∨ natAt p 44 2 ≠ 0xFFFF ∨ t.get REG_PHASE_STATE = 0 then t else t.losePhase
  { t with web := { t.web with sched := { t.web.sched with
      starts := starts, known := bit (natAt p 42 1) 1
      entry := if natAt p 44 2 = 0xFFFF then none else some (natAt p 44 2) } } }

/-- WEB_COUNT_FRAME (R98, R401). -/
def execWebCountFrame (dt : Nat) (frame : List Nat) (s : State) : Host.Outcome State Fault Refusal :=
  act true dt s fun s =>
    let r := s.takeFrame 3 frame
    match r.2 with
    | some p => if r.1.isSecondary && p.length == 56 then r.1.takeCount p else r.1
    | none => r.1

end Sys2Proof.Machine
end

