-- ==== Sys2Proof/Machine/Events.lean ====
section
/-! DEFINITION. Machine/Events.lean: the event matrix: producers from outside, channels, LUT cells, task inputs, timers,
latches (R424 to R442), and digital inputs. -/
namespace Sys2Proof.Machine
open Reg

/-- The record of channel `k`. -/
def State.chan (s : State) (k : Nat) : Chan := s.evt.chans.getD k {}

/-- The state with the record of a channel changed. -/
def State.modChan (s : State) (k : Nat) (f : Chan → Chan) : State :=
  { s with evt := { s.evt with chans := modifyAt s.evt.chans k f } }

/-- The state with the record of a LUT cell changed. -/
def State.modCell (s : State) (c : Nat) (f : Cell → Cell) : State :=
  { s with evt := { s.evt with cells := modifyAt s.evt.cells c f } }

/-- A channel is enabled (R436). -/
def State.chanOn (s : State) (k : Nat) : Bool := bit (s.get CHAN_CFG k) 31

/-- A channel's producer. -/
def State.chanSrc (s : State) (k : Nat) : Nat := bits (s.get CHAN_CFG k) 7 0

/-- A channel's consumer. -/
def State.chanDst (s : State) (k : Nat) : Nat := bits (s.get CHAN_CFG k) 15 8

/-! ## Task inputs (R429) -/

/-- A task its state or the mode refuses does nothing and is tallied. -/
def State.taskRefused (s : State) : State := s.tally EVT_TASK_REFUSED

/-- MARK_PULSE_m: the marker comes on for MARK_WIDTH (R362, R429). -/
def State.taskMark (s : State) (m : Nat) : State :=
  if s.get MODE = 5 ∨ s.get MARK_ENABLE m = 0 then s.taskRefused else s.markRise m (s.get WEB_HIGH_WATER)

/-- TIMER_START_n: a start delivered in this cycle (R439). -/
def State.taskStart (s : State) (n : Nat) : State :=
  ({ s with evt := { s.evt with timerAt := s.evt.timerAt.set n (s.eventCycle + s.get TIMER_PERIOD n) } }).set TIMER_STATE n 1

/-- TIMER_STOP_n: idle at once; the pending start is discarded (R439). -/
def State.taskStop (s : State) (n : Nat) : State :=
  ({ s with evt := { s.evt with taskPend := s.evt.taskPend.filter (fun c => c != 0x11 + n) } }).set TIMER_STATE n 0

/-- LATCH_n: count, time and speed in one cycle, then the sequence number (R440). -/
def State.taskLatch (s : State) (n : Nat) : State :=
  (((s.set LATCH_COUNT n (s.get WEB_COUNT)).set LATCH_TIME n s.dc).set LATCH_SPEED n (s.get OBS_SPEED)).volume LATCH_SEQ n

/-- EVT_COUNT_n (R429). -/
def State.taskCount (s : State) (n : Nat) : State := s.volume EVT_COUNT n

/-- HOST_EVT_n: an event record with the code and the DC time (R429, R503). -/
def State.taskHost (s : State) (n : Nat) : State := s.eventFrame 4 0 ([n, 0, 0, 0, 0, 0, 0, 0] ++ leBytes 8 s.dc)

/-- ECAT_TOGGLE_n (R429). -/
def State.taskToggle (s : State) (n : Nat) : State :=
  s.set EVT_TOGGLE 0 (setBit (s.get EVT_TOGGLE) n (!bit (s.get EVT_TOGGLE) n))

/-- DET_START_d: the block in progress is discarded and a new one starts; refused unless FIXED (R420, R429). -/
def State.taskDet (s : State) (d : Nat) : State := if s.get DET_MODE d = 1 then s.detDiscard d else s.taskRefused

/-- PULSE_ZERO_n (R429). -/
def State.taskZero (s : State) (n : Nat) : State := (s.modPulse n (fun p => { p with acc := 0 })).set PULSE_COUNT n 0

/-- EXP_COMMIT (R130, R131, R429). -/
def State.taskExposure (s : State) : State :=
  let t := s.expCommit .event
  if t.abort = 0 then t else t.taskRefused

/-- SWITCH_ARM; SWITCH_RESULT reports the outcome (R48, R429). -/
def State.taskSwitch (s : State) : State :=
  let t := s.switchArm .event
  if t.abort = 0 then t else t.taskRefused

/-- TRACE_MARK: a marker record (R647). -/
def State.taskTrace (s : State) : State := s.traceRec 8 68 0 (s.get WEB_COUNT) s.dc

/-- What a task input does (R429). -/
def State.taskAct (s : State) (c : Nat) : State :=
  if c ≤ 0x10 then s.taskMark (c - 1)
  else if c ≤ 0x20 then s.taskStart (c - 0x11)
  else if c ≤ 0x30 then s.taskStop (c - 0x21)
  else if c ≤ 0x40 then s.taskLatch (c - 0x31)
  else if c ≤ 0x50 then s.taskCount (c - 0x41)
  else if c ≤ 0x60 then s.taskHost (c - 0x51)
  else if c ≤ 0x70 then s.taskToggle (c - 0x61)
  else if c ≤ 0x74 then s.filterReset (c - 0x71)
  else if c ≤ 0x78 then s.taskDet (c - 0x75)
  else if c = 0x79 then s.captureRun
  else if c ≤ 0x7B then s.taskZero (c - 0x7A)
  else if c = 0x7C then s.taskExposure
  else if c = 0x7D then s.taskSwitch
  else if c = 0x7E then s.accept.requestHold
  else s.taskTrace

/-- Whether a task input is busy (R429). -/
def State.taskBusy (s : State) (c : Nat) : Bool :=
  (decide (0x11 ≤ c) && decide (c ≤ 0x20) && s.get TIMER_STATE (c - 0x11) != 0) || (c == 0x79 && s.get FC_CAPTURE_STATE == 1)

/-- An event reaches a task input: it acts, becomes pending at a busy one, or is lost (R432). -/
def State.taskEvent (s : State) (c : Nat) : State :=
  if s.evt.taskPend.contains c then (s.tally EVT_TASK_LOST).set EVT_TASK_LOST_LAST 0 c
  else if s.taskBusy c then
    let t := { s with evt := { s.evt with taskPend := s.evt.taskPend ++ [c] } }
    if 0x11 ≤ c ∧ c ≤ 0x20 then t.set TIMER_STATE (c - 0x11) 2 else t
  else s.taskAct c

/-- An event that a channel delivers in a cycle reaches a task input: it merges into one that another channel delivered there in the
same cycle (R431). -/
def State.reach (s : State) (cycle c : Nat) : State :=
  let here := if s.evt.metAt = cycle then s.evt.met else []
  if here.contains c then (s.tally TASK_COINCIDENCE).set TASK_COINCIDENCE_LAST 0 c
  else ({ s with evt := { s.evt with metAt := cycle, met := c :: here } }).taskEvent c

/-- An event delivered outside a cycle's run reaches its consumer: nothing, a task input, or a cell input in the next sample (R427,
R433). -/
def State.consume (s : State) (dst : Nat) : State :=
  if dst = 0 then s
  else if dst < 0x80 then s.reach s.eventCycle dst
  else { s with evt := { s.evt with cellIn := insertNat dst s.evt.cellIn } }

/-! ## Channels (R436 to R438) -/

/-- A window's count has exceeded CHAN_RATE_LIMIT (R437). -/
def State.rateExceeded (s : State) (k : Nat) : State :=
  let u := (s.tally CHAN_RATE_HITS k).emit 0xBB
  if bit (s.get CHAN_CFG k) 30 then
    (u.set CHAN_CFG k (setBit (s.get CHAN_CFG k) 31 false)).modChan k (fun x => { x with held := false, reg := false })
  else u

/-- A channel delivers one event: counted, and the holdoff starts; the event that takes the window's count past the limit sets the
rate monitor off (R437; DEDUCED, log entry 121). -/
def State.chanDelivers (s : State) (k : Nat) : State :=
  let t := (s.modChan k (fun c => { c with held := false, freeAt := s.eventCycle + s.get CHAN_HOLDOFF k, count := c.count + 1 })).volume
    CHAN_EVENTS k
  if s.get CHAN_RATE_LIMIT k ≠ 0 ∧ (t.chan k).count = s.get CHAN_RATE_LIMIT k + 1 then t.rateExceeded k else t

/-- An event arrives at a channel: delivered now, held through the holdoff, or lost (R437); a channel disabled since it entered holds
nothing (R438). -/
def State.chanArrive (s : State) (k : Nat) : State × Bool :=
  let c := s.chan k
  if c.held then (s.tally EVT_HOLDOFF_LOST, false)
  else if s.eventCycle < c.freeAt then (s.modChan k (fun x => { x with held := s.chanOn k }), false)
  else (s.chanDelivers k, true)

/-- Whether a channel names input 3 of a cell in flip-flop mode: it delivers nothing (R434). -/
def State.chanDeaf (s : State) (k : Nat) : Bool :=
  let d := s.chanDst k
  decide (0x80 ≤ d) && d % 4 == 3 && bit (s.get CELL_CFG ((d - 0x80) / 4)) 15

/-- A channel whose holdoff has ended delivers the event it holds (R437), or nothing to input 3 of a flip-flop cell (R434). -/
def State.chanRelease (s : State) (k : Nat) : State × Bool :=
  let c := s.chan k
  if c.held && decide (c.freeAt ≤ s.eventCycle) then
    (if s.chanDeaf k then (s.modChan k (fun x => { x with held := false }), false) else (s.chanDelivers k, true))
  else (s, false)

/-- Whether a channel takes an event: by its configuration, or by the one before the last write for an event that entered in the write's
own cycle. A write has taken earlier ones into the channel register (R436, R438). -/
def State.chanTakes (s : State) (k : Nat) (e : Nat × Nat) : Bool :=
  let now := s.chanOn k && e.2 == s.chanSrc k
  match (s.chan k).old with
  | some (w, on, src) => if e.1 ≤ w then e.1 == w && on && e.2 == src else now
  | none => now

/-- Events of the cycle before reach the channels; the consumers of those delivered, in channel order (R427). An event held to the end
of its holdoff leaves before the next one enters (R437). -/
def State.runChannels (s : State) (fired : List (Nat × Nat)) : State × List Nat :=
  (List.range 64).foldl (fun (r : State × List Nat) k =>
    let h := r.1.chanRelease k
    let t := h.1
    let r := (t, if h.2 then r.2 ++ [t.chanDst k] else r.2)
    let c := t.chan k
    let hit := !t.chanDeaf k && (c.reg || fired.any (t.chanTakes k))
    let t := t.modChan k (fun x => { x with reg := false })
    if hit then
      let u := t.chanArrive k
      (u.1, if u.2 then r.2 ++ [t.chanDst k] else r.2)
    else (t, r.2)) (s, [])

/-! ## LUT cells (R434, R435) -/

/-- Whether OUT_EDGE selects a change of Q to `q`. -/
def edgeChosen (cfg : Nat) (q : Bool) : Bool :=
  match bits cfg 14 13 with
  | 0 => q
  | 1 => !q
  | 2 => true
  | _ => false

/-- A change of Q that has held its new value for GLITCH cycles is reported, if OUT_EDGE selects it (R434). -/
def State.glitchReport (s : State) (c : Nat) : State :=
  let x := s.evt.cells.getD c {}
  if x.timing && decide (x.reportAt ≤ s.eventCycle) then
    let q := s.get CELL_STATE c == 1
    let t := s.modCell c (fun y => { y with timing := false, shown := q })
    if edgeChosen (s.get CELL_CFG c) q then t.emit (0x31 + c) else t
  else s

/-- A cell samples its inputs; a change reported in this cycle leaves before (R434). -/
def State.cellSample (s : State) (ins : List Nat) (c : Nat) : State :=
  let s := s.glitchReport c
  let cfg := s.get CELL_CFG c
  let truth := bits cfg 31 16
  let i (j : Nat) : Nat := b2n (ins.contains (0x80 + 4 * c + j))
  if !bit cfg 15 then
    let idx := 8 * i 3 + 4 * i 2 + 2 * i 1 + i 0
    if idx ≠ 0 ∧ bit truth idx then s.modCell c (fun x => { x with out := true }) else s
  else
    let old := s.get CELL_STATE c == 1
    let q := bit truth (8 * b2n old + 4 * i 2 + 2 * i 1 + i 0)
    let t := s.set CELL_STATE c (b2n q)
    let g := bits cfg 12 9
    if g = 0 then
      let u := t.modCell c (fun x => { x with shown := q, timing := false })
      if q != old && edgeChosen cfg q then u.modCell c (fun x => { x with out := true }) else u
    else t.modCell c (fun x =>
      if q == x.shown then { x with timing := false }
      else if x.timing then x
      else { x with timing := true, reportAt := s.eventCycle + g })

/-- LUT_GLITCH_EXPIRY (R434): Q has held its new value for GLITCH cycles. -/
def execLutGlitchExpiry (dt cell : Nat) (s : State) : Host.Outcome State Fault Refusal :=
  act (decide (cell < 32)) dt s fun s => s.glitchReport cell

/-! ## One event cycle (R427, R431, R432, R604) -/

/-- Pulses cross into the event clock, one of each producer a cycle (R604). -/
def Evt.cross (e : Evt) : Evt :=
  { e with
    fired := e.fired ++ e.xing.map (fun x => (e.cycle, x.1))
    xing := (e.xing.map (fun x => (x.1, x.2 - 1))).filter (fun x => decide (0 < x.2)) }

/-- Pending events whose task is no longer busy act, in a cycle after the one in which it stopped being busy (R432). -/
def State.runPending (s : State) : State :=
  (s.evt.taskPend.filter (fun c => !s.taskBusy c && (c != 0x79 || decide (s.evt.captureEnd < s.evt.cycle)))).foldl (fun t c =>
    ({ t with evt := { t.evt with taskPend := t.evt.taskPend.filter (fun x => x != c) } }).taskAct c) s

/-- Events reach the task inputs; those that meet in one cycle merge (R431). -/
def State.runTasks (s : State) (dsts : List Nat) : State :=
  (dsts.filter (fun c => decide (0 < c) && decide (c < 0x80))).foldl (fun t c => t.reach t.evt.cycle c) s

/-- The event cycle to run: the one after the oldest event or cell output that waits, else the present one (R427). -/
def State.nextCycle (s : State) : Nat :=
  (s.evt.fired.map (fun (e : Nat × Nat) => e.1 + 1) ++ (if s.evt.cells.any Cell.out then [s.evt.cycle + 1] else [])).foldl min s.eventCycle

/-- A cell's output leaves in a cycle (R434). -/
def State.cellFires (s : State) (c : Nat) : State :=
  ({ s with evt := { s.evt with fired := s.evt.fired ++ [(s.evt.cycle, 0x31 + c)] } }).traceEvent (0x31 + c)

/-- One event cycle: cells' outputs leave, pulses cross, channels deliver what entered in the cycle before, tasks act and cells sample
(R427). -/
def State.runCycle (s : State) : State :=
  let n := s.nextCycle
  let fired := s.evt.fired.filter (fun e => decide (e.1 < n))
  let outs := (List.range 32).filter (fun c => (s.evt.cells.getD c {}).out)
  let t := { s with evt := { s.evt with
    cycle := n, fired := s.evt.fired.filter (fun e => !decide (e.1 < n))
    cells := s.evt.cells.map (fun (x : Cell) => { x with out := false }) } }
  let t := outs.foldl State.cellFires t
  let t := { t with evt := t.evt.cross }
  let r := t.runChannels fired
  let t := (r.1.runPending).runTasks r.2
  let ins := t.evt.cellIn ++ r.2.filter (fun c => decide (0x80 ≤ c))
  (List.range 32).foldl (fun u c => u.cellSample ins c) { t with evt := { t.evt with cellIn := [] } }

/-- EVENT_DELIVER (R427): the next event cycle, none before its 4 ns have come; one that comes late stands for the cycle after the oldest
waiting event (DESIGN CHOICE, log entry 201). -/
def execEventDeliver (dt : Nat) (s : State) : Host.Outcome State Fault Refusal :=
  act true dt s fun s => if s.evt.cycle < s.eventCycle then s.runCycle else s

/-- CHAN_HOLDOFF_END (R437): the held event is delivered. -/
def execChanHoldoffEnd (dt chan : Nat) (s : State) : Host.Outcome State Fault Refusal :=
  act (decide (chan < 64)) dt s fun s =>
    let r := s.chanRelease chan
    if r.2 then r.1.consume (s.chanDst chan) else r.1

/-- CHAN_RATE_WINDOW (R437): a window ends and the next one starts without a gap; the limit acts as soon as it is exceeded. -/
def execChanRateWindow (dt chan : Nat) (s : State) : Host.Outcome State Fault Refusal :=
  act (decide (chan < 64)) dt s fun s =>
    let c := s.chan chan
    if s.chanOn chan && decide (c.windowEnd ≤ s.eventCycle) then
      s.modChan chan (fun x => { x with count := 0, windowEnd := x.windowEnd + 250 * s.get CHAN_RATE_WINDOW_US chan })
    else s

/-- TIMER_EXPIRE (R432, R439): the timer emits TIMER_n and is idle; a pending start is delivered in the next cycle. -/
def execTimerExpire (dt n : Nat) (s : State) : Host.Outcome State Fault Refusal :=
  act (decide (n < 16)) dt s fun s =>
    let e := s.evt.timerAt.getD n 0
    if s.get TIMER_STATE n ≠ 0 ∧ e ≤ s.eventCycle then
      let t := (s.set TIMER_STATE n 0).emit (0x51 + n)
      if t.evt.taskPend.contains (0x11 + n) then
        ({ t with evt := { t.evt with
          taskPend := t.evt.taskPend.filter (fun c => c != 0x11 + n)
          timerAt := t.evt.timerAt.set n (e + 1 + t.get TIMER_PERIOD n) } }).set TIMER_STATE n 1
      else t
    else s

/-! ## Events that reach a task input (R429) -/

/-- MARK_PULSE (R429). -/
def execMarkPulse (dt marker : Nat) (s : State) : Host.Outcome State Fault Refusal :=
  act (decide (marker < 16)) dt s fun s => s.taskEvent (0x01 + marker)

/-- TIMER_START (R439). -/
def execTimerStart (dt n : Nat) (s : State) : Host.Outcome State Fault Refusal :=
  act (decide (n < 16)) dt s fun s => s.taskEvent (0x11 + n)

/-- TIMER_STOP (R439). -/
def execTimerStop (dt n : Nat) (s : State) : Host.Outcome State Fault Refusal :=
  act (decide (n < 16)) dt s fun s => s.taskEvent (0x21 + n)

/-- LATCH (R440). -/
def execLatch (dt n : Nat) (s : State) : Host.Outcome State Fault Refusal :=
  act (decide (n < 16)) dt s fun s => s.taskEvent (0x31 + n)

/-- EVT_COUNT (R429). -/
def execEvtCount (dt n : Nat) (s : State) : Host.Outcome State Fault Refusal :=
  act (decide (n < 16)) dt s fun s => s.taskEvent (0x41 + n)

/-- HOST_EVT (R429). -/
def execHostEvt (dt n : Nat) (s : State) : Host.Outcome State Fault Refusal :=
  act (decide (n < 16)) dt s fun s => s.taskEvent (0x51 + n)

/-- ECAT_TOGGLE (R429). -/
def execEcatToggle (dt n : Nat) (s : State) : Host.Outcome State Fault Refusal :=
  act (decide (n < 16)) dt s fun s => s.taskEvent (0x61 + n)

/-- FC_SYNC_GROUP (R413). -/
def execFcSyncGroup (dt group : Nat) (s : State) : Host.Outcome State Fault Refusal :=
  act (decide (group < 4)) dt s fun s => s.taskEvent (0x71 + group)

/-- DET_START (R429). -/
def execDetStart (dt det : Nat) (s : State) : Host.Outcome State Fault Refusal :=
  act (decide (det < 4)) dt s fun s => s.taskEvent (0x75 + det)

/-- PULSE_ZERO (R429). -/
def execPulseZero (dt n : Nat) (s : State) : Host.Outcome State Fault Refusal :=
  act (decide (n < 2)) dt s fun s => s.taskEvent (0x7A + n)

/-- HOLD_REQUEST (R430). -/
def execHoldRequest (dt : Nat) (s : State) : Host.Outcome State Fault Refusal := act true dt s fun s => s.taskEvent 0x7E

/-- TRACE_MARK (R647). -/
def execTraceMark (dt : Nat) (s : State) : Host.Outcome State Fault Refusal := act true dt s fun s => s.taskEvent 0x7F

/-! ## Writes (R428, R435, R438, R441, R442) -/

/-- EVT_SOFT's write (R428). -/
def State.softEvents (s : State) (via : Path) (mask : Nat) : State :=
  if 0xFFFF < mask then s.refuse via (EVT_SOFT.key 0) 0x06070010
  else (List.range 16).foldl (fun t n => if bit mask n then t.emit (0x61 + n) else t) s.accept

/-- EVT_SOFT (R428). -/
def execEvtSoft (dt : Nat) (via : Path) (mask : Nat) (s : State) : Host.Outcome State Fault Refusal :=
  act true dt s fun s => s.softEvents via mask

/-- EVT_SAVE (R441, R611). -/
def State.eventSave (s : State) (via : Path) : State :=
  s.command via EVT_SAVE 0 true (fun t => t.logWrite 7 0 832 (t.snapshot eventObjs))

/-- EVT_SAVE (R441). -/
def execEvtSave (dt : Nat) (via : Path) (s : State) : Host.Outcome State Fault Refusal := act true dt s fun s => s.eventSave via

/-- Whether another enabled channel has an ordinary producer (R425). -/
def State.producerUsed (s : State) (k src : Nat) : Bool :=
  src != 0 && !(decide (0x31 ≤ src) && decide (src ≤ 0x50)) &&
    (List.range 64).any (fun j => j != k && s.chanOn j && s.chanSrc j == src)

/-- Whether a consumer's inputs are taken: four of a task, one of a cell input (R426). -/
def State.consumerFull (s : State) (k dst : Nat) : Bool :=
  dst != 0 && decide ((if dst < 0x80 then 4 else 1) ≤ ((List.range 64).filter (fun j => j != k && s.chanOn j && s.chanDst j == dst)).length)

/-- CHAN_CFG's write; its reserved bits are not held (R9, R425, R426, R436 to R438). -/
def State.writeChan (s : State) (via : Path) (k v : Nat) : State :=
  let on := bit v 31
  let no (r : Nat) : State := (s.set EVT_RESULT 0 r).refuse via (CHAN_CFG.key k) 0x06040043
  if 0xFFFFFFFF < v then s.refuse via (CHAN_CFG.key k) 0x06070010
  else if on && s.producerUsed k (bits v 7 0) then no 1
  else if on && s.consumerFull k (bits v 15 8) then no 2
  else
    let was := s.chanOn k
    let c := s.chan k
    let w := s.eventCycle
    let reg := c.reg || (s.evt.fired.filter (fun e => decide (e.1 < w))).any (s.chanTakes k)
    let old := if c.old.any (fun o => o.1 == w) then c.old else some (w, was, s.chanSrc k)
    let t := ((s.accept.set EVT_RESULT 0 0).set CHAN_CFG k (Nat.land v 0xC000FFFF)).modChan k (fun x => { x with
      reg := reg, old := old, held := x.held && on })
    if on && !was then t.startWindow k else t

/-- CHAN_CFG_WRITE (R438). -/
def execChanCfgWrite (dt : Nat) (via : Path) (chan value : Nat) (s : State) : Host.Outcome State Fault Refusal :=
  act (decide (chan < 64)) dt s fun s => s.writeChan via chan value

/-- CELL_CFG's write; its reserved bits are not held (R9, R435). -/
def State.writeCell (s : State) (via : Path) (c v : Nat) : State :=
  if 0xFFFFFFFF < v then s.refuse via (CELL_CFG.key c) 0x06070010
  else ((s.accept.set CELL_CFG c (Nat.land v 0xFFFFFE00)).set CELL_STATE c 0).modCell c (fun _ => {})

/-- CELL_CFG_WRITE (R435). -/
def execCellCfgWrite (dt : Nat) (via : Path) (cell value : Nat) (s : State) : Host.Outcome State Fault Refusal :=
  act (decide (cell < 32)) dt s fun s => s.writeCell via cell value

/-- EVT_CLEAR's effect (R442). -/
def State.eventClear (s : State) (via : Path) : State :=
  s.command via EVT_CLEAR 0 true (fun t => t.clearAll [EVT_TASK_LOST, TASK_COINCIDENCE, EVT_TASK_REFUSED, EVT_HOLDOFF_LOST, CHAN_RATE_HITS])

/-- EVT_CLEAR (R442). -/
def execEvtClear (dt : Nat) (via : Path) (s : State) : Host.Outcome State Fault Refusal := act true dt s fun s => s.eventClear via

/-! ## Digital inputs (R49, R428, R658, R659) -/

/-- The glitch filter of a digital input, in ns (R658). -/
def inputFilter (i : Nat) : Nat := if i < 14 then 1000 else 100

/-- The latch registers of the slave controller: the DC time of the last rising and the last falling edge of Latch0, then of Latch1,
on inputs 14 and 15 (R522). -/
def State.dcLatch (s : State) (input : Nat) (level : Bool) : State :=
  if input < 14 then s
  else { s with ecat := { s.ecat with latches := s.ecat.latches.set (2 * (input - 14) + (if level then 0 else 1)) s.dc } }

/-- DIGITAL_INPUT_EDGE (R428): an input's level has held through its filter; a rising edge of the splice input gives the armed
switch its count (R49). -/
def execDigitalInputEdge (dt input : Nat) (level : Bool) (held : Nat) (s : State) : Host.Outcome State Fault Refusal :=
  act (decide (input < 16)) dt s fun s =>
    if held < inputFilter input ∨ bit s.motion.inputs input = level ∨ (level ∧ s.get IO_SUPPLY_LOW = 1) then s
    else
      let t := ({ s with motion := { s.motion with inputs := setBit s.motion.inputs input level } }.dcLatch input level).emit
        ((if level then 0x01 else 0x11) + input)
      match t.web.armed, t.web.switchAt with
      | some (1, _, i, off), none =>
        if level ∧ i = input then { t with web := { t.web with switchAt := some (addCount (t.get WEB_COUNT) off) } } else t
      | _, _ => t

end Sys2Proof.Machine
end

