-- ==== Sys2Proof/Machine/Logbook.lean ====
section
/-! DEFINITION. Machine/Logbook.lean: periodic logbook entries, the factory reset, snapshots, wear measurement, fans, and the
sample of the performance counters (R606 to R643, R651). -/
namespace Sys2Proof.Machine
open Reg

/-! ## Periodic entries (R611) -/

/-- The program of a copy fails or not, freely (R610; DESIGN CHOICE, log entry 186). -/
def State.programMayFail (s : State) (copy : Nat) : State :=
  let fr := s.fresh
  if Config.flashFails fr.1 then fr.2.programFails copy else fr.2

/-- LOGBOOK_COUNTERS_TIMER (R611, R617): every 10 minutes the COUNTERS entry is written, unless the supervisor has halted (R443;
DEDUCED, log entry 183); on which copies its program fails is free (DESIGN CHOICE, log entry 186). -/
def execLogbookCountersTimer (dt : Nat) (s : State) : Host.Outcome State Fault Refusal :=
  act true dt s fun s =>
    if s.power.halted = false ∧ s.upkeep.countersAt + 600000000000 ≤ s.now then
      let t := ({ s with upkeep := { s.upkeep with countersAt := s.now } }).commitCounters
      (t.programMayFail 0).programMayFail 1
    else s

/-- What the portfolio's NAND shows on an occasion; the reserve is given in thousandths of all blocks (R621). -/
def nandOf (occasion : Nat) : NandWear :=
  let x := Config.nand occasion
  { retired := x 0, readFails := x 1, reserve := min 1000 (x 2), eraseMax := x 3, eraseMean := x 4 }

/-- The portfolio's objects follow what its NAND shows (R621). -/
def State.nandSeen (s : State) (n : NandWear) : State :=
  let t := { s with nv := { s.nv with nand := some n } }
  let t := (t.set PF_STATE 0 (if n.reserve = 0 then 2 else if n.reserve < 10 then 1 else 0)).set PF_RESERVE_PERMILLE 0 n.reserve
  (t.set PF_ERASE_MAX 0 n.eraseMax).set PF_ERASE_MEAN 0 n.eraseMean

/-- What the WEAR entry holds: ring-oscillator drifts, and correction rates and flash wear as the module sums them up (R611). -/
def State.commitWear (s : State) : State :=
  s.logWrite 0x0B 0 1024 (s.snapshot [RO_DRIFT_TILE, RO_DRIFT_EASEL, LOGBOOK_ERASES_MAX, PF_ERASE_MAX, PF_ERASE_MEAN])
    [(0, s.sramCe.flatMap (fun e => [e.1, e.2.1, e.2.2.1, e.2.2.2]))]

/-- LOGBOOK_WEAR_TIMER (R611, R621): every 24 hours the WEAR entry is written, unless the supervisor has halted (R443; DEDUCED, log
entry 183); what the portfolio shows since the last time is free (DESIGN CHOICE, log entry 186). -/
def execLogbookWearTimer (dt : Nat) (s : State) : Host.Outcome State Fault Refusal :=
  act true dt s fun s =>
    if s.power.halted = false ∧ s.upkeep.wearAt + 86400000000000 ≤ s.now then
      let fr := ({ s with upkeep := { s.upkeep with wearAt := s.now } }).fresh
      let nand := nandOf fr.1
      let t := fr.2.nandSeen nand
      ((t.tallyN PF_BLOCKS_RETIRED 0 nand.retired).tallyN PF_READ_FAIL 0 nand.readFails).commitWear
    else s

/-- "wipe" (R619). -/
def wipeValue : Nat := 0x65706977

/-- LOGBOOK_FACTORY_RESET's write (R619): in DORMANT, settings entries die, jobs and snapshots are freed, and image A runs from
the next cold reset. -/
def State.factoryReset (s : State) (via : Path) (v : Nat) : State :=
  let k := LOGBOOK_FACTORY_RESET.key 0
  if v ≠ wipeValue then s.refuse via k 0x06090030
  else if s.get MODE ≠ 0 then s.refuse via k abortMode
  else
    let dead (t : Nat) : Bool := (decide (4 ≤ t) && decide (t ≤ 0x0A)) || t == 0x0C
    let n := { s.nv with
      live := s.nv.live.filter (fun e => !dead e.typ), older := s.nv.older.filter (fun e => !dead e.typ)
      pkgs := [], saved := [], snaps := [], bulkSlot := [], active := 0, bootTries := 0
      dropStored := false, cal := {} }
    ({ s.accept with nv := n }).clearTally FW_BOOT_FAILS 0

/-- LOGBOOK_FACTORY_RESET (R619). -/
def execLogbookFactoryReset (dt : Nat) (via : Path) (value : Nat) (s : State) : Host.Outcome State Fault Refusal :=
  act true dt s fun s => s.factoryReset via value

/-- LBK_CLEAR's effect (R643). -/
def State.logbookClear (s : State) (via : Path) : State :=
  s.command via LBK_CLEAR 0 true (fun t =>
    t.clearAll [LOGBOOK_COMMIT_FAIL, LOGBOOK_SECTORS_RETIRED, PF_BLOCKS_RETIRED, PF_READ_FAIL])

/-- LBK_CLEAR (R643). -/
def execLbkClear (dt : Nat) (via : Path) (s : State) : Host.Outcome State Fault Refusal := act true dt s fun s => s.logbookClear via

/-! ## Snapshots (R622 to R624) -/

/-- Bytes of the job library and of the snapshot partition (R620). -/
def jobLibrary : Nat := 687194767360

/-- Bytes of the snapshot partition (R620). -/
def snapPartition : Nat := 206158430208

/-- Bytes of the job library that packages leave free (R620). -/
def State.jobBytesFree (s : State) : Nat := jobLibrary - (s.nv.pkgs.map (fun e => e.2.length)).sum

/-- Bytes of the snapshot partition that are free (R623). -/
def State.snapBytesFree (s : State) : Nat := snapPartition - (s.nv.snaps.map Snapshot.size).sum

/-- The bytes of a strip block (R624). -/
def State.snapBlock (s : State) (v : Nat) : Nat := 128 + (s.kept v).length * 256 * s.rowPitch v

/-- The snapshot a slot holds. -/
def State.snapOf (s : State) (slot : Nat) : Option Snapshot := s.nv.snaps.find? (fun x => x.slot == slot)

/-- A slot's snapshot is freed. -/
def State.snapFree (s : State) (slot : Nat) : State :=
  { s with nv := { s.nv with snaps := s.nv.snaps.filter (fun x => x.slot != slot) } }

/-- SNAP_TAKE's write (R622, R623). -/
def State.snapTake (s : State) (via : Path) (slot : Nat) : State :=
  let k := SNAP_TAKE.key 0
  let m := s.get MODE
  let v := s.get SNAP_VIEW
  let size := 64 + s.get SNAP_STRIPS * s.snapBlock v
  let room := s.snapBytesFree + ((s.snapOf slot).map Snapshot.size).getD 0
  if 63 < slot then s.refuse via k 0x06090031
  else if m ≠ 1 ∧ m ≠ 2 ∧ m ≠ 3 then s.refuse via k abortMode
  else if s.get SNAP_STATE = 1 then s.refuse via k abortBusy
  else if (s.strip v (s.get SNAP_FIRST_STRIP)).isNone then s.refuse via k abortMode
  else if s.get PF_STATE = 2 ∨ room < size then (s.set SNAP_STATE 0 3).refuse via k 0x06040043
  else
    let t : State := { s.accept.snapFree slot with
      upkeep := { s.upkeep with snap := some (v, slot, s.get SNAP_FIRST_STRIP, s.get SNAP_STRIPS, s.dc) } }
    t.set SNAP_STATE 0 1

/-- SNAP_TAKE (R622). -/
def execSnapTake (dt : Nat) (via : Path) (slot : Nat) (s : State) : Host.Outcome State Fault Refusal :=
  act true dt s fun s => s.snapTake via slot

/-- A snapshot's bytes: header, then each strip that is still retained, or a missing one (R622, R624; DESIGN CHOICE, log
entry 53: the strips are those retained when the copy ends). -/
def State.snapBytes (s : State) (v first n dc : Nat) : List Byte :=
  let size := (s.kept v).length * 256 * s.rowPitch v
  let missing := ((List.range n).filter (fun i => (s.strip v (first + i)).isNone)).length
  let head := [0x4B, 0x53, 0x4E, 0x50, v, s.get VIEW_PLANES v, 0, 0] ++ leBytes 8 first ++ leBytes 4 n ++ leBytes 4 missing ++
    leBytes 4 (s.get VIEW_WIDTH v) ++ leBytes 4 (s.rowPitch v) ++ leBytes 8 dc ++ List.replicate 20 0
  head ++ leBytes 4 (crc32c head) ++ (List.range n).flatMap (fun i =>
    match s.strip v (first + i) with
    | some x => s.stripHeader v x ++ s.dramRead (s.slotAddr v (first + i) + 4096) size
    | none => leBytes 8 (first + i) ++ List.replicate (120 + size) 0)

/-- SNAP_DONE (R622, R623): the copy ends; one the portfolio cannot take ends FAILED and its slot is empty. -/
def execSnapDone (dt : Nat) (s : State) : Host.Outcome State Fault Refusal :=
  act true dt s fun s =>
    match s.upkeep.snap with
    | none => s
    | some (v, slot, first, n, dc) =>
      let t := ({ s with upkeep := { s.upkeep with snap := none } }).snapFree slot
      if s.get PF_STATE = 2 then t.set SNAP_STATE 0 3
      else
        let x : Snapshot := { slot := slot, bytes := t.snapBytes v first n dc, size := 64 + n * t.snapBlock v }
        ({ t with nv := { t.nv with snaps := t.nv.snaps ++ [x] } }).set SNAP_STATE 0 2

/-- SNAP_DELETE's write (R622): a slot being filled is busy. -/
def State.snapDelete (s : State) (via : Path) (slot : Nat) : State :=
  let k := SNAP_DELETE.key 0
  if 63 < slot then s.refuse via k 0x06090031
  else if s.upkeep.snap.any (fun x => x.2.1 == slot) then s.refuse via k abortBusy
  else s.accept.snapFree slot

/-- SNAP_DELETE (R622). -/
def execSnapDelete (dt : Nat) (via : Path) (slot : Nat) (s : State) : Host.Outcome State Fault Refusal :=
  act true dt s fun s => s.snapDelete via slot

/-! ## Wear, fans (R632 to R635) -/

/-- RO_MEASURE (R632, R633): the drift of each tile and easel that is powered as the measurement begins, in ‰; a unit more than 6 %
slow is marked. -/
def execRoMeasure (dt : Nat) (tiles easels : List Int) (s : State) : Host.Outcome State Fault Refusal :=
  act true dt s fun s =>
    let one (kind : Nat) (o : Obj) (power : Nat → Bool) (t : State) (e : Int × Nat) : State :=
      if power e.2 then
        let u := t.setInt o e.2 e.1
        if 60 < e.1 then (u.markUnit kind e.2 1).restDomain kind e.2 else u
      else t
    let t := (tiles.take 104).zipIdx.foldl (one 0 RO_DRIFT_TILE (fun p => s.get PD_STATE (p / 4) == 1)) s
    (easels.take 7).zipIdx.foldl (one 1 RO_DRIFT_EASEL (fun p => s.get PD_STATE (26 + p) == 1)) t

/-- FAN_DEFICIT (R632, R635): a fan below 80 % of its commanded speed for 60 s is marked and retired. -/
def execFanDeficit (dt fan : Nat) (s : State) : Host.Outcome State Fault Refusal :=
  act (decide (fan < 6)) dt s fun s =>
    if s.get FAN_STATE fan = 1 then s
    else (((s.addMark 5 fan 6).commitSpareMap).set FAN_STATE fan 1).traceRec 4 66 (5 * 256 + 3) fan 0

/-- FAN_TRAY_CHANGE (R635): a tray of another serial: every fan returns to IN_USE and the tray's life starts again. -/
def execFanTrayChange (dt : Nat) (serial : List Nat) (s : State) : Host.Outcome State Fault Refusal :=
  act true dt s fun s =>
    if s.blob FAN_TRAY_SERIAL = serial then s
    else
      let t := { s with marks := s.marks.filter (fun m => m.kind != 5) }
      let t := (List.range 6).foldl (fun u f =>
        if u.get FAN_STATE f = 0 then u else (u.set FAN_STATE f 0).traceRec 4 66 (5 * 256) f 0) t
      ((t.setBlob FAN_TRAY_SERIAL 0 serial).set FAN_TRAY_MINUTES 0 0).commitSpareMap

/-! ## Performance counters (R651) -/

/-- The performance counters in ascending order (R651). -/
def perfObjs : List Obj :=
  [DRAM_RD_BYTES, DRAM_WR_BYTES, TILE_BUSY_CLOCKS, EASEL_BUSY_CLOCKS, WHARF_HOST_RD_BYTES, WHARF_HOST_WR_BYTES, ECAT_FRAMES,
   ECAT_FRAME_ERR, HL_WINDOW_ACCESSES, SUPERVISOR_BUSY_NS]

/-- Those that only hardware activity moves, which no command brings: DRAM traffic, network frames and processor time (R651). -/
def freeCounters : List Obj := [DRAM_RD_BYTES, DRAM_WR_BYTES, ECAT_FRAMES, ECAT_FRAME_ERR, SUPERVISOR_BUSY_NS]

/-- A counter that only hardware activity moves grows by a free amount (DESIGN CHOICE, log entry 54). -/
def State.growFree (s : State) (o : Obj) (i : Nat) : State :=
  s.fresh.2.volume o i (Config.measured s.fresh.1)

/-- What the module's units have done since they were last looked at, in every counter that only hardware activity moves. -/
def State.perfMeasure (s : State) : State :=
  freeCounters.foldl (fun t o => (List.range o.count).foldl (fun u i => u.growFree o i) t) s

/-- OBS_SAMPLE_TIMER (R651): every millisecond the counters are copied into the sample block with sequence and time. -/
def execObsSampleTimer (dt : Nat) (s : State) : Host.Outcome State Fault Refusal :=
  act true dt s fun s =>
    if s.upkeep.sampleAt + 1000000 ≤ s.now then
      let t := (({ s with upkeep := { s.upkeep with sampleAt := s.now } }).perfMeasure).volume OBS_SAMPLE_SEQ 0
      t.setBlob OBS_SAMPLE 0 (leBytes 8 (t.get OBS_SAMPLE_SEQ) ++ leBytes 8 t.dc ++
        perfObjs.flatMap (fun o => (List.range o.count).flatMap (fun i => leBytes 8 (t.get o i))))
    else s

end Sys2Proof.Machine
end

