-- ==== Sys2Proof/Machine/Reset.lean ====
section
/-! DEFINITION. Machine/Reset.lean: warm and cold resets, power-on, and the I/O supply (R57, R131, R343, R412, R511, R515,
R536, R543, R549, R563, R589 to R596, R606 to R619, R641, R642, R659). -/
namespace Sys2Proof.Machine
open Reg

/-! ## What both resets share -/

/-- The record-ID series resumes at the end of the stored block (R343). -/
def State.resumeIds (s : State) : State :=
  let e := ((s.nv.entry 3 0).bind (fun x => x.regs.look 0)).getD 0
  { s with asm := { s.asm with blockEnd := e } }.set DEF_NEXT_ID 0 e

/-- The trim baselines are those of the last stored full calibration (R563). -/
def State.storedBase (s : State) : State :=
  (List.range 12).foldl (fun t b => t.setInt TRIM_BASE_MC b (t.nv.cal.base.getD b (0, [])).1)
    { s with trim := { s.trim with base := s.nv.cal.base } }

/-- A channel of the twelve that no package serves keeps DRAM_FATAL standing (R454). -/
def State.dramShort (s : State) : Bool :=
  (List.range 12).any (fun c => (List.range 13).all (fun p => s.get DRAM_PKG_CHANNEL p != c || s.get DRAM_PKG_STATE p != 0))

/-- A reset completes: its cause, time and tally, and a RESET record (R589, R647). -/
def State.resetDone (s : State) (o : Obj) (cause : Nat) : State :=
  let t := (s.set RESET_CAUSE_LAST 0 cause).tally o
  (t.set RESET_TIME_LAST 0 t.dc).traceRec 3 66 cause (t.get RESET_WARM_COUNT) (t.get RESET_COLD_COUNT)

/-- A hold cause that stands after a reset takes the M12 from DORMANT into HOLD at once (R78, R81). -/
def State.standingCauses (s : State) : State := if s.get HOLD_CAUSE ≠ 0 then s.enterHold true else s

/-! ## Warm reset (R589 to R592) -/

/-- A job switch at a warm reset (R52): what is armed is cancelled, what is under way ends; a load waits for READY. -/
def State.switchReset (s : State) : State :=
  match s.get SWITCH_STATE with
  | 3 => s.disarm
  | 4 => (({ s with web := { s.web with oldJob := none } }).set SWITCH_STATE 0 0).set SWITCH_RESULT 0 0
  | _ => s

/-- Every ring is disabled; its output stages (R591). -/
def State.ringsOff (s : State) (f : Nat → Bool) : State :=
  (List.range 5).foldl (fun t r =>
    if f r then (t.set RING_ENABLE r 0).modRing r (fun x => { x with causeAt := none }) else t) s

/-- Every driver holds its present current (R549, R595). -/
def State.barsHeld (s : State) : State :=
  { s with
    trim := { s.trim with dark := none }
    bars := s.bars.zipIdx.map (fun (e : Bar × Nat) =>
      { e.1 with hold := if s.get BAR_CURRENT_MA e.2 = 0 then none else some (s.get BAR_CURRENT_MA e.2) }) }

/-- Self-tests and checks of reset islands end without a verdict; DRAM controllers keep running (DEDUCED, log entry 55). -/
def State.testsEnd (s : State) : State :=
  let t := if s.bench.easelTest.isSome then s.set EASEL_SELFTEST_RESULT 0 0 else s
  let t := if s.bench.tileTest.isSome then t.set TILE_SELFTEST_RESULT 0 0 else t
  let t := (List.range 13).foldl (fun u q =>
    if ((s.quads.getD q {}).test).isSome then u.set SLICE_SELFTEST_RESULT q 0 else u) t
  { t with
    bench := { t.bench with easelTest := none, easelCheck := none, tileTest := none, tileCheck := none }
    quads := t.quads.map (fun q => { q with test := none, check := none, loop := none, loopFar := false }) }

/-- The work in hand of the switched domains is lost: lines, strips not complete, repeats, tasks, candidates and crops. Complete
strips stay in the canvas and leave no further work (DEDUCED, log entry 56). -/
def State.loseWork (s : State) : State :=
  let keep (v : Nat) (x : CStrip) : CStrip := { x with
    released := true, issued := true, left_ := true, archive := false, crops := [], header := s.stripHeader v x }
  let t := { s.dropInFlight with
    regs := List.replicate 4 {}
    tiles := List.replicate 96 {}
    tideNext := none
    asm := {}
    web := { s.web with open_ := none, closing := [], done := [], entry := none, splits := [], sched := {} }
    trig := { s.trig with calNext := none }
    cal := {} }
  { t with
    bays := t.bays.map (fun b => { b with stats := [], prev := [], pairLine := none, tagOf := none, delivered := false })
    easels := t.easels.map (fun e => { e with heldB := false, takeover := false, misses := 0 })
    views := t.views.zipIdx.map (fun (e : View × Nat) => { e.1 with
      strips := (e.1.strips.filter CStrip.complete).map (keep e.2), holding := false, clamped := [] }) }

/-- MODE returns to DORMANT and a pending transition is cancelled (R57, R590). -/
def State.dormantAgain (s : State) : State :=
  let p := s.get MODE_PENDING
  let t := if p = 0xFF then s else ((s.modeResult 11).traceRequest p 11).toPending 0xFF
  (if t.get MODE = 0 then t else t.setMode 0 t.lastLine).set HOLD_FROM_DORMANT 0 0

/-- What the ferries into the switched domains hold is discarded as they are reset (R602). -/
def State.ferriesDrain (s : State) : State :=
  { s.tallyN FERRY_DISCARD 0 (s.bays.map (fun b => b.ferry.length)).sum with bays := s.bays.map (fun (b : Bay) => { b with ferry := [] }) }

/-- A warm reset (R589 to R592, R595). The repeats in work are closed and what was not inspected of them is covered, as a flush covers
it, so that no area is skipped silently (R35, R36; the cause is DEDUCED, log entry 56). COMMAND and ISLAND_FAIL clear, SUPERVISOR at a
supervisor restart; the causes that stand lead into HOLD. -/
def State.warmReset (s : State) (cause : Nat) : State :=
  let t := s.suspendLines.dormantAgain
  let t := (t.jobsCut 14).switchReset.testsEnd.barsHeld
  let t := (t.ringsOff (fun _ => true)).ferriesDrain
  let t := (if s.asDormant then t else t.flushPath.dropOpen t).loseWork.powerDownDomains
  let t := t.set TIDE_PENDING 0 0
  let t := { t with host := { t.host with pt := [] } }
  let t := t.resumeIds.storedBase.commitCounters
  let hc := t.get HOLD_CAUSE
  let hc := setBit (setBit hc 0 false) 2 false
  let hc := if cause = 5 then setBit hc 1 false else hc
  let u := (t.toCause hc).emcyCleared s
  ((u.resetDone RESET_WARM_COUNT cause).emcy 0xFF07 0).standingCauses

/-- RESET_WARM (R589, R592): RESET_REQUEST 1, accepted in every mode. -/
def execResetWarm (dt : Nat) (via : Path) (s : State) : Host.Outcome State Fault Refusal :=
  act true dt s fun s => s.command via RESET_REQUEST 0 true (fun t => t.warmReset 1)

/-- SUPERVISOR_RESTART (R593): the watchdog is still not serviced 2 s after it expired. -/
def execSupervisorRestart (dt : Nat) (s : State) : Host.Outcome State Fault Refusal :=
  act true dt s fun s =>
    match s.power.wdtAt with
    | some t =>
      if t + 2000000000 ≤ s.now then
        ({ s with power := { s.power with wdtAt := none, halted := false } }.tally SUPERVISOR_RESTARTS).warmReset 5
      else s
    | none => s

/-! ## Cold reset (R589, R606, R616) -/

/-- The logbook is read again: live entries that only one copy holds are written to the other as new entries (R616). -/
def State.reconcile (s : State) : State :=
  let one := if s.nv.copy0 && s.nv.copy1 then s.nv.lives.filter (fun e => e.in0 != e.in1) else []
  let v := one.foldl (fun u e => u.write e) s.nv
  (((({ s with nv := v }.set LOGBOOK_SEQ 0 v.seq).set LOGBOOK_HEAD_SECTOR 0 v.head).set LOGBOOK_STATE 0
    (b2n (!(v.copy0 && v.copy1)))).volume LOGBOOK_COMMITS 0 one.length).set LOGBOOK_RECONCILED 0 one.length

/-- The objects that tell which physical unit serves which place; with the unit states, the spare map (R630). -/
def placeObjs : List Obj := [TILE_PHYS, EASEL_PHYS, LANE_SLICE, DRAM_PKG_CHANNEL]

/-- Units return in their committed states with their places (R630); fans and stages in theirs (R635, R636). -/
def State.unitsBack (s old : State) : State :=
  let t := (s.restore placeObjs (old.snapshot placeObjs)).restore spareMapObjs
    (((s.nv.entry 2 0).map LogEntry.regs).getD (s.snapshot spareMapObjs))
  let t := (List.range 6).foldl (fun u f => u.set FAN_STATE f (b2n (s.marks.any (fun m => m.kind == 5 && m.unit == f)))) t
  (List.range 3).foldl (fun u i => u.set PSU_STAGE_STATE i (old.get PSU_STAGE_STATE i)) t

/-- The persisted counters come back with their SAT bits (R637, R641); bars are known by the serials stored with them (R555). -/
def State.countersBack (s : State) : State :=
  match s.nv.entry 1 0 with
  | none => s
  | some e =>
    let os := countersObjs.filter (fun o => o.base != FAN_STATE.base && o.base != PSU_STAGE_STATE.base)
    let t := s.restore os e.regs
    let serial (ch : Nat) : Option (List Byte) :=
      match e.blobs.look ch with
      | some [] => none
      | x => x
    { t with
      sat := ((e.blobs.look 12).getD []).foldl (fun l k => insertNat k l) t.sat
      bars := t.bars.zipIdx.map (fun (b : Bar × Nat) => { b.1 with serial := serial b.2 }) }

/-- Every bay's gain is in force from the next line (R135). -/
def State.gainsBack (s : State) : State :=
  { s with bays := s.bays.zipIdx.map (fun (b : Bay × Nat) => { b.1 with gains := [(0, s.get CAMERA_GAIN b.2)] }) }

/-- The stored set of parameters is applied, unless "load" has discarded it (R135, R536). -/
def State.parametersBack (s : State) : State :=
  if s.nv.dropStored then
    { s with nv := { s.nv with
      dropStored := false, live := s.nv.live.filter (fun e => e.typ != 4), older := s.nv.older.filter (fun e => e.typ != 4) } }
  else
    match s.nv.entry 4 0 with
    | none => s
    | some e =>
      let t := e.regs.foldl (fun (u : State) (x : Nat × Nat) =>
        match findObj x.1 with
        | some (o, i) => u.set o i x.2
        | none => u) s
      { t.gainsBack with
        blobs := e.blobs.foldl (fun (d : Blobs) (x : Nat × List Byte) => d.put x.1 x.2) t.blobs
        written := e.regs, writtenBlobs := e.blobs }

/-- Committed banks and presets of the filter chain are applied (R412); every group settles (R413). -/
def State.filtersBack (s : State) : State :=
  (List.range 4).foldl (fun t g =>
    match t.nv.entry 6 g with
    | none => t
    | some e =>
      let p := (e.regs.look 0).getD (FC_PRESET.dflt g)
      (t.set FC_PRESET g p).modGrp g (fun x => { x with
        active := e.blobs.look 0, standby := none, settle := presetSettle p, nextAt := presetPeriod p })) s

/-- What the valid entries name comes back: the blob of the CALIBRATION entry (R609, R612), and the packages whose slots have a
PORTFOLIO entry (R615, R620). -/
def State.storesBack (s : State) : State :=
  { s with nv := { s.nv with
    cal := ((s.nv.entry 5 0).bind LogEntry.cal).getD {}, pkgs := s.nv.pkgs.filter (fun e => (s.nv.entry 0x0A e.1).isSome) } }

/-- The stored calibration's objects come back (R555, R562, R563, R611). -/
def State.calibrationBack (s : State) : State :=
  let c := s.nv.cal
  let r := c.records.headD []
  let t := { s.storedBase with bars := s.bars.zipIdx.map (fun (b : Bar × Nat) =>
    { b.1 with phiCal := (c.bars.getD b.2 (0, 0)).1, iCal := (c.bars.getD b.2 (0, 0)).2 }) }
  let t := (List.range 4).foldl (fun u v => u.set VIEW_PITCH_UM v (c.pitch.getD v 0)) t
  ((t.set CAL_STALE_VIEWS 0 c.stale).set CAL_STORED_TIME 0 (natAt r 0 8)).setBlob CAL_RECORD 0 r

/-- The host link comes up in its stored configuration (R481). -/
def State.hostlinkBack (s : State) : State :=
  match (s.nv.entry 8 0).bind (fun e => e.regs.look 0) with
  | some v => (s.set HL_LINK_MODE 0 v).set HL_LINK_MODE_ACTIVE 0 v
  | none => s

/-- The revision of an image: of one that FoE or FW_STORE brought its header's, else of the firmware as delivered (R541, R542). -/
def imageRevision (image : List Byte) : Nat := if image.isEmpty then Config.fwRevision else natAt image 4 4

/-- Image A or B. -/
def Nv.image (v : Nv) (i : Nat) : List Byte := if i = 0 then v.imageA else v.imageB

/-- The image that runs (R541, R543): each boot that failed is tallied, the third of a newly activated image in a row returns to
the previous one, and the image that reaches DORMANT is confirmed; the image that ran before is a VALID standby image. -/
def State.bootFirmware (s : State) (fails : Nat) : State :=
  let tries := s.nv.bootTries + fails
  let a := if s.nv.active ≠ s.nv.previous ∧ 3 ≤ tries then s.nv.previous else s.nv.active
  let standby := if a ≠ s.nv.previous then 1 else s.nv.standby
  let t := { s.tallyN FW_BOOT_FAILS 0 fails with nv := { s.nv with active := a, previous := a, bootTries := 0, standby := standby } }
  let t := (t.set FW_IMAGE_ACTIVE 0 a).set FW_REVISION 0 (imageRevision (t.nv.image a))
  let t := (t.set FW_STANDBY_STATE 0 standby).set FW_STANDBY_REVISION 0 (if standby = 1 then imageRevision (t.nv.image (1 - a)) else 0)
  t.logWrite 9 0 8 [(0, a), (1, standby), (2, 0)]

/-- The module after a cold reset and before its firmware runs: every state at its default but what the logbook, the portfolio
and the world outside keep (R606). -/
def State.coldStart (old : State) : State :=
  let r : State := State.reset
  let s : State := { r with
    pending := old.pending, nv := old.nv, decls := old.decls, fails := old.fails, marks := old.marks, free := old.free
    host := { r.host with hostMem := old.host.hostMem }
    motion := { r.motion with ab := old.motion.ab, inputs := old.motion.inputs } }
  let s := ((s.setBlob FAN_TRAY_SERIAL 0 (old.blob FAN_TRAY_SERIAL))).set IDENTITY_MISMATCH 0 (b2n (!old.nv.identityOk))
  let s := match old.nv.nand with
    | some n => s.nandSeen n
    | none => s
  (List.range 3).foldl (fun t i => t.setBlob PSU_SERIAL i (old.blob PSU_SERIAL i)) s

/-- The jobs that a cold reset ended read RESET (R462). -/
def State.jobsReset (s old : State) : State :=
  (List.range 32).foldl (fun t n =>
    if n = 0 ∨ n = 1 ∨ n = 6 then
      (if old.ownBusy n then t.modRing (if n = 6 then 3 else n) (fun x => { x with job := 14 }) else t)
    else if n = 7 then (if old.ownBusy 7 then t.set WH_STATUS 7 14 else t)
    else if n < 6 then (if [1, 2, 5].contains (old.get WH_STATUS n) then t.set WH_STATUS n 14 else t)
    else if (old.job n).isSome then t.set WH_STATUS n 14
    else t) s

/-- A cold reset (R589, R606, R616, R641): `fails` boots of the image fail before one reaches DORMANT. -/
def State.coldReset (s : State) (cause fails : Nat) : State :=
  let t := (s.coldStart.jobsReset s).reconcile.storesBack
  let t := (((t.unitsBack s).countersBack.hostlinkBack).parametersBack.filtersBack).calibrationBack
  let t := t.resumeIds.bootFirmware fails
  let t := match s.dramUnit.moving with
    | some (p, _) => { t.set DRAM_MIGRATE_STATE 0 3 with dramUnit := { t.dramUnit with again := some p } }
    | none => t
  let t := { t with trig := { t.trig with applied := t.stagedSet } }
  let t := (if t.dramShort then t.toCause 8 else t).resetDone RESET_COLD_COUNT cause
  t.standingCauses

/-- RESET_COLD (R589, R590, R611): RESET_REQUEST 2; the counters are written first. -/
def execResetCold (dt : Nat) (via : Path) (bootFails : Nat) (s : State) : Host.Outcome State Fault Refusal :=
  act true dt s fun s => s.command via RESET_REQUEST 0 true (fun t => t.commitCounters.coldReset 2 bootFails)

/-- RESET_BUTTON (R589): released after less than 2 s, or held for 5 s or longer. -/
def execResetButton (dt heldMs bootFails : Nat) (s : State) : Host.Outcome State Fault Refusal :=
  act true dt s fun s =>
    if heldMs < 2000 then s.warmReset 3 else if heldMs < 5000 then s else s.coldReset 4 bootFails

/-- AO_BROWNOUT (R589). -/
def execAoBrownout (dt bootFails : Nat) (s : State) : Host.Outcome State Fault Refusal :=
  act true dt s fun s => s.coldReset 8 bootFails

/-- A stage is found at power-on (R578, R636): one of another serial is OK and starts new counts, none is ABSENT, a retired one
stays so, and a fault is over. -/
def State.stageFound (s : State) (i : Nat) (serial : Option (List Byte)) : State :=
  let same (t : State) : State :=
    t.set PSU_STAGE_STATE i (if t.marks.any (fun m => m.kind == 4 && m.unit == i) then 3 else 0)
  match serial with
  | none => same s
  | some [] => s.set PSU_STAGE_STATE i 2
  | some x =>
    if s.blob PSU_SERIAL i = x then same s
    else
      let t := { s with marks := s.marks.filter (fun m => !(m.kind == 4 && m.unit == i)) }
      (((t.setBlob PSU_SERIAL i x).set PSU_LIFE_FAULTS i 0).set PSU_ON_MINUTES i 0).set PSU_STAGE_STATE i 0

/-- Why the module starts: after a thermal trip, after a power-down, or at first (R589). -/
def State.powerCause (s : State) : Nat := if s.power.tripped then 6 else if s.power.offAt.isSome then 7 else 0

/-- The stages found take the places of those known before. -/
def State.stagesFound (s : State) (stages : List (List Nat)) : State :=
  (List.range 3).foldl (fun t i => t.stageFound i stages[i]?) s

/-- POWER_ON (R580, R589, R597): a cold start; after a thermal trip not before 60 s have passed. -/
def execPowerOn (dt : Nat) (stages : List (List Nat)) (bootFails : Nat) (s : State) : Host.Outcome State Fault Refusal :=
  let s := s.advance dt
  if s.power.tripped ∧ s.now < (s.power.offAt.getD 0) + 60000000000 then .next s
  else .next { (s.coldReset s.powerCause bootFails).stagesFound stages with pending := s.pending }

/-! ## The I/O supply (R659, R663) -/

/-- The measured supply, and whether it is low: the tally counts each fall, and digital inputs then read 0 (R659). -/
def State.ioSupply (s : State) (milliVolt : Nat) : State :=
  let low := decide (milliVolt < 18000)
  let t := (s.set IO_SUPPLY_MV 0 milliVolt).set IO_SUPPLY_LOW 0 (b2n low)
  if low && s.get IO_SUPPLY_LOW == 0 then
    (List.range 16).foldl (fun u i =>
      if bit u.motion.inputs i then
        ({ u with motion := { u.motion with inputs := setBit u.motion.inputs i false } }).emit (0x11 + i)
      else u) (t.tally IO_SUPPLY_LOSS)
  else t

/-- IO_SUPPLY_LOW (R659). -/
def execIoSupplyLow (dt milliVolt : Nat) (s : State) : Host.Outcome State Fault Refusal := act true dt s fun s => s.ioSupply milliVolt

/-- IO_SUPPLY_RETURN (R659). -/
def execIoSupplyReturn (dt milliVolt : Nat) (s : State) : Host.Outcome State Fault Refusal := act true dt s fun s => s.ioSupply milliVolt

end Sys2Proof.Machine
end

