-- ==== Sys2Proof/Machine/Reading.lean ====
section
/-! DEFINITION. Machine/Reading.lean: what the objects read as: values the module works out when they are read, mirror objects, and
the contents of strings and domains (R76, R167, R491, R525 to R527, R532, R537, R538, R541, R622, R628 to R650). -/
namespace Sys2Proof.Machine
open Reg

/-! ## Spares and retired units (R628 to R643) -/

/-- How many units of a kind are in a state. -/
def State.unitsIn (s : State) (kind st : Nat) : Nat :=
  let o := unitStateObj kind
  countBelow o.count (fun u => s.get o u == st)

/-- Spare slices of a quad. -/
def State.quadSpares (s : State) (q : Nat) : Nat := countBelow 5 (fun x => s.get SLICE_STATE (5 * q + x) == 1)

/-- SPARE_SLICES_MIN: the fewest spare slices of any quad in use; 1 when no quad is (R631). -/
def State.sparesMin (s : State) : Nat :=
  (((List.range 13).filter s.quadUsed).map s.quadSpares).min?.getD 1

/-- Fans that are not retired (R635). -/
def State.fansInUse (s : State) : Nat := countBelow 6 (fun f => s.get FAN_STATE f == 0)

/-- NO_SPARE_MASK (R631). -/
def State.noSpare (s : State) : Nat :=
  b2n (s.unitsIn 0 1 == 0) + 2 * b2n (s.unitsIn 1 1 == 0) +
    4 * b2n ((List.range 13).any (fun q => s.quadUsed q && s.quadSpares q == 0)) + 8 * b2n (s.unitsIn 3 1 == 0) +
    16 * b2n (s.get POWER_REDUNDANT == 0) + 32 * b2n (decide (s.fansInUse < 6)) +
    64 * b2n (s.get PF_STATE != 0 || s.get LOGBOOK_STATE == 1)

/-- RETIRED_COUNT: retired units of every kind, stages and fans included (R625). -/
def State.retiredCount (s : State) : Nat :=
  s.unitsIn 0 3 + s.unitsIn 1 3 + s.unitsIn 2 3 + s.unitsIn 3 3 + countBelow 3 (fun i => s.get PSU_STAGE_STATE i == 3) +
    (6 - s.fansInUse)

/-- QUARANTINE_COUNT. -/
def State.quarantineCount (s : State) : Nat := s.unitsIn 0 2 + s.unitsIn 1 2 + s.unitsIn 2 2 + s.unitsIn 3 2

/-! ## Status (R76, R489, R526) -/

/-- CAL_VALID (R76). -/
def State.calValid (s : State) : Bool := s.fullCal && !s.staleView

/-- STATUS_WORD (R526). -/
def State.statusWord (s : State) : Nat :=
  b2n (s.get MODE == 3) + 2 * b2n (s.get MODE == 5) + 4 * b2n (s.get MODE_PENDING != 0xFF) + 8 * b2n s.calValid +
    16 * b2n (s.get ENC_FAULT != 0) + 32 * b2n (s.get OBS_STATE == 1) + 64 * b2n (s.get SWITCH_STATE == 3) +
    128 * b2n (s.get SWITCH_STATE == 4) + 256 * b2n s.web.blindLast + 512 * b2n (s.noSpare != 0) +
    1024 * b2n ((s.fn 0).up || (s.fn 1).up) + 2048 * b2n (s.get DC_LOCKED == 1)

/-- HL_STATUS of the fast-path page (R489). -/
def State.hlStatus (s : State) : Nat :=
  s.get MODE + 8 * b2n (s.get MODE_PENDING != 0xFF) + 16 * s.get WH_ALL_STOPPED + 32 * b2n s.calValid

/-- PDO_WEB_COUNT and PDO_WEB_SPEED: with DC SYNC0 what the last SYNC0 sampled, else their sources (R527). -/
def State.pdoFollows (s : State) (o source : Obj) : Nat := if s.get ECAT_SYNC_MODE = 2 then s.get o else s.get source

/-! ## The M8 mirror (R537, R538) -/

/-- A quotient by an even `b` rounded to nearest; R537 states no direction for ties but that of M8_LINE_PITCH. -/
def divNearFree (n : Int) (b : Nat) (free : Nat) : Int :=
  let r := n % (b : Int)
  if 2 * r = b then n / (b : Int) + (Config.measured free % 2 : Nat) else (2 * n + b) / ((2 * b : Nat) : Int)

/-- M8_MODE (R537). -/
def State.m8Mode (s : State) : Nat := if s.get MODE < 4 then s.get MODE else 4

/-- M8_LINE_PITCH; a pitch that rounds to 65,536 has no stated reading. -/
def State.m8Pitch (s : State) : Nat :=
  let v := divRoundUp (s.get LINE_PITCH) 65536
  if v < 65536 then v else Config.measured s.free

/-- M8_WEB_SPEED in m/min, saturating. -/
def State.m8Speed (s : State) : Int := clampInt (-32768) 32767 (divNearFree (s.int WEB_SPEED_MM_S * 3) 50 s.free)

/-- M8_STATUS (R538). -/
def State.m8Status (s : State) : Nat := s.statusWord % 256 + 32768 * b2n (decide (2 ^ 32 ≤ s.get REJECT_BITMAP))

/-! ## Values worked out on a read -/

/-- The highest open strip of a view. -/
def State.highestStrip (s : State) (v : Nat) : Option Nat := ((s.view v).strips.map CStrip.num).max?

/-- CANVAS_OLDEST_STRIP (R228). -/
def State.oldestStrip (s : State) (v : Nat) : Nat :=
  match s.highestStrip v with
  | some n => n + 1 - s.ringDepth
  | none => 0

/-- A measured value the model does not know. -/
def State.sensed (s : State) (_ : Nat) : Nat := Config.measured s.free

/-- Such a counter is live: it has grown by a free amount since the last sample (R651; DESIGN CHOICE, log entry 54). -/
def State.grown (o : Obj) (s : State) (i : Nat) : Nat := s.get o i + Config.measured s.free

/-- The quantity of a view that its tide bank enables, else 0. -/
def State.ofTide (s : State) (f : List Byte → Nat → Nat) (v : Nat) : Nat :=
  if tideEnabled s.activeImage v then f s.activeImage v else 0

/-- Objects of the web, the modes, the bays and the image path that are worked out when they are read. -/
def computedA : List (Key × (State → Nat → Nat)) :=
  [(STRIP_NUMBER.base, fun s _ => s.get LINE_NUMBER / 256),
   (CAL_VALID.base, fun s _ => b2n s.calValid),
   (EASEL_QUAY_DEPTH_EFF.base, fun s i => s.quayDepth i),
   (EASEL_CTX_BAY.base, fun s i => s.bayOf (i / 2) (i % 2)),
   (VIEW_STATE.base, fun s i => s.viewState i),
   (VIEW_CAMERA_MASK.base, fun s i => (s.cams i).foldl (fun m c => m + 2 ^ c.bay) 0),
   (CANVAS_OLDEST_STRIP.base, fun s i => s.oldestStrip i),
   (VIEW_STAGGER_MAX.base, fun s i => s.staggerMax i),
   (CANVAS_RING_STRIPS.base, fun s _ => s.ringDepth),
   (CANVAS_BASE.base, fun s i => s.canvasBase i),
   (REG_VIEW_STATE.base, fun s i => s.regViewState i),
   (TIDE_LOAD_MAX_PERMILLE.base, fun s _ => s.tideLoadMax s.activeImage),
   (TIDE_SLICES_USED.base, fun s _ => s.slicesUsed),
   (TIDE_VIEW_SLICE_WIDTH.base, fun s i => s.ofTide tideWs i),
   (TIDE_VIEW_SLICES.base, fun s i => s.slicesOf s.activeImage i),
   (TIDE_VIEW_FIRST_TILE.base, fun s i => s.firstTile s.activeImage i),
   (TIDE_VIEW_HALO_ROWS.base, fun s i => s.ofTide tideHd i),
   (TIDE_VIEW_CLOCKS.base, fun s i => s.ofTide tideClocks i),
   (TILE_LOG_STATE.base, fun s i => s.tileState i),
   (ISLAND_STATE.base, fun s i => s.islandState i),
   (DRAM_MIGRATE_PERMILLE.base, fun s _ => s.migratePermille),
   (WH_STATUS.base, fun s i => s.chanStatus i),
   (WH_OP.base, fun s i => s.chanOp i)]

/-- Objects of the host link, the network, power and the logbook that are worked out when they are read. -/
def computedB : List (Key × (State → Nat → Nat)) :=
  [(FC_SETTLE_LEFT.base, fun s i => (s.grp i).settle),
   (HL_LINK_GEN.base, fun s _ => (s.fn 0).gen % 16 + 16 * ((s.fn 1).gen % 16)),
   (HL_LINK_WIDTH.base, fun s _ => (s.fn 0).width),
   (LIGHT_BUDGET_W.base, fun s _ => s.lightBudget),
   (BAR_STATE.base, fun s i => if s.get BAR_ENABLE i = 0 then 6 else s.get BAR_STATE i),
   (ERROR_REGISTER.base, fun s _ => s.errorRegister),
   (REVISION_NUMBER.base, fun s _ => s.get FW_REVISION),
   (DC_SYSTEM_TIME.base, fun s _ => s.dc),
   (PF_RESERVE_PERMILLE.base, fun s i => if s.nv.nand.isSome then s.get PF_RESERVE_PERMILLE else s.sensed i),
   (PF_JOB_BYTES_FREE.base, fun s _ => s.jobBytesFree),
   (PF_SLOTS_USED.base, fun s _ => s.nv.pkgs.length),
   (SNAP_BYTES_FREE.base, fun s _ => s.snapBytesFree),
   (SPARE_TILES.base, fun s _ => s.unitsIn 0 1),
   (SPARE_EASELS.base, fun s _ => s.unitsIn 1 1),
   (SPARE_SLICES_MIN.base, fun s _ => s.sparesMin),
   (SPARE_DRAM.base, fun s _ => s.unitsIn 3 1),
   (RETIRED_COUNT.base, fun s _ => s.retiredCount),
   (QUARANTINE_COUNT.base, fun s _ => s.quarantineCount),
   (FANS_IN_USE.base, fun s _ => s.fansInUse),
   (NO_SPARE_MASK.base, fun s _ => s.noSpare),
   (FAN_RPM.base, State.sensed),
   (SAT_COUNT.base, fun s _ => s.sat.length)] ++
  freeCounters.map (fun o => (o.base, State.grown o))

/-- Process data and mirror objects (R525, R526, R537, R538). -/
def computedC : List (Key × (State → Nat → Nat)) :=
  [(STATUS_WORD.base, fun s _ => s.statusWord),
   (PDO_MODE.base, fun s _ => s.get MODE),
   (PDO_EVT_TOGGLE.base, fun s _ => s.get EVT_TOGGLE),
   (PDO_ENC_FAULT.base, fun s _ => s.get ENC_FAULT),
   (PDO_REPEAT_NUMBER.base, fun s _ => s.get REPEAT_NUMBER),
   (PDO_WEB_COUNT.base, fun s _ => s.pdoFollows PDO_WEB_COUNT WEB_COUNT),
   (PDO_WEB_SPEED.base, fun s _ => s.pdoFollows PDO_WEB_SPEED WEB_SPEED_MM_S),
   (PDO_LATCH_COUNT.base, fun s i => s.get LATCH_COUNT i),
   (PDO_LATCH_TIME.base, fun s i => s.get LATCH_TIME i),
   (PDO_LATCH_SPEED.base, fun s i => s.get LATCH_SPEED i),
   (PDO_LATCH_SEQ.base, fun s i => s.get LATCH_SEQ i),
   (M8_MODE.base, fun s _ => s.m8Mode),
   (M8_LINE_PITCH.base, fun s _ => s.m8Pitch),
   (M8_MARK_OFFSET_MM.base, fun s i => (divNearFree (s.get MARK_HEAD_OFFSET_UM i : Nat) 1000 s.free).toNat),
   (M8_WEB_SPEED.base, fun s _ => ofSigned 16 s.m8Speed),
   (M8_JOB_SLOT.base, fun s _ => s.get PRELOAD_SLOT),
   (M8_DEFECT_COUNT.base, fun s _ => s.get DEF_RECORDS % 2 ^ 32),
   (M8_CAMERAS_UP.base, fun s _ => countBelow 12 (fun b => s.get BAY_STATE b == 2)),
   (M8_LAMP_PWM.base, fun _ _ => 255),
   (M8_STATUS.base, fun s _ => s.m8Status),
   (M8_REJECT_BITS.base, fun s _ => s.get REJECT_BITMAP % 2 ^ 32),
   (M8_REJECT_SEQ.base, fun s _ => s.get REJECT_SEQ),
   (M8_WEB_COUNT.base, fun s _ => s.pdoFollows PDO_WEB_COUNT WEB_COUNT % 65536)]

/-- Every object that is worked out when it is read. -/
def computed : List (Key × (State → Nat → Nat)) := computedA ++ computedB ++ computedC

/-- The value an object's instance reads as. -/
def State.readNum (s : State) (o : Obj) (i : Nat) : Nat :=
  match computed.find? (fun e => e.1 == o.base) with
  | some e => e.2 s i % 2 ^ o.ty.bits
  | none => s.get o i

/-! ## Contents (R491) -/

/-- Decimal digits of a number, at least `n` of them. -/
def digits (n v : Nat) : List Byte :=
  let d := (Nat.toDigits 10 v).map Char.toNat
  List.replicate (n - d.length) 48 ++ d

/-- SW_VERSION: major.minor.build (R541). -/
def softwareVersion (rev : Nat) : List Byte :=
  digits 1 (bits rev 31 24) ++ [46] ++ digits 1 (bits rev 23 16) ++ [46] ++ digits 4 (rev % 65536)

/-- "Marlith M12". -/
def deviceName : List Byte := "Marlith M12".toList.map Char.toNat

/-- A trace record's bytes (R646, R647). -/
def TraceRec.bytes (r : TraceRec) : List Byte :=
  if r.typ = 0xFE then List.replicate 8 255 ++ List.replicate 8 0 ++ [0xFE] ++ List.replicate 47 0
  else
    let b := leBytes 8 r.seq ++ leBytes 8 r.dc ++ [r.typ, r.island, b2n r.lost, 0] ++ leBytes 4 r.code ++ leBytes 8 r.arg0 ++
      leBytes 8 r.arg1 ++ List.replicate 20 0
    b ++ leBytes 4 (crc32c b)

/-- TRACE_RING: 262,144 positions of 64 bytes; one never written reads 0 (R645, R650). -/
def State.traceBytes (s : State) : List Byte :=
  (List.range 262144).flatMap (fun p =>
    match s.trace.ring.find? (fun r => r.seq % 262144 == p) with
    | some r => r.bytes
    | none => List.replicate 64 0)

/-- SNAP_DATA: the selected snapshot from SNAP_OFFSET up, at most 1 GiB (R622). -/
def State.snapData (s : State) : List Byte :=
  match s.snapOf (s.get SNAP_SELECT) with
  | some x => (x.bytes.drop (s.get SNAP_OFFSET)).take 1073741824
  | none => []

/-- UNIT_HISTORY: the units that have declarations and self-tests (R628, R643). -/
def State.unitHistory (s : State) : List Byte :=
  (List.range 4).flatMap (fun kind => (List.range (unitStateObj kind).count).flatMap (fun u =>
    [kind, u, s.get (unitStateObj kind) u, ((s.decls.look (kind * 65536 + u)).getD 0) % 256,
      ((s.fails.look (kind * 65536 + u)).getD 0) % 256, 0] ++ leBytes 2 (s.get (unitEpochObj kind) u)))

/-- A factory table of an easel context (R167, R172 to R176, R179, R187, R188), for a bay of `p` planes of `w` pixels. -/
def factoryTable (o : Obj) (p w : Nat) : List Byte :=
  if o.base = EASEL_LIN_LUT.base then
    (List.range p).flatMap (fun _ => (List.range 4097).flatMap (fun i => leBytes 2 (min 65535 (16 * i))))
  else if o.base = EASEL_XTALK.base then
    (List.range 80).flatMap (fun n => leBytes 2 (if n % 5 = 2 ∧ n / 20 = n / 5 % 4 then 0x4000 else 0))
  else if o.base = EASEL_GREEN.base then (List.range 16).flatMap (fun _ => [0, 0x40, 0, 0])
  else if o.base = EASEL_DARK_FLAT.base then (List.range (p * w)).flatMap (fun _ => [0, 0, 0, 0x40])
  else if o.base = EASEL_DPX_MAP.base then [0, 0, 0, 0]
  else if o.base = EASEL_MOSAIC.base then ({} : Bank).mosaic
  else if o.base = EASEL_PALETTE.base then
    [0, 4, 0, 8, 0, 4, 0, 0] ++ List.replicate 16 0 ++ [0, 0, 0, 0, 0, 0, 0, 0x10] ++
      [0, 0, 0, 0, 0, 0x80, 0, 0, 0, 0x80, 0, 0, 0, 0, 0, 0] ++ List.replicate (29542 - 48) 0
  else [0xFF] ++ List.replicate 23 0

/-- The tables of an easel context. -/
def easelTables : List Obj :=
  [EASEL_LIN_LUT, EASEL_XTALK, EASEL_GREEN, EASEL_DARK_FLAT, EASEL_DPX_MAP, EASEL_MOSAIC, EASEL_PALETTE, EASEL_RESAMPLE]

/-- The contents, beside TIDE_IMAGE, that have reserved bits (R9). -/
def maskedContents : List Obj := [EASEL_DPX_MAP, EASEL_MOSAIC, EASEL_PALETTE, EASEL_RESAMPLE, CAL_PATCHES]

/-- The default map of an RxPDO (R530, R538): index:subindex and bits of each entry. -/
def rxMap (i : Nat) : List (Nat × Nat) :=
  if i = 0 then [(PDO_CONTROL.base, 16), (PDO_MODE_REQUEST.base, 8), (0, 8), (PDO_SWITCH_COUNT.base, 64)] else [(M8_CONTROL.base, 16)]

/-- The default map of a TxPDO (R525, R538). -/
def txMap (i : Nat) : List (Nat × Nat) :=
  match i with
  | 0 => [(STATUS_WORD.base, 16), (REJECT_SEQ.base, 16), (REJECT_BITMAP.base, 64), (REJECT_REPEAT.base, 32), (REJECT_ROW.base, 8),
      (PDO_MODE.base, 8), (PDO_EVT_TOGGLE.base, 16), (PDO_ENC_FAULT.base, 16), (PDO_REPEAT_NUMBER.base, 32),
      (PDO_WEB_COUNT.base, 64), (PDO_WEB_SPEED.base, 32)]
  | 1 => [(M8_STATUS.base, 16), (M8_REJECT_BITS.base, 32), (M8_REJECT_SEQ.base, 16), (M8_WEB_COUNT.base, 16)]
  | _ => [(PDO_LATCH_COUNT.key 0, 64), (PDO_LATCH_TIME.key 0, 64), (PDO_LATCH_SPEED.key 0, 32), (PDO_LATCH_SEQ.key 0, 64),
      (PDO_LATCH_COUNT.key 1, 64), (PDO_LATCH_TIME.key 1, 64), (PDO_LATCH_SPEED.key 1, 32), (PDO_LATCH_SEQ.key 1, 64)]

/-- A map's content: its number of entries, then each as a 32-bit word of index, subindex and bits. -/
def pdoMapBytes (m : List (Nat × Nat)) : List Byte := m.length :: m.flatMap (fun e => leBytes 4 (e.1 * 256 + e.2))

/-- The bits of byte `p` of an object's content that are not reserved (R9, R176, R179, R185, R188, R284 to R286, R560); `words` is the
constant block's length of a bank image. -/
def Obj.contentMask (o : Obj) (words p : Nat) : Nat :=
  let k := o.base
  let e := (p - (80 + 128 * words)) % 32
  if k = EASEL_DPX_MAP.base then (if p < 4 then 0xFF else [0xFF, 0x3F, 0, 0xF0].getD (p % 4) 0)
  else if k = EASEL_MOSAIC.base then (if p = 7 then 7 else if 13 ≤ p then 0 else 0xFF)
  else if k = EASEL_PALETTE.base then (if p = 48 then 1 else if 49 ≤ p ∧ p < 64 then 0 else 0xFF)
  else if k = EASEL_RESAMPLE.base then (if p = 1 ∨ (12 ≤ p ∧ p < 16) then 0 else 0xFF)
  else if k = CAL_PATCHES.base then (if [1, 6, 7, 14, 15].contains (p % 16) then 0 else 0xFF)
  else if k ≠ TIDE_IMAGE.base then 0xFF
  else if p < 16 then (if 6 ≤ p then 0 else 0xFF)
  else if p < 80 then (if p % 16 = 5 then 1 else if 6 ≤ p % 16 then 0 else 0xFF)
  else if p < 80 + 128 * words then 0xFF
  else if e < 7 then 0 else if e = 7 then 0xE0 else 0xFF

/-- A content as it reads: its reserved bits are 0 whatever was written (R9). -/
def Obj.readsAs (o : Obj) (b : List Byte) : List Byte :=
  b.zipIdx.map (fun e => Nat.land e.1 (o.contentMask (natAt b 4 2) e.2))

/-- The content a string, an octet string or a domain reads as. -/
def State.readBlob (s : State) (o : Obj) (i : Nat) : List Byte :=
  let b := s.blob o i
  let k := o.base
  if k = DEVICE_NAME.base then deviceName
  else if k = HW_VERSION.base ∨ k = MODULE_HW_REVISION.base then Config.hwRevision
  else if k = ASIC_LOT.base then Config.asicLot
  else if k = SW_VERSION.base then softwareVersion (s.get FW_REVISION)
  else if k = DEF_RULES.base then (s.web.job.bind (fun p => Package.sec p secRules 0)).getD []
  else if k = DEF_ITEMS.base then (s.web.job.bind (fun p => Package.sec p secItems 0)).getD []
  else if k = TIDE_IMAGE.base then o.readsAs (tideImage b)
  else if k = TRACE_RING.base then s.traceBytes
  else if k = TRACE_EVENT_MASK.base then
    (if b.isEmpty then
      leBytes 32 ((List.range 256).foldl (fun m p => if s.eventTraced p then m + 2 ^ p else m) 0) else b)
  else if k = SNAP_DATA.base then s.snapData
  else if k = WEAR_MARKED.base then s.marks.flatMap (fun m => [m.kind, m.unit, m.trigger, 0])
  else if k = UNIT_HISTORY.base then s.unitHistory
  else if k = SAT_LIST.base then s.sat.flatMap (fun x => leBytes 2 (x / 256) ++ [x % 256, 0])
  else if k = FC_COEF.base then bankBytes (s.get FC_PRESET i) (s.grp i).standby
  else if k = RXPDO_MAP.base then (if b.isEmpty then pdoMapBytes (rxMap i) else b)
  else if k = TXPDO_MAP.base then (if b.isEmpty then pdoMapBytes (txMap i) else b)
  else if b.isEmpty ∧ easelTables.any (fun x => x.base == k) then
    let bay := s.bayOf (i / 2) (i % 2)
    factoryTable o (s.shape bay).1.bits.length (s.get INTAKE_WIDTH bay)
  else if maskedContents.any (fun x => x.base == k) then o.readsAs b
  else b

/-- What an object's instance reads as over a transfer: the bytes of its value, or its content (R496). -/
def State.readBytes (s : State) (o : Obj) (i : Nat) : List Byte :=
  if o.ty.bytes = 0 then s.readBlob o i else leBytes o.ty.bytes (s.readNum o i)

/-- What an object's instance reads as in the dictionary window: its value extended to 64 bits, or its length (R491). -/
def State.readWindow (s : State) (o : Obj) (i : Nat) : Nat :=
  if o.ty.bytes = 0 then (s.readBlob o i).length
  else if o.ty.signed then ofSigned 64 (toSigned o.ty.bits (s.readNum o i))
  else s.readNum o i

/-! ## Places in the dictionary (R532) -/

/-- The subindices of an index: of a record or an array from 1 up, of a variable 0. -/
def subsOf (index : Nat) : List Nat :=
  rows.flatMap (fun o => ((List.range o.count).map o.key).filterMap (fun k => if k / 256 = index then some (k % 256) else none))

/-- What lies at index:subindex: an object's instance; the highest subindex of a record; a missing subindex; or nothing. -/
inductive Place where
  | obj (o : Obj) (i : Nat)
  | highest (n : Nat)
  | noSub
  | noIndex

/-- The entries of an assignment object that count (R523); the indices of the assignment objects. -/
def State.assigned (s : State) (index : Nat) : Option Nat :=
  if index = 0x1C12 then some s.ecat.rxCount else if index = 0x1C13 then some s.ecat.txCount else none

/-- What index:subindex names (R532). -/
def State.place (s : State) (index sub : Nat) : Place :=
  match (if sub < 256 then findObj (index * 256 + sub) else none) with
  | some (o, i) => .obj o i
  | none =>
    match (subsOf index).max? with
    | none => .noIndex
    | some n => if sub = 0 then .highest ((s.assigned index).getD n) else .noSub

/-- The levels an output pair drives, A then B; none while the outputs are not enabled (R399). -/
def State.pulsePins (s : State) (n : Nat) : Option (Bool × Bool) :=
  if s.get PULSE_ENABLE n = 0 then none
  else
    let p := (s.motion.pulses.getD n {}).phase
    some (p == 1 || p == 2, p == 2 || p == 3)

end Sys2Proof.Machine
end

