-- ==== Sys2Proof/Machine/Dictionary.lean ====
section
/-! DEFINITION. Machine/Dictionary.lean: writes to the object dictionary from every path, the mirror, stored parameters, process
data mapping, firmware and packages delivered (R10, R11, R38 to R45, R73 to R75, R484, R493, R512, R523, R524, R530 to R544). -/
namespace Sys2Proof.Machine
open Reg

/-! ## Firmware and packages (R43, R44, R541 to R544, R620) -/

/-- The store of a package: 0, or the SWITCH_RESULT code of the refusal (R43, R44, R55, R75, R620). A package that fails a check is
answered so even where its slot is busy (DESIGN CHOICE, log entry 173). -/
def State.storePackage (s : State) (p : List Byte) : State × Nat :=
  let want := natAt p 16 2
  let slot := if want = 0xFFFF then lowest 4096 (fun i => (s.nv.pkgs.look i).isNone) else if want < 4096 then some want else none
  if s.get MODE = 5 then (s, 7)
  else if !Package.ok p (s.get FW_REVISION) then (s, 2)
  else
    match slot with
    | none => (s, 6)
    | some k =>
      let st := s.get SWITCH_STATE
      let old := ((s.nv.pkgs.look k).map List.length).getD 0
      if s.get ACTIVE_SLOT = k ∨ (s.web.pendingSlot = k ∧ (st = 1 ∨ st = 2 ∨ st = 3)) then (s, 3)
      else if s.get PF_STATE = 2 ∨ s.jobBytesFree + old < p.length then (s, 6)
      else
        let t := { s with nv := { s.nv with
          pkgs := s.nv.pkgs.put k p, saved := s.nv.saved.filter (fun e => e.1 / 4 != k) } }
        (t.logWrite 0x0A k 32 [(0, p.length), (1, crc32c p), (2, 0)], 0)

/-- FW_RESULT of an image's checks: CRC, PRODUCT, SIGNATURE or OK (R542). -/
def imageCheck (image : List Byte) (signatureOk : Bool) : Nat :=
  if image.length < 64 ∨ image.take 4 ≠ [0x4B, 0x46, 0x57, 0x31] ∨ natAt image 12 8 ≠ image.length ∨
      natAt image 20 4 ≠ crc32c (image.drop 64) then 1
  else if natAt image 8 4 ≠ 0x4D120000 then 2
  else if !signatureOk then 3
  else 0

/-- An image is written into the one that is not running and checked (R542); FW_RESULT reads how it ended. The write is within the
command, so FW_STANDBY_STATE is not seen at WRITING (DEDUCED, log entry 184). -/
def State.storeImage (s : State) (image : List Byte) (signatureOk : Bool) : State :=
  let r := imageCheck image signatureOk
  let st := if r = 0 then 1 else 2
  let n := { s.nv with standby := st }
  let n := if s.get FW_IMAGE_ACTIVE = 0 then { n with imageB := image } else { n with imageA := image }
  ((({ s with nv := n }.set FW_STANDBY_STATE 0 st).set FW_STANDBY_REVISION 0 (natAt image 4 4)).set FW_RESULT 0 r)

/-- FW_ACTIVATE's write (R543, R611): in DORMANT and READY, with a VALID standby image. -/
def State.fwActivate (s : State) (via : Path) : State :=
  s.command via FW_ACTIVATE 0 (decide (s.get MODE < 2) && s.get FW_STANDBY_STATE == 1) (fun t =>
    let run := t.get FW_IMAGE_ACTIVE
    let u := { t with nv := { t.nv with active := 1 - run, previous := run, bootTries := 0 } }
    u.logWrite 9 0 8 [(0, 1 - run), (1, u.nv.standby), (2, 0)])

/-- FW_ACTIVATE (R543). -/
def execFwActivate (dt : Nat) (via : Path) (s : State) : Host.Outcome State Fault Refusal := act true dt s fun s => s.fwActivate via

/-! ## Clear commands of the host link and the field network -/

/-- HL_CLEAR's effect (R512). -/
def State.hlClear (s : State) (via : Path) : State :=
  s.command via HL_CLEAR 0 true (fun t => t.clearAll [HL_APERTURE_WRITE_DROP, HL_DICT_ERRORS, HL_PT_TIMEOUTS, HL_LINK_DOWNS,
    RING_DROP, RING_OVERSIZE])

/-- HL_CLEAR (R512). -/
def execHlClear (dt : Nat) (via : Path) (s : State) : Host.Outcome State Fault Refusal := act true dt s fun s => s.hlClear via

/-- ECAT_CLEAR's effect: the tallies and SAT bits of 0x2010. -/
def State.ecatClear (s : State) (via : Path) : State :=
  s.command via ECAT_CLEAR 0 true (fun t => t.clearAll [PDO_WD_EXPIRED, DC_TIME_STEPS, SYNC_LOST, EMCY_LOST])

/-- ECAT_CLEAR. -/
def execEcatClear (dt : Nat) (via : Path) (s : State) : Host.Outcome State Fault Refusal := act true dt s fun s => s.ecatClear via

/-! ## Stored parameters (R536) -/

/-- "save" and "load". -/
def saveWord : Nat := 0x65766173

/-- "load". -/
def loadWord : Nat := 0x64616F6C

/-- STORE_PARAMETERS' write (R536): the values last written are stored, and a pending discard is withdrawn. -/
def State.saveParameters (s : State) (via : Path) (v : Nat) : State :=
  if v ≠ saveWord then s.refuse via (STORE_PARAMETERS.key 0) 0x06090030
  else if 1 < s.get MODE then s.refuse via (STORE_PARAMETERS.key 0) abortMode
  else
    let size := 12 * s.written.length + (s.writtenBlobs.map (fun e => 8 + e.2.length)).sum
    { s.accept with nv := { s.nv with dropStored := false } }.logWrite 4 0 size s.written s.writtenBlobs

/-- RESTORE_DEFAULTS' write (R536): the stored set is discarded at the next cold reset. -/
def State.loadDefaults (s : State) (via : Path) (v : Nat) : State :=
  if v ≠ loadWord then s.refuse via (RESTORE_DEFAULTS.key 0) 0x06090030
  else { s.accept with nv := { s.nv with dropStored := true } }

/-- A value that does not fit the 32 bits of its object. -/
def State.wide (s : State) (via : Path) (o : Obj) : State := s.refuse via (o.key 0) 0x06070010

/-- STORE_PARAMETERS (R536). -/
def execStoreParameters (dt : Nat) (via : Path) (value : Nat) (s : State) : Host.Outcome State Fault Refusal :=
  act true dt s fun s => if value < 2 ^ 32 then s.saveParameters via value else s.wide via STORE_PARAMETERS

/-- RESTORE_DEFAULTS (R536). -/
def execRestoreDefaults (dt : Nat) (via : Path) (value : Nat) (s : State) : Host.Outcome State Fault Refusal :=
  act true dt s fun s => if value < 2 ^ 32 then s.loadDefaults via value else s.wide via RESTORE_DEFAULTS

/-! ## Process data mapping (R523, R524) -/

/-- The bits of a map's entries that count: its content is a count and entries of 32 bits. -/
def mapBits (b : List Byte) : Nat := ((List.range (natAt b 0 1)).map (fun i => natAt b (1 + 4 * i) 1)).sum

/-- The bits of the RxPDOs that `n` entries of the assignment give, or of the TxPDOs. -/
def State.rxBits (s : State) (n : Nat) : Nat :=
  if n = 0 then 0 else mapBits (s.readBlob RXPDO_MAP (s.get RXPDO_ASSIGN - 0x1600))

/-- The bits of the assigned TxPDOs. -/
def State.txBits (s : State) (n : Nat) : Nat :=
  ((List.range n).map (fun i => mapBits (s.readBlob TXPDO_MAP (s.get TXPDO_ASSIGN i - 0x1A00)))).sum

/-- Whether the assigned PDOs keep within 64 and 256 bytes (R524). -/
def State.pdosFit (s : State) : Bool :=
  decide (s.rxBits s.ecat.rxCount ≤ 512) && decide (s.txBits s.ecat.txCount ≤ 2048)

/-- Whether an entry may be mapped (R523): padding, or an object of the process data or of the mirror, in its direction and at its
own length. -/
def mapEntryCode (rx : Bool) (e : Nat) : Nat :=
  let k := e / 256
  if k / 256 = 0 then 0
  else
    match findObj k with
    | none => 0x06040041
    | some (o, _) =>
      if !((decide (0x500000 ≤ k) && decide (k < 0x800000)) && (o.acc == .pdo) == rx && o.acc != .cmd) then 0x06040041
      else if e % 256 ≠ o.ty.bits then 0x06070010
      else 0

/-- A write accepted, unless the PDOs would then be too long (R524). -/
def State.mapped (s : State) (via : Path) (k : Key) (t : State) : State :=
  if t.pdosFit then { t with abort := 0 } else s.refuse via k 0x06040042

/-- A write to subindex `sub` of a mapping object: its count or one of its entries, in PREOP (R524). -/
def State.writeMap (s : State) (via : Path) (index sub : Nat) (data : List Byte) : State :=
  let rx := decide (index < 0x1A00)
  let o := if rx then RXPDO_MAP else TXPDO_MAP
  let i := index - o.base / 256
  let k := index * 256 + sub
  let b := s.readBlob o i
  if s.get ECAT_STATE ≠ 2 then s.refuse via k abortMode
  else if sub = 0 then
    if data.length ≠ 1 then s.refuse via k 0x06070010
    else if 64 < leNat data then s.refuse via k 0x06090031
    else s.mapped via k (s.setBlob o i (data ++ b.drop 1 ++ List.replicate (1 + 4 * leNat data - b.length) 0))
  else if data.length ≠ 4 then s.refuse via k 0x06070010
  else if mapEntryCode rx (leNat data) ≠ 0 then s.refuse via k (mapEntryCode rx (leNat data))
  else
    let c := b ++ List.replicate (1 + 4 * sub - b.length) 0
    s.mapped via k (s.setBlob o i (c.take (4 * sub - 3) ++ data ++ c.drop (4 * sub + 1)))

/-- A write to the count of an assignment object, in PREOP (R524). -/
def State.writeAssigned (s : State) (via : Path) (index : Nat) (data : List Byte) : State :=
  let k := index * 256
  let n := leNat data
  if s.get ECAT_STATE ≠ 2 then s.refuse via k abortMode
  else if data.length ≠ 1 then s.refuse via k 0x06070010
  else if (if index = 0x1C12 then 1 else 3) < n then s.refuse via k 0x06090031
  else s.mapped via k { s with ecat := if index = 0x1C12 then { s.ecat with rxCount := n } else { s.ecat with txCount := n } }

/-- The mapping objects. -/
def isMap (index : Nat) : Bool := index == 0x1600 || index == 0x1601 || index == 0x1A00 || index == 0x1A01 || index == 0x1A02

/-! ## Command objects (R10, R75) -/

/-- A command object that a plain dictionary write reaches: its key and effect, by instance and value. What happens outside the
module along with it, which no write brings, takes a free value. -/
def commandsA : List (Key × (State → Path → Nat → Nat → State)) :=
  [(MODE_REQUEST.base, fun s via _ v => s.modeRequest via v),
   (PRELOAD.base, fun s via _ _ => s.preload via),
   (SWITCH_ARM.base, fun s via _ _ => s.switchArm via),
   (SWITCH_CANCEL.base, fun s via _ _ => s.switchCancel via),
   (BAY_CLEAR.base, fun s via b _ => s.command via BAY_CLEAR b true (fun t => t.quadClear b)),
   (BAY_RETRY.base, fun s via b _ => s.bayRetry via b),
   (SLICE_SELFTEST.base, fun s via q v => s.sliceSelftest via q v),
   (LB_RUN.base, fun s via q v =>
      let f := s.fresh
      if v = 1 then f.2.loopStart via q (Config.measured f.1 % 2 == 0)
      else
        let g := f.2.fresh
        g.2.accept.loopStop q (Config.measured f.1) (Config.measured g.1)),
   (CASCADE_CLEAR.base, fun s via _ _ => s.command via CASCADE_CLEAR 0 true State.cascadeClear),
   (INTAKE_CLEAR.base, fun s via _ _ => s.intakeClear via),
   (EXP_COMMIT.base, fun s via _ _ => s.expCommit via),
   (EASEL_CLEAR.base, fun s via k _ => s.easelClear via k),
   (EASEL_CTX_COMMIT.base, fun s via i _ => s.ctxCommit via (i / 2) (i % 2)),
   (EASEL_PAL_COMMIT.base, fun s via i _ => s.palCommit via (i / 2) (i % 2)),
   (EASEL_SELFTEST.base, fun s via _ v => s.easelSelftest via v),
   (SEAM_CLEAR.base, fun s via v _ => s.seamClear via v),
   (REG_LEARN.base, fun s via _ _ => s.regLearn via),
   (REG_UP_SAVE.base, fun s via _ _ => s.regUpSave via),
   (REG_CLEAR.base, fun s via _ _ => s.regClear via),
   (TIDE_COMMIT.base, fun s via _ _ => s.tideCommit via),
   (FABRIC_CLEAR.base, fun s via _ _ => s.fabricClear via),
   (TILE_SELFTEST.base, fun s via _ v => s.tileSelftest via v),
   (DEF_CLEAR.base, fun s via _ _ => s.defClear via),
   (MOTION_CLEAR.base, fun s via _ _ => s.command via MOTION_CLEAR 0 true State.motionClear)]

/-- Command objects of chapters 11 to 14. -/
def commandsB : List (Key × (State → Path → Nat → Nat → State)) :=
  [(FC_SYNC.base, fun s via _ v => s.filterSync via v),
   (FC_CLEAR.base, fun s via _ _ => s.filterClear via),
   (FC_CAPTURE_RUN.base, fun s via _ _ => s.command via FC_CAPTURE_RUN 0 true State.captureRun),
   (FC_COEF_COMMIT.base, fun s via g _ => s.coefCommit via g),
   (FC_COEF_FACTORY.base, fun s via g _ => s.coefFactory via g),
   (EVT_SOFT.base, fun s via _ v => s.softEvents via v),
   (EVT_SAVE.base, fun s via _ _ => s.eventSave via),
   (EVT_CLEAR.base, fun s via _ _ => s.eventClear via),
   (DRAM_MIGRATE.base, fun s via _ v => s.dramMigrate via v),
   (DRAM_SELFTEST.base, fun s via _ v => s.dramSelftest via v),
   (MEM_CLEAR.base, fun s via _ _ => s.memClear via),
   (WH_RESTART.base, fun s via _ _ =>
      let f := s.fresh
      f.2.whRestart via (Config.measured f.1 % 2 == 0)),
   (WH_CLEAR.base, fun s via _ _ => s.whClear via),
   (WH_START.base, fun s via n _ => s.whStart via n),
   (WH_ABORT.base, fun s via n _ => s.whAbort via n),
   (WH_FLUSH.base, fun s via n _ =>
      let f := s.fresh
      f.2.whFlush via n (Config.progress f.1)),
   (CMP_CLEAR.base, fun s via _ _ => s.cmpClear via),
   (HL_CLEAR.base, fun s via _ _ => s.hlClear via)]

/-- Command objects of chapters 15 to 18. -/
def commandsC : List (Key × (State → Path → Nat → Nat → State)) :=
  [(ECAT_CLEAR.base, fun s via _ _ => s.ecatClear via),
   (FW_ACTIVATE.base, fun s via _ _ => s.fwActivate via),
   (LIGHT_CLEAR.base, fun s via _ _ => s.lightClear via),
   (CAL_STEP.base, fun s via _ _ => s.calStep via),
   (CAL_ACCEPT.base, fun s via _ _ => s.calAccept via),
   (CAL_ABORT.base, fun s via _ _ => s.calAbort via),
   (CAL_CLEAR.base, fun s via _ _ => s.calClear via),
   (TRIM_NOW.base, fun s via b _ => s.trimNow via b),
   (POWER_CLEAR.base, fun s via _ _ => s.powerClear via),
   (RESET_REQUEST.base, fun s via _ v =>
      if v = 1 then s.command via RESET_REQUEST 0 true (fun t => t.warmReset 1)
      else
        let f := s.fresh
        f.2.command via RESET_REQUEST 0 true (fun t => t.commitCounters.coldReset 2 (Config.measured f.1))),
   (LOGBOOK_FACTORY_RESET.base, fun s via _ v => s.factoryReset via v),
   (LBK_CLEAR.base, fun s via _ _ => s.logbookClear via),
   (SNAP_TAKE.base, fun s via _ v => s.snapTake via v),
   (SNAP_DELETE.base, fun s via _ v => s.snapDelete via v)]

/-- A command object's effect; the channels that are the M12's own, or another function's, take none (R479, R484). -/
def State.runCommand (s : State) (via : Path) (o : Obj) (i v : Nat) : State :=
  match (commandsA ++ commandsB ++ commandsC).find? (fun e => e.1 == o.base) with
  | some e => e.2 s via i v
  | none => s.refuse via (o.key i) abortMode

/-! ## Writes to values -/

/-- The least and the greatest value of a type. -/
def Ty.least (t : Ty) : Int := if t.signed then -(2 ^ (t.bits - 1) : Nat) else 0

/-- The greatest value of a type. -/
def Ty.greatest (t : Ty) : Int := if t.signed then (2 ^ (t.bits - 1) : Nat) - 1 else (2 ^ t.bits : Nat) - 1

/-- Whether a value may be written to an object: 0, or the abort code (R535). -/
def Obj.valueCode (o : Obj) (v : Int) : Nat :=
  if !o.enum.isEmpty then (if v < 0 ∨ !o.enum.contains v.toNat then 0x06090030 else 0)
  else if v < (if o.ranged then o.lo else o.ty.least) then 0x06090032
  else if (if o.ranged then o.hi else o.ty.greatest) < v then 0x06090031
  else if v % (o.step : Int) ≠ 0 then 0x06090030
  else 0

/-- Whether a wharf channel's object is open to a writer; channels 0 to 7 read only (R479, R484). -/
def State.channelCode (s : State) (via : Path) (o : Obj) (i : Nat) : Nat :=
  if o.base / 256 ≠ 0x2C20 then 0
  else if i < 8 then (if o.acc = .cmd then abortMode else 0x06010002)
  else if s.chanOpen via i then 0 else abortMode

/-- Whether an object may be written now: 0, or the abort code (R10, R11, R73, R74, R500, R524). -/
def State.accessCode (s : State) (via : Path) (o : Obj) (i : Nat) : Nat :=
  let m := s.get MODE
  let c := s.channelCode via o i
  if o.acc = .ro then 0x06010002
  else if c ≠ 0 then c
  else
    match o.acc with
    | .rws => if m < 2 then 0 else abortMode
    | .rwPreop => if s.get ECAT_STATE = 2 then 0 else abortMode
    | .rwDisabled => if s.get RING_ENABLE i = 1 then abortBusy else 0
    | .rwGain => if m = 1 ∨ m = 2 then 0 else abortMode
    | .pdo => if m = 0 then abortMode else 0
    | _ => 0

/-- Whether the module is busy with what an object sets, or another object forbids the value: 0, or the abort code (R49, R164, R236,
R500). -/
def State.guardCode (s : State) (o : Obj) (i : Nat) (v : Int) : Nat :=
  let b := o.base
  if b = SWITCH_MODE.base ∨ b = SWITCH_COUNT.base ∨ b = SPLICE_INPUT.base ∨ b = SPLICE_OFFSET.base then
    (if s.get SWITCH_STATE = 3 then abortBusy else 0)
  else if b = EASEL_BYPASS.base then (if s.get EASEL_CTX_PENDING i = 1 then abortBusy else 0)
  else if b = REG_REPEAT_LINES.base then (if v < s.get REPEAT_LINES_MIN then 0x06090032 else 0)
  else if b = RING_SIZE.base then
    (if i = 4 ∧ 1024 < v then 0x06090031
      else if i ≠ 4 ∧ v < 65536 then 0x06090032
      else if 2 ^ Nat.log2 v.toNat ≠ v.toNat then 0x06090030 else 0)
  else 0

/-- BAY_LINK_TYPE is written (R88, R149): a bay of type NONE is unpowered at once, behind its wrapper (R594, R602), with no link for the
requests that wait (R498), and so is an easel that it leaves without a used context; another type takes effect at the next bring-up
(DEDUCED, log entry 190). -/
def State.linkTypeWritten (s : State) (b v : Nat) : State :=
  if v ≠ 0 ∨ s.asDormant then s
  else
    let s := (s.tallyN FERRY_DISCARD 0 (s.bay b).ferry.length).ptWrapped b
    let t := (((List.range 4).foldl (fun (u : State) j => u.set LANE_STATE (4 * b + j) 0) s).lanesUp b).set BAY_STATE b 0
    let t := (((t.set BAY_SPEED b 0xFF).set PD_STATE (38 + b) 0).set ISLAND_STATE (38 + b) 0).modBay b (fun (x : Bay) => { x with
      step := 0, targets := [], locked := [], await := [], ferry := [], devices := [], trigHigh := false })
    let t := (t.pocxpFeed b).ptNext b
    let p := 26 + t.get EASEL_PHYS (b / 2)
    if t.easelUsed (b / 2) then t else ((t.set EASEL_STATE (b / 2) 0).set PD_STATE p 0).set ISLAND_STATE p 0

/-- CASCADE_ENABLE is written (R98, R581): with 0 the cascade PHY is unpowered at once and the link is down; with 1 it takes effect at
the next bring-up (DEDUCED, log entry 190). -/
def State.cascadeWritten (s : State) (v : Nat) : State :=
  if v ≠ 0 ∨ s.asDormant then s
  else
    let t := (((List.range 4).foldl (fun (u : State) j => u.set LANE_STATE (48 + j) 0) s).lanesUp 12).set BAY_STATE 12 0
    let t := (t.set PD_STATE 50 0).set ISLAND_STATE 50 0
    { t with cascade := { t.cascade with down := true, exchanged := false, partners := [] } }

/-- What follows a write that is accepted, beside the value itself. -/
def State.afterWrite (s : State) (o : Obj) (i v : Nat) : State :=
  let b := o.base
  if b = BAR_ENABLE.base then (if v = 0 then s.lightOff i else s)
  else if b = CAMERA_GAIN.base then s.gainWritten i
  else if b = BAY_POCXP_ENABLE.base then (if s.asDormant then s else s.pocxpFeed i)
  else if b = BAY_LINK_TYPE.base then s.linkTypeWritten i v
  else if b = CASCADE_ENABLE.base then s.cascadeWritten v
  else if b = CAM_TEMP_MC.base then { s with trim := { s.trim with written := s.trim.written.set i (some s.now) } }
  else if b = HL_LINK_MODE.base then s.logWrite 8 0 1 [(0, v)]
  else if b = CHAN_RATE_WINDOW_US.base ∨ b = CHAN_RATE_LIMIT.base then
    (if bit (s.get CHAN_CFG i) 31 then s.startWindow i else s)
  else s

/-- Objects whose write is an operation of its own. -/
def writesOwn : List (Key × (State → Path → Nat → Nat → State)) :=
  [(RING_ENABLE.base, fun s via r v => s.writeRingEnable via r v),
   (PULSE_P.base, fun s via n v => s.writePulseDivider via n false v),
   (PULSE_Q.base, fun s via n v => s.writePulseDivider via n true v),
   (FC_PRESET.base, fun s via g v => s.writePreset via g v),
   (CHAN_CFG.base, fun s via k v => s.writeChan via k v),
   (CELL_CFG.base, fun s via c v => s.writeCell via c v),
   (STORE_PARAMETERS.base, fun s via _ v => s.saveParameters via v),
   (RESTORE_DEFAULTS.base, fun s via _ v => s.loadDefaults via v)] ++
  [DET_SOURCE, DET_MODE, DET_FREQ_MHZ, DET_BLOCK, DET_HARMONIC, DET_REVS, DET_LIMIT_PERMILLE].map
    (fun o => (o.base, fun s via d v => s.writeDet via o d v))

/-- Whether an object's new value waits for a boundary (R10, R73). -/
def Obj.waits (o : Obj) : Bool := o.acc == .rwbRepeat || o.acc == .rwbStrip

/-- A value without the bits that are reserved in its object, which read as 0 whatever is written, and with those that are always
set (R9, R204, R435, R436, R530, R649). -/
def Obj.unreserved (o : Obj) (v : Nat) : Nat :=
  if o.base = TRACE_FILTER.base then v % 2 ^ 31
  else if o.base = VIEW_PLANES.base then v % 8 / 2 * 2 + 1
  else if o.base = CHAN_CFG.base then v % 2 ^ 16 + v / 2 ^ 30 * 2 ^ 30
  else if o.base = CELL_CFG.base then v / 2 ^ 9 * 2 ^ 9
  else if o.base = PDO_CONTROL.base then v % 8
  else v

/-- A value that may be written takes effect, or waits for its boundary (R10). -/
def State.writeAccepted (s : State) (via : Path) (o : Obj) (i v : Nat) : State :=
  let w := o.unreserved v
  match writesOwn.find? (fun e => e.1 == o.base) with
  | some e =>
    let t := e.2 s via i w
    if t.abort = 0 then t.remember o i w else t
  | none =>
    if o.waits then { s.accept with held := s.held.put (o.key i) w }.remember o i w
    else ((s.accept.set o i w).remember o i w).afterWrite o i w

/-- A numeric write to an object's instance (R73, R535). The assignment objects keep within their limits (R524). -/
def State.writeNum (s : State) (via : Path) (o : Obj) (i : Nat) (v : Int) : State :=
  let k := o.key i
  let a := s.accessCode via o i
  let c := o.valueCode v
  let g := s.guardCode o i v
  let w := ofSigned o.ty.bits v
  if a ≠ 0 then s.refuse via k a
  else if c ≠ 0 then s.refuse via k c
  else if g ≠ 0 then s.refuse via k g
  else if o.acc = .cmd then s.runCommand via o i w
  else if o.base = RXPDO_ASSIGN.base ∨ o.base = TXPDO_ASSIGN.base then s.mapped via k (s.set o i w)
  else s.writeAccepted via o i w

/-! ## Writes to contents -/

/-- Whether a content may be written to an object now: 0, or the abort code (R164, R166, R185, R310, R649). A write to
EASEL_PALETTE while a palette commit is pending is BUSY (DESIGN CHOICE, log entry 206). -/
def State.contentCode (s : State) (o : Obj) (i : Nat) (b : List Byte) : Nat :=
  let k := o.base
  let n := b.length
  let st := s.get SWITCH_STATE
  if o.ranged ∧ ((n : Int) < o.lo ∨ o.hi < (n : Int)) then 0x06070010
  else if k = EASEL_PALETTE.base then
    (if n ≠ 29542 then 0x06070010
      else if s.get EASEL_PAL_PENDING i = 1 ∨ s.jobPalette (s.bayOf (i / 2) (i % 2)) then abortBusy else 0)
  else if easelTables.any (fun x => x.base == k) then (if s.get EASEL_CTX_PENDING i = 1 then abortBusy else 0)
  else if k = TIDE_IMAGE.base then (if s.get TIDE_PENDING = 1 ∨ st = 1 ∨ st = 2 ∨ st = 3 then abortBusy else 0)
  else if k = TRACE_EVENT_MASK.base then (if n ≠ 32 then 0x06070010 else 0)
  else if k = CAL_TILE_CERT.base ∨ k = CAL_CHART_CERT.base then (if 32 < n then 0x06070010 else 0)
  else 0

/-- A write of a string, octet string or domain: it is replaced whole (R496). -/
def State.writeContent (s : State) (via : Path) (o : Obj) (i : Nat) (b : List Byte) : State :=
  let k := o.key i
  let a := s.accessCode via o i
  let c := s.contentCode o i b
  if a ≠ 0 then s.refuse via k a
  else if c ≠ 0 then s.refuse via k c
  else if o.base = FC_COEF.base then s.writeCoef via i b
  else (s.accept.setBlob o i b).rememberBlob o i b

/-! ## The mirror (R537, R539) -/

/-- A write through a mirror object: its answer names the mirror object. -/
def State.asMirror (s : State) (via : Path) (k : Key) (f : State → State) : State :=
  let t := f s
  match via with
  | .window n => if t.abort = 0 then t else t.modFn n (fun x => { x with errAddr := k })
  | _ => t

/-- M8_JOB_LOAD's write (R539): PRELOAD now, and the arm when LOADED. -/
def State.m8JobLoad (s : State) (via : Path) : State :=
  s.asMirror via (M8_JOB_LOAD.key 0) (fun s =>
    let t := s.preload via
    if t.abort = 0 ∧ t.get SWITCH_STATE = 1 then { t with ecat := { t.ecat with m8Load := true } } else t)

/-- A write to a mirror object (R537): converted and applied to its M12 object. -/
def State.writeMirror (s : State) (via : Path) (o : Obj) (i : Nat) (v : Int) : State :=
  let k := o.key i
  let b := o.base
  if o.acc = .ro then s.refuse via k 0x06010002
  else if v < o.ty.least then s.refuse via k 0x06090032
  else if o.ty.greatest < v then s.refuse via k 0x06090031
  else if b = M8_MODE.base then
    (if v < 4 then s.asMirror via k (fun s => s.modeRequest via v.toNat) else s.refuse via k 0x06090030)
  else if b = M8_LINE_PITCH.base then s.asMirror via k (fun s => s.writeNum via LINE_PITCH 0 (v * 65536))
  else if b = M8_MARK_OFFSET_MM.base then s.asMirror via k (fun s => s.writeNum via MARK_HEAD_OFFSET_UM i (v * 1000))
  else if b = M8_JOB_SLOT.base then s.asMirror via k (fun s => s.writeNum via PRELOAD_SLOT 0 v)
  else if b = M8_JOB_LOAD.base then (if v = 1 then s.m8JobLoad via else s.refuse via k 0x06090030)
  else if v = 255 then s.accept
  else s.refuse via k 0x06090030

/-- The mirror objects: 0x5000 to 0x5FFF but the process data entries. -/
def Obj.mirror (o : Obj) : Bool := decide (0x500000 ≤ o.base) && decide (o.base < 0x508000)

/-- A numeric write to any object. -/
def State.writeValue (s : State) (via : Path) (o : Obj) (i : Nat) (v : Int) : State :=
  if o.mirror then s.writeMirror via o i v else s.writeNum via o i v

/-! ## A write at index:subindex (R73, R493, R496, R535) -/

/-- A transfer's bytes written to an object's instance, its length checked against the type. -/
def State.writeObj (s : State) (via : Path) (o : Obj) (i : Nat) (data : List Byte) : State :=
  if o.ty.bytes = 0 then s.writeContent via o i data
  else if o.acc = .ro then s.refuse via (o.key i) 0x06010002
  else if data.length ≠ o.ty.bytes then s.refuse via (o.key i) 0x06070010
  else s.writeValue via o i (if o.ty.signed then toSigned o.ty.bits (leNat data) else leNat data)

/-- A write at index:subindex. -/
def State.writeAt (s : State) (via : Path) (index sub : Nat) (data : List Byte) : State :=
  let k := index * 256 + sub
  if isMap index ∧ sub ≤ 64 then s.writeMap via index sub data
  else
    match s.place index sub with
    | .noIndex => s.refuse via k 0x06020000
    | .noSub => s.refuse via k 0x06090011
    | .highest _ => if (s.assigned index).isSome then s.writeAssigned via index data else s.refuse via k 0x06010002
    | .obj o i => s.writeObj via o i data

/-- OBJECT_WRITE (R73). -/
def execObjectWrite (dt : Nat) (via : Path) (index sub : Nat) (data : List Nat) (s : State) : Host.Outcome State Fault Refusal :=
  act true dt s fun s => s.writeAt via index sub (data.map (· % 256))

/-- M8_MIRROR_WRITE (R537). -/
def execM8MirrorWrite (dt : Nat) (via : Path) (index sub value : Nat) (s : State) : Host.Outcome State Fault Refusal :=
  act true dt s fun s =>
    match s.place index sub with
    | .obj o i => if o.mirror then s.writeMirror via o i value else s.refuse via (index * 256 + sub) 0x06020000
    | .noSub => s.refuse via (index * 256 + sub) 0x06090011
    | .highest _ => s.refuse via (index * 256 + sub) 0x06010002
    | .noIndex => s.refuse via (index * 256 + sub) 0x06020000

/-- M8_JOB_LOAD (R539). -/
def execM8JobLoad (dt : Nat) (via : Path) (s : State) : Host.Outcome State Fault Refusal := act true dt s fun s => s.m8JobLoad via

/-! ## Reads (R493, R496, R535) -/

/-- Whether a function may read a channel's objects (R484). -/
def State.readOpen (s : State) (via : Path) (o : Obj) (i : Nat) : Bool :=
  o.base / 256 != 0x2C20 || decide (i < 8) || s.chanOpen via i

/-- A read of a running job's progress finds how far it has come by then (R461). -/
def State.rowsRead (s : State) (index sub : Nat) : State :=
  match s.place index sub with
  | .obj o i => if o.base = WH_PROGRESS_ROWS.base then s.rowsSeen i else s
  | _ => s

/-- A read over a transfer: its bytes, or the abort code (R535). -/
def State.readAt (s : State) (via : Path) (index sub : Nat) : Except Nat (List Byte) :=
  if isMap index ∧ sub ≤ 64 then
    let o := if index < 0x1A00 then RXPDO_MAP else TXPDO_MAP
    let b := s.readBlob o (index - o.base / 256)
    if sub = 0 then .ok (b.take 1) else if sub ≤ natAt b 0 1 then .ok (bytesAt b (4 * sub - 3) 4) else .error 0x06090011
  else
    match s.place index sub with
    | .noIndex => .error 0x06020000
    | .noSub => .error 0x06090011
    | .highest n => .ok [n]
    | .obj o i =>
      if o.acc = .cmd then .error 0x06010001
      else if !s.readOpen via o i then .error abortMode
      else .ok (s.readBytes o i)

end Sys2Proof.Machine
end

