-- ==== Sys2Proof/Machine/HostLink.lean ====
section
/-! DEFINITION. Machine/HostLink.lean: the host link's windows, fast-path page, interrupts, mailbox, pass-through channel and
links (R481 to R499, R508 to R511). -/
namespace Sys2Proof.Machine
open Reg

/-! ## Interrupts (R508, R509) -/

/-- HL_IRQ_STATUS_WRITE (R488, R509): each bit written as 1 clears its cause. -/
def execHlIrqStatusWrite (dt fn : Nat) (hi : Bool) (value : Nat) (s : State) : Host.Outcome State Fault Refusal :=
  act (decide (fn < 2)) dt s fun s =>
    let v := if hi then value % 2 ^ 32 * 2 ^ 32 else value % 2 ^ 32
    s.modFn fn (fun x => { x with irq := x.irq - (x.irq &&& v) })

/-- MSIX_UNMASK (R509): a vector that is pending sends its message. -/
def execMsixUnmask (dt fn vector : Nat) (s : State) : Host.Outcome State Fault Refusal :=
  act (decide (fn < 2) && decide (vector < 64)) dt s fun s =>
    s.modFn fn (fun x =>
      let y := { x with mask := setBit x.mask vector false }
      if bit x.pend vector then
        { y with pend := setBit x.pend vector false, msgs := x.msgs.put vector ((x.msgs.look vector).getD 0 + 1) }
      else y)

/-! ## The fast-path page and the aperture (R486 to R490) -/

/-- HL_WH_COMMIT_LO_READ (R81, R487, R490): the low word returns and the high word is latched; in DORMANT the page does not answer. -/
def execHlWhCommitLoRead (dt fn chan : Nat) (s : State) : Host.Outcome State Fault Refusal :=
  act (decide (fn < 2) && decide (chan < 32)) dt s fun s =>
    if s.asDormant then s
    else
      let v := s.readNum WH_DST_COMMIT chan
      (s.modFn fn (fun x => { x with readValue := v % 2 ^ 32, commitShadow := v / 2 ^ 32 })).fresh.2

/-- What a 32-bit read of a function's fast-path page returns, of the registers that can be read (R81, R487 to R490, R509): none of a
reserved offset, a doorbell or a page that does not answer. The message addresses and data of the MSI-X table belong to the host. -/
def State.pageRead (s : State) (fn off : Nat) : Option Nat :=
  let n := (off - 0x400) / 32
  let r := (off - 0x100) / 32
  let f := s.fn fn
  if s.asDormant ∨ off % 4 ≠ 0 then none
  else if off = 0 then some (0x4D120001 + fn * 256)
  else if off = 4 then some s.hlStatus
  else if off = 0x10 then some (f.irq % 2 ^ 32)
  else if off = 0x14 then some (f.irq / 2 ^ 32)
  else if off = 0x20 then some f.errAddr
  else if off = 0x24 then some f.errCode
  else if off = 0x200 then some s.host.mboxTail
  else if off = 0x204 then some s.host.mboxHead
  else if 0x100 ≤ off ∧ off < 0x180 then
    (if off % 32 = 0 then some (s.ring r).prod else if off % 32 = 4 then some (s.ring r).cons else none)
  else if 0x400 ≤ off ∧ off < 0x800 then
    (if off % 32 = 4 then some (s.readNum WH_STATUS n)
      else if off % 32 = 8 then some (s.readNum WH_PROGRESS_ROWS n)
      else if off % 32 = 12 then some (s.readNum WH_DST_COMMIT n % 2 ^ 32)
      else if off % 32 = 16 then some f.commitShadow
      else none)
  else if 0x8000 ≤ off ∧ off < 0x8400 ∧ off % 16 = 12 then some (b2n (bit f.mask ((off - 0x8000) / 16)))
  else if off = 0x9000 then some (f.pend % 2 ^ 32)
  else if off = 0x9004 then some (f.pend / 2 ^ 32)
  else none

/-- The first address of host scratch, and the first after it (R445). -/
def scratchLo : Nat := 0x2E00000000

/-- The end of host scratch (R445). -/
def scratchHi : Nat := 0x3000000000

/-- APERTURE_WRITE (R81, R486, R487): inside host scratch it takes effect, elsewhere it is dropped and tallied. -/
def execApertureWrite (dt fn offset : Nat) (data : List Nat) (s : State) : Host.Outcome State Fault Refusal :=
  act (decide (fn < 2) && decide (offset + data.length ≤ 2 ^ 30)) dt s fun s =>
    let a := s.get HL_APERTURE_BASE fn + offset
    if s.asDormant then s
    else if scratchLo ≤ a ∧ a + data.length ≤ scratchHi then s.dramWrite a (data.map (· % 256))
    else s.tally HL_APERTURE_WRITE_DROP

/-! ## The dictionary window (R491 to R493) -/

/-- What a window reads at index:subindex, or the abort code (R491, R493, R535). -/
def State.windowValue (s : State) (fn index sub : Nat) : Except Nat Nat :=
  if isMap index ∧ sub ≤ 64 then (s.readAt (.window fn) index sub).map leNat
  else
    match s.place index sub with
    | .noIndex => .error 0x06020000
    | .noSub => .error 0x06090011
    | .highest n => .ok n
    | .obj o i =>
      if o.acc = .cmd then .error 0x06010001
      else if !s.readOpen (.window fn) o i then .error abortMode
      else .ok (s.readWindow o i)

/-- HL_WINDOW_READ (R491 to R493). A refused read returns 0. -/
def execHlWindowRead (dt fn offset width : Nat) (s : State) : Host.Outcome State Fault Refusal :=
  act (decide (fn < 2) && decide (offset < 2 ^ 27)) dt s fun s =>
    let k := offset / 8
    let t := (s.volume HL_WINDOW_ACCESSES 0).rowsRead (k / 256) (k % 256)
    let no (c : Nat) : State := (t.modFn fn (fun x => { x with readValue := 0 })).refuse (.window fn) k c
    if (width ≠ 4 ∧ width ≠ 8) ∨ offset % width ≠ 0 then no 0x06070010
    else
      match t.windowValue fn (k / 256) (k % 256) with
      | .error c => no c
      | .ok v =>
        let u := t.accept.fresh.2
        if width = 8 then u.modFn fn (fun x => { x with readValue := v })
        else if offset % 8 = 0 then u.modFn fn (fun x => { x with readValue := v % 2 ^ 32, readShadow := some (v / 2 ^ 32) })
        else u.modFn fn (fun x => { x with readValue := x.readShadow.getD (v / 2 ^ 32), readShadow := none })

/-- The value an access of `n` bytes gives a type. -/
def windowInt (t : Ty) (n raw : Nat) : Int := if t.signed then toSigned (8 * n) raw else raw

/-- A window write to an object's instance: at once, or a 64-bit object's word by word (R492). -/
def State.windowObj (s : State) (fn : Nat) (o : Obj) (i : Nat) (high : Bool) (n raw : Nat) : State :=
  let via := Path.window fn
  let k := o.key i
  if o.ty.bytes = 0 then s.refuse via k (if o.acc = .ro then 0x06010002 else 0x06070010)
  else if o.ty.bytes = 8 ∧ n = 4 then
    if high then
      let t := s.modFn fn (fun x => { x with writeShadow := none })
      let go (t : State) (lo : Nat) : State := t.writeValue via o i (windowInt o.ty 8 (raw * 2 ^ 32 + lo % 2 ^ 32))
      match (s.fn fn).writeShadow with
      | some (a, lo) => if a = k then go t lo else go t.fresh.2 (Config.measured t.free)
      | none => go t.fresh.2 (Config.measured t.free)
    else s.modFn fn (fun x => { x with writeShadow := some (k, raw) })
  else if high then s
  else s.writeValue via o i (windowInt o.ty n raw)

/-- HL_WINDOW_WRITE (R491 to R493). -/
def execHlWindowWrite (dt fn offset : Nat) (data : List Nat) (s : State) : Host.Outcome State Fault Refusal :=
  act (decide (fn < 2) && decide (offset < 2 ^ 27)) dt s fun s =>
    let t := s.volume HL_WINDOW_ACCESSES 0
    let via := Path.window fn
    let n := data.length
    let k := offset / 8
    let high := decide (offset % 8 = 4)
    let raw := leNat (data.map (· % 256))
    let small (m : Nat) : State :=
      if high then t else if 256 ^ m ≤ raw then t.refuse via k 0x06070010 else t.writeAt via (k / 256) (k % 256) (leBytes m raw)
    if (n ≠ 4 ∧ n ≠ 8) ∨ offset % n ≠ 0 then t.refuse via k 0x06070010
    else if isMap (k / 256) ∧ k % 256 ≤ 64 then small (if k % 256 = 0 then 1 else 4)
    else
      match t.place (k / 256) (k % 256) with
      | .noIndex => t.refuse via k 0x06020000
      | .noSub => t.refuse via k 0x06090011
      | .highest _ => small 1
      | .obj o i => t.windowObj fn o i high n raw

/-! ## The mailbox (R495 to R497) -/

/-- HL_MBOX_TAIL_WRITE (R488, R495): the host has filled descriptors. -/
def execHlMboxTailWrite (dt fn value : Nat) (s : State) : Host.Outcome State Fault Refusal :=
  act (decide (fn < 2)) dt s fun s =>
    if s.mboxOf fn then { s with host := { s.host with mboxTail := value % 2 ^ 32 } } else s

/-- A descriptor of the function's mailbox is next to be processed: in order, one after the other (R495). -/
def State.mboxNext (s : State) (fn : Nat) : Bool :=
  s.mboxOf fn && s.host.mboxHead != s.host.mboxTail && !s.host.pt.any (fun r => r.fn == fn)

/-- The function that owns the mailbox. -/
def State.mboxFn (s : State) : Nat := s.get RING_FUNCTION 4

/-- DICT_READ (R496): the object is copied into the buffer, or nothing is. -/
def execDictRead (dt index sub bufLen : Nat) (s : State) : Host.Outcome State Fault Refusal :=
  act true dt s fun s =>
    let fn := s.mboxFn
    if !s.mboxNext fn then s
    else
      let s := s.rowsRead index sub
      match s.readAt (.mailbox fn) index sub with
      | .error c => s.fresh.2.mboxFinish fn 1 (mboxResult c) c 0
      | .ok b =>
        if bufLen < b.length then s.fresh.2.mboxFinish fn 1 mboxAbort 0x06070010 0
        else s.fresh.2.mboxFinish fn 1 mboxOk 0 b.length b

/-- DICT_WRITE (R496). -/
def execDictWrite (dt index sub : Nat) (data : List Nat) (s : State) : Host.Outcome State Fault Refusal :=
  act true dt s fun s =>
    let fn := s.mboxFn
    if !s.mboxNext fn then s
    else
      let t := s.writeAt (.mailbox fn) index sub (data.map (· % 256))
      t.mboxFinish fn 2 (mboxResult t.abort) t.abort (if t.abort = 0 then data.length else 0)

/-- Whether a store's buffer can be fetched: by the supervisor in DORMANT, else by the wharf (R463, R497). -/
def State.storeFetch (s : State) : Bool := s.asDormant || s.get WH_ALL_STOPPED == 0

/-- PKG_STORE (R497): offset 8 reads the SWITCH_RESULT code. -/
def execPkgStore (dt : Nat) (package : List Nat) (s : State) : Host.Outcome State Fault Refusal :=
  act true dt s fun s =>
    let fn := s.mboxFn
    if !(s.mboxNext fn && s.storeFetch) then s
    else
      let r := s.storePackage (package.map (· % 256))
      let res := if r.2 = 0 then mboxOk else if r.2 = 7 then mboxMode else if r.2 = 3 then mboxBusy else mboxAbort
      r.1.mboxFinish fn 3 res r.2 (if r.2 = 0 then package.length else 0)

/-- The most bytes of a firmware image (R544). -/
def imageLimit : Nat := 256 * 2 ^ 20

/-- FW_STORE (R75, R497, R542). -/
def execFwStore (dt : Nat) (image : List Nat) (signatureOk : Bool) (s : State) : Host.Outcome State Fault Refusal :=
  act true dt s fun s =>
    let fn := s.mboxFn
    if !(s.mboxNext fn && s.storeFetch) then s
    else if 1 < s.get MODE then (s.set FW_RESULT 0 4).mboxFinish fn 4 mboxMode abortMode 0
    else
      let t := s.storeImage (image.map (· % 256)) signatureOk
      if t.get FW_RESULT = 0 then t.mboxFinish fn 4 mboxOk 0 image.length
      else t.mboxFinish fn 4 mboxAbort 0x06040043 0

/-! ## The control pass-through channel (R92, R498, R499) -/

/-- The CoaXPress bootstrap registers of R92 by their addresses in the CoaXPress standard, 4 bytes each (PRESUMED, log entry 141). -/
def ownedRegisters : List Nat := [0x0000, 0x0004, 0x4000, 0x4004, 0x4008, 0x4010, 0x4014, 0x4018]

/-- Whether a write touches a register the M12 owns; the addresses of the Camera Link HS form are not given. -/
def State.touchesOwned (s : State) (bay addr len : Nat) : Bool :=
  if s.get BAY_LINK_TYPE bay = 2 then Config.clhsOwned addr len
  else ownedRegisters.any (fun r => decide (addr < r + 4) && decide (r < addr + len))

/-- A pass-through descriptor is taken up (R498): refused at once, or it joins the requests of its bay. -/
def State.camOp (s : State) (r : CamReq) : State :=
  let op := if r.write then 6 else 5
  if !s.mboxNext r.fn then s
  else if 12 ≤ r.bay ∨ r.len < 4 ∨ 512 < r.len ∨ r.len % 4 ≠ 0 then s.mboxFinish r.fn op mboxBadDesc 0 0
  else if r.write && s.touchesOwned r.bay r.addr r.len then s.mboxFinish r.fn op mboxOwned 0 0
  else if s.get BAY_STATE r.bay ≠ 1 ∧ s.get BAY_STATE r.bay ≠ 2 then s.mboxFinish r.fn op mboxNoLink 0 0
  else { s with host := { s.host with pt := s.host.pt ++ [r] } }.ptNext r.bay

/-- CAM_READ (R498). -/
def execCamRead (dt fn bay addr len : Nat) (s : State) : Host.Outcome State Fault Refusal :=
  act (decide (fn < 2)) dt s fun s => s.camOp { fn := fn, bay := bay, addr := addr, write := false, data := [], len := len }

/-- CAM_WRITE (R498). -/
def execCamWrite (dt fn bay addr : Nat) (data : List Nat) (s : State) : Host.Outcome State Fault Refusal :=
  act (decide (fn < 2)) dt s fun s =>
    s.camOp { fn := fn, bay := bay, addr := addr, write := true, data := data.map (· % 256), len := data.length }

/-- CAM_REPLY (R498, R499): the camera's answer to the oldest request of a bay, in time; a read's has its length. -/
def execCamReply (dt bay : Nat) (data : List Nat) (s : State) : Host.Outcome State Fault Refusal :=
  act (decide (bay < 12)) dt s fun s =>
    match s.ptFirst bay with
    | some r =>
      match r.sentAt with
      | some t =>
        if s.now < t + s.get HL_PT_TIMEOUT_MS * 1000000 ∧ (r.write ∨ data.length = r.len) then
          (s.ptEnds bay mboxOk r.len (if r.write then [] else data.map (· % 256))).ptNext bay
        else s
      | none => s
    | none => s

/-- PT_TIMEOUT (R498): the camera has not answered in time. -/
def execPtTimeout (dt bay : Nat) (s : State) : Host.Outcome State Fault Refusal :=
  act (decide (bay < 12)) dt s fun s =>
    match (s.ptFirst bay).bind CamReq.sentAt with
    | some t =>
      if t + s.get HL_PT_TIMEOUT_MS * 1000000 ≤ s.now then
        ((s.tally HL_PT_TIMEOUTS).ptEnds bay mboxTimeout 0).ptNext bay
      else s
    | none => s

/-! ## Links (R481, R482, R511, R526) -/

/-- LINK_DOWN (R511): a link down, hot reset or function-level reset. -/
def execLinkDown (dt fn : Nat) (s : State) : Host.Outcome State Fault Refusal :=
  act (decide (fn < 2)) dt s fun s =>
    if !(s.fn fn).up then s
    else
      let t := (s.tally HL_LINK_DOWNS).ringsOff (fun r => s.get RING_FUNCTION r == fn)
      let t := ((List.range 24).map (· + 8)).foldl (fun u n => if u.chanOwner n = fn then u.jobCut n 14 else u) t
      let t := { t with host := { t.host with pt := t.host.pt.filter (fun r => r.fn != fn) } }
      let t := t.modFn fn (fun x => { x with
        up := false, gen := 0, width := 0, readShadow := none, writeShadow := none, commitShadow := 0 })
      (List.range 12).foldl State.ptNext t

/-- HOST_LINK_UP (R481, R482, R526): a function's link has trained, within the mode in force and the generation cap. -/
def execHostLinkUp (dt fn gen width : Nat) (s : State) : Host.Outcome State Fault Refusal :=
  act (decide (fn < 2)) dt s fun s =>
    let two := s.get HL_LINK_MODE_ACTIVE = 1
    if (fn = 1 ∧ ¬two) ∨ gen < 1 ∨ s.get HL_MAX_GEN < gen ∨ (s.fn fn).up ∨
        !([1, 2, 4, 8] ++ (if two then [] else [16])).contains width then s
    else (s.modFn fn (fun x => { x with up := true, gen := gen, width := width })).flushRings

end Sys2Proof.Machine
end

