-- ==== Sys2Proof/Machine/EtherCat.lean ====
section
/-! DEFINITION. Machine/EtherCat.lean: the EtherCAT slave: state machine, process data, SDO, FoE and Distributed Clocks
(R513 to R535, R544). -/
namespace Sys2Proof.Machine
open Reg

/-! ## The state machine (R513 to R518) -/

/-- The transitions a master can request, from and to (PRESUMED, log entry 143). -/
def alLegal : List (Nat × Nat) :=
  [(1, 2), (1, 3), (2, 1), (2, 4), (4, 1), (4, 2), (4, 8), (8, 1), (8, 2), (8, 4), (3, 1)]

/-- The AL status code of PREOP to SAFEOP, 0 when it passes (R513, R517): the lengths are whole bytes of the assigned PDOs. DC may
be inactive, 0, unless the synchronisation is DC SYNC0 (DEDUCED, log entry 184). -/
def State.safeopCode (s : State) (sm : SmConfig) : Nat :=
  let mode := s.get SM2_SYNC_MODE
  if !sm.sm2Ok ∨ sm.sm2Length ≠ divRoundUp (s.rxBits s.ecat.rxCount) 8 then 0x001D
  else if !sm.sm3Ok ∨ sm.sm3Length ≠ divRoundUp (s.txBits s.ecat.txCount) 8 then 0x001E
  else if (mode = 2 ∨ sm.dcActivation ≠ 0) ∧ sm.dcActivation ≠ 1 ∧ sm.dcActivation ≠ 3 then 0x0030
  else if mode ≠ 0 ∧ (sm.cycleNs < 62500 ∨ 100000000 < sm.cycleNs) then 0x0035
  else 0

/-- AL_STATE_REQUEST (R516, R517, R531). -/
def execAlStateRequest (dt target : Nat) (sm : SmConfig) (s : State) : Host.Outcome State Fault Refusal :=
  act true dt s fun s =>
    let cur := s.get ECAT_STATE
    let no (c : Nat) : State := s.set ECAT_AL_STATUS_CODE 0 c
    if !([1, 2, 3, 4, 8] : List Nat).contains target then no 0x0012
    else if target = cur then s
    else if !alLegal.contains (cur, target) ∨ (target = 3 ∧ 1 < s.get MODE) then no 0x0011
    else if cur = 2 ∧ target = 4 then
      (if s.safeopCode sm = 0 then
        ((s.set ECAT_STATE 0 4).set ECAT_SYNC_MODE 0 (s.get SM2_SYNC_MODE)).set ECAT_CYCLE_NS 0
          (if s.get SM2_SYNC_MODE = 0 then 0 else sm.cycleNs)
      else no (s.safeopCode sm))
    else
      let t := s.set ECAT_STATE 0 target
      if target = 8 then { t with ecat := { t.ecat with rxPrev := none } } else t

/-- SM2_WATCHDOG (R518). -/
def execSm2Watchdog (dt : Nat) (s : State) : Host.Outcome State Fault Refusal :=
  act true dt s fun s =>
    if s.get ECAT_STATE ≠ 8 then s
    else
      let t := ((s.set ECAT_STATE 0 4).set ECAT_AL_STATUS_CODE 0 0x001B).tally PDO_WD_EXPIRED
      if t.get PDO_WD_ACTION = 1 then t.modeRequest .pdo 5 else t

/-! ## Process data (R523 to R531) -/

/-- The entries of a map that count: an object's key, or 0 for padding, and its bits. -/
def mapEntries (b : List Byte) : List (Key × Nat) :=
  (List.range (natAt b 0 1)).map (fun i =>
    let e := natAt b (1 + 4 * i) 4
    (if e / 65536 = 0 then 0 else e / 256, e % 256))

/-- The fields of a process data buffer, each with its place in bits. -/
def placed : Nat → List (Key × Nat) → List (Key × Nat × Nat)
  | _, [] => []
  | off, (k, n) :: r => (k, off, n) :: placed (off + n) r

/-- The assigned RxPDO's entries. -/
def State.rxEntries (s : State) : List (Key × Nat × Nat) :=
  if s.ecat.rxCount = 0 then [] else placed 0 (mapEntries (s.readBlob RXPDO_MAP (s.get RXPDO_ASSIGN - 0x1600)))

/-- The assigned TxPDOs' entries. -/
def State.txEntries (s : State) : List (Key × Nat × Nat) :=
  placed 0 ((List.range s.ecat.txCount).flatMap (fun i => mapEntries (s.readBlob TXPDO_MAP (s.get TXPDO_ASSIGN i - 0x1A00))))

/-- The content of SM3: every mapped object as it reads now (R525, R527). -/
def State.txPdo (s : State) : List Byte :=
  let es := s.txEntries
  leBytes (divRoundUp (s.txBits s.ecat.txCount) 8)
    (es.foldl (fun v e =>
      match findObj e.1 with
      | some (o, i) => v + s.readNum o i % 2 ^ e.2.2 * 2 ^ e.2.1
      | none => v) 0)

/-- An object's value in an RxPDO buffer; none where it is not mapped. -/
def rxValue (es : List (Key × Nat × Nat)) (o : Obj) (buf : List Byte) : Option Nat :=
  (es.find? (fun e => e.1 == o.base)).map (fun e => leNat buf / 2 ^ e.2.1 % 2 ^ e.2.2)

/-- The objects an RxPDO carries. -/
def rxObjs : List Obj := [PDO_CONTROL, PDO_MODE_REQUEST, PDO_SWITCH_COUNT, M8_CONTROL]

/-- Whether a bit of a control word rises from one buffer to the next. -/
def rises (es : List (Key × Nat × Nat)) (o : Obj) (n : Nat) (prev buf : List Byte) : Bool :=
  match rxValue es o prev, rxValue es o buf with
  | some a, some b => !bit a n && bit b n
  | _, _ => false

/-- What a buffer asks for, in order: HOLD, a mode request, SWITCH_ARM, EXP_COMMIT (R531, R538). -/
def State.rxActs (s : State) (es : List (Key × Nat × Nat)) (prev buf : List Byte) : State :=
  let up (n : Nat) : Bool := rises es PDO_CONTROL n prev buf || (decide (n < 2) && rises es M8_CONTROL n prev buf)
  let t := if up 0 then s.modeRequest .pdo 5 else s
  let t := match rxValue es PDO_MODE_REQUEST prev, rxValue es PDO_MODE_REQUEST buf with
    | some a, some b => if a = b ∨ b = 0xFF then t else if up 0 then t.modeResult 11 else t.modeRequest .pdo b
    | _, _ => t
  let t := if up 1 then
      (if t.get SWITCH_MODE = 0 then t.writeNum .pdo SWITCH_COUNT 0 (t.int PDO_SWITCH_COUNT) else t).switchArm .pdo
    else t
  if up 2 then t.expCommit .pdo else t

/-- RXPDO_BUFFER (R516, R531): a buffer of the assigned length, in OP. In DORMANT it is only the next one's reference. -/
def execRxpdoBuffer (dt : Nat) (buffer : List Nat) (s : State) : Host.Outcome State Fault Refusal :=
  act true dt s fun s =>
    let buf := buffer.map (· % 256)
    let es := s.rxEntries
    if s.get ECAT_STATE ≠ 8 ∨ buf.length ≠ divRoundUp (s.rxBits s.ecat.rxCount) 8 then s
    else
      let t := { s with ecat := { s.ecat with rxPrev := some buf } }
      if s.get MODE = 0 then t
      else
        let u := rxObjs.foldl (fun u o => match rxValue es o buf with
          | some v => u.set o 0 (o.unreserved v)
          | none => u) t
        match s.ecat.rxPrev with
        | none => u
        | some prev => u.rxActs es prev buf

/-! ## SDO (R533 to R535) -/

/-- Whether the CoE mailbox answers: in PREOP, SAFEOP and OP (R534). -/
def State.coeOpen (s : State) : Bool := s.get ECAT_STATE == 2 || s.get ECAT_STATE == 4 || s.get ECAT_STATE == 8

/-- The answer of a mailbox transfer. -/
def State.answered (s : State) (b : List Byte) : State := { s with abort := 0, ecat := { s.ecat with answer := b } }

/-- A mailbox transfer aborted. -/
def State.aborted (s : State) (code : Nat) : State := { s with abort := code, ecat := { s.ecat with answer := [] } }

/-- A record's entries for Complete Access: subindex and bytes, or the abort code (R534). -/
def State.caEntries (s : State) (index : Nat) : Except Nat (List (Nat × Nat)) :=
  if isMap index then
    let o := if index < 0x1A00 then RXPDO_MAP else TXPDO_MAP
    .ok ((List.range (natAt (s.readBlob o (index - o.base / 256)) 0 1)).map (fun i => (i + 1, 4)))
  else
    let subs := (subsOf index).mergeSort (· ≤ ·)
    if subs.isEmpty then .error 0x06020000
    else if subs = [0] then .error 0x06010004
    else
      let es := subs.map (fun sub => (sub, match findObj (index * 256 + sub) with
        | some (o, _) => o.ty.bytes
        | none => 0))
      if es.any (fun e => e.2 == 0) then .error 0x06010004 else .ok es

/-- Complete Access entries written in subindex order; the first refused ends the write (R534). -/
def State.writeEntries (s : State) (index : Nat) : List (Nat × Nat) → List Byte → State
  | [], rest => if rest.isEmpty then s.accept else s.refuse .sdo (index * 256) 0x06070010
  | (sub, n) :: es, rest =>
    let t := s.writeAt .sdo index sub (rest.take n)
    if t.abort = 0 then t.writeEntries index es (rest.drop n) else t

/-- A Complete Access write. From subindex 0 the data begins with the count and a byte of padding; of a mapping object the count
then says how many entries follow. -/
def State.writeComplete (s : State) (index sub : Nat) (data : List Byte) : State :=
  match s.caEntries index with
  | .error c => s.refuse .sdo (index * 256) c
  | .ok es =>
    if sub = 1 then s.writeEntries index es data
    else if 1 < sub then s.refuse .sdo (index * 256 + sub) 0x06090011
    else if isMap index then
      s.writeEntries index ((0, 1) :: (List.range (natAt data 0 1)).map (fun i => (i + 1, 4))) (data.take 1 ++ data.drop 2)
    else if (s.assigned index).isSome then s.writeEntries index ((0, 1) :: es) (data.take 1 ++ data.drop 2)
    else s.writeEntries index es (data.drop 2)

/-- SDO_DOWNLOAD (R534, R535). -/
def execSdoDownload (dt index sub : Nat) (complete : Bool) (data : List Nat) (s : State) : Host.Outcome State Fault Refusal :=
  act true dt s fun s =>
    let d := data.map (· % 256)
    if !s.coeOpen then s
    else
      let t := if complete then s.writeComplete index sub d else s.writeAt .sdo index sub d
      { t with ecat := { t.ecat with answer := [] } }

/-- A Complete Access read: the count and a byte of padding from subindex 0, then the entries; what a command entry reads as is not
stated. -/
def State.readComplete (s : State) (index sub : Nat) : Except Nat (List Byte) :=
  match s.caEntries index with
  | .error c => .error c
  | .ok es =>
    if 1 < sub then .error 0x06090011
    else
      let part (e : Nat × Nat) : List Byte := match s.readAt .sdo index e.1 with
        | .ok b => b
        | .error _ => (List.range e.2).map (fun j => Config.freeByte (s.free + 256 * e.1 + j) % 256)
      let head := match s.readAt .sdo index 0 with
        | .ok b => b ++ [0]
        | .error _ => [0, 0]
      .ok ((if sub = 0 then head else []) ++ es.flatMap part)

/-- SDO_UPLOAD (R534, R535). -/
def execSdoUpload (dt index sub : Nat) (complete : Bool) (s : State) : Host.Outcome State Fault Refusal :=
  act true dt s fun s =>
    if !s.coeOpen then s
    else
      let s := s.rowsRead index (if complete then 0x13 else sub)
      let t := s.fresh.2
      match (if complete then s.readComplete index sub else s.readAt .sdo index sub) with
      | .ok b => t.answered b
      | .error c => t.aborted c

/-- The CoE code of a type (R533). -/
def Ty.coe : Ty → Nat
  | .bool => 1
  | .i8 => 2
  | .i16 => 3
  | .i32 => 4
  | .u8 => 5
  | .u16 => 6
  | .u32 => 7
  | .real32 => 8
  | .str => 9
  | .octets => 10
  | .domain => 15
  | .i64 => 0x15
  | .u64 => 0x1B

/-- The access field of an entry (R534): bits 0 to 2 readable and 3 to 5 writable in PREOP, SAFEOP and OP, 6 and 7 mappable in an
RxPDO and a TxPDO (places of the bits PRESUMED, log entry 144). -/
def Obj.coeAccess (o : Obj) : Nat :=
  let mapped := decide (0x500000 ≤ o.base) && decide (o.base < 0x800000)
  match o.acc with
  | .ro => if mapped then 0x87 else 0x07
  | .cmd => 0x38
  | .pdo => 0x7F
  | _ => if mapped then 0xBF else 0x3F

/-- The indices of the dictionary, ascending, each once (R532). -/
def allIndices : List Nat :=
  ((rows.flatMap (fun o => (List.range o.count).map (fun i => o.key i / 256))).mergeSort (· ≤ ·)).eraseDups

/-- SDO_INFO (R533, R534): the object list (1), an object's description (2) or an entry's (3). -/
def execSdoInfo (dt kind index sub : Nat) (s : State) : Host.Outcome State Fault Refusal :=
  act true dt s fun s =>
    if !s.coeOpen then s
    else if kind = 1 then s.answered (allIndices.flatMap (leBytes 2))
    else
      let subs := subsOf index
      if subs.isEmpty ∧ ¬isMap index then s.aborted 0x06020000
      else if kind = 2 then
        let one := decide (subs = [0]) && !isMap index
        let ty := match findObj (index * 256) with
          | some (o, _) => o.ty.coe
          | none => 0
        s.answered (leBytes 2 index ++ leBytes 2 (if one then ty else 0) ++
          [if isMap index then 64 else (subs.max?).getD 0, if one then 7 else 9])
      else if isMap index then
        (if 64 < sub then s.aborted 0x06090011
        else s.answered (leBytes 2 index ++ [sub, 0] ++ (if sub = 0 then [5, 0, 8, 0] else [7, 0, 32, 0]) ++ leBytes 2 0x3F))
      else
        match s.place index sub with
        | .noIndex => s.aborted 0x06020000
        | .noSub => s.aborted 0x06090011
        | .highest _ => s.answered (leBytes 2 index ++ [0, 0, 5, 0, 8, 0] ++ leBytes 2 (if (s.assigned index).isSome then 0x3F else 7))
        | .obj o i =>
          s.answered (leBytes 2 index ++ [sub, 0] ++ leBytes 2 o.ty.coe ++
            leBytes 2 (if o.ty.bytes = 0 then 8 * (s.readBlob o i).length else o.ty.bits) ++ leBytes 2 o.coeAccess)

/-- SDO_SEGMENT_TIMEOUT (R535): the transfer is aborted; nothing of it has been written (R496). -/
def execSdoSegmentTimeout (dt : Nat) (s : State) : Host.Outcome State Fault Refusal :=
  act true dt s fun s => if s.coeOpen then s.aborted 0x05040000 else s

/-! ## Other mailbox protocols (R513, R544) -/

/-- MAILBOX_UNSUPPORTED (R513): AoE (1), EoE (2), SoE (5) and VoE (15) are answered with the mailbox error; the answer's words
are the standard's (PRESUMED, log entry 144). -/
def execMailboxUnsupported (dt proto : Nat) (s : State) : Host.Outcome State Fault Refusal :=
  act true dt s fun s =>
    if s.get ECAT_STATE = 1 ∨ proto = 3 ∨ proto = 4 then s
    else { s with ecat := { s.ecat with answer := [0x01, 0x00, 0x02, 0x00] } }

/-- An FoE write refused: its error code, and the result code that its text carries. -/
def State.foeError (s : State) (code detail : Nat) : State :=
  { s with abort := code, ecat := { s.ecat with answer := leBytes 4 code ++ [detail] } }

/-- FOE_WRITE (R544): a firmware image in BOOT, or a job package in PREOP, SAFEOP and OP. -/
def execFoeWrite (dt : Nat) (name : List Nat) (password : Nat) (data : List Nat) (signatureOk : Bool) (s : State) :
    Host.Outcome State Fault Refusal :=
  act true dt s fun s =>
    let d := data.map (· % 256)
    let st := s.get ECAT_STATE
    let fw := decide (name.take 5 = [0x4D, 0x31, 0x32, 0x46, 0x57])
    let job := decide (name.take 6 = [0x4D, 0x31, 0x32, 0x4A, 0x4F, 0x42])
    if st = 1 then s
    else if !fw && !job then s.foeError 0x8001 0
    else if password ≠ 0 then s.fresh.2.foeError (Config.measured s.free) 0
    else if fw then
      if 1 < s.get MODE then (s.set FW_RESULT 0 4).foeError 0x8002 4
      else if st ≠ 3 then s.foeError 0x8002 0
      else if imageLimit < d.length then s.foeError 0x8003 0
      else
        let t := s.storeImage d signatureOk
        if t.get FW_RESULT = 0 then t.answered [] else t.foeError 0x800B (t.get FW_RESULT)
    else if st = 3 ∨ s.get MODE = 5 then s.foeError 0x8002 0
    else if 64 * 2 ^ 20 < d.length then s.foeError 0x8003 0
    else
      let r := s.storePackage d
      if r.2 = 0 then r.1.answered [] else r.1.foeError 0x800B r.2

/-! ## Distributed Clocks (R519 to R522) -/

/-- SYNC0 (R522, R527): SYNC0 or SYNC1 enters the event matrix; SYNC0 samples the web count and speed. -/
def execSync0 (dt which : Nat) (s : State) : Host.Outcome State Fault Refusal :=
  act (decide (which < 2)) dt s fun s =>
    let t := if which = 0 then
        (s.set PDO_WEB_COUNT 0 (s.get WEB_COUNT)).set PDO_WEB_SPEED 0 (s.get WEB_SPEED_MM_S)
      else s
    t.emit (0x83 + which)

/-- SYNC_LOST (R522). -/
def execSyncLost (dt : Nat) (s : State) : Host.Outcome State Fault Refusal :=
  act true dt s fun s => if s.get ECAT_STATE = 8 ∧ s.get ECAT_SYNC_MODE = 2 then s.tally SYNC_LOST else s

/-- DC_TIME_STEP (R519, R520): the system time changes by `delta` ns, not by drift compensation. -/
def execDcTimeStep (dt : Nat) (delta : Int) (s : State) : Host.Outcome State Fault Refusal :=
  act true dt s fun s =>
    let t := { s with dc := ofSigned 64 (s.dc + delta) }
    if 1000 < delta.natAbs then (t.setInt DC_STEP_LAST_NS 0 delta).tally DC_TIME_STEPS else t

/-- DC_LOCK_LOST (R521, R540): a sample outside ±1 µs. -/
def execDcLockLost (dt : Nat) (difference : Int) (s : State) : Host.Outcome State Fault Refusal :=
  act true dt s fun s =>
    if s.get DC_LOCKED = 1 ∧ 1000 < difference.natAbs then
      ({ s with ecat := { s.ecat with dcLost := true } }.set DC_LOCKED 0 0).emcy 0x8700 0
    else s

/-- DC_LOCKED (R521, R540): the difference has stayed within ±100 ns for 100 ms. -/
def execDcLocked (dt : Nat) (s : State) : Host.Outcome State Fault Refusal :=
  act true dt s fun s =>
    ({ s with ecat := { s.ecat with dcLost := false } }.set DC_LOCKED 0 1).emcyCleared s

end Sys2Proof.Machine
end

