-- ==== Sys2Proof/Machine/Dispatch.lean ====
section
/-! DEFINITION. Machine/Dispatch.lean: the meaning of each command, one arm per constructor. -/
namespace Sys2Proof.Machine

/-- A command's effect on everything but the queue. -/
def exec (i : Instr) (s : State) : Host.Outcome State Fault Refusal :=
  match i with
  | .objectWrite dt via index sub data => Sys2Proof.Machine.execObjectWrite dt via index sub data s
  | .encCount dt a b held => Sys2Proof.Machine.execEncCount dt a b held s
  | .encWireFault dt line lowNs => Sys2Proof.Machine.execEncWireFault dt line lowNs s
  | .sincosQuadrantEdge dt input quadrant periodNs => Sys2Proof.Machine.execSincosQuadrantEdge dt input quadrant periodNs s
  | .encSerialPoll dt => Sys2Proof.Machine.execEncSerialPoll dt s
  | .encSerialPollDone dt word idle => Sys2Proof.Machine.execEncSerialPollDone dt word idle s
  | .index dt => Sys2Proof.Machine.execIndex dt s
  | .obsUpdate dt => Sys2Proof.Machine.execObsUpdate dt s
  | .encStandstill dt => Sys2Proof.Machine.execEncStandstill dt s
  | .cylToothEdge dt => Sys2Proof.Machine.execCylToothEdge dt s
  | .auxCount dt input a b held => Sys2Proof.Machine.execAuxCount dt input a b held s
  | .pulseEdge dt n => Sys2Proof.Machine.execPulseEdge dt n s
  | .pulseDividerWrite dt via n isQ value => Sys2Proof.Machine.execPulseDividerWrite dt via n isQ value s
  | .webCountSend dt => Sys2Proof.Machine.execWebCountSend dt s
  | .webCountFrame dt frame => Sys2Proof.Machine.execWebCountFrame dt frame s
  | .triggerIssue dt => Sys2Proof.Machine.execTriggerIssue dt s
  | .triggerWidthEnd dt bay => Sys2Proof.Machine.execTriggerWidthEnd dt bay s
  | .calLineTimer dt => Sys2Proof.Machine.execCalLineTimer dt s
  | .modeRequest dt via code => Sys2Proof.Machine.execModeRequest dt via code s
  | .holdExitFlush dt => Sys2Proof.Machine.execHoldExitFlush dt s
  | .bayRetry dt via bay => Sys2Proof.Machine.execBayRetry dt via bay s
  | .cxpSignalDetect dt bay signal => Sys2Proof.Machine.execCxpSignalDetect dt bay signal s
  | .cxpDiscoveryDone dt bay cam => Sys2Proof.Machine.execCxpDiscoveryDone dt bay cam s
  | .cxpStepUpLock dt bay => Sys2Proof.Machine.execCxpStepUpLock dt bay s
  | .cxpStepUpTimeout dt bay => Sys2Proof.Machine.execCxpStepUpTimeout dt bay s
  | .laneStepDone dt quad lane lanesOffered => Sys2Proof.Machine.execLaneStepDone dt quad lane lanesOffered s
  | .laneStepTimeout dt quad lane => Sys2Proof.Machine.execLaneStepTimeout dt quad lane s
  | .bringupEnd dt => Sys2Proof.Machine.execBringupEnd dt s
  | .laneLockLoss dt quad lane => Sys2Proof.Machine.execLaneLockLoss dt quad lane s
  | .laneRetrainFail dt quad lane => Sys2Proof.Machine.execLaneRetrainFail dt quad lane s
  | .laneRetrainDone dt quad lane => Sys2Proof.Machine.execLaneRetrainDone dt quad lane s
  | .blockLockGained dt quad lane symbols => Sys2Proof.Machine.execBlockLockGained dt quad lane symbols s
  | .alignOrderFault dt lane seq => Sys2Proof.Machine.execAlignOrderFault dt lane seq s
  | .pocxpOverload dt bay milliwatt overMs short => Sys2Proof.Machine.execPocxpOverload dt bay milliwatt overMs short s
  | .laneBer dt quad lane errors bits => Sys2Proof.Machine.execLaneBer dt quad lane errors bits s
  | .sliceSelftest dt via quad slice => Sys2Proof.Machine.execSliceSelftest dt via quad slice s
  | .sliceSelftestDone dt quad bits errors => Sys2Proof.Machine.execSliceSelftestDone dt quad bits errors s
  | .spareSliceCheck dt => Sys2Proof.Machine.execSpareSliceCheck dt s
  | .spareSliceCheckDone dt quad slice errors => Sys2Proof.Machine.execSpareSliceCheckDone dt quad slice errors s
  | .lbRunStart dt via quad locked => Sys2Proof.Machine.execLbRunStart dt via quad locked s
  | .lbRunStop dt via quad bits errors => Sys2Proof.Machine.execLbRunStop dt via quad bits errors s
  | .bayClear dt via bay => Sys2Proof.Machine.execBayClear dt via bay s
  | .cascadeClear dt via => Sys2Proof.Machine.execCascadeClear dt via s
  | .capability dt frame => Sys2Proof.Machine.execCapability dt frame s
  | .rttRequest dt frame turnaround => Sys2Proof.Machine.execRttRequest dt frame turnaround s
  | .rttReply dt frame => Sys2Proof.Machine.execRttReply dt frame s
  | .latency dt frame => Sys2Proof.Machine.execLatency dt frame s
  | .lbRequest dt frame => Sys2Proof.Machine.execLbRequest dt frame s
  | .lbReply dt frame => Sys2Proof.Machine.execLbReply dt frame s
  | .cameraPacket dt bay pkt => Sys2Proof.Machine.execCameraPacket dt bay pkt s
  | .lineLate dt bay line => Sys2Proof.Machine.execLineLate dt bay line s
  | .expCommit dt via => Sys2Proof.Machine.execExpCommit dt via s
  | .intakeClear dt via => Sys2Proof.Machine.execIntakeClear dt via s
  | .tilePacket dt easel ctx packet => Sys2Proof.Machine.execTilePacket dt easel ctx packet s
  | .easelLineDone dt easel phys ack => Sys2Proof.Machine.execEaselLineDone dt easel phys ack s
  | .easelLoadWindow dt easel => Sys2Proof.Machine.execEaselLoadWindow dt easel s
  | .easelCtxCommit dt via easel ctx => Sys2Proof.Machine.execEaselCtxCommit dt via easel ctx s
  | .easelPalCommit dt via easel ctx => Sys2Proof.Machine.execEaselPalCommit dt via easel ctx s
  | .easelClear dt via easel => Sys2Proof.Machine.execEaselClear dt via easel s
  | .easelHeartbeatSend dt => Sys2Proof.Machine.execEaselHeartbeatSend dt s
  | .easelHbDeadline dt easel => Sys2Proof.Machine.execEaselHbDeadline dt easel s
  | .easelSelftest dt via phys => Sys2Proof.Machine.execEaselSelftest dt via phys s
  | .easelSelftestDone dt pass => Sys2Proof.Machine.execEaselSelftestDone dt pass s
  | .spareEaselCheck dt => Sys2Proof.Machine.execSpareEaselCheck dt s
  | .joinerSegment dt bay fill => Sys2Proof.Machine.execJoinerSegment dt bay fill s
  | .completionNote dt bay => Sys2Proof.Machine.execCompletionNote dt bay s
  | .seamForcedComplete dt view => Sys2Proof.Machine.execSeamForcedComplete dt view s
  | .seamClear dt via view => Sys2Proof.Machine.execSeamClear dt via view s
  | .overlapFrame dt frame => Sys2Proof.Machine.execOverlapFrame dt frame s
  | .markSearchDone dt rep => Sys2Proof.Machine.execMarkSearchDone dt rep s
  | .regRowDone dt view row => Sys2Proof.Machine.execRegRowDone dt view row s
  | .regLearn dt via => Sys2Proof.Machine.execRegLearn dt via s
  | .regUpSave dt via => Sys2Proof.Machine.execRegUpSave dt via s
  | .regClear dt via => Sys2Proof.Machine.execRegClear dt via s
  | .taskIssue dt view => Sys2Proof.Machine.execTaskIssue dt view s
  | .fragment dt src => Sys2Proof.Machine.execFragment dt src s
  | .taskEnd dt src loadWaitNs => Sys2Proof.Machine.execTaskEnd dt src loadWaitNs s
  | .tileDeadline dt tile => Sys2Proof.Machine.execTileDeadline dt tile s
  | .tileHeartbeatTask dt tile => Sys2Proof.Machine.execTileHeartbeatTask dt tile s
  | .tideCommit dt via => Sys2Proof.Machine.execTideCommit dt via s
  | .tideLoadWindow dt => Sys2Proof.Machine.execTideLoadWindow dt s
  | .tileSelftest dt via phys => Sys2Proof.Machine.execTileSelftest dt via phys s
  | .tileSelftestDone dt pass => Sys2Proof.Machine.execTileSelftestDone dt pass s
  | .spareTileCheck dt phys => Sys2Proof.Machine.execSpareTileCheck dt phys s
  | .fabricClear dt via => Sys2Proof.Machine.execFabricClear dt via s
  | .fragmentFrame dt frame => Sys2Proof.Machine.execFragmentFrame dt frame s
  | .defCascadeWait dt => Sys2Proof.Machine.execDefCascadeWait dt s
  | .rejectHoldEnd dt => Sys2Proof.Machine.execRejectHoldEnd dt s
  | .markWidthEnd dt marker => Sys2Proof.Machine.execMarkWidthEnd dt marker s
  | .markOnLimit dt marker => Sys2Proof.Machine.execMarkOnLimit dt marker s
  | .markerOvercurrent dt marker => Sys2Proof.Machine.execMarkerOvercurrent dt marker s
  | .defClear dt via => Sys2Proof.Machine.execDefClear dt via s
  | .motionClear dt via => Sys2Proof.Machine.execMotionClear dt via s
  | .filterOutput dt group sinc => Sys2Proof.Machine.execFilterOutput dt group sinc s
  | .fcPresetWrite dt via group value => Sys2Proof.Machine.execFcPresetWrite dt via group value s
  | .fcCoefCommit dt via group => Sys2Proof.Machine.execFcCoefCommit dt via group s
  | .fcCoefFactory dt via group => Sys2Proof.Machine.execFcCoefFactory dt via group s
  | .fcSync dt via mask => Sys2Proof.Machine.execFcSync dt via mask s
  | .fcCaptureRun dt via => Sys2Proof.Machine.execFcCaptureRun dt via s
  | .fcClear dt via => Sys2Proof.Machine.execFcClear dt via s
  | .digitalInputEdge dt input level held => Sys2Proof.Machine.execDigitalInputEdge dt input level held s
  | .eventDeliver dt => Sys2Proof.Machine.execEventDeliver dt s
  | .lutGlitchExpiry dt cell => Sys2Proof.Machine.execLutGlitchExpiry dt cell s
  | .chanHoldoffEnd dt chan => Sys2Proof.Machine.execChanHoldoffEnd dt chan s
  | .chanRateWindow dt chan => Sys2Proof.Machine.execChanRateWindow dt chan s
  | .timerExpire dt n => Sys2Proof.Machine.execTimerExpire dt n s
  | .markPulse dt marker => Sys2Proof.Machine.execMarkPulse dt marker s
  | .timerStart dt n => Sys2Proof.Machine.execTimerStart dt n s
  | .timerStop dt n => Sys2Proof.Machine.execTimerStop dt n s
  | .latch dt n => Sys2Proof.Machine.execLatch dt n s
  | .evtCount dt n => Sys2Proof.Machine.execEvtCount dt n s
  | .hostEvt dt n => Sys2Proof.Machine.execHostEvt dt n s
  | .ecatToggle dt n => Sys2Proof.Machine.execEcatToggle dt n s
  | .fcSyncGroup dt group => Sys2Proof.Machine.execFcSyncGroup dt group s
  | .detStart dt det => Sys2Proof.Machine.execDetStart dt det s
  | .pulseZero dt n => Sys2Proof.Machine.execPulseZero dt n s
  | .holdRequest dt => Sys2Proof.Machine.execHoldRequest dt s
  | .traceMark dt => Sys2Proof.Machine.execTraceMark dt s
  | .evtSoft dt via mask => Sys2Proof.Machine.execEvtSoft dt via mask s
  | .evtSave dt via => Sys2Proof.Machine.execEvtSave dt via s
  | .chanCfgWrite dt via chan value => Sys2Proof.Machine.execChanCfgWrite dt via chan value s
  | .cellCfgWrite dt via cell value => Sys2Proof.Machine.execCellCfgWrite dt via cell value s
  | .evtClear dt via => Sys2Proof.Machine.execEvtClear dt via s
  | .sramUncorrectable dt region unit => Sys2Proof.Machine.execSramUncorrectable dt region unit s
  | .sramScrub dt region unit corrected => Sys2Proof.Machine.execSramScrub dt region unit corrected s
  | .dramPoisonRead dt pkg consumer => Sys2Proof.Machine.execDramPoisonRead dt pkg consumer s
  | .dramPatrol dt rates => Sys2Proof.Machine.execDramPatrol dt rates s
  | .dramMigrate dt via pkg => Sys2Proof.Machine.execDramMigrate dt via pkg s
  | .dramMigrateDone dt => Sys2Proof.Machine.execDramMigrateDone dt s
  | .dramPkgDead dt pkg cause => Sys2Proof.Machine.execDramPkgDead dt pkg cause s
  | .dramSelftest dt via pkg => Sys2Proof.Machine.execDramSelftest dt via pkg s
  | .dramSelftestDone dt errors => Sys2Proof.Machine.execDramSelftestDone dt errors s
  | .spareDramCheck dt => Sys2Proof.Machine.execSpareDramCheck dt s
  | .memClear dt via => Sys2Proof.Machine.execMemClear dt via s
  | .whStart dt via chan => Sys2Proof.Machine.execWhStart dt via chan s
  | .whAbort dt via chan => Sys2Proof.Machine.execWhAbort dt via chan s
  | .whFlush dt via chan consumed => Sys2Proof.Machine.execWhFlush dt via chan consumed s
  | .whRestart dt via settled => Sys2Proof.Machine.execWhRestart dt via settled s
  | .whJobDone dt chan host => Sys2Proof.Machine.execWhJobDone dt chan host s
  | .whBusError dt kind addr progress => Sys2Proof.Machine.execWhBusError dt kind addr progress s
  | .whClear dt via => Sys2Proof.Machine.execWhClear dt via s
  | .cmpClear dt via => Sys2Proof.Machine.execCmpClear dt via s
  | .hlRingConsWrite dt fn ring value => Sys2Proof.Machine.execHlRingConsWrite dt fn ring value s
  | .hlMboxTailWrite dt fn value => Sys2Proof.Machine.execHlMboxTailWrite dt fn value s
  | .hlIrqStatusWrite dt fn hi value => Sys2Proof.Machine.execHlIrqStatusWrite dt fn hi value s
  | .msixUnmask dt fn vector => Sys2Proof.Machine.execMsixUnmask dt fn vector s
  | .hlWhCommitLoRead dt fn chan => Sys2Proof.Machine.execHlWhCommitLoRead dt fn chan s
  | .hlWindowRead dt fn offset width => Sys2Proof.Machine.execHlWindowRead dt fn offset width s
  | .hlWindowWrite dt fn offset data => Sys2Proof.Machine.execHlWindowWrite dt fn offset data s
  | .apertureWrite dt fn offset data => Sys2Proof.Machine.execApertureWrite dt fn offset data s
  | .ringEnableWrite dt via ring value => Sys2Proof.Machine.execRingEnableWrite dt via ring value s
  | .dictRead dt index sub bufLen => Sys2Proof.Machine.execDictRead dt index sub bufLen s
  | .dictWrite dt index sub data => Sys2Proof.Machine.execDictWrite dt index sub data s
  | .pkgStore dt package => Sys2Proof.Machine.execPkgStore dt package s
  | .fwStore dt image signatureOk => Sys2Proof.Machine.execFwStore dt image signatureOk s
  | .camRead dt fn bay addr len => Sys2Proof.Machine.execCamRead dt fn bay addr len s
  | .camWrite dt fn bay addr data => Sys2Proof.Machine.execCamWrite dt fn bay addr data s
  | .camReply dt bay data => Sys2Proof.Machine.execCamReply dt bay data s
  | .ptTimeout dt bay => Sys2Proof.Machine.execPtTimeout dt bay s
  | .ringCoalesceExpiry dt ring => Sys2Proof.Machine.execRingCoalesceExpiry dt ring s
  | .linkDown dt fn => Sys2Proof.Machine.execLinkDown dt fn s
  | .hlClear dt via => Sys2Proof.Machine.execHlClear dt via s
  | .alStateRequest dt target sm => Sys2Proof.Machine.execAlStateRequest dt target sm s
  | .sm2Watchdog dt => Sys2Proof.Machine.execSm2Watchdog dt s
  | .rxpdoBuffer dt buffer => Sys2Proof.Machine.execRxpdoBuffer dt buffer s
  | .sdoDownload dt index sub complete data => Sys2Proof.Machine.execSdoDownload dt index sub complete data s
  | .sdoUpload dt index sub complete => Sys2Proof.Machine.execSdoUpload dt index sub complete s
  | .sdoInfo dt kind index sub => Sys2Proof.Machine.execSdoInfo dt kind index sub s
  | .sdoSegmentTimeout dt => Sys2Proof.Machine.execSdoSegmentTimeout dt s
  | .mailboxUnsupported dt proto => Sys2Proof.Machine.execMailboxUnsupported dt proto s
  | .foeWrite dt name password data signatureOk => Sys2Proof.Machine.execFoeWrite dt name password data signatureOk s
  | .sync0 dt which => Sys2Proof.Machine.execSync0 dt which s
  | .syncLost dt => Sys2Proof.Machine.execSyncLost dt s
  | .dcTimeStep dt delta => Sys2Proof.Machine.execDcTimeStep dt delta s
  | .dcLockLost dt difference => Sys2Proof.Machine.execDcLockLost dt difference s
  | .storeParameters dt via value => Sys2Proof.Machine.execStoreParameters dt via value s
  | .restoreDefaults dt via value => Sys2Proof.Machine.execRestoreDefaults dt via value s
  | .m8MirrorWrite dt via index sub value => Sys2Proof.Machine.execM8MirrorWrite dt via index sub value s
  | .m8JobLoad dt via => Sys2Proof.Machine.execM8JobLoad dt via s
  | .fwActivate dt via => Sys2Proof.Machine.execFwActivate dt via s
  | .ecatClear dt via => Sys2Proof.Machine.execEcatClear dt via s
  | .preload dt via => Sys2Proof.Machine.execPreload dt via s
  | .loadComplete dt => Sys2Proof.Machine.execLoadComplete dt s
  | .switchArm dt via => Sys2Proof.Machine.execSwitchArm dt via s
  | .switchCancel dt via => Sys2Proof.Machine.execSwitchCancel dt via s
  | .barIdentRead dt chan memory tempMc => Sys2Proof.Machine.execBarIdentRead dt chan memory tempMc s
  | .barLifeTick dt chan meanMa dutyPermille milliVolt => Sys2Proof.Machine.execBarLifeTick dt chan meanMa dutyPermille milliVolt s
  | .barLifeWrite dt chan => Sys2Proof.Machine.execBarLifeWrite dt chan s
  | .barFault dt chan kind => Sys2Proof.Machine.execBarFault dt chan kind s
  | .calStep dt via => Sys2Proof.Machine.execCalStep dt via s
  | .calMeasureDone dt meas => Sys2Proof.Machine.execCalMeasureDone dt meas s
  | .calAccept dt via => Sys2Proof.Machine.execCalAccept dt via s
  | .calAbort dt via => Sys2Proof.Machine.execCalAbort dt via s
  | .trimDue dt bay => Sys2Proof.Machine.execTrimDue dt bay s
  | .trimNow dt via bay => Sys2Proof.Machine.execTrimNow dt via bay s
  | .trimResult dt meas => Sys2Proof.Machine.execTrimResult dt meas s
  | .lightClear dt via => Sys2Proof.Machine.execLightClear dt via s
  | .calClear dt via => Sys2Proof.Machine.execCalClear dt via s
  | .mainsHalfCycle dt peakV rmsDeciV centiHz => Sys2Proof.Machine.execMainsHalfCycle dt peakV rmsDeciV centiHz s
  | .mainsLoss dt => Sys2Proof.Machine.execMainsLoss dt s
  | .mainsPowerDown dt => Sys2Proof.Machine.execMainsPowerDown dt s
  | .powerCheck dt => Sys2Proof.Machine.execPowerCheck dt s
  | .psuStageFault dt stage => Sys2Proof.Machine.execPsuStageFault dt stage s
  | .domainPowergood dt domain => Sys2Proof.Machine.execDomainPowergood dt domain s
  | .domainPowergoodTimeout dt domain => Sys2Proof.Machine.execDomainPowergoodTimeout dt domain s
  | .islandRelease dt island cycles => Sys2Proof.Machine.execIslandRelease dt island cycles s
  | .islandLockTimeout dt island => Sys2Proof.Machine.execIslandLockTimeout dt island s
  | .islandWake dt island => Sys2Proof.Machine.execIslandWake dt island s
  | .mooringToken dt island => Sys2Proof.Machine.execMooringToken dt island s
  | .resetWarm dt via => Sys2Proof.Machine.execResetWarm dt via s
  | .resetCold dt via bootFails => Sys2Proof.Machine.execResetCold dt via bootFails s
  | .resetButton dt heldMs bootFails => Sys2Proof.Machine.execResetButton dt heldMs bootFails s
  | .aoBrownout dt bootFails => Sys2Proof.Machine.execAoBrownout dt bootFails s
  | .powerOn dt stages bootFails => Sys2Proof.Machine.execPowerOn dt stages bootFails s
  | .tempSample dt dieMc inletMc => Sys2Proof.Machine.execTempSample dt dieMc inletMc s
  | .thermalTrip dt => Sys2Proof.Machine.execThermalTrip dt s
  | .wdtExpiry dt => Sys2Proof.Machine.execWdtExpiry dt s
  | .supervisorRestart dt => Sys2Proof.Machine.execSupervisorRestart dt s
  | .ioSupplyLow dt milliVolt => Sys2Proof.Machine.execIoSupplyLow dt milliVolt s
  | .powerClear dt via => Sys2Proof.Machine.execPowerClear dt via s
  | .logbookCountersTimer dt => Sys2Proof.Machine.execLogbookCountersTimer dt s
  | .logbookWearTimer dt => Sys2Proof.Machine.execLogbookWearTimer dt s
  | .logbookFactoryReset dt via value => Sys2Proof.Machine.execLogbookFactoryReset dt via value s
  | .snapTake dt via slot => Sys2Proof.Machine.execSnapTake dt via slot s
  | .snapDone dt => Sys2Proof.Machine.execSnapDone dt s
  | .snapDelete dt via slot => Sys2Proof.Machine.execSnapDelete dt via slot s
  | .roMeasure dt tiles easels => Sys2Proof.Machine.execRoMeasure dt tiles easels s
  | .fanDeficit dt fan => Sys2Proof.Machine.execFanDeficit dt fan s
  | .lbkClear dt via => Sys2Proof.Machine.execLbkClear dt via s
  | .obsSampleTimer dt => Sys2Proof.Machine.execObsSampleTimer dt s
  | .dcLocked dt => Sys2Proof.Machine.execDcLocked dt s
  | .wireClear dt => Sys2Proof.Machine.execWireClear dt s
  | .hostLinkUp dt fn gen width => Sys2Proof.Machine.execHostLinkUp dt fn gen width s
  | .ioSupplyReturn dt milliVolt => Sys2Proof.Machine.execIoSupplyReturn dt milliVolt s
  | .spareEaselCheckDone dt pass => Sys2Proof.Machine.execSpareEaselCheckDone dt pass s
  | .spareTileCheckDone dt phys pass => Sys2Proof.Machine.execSpareTileCheckDone dt phys pass s
  | .spareDramCheckDone dt errors => Sys2Proof.Machine.execSpareDramCheckDone dt errors s
  | .supervisorRegionRebuilt dt => Sys2Proof.Machine.execSupervisorRegionRebuilt dt s
  | .seamHoldbackEnd dt view => Sys2Proof.Machine.execSeamHoldbackEnd dt view s
  | .fanTrayChange dt serial => Sys2Proof.Machine.execFanTrayChange dt serial s

end Sys2Proof.Machine
end

