-- ==== Sys2Proof/Machine/Footprint.lean ====
section
/-! DEFINITION. Machine/Footprint.lean: what each command may move of the registers, of module DRAM, of host memory and of the
contents of strings and domains. A command that finds the module without power only lets time pass. -/
namespace Sys2Proof.Machine

/-! ## Registers that one effect may move -/

section
open Reg

/-- The objects that a job's preset list or a strip or repeat boundary may set (R10, R41). -/
def presetRegs : List Obj := rows.filter Obj.mayPreset

/-- Emergency messages sent and lost (R540). -/
def emcyRegs : List Obj :=
  [EMCY_LOST, EMCY_SENT]

/-- Unit states (R625). -/
def unitRegs : List Obj :=
  [DRAM_PKG_STATE, EASEL_PHYS_STATE, SLICE_STATE, TILE_PHYS_STATE]

/-- Unit epochs (R628). -/
def epochRegs : List Obj :=
  [DRAM_PKG_EPOCH, EASEL_EPOCH, SLICE_EPOCH, TILE_EPOCH]

/-- What an entry of the logbook moves (R608, R613). -/
def logRegs : List Obj :=
  [LOGBOOK_COMMITS, LOGBOOK_ERASES_MAX, LOGBOOK_HEAD_SECTOR, LOGBOOK_LAST_COMMIT_TIME, LOGBOOK_SEQ]

/-- What every tally, event and trace record may move: a lost pulse, a saturated tally, a lost record (R604, R637, R648). -/
def bookRegs : List Obj :=
  [SAT_LAST, TRACE_LOST, XING_PULSE_LOST, XING_PULSE_LOST_LAST, XING_STATUS]

/-- What a defect record may move. -/
def recordRegs : List Obj :=
  logRegs ++ bookRegs ++ [DEF_NEXT_ID, DEF_RECORDS, RING_DROP, RING_FRAMES, RING_OVERSIZE, RING_STAGED_BYTES,
    WHARF_HOST_WR_BYTES]

/-- What a unit declared dead may move. -/
def declareRegs : List Obj :=
  logRegs ++ bookRegs ++ unitRegs ++ epochRegs

/-- What a mode change may move. -/
def modeRegs : List Obj :=
  bookRegs ++ emcyRegs ++ [CAL_RESULT, CAL_STATE, FAN_TRAY_MINUTES, MODE, MODE_CHANGE_LINE, MODE_ENTRY_TIME,
    MODE_PENDING, MODE_RESULT, MODULE_INSPECT_MINUTES, MODULE_ON_MINUTES, PSU_ON_MINUTES, REG_LEARN_STATE,
    REG_UP_PRESENT, TRIM_ABANDONED, TRIM_BUSY_BAY, TRIM_LAST_RESULT, TRIM_LAST_STRIP]

/-- What the entry into HOLD may move. -/
def holdRegs : List Obj :=
  modeRegs ++ [BAR_CURRENT_MA, BAR_STATE, BAY_LANES_UP, BAY_POCXP_MW, BAY_SPEED, BAY_STATE, EASEL_STATE,
    FERRY_DISCARD, HOLD_CAUSE, HOLD_COUNT, HOLD_FROM_DORMANT, HOLD_MARKER_DISCARD, ISLAND_STATE,
    ISO_ERROR_RESPONSES, LANE_STATE, MARK_NEXT_COUNT, MARK_QUEUE_FILL, PD_STATE, REJECT_BITMAP, REJECT_QUEUE_DROP,
    TILE_LOG_STATE, WHARF_HOST_WR_BYTES]

/-- What a flush of the data path may move. -/
def flushRegs : List Obj :=
  recordRegs ++ [CROP_SKIPPED, DEF_CANDIDATES, DEF_CUT, DEF_DEFAULT_HITS, DEF_FLOOD_RECORDS, DEF_REJECT_ITEMS,
    DEF_SUPPRESSED, MARK_LATE, MARK_NEXT_COUNT, MARK_QUEUE_FILL, MARK_QUEUE_FULL, REG_ANCHORS_X, REG_ANCHORS_Y,
    REG_CONF_PERMILLE, REG_FIELD_ADDR, REG_LEARN_BAND, REG_LEARN_REJECT, REG_LEARN_STATE, REG_LEARN_VAR_BLOCKS,
    REG_MEAN_DX, REG_MEAN_DY, REG_VAR_MAP_ADDR, REJECT_BITMAP, REJECT_QUEUE_DROP, REJECT_REPEAT, REJECT_ROW,
    REJECT_SEQ, SWITCH_STATE]

/-- What the fabric may move. -/
def fabricRegs : List Obj :=
  flushRegs ++ [TIDE_APPLY_LINE, TIDE_BANK_ACTIVE, TIDE_GENERATION, TIDE_PENDING, TIDE_RESULT]

/-- What arming a job may move. -/
def jobRegs : List Obj :=
  presetRegs ++ fabricRegs ++ [ACTIVE_SLOT, BAR_CURRENT_MA, BAR_STATE, EXP_APPLY_STRIP, EXP_COMMIT_REPLACED,
    EXP_PENDING, JOB_STAMP, JOB_START_COUNT, LIGHT_POWER_W, REG_CAPTURES, REG_SLOT_ACTIVE, REG_UP_PRESENT,
    SWITCH_LINE, SWITCH_RESULT, TRIG_NEXT_COUNT]

/-- What a mode that is left may move. -/
def leaveRegs : List Obj :=
  fabricRegs ++ unitRegs ++ [BAR_CURRENT_MA, BAR_STATE, BAY_LANES_UP, CAL_RESULT, CAL_STATE, DET_DISCARDED,
    DRAM_MIGRATE_PERMILLE, DRAM_MIGRATE_STATE, EASEL_LOAD_MAX_PERMILLE, EASEL_PHYS, EASEL_QUAY_FILL,
    EASEL_QUAY_PEAK, EASEL_STATE, ISLAND_STATE, LANE_SLICE, LANE_STATE, LIGHT_POWER_W, MODE_PENDING, PD_STATE,
    REG_CAPTURES, TILE_LOG_STATE, TILE_PHYS, TRIG_NEXT_COUNT]

/-- What a mode request may move. -/
def requestRegs : List Obj :=
  fabricRegs ++ holdRegs ++ [DET_DISCARDED, HL_DICT_ERRORS, LIGHT_POWER_W, REG_CAPTURES, TRIG_NEXT_COUNT]

/-- What a count of the web may move. -/
def countRegs : List Obj :=
  leaveRegs ++ modeRegs ++ [AUX_SLIP, ENC_FAULT, MARK_FIRED, OBS_ACCEL, OBS_EXTREME, OBS_POSITION, OBS_REVERSALS,
    OBS_SPEED, OBS_STATE, PULSE_BACKLOG, PULSE_COUNT, PULSE_OVERRUN, WEB_COUNT, WEB_HIGH_WATER, WEB_SPEED_MM_S]

/-- What the entry into READY may move. -/
def readyRegs : List Obj :=
  presetRegs ++ fabricRegs ++ modeRegs ++ unitRegs ++ [ACTIVE_SLOT, BAR_CURRENT_MA, BAR_STATE, BAY_LANES_UP,
    CAM_SEAM_GAIN_L, CAM_SEAM_GAIN_N, CELL_CFG, CHAN_CFG, CHAN_HOLDOFF, CHAN_RATE_LIMIT, CHAN_RATE_WINDOW_US,
    DET_DISCARDED, DRAM_MIGRATE_PERMILLE, DRAM_MIGRATE_STATE, EASEL_BYPASS, EASEL_PHYS, EASEL_QUAY_FILL,
    EASEL_QUAY_PEAK, EASEL_STATE, EXP_APPLY_STRIP, EXP_COMMIT_REPLACED, EXP_PENDING, HOLD_CAUSE,
    HOLD_FROM_DORMANT, ISLAND_STATE, JOB_STAMP, JOB_START_COUNT, LANE_SLICE, LANE_STATE, LIGHT_POWER_W, PD_STATE,
    TILE_LOG_STATE, TILE_PHYS, TIMER_PERIOD, TRIG_NEXT_COUNT]

/-- What the loss of a DRAM package may move. -/
def lostRegs : List Obj :=
  fabricRegs ++ holdRegs ++ declareRegs ++ [ARCHIVE_GAPS, CANVAS_ARCHIVE_EVICT, CANVAS_CROP_EVICT, CANVAS_OVERRUN,
    CMP_ENGINES_BUSY, CMP_FAIL, DRAM_MIGRATE_STATE, DRAM_PKG_CHANNEL, EASEL_QUAY_DROP, EASEL_QUAY_FILL,
    EASEL_QUAY_PEAK, REG_CAPTURES, SWITCH_RESULT, WHARF_HOST_RD_BYTES, WH_PROGRESS_ROWS, WH_STATUS]

/-- What a task input of the event matrix may move. -/
def taskRegs : List Obj :=
  presetRegs ++ requestRegs ++ jobRegs ++ [EVT_COUNT, EVT_TASK_LOST, EVT_TASK_LOST_LAST, EVT_TASK_REFUSED,
    EVT_TOGGLE, FC_BANK_ACTIVE, FC_CAPTURE_STATE, FC_FADE_STATE, FC_SYNC_COUNT, LATCH_COUNT, LATCH_SEQ,
    LATCH_SPEED, LATCH_TIME, PULSE_COUNT, TIMER_STATE]

/-- What a command may move: the registers of some objects and, where it says so, module DRAM, host memory, and the contents of
strings and domains. -/
structure Footprint where
  regs : List Obj
  dram : Bool := false
  host : Bool := false
  blobs : Bool := false

/-- What each command may move. A command that writes an object its operands name, and one that restarts the module cold, has
none: it may move every register. -/
def footprint : Instr → Option Footprint
  | .objectWrite .. => none
  | .encCount .. => some { dram := true, host := true, blobs := true, regs := countRegs ++ [ENC_ILLEGAL,
      TRACE_HEAD] }
  | .encWireFault .. => some { regs := bookRegs ++ emcyRegs ++ [ENC_FAULT, ENC_WIRE, TRACE_HEAD] }
  | .sincosQuadrantEdge .. => some { dram := true, host := true, blobs := true, regs := countRegs ++ [AUX_COUNT,
      ENC_ILLEGAL, TRACE_HEAD] }
  | .encSerialPoll .. => some { regs := [TRACE_HEAD] }
  | .encSerialPollDone .. => some { dram := true, host := true, blobs := true, regs := countRegs ++
      [ENC_ABS_POSITION, ENC_SERIAL_ERR, ENC_SERIAL_WARN, TRACE_HEAD] }
  | .index .. => some { regs := bookRegs ++ emcyRegs ++ [ENC_FAULT, ENC_INDEX_ERR, INDEX_COUNT, INDEX_DELTA,
      INDEX_DRIFT, INDEX_SEEN, TRACE_HEAD] }
  | .obsUpdate .. => some { regs := [OBS_ACCEL, OBS_POSITION, OBS_SPEED, TRACE_HEAD, WEB_SPEED_MM_S] }
  | .encStandstill .. => some { dram := true, host := true, blobs := true, regs := leaveRegs ++ modeRegs ++
      [OBS_ACCEL, OBS_POSITION, OBS_SPEED, OBS_STANDSTILLS, OBS_STATE, TRACE_HEAD, WEB_SPEED_MM_S] }
  | .cylToothEdge .. => some { regs := bookRegs ++ [CYL_REFS, CYL_REF_COUNT, CYL_REF_MISS, CYL_TOOTH_ERR,
      CYL_TOOTH_PERIOD, DET_AMPLITUDE, DET_BLOCKS, DET_DISCARDED, DET_LIMIT_HITS, DET_MEAN, DET_PHASE,
      DET_RATIO_PERMILLE, DET_VALID, REG_REV_COUNTS, REG_START_LATE, TRACE_HEAD] }
  | .auxCount .. => some { regs := bookRegs ++ emcyRegs ++ [AUX_COUNT, ENC_FAULT, ENC_ILLEGAL, PULSE_BACKLOG,
      PULSE_COUNT, PULSE_OVERRUN, TRACE_HEAD] }
  | .pulseEdge .. => some { regs := [PULSE_BACKLOG, TRACE_HEAD] }
  | .pulseDividerWrite .. => some { regs := bookRegs ++ [HL_DICT_ERRORS, PULSE_P, PULSE_Q, TRACE_HEAD] }
  | .webCountSend .. => some { regs := [TRACE_HEAD] }
  | .webCountFrame .. => some { host := true, regs := bookRegs ++ emcyRegs ++ [ARCHIVE_GAPS, CANVAS_ARCHIVE_EVICT,
      CANVAS_CROP_EVICT, CANVAS_OVERRUN, CASCADE_COUNT_ERR, CASCADE_COUNT_OFFSET, CASCADE_FRAME_CRC,
      CASCADE_FRAME_LOST, EASEL_CTX_APPLY_STRIP, EXP_APPLY_STRIP, LANE_BYTES, LINE_NUMBER, MARK_FIRED,
      MARK_NEXT_COUNT, MARK_QUEUE_FILL, MODE_CHANGE_LINE, REG_PHASE_STATE, RING_DROP, RING_FRAMES, RING_OVERSIZE,
      RING_STAGED_BYTES, SWITCH_LINE, TIDE_APPLY_LINE, TRACE_HEAD, TRIG_NEXT_COUNT, WEB_COUNT, WEB_HIGH_WATER,
      WHARF_HOST_WR_BYTES] }
  | .triggerIssue .. => some { dram := true, host := true, blobs := true, regs := presetRegs ++ leaveRegs ++
      jobRegs ++ modeRegs ++ [ARCHIVE_GAPS, BAR_CLAMP, BAR_COMP_PERMILLE, BAR_LIFE_STATE, BAR_OUTPUT_PERMILLE,
      CAL_REJECT, CANVAS_ARCHIVE_EVICT, CANVAS_CROP_EVICT, CANVAS_OVERRUN, EASEL_BYPASS, EASEL_COMMIT_RESULT,
      EASEL_COMMIT_STAGE, EASEL_CTX_APPLY_STRIP, EASEL_CTX_PENDING, EASEL_PAL_PENDING, EASEL_QUAY_DROP,
      EXP_GENERATION, LINES_LATE, LINES_SUBSTITUTED, LINE_NUMBER, REG_LEARN_BANDS, REG_PHASE_STATE,
      REG_START_LATE, REPEAT_EPOCH, REPEAT_NUMBER, REPEAT_SHORT, REPEAT_START_COUNT, TILE_DEADLINE_NS, TRACE_HEAD,
      TRIG_DEFERRED, TRIG_MAX_LAG_NS, TRIG_OVERSPEED_LINES, TRIG_WIDTH_CLIP, TRIM_BASE_MC, TRIM_COUNT,
      TRIM_LAST_DARK_MAX, TRIM_LAST_GAIN, VIEW_CONFIG_RESULT] }
  | .triggerWidthEnd .. => some { blobs := true, regs := bookRegs ++ [BAR_COMP_PERMILLE, BAR_CURRENT_MA,
      BAR_OUTPUT_PERMILLE, BAR_STATE, CAL_STATE, LIGHT_POWER_W, TRACE_HEAD, TRIG_WIDTH_CLIP] }
  | .calLineTimer .. => some { dram := true, host := true, blobs := true, regs := presetRegs ++ leaveRegs ++
      jobRegs ++ modeRegs ++ [ARCHIVE_GAPS, BAR_CLAMP, BAR_COMP_PERMILLE, BAR_LIFE_STATE, BAR_OUTPUT_PERMILLE,
      CAL_REJECT, CANVAS_ARCHIVE_EVICT, CANVAS_CROP_EVICT, CANVAS_OVERRUN, EASEL_BYPASS, EASEL_COMMIT_RESULT,
      EASEL_COMMIT_STAGE, EASEL_CTX_APPLY_STRIP, EASEL_CTX_PENDING, EASEL_PAL_PENDING, EASEL_QUAY_DROP,
      EXP_GENERATION, LINES_LATE, LINES_SUBSTITUTED, LINE_NUMBER, REG_LEARN_BANDS, REG_PHASE_STATE,
      REG_START_LATE, REPEAT_EPOCH, REPEAT_NUMBER, REPEAT_SHORT, REPEAT_START_COUNT, TILE_DEADLINE_NS, TRACE_HEAD,
      TRIG_OVERSPEED_LINES, TRIG_WIDTH_CLIP, TRIM_BASE_MC, TRIM_COUNT, TRIM_LAST_DARK_MAX, TRIM_LAST_GAIN,
      VIEW_CONFIG_RESULT] }
  | .modeRequest .. => some { dram := true, host := true, blobs := true, regs := requestRegs ++ leaveRegs ++
      [CAM_SEAM_GAIN_L, CAM_SEAM_GAIN_N, CANVAS_RELEASED_STRIP, CMP_ENGINES_BUSY, EASEL_COMMIT_RESULT,
      SEAM_GAIN_LIMIT, TRACE_HEAD, VIEW_CONFIG_RESULT, WH_STATUS] }
  | .holdExitFlush .. => some { dram := true, host := true, blobs := true, regs := fabricRegs ++ modeRegs ++
      unitRegs ++ [BAR_CURRENT_MA, BAR_STATE, BAY_LANES_UP, CAM_SEAM_GAIN_L, CAM_SEAM_GAIN_N,
      CANVAS_RELEASED_STRIP, CMP_ENGINES_BUSY, DET_DISCARDED, DRAM_MIGRATE_PERMILLE, DRAM_MIGRATE_STATE,
      EASEL_PHYS, EASEL_QUAY_FILL, EASEL_QUAY_PEAK, EASEL_STATE, HOLD_CAUSE, ISLAND_STATE, LANE_SLICE, LANE_STATE,
      LIGHT_POWER_W, PD_STATE, SEAM_GAIN_LIMIT, TILE_LOG_STATE, TILE_PHYS, TRACE_HEAD, TRIG_NEXT_COUNT, WH_STATUS]
      }
  | .bayRetry .. => some { regs := bookRegs ++ [BAY_LANES_UP, BAY_POCXP_MW, BAY_SPEED, BAY_STATE, HL_DICT_ERRORS,
      LANE_STATE, TRACE_HEAD] }
  | .cxpSignalDetect .. => some { regs := [BAY_POCXP_MW, LANE_STATE, TRACE_HEAD] }
  | .cxpDiscoveryDone .. => some { host := true, regs := bookRegs ++ emcyRegs ++ [BAY_CTRL_TIMEOUT, BAY_LANES_UP,
      BAY_RESULT, BAY_STATE, CASCADE_RESULT, LANE_CONN_ID, LANE_STATE, LINES_LATE, LINES_SUBSTITUTED, RING_DROP,
      RING_FRAMES, RING_OVERSIZE, RING_STAGED_BYTES, TRACE_HEAD, TRIM_ABANDONED, TRIM_BUSY_BAY, TRIM_LAST_RESULT,
      TRIM_LAST_STRIP, WHARF_HOST_WR_BYTES] }
  | .cxpStepUpLock .. => some { host := true, regs := [BAY_LANES_UP, BAY_RESULT, BAY_SPEED, BAY_STATE,
      CASCADE_RESULT, LANE_STATE, TRACE_HEAD, WHARF_HOST_WR_BYTES] }
  | .cxpStepUpTimeout .. => some { host := true, regs := bookRegs ++ emcyRegs ++ [BAY_LANES_UP, BAY_RESULT,
      BAY_STATE, CASCADE_RESULT, LANE_STATE, LINES_LATE, LINES_SUBSTITUTED, RING_DROP, RING_FRAMES, RING_OVERSIZE,
      RING_STAGED_BYTES, TRACE_HEAD, TRIM_ABANDONED, TRIM_BUSY_BAY, TRIM_LAST_RESULT, TRIM_LAST_STRIP,
      WHARF_HOST_WR_BYTES] }
  | .laneStepDone .. => some { host := true, regs := bookRegs ++ emcyRegs ++ [BAY_LANES_UP, BAY_RESULT, BAY_STATE,
      CASCADE_RESULT, LANE_STATE, LINES_LATE, LINES_SUBSTITUTED, RING_DROP, RING_FRAMES, RING_OVERSIZE,
      RING_STAGED_BYTES, TRACE_HEAD, TRIM_ABANDONED, TRIM_BUSY_BAY, TRIM_LAST_RESULT, TRIM_LAST_STRIP,
      WHARF_HOST_WR_BYTES] }
  | .laneStepTimeout .. => some { host := true, regs := bookRegs ++ emcyRegs ++ [BAY_LANES_UP, BAY_RESULT,
      BAY_STATE, CASCADE_RESULT, LANE_RETRAIN, LANE_STATE, LINES_LATE, LINES_SUBSTITUTED, RING_DROP, RING_FRAMES,
      RING_OVERSIZE, RING_STAGED_BYTES, TRACE_HEAD, TRIM_ABANDONED, TRIM_BUSY_BAY, TRIM_LAST_RESULT,
      TRIM_LAST_STRIP, WHARF_HOST_WR_BYTES] }
  | .bringupEnd .. => some { dram := true, host := true, blobs := true, regs := presetRegs ++ readyRegs ++
      [BAY_POCXP_MW, BAY_SPEED, BAY_STATE, FERRY_DISCARD, ISO_ERROR_RESPONSES, TRACE_HEAD] }
  | .laneLockLoss .. => some { regs := bookRegs ++ [BAY_LANES_UP, LANE_LOCK_LOSS, LANE_STATE, TRACE_HEAD] }
  | .laneRetrainFail .. => some { host := true, regs := declareRegs ++ emcyRegs ++ [BAY_LANES_UP, BAY_RESULT,
      BAY_STATE, CASCADE_RESULT, LANE_RETRAIN, LANE_SLICE, LANE_STATE, LINES_LATE, LINES_SUBSTITUTED, RING_DROP,
      RING_FRAMES, RING_OVERSIZE, RING_STAGED_BYTES, TRACE_HEAD, TRIM_ABANDONED, TRIM_BUSY_BAY, TRIM_LAST_RESULT,
      TRIM_LAST_STRIP, WHARF_HOST_WR_BYTES] }
  | .laneRetrainDone .. => some { regs := [BAY_LANES_UP, LANE_STATE, TRACE_HEAD] }
  | .blockLockGained .. => some { regs := logRegs ++ bookRegs ++ unitRegs ++ [BAY_LANES_UP, LANE_CODE_ERR,
      LANE_LOCK_LOSS, LANE_STALE_RESULT, LANE_STATE, TRACE_HEAD] }
  | .alignOrderFault .. => some { regs := bookRegs ++ [BAY_LANES_UP, LANE_LOCK_LOSS, LANE_STATE, TRACE_HEAD] }
  | .pocxpOverload .. => some { host := true, regs := bookRegs ++ emcyRegs ++ [BAY_LANES_UP, BAY_POCXP_FAULT,
      BAY_POCXP_MW, BAY_RESULT, BAY_STATE, CASCADE_RESULT, LANE_STATE, LINES_LATE, LINES_SUBSTITUTED, RING_DROP,
      RING_FRAMES, RING_OVERSIZE, RING_STAGED_BYTES, TRACE_HEAD, TRIM_ABANDONED, TRIM_BUSY_BAY, TRIM_LAST_RESULT,
      TRIM_LAST_STRIP, WHARF_HOST_WR_BYTES] }
  | .laneBer .. => some { regs := logRegs ++ bookRegs ++ unitRegs ++ [BAY_LANES_UP, LANE_BER_EST, LANE_SLICE,
      LANE_STATE, TRACE_HEAD] }
  | .sliceSelftest .. => some { regs := bookRegs ++ [HL_DICT_ERRORS, ISLAND_STATE, ISO_ERROR_RESPONSES, PD_STATE,
      SLICE_SELFTEST_RESULT, TRACE_HEAD] }
  | .sliceSelftestDone .. => some { regs := logRegs ++ bookRegs ++ unitRegs ++ [ISLAND_STATE, PD_STATE,
      SLICE_SELFTEST_RESULT, TRACE_HEAD] }
  | .spareSliceCheck .. => some { regs := [TRACE_HEAD] }
  | .spareSliceCheckDone .. => some { regs := logRegs ++ bookRegs ++ unitRegs ++ [TRACE_HEAD] }
  | .lbRunStart .. => some { regs := bookRegs ++ [BAY_LANES_UP, HL_DICT_ERRORS, LANE_STATE, LB_BITS, LB_ERRORS,
      LB_STATUS, TRACE_HEAD] }
  | .lbRunStop .. => some { regs := bookRegs ++ [BAY_LANES_UP, LANE_STATE, LB_BITS, LB_ERRORS, LB_STATUS,
      TRACE_HEAD] }
  | .bayClear .. => some { regs := bookRegs ++ [BAY_CTRL_TIMEOUT, BAY_POCXP_FAULT, BAY_UNSUPPORTED_PKT,
      HL_DICT_ERRORS, LANE_CODE_ERR, LANE_LOCK_LOSS, LANE_RETRAIN, LANE_STALE_RESULT, LB_ERRORS, TRACE_HEAD] }
  | .cascadeClear .. => some { regs := bookRegs ++ [BAY_CTRL_TIMEOUT, BAY_POCXP_FAULT, BAY_UNSUPPORTED_PKT,
      CASCADE_FRAME_CRC, CASCADE_FRAME_LOST, HL_DICT_ERRORS, LANE_CODE_ERR, LANE_LOCK_LOSS, LANE_RETRAIN,
      LANE_STALE_RESULT, LB_ERRORS, TRACE_HEAD] }
  | .capability .. => some { host := true, regs := bookRegs ++ emcyRegs ++ [BAY_LANES_UP, BAY_RESULT, BAY_STATE,
      CASCADE_FRAME_CRC, CASCADE_FRAME_LOST, CASCADE_RESULT, LANE_BYTES, LANE_STATE, TRACE_HEAD,
      WHARF_HOST_WR_BYTES] }
  | .rttRequest .. => some { host := true, regs := bookRegs ++ emcyRegs ++ [BAY_LANES_UP, BAY_RESULT, BAY_STATE,
      CASCADE_FRAME_CRC, CASCADE_FRAME_LOST, CASCADE_RESULT, LANE_BYTES, LANE_STATE, TRACE_HEAD,
      WHARF_HOST_WR_BYTES] }
  | .rttReply .. => some { host := true, regs := bookRegs ++ emcyRegs ++ [BAY_LANES_UP, BAY_RESULT, BAY_STATE,
      CASCADE_FRAME_CRC, CASCADE_FRAME_LOST, CASCADE_LATENCY_NS, CASCADE_RESULT, LANE_BYTES, LANE_STATE,
      TRACE_HEAD, WHARF_HOST_WR_BYTES] }
  | .latency .. => some { host := true, regs := bookRegs ++ emcyRegs ++ [BAY_LANES_UP, BAY_RESULT, BAY_STATE,
      CASCADE_FRAME_CRC, CASCADE_FRAME_LOST, CASCADE_LATENCY_NS, CASCADE_RESULT, LANE_BYTES, LANE_STATE,
      TRACE_HEAD, WHARF_HOST_WR_BYTES] }
  | .lbRequest .. => some { host := true, regs := bookRegs ++ emcyRegs ++ [BAY_LANES_UP, BAY_RESULT, BAY_STATE,
      CASCADE_FRAME_CRC, CASCADE_FRAME_LOST, CASCADE_RESULT, LANE_BYTES, LANE_STATE, TRACE_HEAD,
      WHARF_HOST_WR_BYTES] }
  | .lbReply .. => some { host := true, regs := bookRegs ++ emcyRegs ++ [BAY_LANES_UP, BAY_RESULT, BAY_STATE,
      CASCADE_FRAME_CRC, CASCADE_FRAME_LOST, CASCADE_RESULT, LANE_BYTES, LANE_STATE, LB_BITS, LB_ERRORS,
      LB_STATUS, TRACE_HEAD, WHARF_HOST_WR_BYTES] }
  | .cameraPacket .. => some { host := true, regs := logRegs ++ bookRegs ++ unitRegs ++ [BAY_UNSUPPORTED_PKT,
      LANE_BYTES, LANE_CRC_ERR, LANE_STALE_RESULT, LATE_DISCARD, LINES_RECEIVED, LINES_SUBSTITUTED, PKT_TYPE_ERR,
      RING_DROP, RING_FRAMES, RING_OVERSIZE, RING_STAGED_BYTES, TAG_MISMATCH, TRACE_HEAD, TRIM_ABANDONED,
      TRIM_BUSY_BAY, TRIM_LAST_RESULT, TRIM_LAST_STRIP, WHARF_HOST_WR_BYTES] }
  | .lineLate .. => some { host := true, regs := bookRegs ++ [LINES_LATE, LINES_SUBSTITUTED, RING_DROP,
      RING_FRAMES, RING_OVERSIZE, RING_STAGED_BYTES, TRACE_HEAD, TRIM_ABANDONED, TRIM_BUSY_BAY, TRIM_LAST_RESULT,
      TRIM_LAST_STRIP, WHARF_HOST_WR_BYTES] }
  | .expCommit .. => some { regs := bookRegs ++ [BAR_CURRENT_MA, BAR_STATE, EXP_APPLY_STRIP, EXP_COMMIT_REPLACED,
      EXP_PENDING, HL_DICT_ERRORS, LIGHT_POWER_W, TRACE_HEAD] }
  | .intakeClear .. => some { regs := bookRegs ++ [EXP_COMMIT_REPLACED, HL_DICT_ERRORS, LANE_CRC_ERR,
      LATE_DISCARD, LINES_LATE, LINES_SUBSTITUTED, PKT_TYPE_ERR, TAG_MISMATCH, TRACE_HEAD, TRIG_DEFERRED,
      TRIG_MAX_LAG_NS, TRIG_OVERSPEED_LINES, TRIG_WIDTH_CLIP] }
  | .tilePacket .. => some { dram := true, host := true, regs := bookRegs ++ [EASEL_A_MAX_DELAY_NS,
      EASEL_CTX_SWITCHES, LANE_CRC_ERR, LINES_SUBSTITUTED, RING_DROP, RING_FRAMES, RING_OVERSIZE,
      RING_STAGED_BYTES, TRACE_HEAD, TRIM_ABANDONED, TRIM_BUSY_BAY, TRIM_LAST_RESULT, TRIM_LAST_STRIP,
      WHARF_HOST_WR_BYTES] }
  | .easelLineDone .. => some { blobs := true, regs := bookRegs ++ [EASEL_A_MAX_DELAY_NS, EASEL_BUSY_CLOCKS,
      EASEL_BYPASS, EASEL_COMMIT_RESULT, EASEL_CTX_PENDING, EASEL_CTX_SWITCHES, EASEL_MIXED_LINES,
      EASEL_PAL_PENDING, EASEL_QUAY_FILL, EASEL_QUAY_PEAK, EASEL_STALE_RESULT, ISLAND_STATE, TRACE_HEAD,
      TRIM_ABANDONED, TRIM_BUSY_BAY, TRIM_LAST_RESULT, TRIM_LAST_STRIP] }
  | .easelLoadWindow .. => some { regs := [EASEL_LOAD_PERMILLE, TRACE_HEAD] }
  | .easelCtxCommit .. => some { regs := bookRegs ++ [EASEL_COMMIT_RESULT, EASEL_COMMIT_STAGE,
      EASEL_CTX_APPLY_STRIP, EASEL_CTX_PENDING, HL_DICT_ERRORS, TRACE_HEAD] }
  | .easelPalCommit .. => some { regs := bookRegs ++ [EASEL_COMMIT_RESULT, EASEL_CTX_APPLY_STRIP,
      EASEL_PAL_PENDING, HL_DICT_ERRORS, TRACE_HEAD] }
  | .easelClear .. => some { regs := bookRegs ++ [EASEL_A_MAX_DELAY_NS, EASEL_CLEAR, EASEL_HB_MISS,
      EASEL_MIXED_LINES, EASEL_QUAY_DROP, EASEL_QUAY_PEAK, EASEL_STALE_RESULT, HL_DICT_ERRORS, TRACE_HEAD] }
  | .easelHeartbeatSend .. => some { regs := [TRACE_HEAD] }
  | .easelHbDeadline .. => some { host := true, regs := declareRegs ++ emcyRegs ++ [EASEL_HB_MISS, EASEL_PHYS,
      EASEL_STATE, ISLAND_STATE, LINES_LATE, LINES_SUBSTITUTED, PD_STATE, RING_DROP, RING_FRAMES, RING_OVERSIZE,
      RING_STAGED_BYTES, TRACE_HEAD, TRIM_ABANDONED, TRIM_BUSY_BAY, TRIM_LAST_RESULT, TRIM_LAST_STRIP,
      WHARF_HOST_WR_BYTES] }
  | .easelSelftest .. => some { regs := bookRegs ++ [EASEL_SELFTEST_RESULT, HL_DICT_ERRORS, ISLAND_STATE,
      ISO_ERROR_RESPONSES, PD_STATE, TRACE_HEAD] }
  | .easelSelftestDone .. => some { regs := logRegs ++ bookRegs ++ unitRegs ++ [EASEL_SELFTEST_RESULT,
      ISLAND_STATE, PD_STATE, TRACE_HEAD] }
  | .spareEaselCheck .. => some { regs := [TRACE_HEAD] }
  | .joinerSegment .. => some { dram := true, regs := bookRegs ++ [CAM_SEAM_GAIN_L, CAM_SEAM_GAIN_N,
      CANVAS_RELEASED_STRIP, CMP_ENGINES_BUSY, SEAM_GAIN_LIMIT, SEAM_LATE_DISCARD, SEAM_QUEUE_OVERFLOW,
      SEAM_STAMP_BLIND_LINES, TRACE_HEAD, WH_STATUS] }
  | .completionNote .. => some { dram := true, regs := bookRegs ++ [CAM_SEAM_GAIN_L, CAM_SEAM_GAIN_N,
      CANVAS_RELEASED_STRIP, CMP_ENGINES_BUSY, SEAM_GAIN_LIMIT, TRACE_HEAD, WH_STATUS] }
  | .seamForcedComplete .. => some { dram := true, regs := bookRegs ++ [CAM_SEAM_GAIN_L, CAM_SEAM_GAIN_N,
      CANVAS_RELEASED_STRIP, CASCADE_OVERLAP_MISSING, CMP_ENGINES_BUSY, SEAM_FORCED_COMPLETE, SEAM_GAIN_LIMIT,
      TRACE_HEAD, WH_STATUS] }
  | .seamClear .. => some { regs := bookRegs ++ [CANVAS_ARCHIVE_EVICT, CANVAS_CROP_EVICT, CANVAS_OVERRUN,
      CASCADE_OVERLAP_MISSING, HL_DICT_ERRORS, SEAM_CLEAR, SEAM_FORCED_COMPLETE, SEAM_GAIN_LIMIT,
      SEAM_LATE_DISCARD, SEAM_QUEUE_OVERFLOW, SEAM_STAMP_BLIND_LINES, TRACE_HEAD] }
  | .overlapFrame .. => some { dram := true, regs := bookRegs ++ [CAM_SEAM_GAIN_L, CAM_SEAM_GAIN_N,
      CANVAS_RELEASED_STRIP, CASCADE_FRAME_CRC, CASCADE_FRAME_LOST, CASCADE_OVERLAP_MISSING, CMP_ENGINES_BUSY,
      LANE_BYTES, SEAM_GAIN_LIMIT, SEAM_LATE_DISCARD, TRACE_HEAD, WH_STATUS] }
  | .markSearchDone .. => some { regs := bookRegs ++ [REG_MARK_ERR_COUNTS, REG_MARK_MISS, REG_PHASE_STATE,
      TRACE_HEAD] }
  | .regRowDone .. => some { dram := true, regs := bookRegs ++ [REG_ANCHORS_X, REG_ANCHORS_Y, REG_CAPTURES,
      REG_CONF_PERMILLE, REG_FIELD_ADDR, REG_MEAN_DX, REG_MEAN_DY, TRACE_HEAD] }
  | .regLearn .. => some { regs := bookRegs ++ [HL_DICT_ERRORS, TRACE_HEAD] }
  | .regUpSave .. => some { regs := bookRegs ++ [HL_DICT_ERRORS, TRACE_HEAD] }
  | .regClear .. => some { regs := bookRegs ++ [HL_DICT_ERRORS, REG_CAPTURES, REG_LEARN_REJECT, REG_MARK_MISS,
      REG_START_LATE, REG_UNREG_STRIPS, TRACE_HEAD] }
  | .taskIssue .. => some { dram := true, host := true, blobs := true, regs := fabricRegs ++ [REG_UNREG_STRIPS,
      TILE_BLIND_TASKS, TILE_LOG_STATE, TILE_TASKS, TRACE_HEAD] }
  | .fragment .. => some { dram := true, regs := bookRegs ++ [TILE_FRAGMENTS, TILE_LOG_STATE, TILE_RUN_OVERFLOW,
      TILE_STALE_RESULT, TRACE_HEAD] }
  | .taskEnd .. => some { dram := true, host := true, blobs := true, regs := fabricRegs ++ declareRegs ++ emcyRegs
      ++ [ISLAND_STATE, PD_STATE, TILE_BLIND_TASKS, TILE_BUSY_CLOCKS, TILE_FRAGMENTS, TILE_HB_MISS,
      TILE_LOAD_WAIT_NS, TILE_LOG_STATE, TILE_PHYS, TILE_RUN_OVERFLOW, TILE_STALE_RESULT, TILE_TASKS, TRACE_HEAD]
      }
  | .tileDeadline .. => some { dram := true, host := true, blobs := true, regs := fabricRegs ++ declareRegs ++
      emcyRegs ++ [ISLAND_STATE, PD_STATE, TILE_BLIND_TASKS, TILE_HB_MISS, TILE_LOG_STATE, TILE_PHYS, TILE_TASKS,
      TRACE_HEAD] }
  | .tileHeartbeatTask .. => some { regs := [TILE_LOG_STATE, TRACE_HEAD] }
  | .tideCommit .. => some { blobs := true, regs := bookRegs ++ [HL_DICT_ERRORS, TIDE_APPLY_LINE,
      TIDE_BANK_ACTIVE, TIDE_ERR_ENTRY, TIDE_GENERATION, TIDE_PENDING, TIDE_RESULT, TRACE_HEAD] }
  | .tideLoadWindow .. => some { regs := [TIDE_LOAD_PERMILLE, TRACE_HEAD] }
  | .tileSelftest .. => some { regs := bookRegs ++ [HL_DICT_ERRORS, ISLAND_STATE, ISO_ERROR_RESPONSES, PD_STATE,
      TILE_SELFTEST_RESULT, TRACE_HEAD] }
  | .tileSelftestDone .. => some { regs := logRegs ++ bookRegs ++ unitRegs ++ [ISLAND_STATE, PD_STATE,
      TILE_SELFTEST_RESULT, TRACE_HEAD] }
  | .spareTileCheck .. => some { regs := [TRACE_HEAD] }
  | .fabricClear .. => some { regs := bookRegs ++ [HL_DICT_ERRORS, TILE_BLIND_TASKS, TILE_HB_MISS,
      TILE_RUN_OVERFLOW, TILE_STALE_RESULT, TRACE_HEAD] }
  | .fragmentFrame .. => some { dram := true, host := true, regs := flushRegs ++ [CASCADE_FRAME_CRC,
      CASCADE_FRAME_LOST, CASCADE_MERGE_LATE, LANE_BYTES, TRACE_HEAD] }
  | .defCascadeWait .. => some { dram := true, host := true, regs := flushRegs ++ [TRACE_HEAD] }
  | .rejectHoldEnd .. => some { regs := bookRegs ++ [REJECT_BITMAP, REJECT_REPEAT, REJECT_ROW, REJECT_SEQ,
      TRACE_HEAD] }
  | .markWidthEnd .. => some { regs := [TRACE_HEAD] }
  | .markOnLimit .. => some { regs := bookRegs ++ [MARK_ON_LIMIT, TRACE_HEAD] }
  | .markerOvercurrent .. => some { regs := [TRACE_HEAD] }
  | .defClear .. => some { regs := bookRegs ++ [CASCADE_MERGE_LATE, CROP_EVICTED, CROP_SKIPPED, DEF_CUT,
      DEF_DEFAULT_HITS, DEF_FLOOD_RECORDS, DEF_SUPPRESSED, HL_DICT_ERRORS, MARK_LATE, MARK_ON_LIMIT,
      MARK_QUEUE_FULL, REJECT_QUEUE_DROP, TRACE_HEAD] }
  | .motionClear .. => some { regs := bookRegs ++ emcyRegs ++ [AUX_SLIP, CASCADE_COUNT_ERR, CYL_REF_MISS,
      CYL_TOOTH_ERR, ENC_AMP_FAULTS, ENC_FAULT, ENC_ILLEGAL, ENC_INDEX_ERR, ENC_SERIAL_ERR, ENC_SERIAL_WARN,
      ENC_WIRE, HL_DICT_ERRORS, PULSE_OVERRUN, TRACE_HEAD] }
  | .filterOutput .. => some { dram := true, host := true, blobs := true, regs := countRegs ++ [AUX_COUNT,
      DET_AMPLITUDE, DET_BLOCKS, DET_LIMIT_HITS, DET_MEAN, DET_PHASE, DET_RATIO_PERMILLE, DET_VALID,
      ENC_AMPLITUDE_PERMILLE, ENC_AMP_FAULTS, FC_BANK_ACTIVE, FC_CAPTURE_STATE, FC_FADE_STATE, FC_FLAGS,
      FC_OVERLOAD, FC_SAMPLES, FC_VALUE, TRACE_HEAD] }
  | .fcPresetWrite .. => some { regs := logRegs ++ bookRegs ++ [DET_DISCARDED, FC_BANK_ACTIVE, FC_FADE_STATE,
      FC_PRESET, FC_SYNC_COUNT, HL_DICT_ERRORS, TRACE_HEAD] }
  | .fcCoefCommit .. => some { regs := logRegs ++ bookRegs ++ [FC_BANK_ACTIVE, FC_COMMIT_RESULT, FC_FADE_STATE,
      HL_DICT_ERRORS, TRACE_HEAD] }
  | .fcCoefFactory .. => some { regs := bookRegs ++ [HL_DICT_ERRORS, TRACE_HEAD] }
  | .fcSync .. => some { regs := bookRegs ++ [DET_DISCARDED, FC_BANK_ACTIVE, FC_FADE_STATE, FC_SYNC_COUNT,
      HL_DICT_ERRORS, TRACE_HEAD] }
  | .fcCaptureRun .. => some { blobs := true, regs := bookRegs ++ [FC_CAPTURE_STATE, HL_DICT_ERRORS, TRACE_HEAD] }
  | .fcClear .. => some { regs := bookRegs ++ [DET_DISCARDED, DET_LIMIT_HITS, FC_OVERLOAD, HL_DICT_ERRORS,
      TRACE_HEAD] }
  | .digitalInputEdge .. => some { regs := bookRegs ++ [TRACE_HEAD] }
  | .eventDeliver .. => some { dram := true, host := true, blobs := true, regs := presetRegs ++ taskRegs ++
      [CELL_STATE, CHAN_CFG, CHAN_EVENTS, CHAN_RATE_HITS, EVT_HOLDOFF_LOST, TASK_COINCIDENCE,
      TASK_COINCIDENCE_LAST, TRACE_HEAD] }
  | .lutGlitchExpiry .. => some { regs := bookRegs ++ [TRACE_HEAD] }
  | .chanHoldoffEnd .. => some { dram := true, host := true, blobs := true, regs := presetRegs ++ taskRegs ++
      [CHAN_CFG, CHAN_EVENTS, CHAN_RATE_HITS, TASK_COINCIDENCE, TASK_COINCIDENCE_LAST, TRACE_HEAD] }
  | .chanRateWindow .. => some { regs := [TRACE_HEAD] }
  | .timerExpire .. => some { regs := bookRegs ++ [TIMER_STATE, TRACE_HEAD] }
  | .markPulse .. => some { dram := true, host := true, blobs := true, regs := presetRegs ++ taskRegs ++
      [TRACE_HEAD] }
  | .timerStart .. => some { dram := true, host := true, blobs := true, regs := presetRegs ++ taskRegs ++
      [TRACE_HEAD] }
  | .timerStop .. => some { dram := true, host := true, blobs := true, regs := presetRegs ++ taskRegs ++
      [TRACE_HEAD] }
  | .latch .. => some { dram := true, host := true, blobs := true, regs := presetRegs ++ taskRegs ++ [TRACE_HEAD]
      }
  | .evtCount .. => some { dram := true, host := true, blobs := true, regs := presetRegs ++ taskRegs ++
      [TRACE_HEAD] }
  | .hostEvt .. => some { dram := true, host := true, blobs := true, regs := presetRegs ++ taskRegs ++
      [TRACE_HEAD] }
  | .ecatToggle .. => some { dram := true, host := true, blobs := true, regs := presetRegs ++ taskRegs ++
      [TRACE_HEAD] }
  | .fcSyncGroup .. => some { dram := true, host := true, blobs := true, regs := presetRegs ++ taskRegs ++
      [TRACE_HEAD] }
  | .detStart .. => some { dram := true, host := true, blobs := true, regs := presetRegs ++ taskRegs ++
      [TRACE_HEAD] }
  | .pulseZero .. => some { dram := true, host := true, blobs := true, regs := presetRegs ++ taskRegs ++
      [TRACE_HEAD] }
  | .holdRequest .. => some { dram := true, host := true, blobs := true, regs := presetRegs ++ taskRegs ++
      [TRACE_HEAD] }
  | .traceMark .. => some { dram := true, host := true, blobs := true, regs := presetRegs ++ taskRegs ++
      [TRACE_HEAD] }
  | .evtSoft .. => some { regs := bookRegs ++ [HL_DICT_ERRORS, TRACE_HEAD] }
  | .evtSave .. => some { regs := logRegs ++ bookRegs ++ [HL_DICT_ERRORS, TRACE_HEAD] }
  | .chanCfgWrite .. => some { regs := bookRegs ++ [CHAN_CFG, EVT_RESULT, HL_DICT_ERRORS, TRACE_HEAD] }
  | .cellCfgWrite .. => some { regs := bookRegs ++ [CELL_CFG, CELL_STATE, HL_DICT_ERRORS, TRACE_HEAD] }
  | .evtClear .. => some { regs := bookRegs ++ [CHAN_RATE_HITS, EVT_HOLDOFF_LOST, EVT_TASK_LOST, EVT_TASK_REFUSED,
      HL_DICT_ERRORS, TASK_COINCIDENCE, TRACE_HEAD] }
  | .sramUncorrectable .. => some { dram := true, host := true, blobs := true, regs := fabricRegs ++ declareRegs
      ++ emcyRegs ++ [CAM_SEAM_GAIN_L, CAM_SEAM_GAIN_N, CANVAS_RELEASED_STRIP, CMP_ENGINES_BUSY, CMP_FAIL,
      EASEL_PHYS, EASEL_STATE, ISLAND_STATE, LINES_LATE, LINES_SUBSTITUTED, PD_STATE, REG_CAPTURES,
      SEAM_GAIN_LIMIT, SRAM_UE, SRAM_UE_LAST_REGION, TILE_BLIND_TASKS, TILE_LOG_STATE, TILE_PHYS, TILE_TASKS,
      TRACE_HEAD, TRIM_ABANDONED, TRIM_BUSY_BAY, TRIM_LAST_RESULT, TRIM_LAST_STRIP, WH_STATUS] }
  | .sramScrub .. => some { regs := logRegs ++ bookRegs ++ unitRegs ++ [ISLAND_STATE, PD_STATE, SRAM_CE,
      TRACE_HEAD] }
  | .dramPoisonRead .. => some { dram := true, host := true, blobs := true, regs := lostRegs ++ [CAM_SEAM_GAIN_L,
      CAM_SEAM_GAIN_N, CANVAS_RELEASED_STRIP, DRAM_PKG_UE, DRAM_POISON_READS, DRAM_STALE_RESULT,
      LINES_SUBSTITUTED, REG_UNREG_STRIPS, SEAM_GAIN_LIMIT, TILE_BLIND_TASKS, TILE_TASKS, TRACE_HEAD] }
  | .dramPatrol .. => some { regs := logRegs ++ bookRegs ++ unitRegs ++ [DRAM_PKG_CE, DRAM_PKG_CE_RATE,
      TRACE_HEAD] }
  | .dramMigrate .. => some { regs := bookRegs ++ [DRAM_MIGRATE_PERMILLE, DRAM_MIGRATE_STATE, HL_DICT_ERRORS,
      TRACE_HEAD] }
  | .dramMigrateDone .. => some { regs := logRegs ++ bookRegs ++ unitRegs ++ [DRAM_MIGRATE_PERMILLE,
      DRAM_MIGRATE_STATE, DRAM_PKG_CHANNEL, TRACE_HEAD] }
  | .dramPkgDead .. => some { dram := true, host := true, blobs := true, regs := lostRegs ++ [TRACE_HEAD] }
  | .dramSelftest .. => some { regs := bookRegs ++ [DRAM_SELFTEST_RESULT, HL_DICT_ERRORS, ISLAND_STATE,
      TRACE_HEAD] }
  | .dramSelftestDone .. => some { regs := logRegs ++ bookRegs ++ unitRegs ++ [DRAM_SELFTEST_RESULT, ISLAND_STATE,
      TRACE_HEAD] }
  | .spareDramCheck .. => some { regs := [TRACE_HEAD] }
  | .memClear .. => some { regs := bookRegs ++ [DRAM_PKG_CE, DRAM_PKG_UE, DRAM_POISON_READS, DRAM_STALE_RESULT,
      HL_DICT_ERRORS, SRAM_CE, SRAM_UE, TRACE_HEAD] }
  | .whStart .. => some { regs := bookRegs ++ [CMP_ENGINES_BUSY, HL_DICT_ERRORS, TRACE_HEAD, WH_PROGRESS_ROWS,
      WH_STATUS] }
  | .whAbort .. => some { dram := true, host := true, regs := bookRegs ++ [CMP_ENGINES_BUSY, CMP_FAIL,
      HL_DICT_ERRORS, TRACE_HEAD, WHARF_HOST_RD_BYTES, WHARF_HOST_WR_BYTES, WH_PROGRESS_ROWS, WH_STATUS] }
  | .whFlush .. => some { regs := bookRegs ++ [HL_DICT_ERRORS, TRACE_HEAD] }
  | .whRestart .. => some { host := true, regs := bookRegs ++ [CMP_ENGINES_BUSY, HL_DICT_ERRORS, RING_FRAMES,
      RING_OVERSIZE, RING_STAGED_BYTES, TRACE_HEAD, WHARF_HOST_WR_BYTES, WH_ALL_STOPPED, WH_PROGRESS_ROWS,
      WH_STATUS] }
  | .whJobDone .. => some { dram := true, host := true, regs := bookRegs ++ [ARCHIVE_GAPS, ARCHIVE_SPACE_WAIT,
      ARCHIVE_STRIPS, CMP_BYTES_IN, CMP_BYTES_OUT, CMP_ENGINES_BUSY, CMP_FAIL, CROP_EVICTED, RING_DROP,
      RING_FRAMES, RING_OVERSIZE, RING_STAGED_BYTES, TRACE_HEAD, WHARF_HOST_RD_BYTES, WHARF_HOST_WR_BYTES,
      WH_DST_COMMIT, WH_ERR_OFFSET, WH_PROGRESS_ROWS, WH_STATUS] }
  | .whBusError .. => some { dram := true, host := true, regs := bookRegs ++ [CMP_ENGINES_BUSY, TRACE_HEAD,
      WHARF_HOST_RD_BYTES, WHARF_HOST_WR_BYTES, WH_ALL_STOPPED, WH_BUS_ERR, WH_ERR_ADDR, WH_ERR_INFO,
      WH_PROGRESS_ROWS, WH_STATUS] }
  | .whClear .. => some { regs := bookRegs ++ [HL_DICT_ERRORS, TRACE_HEAD, WH_BUS_ERR] }
  | .cmpClear .. => some { regs := bookRegs ++ [ARCHIVE_GAPS, ARCHIVE_SPACE_WAIT, CMP_FAIL, HL_DICT_ERRORS,
      TRACE_HEAD] }
  | .hlRingConsWrite .. => some { host := true, regs := bookRegs ++ [HL_DICT_ERRORS, RING_FRAMES, RING_OVERSIZE,
      RING_STAGED_BYTES, TRACE_HEAD, WHARF_HOST_WR_BYTES] }
  | .hlMboxTailWrite .. => some { regs := [TRACE_HEAD] }
  | .hlIrqStatusWrite .. => some { regs := [TRACE_HEAD] }
  | .msixUnmask .. => some { regs := [TRACE_HEAD] }
  | .hlWhCommitLoRead .. => some { regs := [TRACE_HEAD] }
  | .hlWindowRead .. => some { regs := bookRegs ++ [HL_DICT_ERRORS, HL_WINDOW_ACCESSES, TRACE_HEAD,
      WH_PROGRESS_ROWS] }
  | .hlWindowWrite .. => none
  | .apertureWrite .. => some { dram := true, regs := bookRegs ++ [HL_APERTURE_WRITE_DROP, TRACE_HEAD] }
  | .ringEnableWrite .. => some { host := true, regs := bookRegs ++ [HL_DICT_ERRORS, RING_ENABLE, RING_FRAMES,
      RING_OVERSIZE, RING_STAGED_BYTES, TRACE_HEAD, WHARF_HOST_WR_BYTES] }
  | .dictRead .. => some { host := true, regs := [TRACE_HEAD, WHARF_HOST_WR_BYTES, WH_PROGRESS_ROWS] }
  | .dictWrite .. => none
  | .pkgStore .. => some { host := true, regs := logRegs ++ [TRACE_HEAD, WHARF_HOST_WR_BYTES] }
  | .fwStore .. => some { host := true, regs := [FW_RESULT, FW_STANDBY_REVISION, FW_STANDBY_STATE, TRACE_HEAD,
      WHARF_HOST_WR_BYTES] }
  | .camRead .. => some { host := true, regs := [TRACE_HEAD, WHARF_HOST_WR_BYTES] }
  | .camWrite .. => some { host := true, regs := [TRACE_HEAD, WHARF_HOST_WR_BYTES] }
  | .camReply .. => some { host := true, regs := [TRACE_HEAD, WHARF_HOST_WR_BYTES] }
  | .ptTimeout .. => some { host := true, regs := bookRegs ++ [HL_PT_TIMEOUTS, TRACE_HEAD, WHARF_HOST_WR_BYTES] }
  | .ringCoalesceExpiry .. => some { regs := [TRACE_HEAD] }
  | .linkDown .. => some { dram := true, host := true, regs := bookRegs ++ [CMP_ENGINES_BUSY, CMP_FAIL,
      HL_LINK_DOWNS, RING_ENABLE, TRACE_HEAD, WHARF_HOST_RD_BYTES, WHARF_HOST_WR_BYTES, WH_PROGRESS_ROWS,
      WH_STATUS] }
  | .hlClear .. => some { regs := bookRegs ++ [HL_APERTURE_WRITE_DROP, HL_DICT_ERRORS, HL_LINK_DOWNS,
      HL_PT_TIMEOUTS, RING_DROP, RING_OVERSIZE, TRACE_HEAD] }
  | .alStateRequest .. => some { regs := [ECAT_AL_STATUS_CODE, ECAT_CYCLE_NS, ECAT_STATE, ECAT_SYNC_MODE,
      TRACE_HEAD] }
  | .sm2Watchdog .. => some { dram := true, host := true, blobs := true, regs := requestRegs ++ leaveRegs ++
      [CAM_SEAM_GAIN_L, CAM_SEAM_GAIN_N, CANVAS_RELEASED_STRIP, CMP_ENGINES_BUSY, EASEL_COMMIT_RESULT,
      ECAT_AL_STATUS_CODE, ECAT_STATE, PDO_WD_EXPIRED, SEAM_GAIN_LIMIT, TRACE_HEAD, VIEW_CONFIG_RESULT, WH_STATUS]
      }
  | .rxpdoBuffer .. => none
  | .sdoDownload .. => none
  | .sdoUpload .. => some { regs := [TRACE_HEAD, WH_PROGRESS_ROWS] }
  | .sdoInfo .. => some { regs := [TRACE_HEAD] }
  | .sdoSegmentTimeout .. => some { regs := [TRACE_HEAD] }
  | .mailboxUnsupported .. => some { regs := [TRACE_HEAD] }
  | .foeWrite .. => some { regs := logRegs ++ [FW_RESULT, FW_STANDBY_REVISION, FW_STANDBY_STATE, TRACE_HEAD] }
  | .sync0 .. => some { regs := bookRegs ++ [PDO_WEB_COUNT, PDO_WEB_SPEED, TRACE_HEAD] }
  | .syncLost .. => some { regs := bookRegs ++ [SYNC_LOST, TRACE_HEAD] }
  | .dcTimeStep .. => some { regs := bookRegs ++ [DC_STEP_LAST_NS, DC_TIME_STEPS, TRACE_HEAD] }
  | .dcLockLost .. => some { regs := bookRegs ++ emcyRegs ++ [DC_LOCKED, TRACE_HEAD] }
  | .storeParameters .. => some { regs := logRegs ++ bookRegs ++ [HL_DICT_ERRORS, TRACE_HEAD] }
  | .restoreDefaults .. => some { regs := bookRegs ++ [HL_DICT_ERRORS, TRACE_HEAD] }
  | .m8MirrorWrite .. => none
  | .m8JobLoad .. => some { regs := bookRegs ++ [HL_DICT_ERRORS, SWITCH_RESULT, SWITCH_STATE, TRACE_HEAD] }
  | .fwActivate .. => some { regs := logRegs ++ bookRegs ++ [HL_DICT_ERRORS, TRACE_HEAD] }
  | .ecatClear .. => some { regs := bookRegs ++ [DC_TIME_STEPS, EMCY_LOST, HL_DICT_ERRORS, PDO_WD_EXPIRED,
      SYNC_LOST, TRACE_HEAD] }
  | .preload .. => some { regs := bookRegs ++ [HL_DICT_ERRORS, SWITCH_RESULT, SWITCH_STATE, TRACE_HEAD] }
  | .loadComplete .. => some { dram := true, host := true, blobs := true, regs := presetRegs ++ jobRegs ++
      [ARCHIVE_GAPS, ARCHIVE_SPACE_WAIT, ARCHIVE_STRIPS, CMP_BYTES_IN, CMP_BYTES_OUT, CMP_ENGINES_BUSY, CMP_FAIL,
      CROP_EVICTED, HL_DICT_ERRORS, SWITCH_MODE, TRACE_HEAD, WHARF_HOST_RD_BYTES, WH_PROGRESS_ROWS, WH_STATUS] }
  | .switchArm .. => some { dram := true, host := true, blobs := true, regs := presetRegs ++ jobRegs ++
      [HL_DICT_ERRORS, TRACE_HEAD] }
  | .switchCancel .. => some { regs := bookRegs ++ [HL_DICT_ERRORS, SWITCH_RESULT, SWITCH_STATE, TRACE_HEAD] }
  | .barIdentRead .. => some { blobs := true, regs := bookRegs ++ [BAR_COMP_PERMILLE, BAR_CURRENT_MA,
      BAR_EQ_MINUTES, BAR_FAULTS, BAR_IDENT_CHANGES, BAR_LIFE_PERMILLE, BAR_LIFE_STATE, BAR_ON_MINUTES, BAR_STATE,
      BAR_TEMP_MC, CAL_STALE_VIEWS, LIGHT_POWER_W, TRACE_HEAD] }
  | .barLifeTick .. => some { regs := bookRegs ++ [BAR_EQ_MINUTES, BAR_LIFE_PERMILLE, BAR_LIFE_STATE,
      BAR_ON_MINUTES, BAR_POWER_W, BAR_VOLTAGE_MV, TRACE_HEAD] }
  | .barLifeWrite .. => some { regs := [TRACE_HEAD] }
  | .barFault .. => some { regs := bookRegs ++ [BAR_CURRENT_MA, BAR_FAULTS, BAR_STATE, LIGHT_POWER_W, TRACE_HEAD]
      }
  | .calStep .. => some { regs := bookRegs ++ [BAR_CURRENT_MA, BAR_STATE, CAL_STATE, HL_DICT_ERRORS,
      LIGHT_POWER_W, TRACE_HEAD] }
  | .calMeasureDone .. => some { blobs := true, regs := [BAR_CURRENT_MA, BAR_STATE, CAL_GEOM_WIDTH, CAL_RESULT,
      CAL_STATE, LIGHT_POWER_W, MODE_PENDING, TRACE_HEAD] }
  | .calAccept .. => some { blobs := true, regs := logRegs ++ bookRegs ++ [BAR_CURRENT_MA, BAR_STATE, CAL_RESULT,
      CAL_STALE_VIEWS, CAL_STATE, CAL_STORED_TIME, CAM_SEAM_GAIN_CAL_L, CAM_SEAM_GAIN_CAL_N, CAM_SEAM_GAIN_L,
      CAM_SEAM_GAIN_N, EASEL_COMMIT_RESULT, EASEL_COMMIT_STAGE, EASEL_CTX_APPLY_STRIP, EASEL_CTX_PENDING,
      EASEL_PAL_PENDING, HL_DICT_ERRORS, LIGHT_POWER_W, MODE_PENDING, TRACE_HEAD, TRIM_BASE_MC, VIEW_PITCH_UM] }
  | .calAbort .. => some { blobs := true, regs := bookRegs ++ [BAR_CURRENT_MA, BAR_STATE, CAL_RESULT, CAL_STATE,
      HL_DICT_ERRORS, LIGHT_POWER_W, MODE_PENDING, TRACE_HEAD] }
  | .trimDue .. => some { regs := [TRACE_HEAD, TRIM_BUSY_BAY] }
  | .trimNow .. => some { regs := bookRegs ++ [HL_DICT_ERRORS, TRACE_HEAD, TRIM_BUSY_BAY] }
  | .trimResult .. => some { regs := logRegs ++ bookRegs ++ [CAL_REJECT, EASEL_COMMIT_RESULT, EASEL_COMMIT_STAGE,
      EASEL_CTX_APPLY_STRIP, EASEL_CTX_PENDING, TRACE_HEAD, TRIM_BASE_MC, TRIM_BUSY_BAY, TRIM_LAST_DARK_MAX,
      TRIM_LAST_GAIN, TRIM_LAST_RESULT, TRIM_LAST_STRIP] }
  | .lightClear .. => some { regs := bookRegs ++ [BAR_CLAMP, BAR_FAULTS, BAR_IDENT_CHANGES, HL_DICT_ERRORS,
      LIGHT_SHED, TRACE_HEAD] }
  | .calClear .. => some { regs := bookRegs ++ [CAL_REJECT, HL_DICT_ERRORS, TRACE_HEAD, TRIM_ABANDONED] }
  | .mainsHalfCycle .. => some { host := true, blobs := true, regs := holdRegs ++ [MAINS_HZ, MAINS_STATE,
      MAINS_VRMS, POWER_CAPACITY_W, POWER_REDUNDANT, POWER_REQUIRED_W, TRACE_HEAD] }
  | .mainsLoss .. => some { host := true, blobs := true, regs := holdRegs ++ logRegs ++ [LIGHT_POWER_W,
      LIGHT_SHED, LOGBOOK_MAINS_COMMIT_US, MAINS_LOSS_COUNT, MAINS_STATE, TRACE_HEAD] }
  | .mainsPowerDown .. => some { host := true, regs := bookRegs ++ [BAR_CURRENT_MA, BAR_STATE, BAY_LANES_UP,
      BAY_POCXP_MW, BAY_SPEED, BAY_STATE, EASEL_STATE, FERRY_DISCARD, ISLAND_STATE, ISO_ERROR_RESPONSES,
      LANE_STATE, PD_STATE, TILE_LOG_STATE, TRACE_HEAD, WHARF_HOST_WR_BYTES] }
  | .powerCheck .. => some { host := true, blobs := true, regs := holdRegs ++ [DC_LOAD_W, INPUT_POWER_W,
      POWER_CAPACITY_W, POWER_REDUNDANT, POWER_REQUIRED_W, PSU_STAGE_POWER_W, TRACE_HEAD] }
  | .psuStageFault .. => some { regs := logRegs ++ bookRegs ++ [PSU_LIFE_FAULTS, PSU_STAGE_FAULTS,
      PSU_STAGE_STATE, TRACE_HEAD] }
  | .domainPowergood .. => some { regs := [ISLAND_STATE, PD_STATE, TRACE_HEAD] }
  | .domainPowergoodTimeout .. => some { dram := true, host := true, blobs := true, regs := lostRegs ++
      [BAY_RESULT, CASCADE_RESULT, EASEL_PHYS, ISLAND_FAIL_LAST, LINES_LATE, LINES_SUBSTITUTED, PD_POWERGOOD_FAIL,
      TILE_BLIND_TASKS, TILE_PHYS, TILE_TASKS, TRACE_HEAD] }
  | .islandRelease .. => some { regs := [BAY_LANES_UP, BAY_POCXP_MW, BAY_SPEED, BAY_STATE, ISLAND_STATE,
      LANE_STATE, TRACE_HEAD] }
  | .islandLockTimeout .. => some { dram := true, host := true, blobs := true, regs := lostRegs ++ [BAY_RESULT,
      CASCADE_RESULT, EASEL_PHYS, ISLAND_FAIL_LAST, ISLAND_LOCK_RETRY, LINES_LATE, LINES_SUBSTITUTED,
      TILE_BLIND_TASKS, TILE_PHYS, TILE_TASKS, TRACE_HEAD] }
  | .islandWake .. => some { regs := [ISLAND_STATE, ISLAND_WAKES, TRACE_HEAD] }
  | .mooringToken .. => some { regs := [FERRY_MOORINGS, TRACE_HEAD] }
  | .resetWarm .. => some { dram := true, host := true, blobs := true, regs := holdRegs ++ flushRegs ++
      [CAM_SEAM_GAIN_L, CAM_SEAM_GAIN_N, CANVAS_RELEASED_STRIP, CMP_ENGINES_BUSY, CMP_FAIL, EASEL_SELFTEST_RESULT,
      HL_DICT_ERRORS, RESET_CAUSE_LAST, RESET_TIME_LAST, RESET_WARM_COUNT, RING_ENABLE, SEAM_GAIN_LIMIT,
      SLICE_SELFTEST_RESULT, SWITCH_RESULT, TIDE_PENDING, TILE_SELFTEST_RESULT, TRACE_HEAD, TRIM_BASE_MC,
      WHARF_HOST_RD_BYTES, WH_PROGRESS_ROWS, WH_STATUS] }
  | .resetCold .. => none
  | .resetButton .. => none
  | .aoBrownout .. => none
  | .powerOn .. => none
  | .tempSample .. => some { host := true, blobs := true, regs := holdRegs ++ [TEMP_DIE_MC, TEMP_INLET_MC,
      TRACE_HEAD] }
  | .thermalTrip .. => some { host := true, regs := bookRegs ++ [BAR_CURRENT_MA, BAR_STATE, BAY_LANES_UP,
      BAY_POCXP_MW, BAY_SPEED, BAY_STATE, EASEL_STATE, FERRY_DISCARD, ISLAND_STATE, ISO_ERROR_RESPONSES,
      LANE_STATE, PD_STATE, TILE_LOG_STATE, TRACE_HEAD, WHARF_HOST_WR_BYTES] }
  | .wdtExpiry .. => some { host := true, blobs := true, regs := holdRegs ++ [TRACE_HEAD] }
  | .supervisorRestart .. => some { dram := true, host := true, blobs := true, regs := holdRegs ++ flushRegs ++
      [CAM_SEAM_GAIN_L, CAM_SEAM_GAIN_N, CANVAS_RELEASED_STRIP, CMP_ENGINES_BUSY, CMP_FAIL, EASEL_SELFTEST_RESULT,
      RESET_CAUSE_LAST, RESET_TIME_LAST, RESET_WARM_COUNT, RING_ENABLE, SEAM_GAIN_LIMIT, SLICE_SELFTEST_RESULT,
      SUPERVISOR_RESTARTS, SWITCH_RESULT, TIDE_PENDING, TILE_SELFTEST_RESULT, TRACE_HEAD, TRIM_BASE_MC,
      WHARF_HOST_RD_BYTES, WH_PROGRESS_ROWS, WH_STATUS] }
  | .ioSupplyLow .. => some { regs := bookRegs ++ [IO_SUPPLY_LOSS, IO_SUPPLY_LOW, IO_SUPPLY_MV, TRACE_HEAD] }
  | .powerClear .. => some { regs := bookRegs ++ [FERRY_DISCARD, FERRY_FENCED_DROP, HL_DICT_ERRORS,
      ISLAND_LOCK_RETRY, ISO_ERROR_RESPONSES, MAINS_LOSS_COUNT, PD_POWERGOOD_FAIL, PSU_STAGE_FAULTS,
      SUPERVISOR_RESTARTS, TRACE_HEAD] }
  | .logbookCountersTimer .. => some { regs := logRegs ++ bookRegs ++ [FAN_TRAY_MINUTES, LOGBOOK_COMMIT_FAIL,
      LOGBOOK_SECTORS_RETIRED, LOGBOOK_STATE, MODULE_INSPECT_MINUTES, MODULE_ON_MINUTES, PSU_ON_MINUTES,
      TRACE_HEAD] }
  | .logbookWearTimer .. => some { regs := logRegs ++ bookRegs ++ [PF_BLOCKS_RETIRED, PF_ERASE_MAX, PF_ERASE_MEAN,
      PF_READ_FAIL, PF_RESERVE_PERMILLE, PF_STATE, TRACE_HEAD] }
  | .logbookFactoryReset .. => some { regs := bookRegs ++ [FW_BOOT_FAILS, HL_DICT_ERRORS, TRACE_HEAD] }
  | .snapTake .. => some { regs := bookRegs ++ [HL_DICT_ERRORS, SNAP_STATE, TRACE_HEAD] }
  | .snapDone .. => some { regs := [SNAP_STATE, TRACE_HEAD] }
  | .snapDelete .. => some { regs := bookRegs ++ [HL_DICT_ERRORS, TRACE_HEAD] }
  | .roMeasure .. => some { regs := logRegs ++ bookRegs ++ unitRegs ++ [ISLAND_STATE, PD_STATE, RO_DRIFT_EASEL,
      RO_DRIFT_TILE, TRACE_HEAD] }
  | .fanDeficit .. => some { regs := logRegs ++ bookRegs ++ [FAN_STATE, TRACE_HEAD] }
  | .lbkClear .. => some { regs := bookRegs ++ [HL_DICT_ERRORS, LOGBOOK_COMMIT_FAIL, LOGBOOK_SECTORS_RETIRED,
      PF_BLOCKS_RETIRED, PF_READ_FAIL, TRACE_HEAD] }
  | .obsSampleTimer .. => some { blobs := true, regs := [DRAM_RD_BYTES, DRAM_WR_BYTES, ECAT_FRAMES,
      ECAT_FRAME_ERR, OBS_SAMPLE_SEQ, SUPERVISOR_BUSY_NS, TRACE_HEAD] }
  | .dcLocked .. => some { regs := bookRegs ++ emcyRegs ++ [DC_LOCKED, TRACE_HEAD] }
  | .wireClear .. => some { regs := bookRegs ++ emcyRegs ++ [ENC_FAULT, TRACE_HEAD] }
  | .hostLinkUp .. => some { host := true, regs := bookRegs ++ [RING_FRAMES, RING_OVERSIZE, RING_STAGED_BYTES,
      TRACE_HEAD, WHARF_HOST_WR_BYTES] }
  | .ioSupplyReturn .. => some { regs := bookRegs ++ [IO_SUPPLY_LOSS, IO_SUPPLY_LOW, IO_SUPPLY_MV, TRACE_HEAD] }
  | .spareEaselCheckDone .. => some { regs := logRegs ++ bookRegs ++ unitRegs ++ [ISLAND_STATE, TRACE_HEAD] }
  | .spareTileCheckDone .. => some { regs := logRegs ++ bookRegs ++ unitRegs ++ [ISLAND_STATE, PD_STATE,
      TRACE_HEAD] }
  | .spareDramCheckDone .. => some { regs := logRegs ++ bookRegs ++ unitRegs ++ [ISLAND_STATE, TRACE_HEAD] }
  | .supervisorRegionRebuilt .. => some { regs := [TRACE_HEAD] }
  | .seamHoldbackEnd .. => some { regs := [EASEL_A_MAX_DELAY_NS, EASEL_CTX_SWITCHES, SEAM_HOLDBACK_NS, TRACE_HEAD]
      }
  | .fanTrayChange .. => some { blobs := true, regs := logRegs ++ bookRegs ++ [FAN_STATE, FAN_TRAY_MINUTES,
      TRACE_HEAD] }

end

end Sys2Proof.Machine
end

