-- ==== Sys2Proof/WellFormed.lean ====
section
/-! DEFINITION. WellFormed.lean: the commands that name only units the module has (R2, R4 and the object tables). -/
namespace Sys2Proof

/-- Whether every unit number of the command names a unit of the module. -/
def Instr.wf : Instr → Bool
  | .objectWrite _ _ _ _ _ => true
  | .encCount _ _ _ _ => true
  | .encWireFault _ line _ => decide (line < 9)
  | .sincosQuadrantEdge _ input quadrant _ => decide (input < 2) && decide (quadrant < 4)
  | .encSerialPoll _ => true
  | .encSerialPollDone _ _ _ => true
  | .index _ => true
  | .obsUpdate _ => true
  | .encStandstill _ => true
  | .cylToothEdge _ => true
  | .auxCount _ input _ _ _ => decide (input < 2)
  | .pulseEdge _ n => decide (n < 2)
  | .pulseDividerWrite _ _ n _ _ => decide (n < 2)
  | .webCountSend _ => true
  | .webCountFrame _ _ => true
  | .triggerIssue _ => true
  | .triggerWidthEnd _ bay => decide (bay < 12)
  | .calLineTimer _ => true
  | .modeRequest _ _ _ => true
  | .holdExitFlush _ => true
  | .bayRetry _ _ bay => decide (bay < 12)
  | .cxpSignalDetect _ bay signal => decide (bay < 12) && decide (signal.lane < 4)
  | .cxpDiscoveryDone _ bay _ => decide (bay < 12)
  | .cxpStepUpLock _ bay => decide (bay < 12)
  | .cxpStepUpTimeout _ bay => decide (bay < 12)
  | .laneStepDone _ quad lane _ => decide (quad < 13) && decide (lane < 4)
  | .laneStepTimeout _ quad lane => decide (quad < 13) && decide (lane < 4)
  | .bringupEnd _ => true
  | .laneLockLoss _ quad lane => decide (quad < 13) && decide (lane < 4)
  | .laneRetrainFail _ quad lane => decide (quad < 13) && decide (lane < 4)
  | .laneRetrainDone _ quad lane => decide (quad < 13) && decide (lane < 4)
  | .blockLockGained _ quad lane _ => decide (quad < 13) && decide (lane < 4)
  | .alignOrderFault _ lane _ => decide (lane < 4)
  | .pocxpOverload _ bay _ _ _ => decide (bay < 12)
  | .laneBer _ quad lane _ _ => decide (quad < 13) && decide (lane < 4)
  | .sliceSelftest _ _ quad _ => decide (quad < 13)
  | .sliceSelftestDone _ quad _ _ => decide (quad < 13)
  | .spareSliceCheck _ => true
  | .spareSliceCheckDone _ quad slice _ => decide (quad < 13) && decide (slice < 5)
  | .lbRunStart _ _ quad _ => decide (quad < 13)
  | .lbRunStop _ _ quad _ _ => decide (quad < 13)
  | .bayClear _ _ bay => decide (bay < 12)
  | .cascadeClear _ _ => true
  | .capability _ _ => true
  | .rttRequest _ _ _ => true
  | .rttReply _ _ => true
  | .latency _ _ => true
  | .lbRequest _ _ => true
  | .lbReply _ _ => true
  | .cameraPacket _ bay pkt => decide (bay < 12) && decide (pkt.lane < 4) && decide (pkt.slice < 5)
  | .lineLate _ bay _ => decide (bay < 12)
  | .expCommit _ _ => true
  | .intakeClear _ _ => true
  | .tilePacket _ easel ctx _ => decide (easel < 6) && decide (ctx < 2)
  | .easelLineDone _ easel phys _ => decide (easel < 6) && decide (phys < 7)
  | .easelLoadWindow _ easel => decide (easel < 6)
  | .easelCtxCommit _ _ easel ctx => decide (easel < 6) && decide (ctx < 2)
  | .easelPalCommit _ _ easel ctx => decide (easel < 6) && decide (ctx < 2)
  | .easelClear _ _ easel => decide (easel < 6)
  | .easelHeartbeatSend _ => true
  | .easelHbDeadline _ easel => decide (easel < 6)
  | .easelSelftest _ _ _ => true
  | .easelSelftestDone _ _ => true
  | .spareEaselCheck _ => true
  | .joinerSegment _ bay _ => decide (bay < 12)
  | .completionNote _ bay => decide (bay < 12)
  | .seamForcedComplete _ view => decide (view < 4)
  | .seamClear _ _ view => decide (view < 4)
  | .overlapFrame _ _ => true
  | .markSearchDone _ _ => true
  | .regRowDone _ view _ => decide (view < 4)
  | .regLearn _ _ => true
  | .regUpSave _ _ => true
  | .regClear _ _ => true
  | .taskIssue _ view => decide (view < 4)
  | .fragment _ src => decide (src.phys < 104)
  | .taskEnd _ src _ => decide (src.phys < 104)
  | .tileDeadline _ tile => decide (tile < 96)
  | .tileHeartbeatTask _ tile => decide (tile < 96)
  | .tideCommit _ _ => true
  | .tideLoadWindow _ => true
  | .tileSelftest _ _ _ => true
  | .tileSelftestDone _ _ => true
  | .spareTileCheck _ phys => decide (phys < 104)
  | .fabricClear _ _ => true
  | .fragmentFrame _ _ => true
  | .defCascadeWait _ => true
  | .rejectHoldEnd _ => true
  | .markWidthEnd _ marker => decide (marker < 16)
  | .markOnLimit _ marker => decide (marker < 16)
  | .markerOvercurrent _ marker => decide (marker < 16)
  | .defClear _ _ => true
  | .motionClear _ _ => true
  | .filterOutput _ group _ => decide (group < 4)
  | .fcPresetWrite _ _ group _ => decide (group < 4)
  | .fcCoefCommit _ _ group => decide (group < 4)
  | .fcCoefFactory _ _ group => decide (group < 4)
  | .fcSync _ _ _ => true
  | .fcCaptureRun _ _ => true
  | .fcClear _ _ => true
  | .digitalInputEdge _ input _ _ => decide (input < 16)
  | .eventDeliver _ => true
  | .lutGlitchExpiry _ cell => decide (cell < 32)
  | .chanHoldoffEnd _ chan => decide (chan < 64)
  | .chanRateWindow _ chan => decide (chan < 64)
  | .timerExpire _ n => decide (n < 16)
  | .markPulse _ marker => decide (marker < 16)
  | .timerStart _ n => decide (n < 16)
  | .timerStop _ n => decide (n < 16)
  | .latch _ n => decide (n < 16)
  | .evtCount _ n => decide (n < 16)
  | .hostEvt _ n => decide (n < 16)
  | .ecatToggle _ n => decide (n < 16)
  | .fcSyncGroup _ group => decide (group < 4)
  | .detStart _ det => decide (det < 4)
  | .pulseZero _ n => decide (n < 2)
  | .holdRequest _ => true
  | .traceMark _ => true
  | .evtSoft _ _ _ => true
  | .evtSave _ _ => true
  | .chanCfgWrite _ _ chan _ => decide (chan < 64)
  | .cellCfgWrite _ _ cell _ => decide (cell < 32)
  | .evtClear _ _ => true
  | .sramUncorrectable _ _ _ => true
  | .sramScrub _ _ _ _ => true
  | .dramPoisonRead _ pkg _ => decide (pkg < 13)
  | .dramPatrol _ _ => true
  | .dramMigrate _ _ _ => true
  | .dramMigrateDone _ => true
  | .dramPkgDead _ pkg _ => decide (pkg < 13)
  | .dramSelftest _ _ _ => true
  | .dramSelftestDone _ _ => true
  | .spareDramCheck _ => true
  | .memClear _ _ => true
  | .whStart _ _ chan => decide (chan < 32)
  | .whAbort _ _ chan => decide (chan < 32)
  | .whFlush _ _ chan _ => decide (chan < 32)
  | .whRestart _ _ _ => true
  | .whJobDone _ chan _ => decide (chan < 32)
  | .whBusError _ _ _ _ => true
  | .whClear _ _ => true
  | .cmpClear _ _ => true
  | .hlRingConsWrite _ fn ring _ => decide (fn < 2) && decide (ring < 4)
  | .hlMboxTailWrite _ fn _ => decide (fn < 2)
  | .hlIrqStatusWrite _ fn _ _ => decide (fn < 2)
  | .msixUnmask _ fn vector => decide (fn < 2) && decide (vector < 64)
  | .hlWhCommitLoRead _ fn chan => decide (fn < 2) && decide (chan < 32)
  | .hlWindowRead _ fn offset _ => decide (fn < 2) && decide (offset < 2 ^ 27)
  | .hlWindowWrite _ fn offset _ => decide (fn < 2) && decide (offset < 2 ^ 27)
  | .apertureWrite _ fn offset data => decide (fn < 2) && decide (offset + data.length ≤ 2 ^ 30)
  | .ringEnableWrite _ _ ring _ => decide (ring < 5)
  | .dictRead _ _ _ _ => true
  | .dictWrite _ _ _ _ => true
  | .pkgStore _ _ => true
  | .fwStore _ _ _ => true
  | .camRead _ fn _ _ _ => decide (fn < 2)
  | .camWrite _ fn _ _ _ => decide (fn < 2)
  | .camReply _ bay _ => decide (bay < 12)
  | .ptTimeout _ bay => decide (bay < 12)
  | .ringCoalesceExpiry _ ring => decide (ring < 5)
  | .linkDown _ fn => decide (fn < 2)
  | .hlClear _ _ => true
  | .alStateRequest _ _ _ => true
  | .sm2Watchdog _ => true
  | .rxpdoBuffer _ _ => true
  | .sdoDownload _ _ _ _ _ => true
  | .sdoUpload _ _ _ _ => true
  | .sdoInfo _ _ _ _ => true
  | .sdoSegmentTimeout _ => true
  | .mailboxUnsupported _ _ => true
  | .foeWrite _ _ _ _ _ => true
  | .sync0 _ which => decide (which < 2)
  | .syncLost _ => true
  | .dcTimeStep _ _ => true
  | .dcLockLost _ _ => true
  | .storeParameters _ _ _ => true
  | .restoreDefaults _ _ _ => true
  | .m8MirrorWrite _ _ _ _ _ => true
  | .m8JobLoad _ _ => true
  | .fwActivate _ _ => true
  | .ecatClear _ _ => true
  | .preload _ _ => true
  | .loadComplete _ => true
  | .switchArm _ _ => true
  | .switchCancel _ _ => true
  | .barIdentRead _ chan _ _ => decide (chan < 12)
  | .barLifeTick _ chan _ _ _ => decide (chan < 12)
  | .barLifeWrite _ chan => decide (chan < 12)
  | .barFault _ chan _ => decide (chan < 12)
  | .calStep _ _ => true
  | .calMeasureDone _ _ => true
  | .calAccept _ _ => true
  | .calAbort _ _ => true
  | .trimDue _ bay => decide (bay < 12)
  | .trimNow _ _ bay => decide (bay < 12)
  | .trimResult _ _ => true
  | .lightClear _ _ => true
  | .calClear _ _ => true
  | .mainsHalfCycle _ _ _ _ => true
  | .mainsLoss _ => true
  | .mainsPowerDown _ => true
  | .powerCheck _ => true
  | .psuStageFault _ stage => decide (stage < 3)
  | .domainPowergood _ domain => decide (domain < 56)
  | .domainPowergoodTimeout _ domain => decide (domain < 56)
  | .islandRelease _ island _ => decide (island < 74)
  | .islandLockTimeout _ island => decide (island < 74)
  | .islandWake _ island => decide (island < 74)
  | .mooringToken _ island => decide (island < 74)
  | .resetWarm _ _ => true
  | .resetCold _ _ _ => true
  | .resetButton _ _ _ => true
  | .aoBrownout _ _ => true
  | .powerOn _ _ _ => true
  | .tempSample _ _ _ => true
  | .thermalTrip _ => true
  | .wdtExpiry _ => true
  | .supervisorRestart _ => true
  | .ioSupplyLow _ _ => true
  | .powerClear _ _ => true
  | .logbookCountersTimer _ => true
  | .logbookWearTimer _ => true
  | .logbookFactoryReset _ _ _ => true
  | .snapTake _ _ _ => true
  | .snapDone _ => true
  | .snapDelete _ _ _ => true
  | .roMeasure _ _ _ => true
  | .fanDeficit _ fan => decide (fan < 6)
  | .lbkClear _ _ => true
  | .obsSampleTimer _ => true
  | .dcLocked _ => true
  | .wireClear _ => true
  | .hostLinkUp _ fn _ _ => decide (fn < 2)
  | .ioSupplyReturn _ _ => true
  | .spareEaselCheckDone _ _ => true
  | .spareTileCheckDone _ phys _ => decide (phys < 104)
  | .spareDramCheckDone _ _ => true
  | .supervisorRegionRebuilt _ => true
  | .seamHoldbackEnd _ view => decide (view < 4)
  | .fanTrayChange _ _ => true

end Sys2Proof
end

