-- ==== Sys2Proof/Safety.lean ====
section
/-! DEFINITION. Safety.lean: what a safe state of the block is, in the terms the statements use. -/
namespace Sys2Proof.Machine

/-- The registers in canonical form: keys strictly rising, and no value wider than the widest object (R533). -/
def Dict.canonical (d : Dict) : Prop := d.sorted = true ∧ ∀ e ∈ d, e.2 < 2 ^ 64

/-- A state in canonical form and within the capacities the spec gives: registers (R533), module DRAM and host memory, the trace
island's input queue of 64 (R648) and ring of 262,144 records (R645), and the queue of 16 emergency messages (R540). -/
structure State.Sound (s : State) : Prop where
  dict : s.dict.canonical
  dram : Memory.wf dramBlank s.dram = true
  hostMem : Memory.wf none s.host.hostMem = true
  traceQueue : s.trace.queue.length ≤ 64
  traceRing : s.trace.ring.length ≤ 262144
  emcyQueue : s.ecat.emcyQ.length ≤ 16

/-- A register that is no instance of an object (R532). -/
def Obj.avoids (o : Obj) (k : Key) : Prop := ∀ i < o.count, o.key i ≠ k

/-- A register that is no instance of any of some objects. -/
def Out (os : List Obj) (k : Key) : Prop := ∀ o ∈ os, o.avoids k

/-- A command completes: it answers a next state, and `p` holds of that state. -/
def Completes (c : Instr) (s : State) (p : State → Prop) : Prop := ∃ t, exec c s = .next t ∧ p t

/-- Every command that waits names only units the module has. -/
def State.QueueWf (s : State) : Prop := ∀ c ∈ s.pending, c.wf = true

end Sys2Proof.Machine
end

