-- ==== Sys2Proof/Certificates/Slice0/Obligations.lean ====
section
/-! DEFINITION. Certificates/Slice0/Obligations.lean: the statements for the provers. -/
section Statements
open Sys2Proof Sys2Proof.Machine Sys2Proof.Machine.Reg

/-- R369, R370 (ENC_COUNT, ENC_WIRE_FAULT, WIRE_CLEAR): a valid change of WEB's A/B state that has passed the filter moves the web
count by one, and the high-water mark with it where it advances, unless a line of WEB is low; an illegal change is tallied and
counts nothing; a line low for more than 1 µs sets WIRE and is tallied; when every level is back, WIRE clears. Where the spec leaves
a choice here, the model's is named in log entries 15, 16 and 180. -/
def Obligations.EncoderCountsWeb : Prop := ∀ s : State, s.powered = true →
  (∀ dt a b held fwd, s.get WEB_TYPE = 0 → s.get ENC_FILTER_NS ≤ held →
    abStep (s.motion.ab.getD 0 0) (quadPos a b) = .count fwd → s.wireFault 0 = false →
    let c := addCount (s.get WEB_COUNT) (if fwd == (s.get WEB_INVERT == 0) then 1 else -1)
    Completes (.encCount dt a b held) s fun t => t.get WEB_COUNT = c ∧
      t.get WEB_HIGH_WATER = if 0 < countDiff c (s.get WEB_HIGH_WATER) then c else s.get WEB_HIGH_WATER) ∧
  (∀ dt a b held fwd, s.get WEB_TYPE = 0 → s.get ENC_FILTER_NS ≤ held →
    abStep (s.motion.ab.getD 0 0) (quadPos a b) = .count fwd → s.wireFault 0 = true →
    Completes (.encCount dt a b held) s fun t => t.get WEB_COUNT = s.get WEB_COUNT ∧
      t.get WEB_HIGH_WATER = s.get WEB_HIGH_WATER) ∧
  (∀ dt a b held, s.get WEB_TYPE = 0 → s.get ENC_FILTER_NS ≤ held →
    abStep (s.motion.ab.getD 0 0) (quadPos a b) = .illegal →
    Completes (.encCount dt a b held) s fun t => t.get WEB_COUNT = s.get WEB_COUNT ∧
      t.get ENC_ILLEGAL = min 0xFFFFFFFF (s.get ENC_ILLEGAL + 1)) ∧
  (∀ dt line lowNs, line < 9 → 1000 < lowNs →
    Completes (.encWireFault dt line lowNs) s fun t => bit (t.get ENC_FAULT) 0 = true ∧ t.wireFault (line / 3) = true ∧
      t.get ENC_WIRE = min 0xFFFFFFFF (s.get ENC_WIRE + 1)) ∧
  (∀ dt line lowNs, line < 9 → lowNs ≤ 1000 →
    Completes (.encWireFault dt line lowNs) s fun t => t.get ENC_FAULT = s.get ENC_FAULT ∧ t.get ENC_WIRE = s.get ENC_WIRE) ∧
  (∀ dt, Completes (.wireClear dt) s fun t => bit (t.get ENC_FAULT) 0 = false ∧ (∀ i < 3, t.wireFault i = false) ∧
    t.get ENC_WIRE = s.get ENC_WIRE)

/-- R371 to R373 (SINCOS_QUADRANT_EDGE): a quadrant edge one place on advances the count by the quadrant: the fraction restarts at
0 going forward, and going back at the quadrant's top unless SETTLING, OVERRATE or AMPLITUDE holds it at 0. -/
def Obligations.QuadrantEdgesCount : Prop := ∀ s : State, s.powered = true → s.Sound →
  ∀ dt quadrant periodNs fwd, quadrant < 4 → s.get WEB_TYPE = 1 → s.wireFault 0 = false →
    abStep (s.sinCos 0).quadrant quadrant = .count fwd → 4400 < periodNs →
    let n := 2 ^ s.get ENC_INTERP
    let f : Nat := if fwd || s.sinCosSettling 0 || (s.sinCos 0).ampBad then 0 else n - 1
    let d : Int := if fwd then (n : Int) - ((s.sinCos 0).fraction : Int) else (f : Int) - n - ((s.sinCos 0).fraction : Int)
    Completes (.sincosQuadrantEdge dt 0 quadrant periodNs) s fun t =>
      t.get WEB_COUNT = addCount (s.get WEB_COUNT) (if s.get WEB_INVERT = 1 then -d else d)

/-- R374 to R376, R381, R382 (ENC_SERIAL_POLL, ENC_SERIAL_POLL_DONE, INDEX): a poll that is due goes out; the first valid SSI word
gives the absolute position, a later one moves the web count by its step, and one whose data line does not return to idle adds
nothing and is tallied; an index edge that has passed the filter latches the web count and gives its distance from the one before,
and one that has not changes no counter of it. Where the spec leaves a choice here, the model's is named in log entry 15. -/
def Obligations.SerialPollsAndIndex : Prop := ∀ s : State, s.powered = true → s.Sound →
  (∀ dt, s.get WEB_TYPE = 2 ∨ s.get WEB_TYPE = 3 →
    (∀ t, s.motion.polledAt = some t → t + s.get ENC_SERIAL_PERIOD_NS ≤ s.now + dt) →
    Completes (.encSerialPoll dt) s fun t => t.motion.polling = true ∧ t.motion.polledAt = some (s.now + dt)) ∧
  (∀ dt word, s.motion.polling = true → s.get WEB_TYPE = 2 → s.wireFault 0 = false →
    let w := s.get ENC_SERIAL_BITS
    let pos := if s.get ENC_SERIAL_CODE = 1 then grayToBinary w (word % 2 ^ w) else word % 2 ^ w
    match s.motion.lastAbs with
    | none => Completes (.encSerialPollDone dt word true) s fun t => t.get ENC_ABS_POSITION = pos % 2 ^ 32 ∧
        t.get WEB_COUNT = s.get WEB_COUNT
    | some l =>
      let d := toSigned w (pos + (2 ^ w - l % 2 ^ w))
      d.natAbs ≤ s.get ENC_SERIAL_MAX_STEP →
      Completes (.encSerialPollDone dt word true) s fun t => t.get ENC_ABS_POSITION = pos % 2 ^ 32 ∧
        t.get WEB_COUNT = addCount (s.get WEB_COUNT) (if s.get WEB_INVERT = 1 then -d else d)) ∧
  (∀ dt word, s.motion.polling = true →
    Completes (.encSerialPollDone dt word false) s fun t => t.get WEB_COUNT = s.get WEB_COUNT ∧
      t.get ENC_SERIAL_ERR = min 0xFFFFFFFF (s.get ENC_SERIAL_ERR + 1)) ∧
  (∀ dt held, s.get ENC_FILTER_NS ≤ held → (s.get ENC_Z_GATE = 1 → s.bothHigh = true) →
    Completes (.index ⟨dt, held⟩) s fun t => t.get INDEX_COUNT = s.get WEB_COUNT ∧
      ∀ l, s.motion.idxLast = some l → t.get INDEX_DELTA = ofSigned 64 (countDiff (s.get WEB_COUNT) l)) ∧
  (∀ dt held, held < s.get ENC_FILTER_NS →
    Completes (.index ⟨dt, held⟩) s fun t => t.get INDEX_COUNT = s.get INDEX_COUNT ∧ t.motion = s.motion)

/-- R385, R387, R393, R395 (OBS_UPDATE, ENC_STANDSTILL, CYL_TOOTH_EDGE): in FORWARD and BACKWARD an update, 100 ns or more after the
last, moves the observer's position, speed and acceleration by the third-order correction of its error; else it leaves them; standstill freezes the
observer at the web count with speed 0; an ordinary tooth gives its period, and a reference edge is latched and counted. Where
the spec leaves a choice here, the model's is named in log entries 11, 17 and 98. -/
def Obligations.ObserverAndCylinder : Prop := ∀ s : State, s.powered = true → s.Sound →
  (∀ dt, s.get OBS_STATE = 1 ∨ s.get OBS_STATE = 2 → (∀ a, s.motion.obsAt = some a → a + 100 ≤ s.now + dt) →
    let d : Rat := 1 / 10000000
    let w : Rat := twoPi * ((obsHz (s.get OBS_PRESET) : Nat) : Rat)
    let p1 := s.motion.p + wholeOf ((s.motion.v * d + s.motion.a * d * d / 2) * 4294967296)
    let e : Rat := ((toSigned 96 (((s.get WEB_COUNT : Int) * 2 ^ 32 - p1) % 2 ^ 96).toNat : Int) : Rat) / 4294967296
    Completes (.obsUpdate dt) s fun t => t.motion.p = p1 + wholeOf (3 * w * d * e * 4294967296) ∧
      t.motion.v = s.motion.v + s.motion.a * d + 3 * w * w * d * e ∧ t.motion.a = s.motion.a + w * w * w * d * e ∧
      t.get OBS_POSITION = ofSigned 64 (nearest ((t.motion.p : Rat) / 4294967296)) ∧
      t.get OBS_SPEED = ofSigned 32 (wholeOf t.motion.v)) ∧
  (∀ dt, s.get OBS_STATE ≠ 1 → s.get OBS_STATE ≠ 2 → Completes (.obsUpdate dt) s fun t => t.motion = s.motion) ∧
  (∀ dt a, s.motion.obsAt = some a → s.now + dt < a + 100 → Completes (.obsUpdate dt) s fun t => t.motion = s.motion) ∧
  (∀ dt, s.get OBS_STATE ≠ 0 → s.motion.lastCount + s.get OBS_STANDSTILL_MS * 1000000 ≤ s.now + dt →
    Completes (.encStandstill dt) s fun t => t.get OBS_STATE = 0 ∧ t.get OBS_POSITION = s.get WEB_COUNT ∧
      t.get OBS_SPEED = ofSigned 32 0 ∧ t.get OBS_STANDSTILLS = (s.get OBS_STANDSTILLS + 1) % 2 ^ 64) ∧
  (∀ dt l pk, s.get CYL_TYPE ≠ 0 → s.get CYL_TEETH ≠ 0 → s.get OBS_STATE = 1 → s.toothBroken = false →
    s.motion.cyl.lastEdge = some l → pk = (countDiff (s.get WEB_COUNT) l).toNat → pk < 2 ^ 32 → s.motion.cyl.skip = 0 →
    s.motion.cyl.afterRef = none →
    (s.motion.cyl.period = none → Completes (.cylToothEdge dt) s fun t => t.get CYL_TOOTH_PERIOD = pk) ∧
    (∀ p, s.motion.cyl.period = some p → s.get CYL_REF_KIND = 0 → 2 * pk ≤ 3 * p →
      Completes (.cylToothEdge dt) s fun t => t.get CYL_TOOTH_PERIOD = pk) ∧
    (∀ p, s.motion.cyl.period = some p → s.get CYL_REF_KIND = 0 → 3 * p < 2 * pk →
      (s.motion.cyl.seenRef = true → s.motion.cyl.edges + 1 = s.get CYL_TEETH) →
      Completes (.cylToothEdge dt) s fun t => t.get CYL_REF_COUNT = s.get WEB_COUNT ∧
        t.get CYL_REFS = (s.get CYL_REFS + 1) % 2 ^ 64) ∧
    (∀ p, s.motion.cyl.period = some p → s.get CYL_REF_KIND = 0 → 3 * p < 2 * pk →
      s.motion.cyl.seenRef = true → s.motion.cyl.edges + 1 ≠ s.get CYL_TEETH →
      Completes (.cylToothEdge dt) s fun t => t.get CYL_REF_COUNT = s.get CYL_REF_COUNT ∧
        t.get CYL_TOOTH_ERR = min 0xFFFFFFFF (s.get CYL_TOOTH_ERR + 1)))

/-- R396 to R398 (AUX_COUNT, PULSE_EDGE, PULSE_DIVIDER_WRITE): a valid change of an AUX input moves its count by one; the oldest
waiting change of a pulse output leaves once PULSE_MIN_EDGE_NS has passed; a divider is taken at once with the remainder at 0,
and one that gives P > Q or Q = 0 is refused and changes nothing. Where the spec leaves a choice here, the model's is named in
log entries 16 and 18. -/
def Obligations.AuxCountsAndPulseOutputs : Prop := ∀ s : State, s.powered = true →
  (∀ dt input a b held fwd, input < 2 → s.get AUX_TYPE input = 1 → s.get ENC_FILTER_NS ≤ held →
    abStep (s.motion.ab.getD (input + 1) 0) (quadPos a b) = .count fwd → s.wireFault (input + 1) = false →
    Completes (.auxCount dt input a b held) s fun t => t.get AUX_COUNT input =
      addCount (s.get AUX_COUNT input) (if fwd == (s.get AUX_INVERT input == 0) then 1 else -1)) ∧
  (∀ dt n d q, n < 2 → (s.pulse n).backlog = d :: q →
    (∀ t, (s.pulse n).lastEdge = some t → t + s.get PULSE_MIN_EDGE_NS n ≤ s.now + dt) → q.length < 2 ^ 16 →
    Completes (.pulseEdge dt n) s fun t => (t.pulse n).backlog = q ∧ (t.pulse n).lastEdge = some (s.now + dt) ∧
      (t.pulse n).phase = ((s.pulse n).phase + (if d then 1 else 3)) % 4 ∧ t.get PULSE_BACKLOG n = q.length) ∧
  (∀ dt via n isQ v, n < 2 → v < 2 ^ 32 →
    let p := if isQ then s.get PULSE_P n else v
    let q := if isQ then v else s.get PULSE_Q n
    let o := if isQ then PULSE_Q else PULSE_P
    (q ≠ 0 → p ≠ 0 → p ≤ q → Completes (.pulseDividerWrite dt via n isQ v) s fun t =>
      t.get o n = v ∧ (t.pulse n).acc = 0 ∧ t.abort = 0 ∧ t.get PULSE_COUNT n = s.get PULSE_COUNT n) ∧
    (q = 0 ∨ q < p → Completes (.pulseDividerWrite dt via n isQ v) s fun t =>
      t.get o n = s.get o n ∧ t.motion = s.motion ∧ t.abort ≠ 0))

/-- R53, R121, R123, R125, R128 (TRIGGER_ISSUE, CAL_LINE_TIMER, TRIGGER_WIDTH_END): with the generator running, a line waiting, the
web at its high-water mark and the minimum period elapsed, the line at the front is triggered: it takes the number LINE_NUMBER,
which moves on by one, and the trigger of every bay is up for its width; a wait beyond one compare tick is tallied; before
the minimum period, and while the web is behind its high-water mark, nothing is issued; in CALIBRATE a line that is due by time is
triggered the same way, with the web count of that instant, and counts for the measurement; a bay's trigger falls when its width has
passed, or, before that, where the next trigger rises within 100 ns and before its end, which TRIG_WIDTH_CLIP tallies for a used
bay with a trigger path, and else stays up. Where the spec leaves a choice here, the model's is named in log entries 14, 93 and 171. -/
def Obligations.LineTriggers : Prop := ∀ s : State, s.powered = true →
  let issued (n count now : Nat) (t : State) : Prop := t.get LINE_NUMBER = (n + 1) % 2 ^ 64 ∧ t.trig.lastIssue = some now ∧
    (t.trig.lines.head?.map fun x => (x.num, x.count, x.at_)) = some (n, count, now) ∧
    ∀ b < 12, ∃ e, t.trig.highUntil.getD b none = some e ∧ now ≤ e
  (∀ dt l q, s.trig.pend = l :: q → s.trig.running = true → s.motion.behind = false →
    (∀ t, s.trig.lastIssue = some t → t + s.get TRIG_MIN_PERIOD_NS ≤ s.now + dt) →
    Completes (.triggerIssue dt) s fun t => issued (s.get LINE_NUMBER) l.count (s.now + dt) t ∧
      t.get TRIG_DEFERRED = if s.now + dt - l.created ≤ 2 then s.get TRIG_DEFERRED
        else min 0xFFFFFFFF (s.get TRIG_DEFERRED + 1)) ∧
  (∀ dt, s.trig.lastIssue.any (fun a => decide (s.now + dt < a + s.get TRIG_MIN_PERIOD_NS)) = true ∨ s.trig.running = false ∨
      s.motion.behind = true ∨ s.trig.pend = [] →
    Completes (.triggerIssue dt) s fun t => t.get LINE_NUMBER = s.get LINE_NUMBER ∧ t.trig = s.trig) ∧
  (∀ dt c, s.get MODE = 4 → s.trig.calNext = some c → c ≤ s.now + dt →
    (∀ t, s.trig.lastIssue = some t → t + s.get TRIG_MIN_PERIOD_NS ≤ s.now + dt) →
    Completes (.calLineTimer dt) s fun t => issued (s.get LINE_NUMBER) (s.get WEB_COUNT) (s.now + dt) t ∧
      (s.get LINE_NUMBER % 256 ≠ 0 → t.cal.lines = s.cal.lines + if s.get CAL_STATE = 2 then 1 else 0)) ∧
  (∀ dt, s.get MODE ≠ 4 ∨ s.trig.calNext = none → Completes (.calLineTimer dt) s fun t =>
    t.get LINE_NUMBER = s.get LINE_NUMBER ∧ t.trig = s.trig ∧ t.cal = s.cal) ∧
  (∀ dt bay e, bay < 12 → s.trig.highUntil.getD bay none = some e → e ≤ s.now + dt →
    Completes (.triggerWidthEnd dt bay) s fun t => t.trig.highUntil = s.trig.highUntil.set bay none ∧
      (t.bay bay).trigHigh = false ∧ t.get TRIG_WIDTH_CLIP = s.get TRIG_WIDTH_CLIP) ∧
  (∀ dt bay e, bay < 12 → s.trig.highUntil.getD bay none = some e → s.now + dt < e →
    let soon (r : Nat) : Prop := r < e ∧ r ≤ s.now + dt + 100
    let next : Option Nat := if s.get MODE = 4 then s.trig.calNext
      else if s.trig.running = true ∧ s.motion.behind = false ∧ s.trig.pend ≠ [] then
        some ((s.trig.lastIssue.map (· + s.get TRIG_MIN_PERIOD_NS)).getD (s.now + dt))
      else none
    (∀ r, next = some r → soon r → Completes (.triggerWidthEnd dt bay) s fun t =>
      t.trig.highUntil = s.trig.highUntil.set bay none ∧ (t.bay bay).trigHigh = false ∧
      t.get TRIG_WIDTH_CLIP = if s.bayUsed bay = true ∧ s.get TRIG_PATH bay ≠ 0 then
        min 0xFFFFFFFF (s.get TRIG_WIDTH_CLIP + 1) else s.get TRIG_WIDTH_CLIP) ∧
    ((∀ r, next = some r → ¬ soon r) → Completes (.triggerWidthEnd dt bay) s fun t => t.trig = s.trig ∧ t.bays = s.bays))

/-- R401 (WEB_COUNT_SEND, WEB_COUNT_FRAME): a PRIMARY whose link runs sends its WEB_COUNT frame once 20 µs have passed since the
last, and not before; a SECONDARY whose line numbering has resumed, and that receives the frame it expects over a link that carries
frames, keeps its count
where the difference is within CASCADE_COUNT_TOL, and otherwise adds the difference and tallies CASCADE_COUNT_ERR; in both
cases it takes whether the phase is known, and the phase, from the frame, and in the first the frame's next repeat start too,
where it lies ahead of the last line. Where the spec leaves a choice here, the model's is named in log entries 38 and 192. -/
def Obligations.CascadeWebCounts : Prop := ∀ s : State, s.powered = true → s.Sound →
  (∀ dt, s.get CASCADE_ENABLE = 1 → s.get CASCADE_ROLE = 0 → s.cascade.exchanged = true → s.cascade.down = false →
    s.cascade.countAt + 20000 ≤ s.now + dt →
    Completes (.webCountSend dt) s fun t => t.cascade.countAt = s.now + dt ∧
      t.cascade.txSeq = (s.cascade.txSeq + 1) % 65536 ∧
      t.cascade.sent.head? = some (linkFrame 3 s.cascade.txSeq (s.advance dt).countFrame)) ∧
  (∀ dt, s.now + dt < s.cascade.countAt + 20000 → Completes (.webCountSend dt) s fun t => t.cascade = s.cascade) ∧
  (∀ dt p seq, s.get CASCADE_ENABLE = 1 → s.get CASCADE_ROLE = 1 → s.linkCarries = true → s.cascade.rxSeq = some seq → seq < 65536 →
    p.length = 56 → (∀ b ∈ p, b < 256) → s.cascade.adopt = false →
    let d := countDiff (natAt p 8 8) ((s.advance dt).countAtTime (natAt p 0 8))
    (d.natAbs ≤ s.get CASCADE_COUNT_TOL → Completes (.webCountFrame dt (linkFrame 3 seq p)) s fun t =>
      t.get WEB_COUNT = s.get WEB_COUNT ∧ t.get CASCADE_COUNT_ERR = s.get CASCADE_COUNT_ERR ∧
      t.web.sched.known = bit (natAt p 42 1) 1 ∧
      t.web.sched.entry = (if natAt p 44 2 = 0xFFFF then none else some (natAt p 44 2)) ∧
      (∀ l, s.trig.lines.head? = some l → t.web.sched.starts =
        if bit (natAt p 42 1) 0 = true ∧ 0 < countDiff (natAt p 48 8) l.count then [natAt p 48 8] else [])) ∧
    (s.get CASCADE_COUNT_TOL < d.natAbs → Completes (.webCountFrame dt (linkFrame 3 seq p)) s fun t =>
      t.get WEB_COUNT = addCount (s.get WEB_COUNT) d ∧
      t.get CASCADE_COUNT_ERR = min 0xFFFFFFFF (s.get CASCADE_COUNT_ERR + 1) ∧
      t.web.sched.known = bit (natAt p 42 1) 1 ∧
      t.web.sched.entry = if natAt p 44 2 = 0xFFFF then none else some (natAt p 44 2)))

/-- R58 to R61, R64, R79, R80 (MODE_REQUEST, HOLD_EXIT_FLUSH): a request for the present mode is OK and one for HOLD enters it at
once from any other mode, with its cause set, the transition that was pending gone and the reject bitmap at 0; a request that
the table of transitions does not have is ILLEGAL, one while another is pending is BUSY, and both change no mode; a request
for MAKEREADY whose conditions hold is pending while the web moves forward; the flush that ends HOLD leads to READY, unless a
cause is active. Where the spec leaves a choice here, the model's is named in log entries 91 and 92. -/
def Obligations.ModeRequests : Prop := ∀ s : State, s.powered = true → s.get ECAT_STATE ≠ 3 →
  (∀ dt via, s.get MODE ≤ 5 → s.get MODE_PENDING = 0xFF → Completes (.modeRequest dt via (s.get MODE)) s fun t =>
    t.get MODE_RESULT = 0 ∧ t.get MODE = s.get MODE ∧ t.abort = 0) ∧
  (∀ dt via target, target ≤ 4 → target ≠ s.get MODE → s.get MODE_PENDING = 0xFF →
    ¬ (s.get MODE, target) ∈ [(0, 1), (1, 0), (1, 2), (1, 4), (2, 3), (2, 1), (3, 1), (3, 2), (4, 1), (5, 1)] →
    Completes (.modeRequest dt via target) s fun t => t.get MODE_RESULT = 3 ∧ t.get MODE = s.get MODE ∧
      t.get MODE_PENDING = s.get MODE_PENDING ∧ t.abort = abortMode) ∧
  (∀ dt via target, target ≤ 4 → s.get MODE_PENDING ≠ 0xFF →
    ¬ (s.get MODE = 2 ∧ s.get MODE_PENDING = 3 ∧ (target = 1 ∨ target = 2)) →
    Completes (.modeRequest dt via target) s fun t => t.get MODE_RESULT = 2 ∧ t.get MODE = s.get MODE ∧
      t.get MODE_PENDING = s.get MODE_PENDING ∧ t.abort = abortBusy) ∧
  (∀ dt via, s.get MODE ≠ 5 → Completes (.modeRequest dt via 5) s fun t => t.get MODE = 5 ∧ t.get MODE_RESULT = 0 ∧
    t.get MODE_PENDING = 0xFF ∧ bit (t.get HOLD_CAUSE) 0 = true ∧ t.get REJECT_BITMAP = 0 ∧
    t.get HOLD_COUNT = min 0xFFFFFFFF (s.get HOLD_COUNT + 1)) ∧
  (∀ dt via r, s.get MODE = 1 → s.get MODE_PENDING = 0xFF → s.get OBS_STATE = 1 →
    (s.advance dt).makereadyCheck = (r, 0) → Completes (.modeRequest dt via 2) s fun t =>
      t.get MODE = 1 ∧ t.get MODE_PENDING = 2 ∧ t.get MODE_RESULT = 1 ∧ t.abort = 0) ∧
  (∀ dt, s.get MODE = 5 → s.get MODE_PENDING = 1 → s.get HOLD_FROM_DORMANT ≠ 1 → s.get HOLD_CAUSE ≤ 1 →
    Completes (.holdExitFlush dt) s fun t => t.get MODE = 1 ∧ t.get MODE_PENDING = 0xFF ∧ t.get HOLD_CAUSE = 0) ∧
  (∀ dt, s.get MODE = 5 → s.get MODE_PENDING = 1 → s.get HOLD_FROM_DORMANT ≠ 1 → 1 < s.get HOLD_CAUSE →
    Completes (.holdExitFlush dt) s fun t => t.get MODE = 5 ∧ t.get MODE_PENDING = 0xFF ∧ t.get HOLD_CAUSE = s.get HOLD_CAUSE)

/-- R550, R553 to R555 (BAR_IDENT_READ, BAR_LIFE_TICK, BAR_LIFE_WRITE, BAR_FAULT): a bar that does not answer reads ABSENT, one
whose header fails its CRC reads in its own state, and a good one gives its ratings and its identity, keeps the larger total of the same bar
and leaves a channel in FAULT there; a second of driving
enters the forward voltage and the minutes of a bar; a life block is written in the other place with the next sequence number;
a fault of a driven channel turns it off, puts it in FAULT and is tallied. Where the spec leaves a choice here, the model's is
named in log entries 65 and 66. -/
def Obligations.LightBars : Prop := ∀ s : State, s.powered = true → ∀ chan, chan < 12 → chan < s.bars.length →
  (∀ dt temp, s.get MODE ≠ 0 → s.get HOLD_FROM_DORMANT ≠ 1 → Completes (.barIdentRead dt chan none temp) s fun t =>
    t.get BAR_STATE chan = 0 ∧ t.get BAR_CURRENT_MA chan = 0 ∧ t.get BAR_TEMP_MC chan = ofSigned 32 temp) ∧
  (∀ dt raw temp, s.get MODE ≠ 0 → s.get HOLD_FROM_DORMANT ≠ 1 →
    let m := raw.map (· % 256)
    bytesAt m 0 4 = [0x4B, 0x4C, 0x42, 0x31] →
    (crc32c (bytesAt m 0 60) ≠ natAt m 60 4 → Completes (.barIdentRead dt chan (some raw) temp) s fun t =>
      t.get BAR_STATE chan = 4 ∧ t.get BAR_CURRENT_MA chan = 0) ∧
    (crc32c (bytesAt m 0 60) = natAt m 60 4 → Completes (.barIdentRead dt chan (some raw) temp) s fun t =>
      (t.bar chan).ratedCont = natAt m 48 2 ∧ (t.bar chan).ratedPulse = natAt m 50 2 ∧ (t.bar chan).l70 = natAt m 56 4 ∧
      (t.bar chan).serial = some ((bytesAt m 32 16).takeWhile (· != 0)) ∧
      ((s.bar chan).latched = true → t.get BAR_STATE chan = 3) ∧
      ((s.bar chan).totalsOf = some ((bytesAt m 32 16).takeWhile (· != 0)) → t.get BAR_EQ_MINUTES chan =
        max (s.get BAR_EQ_MINUTES chan) (((lifeBlock m).map (fun b => natAt b 4 4)).getD 0) % 2 ^ 32))) ∧
  (∀ dt mean duty mv, s.get BAR_STATE chan = 2 → s.get BAR_MODE chan = 0 → mv < 2 ^ 16 →
    Completes (.barLifeTick dt chan mean duty mv) s fun t => t.get BAR_VOLTAGE_MV chan = mv ∧
      t.get BAR_ON_MINUTES chan = min 0xFFFFFFFF (s.get BAR_ON_MINUTES chan + (((s.bar chan).accOn + 1) / 60).floor.toNat)) ∧
  (∀ dt, s.get BAR_STATE chan ≠ 0 → s.get BAR_STATE chan ≠ 4 →
    (s.get MODE = 0 ∨ ((s.bar chan).onSince = true ∧ (s.bar chan).wroteAt + 600000000000 ≤ s.now + dt)) →
    Completes (.barLifeWrite dt chan) s fun t => (t.bar chan).blockSeq = ((s.bar chan).blockSeq + 1) % 2 ^ 32 ∧
      (t.bar chan).nextB = !(s.bar chan).nextB ∧ (t.bar chan).wroteAt = s.now + dt ∧ (t.bar chan).onSince = false) ∧
  (∀ dt kind, kind ≠ .cleared → s.get BAR_STATE chan = 1 ∨ s.get BAR_STATE chan = 2 →
    Completes (.barFault dt chan kind) s fun t => t.get BAR_STATE chan = 3 ∧ t.get BAR_CURRENT_MA chan = 0 ∧
      t.get BAR_FAULTS chan = min 0xFFFFFFFF (s.get BAR_FAULTS chan + 1) ∧ (t.bar chan).faulty = true ∧ (t.bar chan).latched = true) ∧
  (∀ dt, Completes (.barFault dt chan .cleared) s fun t => (t.bar chan).faulty = false ∧ t.get BAR_STATE chan = s.get BAR_STATE chan)

/-- R559 to R561 (CAL_STEP, CAL_MEASURE_DONE, CAL_ACCEPT, CAL_ABORT): CAL_STEP starts the measurement of the stage that waits; a
measured DARK stage leads to the stage after it, which waits for its target, or to the candidate after the last; accepting a
candidate whose banks pass their checks ends the procedure with OK, one that fails a check is refused with its code and stays, and
aborting ends it with ABORTED; each is refused in another state. Where the spec leaves a choice here, the model's is named in log
entries 41, 84 and 195. -/
def Obligations.CalibrationProcedure : Prop := ∀ s : State, s.powered = true →
  (∀ dt via, s.get CAL_STATE = 1 → Completes (.calStep dt via) s fun t => t.get CAL_STATE = 2 ∧ t.cal.lines = 0 ∧ t.abort = 0) ∧
  (∀ dt via, s.get CAL_STATE ≠ 1 → Completes (.calStep dt via) s fun t => t.get CAL_STATE = s.get CAL_STATE ∧ t.cal = s.cal ∧
    t.abort = abortMode) ∧
  (∀ dt levels q r, s.get CAL_STATE = 2 → s.get CAL_LINES ≤ s.cal.lines → s.cal.todo = 0 :: q :: r → q ≠ 0 →
    Completes (.calMeasureDone dt (.dark levels)) s fun t => t.get CAL_STATE = 1 ∧ t.cal.todo = q :: r) ∧
  (∀ dt levels, s.get CAL_STATE = 2 → s.get CAL_LINES ≤ s.cal.lines → s.cal.todo = [0] →
    Completes (.calMeasureDone dt (.dark levels)) s fun t => t.get CAL_STATE = 3 ∧ t.cal.todo = []) ∧
  (∀ dt meas, s.get CAL_STATE ≠ 2 ∨ s.cal.lines < s.get CAL_LINES → Completes (.calMeasureDone dt meas) s fun t =>
    t.get CAL_STATE = s.get CAL_STATE ∧ t.cal = s.cal) ∧
  (∀ dt via, s.get CAL_STATE = 3 →
    (∀ e ∈ s.cal.cands, s.get EASEL_CTX_PENDING (2 * (e.1 / 2) + s.ctxOf e.1) ≠ 1 ∧
      s.get EASEL_PAL_PENDING (2 * (e.1 / 2) + s.ctxOf e.1) ≠ 1 ∧ (bit e.2.stages 3 = true → s.jobPalette e.1 = false)) →
    (s.candFault = none → Completes (.calAccept dt via) s fun t => t.get CAL_STATE = 0 ∧ t.get CAL_RESULT = 0) ∧
    (∀ i code stage, s.candFault = some (i, code, stage) → i < 12 → Completes (.calAccept dt via) s fun t =>
      t.get CAL_STATE = 3 ∧ t.cal = s.cal ∧ t.get EASEL_COMMIT_RESULT i = code % 256 ∧
      t.get EASEL_COMMIT_STAGE i = stage % 256 ∧ t.abort = 0x06040043)) ∧
  (∀ dt via, s.get CAL_STATE ≠ 3 → Completes (.calAccept dt via) s fun t => t.get CAL_STATE = s.get CAL_STATE ∧ t.cal = s.cal ∧
    t.abort = abortMode) ∧
  (∀ dt via, s.get CAL_STATE ≠ 0 → Completes (.calAbort dt via) s fun t => t.get CAL_STATE = 0 ∧ t.get CAL_RESULT = 7 ∧
    t.cal = {} ∧ t.abort = 0)

/-- R564 to R570 (TRIM_DUE, TRIM_NOW, TRIM_RESULT): a trim whose temperature and interval make it due, or that TRIM_NOW asks for
in INSPECT, waits or runs; a running trim's result is accepted where it is plausible, but waits while a commit is pending in the
camera's context, and is otherwise rejected and tallied. Where the spec leaves a choice here, the model's is named in log entries
85, 194 and 204. -/
def Obligations.Trims : Prop := ∀ s : State, s.powered = true →
  (∀ dt via bay, bay < 12 → s.get MODE = 3 → Completes (.trimNow dt via bay) s fun t => t.abort = 0 ∧
    (bay ∈ t.trim.due ∨ ∃ k, t.trim.run = some (bay, k))) ∧
  (∀ dt via bay, bay < 12 → s.get MODE ≠ 3 → Completes (.trimNow dt via bay) s fun t => t.abort = abortMode ∧ t.trim = s.trim) ∧
  (∀ dt bay, bay < 12 → s.bayUsed bay = true → s.get TRIM_ENABLE = 1 → s.trim.run = none → s.trim.last.getD bay none = none →
    (∃ e ∈ (s.advance dt).trimTemps bay, s.get TRIM_TEMP_THRESHOLD_MK < (e.1 - e.2).natAbs) →
    Completes (.trimDue dt bay) s fun t => bay ∈ t.trim.due ∨ ∃ k, t.trim.run = some (bay, k)) ∧
  (∀ dt bay strip meas, bay < 12 → s.trim.run = some (bay, strip) → 256 * strip + 63 ≤ s.lastLine → s.get LINE_NUMBER ≠ 0 →
    s.trim.held = none → ((s.advance dt).trimMath bay meas).2.2 = true →
    (s.get EASEL_CTX_PENDING (2 * (bay / 2) + s.ctxOf bay) ≠ 1 → Completes (.trimResult dt meas) s fun t =>
      t.get TRIM_LAST_RESULT bay = 1 ∧ t.get CAL_REJECT = s.get CAL_REJECT) ∧
    (s.get EASEL_CTX_PENDING (2 * (bay / 2) + s.ctxOf bay) = 1 → Completes (.trimResult dt meas) s fun t =>
      t.trim = { s.trim with held := some meas } ∧ t.get TRIM_LAST_RESULT bay = s.get TRIM_LAST_RESULT bay)) ∧
  (∀ dt bay strip meas, bay < 12 → s.trim.run = some (bay, strip) → 256 * strip + 63 ≤ s.lastLine → s.get LINE_NUMBER ≠ 0 →
    s.trim.held = none → ((s.advance dt).trimMath bay meas).2.2 = false → Completes (.trimResult dt meas) s fun t =>
      t.get TRIM_LAST_RESULT bay = 2 ∧ t.get CAL_REJECT = min 0xFFFFFFFF (s.get CAL_REJECT + 1))

/-- R90, R93, R104 to R106, R111 (BAY_RETRY, CXP_SIGNAL_DETECT, CXP_DISCOVERY_DONE, CXP_STEP_UP_LOCK, CXP_STEP_UP_TIMEOUT,
POCXP_OVERLOAD): bring-up of a used bay starts again in READY, and is refused elsewhere; a signal leads its lane to discovery and
tells whether a PoCXP device is there, and the connections with one are powered where the bay may feed them; discovery leads to the step up at the rate both sides offer, on
the lanes in discovery whose connection number is asked for; a lock there brings the bay UP with OK, and a timeout tries the
next lower rate until the minimum; a bay without an answer in time, with a camera of too old a revision, with too few connections
or lanes or with too slow a camera goes DOWN with its result, and so does one whose PoCXP is overloaded. Where the spec leaves a
choice here, the model's is named in log entries 50, 155, 190 and 193. -/
def Obligations.CoaXPressBringUp : Prop := ∀ s : State, s.powered = true → ∀ bay, bay < 12 →
  (∀ dt via, s.get MODE = 1 → s.get BAY_LINK_TYPE bay ≠ 0 → Completes (.bayRetry dt via bay) s fun t =>
    t.get BAY_STATE bay = 1 ∧ t.get BAY_SPEED bay = 0xFF ∧ t.abort = 0) ∧
  (∀ dt via, s.get MODE ≠ 1 → Completes (.bayRetry dt via bay) s fun t =>
    t.get BAY_STATE bay = s.get BAY_STATE bay ∧ t.bays = s.bays ∧ t.abort = abortMode) ∧
  (∀ dt lane pocxp, lane < 4 → (s.bay bay).step = 1 ∨ (s.bay bay).step = 2 → s.get LANE_STATE (4 * bay + lane) = 1 →
    s.now + dt ≤ (s.bay bay).entryAt + 6000000000 → Completes (.cxpSignalDetect dt bay ⟨lane, pocxp⟩) s fun t =>
      t.get LANE_STATE (4 * bay + lane) = 2 ∧ (t.bay bay).step = 2 ∧
      (t.bay bay).devices = (if pocxp = true then insertNat lane (s.bay bay).devices else (s.bay bay).devices.filter (· != lane)) ∧
      (t.bay bay).powered = if s.pocxpOn bay = true then (t.bay bay).devices else []) ∧
  (∀ dt, (s.bay bay).step = 2 → Completes (.cxpDiscoveryDone dt bay none) s fun t =>
    t.get BAY_RESULT bay = 2 ∧ t.get BAY_STATE bay = 3 ∧
    t.get BAY_CTRL_TIMEOUT bay = min 0xFFFFFFFF (s.get BAY_CTRL_TIMEOUT bay + 1)) ∧
  (∀ dt c, (s.bay bay).step = 2 → c.revision < 0x10001 ∨ (s.bay bay).discAt.getD (s.now + dt) + 200000000 < s.now + dt →
    Completes (.cxpDiscoveryDone dt bay (some c)) s fun t => t.get BAY_RESULT bay = 2 ∧ t.get BAY_STATE bay = 3) ∧
  (∀ dt c, (s.bay bay).step = 2 → 0x10001 ≤ c.revision →
    s.now + dt ≤ (s.bay bay).discAt.getD (s.now + dt) + 200000000 →
    let n := if s.get BAY_CONNECTIONS bay = 0 then c.connections else s.get BAY_CONNECTIONS bay
    let rate := min (if c.revision < 0x20000 then min 4 c.maxRate else c.maxRate) (s.bay bay).rate
    let targets := (List.range 4).filter (fun j =>
      match (if s.get LANE_STATE (4 * bay + j) = 2 then c.connIds.getD j none else none) with
      | some i => decide (i < n)
      | none => false)
    (c.connections < n → Completes (.cxpDiscoveryDone dt bay (some c)) s fun t =>
      t.get BAY_RESULT bay = 4 ∧ t.get BAY_STATE bay = 3) ∧
    (n ≤ c.connections → rate < s.get BAY_CXP_MIN_SPEED bay → Completes (.cxpDiscoveryDone dt bay (some c)) s fun t =>
      t.get BAY_RESULT bay = 3 ∧ t.get BAY_STATE bay = 3) ∧
    (n ≤ c.connections → s.get BAY_CXP_MIN_SPEED bay ≤ rate → targets.length < n →
      Completes (.cxpDiscoveryDone dt bay (some c)) s fun t => t.get BAY_RESULT bay = 4 ∧ t.get BAY_STATE bay = 3) ∧
    (n ≤ c.connections → s.get BAY_CXP_MIN_SPEED bay ≤ rate → n ≤ targets.length →
      Completes (.cxpDiscoveryDone dt bay (some c)) s fun t =>
        (t.bay bay).step = 3 ∧ (t.bay bay).rate = rate ∧ (t.bay bay).targets = targets)) ∧
  (∀ dt, (s.bay bay).step = 3 → s.now + dt ≤ (s.bay bay).stepAt + 50000000 → (s.bay bay).rate < 256 →
    Completes (.cxpStepUpLock dt bay) s fun t =>
      t.get BAY_STATE bay = 2 ∧ t.get BAY_RESULT bay = 0 ∧ t.get BAY_SPEED bay = (s.bay bay).rate ∧ (t.bay bay).step = 0) ∧
  (∀ dt, (s.bay bay).step = 3 → (s.bay bay).stepAt + 50000000 ≤ s.now + dt →
    (s.get BAY_CXP_MIN_SPEED bay < (s.bay bay).rate → Completes (.cxpStepUpTimeout dt bay) s fun t =>
      (t.bay bay).step = 1 ∧ (t.bay bay).rate = (s.bay bay).rate - 1) ∧
    ((s.bay bay).rate ≤ s.get BAY_CXP_MIN_SPEED bay → Completes (.cxpStepUpTimeout dt bay) s fun t =>
      t.get BAY_RESULT bay = 3 ∧ t.get BAY_STATE bay = 3)) ∧
  (∀ dt mw ms short, s.pocxpOn bay = true → mw < 2 ^ 16 →
    if short = true ∨ ((s.bay bay).powered ≠ [] ∧ 18000 < mw ∧ 10 < ms) then Completes (.pocxpOverload dt bay mw ms short) s fun t =>
      t.get BAY_STATE bay = 3 ∧ t.get BAY_RESULT bay = 7 ∧ t.get BAY_POCXP_MW bay = 0 ∧
      t.get BAY_POCXP_FAULT bay = min 0xFFFFFFFF (s.get BAY_POCXP_FAULT bay + 1)
    else Completes (.pocxpOverload dt bay mw ms short) s fun t =>
      t.get BAY_POCXP_MW bay = if (s.bay bay).powered = [] then 0 else mw)

/-- R99, R101 to R103, R105, R107, R109, R112, R113 (LANE_STEP_DONE, LANE_STEP_TIMEOUT, LANE_LOCK_LOSS, LANE_RETRAIN_FAIL,
LANE_RETRAIN_DONE, BLOCK_LOCK_GAINED, ALIGN_ORDER_FAULT, LANE_BER): a lane of the lock sequence goes from DETECT over TRAIN to
alignment and block lock, and a relocking one is ACTIVE once every lane has block lock; a step that takes too long is tallied
and starts again, or fails the lane at the limit of attempts; a CoaXPress bay without a signal within 6 s goes DOWN; an ACTIVE
lane that loses lock is tallied and relocks, and is ACTIVE again when that succeeds in time; the 64th valid sync header in a
row gives block lock, an invalid one is tallied and slips a bit, and on the cascade port one of a slice or epoch that has ended is
stale; a code violation, a disparity error and a loss of character alignment of an 8b/10b lane are tallied; an ALIGN block out of order is tallied on every lane of the port, one in order moves its sequence on; the error
estimate of an ACTIVE lane is kept, and one above the limit marks it outside READY. Where the spec leaves a choice here, the
model's is named in log entries 156 and 157. -/
def Obligations.LanesLockAndRelock : Prop := ∀ s : State, s.powered = true → ∀ quad lane, quad < 13 → lane < 4 →
  let l := 4 * quad + lane
  l < s.lanes.length →
  (∀ dt offered, s.lockSequence quad = true → s.now + dt ≤ (s.lane l).since + laneLimit (s.get LANE_STATE l) →
    (s.get LANE_STATE l = 1 → Completes (.laneStepDone dt quad lane offered) s fun t => t.get LANE_STATE l = 4) ∧
    (s.get LANE_STATE l = 4 → Completes (.laneStepDone dt quad lane offered) s fun t => t.get LANE_STATE l = 5) ∧
    (s.get LANE_STATE l = 5 → Completes (.laneStepDone dt quad lane offered) s fun t => t.get LANE_STATE l = 6) ∧
    (s.get LANE_STATE l = 6 → s.blockStepOver quad = false → Completes (.laneStepDone dt quad lane offered) s fun t =>
      t.get LANE_STATE l = 6) ∧
    (s.get LANE_STATE l = 6 → s.blockStepOver quad = true → (s.lane l).relock = true →
      Completes (.laneStepDone dt quad lane offered) s fun t => t.get LANE_STATE l = 8 ∧ (t.lane l).relock = false)) ∧
  (∀ dt, s.lockSequence quad = true → (s.lane l).relock = false → s.get LANE_STATE l ∈ [1, 4, 5, 6, 7] →
    (s.lane l).since + laneLimit (s.get LANE_STATE l) ≤ s.now + dt →
    Completes (.laneStepTimeout dt quad lane) s fun t =>
      t.get LANE_RETRAIN l = min 0xFFFFFFFF (s.get LANE_RETRAIN l + 1) ∧
      t.get LANE_STATE l = if (s.lane l).attempts + 1 < s.get BAY_RETRAIN_MAX quad then 1 else 9) ∧
  (∀ dt, s.lockSequence quad = false → (s.lane l).relock = false → s.get LANE_STATE l = 1 → (s.bay quad).step = 1 →
    (s.bay quad).entryAt + 6000000000 ≤ s.now + dt → Completes (.laneStepTimeout dt quad lane) s fun t =>
      t.get BAY_STATE quad = 3 ∧ t.get BAY_RESULT quad = 1 ∧ t.get LANE_STATE l = 9) ∧
  (∀ dt, s.get LANE_STATE l = 8 → Completes (.laneLockLoss dt quad lane) s fun t =>
    t.get LANE_LOCK_LOSS l = min 0xFFFFFFFF (s.get LANE_LOCK_LOSS l + 1) ∧ (t.lane l).relock = true ∧
    t.get LANE_STATE l = if s.lockSequence quad then 4 else 5) ∧
  (∀ dt, (s.lane l).relock = true → (s.lane l).since + laneLimit (s.get LANE_STATE l) ≤ s.now + dt →
    Completes (.laneRetrainFail dt quad lane) s fun t =>
      t.get LANE_RETRAIN l = min 0xFFFFFFFF (s.get LANE_RETRAIN l + 1) ∧
      ((s.lane l).attempts + 1 < s.get BAY_RETRAIN_MAX quad → t.get LANE_STATE l = if s.lockSequence quad then 4 else 5)) ∧
  (∀ dt, (s.lane l).relock = true → s.now + dt ≤ (s.lane l).since + laneLimit (s.get LANE_STATE l) →
    (if s.lockSequence quad = true then s.get LANE_STATE l = 6 ∧ s.blockStepOver quad = true else s.get LANE_STATE l = 5) →
    Completes (.laneRetrainDone dt quad lane) s fun t => t.get LANE_STATE l = 8 ∧ (t.lane l).relock = false) ∧
  (∀ dt w slice epoch, s.lockSequence quad = true → s.get LANE_STATE l ≠ 0 → (s.lane l).blockLock = false →
    (quad = 12 → slice = s.get LANE_SLICE l ∧ epoch = s.get SLICE_EPOCH (60 + slice)) →
    (w % 4 = 1 ∨ (w % 4 = 2 ∧ quad ≠ 12) → (s.lane l).validRun = 63 → Completes (.blockLockGained dt quad lane
      [.block w slice epoch]) s fun t => (t.lane l).blockLock = true ∧ t.get LANE_CODE_ERR l = s.get LANE_CODE_ERR l) ∧
    (w % 4 = 0 ∨ w % 4 = 3 → Completes (.blockLockGained dt quad lane [.block w slice epoch]) s fun t =>
      (t.lane l).blockLock = false ∧ (t.lane l).validRun = 0 ∧ (t.lane l).slip = ((s.lane l).slip + 1) % 66 ∧
      t.get LANE_CODE_ERR l = min 0xFFFFFFFF (s.get LANE_CODE_ERR l + 1))) ∧
  (∀ dt w slice epoch, quad = 12 → s.get LANE_STATE l ≠ 0 →
    slice ≠ s.get LANE_SLICE l ∨ epoch ≠ s.get SLICE_EPOCH (60 + slice) →
    Completes (.blockLockGained dt quad lane [.block w slice epoch]) s fun t => t.lanes = s.lanes ∧
      t.get LANE_STALE_RESULT 12 = min 0xFFFFFFFF (s.get LANE_STALE_RESULT 12 + 1)) ∧
  (∀ dt, s.lockSequence quad = false → s.get LANE_STATE l ≠ 0 → Completes (.blockLockGained dt quad lane [.alignmentLost]) s
    fun t => t.get LANE_LOCK_LOSS l = min 0xFFFFFFFF (s.get LANE_LOCK_LOSS l + 1)) ∧
  (∀ dt x, x = .violation ∨ x = .disparity → s.lockSequence quad = false → s.get LANE_STATE l ≠ 0 →
    Completes (.blockLockGained dt quad lane [x]) s fun t =>
      t.get LANE_CODE_ERR l = min 0xFFFFFFFF (s.get LANE_CODE_ERR l + 1)) ∧
  (∀ dt seq e, quad = 12 → (s.lane l).alignSeq = some e → e ≠ seq % 65536 →
    Completes (.alignOrderFault dt lane seq) s fun t => ∀ j < 4,
      t.get LANE_LOCK_LOSS (48 + j) = min 0xFFFFFFFF (s.get LANE_LOCK_LOSS (48 + j) + 1)) ∧
  (∀ dt seq, quad = 12 → (s.lane l).alignSeq = some (seq % 65536) →
    Completes (.alignOrderFault dt lane seq) s fun t => (t.lane l).alignSeq = some ((seq + 1) % 65536) ∧
      t.get LANE_LOCK_LOSS l = s.get LANE_LOCK_LOSS l) ∧
  (∀ dt errors bits, s.get MODE ≠ 0 → bits ≠ 0 → s.get LANE_STATE l = 8 →
    Completes (.laneBer dt quad lane errors bits) s fun t =>
      t.get LANE_BER_EST l = Config.real32 (((errors : Nat) : Rat) / ((bits : Nat) : Rat)) % 2 ^ 32 ∧
      (bits < errors * 10 ^ s.get BAY_BER_EXP quad → s.get MODE ≠ 1 → (t.lane l).marked = true))

/-- R113 to R116, R594, R625, R628 (SLICE_SELFTEST, SLICE_SELFTEST_DONE, SPARE_SLICE_CHECK, SPARE_SLICE_CHECK_DONE,
LB_RUN_START, LB_RUN_STOP): a quarantined slice is tested in DORMANT and READY, but in READY fails at once behind a closed
isolation wrapper, which is tallied; a slice in another state is refused; ten seconds without an error make it SPARE, and
errors end the test FAILED; a spare of a used quad whose ten minutes are over is checked, and errors quarantine it; a local
loopback of an IN_USE slice in READY, or of a SPARE one outside DORMANT, runs, another reads REFUSED, and at the end of one
the bits and errors are added. Where the spec leaves a choice here, the model's is named in log entries 49, 158, 159 and
181. -/
def Obligations.SlicesAndLoopbacks : Prop := ∀ s : State, s.powered = true → ∀ quad, quad < 13 → quad < s.quads.length →
  (∀ dt via slice, slice < 5 → s.get MODE = 0 ∨ s.get MODE = 1 →
    (s.get SLICE_STATE (5 * quad + slice) = 2 → (s.quad quad).test = none →
      s.asDormant = true ∨ s.wrapperClosed (quadDomain quad) = false → Completes (.sliceSelftest dt via quad slice) s fun t =>
      t.get SLICE_SELFTEST_RESULT quad = 1 ∧ (t.quad quad).test = some (slice, s.now + dt) ∧ t.abort = 0) ∧
    (s.get SLICE_STATE (5 * quad + slice) = 2 → (s.quad quad).test = none → s.asDormant = false →
      s.wrapperClosed (quadDomain quad) = true → Completes (.sliceSelftest dt via quad slice) s fun t =>
        t.get SLICE_SELFTEST_RESULT quad = 3 ∧ t.quads = s.quads ∧ t.abort = 0 ∧
        t.get ISO_ERROR_RESPONSES = min 0xFFFFFFFF (s.get ISO_ERROR_RESPONSES + 1)) ∧
    (s.get SLICE_STATE (5 * quad + slice) ≠ 2 → Completes (.sliceSelftest dt via quad slice) s fun t =>
      t.quads = s.quads ∧ t.abort = abortMode)) ∧
  (∀ dt bits errors slice t0, slice < 5 → (s.quad quad).test = some (slice, t0) → t0 + 10000000000 ≤ s.now + dt → bits ≠ 0 →
    (errors = 0 → Completes (.sliceSelftestDone dt quad bits errors) s fun t =>
      t.get SLICE_SELFTEST_RESULT quad = 2 ∧ (t.quad quad).test = none ∧
      t.get SLICE_STATE (5 * quad + slice) = (if s.get SLICE_STATE (5 * quad + slice) = 3 then 3 else 1)) ∧
    (errors ≠ 0 → Completes (.sliceSelftestDone dt quad bits errors) s fun t =>
      t.get SLICE_SELFTEST_RESULT quad = 3 ∧ (t.quad quad).test = none)) ∧
  (∀ dt i, s.asDormant = false → s.quadUsed quad = true → (s.quad quad).check = none →
    lowest 5 (fun i => s.get SLICE_STATE (5 * quad + i) == 1 &&
      decide ((s.quad quad).checkedAt.getD i 0 + 600000000000 ≤ s.now + dt) && (((s.quad quad).loop.map Prod.fst) != some i)) = some i →
    Completes (.spareSliceCheck dt) s fun t => (t.quad quad).check = some (i, s.now + dt)) ∧
  (∀ dt slice errors t0, slice < 5 → (s.quad quad).check = some (slice, t0) → t0 + 1000000000 ≤ s.now + dt →
    Completes (.spareSliceCheckDone dt quad slice errors) s fun t => (t.quad quad).check = none ∧
      t.get SLICE_STATE (5 * quad + slice) = if errors = 0 then s.get SLICE_STATE (5 * quad + slice) else 2) ∧
  (∀ dt via locked, s.get LB_SLICE quad < 5 → s.get LB_MODE quad ≠ 0 → s.get LB_MODE quad ≠ 3 →
    let st := s.get SLICE_STATE (5 * quad + s.get LB_SLICE quad)
    ((st = 0 ∧ s.get MODE = 1) ∨ (st = 1 ∧ s.asDormant = false) → Completes (.lbRunStart dt via quad locked) s fun t =>
      t.get LB_STATUS quad = (if locked then 1 else 2) ∧ (t.quad quad).loop = some (s.get LB_SLICE quad, s.now + dt) ∧ t.abort = 0) ∧
    (¬((st = 0 ∧ s.get MODE = 1) ∨ (st = 1 ∧ s.asDormant = false)) → Completes (.lbRunStart dt via quad locked) s fun t =>
      t.get LB_STATUS quad = 3 ∧ t.quads = s.quads ∧ t.abort = abortMode)) ∧
  (∀ dt via bits errors x, (s.quad quad).loop = some x → 0 < errors → Completes (.lbRunStop dt via quad bits errors) s fun t =>
    t.get LB_STATUS quad = 0 ∧ t.get LB_BITS quad = (s.get LB_BITS quad + bits) % 2 ^ 64 ∧
    t.get LB_ERRORS quad = min 0xFFFFFFFF (s.get LB_ERRORS quad + errors) ∧ (t.quad quad).loop = none)

/-- R96 to R98, R100 (CAPABILITY, RTT_REQUEST, RTT_REPLY, LATENCY, LB_REQUEST, LB_REPLY): in the exchange, a partner of the other
role, of protocol 1 and with the same upper half of the firmware revision completes it, any other fails it; a SECONDARY echoes
the time and adds its turnaround; a PRIMARY keeps half the round trip and sends it; a SECONDARY keeps the latency it is sent;
a request for a far-end loopback puts its lane in LOOPBACK in READY and is refused elsewhere, each with its reply; a refusal
ends the requester's far-end loopback. Each of the six, when its frame's CRC fails, is tallied and leaves the latency, the
lanes, the quads and the cascade port's state as they are; and where the link carries no frames, it changes nothing of them at all.
Where the spec leaves a choice here, the model's is named in log entries 135, 189 and 192. -/
def Obligations.CascadeControlFrames : Prop := ∀ s : State, s.powered = true →
  (∀ dt frame r p, (s.advance dt).takeFrame 4 frame = (r, some p) →
    (natAt p 0 1 = 1 → s.exchanging = true →
      (natAt p 2 1 ≠ s.get CASCADE_ROLE → natAt p 1 1 = 1 → natAt p 4 4 / 65536 = s.get FW_REVISION / 65536 →
        Completes (.capability dt frame) s fun t => t.cascade.exchanged = true ∧ t.cascade.down = false ∧
          t.get CASCADE_RESULT = 0 ∧ ∀ j < 4, t.get LANE_STATE (48 + j) = 8) ∧
      (natAt p 2 1 = s.get CASCADE_ROLE ∨ natAt p 1 1 ≠ 1 ∨ natAt p 4 4 / 65536 ≠ s.get FW_REVISION / 65536 →
        Completes (.capability dt frame) s fun t => t.get CASCADE_RESULT = 6 ∧ t.cascade.exchanged = false)) ∧
    (∀ turnaround, natAt p 0 1 = 2 → s.isSecondary = true → Completes (.rttRequest dt frame turnaround) s fun t =>
      t.cascade.sent.head? = some (linkFrame 4 s.cascade.txSeq
        ([3, 0, 0, 0, 0, 0, 0, 0] ++ leBytes 8 (natAt p 8 8) ++ leBytes 4 turnaround))) ∧
    (natAt p 0 1 = 3 → s.isPrimary = true →
      let half := ((s.advance dt).dc - natAt p 8 8 - natAt p 16 4) / 2
      Completes (.rttReply dt frame) s fun t => t.get CASCADE_LATENCY_NS = half % 2 ^ 32 ∧
        t.cascade.sent.head? = some (linkFrame 4 s.cascade.txSeq ([4, 0, 0, 0] ++ leBytes 4 half))) ∧
    (natAt p 0 1 = 4 → s.isSecondary = true → Completes (.latency dt frame) s fun t =>
      t.get CASCADE_LATENCY_NS = natAt p 4 4 % 2 ^ 32) ∧
    (natAt p 0 1 = 5 → natAt p 3 1 = 1 →
      let j := natAt p 1 1 % 4
      (s.get MODE = 1 → Completes (.lbRequest dt frame) s fun t => t.get LANE_STATE (48 + j) = 10 ∧
        t.cascade.sent.head? = some (linkFrame 4 s.cascade.txSeq [6, j, 0, 0, 0, 0, 0, 0])) ∧
      (s.get MODE ≠ 1 → Completes (.lbRequest dt frame) s fun t => t.get LANE_STATE (48 + j) = s.get LANE_STATE (48 + j) ∧
        t.cascade.sent.head? = some (linkFrame 4 s.cascade.txSeq [6, j, 1, 0, 0, 0, 0, 0]))) ∧
    (natAt p 0 1 = 6 → (s.quad 12).loopFar = true → (s.quad 12).loop.isSome = true → natAt p 2 1 = 1 →
      Completes (.lbReply dt frame) s fun t => t.get LB_STATUS 12 = 3 ∧ (t.quad 12).loop = none)) ∧
  (∀ dt frame turnaround, s.get CASCADE_ENABLE = 0 ∨ s.linkCarries = false →
    ∀ c ∈ [Instr.capability dt frame, .rttRequest dt frame turnaround, .rttReply dt frame, .latency dt frame, .lbRequest dt frame,
      .lbReply dt frame], Completes c s fun t =>
        t.get CASCADE_FRAME_CRC = s.get CASCADE_FRAME_CRC ∧ t.cascade = s.cascade ∧ t.lanes = s.lanes ∧ t.quads = s.quads) ∧
  (∀ dt frame turnaround, s.get CASCADE_ENABLE = 1 → s.linkCarries = true → frameOk frame = false →
    ∀ c ∈ [Instr.capability dt frame, .rttRequest dt frame turnaround, .rttReply dt frame, .latency dt frame, .lbRequest dt frame,
      .lbReply dt frame], Completes c s fun t =>
        t.get CASCADE_FRAME_CRC = min 0xFFFFFFFF (s.get CASCADE_FRAME_CRC + 1) ∧
        t.get CASCADE_LATENCY_NS = s.get CASCADE_LATENCY_NS ∧ t.cascade = s.cascade ∧ t.lanes = s.lanes ∧ t.quads = s.quads)

/-- R90, R113, R130, R131, R136, R137, R140, R142, R143, R145 (CAMERA_PACKET, LINE_LATE, EXP_COMMIT): a packet of a slice that no
longer serves its lane, or of an old epoch, is tallied as stale; on a lane that carries data, of a bay that is UP, one whose CRC fails is
tallied for the lane, an event packet, one of an unhandled kind or of a stream id above 3 as unsupported, one of an unused
sub-stream as of the wrong type, and one of a line that is not awaited as a tag mismatch; samples of the line that is awaited
next, in the pixel format set, go to the easel in tile packets, cut at the intake width; an awaited line past its limit is
tallied, replaced and stays replaced, and one within it is left; an exposure commit within the budget waits for its strip, and
one beyond it or in CALIBRATE is refused. Where the spec leaves a choice here, the model's is named in log entries 57, 160 and
161. -/
def Obligations.LinesAndExposure : Prop := ∀ s : State, s.powered = true →
  (∀ dt bay (k : CamPacket), bay < 12 → k.lane < 4 → k.slice < 5 → s.asDormant = false → s.isStale bay k = true →
    Completes (.cameraPacket dt bay k) s fun t =>
      t.get LANE_STALE_RESULT bay = min 0xFFFFFFFF (s.get LANE_STALE_RESULT bay + 1) ∧ t.bays = s.bays) ∧
  (∀ dt bay (k : CamPacket), bay < 12 → k.lane < 4 → k.slice < 5 → s.asDormant = false → s.isStale bay k = false →
    s.get MODE ≠ 5 → s.get BAY_STATE bay = 2 → s.laneCarries bay k.lane = true →
    (k.crcOk = false → Completes (.cameraPacket dt bay k) s fun t =>
      t.get LANE_CRC_ERR (4 * bay + k.lane) = min 0xFFFFFFFF (s.get LANE_CRC_ERR (4 * bay + k.lane) + 1)) ∧
    (k.crcOk = true → k.kind = .event ∨ k.kind = .other ∨ (k.kind = .stream ∧ 3 < k.streamId) →
      Completes (.cameraPacket dt bay k) s fun t =>
        t.get BAY_UNSUPPORTED_PKT bay = min 0xFFFFFFFF (s.get BAY_UNSUPPORTED_PKT bay + 1) ∧ t.bays = s.bays) ∧
    (k.crcOk = true → k.kind = .stream → k.streamId ≤ 3 → s.subType bay k.streamId = none →
      Completes (.cameraPacket dt bay k) s fun t =>
        t.get PKT_TYPE_ERR bay = min 0xFFFFFFFF (s.get PKT_TYPE_ERR bay + 1) ∧ t.bays = s.bays) ∧
    (∀ ty, k.crcOk = true → k.kind = .stream → k.streamId ≤ 3 → s.subType bay k.streamId = some ty →
      (∀ n, s.tagLine bay k.tag = some n → (s.bay bay).await.all (fun l => l.num != n) = true →
        Completes (.cameraPacket dt bay k) s fun t =>
          t.get TAG_MISMATCH bay = min 0xFFFFFFFF (s.get TAG_MISMATCH bay + 1) ∧ t.bays = s.bays) ∧
      (∀ n l, s.tagLine bay k.tag = some n → (∀ a ∈ (s.bay bay).await, n ≤ a.num) →
        (s.bay bay).await.find? (fun l => l.num == n) = some l → l.replaced = false →
        samePixels k.format (s.get INTAKE_TYPE (4 * bay + k.streamId)) = true →
        let room := (s.get INTAKE_WIDTH bay - k.firstPixel) * ty.planes
        let xs := (k.samples.map (· % 2 ^ ty.bits)).take room
        Completes (.cameraPacket dt bay k) s fun t => (t.bay bay).ferry = (s.bay bay).ferry ++
          tilePackets bay k.streamId (s.get INTAKE_TYPE (4 * bay + k.streamId)) ty n
            (((s.lineAt n).map Line.egen).getD (s.get EXP_GENERATION)) false
            (k.last || (room ≠ 0 && xs.length == room)) (xs.length + 1) k.firstPixel xs))) ∧
  (∀ dt bay line l, bay < 12 → (s.bay bay).await.find? (fun l => l.num == line) = some l →
    ((s.advance dt).isLate bay l = true → Completes (.lineLate dt bay line) s fun t =>
      t.get LINES_LATE bay = min 0xFFFFFFFF (s.get LINES_LATE bay + 1) ∧
      t.get LINES_SUBSTITUTED bay = min 0xFFFFFFFF (s.get LINES_SUBSTITUTED bay + 1) ∧
      ∀ a ∈ (t.bay bay).await, a.num = line → a.replaced = true) ∧
    ((s.advance dt).isLate bay l = false → Completes (.lineLate dt bay line) s fun t => t.bays = s.bays)) ∧
  (∀ dt via, s.get MODE ≠ 4 →
    (s.withinBudget s.stagedSet = true → Completes (.expCommit dt via) s fun t =>
      t.get EXP_PENDING = 1 ∧ t.get EXP_APPLY_STRIP = s.applyStrip % 2 ^ EXP_APPLY_STRIP.ty.bits ∧
      t.trig.waiting = some (s.stagedSet, s.applyStrip) ∧ t.abort = 0) ∧
    (s.withinBudget s.stagedSet = false → Completes (.expCommit dt via) s fun t => t.trig = s.trig ∧ t.abort = 0x06040043)) ∧
  (∀ dt via, s.get MODE = 4 → Completes (.expCommit dt via) s fun t => t.trig = s.trig ∧ t.abort = abortMode)

/-- R141, R153, R154, R160, R161, R164, R166, R196 (TILE_PACKET, EASEL_LINE_DONE, EASEL_LOAD_WINDOW, EASEL_CTX_COMMIT,
EASEL_PAL_COMMIT): a tile packet leaves the way; a good one for context A of a running easel that is at work puts its line in
the context's store, and one whose CRC is wrong has its line replaced, unless it was before; a line done counts the clocks of
its context, and output of an easel out of use is tallied as stale; a load window of 100 ms gives the demand of its lines; a
staged bank or palette that passes its checks waits for its strip, while one waits another is BUSY, as is a palette whose job
has its own, and a bank that fails a check answers its code and stage. Where the spec leaves a choice here, the model's is named in log entries 59, 60, 165, 166
and 167. -/
def Obligations.EaselLinesAndBanks : Prop := ∀ s : State, s.powered = true →
  (∀ dt easel ctx sent rest (packet : List Nat), easel < 6 → ctx < 2 → s.get MODE ≠ 0 → s.get MODE ≠ 5 → s.get EASEL_INLINE_BAY easel < 2 →
    let b := s.bayOf easel ctx
    let p := packet.map (· % 256)
    let n := s.fullLine (natAt sent 4 4)
    (s.bay b).ferry = sent :: rest →
    (s.get EASEL_STATE easel ≠ 1 → Completes (.tilePacket dt easel ctx packet) s fun t => (t.bay b).ferry = rest) ∧
    (s.get EASEL_STATE easel = 1 → (s.easel easel).resumeLine ≤ n → ctx = 0 →
      20 ≤ p.length → crc32c (p.take (p.length - 4)) = leNat (p.drop (p.length - 4)) →
      (s.easel easel).running.isSome = true → 0 < (s.easel easel).ctxs.length →
      Completes (.tilePacket dt easel ctx packet) s fun t => (t.bay b).ferry = rest ∧
        ∃ l ∈ (t.ctx b).store, l.num = s.fullLine (natAt p 4 4)) ∧
    (s.get EASEL_STATE easel = 1 → (s.easel easel).resumeLine ≤ n → ctx = 0 ∨ (s.easel easel).dropped.contains (n / 256) = false →
      crc32c (p.take (p.length - 4)) ≠ leNat (p.drop (p.length - 4)) → bit (natAt sent 10 1) 1 = false → s.tileReplaced b n = false →
      Completes (.tilePacket dt easel ctx packet) s fun t =>
        t.get LINES_SUBSTITUTED b = min 0xFFFFFFFF (s.get LINES_SUBSTITUTED b + 1))) ∧
  (∀ dt easel phys ack, easel < 6 → phys < 7 → s.get MODE ≠ 0 → s.get MODE ≠ 5 →
    (∀ c l, s.get EASEL_PHYS easel = phys → s.get EASEL_PHYS_STATE phys = 0 → (s.easel easel).running = some (c, l) →
      Completes (.easelLineDone dt easel phys ack) s fun t =>
        t.get EASEL_BUSY_CLOCKS = (s.get EASEL_BUSY_CLOCKS + s.lineClocks (s.bayOf easel c)) % 2 ^ 64) ∧
    (s.get EASEL_PHYS easel ≠ phys ∨ s.get EASEL_PHYS_STATE phys ≠ 0 →
      Completes (.easelLineDone dt easel phys ack) s fun t =>
        t.get EASEL_STALE_RESULT = min 0xFFFFFFFF (s.get EASEL_STALE_RESULT + 1) ∧ t.get ISLAND_STATE (26 + phys) = 5 ∧
        t.easels = s.easels ∧ t.segs = s.segs)) ∧
  (∀ dt easel, easel < 6 → (s.easel easel).winStart + 100000000 ≤ s.now + dt →
    Completes (.easelLoadWindow dt easel) s fun t => t.get EASEL_LOAD_PERMILLE easel =
      min 65535 (s.easelDemand easel * (s.trig.lines.filter (fun l => decide ((s.easel easel).winStart ≤ l.at_))).length * 1000 /
        (s.now + dt - (s.easel easel).winStart))) ∧
  (∀ dt via easel ctx, easel < 6 → ctx < 2 →
    let i := 2 * easel + ctx
    let h := s.shape (s.bayOf easel ctx)
    (s.get EASEL_CTX_PENDING i = 1 → Completes (.easelCtxCommit dt via easel ctx) s fun t =>
      t.get EASEL_COMMIT_RESULT i = 2 ∧ t.easels = s.easels ∧ t.abort = abortBusy) ∧
    (s.get EASEL_CTX_PENDING i ≠ 1 → ((s.stagedBank i).check h.1 h.2).1 ≠ 0 →
      Completes (.easelCtxCommit dt via easel ctx) s fun t =>
        t.get EASEL_COMMIT_RESULT i = ((s.stagedBank i).check h.1 h.2).1 % 256 ∧
        t.get EASEL_COMMIT_STAGE i = ((s.stagedBank i).check h.1 h.2).2 % 256 ∧ t.easels = s.easels ∧ t.abort = 0x06040043) ∧
    (s.get EASEL_CTX_PENDING i ≠ 1 → ((s.stagedBank i).check h.1 h.2).1 = 0 →
      s.breaksGeometry easel ctx (s.stagedBank i) = false → Completes (.easelCtxCommit dt via easel ctx) s fun t =>
        t.get EASEL_COMMIT_RESULT i = 1 ∧ t.get EASEL_CTX_PENDING i = 1 ∧
        t.get EASEL_CTX_APPLY_STRIP i = s.applyStrip % 2 ^ EASEL_CTX_APPLY_STRIP.ty.bits ∧ t.abort = 0)) ∧
  (∀ dt via easel ctx, easel < 6 → ctx < 2 →
    let i := 2 * easel + ctx
    (s.get EASEL_PAL_PENDING i = 1 ∨ s.jobPalette (s.bayOf easel ctx) = true → Completes (.easelPalCommit dt via easel ctx) s fun t =>
      t.get EASEL_COMMIT_RESULT i = 2 ∧ t.easels = s.easels ∧ t.abort = abortBusy) ∧
    (s.get EASEL_PAL_PENDING i ≠ 1 → s.jobPalette (s.bayOf easel ctx) = false →
      Completes (.easelPalCommit dt via easel ctx) s fun t =>
        t.get EASEL_COMMIT_RESULT i = 1 ∧ t.get EASEL_PAL_PENDING i = 1 ∧
        t.get EASEL_CTX_APPLY_STRIP i = s.applyStrip % 2 ^ EASEL_CTX_APPLY_STRIP.ty.bits ∧ t.abort = 0))

/-- R192 to R195, R594, R628 (EASEL_HEARTBEAT_SEND, EASEL_HB_DEADLINE, EASEL_SELFTEST, EASEL_SELFTEST_DONE, SPARE_EASEL_CHECK,
SPARE_EASEL_CHECK_DONE): a token enters a running easel 5 ms after the last and is due 6.25 ms later; a deadline that passes
is tallied, and the third in a row declares the physical easel dead: its epoch moves on, and the lowest spare takes the
logical easel over, or it goes DOWN; a quarantined easel is self-tested in DORMANT and READY and becomes a spare when it
passes, but in READY behind a closed isolation wrapper the test fails at once, which is tallied; an easel in another state is
refused; outside DORMANT the spare is checked every ten minutes and, still a spare, goes to QUARANTINE, its clock stopped, when
it fails. Where the spec leaves a
choice here, the model's is named in log entries 62 and 181. -/
def Obligations.EaselHeartbeatsAndSpare : Prop := ∀ s : State, s.powered = true →
  (∀ dt k, k < 6 → k < s.easels.length → s.get MODE ≠ 0 → s.get MODE ≠ 5 → s.get EASEL_STATE k = 1 →
    (s.easel k).sentAt + 5000000 ≤ s.now + dt → Completes (.easelHeartbeatSend dt) s fun t =>
      (t.easel k).tokens = (s.easel k).tokens ++ [s.now + dt + 6250000] ∧ (t.easel k).sentAt = s.now + dt) ∧
  (∀ dt k d rest, k < 6 → (s.easel k).tokens = d :: rest → d ≤ s.now + dt → s.get MODE ≠ 0 → s.get MODE ≠ 5 →
    let p := s.get EASEL_PHYS k
    ((s.easel k).misses < 2 → Completes (.easelHbDeadline dt k) s fun t =>
      t.get EASEL_HB_MISS k = min 0xFFFFFFFF (s.get EASEL_HB_MISS k + 1) ∧ (t.easel k).tokens = rest ∧
      (t.easel k).misses = (s.easel k).misses + 1) ∧
    (2 ≤ (s.easel k).misses → p < 7 → s.get EASEL_PHYS_STATE p = 0 →
      (∀ q, s.spareEasel = some q → Completes (.easelHbDeadline dt k) s fun t =>
        t.get EASEL_HB_MISS k = min 0xFFFFFFFF (s.get EASEL_HB_MISS k + 1) ∧ t.get EASEL_STATE k = 2 ∧
        t.get EASEL_PHYS k = q ∧ t.get EASEL_PHYS_STATE q = 0 ∧
        t.get EASEL_EPOCH p = (if s.get EASEL_EPOCH p = 0xFFFF then 0xFFFF else (s.get EASEL_EPOCH p + 1) % 65536)) ∧
      (s.spareEasel = none → Completes (.easelHbDeadline dt k) s fun t => t.get EASEL_STATE k = 3 ∧ t.get EASEL_PHYS k = p))) ∧
  (∀ dt via p, p < 7 →
    (s.get MODE = 0 ∨ s.get MODE = 1 → s.get EASEL_PHYS_STATE p = 2 → s.bench.easelTest = none →
      s.asDormant = true ∨ s.wrapperClosed (26 + p) = false → Completes (.easelSelftest dt via p) s fun t => t.get EASEL_SELFTEST_RESULT = 1 ∧
        t.bench.easelTest = some (p, s.now + dt) ∧ t.abort = 0) ∧
    (s.get MODE = 1 → s.get EASEL_PHYS_STATE p = 2 → s.bench.easelTest = none → s.wrapperClosed (26 + p) = true →
      Completes (.easelSelftest dt via p) s fun t => t.get EASEL_SELFTEST_RESULT = 3 ∧ t.bench.easelTest = none ∧ t.abort = 0 ∧
        t.get ISO_ERROR_RESPONSES = min 0xFFFFFFFF (s.get ISO_ERROR_RESPONSES + 1)) ∧
    (s.get EASEL_PHYS_STATE p ≠ 2 → Completes (.easelSelftest dt via p) s fun t => t.bench = s.bench ∧ t.abort = abortMode)) ∧
  (∀ dt p t0, p < 7 → s.bench.easelTest = some (p, t0) →
    (Completes (.easelSelftestDone dt true) s fun t => t.get EASEL_SELFTEST_RESULT = 2 ∧ t.bench.easelTest = none ∧
      t.get EASEL_PHYS_STATE p = (if s.get EASEL_PHYS_STATE p = 3 then 3 else 1)) ∧
    (Completes (.easelSelftestDone dt false) s fun t => t.get EASEL_SELFTEST_RESULT = 3 ∧ t.bench.easelTest = none)) ∧
  (∀ dt p, s.asDormant = false → s.spareEasel = some p → s.bench.easelCheck = none →
    s.bench.easelAt + 600000000000 ≤ s.now + dt →
    Completes (.spareEaselCheck dt) s fun t => t.bench.easelCheck = some (p, s.now + dt)) ∧
  (∀ dt p t0, p < 7 → s.bench.easelCheck = some (p, t0) →
    (Completes (.spareEaselCheckDone dt true) s fun t => t.bench.easelCheck = none ∧
      t.get EASEL_PHYS_STATE p = s.get EASEL_PHYS_STATE p) ∧
    (s.get EASEL_PHYS_STATE p = 1 → Completes (.spareEaselCheckDone dt false) s fun t => t.bench.easelCheck = none ∧
      t.get EASEL_PHYS_STATE p = 2 ∧ t.get ISLAND_STATE (26 + p) = 5) ∧
    (s.get EASEL_PHYS_STATE p ≠ 1 → Completes (.spareEaselCheckDone dt false) s fun t => t.bench.easelCheck = none ∧
      t.get EASEL_PHYS_STATE p = s.get EASEL_PHYS_STATE p))

/-- R206, R209, R210, R214, R230 (JOINER_SEGMENT, COMPLETION_NOTE, SEAM_FORCED_COMPLETE, SEAM_HOLDBACK_END, OVERLAP_FRAME): in
INSPECT, MAKEREADY, READY and CALIBRATE the segment at the head of its queue leaves it for the joiner; its line becomes
accounted in its strip, its pixels are written with the strip's gains, and the strip is complete once every line of it is
accounted; one whose stamp is not its canvas line's is tallied as blind; one of a strip completed by force is discarded and
tallied, and one that meets a full write queue overflows; in DORMANT and HOLD, and where context B is held, the segment
waits. Outside HOLD a note is taken from its queue: its line becomes accounted with the note's cause, and no view changes
where its lines' banks name none; in HOLD it waits. The completion timeout completes each strip it is over for by force and
tallies it, but not in HOLD; when the queue is back at 50 % the view holds back no more, and the time it did is added. A
partner's overlap line that fits the view joins where the own line is there, waits where the strip is not open yet, and is
discarded and tallied where its strip was completed by force; one that does not fit is tallied as missing and changes no
view. Where the spec leaves a choice here, the model's is named in log entries 39, 130 and 192. -/
def Obligations.SegmentsAndCompletion : Prop := ∀ s : State, s.powered = true →
  (∀ dt bay fill g rest, bay < 12 → s.segs.getD bay [] = g :: rest → g.view < 4 → g.bay = bay →
    let c := g.line - s.stagger bay
    let waits := s.get MODE = 0 ∨ s.get MODE = 5 ∨ (g.ctxB = true ∧ (s.easel (bay / 2)).heldB = true)
    (waits → Completes (.joinerSegment dt bay fill) s fun t => t.segs = s.segs ∧ t.views = s.views ∧ t.dram = s.dram) ∧
    (¬waits → 100 ≤ fill → g.ctxB = false → Completes (.joinerSegment dt bay fill) s fun t => t.segs = s.segs.set bay rest ∧
      t.get SEAM_QUEUE_OVERFLOW g.view = min 0xFFFFFFFF (s.get SEAM_QUEUE_OVERFLOW g.view + 1)) ∧
    (¬waits → fill < 100 ∨ g.ctxB = true → s.viewState g.view = 1 → s.stagger bay ≤ g.line →
      ∀ x, s.strip g.view (c / 256) = some x →
        (x.complete = true → Completes (.joinerSegment dt bay fill) s fun t => t.segs = s.segs.set bay rest ∧ t.dram = s.dram ∧
          t.get SEAM_LATE_DISCARD g.view =
            if x.forced = true then min 0xFFFFFFFF (s.get SEAM_LATE_DISCARD g.view + 1) else s.get SEAM_LATE_DISCARD g.view) ∧
        (x.complete = false → bay < x.acc.length → bit (x.acc.getD bay 0) (c % 256) = false →
          Completes (.joinerSegment dt bay fill) s fun t => t.segs = s.segs.set bay rest ∧
            (x.released = false → ∃ y, t.strip g.view (c / 256) = some y ∧ bit (y.acc.getD bay 0) (c % 256) = true ∧
              (s.accounted g.view { x with acc := modifyAt x.acc bay (fun m => setBit m (c % 256) true) } = true →
                y.complete = true)) ∧
            (s.seams g.view = [] → s.get VIEW_CASCADE g.view = 0 →
              (∃ cam ∈ s.cams g.view, ∃ j < 256, (cam.bay, j) ≠ (bay, c % 256) ∧ bit (x.acc.getD cam.bay 0) j = false) →
              t.dram = ((s.advance dt).writeSeg g c (x.gains.getD bay (0x4000, 0x4000))).dram) ∧
            t.get SEAM_STAMP_BLIND_LINES g.view =
              if s.stampsDiffer g c = true then min 0xFFFFFFFF (s.get SEAM_STAMP_BLIND_LINES g.view + 1)
              else s.get SEAM_STAMP_BLIND_LINES g.view))) ∧
  (∀ dt bay n rest, bay < 12 → s.notes.getD bay [] = n :: rest →
    let c := n.first - s.stagger bay
    (s.get MODE = 5 → Completes (.completionNote dt bay) s fun t => t.notes = s.notes ∧ t.views = s.views) ∧
    (s.get MODE ≠ 5 → Completes (.completionNote dt bay) s fun t => t.notes = s.notes.set bay rest ∧
      ((∀ i < n.last + 1, n.first ≤ i → ((s.ctx bay).bankAt i).view = none) → t.views = s.views) ∧
      (∀ v x, n.last = n.first → ((s.ctx bay).bankAt n.first).view = some v → s.stagger bay ≤ n.first →
        s.strip v (c / 256) = some x → x.complete = false → x.released = false → bay < x.acc.length →
        bit (x.acc.getD bay 0) (c % 256) = false → ∃ y, t.strip v (c / 256) = some y ∧ bit (y.acc.getD bay 0) (c % 256) = true ∧ (bay, c % 256, n.cause) ∈ y.bad))) ∧
  (∀ dt view, view < 4 →
    let due := (s.view view).strips.filter (fun x => match x.forceFrom with
      | some f => !x.complete && decide (f + s.get SEAM_COMPLETE_TIMEOUT_MS view * 1000000 ≤ s.now + dt)
      | none => false)
    (s.get MODE ≠ 5 → Completes (.seamForcedComplete dt view) s fun t =>
      t.get SEAM_FORCED_COMPLETE view = min 0xFFFFFFFF (s.get SEAM_FORCED_COMPLETE view + due.length) ∧
      ∀ x ∈ due, ∃ y, t.strip view x.num = some y ∧ y.complete = true ∧ y.forced = true) ∧
    (s.get MODE = 5 → Completes (.seamForcedComplete dt view) s fun t => t.views = s.views)) ∧
  (∀ dt view, view < 4 →
    ((s.view view).holding = true → Completes (.seamHoldbackEnd dt view) s fun t =>
      (t.view view).holding = false ∧
      t.get SEAM_HOLDBACK_NS view = (s.get SEAM_HOLDBACK_NS view + (s.now + dt - (s.view view).heldAt)) % 2 ^ 64) ∧
    ((s.view view).holding = false → Completes (.seamHoldbackEnd dt view) s fun t => t.views = s.views ∧ t.easels = s.easels)) ∧
  (∀ dt p seq, s.get CASCADE_ENABLE = 1 → s.linkCarries = true → s.cascade.rxSeq = some seq → seq < 65536 → p.length < 65536 →
    (∀ b ∈ p, b < 256) →
    let c := natAt p 0 8
    let v := natAt p 8 1
    let fits := v < 4 ∧ s.get VIEW_CASCADE v ≠ 0 ∧ natAt p 9 1 / 2 % 8 = s.planeBits v / 2 ∧ natAt p 10 2 = s.get VIEW_CASCADE_OVERLAP v
    (s.get MODE = 0 ∨ s.get MODE = 5 → Completes (.overlapFrame dt (linkFrame 1 seq p)) s fun t => t.views = s.views ∧
      t.get CASCADE_OVERLAP_MISSING (v % 4) = s.get CASCADE_OVERLAP_MISSING (v % 4)) ∧
    (s.get MODE ≠ 0 → s.get MODE ≠ 5 →
      (fits → v < s.views.length → s.strip v (c / 256) = none → Completes (.overlapFrame dt (linkFrame 1 seq p)) s fun t =>
        (t.view v).overlap = (s.view v).overlap ++ [(c, p)]) ∧
      (fits → ∀ x cam, s.strip v (c / 256) = some x → s.edgeCam v = some cam →
        (x.complete = true → Completes (.overlapFrame dt (linkFrame 1 seq p)) s fun t => t.views = s.views ∧
          t.get SEAM_LATE_DISCARD v =
            if x.forced = true then min 0xFFFFFFFF (s.get SEAM_LATE_DISCARD v + 1) else s.get SEAM_LATE_DISCARD v) ∧
        (x.complete = false → bit (x.acc.getD cam.bay 0) (c % 256) = false →
          Completes (.overlapFrame dt (linkFrame 1 seq p)) s fun t => (t.view v).overlap = (s.view v).overlap ++ [(c, p)]) ∧
        (x.complete = false → bit (x.acc.getD cam.bay 0) (c % 256) = true →
          Completes (.overlapFrame dt (linkFrame 1 seq p)) s fun t =>
            x.released = false → ∃ y, t.strip v (c / 256) = some y ∧ bit y.partner (c % 256) = true)) ∧
      (¬fits → Completes (.overlapFrame dt (linkFrame 1 seq p)) s fun t => t.views = s.views ∧
        t.get CASCADE_OVERLAP_MISSING (v % 4) = min 0xFFFFFFFF (s.get CASCADE_OVERLAP_MISSING (v % 4) + 1))))

/-- R240 to R242, R246 to R250, R261, R267 (MARK_SEARCH_DONE, REG_ROW_DONE, REG_LEARN, REG_UP_SAVE): on a module that
registers by marks and is no SECONDARY, in MAKEREADY and INSPECT, a repeat without a mark template, or of known phase whose
mark the search of the canvas does not find, is a miss, tallied, and at the limit of misses in a row the phase is unknown and
the repeat that ran with it is unregistered; a mark found while the phase is unknown gives the start to acquire, and one found
around its predicted line, once the canvas is complete down to the template's last line there, gives the actual start and the
error against the start fixed for its repeat; a mark before its repeat's first line is not searched; the next anchor row of the oldest unfinished field, once its lines are there, joins its field
measured and regularised, a failed one starting a capture and a good one ending it; a search of another repeat or a row
other than the next changes nothing; learning is asked for in MAKEREADY only; learnt underpaintings are saved in READY and
MAKEREADY while no view learns. Where the spec leaves a choice here, the model's is named in log entries 25, 37, 174 and
175. -/
def Obligations.MarksRowsAndLearning : Prop := ∀ s : State, s.powered = true →
  (∀ dt, s.get REG_METHOD = 1 → s.isSecondary = false → s.get MODE = 2 ∨ s.get MODE = 3 → ∀ r rest, s.unsearched = r :: rest →
    let u := s.advance dt
    (∀ n, n ≠ r.number → Completes (.markSearchDone dt n) s fun t =>
      t.get REG_MARK_MISS = s.get REG_MARK_MISS ∧ t.web.sched = s.web.sched) ∧
    (s.markTemplate = none → Completes (.markSearchDone dt r.number) s fun t =>
      t.get REG_MARK_MISS = min 0xFFFFFFFF (s.get REG_MARK_MISS + 1) ∧ t.web.sched.misses = s.web.sched.misses + 1 ∧
      (s.get REG_MARK_MISS_MAX ≤ s.web.sched.misses + 1 → s.get REG_PHASE_STATE ≠ 0 →
        t.get REG_PHASE_STATE = 0 ∧ t.web.sched.actual = none ∧
        ∀ q, (s.reps.filter (fun x => x.phase.isSome)).getLast? = some q → ∀ y ∈ t.reps, y.key = q.key → y.unregistered = true)) ∧
    (∀ p, s.markTemplate = some p → s.get REG_PHASE_STATE = 0 ∨ r.phase = none →
      let lo := max r.first s.web.sched.scan
      let end_ := max lo (s.completeTo lo (r.last.getD s.lastLine + templateTail p) - templateTail p)
      (∀ n, u.markSearch p lo end_ = some n → Completes (.markSearchDone dt r.number) s fun t =>
        t.web.sched.acquire = some (u.markStart p n) ∧ t.web.sched.misses = 0) ∧
      (u.markSearch p lo end_ = none → Completes (.markSearchDone dt r.number) s fun t =>
        t.web.sched.acquire = s.web.sched.acquire ∧
        (s.get REG_PHASE_STATE = 0 → t.web.sched.scan = end_) ∧
        t.get REG_MARK_MISS = if r.last.any (fun l => decide (l < end_)) then min 0xFFFFFFFF (s.get REG_MARK_MISS + 1)
          else s.get REG_MARK_MISS)) ∧
    (∀ p, s.markTemplate = some p → s.get REG_PHASE_STATE ≠ 0 → r.phase ≠ none →
      let lo := (r.markLine p - natAt p 10 2).toNat
      let hi := (r.markLine p + natAt p 10 2).toNat
      let last := (hi + templateTail p) / 256
      let due := ((s.strip (s.get REG_MARK_VIEW) last).map CStrip.complete).getD (decide (256 * last + 255 < s.get LINE_NUMBER)) = true
      (r.markLine p < r.first → Completes (.markSearchDone dt r.number) s fun t =>
        t.web.sched = { s.web.sched with searched := some r.key } ∧ t.get REG_MARK_MISS = s.get REG_MARK_MISS) ∧
      ((r.first : Int) ≤ r.markLine p → ¬due → Completes (.markSearchDone dt r.number) s fun t =>
        t.web.sched = s.web.sched ∧ t.get REG_MARK_MISS = s.get REG_MARK_MISS) ∧
      ((r.first : Int) ≤ r.markLine p → due → u.markSearch p lo (hi + 1) = none →
        Completes (.markSearchDone dt r.number) s fun t =>
          t.get REG_MARK_MISS = min 0xFFFFFFFF (s.get REG_MARK_MISS + 1) ∧ t.web.sched.misses = s.web.sched.misses + 1) ∧
      ((r.first : Int) ≤ r.markLine p → due → ∀ n, u.markSearch p lo (hi + 1) = some n →
        Completes (.markSearchDone dt r.number) s fun t =>
          t.get REG_MARK_ERR_COUNTS = ofSigned 32 (countDiff (u.markStart p n) (r.fixed.getD r.start)) ∧
          t.web.sched.actual = some (u.markStart p n) ∧ t.web.sched.counted = r.number ∧ t.web.sched.misses = 0))) ∧
  (∀ dt view f r, view < 4 → s.get MODE ≠ 0 → s.get MODE ≠ 5 →
    (s.reg view).fields.find? (fun f => !s.fieldDone f) = some f → s.repOf f.rep = some r →
    s.rowDue view r (f.first + f.rows.length) = true →
    let out := (s.advance dt).rowRegular view f r
    Completes (.regRowDone dt view (f.first + f.rows.length)) s fun t =>
      (t.reg view).fields.map (fun h => (h.rep, h.rows)) =
        (s.reg view).fields.map (fun h => (h.rep, if h.rep = f.rep then f.rows ++ [out] else h.rows)) ∧
      (t.reg view).capture = out.failed ∧
      t.get REG_CAPTURES view = if out.failed = true ∧ (s.reg view).capture = false then
        min 0xFFFFFFFF (s.get REG_CAPTURES view + 1) else s.get REG_CAPTURES view) ∧
  (∀ dt view f row, view < 4 → (s.reg view).fields.find? (fun f => !s.fieldDone f) = some f → row ≠ f.first + f.rows.length →
    Completes (.regRowDone dt view row) s fun t => t.regs = s.regs) ∧
  (∀ dt via, s.get MODE = 2 → Completes (.regLearn dt via) s fun t =>
    t.abort = 0 ∧ ∀ v ∈ s.jobViews, v < s.regs.length → (t.reg v).wantLearn = true) ∧
  (∀ dt via, s.get MODE ≠ 2 → Completes (.regLearn dt via) s fun t => t.abort = abortMode ∧ t.regs = s.regs) ∧
  (∀ dt via, s.get MODE = 1 ∨ s.get MODE = 2 →
    (s.learningAny = false → Completes (.regUpSave dt via) s fun t => t.abort = 0 ∧
      ∀ v ∈ s.jobViews, s.get REG_LEARN_STATE v = 3 → s.get REG_UP_PRESENT v = 1 →
        t.nv.saved.look (s.get ACTIVE_SLOT * 4 + v) = some (s.upSection v)) ∧
    (s.learningAny = true → Completes (.regUpSave dt via) s fun t => t.abort = abortBusy ∧ t.nv = s.nv)) ∧
  (∀ dt via, s.get MODE ≠ 1 → s.get MODE ≠ 2 → Completes (.regUpSave dt via) s fun t => t.abort = abortMode ∧ t.nv = s.nv)

/-- R256, R274, R276, R306, R316 (TASK_ISSUE, FRAGMENT, TASK_END, TIDE_LOAD_WINDOW): outside DORMANT and HOLD the next released
strip of a view whose conditions hold is issued: one with lines of a repeat that may not be inspected is tallied for its view
as unregistered, and of one without a line in any repeat every task is skipped and counted; the first fragment or task end of
the task at the head of a tile's queue runs it; a fragment of it counts, and a task end in time, or of a task counted missed, counts the task, the fragments left and the
wait; either of a tile in QUARANTINE or RETIRED, or with an epoch that is not the tile's, is tallied as stale and counts
nothing else; a load window of 100 ms gives the busiest tile. Where the spec leaves a choice here, the model's is named in log
entry 72. -/
def Obligations.TasksOfTheFabric : Prop := ∀ s : State, s.powered = true → s.Sound → s.get MODE ≠ 0 → s.get MODE ≠ 5 →
  (∀ dt view x, view < 4 →
    let w := (s.advance dt).tilesWake
    (w.view view).strips.find? (fun x => x.released && x.analysis && !x.issued && !x.left_) = some x →
    w.canIssue view x = true →
    (Completes (.taskIssue dt view) s fun t => ∀ y ∈ (t.view view).strips, y.num = x.num → y.issued = true) ∧
    ((∃ i < 256, (w.repAt (256 * x.num + i)).isSome = true ∧ w.lineInspected view (256 * x.num + i) = false) →
      bit x.flags 3 = false → Completes (.taskIssue dt view) s fun t =>
        t.get REG_UNREG_STRIPS view = min 0xFFFFFFFF (s.get REG_UNREG_STRIPS view + 1)) ∧
    ((∀ i < 256, w.repAt (256 * x.num + i) = none) → Completes (.taskIssue dt view) s fun t =>
      t.get TILE_TASKS = (s.get TILE_TASKS +
        ((w.partsOf x.num).map (fun p => w.slicesOf (w.imageAt p.gen) view)).sum) % 2 ^ 64)) ∧
  (∀ dt phys epoch k, phys < 104 → s.tileStale phys epoch = false →
    let w := (s.advance dt).tilesWake
    w.servedBy phys = some k → ∀ h rest u g o, (w.tile k).queue = h :: rest → w.headRun k = (u, some (g, o)) →
      (h.sent < o.frags.length → Completes (.fragment dt ⟨phys, epoch⟩) s fun t =>
        t.get TILE_FRAGMENTS = (s.get TILE_FRAGMENTS + 1) % 2 ^ 64 ∧
        (t.tile k).queue = { h with sent := h.sent + 1, out := some o } :: rest) ∧
      (o.frags.length ≤ h.sent → Completes (.fragment dt ⟨phys, epoch⟩) s fun t =>
        t.get TILE_FRAGMENTS = s.get TILE_FRAGMENTS ∧ (t.tile k).queue = { h with out := some o } :: rest) ∧
      (∀ wait, h.counted = true ∨ (∀ d, w.tileDeadline h = some d → s.now + dt ≤ (w.tile k).clock + d) →
        Completes (.taskEnd dt ⟨phys, epoch⟩ wait) s fun t =>
          t.get TILE_TASKS = (s.get TILE_TASKS + 1) % 2 ^ 64 ∧
          t.get TILE_FRAGMENTS = (s.get TILE_FRAGMENTS + (o.frags.length - h.sent)) % 2 ^ 64 ∧
          t.get TILE_LOAD_WAIT_NS = (s.get TILE_LOAD_WAIT_NS + wait) % 2 ^ 64)) ∧
  (∀ dt phys epoch wait, phys < 104 → s.tileStale phys epoch = true →
    (Completes (.fragment dt ⟨phys, epoch⟩) s fun t =>
      t.get TILE_STALE_RESULT = min 0xFFFFFFFF (s.get TILE_STALE_RESULT + 1) ∧ t.get TILE_FRAGMENTS = s.get TILE_FRAGMENTS) ∧
    (Completes (.taskEnd dt ⟨phys, epoch⟩ wait) s fun t =>
      t.get TILE_STALE_RESULT = min 0xFFFFFFFF (s.get TILE_STALE_RESULT + 1) ∧ t.get TILE_TASKS = s.get TILE_TASKS)) ∧
  (∀ dt, s.tideWin + 100000000 ≤ s.now + dt → Completes (.tideLoadWindow dt) s fun t =>
    t.get TIDE_LOAD_PERMILLE = min 65535 (s.tiles.foldl (fun m x => max m x.clocks) 0 * 625 / (s.now + dt - s.tideWin)) ∧
    t.tideWin = s.now + dt ∧ ∀ x ∈ t.tiles, x.clocks = 0)

/-- R307 to R311 (TIDE_COMMIT): a commit while one waits or a job loads is BUSY; an image that fails its check answers the entry;
one that passes waits in MAKEREADY, INSPECT and HOLD, and in DORMANT, READY and CALIBRATE the banks change places at once and
the generation moves on. Where the spec leaves a choice here, the model's is named in log entries 33 and 74. -/
def Obligations.TideCommits : Prop := ∀ s : State, s.powered = true → ∀ dt via,
  let im := tideImage (s.blob TIDE_IMAGE)
  (s.get TIDE_PENDING = 1 ∨ s.get SWITCH_STATE = 1 ∨ s.get SWITCH_STATE = 2 ∨ s.get SWITCH_STATE = 3 →
    Completes (.tideCommit dt via) s fun t => t.get TIDE_RESULT = 2 ∧ t.tide = s.tide ∧ t.tideNext = s.tideNext ∧ t.abort = abortBusy) ∧
  (s.get TIDE_PENDING ≠ 1 → s.get SWITCH_STATE ≠ 1 → s.get SWITCH_STATE ≠ 2 → s.get SWITCH_STATE ≠ 3 →
    (∀ e, e < 65536 → tideCheck im = some e → Completes (.tideCommit dt via) s fun t =>
      t.get TIDE_RESULT = 3 ∧ t.get TIDE_ERR_ENTRY = e ∧ t.tide = s.tide ∧ t.tideNext = s.tideNext ∧ t.abort = 0x06040043) ∧
    (tideCheck im = none → s.tideLimits im = 0 →
      (s.get MODE = 2 ∨ s.get MODE = 3 ∨ s.get MODE = 5 → Completes (.tideCommit dt via) s fun t =>
        t.get TIDE_RESULT = 1 ∧ t.get TIDE_PENDING = 1 ∧ t.tideNext = some im ∧ t.tide = s.tide ∧ t.abort = 0) ∧
      (s.get MODE = 0 ∨ s.get MODE = 1 ∨ s.get MODE = 4 → Completes (.tideCommit dt via) s fun t =>
        t.get TIDE_RESULT = 0 ∧ t.get TIDE_GENERATION = (s.get TIDE_GENERATION + 1) % 256 ∧
        t.get TIDE_BANK_ACTIVE = 1 - s.get TIDE_BANK_ACTIVE ∧ t.activeImage = im ∧ t.abort = 0)))

/-- R313 to R318, R594, R628 (TILE_DEADLINE, TILE_HEARTBEAT_TASK, TILE_SELFTEST, TILE_SELFTEST_DONE, SPARE_TILE_CHECK,
SPARE_TILE_CHECK_DONE): a deadline that passes is tallied, and the third in a row declares the physical tile dead: its epoch
moves on and the lowest spare takes the logical tile over, or it goes DOWN; a running tile without a task for 5 ms gets a
heartbeat task; a quarantined tile is self-tested in DORMANT and READY and becomes a spare when it passes, but in READY behind
a closed isolation wrapper the test fails at once, which is tallied; a tile in another state is refused; outside DORMANT each
spare is checked every ten minutes and goes to QUARANTINE when it fails, and a group that this leaves without a tile of use loses its
power; a unit retired during its self-test stays so. Where the spec leaves a choice here, the model's is named in log entries 72
and 181. -/
def Obligations.TileHeartbeatsAndSpares : Prop := ∀ s : State, s.powered = true →
  (∀ dt k, k < 96 → s.get MODE ≠ 0 → s.get MODE ≠ 5 →
    let w := (s.advance dt).tilesWake
    let p := s.get TILE_PHYS k
    ∀ i d, (w.tile k).queue.findIdx? (fun t => !t.counted) = some i → p < 104 → s.get TILE_PHYS_STATE p = 0 →
      (((w.tile k).queue[i]?).bind w.tileDeadline) = some d → (w.tile k).clock + d < s.now + dt →
      ((w.tile k).misses < 2 → Completes (.tileDeadline dt k) s fun t =>
        t.get TILE_HB_MISS = min 0xFFFFFFFF (s.get TILE_HB_MISS + 1) ∧ t.get TILE_PHYS k = p ∧ t.get TILE_PHYS_STATE p = 0) ∧
      (2 ≤ (w.tile k).misses → ∀ q, s.spareTile = some q → Completes (.tileDeadline dt k) s fun t =>
        t.get TILE_HB_MISS = min 0xFFFFFFFF (s.get TILE_HB_MISS + 1) ∧ t.get TILE_LOG_STATE k = 2 ∧
        t.get TILE_PHYS k = q ∧ t.get TILE_PHYS_STATE q = 0 ∧
        t.get TILE_EPOCH p = (if s.get TILE_EPOCH p = 0xFFFF then 0xFFFF else (s.get TILE_EPOCH p + 1) % 65536)) ∧
      (2 ≤ (w.tile k).misses → s.spareTile = none → Completes (.tileDeadline dt k) s fun t =>
        t.get TILE_LOG_STATE k = 3 ∧ t.get TILE_PHYS k = p)) ∧
  (∀ dt k, k < 96 → k < s.tiles.length → s.get MODE = 2 ∨ s.get MODE = 3 →
    let w := (s.advance dt).tilesWake
    w.tileState k = 1 → (w.tile k).lastTask + 5000000 ≤ s.now + dt → (w.tile k).queue.length < 4 →
    Completes (.tileHeartbeatTask dt k) s fun t => ∃ h, (t.tile k).queue = (w.tile k).queue ++ [h] ∧ h.heartbeat = true ∧
      (t.tile k).lastTask = s.now + dt) ∧
  (∀ dt via p, p < 104 →
    (s.get MODE = 0 ∨ s.get MODE = 1 → s.get TILE_PHYS_STATE p = 2 → s.bench.tileTest = none →
      s.asDormant = true ∨ s.wrapperClosed (p / 4) = false → Completes (.tileSelftest dt via p) s fun t => t.get TILE_SELFTEST_RESULT = 1 ∧
        t.bench.tileTest = some (p, s.now + dt) ∧ t.abort = 0) ∧
    (s.get MODE = 1 → s.get TILE_PHYS_STATE p = 2 → s.bench.tileTest = none → s.wrapperClosed (p / 4) = true →
      Completes (.tileSelftest dt via p) s fun t => t.get TILE_SELFTEST_RESULT = 3 ∧ t.bench.tileTest = none ∧ t.abort = 0 ∧
        t.get ISO_ERROR_RESPONSES = min 0xFFFFFFFF (s.get ISO_ERROR_RESPONSES + 1)) ∧
    (s.get TILE_PHYS_STATE p ≠ 2 → Completes (.tileSelftest dt via p) s fun t => t.bench = s.bench ∧ t.abort = abortMode)) ∧
  (∀ dt p t0, p < 104 → s.bench.tileTest = some (p, t0) →
    (Completes (.tileSelftestDone dt true) s fun t => t.get TILE_SELFTEST_RESULT = 2 ∧ t.bench.tileTest = none ∧
      t.get TILE_PHYS_STATE p = (if s.get TILE_PHYS_STATE p = 3 then 3 else 1)) ∧
    (Completes (.tileSelftestDone dt false) s fun t => t.get TILE_SELFTEST_RESULT = 3 ∧ t.bench.tileTest = none)) ∧
  (∀ dt p, p < 104 → s.asDormant = false → s.get TILE_PHYS_STATE p = 1 → s.bench.tileCheck = none →
    (s.bench.tileAt.look p).getD 0 + 600000000000 ≤ s.now + dt →
    Completes (.spareTileCheck dt p) s fun t => t.bench.tileCheck = some (p, s.now + dt)) ∧
  (∀ dt p t0, p < 104 → s.bench.tileCheck = some (p, t0) → s.get TILE_PHYS_STATE p = 1 →
    (Completes (.spareTileCheckDone dt p true) s fun t => t.bench.tileCheck = none ∧ t.get TILE_PHYS_STATE p = 1) ∧
    (Completes (.spareTileCheckDone dt p false) s fun t => t.bench.tileCheck = none ∧ t.get TILE_PHYS_STATE p = 2 ∧
      (s.get PD_STATE (p / 4) = 1 → s.bench.tileTest = none → t.get PD_STATE (p / 4) =
        if (List.range 4).all (fun j => 4 * (p / 4) + j == p || decide (2 ≤ s.get TILE_PHYS_STATE (4 * (p / 4) + j))) then 0 else 1)))

/-- R330, R331, R362, R365, R400, R659 (FRAGMENT_FRAME, DEF_CASCADE_WAIT, REJECT_HOLD_END, MARK_WIDTH_END, MARK_ON_LIMIT,
MARKER_OVERCURRENT): a candidate of the SECONDARY joins the PRIMARY's own candidate that it meets while that one waits, waits
itself for its own half where none does, and is tallied when it comes after the wait of its half; the PRIMARY's own candidates
whose wait is over are remembered as expired; the next reject word follows when the present one has held;
a marker falls when its ends have come, at its longest on-time, which is tallied, and on overcurrent, which is kept. Where the
spec leaves a choice here, the model's is named in log entries 70 and 192. -/
def Obligations.BoundaryRejectsAndMarkers : Prop := ∀ s : State, s.powered = true →
  (∀ dt p seq, s.get CASCADE_ENABLE = 1 → s.get CASCADE_ROLE = 0 → s.linkCarries = true → s.cascade.rxSeq = some seq → seq < 65536 →
    p.length = 64 → (∀ b ∈ p, b < 256) → s.get MODE ≠ 0 → s.get MODE ≠ 5 →
    let d := s.candOfPayload p
    d.view < 4 → s.get VIEW_CASCADE d.view = 1 →
    let own := s.asm.waiting.any (fun c => c.own && c.near d)
    let late := s.asm.expired.any (fun e => d.near { view := e.1, x0 := e.2.1, x1 := e.2.2.1, y0 := e.2.2.2.1, y1 := e.2.2.2.2 })
    (own = true → Completes (.fragmentFrame dt (linkFrame 2 seq p)) s fun t =>
      t.asm = (s.mergeReceived d (fun c => c.near d)).asm) ∧
    (own = false → late = false → Completes (.fragmentFrame dt (linkFrame 2 seq p)) s fun t => t.asm.waiting =
      s.asm.waiting ++ [{ d with closeAt := s.now + dt + s.get DEF_CASCADE_WAIT_MS * 1000000 }]) ∧
    (own = false → late = true → Completes (.fragmentFrame dt (linkFrame 2 seq p)) s fun t =>
      t.get CASCADE_MERGE_LATE = min 0xFFFFFFFF (s.get CASCADE_MERGE_LATE + 1))) ∧
  (∀ dt, s.get MODE ≠ 5 → Completes (.defCascadeWait dt) s fun t => t.asm.expired =
    ((s.asm.waiting.filter (fun c => decide (c.closeAt ≤ s.now + dt))).filter (fun c => c.own)).map
      (fun c => (c.view, c.x0, c.x1, c.y0, c.y1)) ++ s.asm.expired) ∧
  (∀ dt, s.get MODE = 5 → Completes (.defCascadeWait dt) s fun t => t.asm = s.asm) ∧
  (∀ dt p q, s.reject.queue = p :: q → s.reject.holdUntil ≤ s.now + dt → Completes (.rejectHoldEnd dt) s fun t =>
    t.get REJECT_BITMAP = p.word % 2 ^ REJECT_BITMAP.ty.bits ∧ t.get REJECT_SEQ = p.seq % 2 ^ REJECT_SEQ.ty.bits ∧
    t.reject.queue = q ∧ t.reject.holdUntil = s.now + dt + s.get REJECT_HOLD_US * 1000) ∧
  (∀ dt m, m < 16 → (s.marker m).on = true →
    ((s.advance dt).markEnded (s.marker m) = true → Completes (.markWidthEnd dt m) s fun t => (t.marker m).on = false) ∧
    ((s.advance dt).markEnded (s.marker m) = false → Completes (.markWidthEnd dt m) s fun t => t.motion = s.motion) ∧
    ((s.marker m).since + s.get MARK_MAX_ON_MS m * 1000000 ≤ s.now + dt → Completes (.markOnLimit dt m) s fun t =>
      (t.marker m).on = false ∧ t.get MARK_ON_LIMIT m = min 0xFFFFFFFF (s.get MARK_ON_LIMIT m + 1)) ∧
    Completes (.markerOvercurrent dt m) s fun t => (t.marker m).on = false ∧ (t.marker m).tripped = true)

/-- R405 to R415, R421 (FILTER_OUTPUT, FC_PRESET_WRITE, FC_COEF_COMMIT, FC_COEF_FACTORY, FC_SYNC, FC_CAPTURE_RUN): a group's
output that is due counts for each channel of the group and is the compensator's sum over the channel's samples, the newest of
which the decimator makes of the modulator's bits; a preset takes effect with a synchronising reset and its factory
coefficients, unless a detector of the group would then lie at or above half its rate; a bank whose coefficients pass is committed, at once
while the outputs settle and by a cross-fade else, and is refused while one fades; FC_SYNC resets the groups of its mask; a
capture starts empty. Where the spec leaves a choice here, the model's is named in log entries 96 and 97. -/
def Obligations.FilterChainGroups : Prop := ∀ s : State, s.powered = true → ∀ g, g < 4 → g < s.filter.groups.length →
  (∀ dt words i c, (s.grp g).nextAt ≤ s.now + dt → (groupChans g)[i]? = some c →
    Completes (.filterOutput dt g words) s fun t => t.get FC_SAMPLES c = (s.get FC_SAMPLES c + 1) % 2 ^ 64 ∧
      (∀ l (x : Sinc), (s.grp g).fade = none → (s.grp g).lines[i]? = some l → (s.grp g).sincs[i]? = some x →
        let p := s.get FC_PRESET g
        t.get FC_VALUE c = ofSigned 32 (firOut (bankCoefs p (s.grp g).active) (((x.take p (words.getD i 0)).sample p :: l).take 64)))) ∧
  (∀ dt words, s.now + dt < (s.grp g).nextAt → Completes (.filterOutput dt g words) s fun t => t.filter = s.filter) ∧
  (∀ dt via v, v ≤ 2 → (∀ d < 4, s.detGroup d = g → (s.set FC_PRESET g v).detTooFast d = false) → Completes (.fcPresetWrite dt via g v) s fun t =>
    t.get FC_PRESET g = v ∧ t.get FC_SYNC_COUNT g = (s.get FC_SYNC_COUNT g + 1) % 2 ^ 64 ∧ (t.grp g).settle = presetSettle v ∧
    (t.grp g).active = none ∧ (t.grp g).nextAt = s.now + dt + presetPeriod v ∧ (t.grp g).sincs = List.replicate 12 {} ∧
    t.abort = 0) ∧
  (∀ dt via v d, v ≤ 2 → d < 4 → s.detGroup d = g → (s.set FC_PRESET g v).detTooFast d = true →
    Completes (.fcPresetWrite dt via g v) s fun t => t.filter = s.filter ∧ t.abort = 0x06090031) ∧
  (∀ dt via v, 2 < v → Completes (.fcPresetWrite dt via g v) s fun t => t.filter = s.filter ∧ t.abort = 0x06090031) ∧
  (∀ dt via, s.get FC_FADE_STATE g = 1 →
    (Completes (.fcCoefCommit dt via g) s fun t => t.get FC_COMMIT_RESULT g = 2 ∧ t.filter = s.filter ∧ t.abort = abortBusy) ∧
    (Completes (.fcCoefFactory dt via g) s fun t => t.filter = s.filter ∧ t.abort = abortBusy)) ∧
  (∀ dt via, s.get FC_FADE_STATE g ≠ 1 →
    (bankOk (s.get FC_PRESET g) (s.grp g).standby = false → Completes (.fcCoefCommit dt via g) s fun t =>
      t.get FC_COMMIT_RESULT g = 1 ∧ t.filter = s.filter ∧ t.abort = 0x06040043) ∧
    (bankOk (s.get FC_PRESET g) (s.grp g).standby = true → Completes (.fcCoefCommit dt via g) s fun t =>
      t.get FC_COMMIT_RESULT g = 0 ∧ t.abort = 0 ∧
      (0 < (s.grp g).settle → (t.grp g).active = (s.grp g).standby ∧ t.get FC_FADE_STATE g = 0) ∧
      ((s.grp g).settle = 0 → (t.grp g).fade = some (0, s.get FC_FADE_SAMPLES g) ∧ t.get FC_FADE_STATE g = 1)) ∧
    (Completes (.fcCoefFactory dt via g) s fun t => (t.grp g).standby = none ∧ t.abort = 0)) ∧
  (∀ dt via mask, mask ≤ 15 → Completes (.fcSync dt via mask) s fun t => t.abort = 0 ∧
    t.get FC_SYNC_COUNT g = if bit mask g then (s.get FC_SYNC_COUNT g + 1) % 2 ^ 64 else s.get FC_SYNC_COUNT g) ∧
  (∀ dt via mask, 15 < mask → Completes (.fcSync dt via mask) s fun t => t.filter = s.filter ∧ t.abort = 0x06090031) ∧
  (∀ dt via, Completes (.fcCaptureRun dt via) s fun t => t.get FC_CAPTURE_STATE = 1 ∧ t.blob FC_CAPTURE = [] ∧
    t.filter.capture = s.get FC_CAPTURE_CHANNEL ∧ t.abort = 0)

/-- R427, R434, R437, R439 (EVENT_DELIVER, LUT_GLITCH_EXPIRY, CHAN_HOLDOFF_END, CHAN_RATE_WINDOW, TIMER_EXPIRE): in an event
cycle a channel takes an event of an earlier one that its configuration names, or that it took in before a write, and, not
deaf to it, delivers it once its holdoff is over; a cell's
output that has held shows; the event held through a holdoff is delivered at its end,
but not to an input its cell is deaf on; a rate window follows the one before
without a gap; a timer that expires fires and is idle, or starts again when a start is pending. Where the spec leaves a choice
here, the model's is named in log entries 42, 43, 44, 121 and 201. -/
def Obligations.EventCycle : Prop := ∀ s : State, s.powered = true → ∀ dt,
  let cycle := (s.now + dt) / 4
  let at_ := max s.evt.cycle cycle
  (∀ k, k < 64 → s.evt.cycle < cycle → s.chanDeaf k = false → (s.chan k).held = false → (s.chan k).freeAt ≤ cycle →
    ((s.chan k).reg = true ∨ ∃ e ∈ s.evt.fired, e.1 < (s.advance dt).nextCycle ∧ s.chanTakes k e = true) → Completes (.eventDeliver dt) s fun t =>
      t.get CHAN_EVENTS k = (s.get CHAN_EVENTS k + 1) % 2 ^ 64) ∧
  (cycle ≤ s.evt.cycle → Completes (.eventDeliver dt) s fun t => t.evt = s.evt) ∧
  (∀ c x, c < 32 → s.evt.cells[c]? = some x → x.timing = true → x.reportAt ≤ cycle →
    Completes (.lutGlitchExpiry dt c) s fun t => (t.evt.cells[c]?).map Cell.timing = some false ∧
      (t.evt.cells[c]?).map Cell.shown = some (s.get CELL_STATE c == 1) ∧
      t.evt.fired = s.evt.fired ++ (if edgeChosen (s.get CELL_CFG c) (s.get CELL_STATE c == 1) then [(at_, 0x31 + c)] else [])) ∧
  (∀ k, k < 64 → (s.chan k).held = true → (s.chan k).freeAt ≤ cycle → Completes (.chanHoldoffEnd dt k) s fun t =>
    t.get CHAN_EVENTS k = if s.chanDeaf k then s.get CHAN_EVENTS k else (s.get CHAN_EVENTS k + 1) % 2 ^ 64) ∧
  (∀ k, k < 64 → k < s.evt.chans.length → s.chanOn k = true → (s.chan k).windowEnd ≤ cycle →
    Completes (.chanRateWindow dt k) s fun t => (t.chan k).count = 0 ∧
      (t.chan k).windowEnd = (s.chan k).windowEnd + 250 * s.get CHAN_RATE_WINDOW_US k) ∧
  (∀ n, n < 16 → s.get TIMER_STATE n ≠ 0 → s.evt.timerAt.getD n 0 ≤ cycle →
    (s.evt.taskPend.contains (0x11 + n) = false → Completes (.timerExpire dt n) s fun t =>
      t.get TIMER_STATE n = 0 ∧ t.evt.fired = s.evt.fired ++ [(at_, 0x51 + n)] ∧ t.evt.timerAt = s.evt.timerAt) ∧
    (s.evt.taskPend.contains (0x11 + n) = true → Completes (.timerExpire dt n) s fun t =>
      t.get TIMER_STATE n = 1 ∧ t.evt.fired = s.evt.fired ++ [(at_, 0x51 + n)] ∧
      t.evt.timerAt = s.evt.timerAt.set n (s.evt.timerAt.getD n 0 + 1 + s.get TIMER_PERIOD n)))

/-- R362, R413, R420, R429, R430, R439, R440, R503, R647 (MARK_PULSE, TIMER_START, TIMER_STOP, LATCH, EVT_COUNT, HOST_EVT,
ECAT_TOGGLE, FC_SYNC_GROUP, DET_START, PULSE_ZERO, HOLD_REQUEST, TRACE_MARK): what each task input does when an event reaches
it; a task that its state or the mode refuses is tallied; an event at a busy timer waits, and one at a task where an event
waits is lost and tallied. Where the spec leaves a choice here, the model's is named in log entries 19 and 44. -/
def Obligations.TaskInputs : Prop := ∀ s : State, s.powered = true → ∀ dt,
  let free (code : Nat) : Prop := s.evt.taskPend.contains code = false
  (∀ c code, s.evt.taskPend.contains code = true → (∃ n < 16, (c, code) ∈ [(Instr.markPulse dt n, 0x01 + n), (.timerStart dt n, 0x11 + n),
      (.timerStop dt n, 0x21 + n), (.latch dt n, 0x31 + n), (.evtCount dt n, 0x41 + n), (.hostEvt dt n, 0x51 + n),
      (.ecatToggle dt n, 0x61 + n)]) ∨ (∃ n < 4, (c, code) ∈ [(Instr.fcSyncGroup dt n, 0x71 + n), (.detStart dt n, 0x75 + n)]) ∨
      (∃ n < 2, (c, code) = (Instr.pulseZero dt n, 0x7A + n)) ∨ (c, code) ∈ [(Instr.holdRequest dt, 0x7E), (.traceMark dt, 0x7F)] →
    Completes c s fun t => t.get EVT_TASK_LOST = min 0xFFFFFFFF (s.get EVT_TASK_LOST + 1) ∧ t.get EVT_TASK_LOST_LAST = code ∧
      t.evt.taskPend = s.evt.taskPend) ∧
  (∀ m, m < 16 → m < s.motion.markers.length → free (0x01 + m) → s.get MODE ≠ 5 → s.get MARK_ENABLE m ≠ 0 →
    Completes (.markPulse dt m) s fun t => (t.marker m).on = true) ∧
  (∀ m, m < 16 → free (0x01 + m) → s.get MODE = 5 ∨ s.get MARK_ENABLE m = 0 → Completes (.markPulse dt m) s fun t =>
    t.get EVT_TASK_REFUSED = min 0xFFFFFFFF (s.get EVT_TASK_REFUSED + 1) ∧ t.motion = s.motion) ∧
  (∀ n, n < 16 →
    (s.get TIMER_STATE n = 0 → free (0x11 + n) → Completes (.timerStart dt n) s fun t => t.get TIMER_STATE n = 1 ∧
      t.evt.timerAt = s.evt.timerAt.set n ((s.now + dt) / 4 + s.get TIMER_PERIOD n)) ∧
    (s.get TIMER_STATE n ≠ 0 → free (0x11 + n) → Completes (.timerStart dt n) s fun t =>
      t.get TIMER_STATE n = 2 ∧ t.evt.taskPend = s.evt.taskPend ++ [0x11 + n]) ∧
    (free (0x21 + n) → Completes (.timerStop dt n) s fun t => t.get TIMER_STATE n = 0 ∧
      t.evt.taskPend = s.evt.taskPend.filter (fun c => c != 0x11 + n)) ∧
    (free (0x31 + n) → Completes (.latch dt n) s fun t => t.get LATCH_COUNT n = s.get WEB_COUNT % 2 ^ 64 ∧
      t.get LATCH_TIME n = (s.dc + dt) % 2 ^ 64 ∧ t.get LATCH_SPEED n = s.get OBS_SPEED % 2 ^ 32 ∧
      t.get LATCH_SEQ n = (s.get LATCH_SEQ n + 1) % 2 ^ 64) ∧
    (free (0x41 + n) → Completes (.evtCount dt n) s fun t => t.get EVT_COUNT n = (s.get EVT_COUNT n + 1) % 2 ^ 64) ∧
    (free (0x61 + n) → Completes (.ecatToggle dt n) s fun t => bit (t.get EVT_TOGGLE) n = !bit (s.get EVT_TOGGLE) n) ∧
    (free (0x51 + n) → s.ringRuns 3 = false → 3 < s.host.rings.length → (s.ring 3).staged.foldl (fun n f => n + f.bytes 3) 0 + 64 ≤ 2 ^ 26 →
      let p := [n, 0, 0, 0, 0, 0, 0, 0] ++ leBytes 8 (s.advance dt).dc
      Completes (.hostEvt dt n) s fun t =>
        (t.ring 3).staged = (s.ring 3).staged ++ [{ typ := 4, unit := 0, payload := p, short := p }])) ∧
  (∀ g, g < 4 → free (0x71 + g) → Completes (.fcSyncGroup dt g) s fun t => t.get FC_SYNC_COUNT g = (s.get FC_SYNC_COUNT g + 1) % 2 ^ 64) ∧
  (∀ d, d < 4 → free (0x75 + d) →
    (s.get DET_MODE d = 1 → Completes (.detStart dt d) s fun t => (t.det d).busy = false ∧
      t.get DET_DISCARDED d = if (s.det d).busy then min 0xFFFFFFFF (s.get DET_DISCARDED d + 1) else s.get DET_DISCARDED d) ∧
    (s.get DET_MODE d ≠ 1 → Completes (.detStart dt d) s fun t =>
      t.get EVT_TASK_REFUSED = min 0xFFFFFFFF (s.get EVT_TASK_REFUSED + 1) ∧ t.filter = s.filter)) ∧
  (∀ n, n < 2 → free (0x7A + n) → Completes (.pulseZero dt n) s fun t => t.get PULSE_COUNT n = 0) ∧
  (free 0x7E → Completes (.holdRequest dt) s fun t => t.get MODE = 5 ∧ t.get MODE_RESULT = 0 ∧
    (s.get MODE ≠ 5 ∨ s.get MODE_PENDING ≠ 0xFF → bit (t.get HOLD_CAUSE) 0 = true)) ∧
  (free 0x7F → s.traceOn 8 = true → (s.advance dt).trace.queue.length < 64 → Completes (.traceMark dt) s fun t =>
    t.trace.queue.length = (s.advance dt).trace.queue.length + 1)

/-- R425, R426, R428, R435, R438, R441, R658 (EVT_SOFT, EVT_SAVE, CHAN_CFG_WRITE, CELL_CFG_WRITE, DIGITAL_INPUT_EDGE): each bit of
EVT_SOFT fires its producer; EVT_SAVE commits the matrix to the logbook; a channel whose producer or consumer is taken is
refused with its result, and another is configured, its reserved bits reading 0; so is a cell, which starts anew; an input's
edge that held through its filter fires its producer, and a shorter one does nothing. Where the spec leaves a choice here, the
model's is named in log entry 43. -/
def Obligations.EventConfiguration : Prop := ∀ s : State, s.powered = true → ∀ dt,
  (∀ via mask, mask ≤ 0xFFFF → Completes (.evtSoft dt via mask) s fun t => t.abort = 0 ∧
    ∀ n < 16, bit mask n = true → (s.evt.xing.look (0x61 + n)).getD 0 < 15 →
      t.evt.xing.look (0x61 + n) = some ((s.evt.xing.look (0x61 + n)).getD 0 + 1)) ∧
  (∀ via mask, 0xFFFF < mask → Completes (.evtSoft dt via mask) s fun t => t.abort = 0x06070010) ∧
  (∀ via, Completes (.evtSave dt via) s fun t => t.abort = 0 ∧ t.get LOGBOOK_COMMITS = (s.get LOGBOOK_COMMITS + 1) % 2 ^ 64 ∧
    t.get LOGBOOK_LAST_COMMIT_TIME = (s.dc + dt) % 2 ^ 64) ∧
  (∀ via k v, k < 64 → v ≤ 0xFFFFFFFF →
    (bit v 31 = true → s.producerUsed k (bits v 7 0) = true → Completes (.chanCfgWrite dt via k v) s fun t =>
      t.get EVT_RESULT = 1 ∧ t.get CHAN_CFG k = s.get CHAN_CFG k ∧ t.abort = 0x06040043) ∧
    (bit v 31 = true → s.producerUsed k (bits v 7 0) = false → s.consumerFull k (bits v 15 8) = true →
      Completes (.chanCfgWrite dt via k v) s fun t =>
        t.get EVT_RESULT = 2 ∧ t.get CHAN_CFG k = s.get CHAN_CFG k ∧ t.abort = 0x06040043) ∧
    (bit v 31 = false ∨ (s.producerUsed k (bits v 7 0) = false ∧ s.consumerFull k (bits v 15 8) = false) →
      Completes (.chanCfgWrite dt via k v) s fun t => t.get EVT_RESULT = 0 ∧ t.get CHAN_CFG k = Nat.land v 0xC000FFFF ∧ t.abort = 0)) ∧
  (∀ via c v, c < 32 → v ≤ 0xFFFFFFFF → Completes (.cellCfgWrite dt via c v) s fun t =>
    t.get CELL_CFG c = Nat.land v 0xFFFFFE00 ∧ t.get CELL_STATE c = 0 ∧ t.abort = 0 ∧ (c < s.evt.cells.length → t.evt.cells[c]? = some {})) ∧
  (∀ i level held, i < 16 →
    (inputFilter i ≤ held → bit s.motion.inputs i ≠ level → (level = false ∨ s.get IO_SUPPLY_LOW ≠ 1) →
      Completes (.digitalInputEdge dt i level held) s fun t => bit t.motion.inputs i = level ∧
        t.evt.fired = s.evt.fired ++ [(max s.evt.cycle ((s.now + dt) / 4), (if level then 0x01 else 0x11) + i)]) ∧
    (held < inputFilter i → Completes (.digitalInputEdge dt i level held) s fun t =>
      t.motion = s.motion ∧ t.evt = s.evt ∧ t.web = s.web))

/-- R443, R444, R449, R450, R452 to R454 (SRAM_UNCORRECTABLE, SRAM_SCRUB, DRAM_POISON_READ, DRAM_PATROL, DRAM_PKG_DEAD,
SUPERVISOR_REGION_REBUILT): errors of on-die SRAM are tallied with the last region; a read that meets poison is tallied for
the module and the package, and data of a package out of use as stale; the patrol counts
each package's corrections and gives their rate; a package
declared dead leaves its channel, and the lowest spare takes the channel over, or its cause is set. Where the spec leaves a
choice here, the model's is named in log entry 80. -/
def Obligations.MemoryErrors : Prop := ∀ s : State, s.powered = true →
  (∀ dt region unit, region ≤ 6 → Completes (.sramUncorrectable dt region unit) s fun t =>
    t.get SRAM_UE = min 0xFFFFFFFF (s.get SRAM_UE + 1) ∧ t.get SRAM_UE_LAST_REGION = region) ∧
  (∀ dt region unit n, n ≠ 0 → Completes (.sramScrub dt region unit n) s fun t =>
    t.get SRAM_CE = min 0xFFFFFFFF (s.get SRAM_CE + n)) ∧
  (∀ dt p consumer, p < 13 →
    (s.get DRAM_PKG_STATE p ≠ 2 → s.get DRAM_PKG_STATE p ≠ 3 → Completes (.dramPoisonRead dt p consumer) s fun t =>
      t.get DRAM_PKG_UE p = min 0xFFFFFFFF (s.get DRAM_PKG_UE p + 1) ∧
      t.get DRAM_POISON_READS = min 0xFFFFFFFF (s.get DRAM_POISON_READS + 1)) ∧
    (s.get DRAM_PKG_STATE p = 2 ∨ s.get DRAM_PKG_STATE p = 3 → Completes (.dramPoisonRead dt p consumer) s fun t =>
      t.get DRAM_STALE_RESULT = min 0xFFFFFFFF (s.get DRAM_STALE_RESULT + 1) ∧
      t.get DRAM_PKG_UE p = s.get DRAM_PKG_UE p ∧ t.get ISLAND_STATE (52 + p) = 5)) ∧
  (∀ dt corrected p, p < 13 → Completes (.dramPatrol dt corrected) s fun t =>
    t.get DRAM_PKG_CE_RATE p = min 0xFFFFFFFF (corrected.getD p 0 / 24) ∧
    t.get DRAM_PKG_CE p = if corrected.getD p 0 = 0 then s.get DRAM_PKG_CE p
      else min 0xFFFFFFFF (s.get DRAM_PKG_CE p + corrected.getD p 0)) ∧
  (∀ dt p cause, p < 13 → s.get DRAM_PKG_STATE p = 0 → s.get DRAM_PKG_CHANNEL p < 0xFF →
    (∀ q, lowest 13 (fun q => s.get DRAM_PKG_STATE q == 1) = some q → Completes (.dramPkgDead dt p cause) s fun t =>
      t.get DRAM_PKG_CHANNEL p = 0xFF ∧ t.get DRAM_PKG_CHANNEL q = s.get DRAM_PKG_CHANNEL p ∧ t.get DRAM_PKG_STATE q = 0 ∧
      t.get DRAM_PKG_EPOCH p = (if s.get DRAM_PKG_EPOCH p = 0xFFFF then 0xFFFF else (s.get DRAM_PKG_EPOCH p + 1) % 65536)) ∧
    (lowest 13 (fun q => s.get DRAM_PKG_STATE q == 1) = none → Completes (.dramPkgDead dt p cause) s fun t =>
      t.get DRAM_PKG_CHANNEL p = 0xFF ∧ bit (t.get HOLD_CAUSE) 3 = true)) ∧
  (∀ dt p cause, p < 13 → s.get DRAM_PKG_STATE p = 2 ∨ s.get DRAM_PKG_STATE p = 3 →
    Completes (.dramPkgDead dt p cause) s fun t => t.get DRAM_PKG_CHANNEL p = s.get DRAM_PKG_CHANNEL p ∧ t.dram = s.dram) ∧
  (∀ dt, Completes (.supervisorRegionRebuilt dt) s fun t => t.dramUnit.rebuild = false)

/-- R451, R455, R456, R628 (DRAM_MIGRATE, DRAM_MIGRATE_DONE, DRAM_SELFTEST, DRAM_SELFTEST_DONE, SPARE_DRAM_CHECK,
SPARE_DRAM_CHECK_DONE): a package in use migrates to the lowest spare, or the migration fails for want of one; at its end the
spare has the channel and the package is RETIRED; a quarantined package is self-tested in DORMANT and READY and becomes a
spare when it passes; the spare is checked every ten minutes, the next window each time, and goes to QUARANTINE when it fails.
Where the spec leaves a choice here, the model's is named in log entry 81. -/
def Obligations.MigrationAndSparePackage : Prop := ∀ s : State, s.powered = true →
  (∀ dt via p, p < 13 → s.get MODE ≠ 0 → s.get MODE ≠ 5 → s.dramUnit.moving = none →
    (∀ q, s.get DRAM_PKG_STATE p = 0 → lowest 13 (fun q => s.get DRAM_PKG_STATE q == 1) = some q →
      Completes (.dramMigrate dt via p) s fun t => t.get DRAM_MIGRATE_STATE = 1 ∧ t.migratePermille = 0 ∧
        t.dramUnit.moving = some (p, q) ∧ t.abort = 0) ∧
    (s.get DRAM_PKG_STATE p = 0 → lowest 13 (fun q => s.get DRAM_PKG_STATE q == 1) = none →
      Completes (.dramMigrate dt via p) s fun t => t.get DRAM_MIGRATE_STATE = 3 ∧ t.dramUnit.moving = none ∧ t.abort = 0) ∧
    (s.get DRAM_PKG_STATE p ≠ 0 → Completes (.dramMigrate dt via p) s fun t => t.dramUnit = s.dramUnit ∧ t.abort = abortMode)) ∧
  (∀ dt p q, p < 13 → q < 13 → p ≠ q → s.dramUnit.moving = some (p, q) →
    (s.get MODE ≠ 5 → Completes (.dramMigrateDone dt) s fun t =>
      t.get DRAM_PKG_CHANNEL q = s.get DRAM_PKG_CHANNEL p % 256 ∧ t.get DRAM_PKG_CHANNEL p = 0xFF ∧
      t.get DRAM_PKG_STATE q = 0 ∧ t.get DRAM_PKG_STATE p = 3 ∧ t.get DRAM_MIGRATE_STATE = 2 ∧
      t.migratePermille = 1000 ∧ t.dramUnit.moving = none) ∧
    (s.get MODE = 5 → Completes (.dramMigrateDone dt) s fun t => t.dramUnit = s.dramUnit)) ∧
  (∀ dt via p, p < 13 →
    (s.get MODE = 0 ∨ s.get MODE = 1 → s.get DRAM_PKG_STATE p = 2 → s.bench.dramTest = none →
      Completes (.dramSelftest dt via p) s fun t => t.get DRAM_SELFTEST_RESULT = 1 ∧ t.get ISLAND_STATE (52 + p) = 2 ∧
        t.bench.dramTest = some (p, s.now + dt) ∧ t.abort = 0) ∧
    (s.get DRAM_PKG_STATE p ≠ 2 → Completes (.dramSelftest dt via p) s fun t => t.bench = s.bench ∧ t.abort = abortMode)) ∧
  (∀ dt p t0 errors, p < 13 → s.bench.dramTest = some (p, t0) →
    (errors = 0 → Completes (.dramSelftestDone dt errors) s fun t => t.get DRAM_SELFTEST_RESULT = 2 ∧ t.bench.dramTest = none ∧
      t.get DRAM_PKG_STATE p = (if s.get DRAM_PKG_STATE p = 3 then 3 else 1)) ∧
    (errors ≠ 0 → Completes (.dramSelftestDone dt errors) s fun t => t.get DRAM_SELFTEST_RESULT = 3 ∧
      t.get ISLAND_STATE (52 + p) = 5 ∧ t.bench.dramTest = none)) ∧
  (∀ dt q, s.asDormant = false → lowest 13 (fun q => s.get DRAM_PKG_STATE q == 1) = some q → s.bench.dramCheck = none →
    s.dramUnit.moving = none → s.bench.dramAt + 600000000000 ≤ s.now + dt → Completes (.spareDramCheck dt) s fun t =>
      t.bench.dramCheck = some (q, s.bench.dramWindow) ∧ t.bench.dramWindow = (s.bench.dramWindow + 1) % 256) ∧
  (∀ dt q w errors, q < 13 → s.bench.dramCheck = some (q, w) → Completes (.spareDramCheckDone dt errors) s fun t =>
    t.bench.dramCheck = none ∧ t.get DRAM_PKG_STATE q = if errors = 0 then s.get DRAM_PKG_STATE q else 2)

/-- R459, R461 to R464, R466, R474 (WH_START, WH_ABORT, WH_FLUSH, WH_RESTART, WH_BUS_ERROR): a channel that the writer may command
and that is busy, in a mode without the wharf, or with a bad parameter or address is refused with its status; else a COPY runs
at once and a stream takes an engine or waits for one; an abort of a busy channel frees it; a flush point of a compression
that runs is kept in order; commands to a channel the writer may not command are refused; a bus error is tallied and recorded
and stops every job, and a restart is busy until every burst has settled and then ends the stop. Where the spec leaves a
choice here, the model's is named in log entries 75 and 77. -/
def Obligations.WharfChannels : Prop := ∀ s : State, s.powered = true → ∀ dt via n, n < 32 →
  (s.chanOpen via n = true →
    ((s.job n).isSome = true → Completes (.whStart dt via n) s fun t =>
      t.get WH_STATUS n = 6 ∧ t.wharf = s.wharf ∧ t.abort = abortBusy) ∧
    (s.job n = none → s.get MODE = 0 ∨ s.get MODE = 5 → Completes (.whStart dt via n) s fun t =>
      t.get WH_STATUS n = 7 ∧ t.wharf = s.wharf ∧ t.abort = abortMode) ∧
    (s.job n = none → s.get MODE ≠ 0 → s.get MODE ≠ 5 → s.badParam n = true → Completes (.whStart dt via n) s fun t =>
      t.get WH_STATUS n = 8 ∧ t.wharf = s.wharf ∧ t.abort = 0x06040043) ∧
    (s.job n = none → s.get MODE ≠ 0 → s.get MODE ≠ 5 → s.badParam n = false → (s.jobOfChan n).badAddr = true →
      Completes (.whStart dt via n) s fun t => t.get WH_STATUS n = 9 ∧ t.wharf = s.wharf ∧ t.abort = 0x06040043) ∧
    (s.job n = none → s.get MODE ≠ 0 → s.get MODE ≠ 5 → s.badParam n = false → (s.jobOfChan n).badAddr = false →
      (s.get WH_OP n = 0 → Completes (.whStart dt via n) s fun t => t.get WH_STATUS n = 1 ∧ t.get WH_PROGRESS_ROWS n = 0 ∧
        t.job n = some { s.jobOfChan n with status := 1, id := s.wharf.started, seen := s.turnsWith n } ∧ t.abort = 0) ∧
      (s.get WH_OP n ≠ 0 → Completes (.whStart dt via n) s fun t =>
        (t.get WH_STATUS n = 1 ∨ t.get WH_STATUS n = 2) ∧ t.get WH_PROGRESS_ROWS n = 0 ∧ (t.job n).isSome = true ∧ t.abort = 0)) ∧
    ((s.job n).isSome = true → Completes (.whAbort dt via n) s fun t =>
      t.get WH_STATUS n = 4 ∧ t.job n = none ∧ t.abort = 0) ∧
    (∀ consumed j, s.job n = some j → j.op = 1 → j.status = 1 → 0 < consumed → (∀ p ∈ j.flushes, p ≤ consumed) →
      Completes (.whFlush dt via n consumed) s fun t =>
        t.job n = some { j with flushes := insertNat consumed j.flushes } ∧ t.abort = 0)) ∧
  (s.chanOpen via n = false → ∀ consumed,
    (Completes (.whStart dt via n) s fun t => t.wharf = s.wharf ∧ t.abort = abortMode) ∧
    (Completes (.whAbort dt via n) s fun t => t.wharf = s.wharf ∧ t.abort = abortMode) ∧
    (Completes (.whFlush dt via n consumed) s fun t => t.wharf = s.wharf ∧ t.abort = abortMode)) ∧
  (s.get WH_ALL_STOPPED = 1 →
    (Completes (.whRestart dt via true) s fun t => t.get WH_ALL_STOPPED = 0 ∧ t.abort = 0) ∧
    (Completes (.whRestart dt via false) s fun t => t.wharf = s.wharf ∧ t.get WH_ALL_STOPPED = 1 ∧ t.abort = abortBusy)) ∧
  (∀ kind addr progress, s.get WH_ALL_STOPPED ≠ 1 →
    Completes (.whBusError dt kind addr progress) s fun t =>
      t.get WH_BUS_ERR = min 0xFFFFFFFF (s.get WH_BUS_ERR + 1) ∧ t.get WH_ALL_STOPPED = 1 ∧
      t.get WH_ERR_INFO = busErrorCode kind ∧ t.get WH_ERR_ADDR = (addr.map (· % 2 ^ 64)).getD (s.get WH_ERR_ADDR) ∧
      t.wharf.waiting = [] ∧ (∀ e ∈ t.wharf.jobs, e.2.status = 5) ∧
      (0 < s.host.fns.length → bit (t.fn 0).irq 6 = true))

/-- R458 to R461, R477 (WH_JOB_DONE), of a job that took turns with none: the channels before it are served first; a COPY
that ends shows DONE and all its rows and leaves its channel; module DRAM outside its rows is as before; the bytes of a
destination of one row that nothing else writes are the source's, as the host delivered them; a stream that fits its
destination ends DONE and counts its bytes, and one that does not ends NO_SPACE and is tallied; a decompression ends DONE, at
its limit or MALFORMED as its stream says. Where the spec leaves a choice here, the model's is named in log entries 77, 78 and 182. -/
def Obligations.WharfJobsEnd : Prop := ∀ s : State, s.powered = true → ∀ dt n j host, 7 ≤ n → n < 32 → s.get MODE ≠ 0 →
  s.get MODE ≠ 5 → s.get WH_ALL_STOPPED ≠ 1 → s.job n = some j → j.status = 1 → j.seen = [] →
  let u := (s.advance dt).serveHigh.serveArchive
  (j.op = 0 → Completes (.whJobDone dt n host) s fun t => t.get WH_STATUS n = 3 ∧ t.job n = none ∧
    t.get WH_PROGRESS_ROWS n = j.src.rows % 2 ^ 32 ∧
    (∀ a, (∀ r < j.src.rows, a < j.dst.row r ∨ j.dst.row r + j.src.bytes ≤ a) → t.dramByte a = s.dramByte a) ∧
    (j.src.space = 1 → j.dst.space = 0 → j.rows = 0 → j.src.rows = 1 → s.others n j = [] → ∀ i < j.src.bytes,
      t.dramByte (j.dst.row 0 + i) = host.getD i 0 % 256)) ∧
  (j.op = 1 →
    let xs := (List.range j.src.rows).flatMap (fun r => u.srcRow j (some (host.map (· % 256))) u.fresh.1 r)
    let st := compress j.level j.filter j.log2 j.src.bytes j.flushes xs
    (j.dstLimit < st.length → Completes (.whJobDone dt n host) s fun t => t.get WH_STATUS n = 10 ∧ t.job n = none ∧
      t.get CMP_FAIL = min 0xFFFFFFFF (u.get CMP_FAIL + 1)) ∧
    (st.length ≤ j.dstLimit → Completes (.whJobDone dt n host) s fun t => t.get WH_STATUS n = 3 ∧ t.job n = none ∧
      t.get WH_DST_COMMIT n = (s.get WH_DST_COMMIT n + st.length) % 2 ^ 64)) ∧
  (j.op = 2 → Completes (.whJobDone dt n host) s fun t => t.job n = none ∧
    t.get WH_STATUS n = match decompress (u.streamOf j u.fresh.1 (host.map (· % 256))) j.dstLimit with
      | .limit => 11
      | .malformed _ => 12
      | .ok _ => 3)

/-- R486 to R488, R490, R500, R501, R509, R510 (HL_RING_CONS_WRITE, HL_MBOX_TAIL_WRITE, HL_IRQ_STATUS_WRITE, MSIX_UNMASK,
HL_WH_COMMIT_LO_READ, APERTURE_WRITE, RING_ENABLE_WRITE, RING_COALESCE_EXPIRY): outside DORMANT a ring's function returns
space up to what the ring holds, and a value beyond is ignored and tallied; the tail of the mailbox is its function's to
write; a status bit written as 1 clears its cause and no other; a pending vector that is unmasked sends its message; outside
DORMANT the low word of a commit latches its high word, and the aperture writes host scratch and nothing else, and tallies
what lies outside; enabling a ring that holds nothing sets its pointers to 0, disabling it drops its coalescing cause; a
coalescing time that ends sets the cause. Where the spec leaves a choice here, the model's is named in log entries 116 and
120. -/
def Obligations.FastPathAndRings : Prop := ∀ s : State, s.powered = true → ∀ dt,
  (∀ f, f < 2 → f < s.host.fns.length →
    (∀ ring value, ring < 4 → ring < s.host.rings.length → s.asDormant = false → s.get RING_FUNCTION ring = f →
      let used := ((s.ring ring).prod + 2 ^ 32 - value % 2 ^ 32) % 2 ^ 32
      (used ≤ s.ringBytes ring → Completes (.hlRingConsWrite dt f ring value) s fun t => (t.ring ring).cons = value % 2 ^ 32) ∧
      (s.ringBytes ring < used → Completes (.hlRingConsWrite dt f ring value) s fun t => t.host = s.host ∧
        t.get HL_DICT_ERRORS = min 0xFFFFFFFF (s.get HL_DICT_ERRORS + 1))) ∧
    (∀ value, s.mboxOf f = true → Completes (.hlMboxTailWrite dt f value) s fun t => t.host.mboxTail = value % 2 ^ 32) ∧
    (∀ value, s.mboxOf f = false → Completes (.hlMboxTailWrite dt f value) s fun t => t.host = s.host) ∧
    (∀ hi value n, Completes (.hlIrqStatusWrite dt f hi value) s fun t => bit (t.fn f).irq n =
      (bit (s.fn f).irq n && !bit (if hi then value % 2 ^ 32 * 2 ^ 32 else value % 2 ^ 32) n)) ∧
    (∀ v, v < 64 → Completes (.msixUnmask dt f v) s fun t => bit (t.fn f).mask v = false ∧ bit (t.fn f).pend v = false ∧
      ((t.fn f).msgs.look v).getD 0 = ((s.fn f).msgs.look v).getD 0 + b2n (bit (s.fn f).pend v)) ∧
    (∀ chan, chan < 32 → s.asDormant = false → Completes (.hlWhCommitLoRead dt f chan) s fun t =>
      (t.fn f).readValue = s.get WH_DST_COMMIT chan % 2 ^ 32 ∧ (t.fn f).commitShadow = s.get WH_DST_COMMIT chan / 2 ^ 32 ∧
      t.pageRead f (0x410 + 32 * chan) = some (s.get WH_DST_COMMIT chan / 2 ^ 32)) ∧
    (∀ offset (data : List Nat), offset + data.length ≤ 2 ^ 30 → s.asDormant = false →
      let a := s.get HL_APERTURE_BASE f + offset
      (0x2E00000000 ≤ a → a + data.length ≤ 0x3000000000 → Completes (.apertureWrite dt f offset data) s fun t =>
        (∀ i < data.length, t.dramByte (a + i) = data.getD i 0 % 256) ∧
        ∀ b, b < a ∨ a + data.length ≤ b → t.dramByte b = s.dramByte b) ∧
      (a < 0x2E00000000 ∨ 0x3000000000 < a + data.length → Completes (.apertureWrite dt f offset data) s fun t =>
        t.dram = s.dram ∧ t.get HL_APERTURE_WRITE_DROP = min 0xFFFFFFFF (s.get HL_APERTURE_WRITE_DROP + 1)))) ∧
  (∀ via ring, ring < 5 → ring < s.host.rings.length →
    (s.get RING_ENABLE ring ≠ 1 → Completes (.ringEnableWrite dt via ring 1) s fun t => t.get RING_ENABLE ring = 1 ∧
      t.abort = 0 ∧ ((s.ring ring).staged = [] → (t.ring ring).prod = 0 ∧ (t.ring ring).cons = 0)) ∧
    (Completes (.ringEnableWrite dt via ring 0) s fun t => t.get RING_ENABLE ring = 0 ∧ (t.ring ring).causeAt = none ∧ t.abort = 0) ∧
    (∀ v, 1 < v → Completes (.ringEnableWrite dt via ring v) s fun t => t.get RING_ENABLE ring = s.get RING_ENABLE ring ∧
      t.abort = 0x06090031) ∧
    (∀ c, (s.ring ring).causeAt = some c → c ≤ s.now + dt → s.get RING_FUNCTION ring < s.host.fns.length →
      Completes (.ringCoalesceExpiry dt ring) s fun t => (t.ring ring).causeAt = none ∧
        bit (t.fn (s.get RING_FUNCTION ring)).irq ring = true))

/-- R496, R497, R542 (DICT_READ, DICT_WRITE, PKG_STORE, FW_STORE): the descriptor that is next completes with OK and the bytes
read, or with the result of its abort code; a package that passes its checks is stored in its slot, and another is refused
with its code; an image is written to the standby place, VALID when it passes its checks, and is refused outside DORMANT and
READY. Where the spec leaves a choice here, the model's is named in log entries 89, 90, 117, 118 and 142. -/
def Obligations.MailboxOperations : Prop := ∀ s : State, s.powered = true → ∀ dt,
  s.mboxNext s.mboxFn = true → s.host.fns.length = 2 → s.get RING_FUNCTION 4 < 2 →
  let dc := (s.advance dt).dc
  (∀ index sub n b, ((s.advance dt).rowsRead index sub).readAt (.mailbox s.mboxFn) index sub = .ok b → b.length ≤ n →
    Completes (.dictRead dt index sub n) s fun t => t.host.mboxLast = some ⟨1, 1, 0, b.length, dc, b⟩ ∧
      t.host.mboxHead = (s.host.mboxHead + 1) % 2 ^ 32) ∧
  (∀ index sub n c, ((s.advance dt).rowsRead index sub).readAt (.mailbox s.mboxFn) index sub = .error c →
    Completes (.dictRead dt index sub n) s fun t => t.host.mboxLast = some ⟨1, mboxResult c, c, 0, dc, []⟩ ∧
      t.host.mboxHead = (s.host.mboxHead + 1) % 2 ^ 32) ∧
  (∀ b v, b < 12 → 100 ≤ v → v ≤ 1000000 → Completes (.dictWrite dt (0x2310 + b) 2 (leBytes 4 v)) s fun t =>
    t.get EXP_WIDTH_NS b = v ∧ t.host.mboxLast = some ⟨2, 1, 0, 4, dc, []⟩ ∧
      t.host.mboxHead = (s.host.mboxHead + 1) % 2 ^ 32) ∧
  (∀ p : List Byte, (∀ b ∈ p, b < 256) → (s.get MODE = 0 ∨ s.get WH_ALL_STOPPED = 0) → s.get MODE ≠ 5 →
    (Package.ok p (s.get FW_REVISION) = true →
      let k := natAt p 16 2
      k < 4096 → s.get ACTIVE_SLOT ≠ k → s.web.pendingSlot ≠ k → s.get PF_STATE ≠ 2 →
      p.length ≤ s.jobBytesFree + ((s.nv.pkgs.look k).map List.length).getD 0 →
      Completes (.pkgStore dt p) s fun t => t.nv.pkgs.look k = some p ∧
        t.host.mboxLast = some ⟨3, 1, 0, p.length, dc, []⟩) ∧
    (Package.ok p (s.get FW_REVISION) = false → Completes (.pkgStore dt p) s fun t => t.nv = s.nv ∧
      t.host.mboxLast = some ⟨3, 2, 2, 0, dc, []⟩)) ∧
  (∀ image ok, (∀ b ∈ image, b < 256) → (s.get MODE = 0 ∨ s.get WH_ALL_STOPPED = 0) →
    (s.get MODE ≤ 1 → imageCheck image ok = 0 → Completes (.fwStore dt image ok) s fun t =>
      t.get FW_STANDBY_STATE = 1 ∧ t.get FW_STANDBY_REVISION = natAt image 4 4 % 2 ^ 32 ∧ t.get FW_RESULT = 0 ∧
      t.host.mboxLast = some ⟨4, 1, 0, image.length, dc, []⟩) ∧
    (s.get MODE ≤ 1 → imageCheck image ok ≠ 0 → Completes (.fwStore dt image ok) s fun t =>
      t.get FW_STANDBY_STATE = 2 ∧ t.get FW_RESULT = imageCheck image ok ∧
      t.host.mboxLast = some ⟨4, 2, 0x06040043, 0, dc, []⟩) ∧
    (1 < s.get MODE → Completes (.fwStore dt image ok) s fun t => t.get FW_RESULT = 4 ∧ t.nv = s.nv ∧
      t.host.mboxLast = some ⟨4, 3, abortMode, 0, dc, []⟩))

/-- R498, R499, R511 (CAM_READ, CAM_WRITE, CAM_REPLY, PT_TIMEOUT, LINK_DOWN, HOST_LINK_UP): a pass-through request to a bay that
is UP is sent at once on its control lane, one to a bay without a link and one to a register that the M12 owns end with their results; a reply in
time ends its request with OK, and no reply with TIMEOUT, which is tallied; a link that goes down takes its function's
requests with it; a link that trains within the mode and the cap is up. Where the spec leaves a choice here, the model's is
named in log entries 119 and 141. -/
def Obligations.PassThroughAndLinks : Prop := ∀ s : State, s.powered = true → ∀ dt f, f < 2 → s.host.fns.length = 2 →
  (s.mboxNext f = true → ∀ bay addr, bay < 12 →
    (∀ len, 4 ≤ len → len ≤ 512 → len % 4 = 0 →
      (s.get BAY_STATE bay = 2 → (∀ r ∈ s.host.pt, r.bay ≠ bay) → Completes (.camRead dt f bay addr len) s fun t =>
        t.host.pt = s.host.pt ++ [⟨f, bay, addr, false, [], len, some (s.now + dt), s.ctrlLane bay, (s.bay bay).tagged⟩]) ∧
      (s.get BAY_STATE bay ≠ 1 → s.get BAY_STATE bay ≠ 2 → Completes (.camRead dt f bay addr len) s fun t =>
        t.host.pt = s.host.pt ∧ (t.host.mboxLast.map MboxDone.result) = some 6)) ∧
    (∀ data : List Nat, (∀ b ∈ data, b < 256) → 4 ≤ data.length → data.length ≤ 512 → data.length % 4 = 0 →
      (s.touchesOwned bay addr data.length = false → s.get BAY_STATE bay = 2 → (∀ r ∈ s.host.pt, r.bay ≠ bay) →
        Completes (.camWrite dt f bay addr data) s fun t =>
          t.host.pt = s.host.pt ++ [⟨f, bay, addr, true, data, data.length, some (s.now + dt), s.ctrlLane bay, (s.bay bay).tagged⟩]) ∧
      (s.touchesOwned bay addr data.length = true → Completes (.camWrite dt f bay addr data) s fun t =>
        t.host.pt = s.host.pt ∧ (t.host.mboxLast.map MboxDone.result) = some 7))) ∧
  (∀ bay r t0, bay < 12 → s.ptFirst bay = some r → r.sentAt = some t0 → s.mboxOf r.fn = true → s.get BAY_STATE bay = 2 →
    (∀ data : List Nat, (∀ b ∈ data, b < 256) → (r.write = true ∨ data.length = r.len) →
      s.now + dt < t0 + s.get HL_PT_TIMEOUT_MS * 1000000 → Completes (.camReply dt bay data) s fun t =>
        t.host.mboxLast = some ⟨if r.write then 6 else 5, 1, 0, r.len, (s.advance dt).dc, if r.write then [] else data⟩) ∧
    (t0 + s.get HL_PT_TIMEOUT_MS * 1000000 ≤ s.now + dt → Completes (.ptTimeout dt bay) s fun t =>
      t.get HL_PT_TIMEOUTS = min 0xFFFFFFFF (s.get HL_PT_TIMEOUTS + 1) ∧
      (t.host.mboxLast.map MboxDone.result) = some 5)) ∧
  ((s.fn f).up = true → Completes (.linkDown dt f) s fun t => (t.fn f).up = false ∧ (t.fn f).gen = 0 ∧
    t.get HL_LINK_DOWNS = min 0xFFFFFFFF (s.get HL_LINK_DOWNS + 1) ∧ ∀ r ∈ t.host.pt, r.fn ≠ f) ∧
  (∀ gen width, (s.fn f).up = false → 1 ≤ gen → gen ≤ s.get HL_MAX_GEN → (f = 0 ∨ s.get HL_LINK_MODE_ACTIVE = 1) →
    width ∈ [1, 2, 4, 8] ∨ (width = 16 ∧ s.get HL_LINK_MODE_ACTIVE ≠ 1) → Completes (.hostLinkUp dt f gen width) s fun t =>
      (t.fn f).up = true ∧ (t.fn f).gen = gen ∧ (t.fn f).width = width)

/-- R10, R11, R73, R491 to R493, R496, R534, R535 (OBJECT_WRITE, HL_WINDOW_READ, HL_WINDOW_WRITE, SDO_DOWNLOAD, SDO_UPLOAD): by
every path EXP_WIDTH_NS takes a value within its limits, and refuses one below them, above them or of another length, each
with its abort code; LINE_PITCH takes a value in DORMANT and READY and refuses it in the other modes; DEF_CROP_MARGIN waits
for its boundary; a write where no index or no subindex is, of a read-only object, or of another length than a number's is
refused with its abort code; a 64-bit read of a window gives the value, a 32-bit read its low word and latches the high one,
and a read of what cannot be read gives 0 and records and tallies its error; a window write of EXP_WIDTH_NS takes a value
within its limits, and one of neither 4 nor 8 bytes is refused and tallied; an SDO download does the same with EXP_WIDTH_NS,
and an SDO upload answers the value, or its abort code. Where the spec leaves a choice here, the model's is named in log
entries 107 and 108. -/
def Obligations.DictionaryPaths : Prop := ∀ s : State, s.powered = true → ∀ dt,
  (∀ via b v, b < 12 →
    (100 ≤ v → v ≤ 1000000 → Completes (.objectWrite dt via (0x2310 + b) 2 (leBytes 4 v)) s fun t =>
      t.get EXP_WIDTH_NS b = v ∧ t.abort = 0) ∧
    (v < 100 → Completes (.objectWrite dt via (0x2310 + b) 2 (leBytes 4 v)) s fun t =>
      t.get EXP_WIDTH_NS b = s.get EXP_WIDTH_NS b ∧ t.abort = 0x06090032) ∧
    (1000000 < v → v < 2 ^ 32 → Completes (.objectWrite dt via (0x2310 + b) 2 (leBytes 4 v)) s fun t =>
      t.get EXP_WIDTH_NS b = s.get EXP_WIDTH_NS b ∧ t.abort = 0x06090031) ∧
    (∀ data : List Nat, data.length ≠ 4 → Completes (.objectWrite dt via (0x2310 + b) 2 data) s fun t =>
      t.get EXP_WIDTH_NS b = s.get EXP_WIDTH_NS b ∧ t.abort = 0x06070010)) ∧
  (∀ via v, 65536 ≤ v → v < 2 ^ 32 →
    (s.get MODE < 2 → Completes (.objectWrite dt via 0x2100 3 (leBytes 4 v)) s fun t => t.get LINE_PITCH = v ∧ t.abort = 0) ∧
    (2 ≤ s.get MODE → Completes (.objectWrite dt via 0x2100 3 (leBytes 4 v)) s fun t =>
      t.get LINE_PITCH = s.get LINE_PITCH ∧ t.abort = abortMode)) ∧
  (∀ via v, v ≤ 512 → Completes (.objectWrite dt via 0x2800 4 (leBytes 2 v)) s fun t =>
    t.held.look (DEF_CROP_MARGIN.key 0) = some v ∧ t.get DEF_CROP_MARGIN = s.get DEF_CROP_MARGIN ∧ t.abort = 0) ∧
  (∀ via index sub data, isMap index = false →
    (s.place index sub = .noIndex → Completes (.objectWrite dt via index sub data) s fun t =>
      t.abort = 0x06020000 ∧ t.blobs = s.blobs ∧ t.held = s.held) ∧
    (s.place index sub = .noSub → Completes (.objectWrite dt via index sub data) s fun t =>
      t.abort = 0x06090011 ∧ t.blobs = s.blobs ∧ t.held = s.held) ∧
    (∀ o i, s.place index sub = .obj o i → o.acc = .ro → Completes (.objectWrite dt via index sub data) s fun t =>
      t.abort = 0x06010002 ∧ t.blobs = s.blobs ∧ t.held = s.held) ∧
    (∀ o i, s.place index sub = .obj o i → o.ty.bytes ≠ 0 → o.acc ≠ .ro → data.length ≠ o.ty.bytes →
      Completes (.objectWrite dt via index sub data) s fun t =>
        t.abort = 0x06070010 ∧ t.blobs = s.blobs ∧ t.held = s.held)) ∧
  (∀ f offset, f < 2 → f < s.host.fns.length → offset < 2 ^ 27 → offset % 8 = 0 →
    let k := offset / 8
    let r := (((s.advance dt).volume HL_WINDOW_ACCESSES 0).rowsRead (k / 256) (k % 256)).windowValue f (k / 256) (k % 256)
    (∀ v, r = .ok v →
      (Completes (.hlWindowRead dt f offset 8) s fun t => (t.fn f).readValue = v ∧ t.abort = 0 ∧
        t.get HL_WINDOW_ACCESSES = (s.get HL_WINDOW_ACCESSES + 1) % 2 ^ 64) ∧
      (Completes (.hlWindowRead dt f offset 4) s fun t => (t.fn f).readValue = v % 2 ^ 32 ∧
        (t.fn f).readShadow = some (v / 2 ^ 32) ∧ t.abort = 0)) ∧
    (∀ c, r = .error c → Completes (.hlWindowRead dt f offset 8) s fun t => (t.fn f).readValue = 0 ∧ t.abort = c ∧
      (t.fn f).errAddr = offset / 8 ∧ (t.fn f).errCode = c ∧
      t.get HL_DICT_ERRORS = min 0xFFFFFFFF (s.get HL_DICT_ERRORS + 1))) ∧
  (∀ f b v, f < 2 → b < 12 → 100 ≤ v → v ≤ 1000000 →
    Completes (.hlWindowWrite dt f (8 * (256 * (0x2310 + b) + 2)) (leBytes 4 v)) s fun t =>
      t.get EXP_WIDTH_NS b = v ∧ t.abort = 0 ∧ t.get HL_WINDOW_ACCESSES = (s.get HL_WINDOW_ACCESSES + 1) % 2 ^ 64) ∧
  (∀ f offset (data : List Nat), f < 2 → offset < 2 ^ 27 → data.length ≠ 4 → data.length ≠ 8 →
    Completes (.hlWindowWrite dt f offset data) s fun t => t.abort = 0x06070010 ∧
      t.get HL_DICT_ERRORS = min 0xFFFFFFFF (s.get HL_DICT_ERRORS + 1)) ∧
  (s.coeOpen = true →
    (∀ b v, b < 12 → 100 ≤ v → v ≤ 1000000 → Completes (.sdoDownload dt (0x2310 + b) 2 false (leBytes 4 v)) s fun t =>
      t.get EXP_WIDTH_NS b = v ∧ t.abort = 0 ∧ t.ecat.answer = []) ∧
    (∀ index sub b, ((s.advance dt).rowsRead index sub).readAt .sdo index sub = .ok b → Completes (.sdoUpload dt index sub false) s fun t =>
      t.ecat.answer = b ∧ t.abort = 0) ∧
    (∀ index sub c, ((s.advance dt).rowsRead index sub).readAt .sdo index sub = .error c → Completes (.sdoUpload dt index sub false) s fun t =>
      t.ecat.answer = [] ∧ t.abort = c))

/-- R513, R516 to R518, R522, R525, R531 (AL_STATE_REQUEST, SM2_WATCHDOG, RXPDO_BUFFER, SYNC_LOST, SYNC0): a legal transition is
made, but PREOP to SAFEOP only with a good configuration, and BOOT only up to READY; an illegal one, an unknown state and a
bad configuration answer their AL status codes; in OP the process data watchdog leads to SAFEOP, is tallied and, where it is
set so, enters HOLD; the first buffer of the assigned length in OP sets its mapped objects outside DORMANT, and a rising HOLD
bit of a later one enters HOLD; in OP with DC synchronisation a lost sync is tallied; SYNC0 samples the web count and speed,
and it and SYNC1 fire their producers, where fewer than 15 of their events wait at the crossing. Where the spec leaves a
choice here, the model's is named in log entries 123, 124, 143 and 184. -/
def Obligations.FieldNetworkStates : Prop := ∀ s : State, s.powered = true → ∀ dt,
  (∀ target sm, target ∈ [1, 2, 3, 4, 8] → target ≠ s.get ECAT_STATE →
    ((s.get ECAT_STATE, target) ∈ alLegal → (s.get ECAT_STATE, target) ≠ (2, 4) → (target = 3 → s.get MODE ≤ 1) →
      Completes (.alStateRequest dt target sm) s fun t => t.get ECAT_STATE = target) ∧
    ((s.get ECAT_STATE, target) = (2, 4) → s.safeopCode sm = 0 → Completes (.alStateRequest dt target sm) s fun t =>
      t.get ECAT_STATE = 4 ∧ t.get ECAT_SYNC_MODE = s.get SM2_SYNC_MODE % 256) ∧
    ((s.get ECAT_STATE, target) = (2, 4) → s.safeopCode sm ≠ 0 → Completes (.alStateRequest dt target sm) s fun t =>
      t.get ECAT_STATE = 2 ∧ t.get ECAT_AL_STATUS_CODE = s.safeopCode sm) ∧
    (target = 3 → 1 < s.get MODE → Completes (.alStateRequest dt target sm) s fun t =>
      t.get ECAT_STATE = s.get ECAT_STATE ∧ t.get ECAT_AL_STATUS_CODE = 0x0011) ∧
    (¬(s.get ECAT_STATE, target) ∈ alLegal → Completes (.alStateRequest dt target sm) s fun t =>
      t.get ECAT_STATE = s.get ECAT_STATE ∧ t.get ECAT_AL_STATUS_CODE = 0x0011)) ∧
  (∀ target sm, ¬target ∈ [1, 2, 3, 4, 8] → Completes (.alStateRequest dt target sm) s fun t =>
    t.get ECAT_STATE = s.get ECAT_STATE ∧ t.get ECAT_AL_STATUS_CODE = 0x0012) ∧
  (s.get ECAT_STATE = 8 →
    (Completes (.sm2Watchdog dt) s fun t => t.get ECAT_STATE = 4 ∧ t.get ECAT_AL_STATUS_CODE = 0x001B ∧
      t.get PDO_WD_EXPIRED = min 0xFFFFFFFF (s.get PDO_WD_EXPIRED + 1) ∧
      (s.get PDO_WD_ACTION = 1 → s.get MODE ≠ 5 → t.get MODE = 5)) ∧
    (∀ buffer : List Nat, (∀ b ∈ buffer, b < 256) → buffer.length = divRoundUp (s.rxBits s.ecat.rxCount) 8 →
      (s.ecat.rxPrev = none → s.get MODE ≠ 0 → Completes (.rxpdoBuffer dt buffer) s fun t => t.ecat.rxPrev = some buffer ∧
        ∀ o ∈ rxObjs, ∀ v, rxValue s.rxEntries o buffer = some v → t.get o = o.unreserved v % 2 ^ o.ty.bits) ∧
      (∀ prev, s.ecat.rxPrev = some prev → s.get MODE ≠ 0 → s.get MODE ≠ 5 →
        rises s.rxEntries PDO_CONTROL 0 prev buffer = true → Completes (.rxpdoBuffer dt buffer) s fun t => t.get MODE = 5)) ∧
    (s.get ECAT_SYNC_MODE = 2 → Completes (.syncLost dt) s fun t => t.get SYNC_LOST = min 0xFFFFFFFF (s.get SYNC_LOST + 1))) ∧
  (Completes (.sync0 dt 0) s fun t => t.get PDO_WEB_COUNT = s.get WEB_COUNT % 2 ^ 64 ∧
    t.get PDO_WEB_SPEED = s.get WEB_SPEED_MM_S % 2 ^ 32) ∧
  (∀ which, which < 2 → (s.evt.xing.look (0x83 + which)).getD 0 < 15 → Completes (.sync0 dt which) s fun t =>
    t.evt.xing.look (0x83 + which) = some ((s.evt.xing.look (0x83 + which)).getD 0 + 1))

/-- R519 to R521, R513, R533 to R535, R542, R544 (DC_TIME_STEP, DC_LOCK_LOST, DC_LOCKED, SDO_INFO, SDO_SEGMENT_TIMEOUT,
MAILBOX_UNSUPPORTED, FOE_WRITE): the system time follows a step, and one beyond 1 µs is tallied; a lock is lost beyond 1 µs
and regained; the object list and a missing index are answered; a segment that times out aborts its transfer; a protocol that
is not supported is answered with the mailbox error; firmware written in BOOT is checked, and its result shows. Where the spec
leaves a choice here, the model's is named in log entries 90, 126 and 144. -/
def Obligations.ClocksAndFiles : Prop := ∀ s : State, s.powered = true → ∀ dt,
  (∀ delta : Int, Completes (.dcTimeStep dt delta) s fun t => t.dc = ofSigned 64 ((s.advance dt).dc + delta) ∧
    (1000 < delta.natAbs → t.get DC_TIME_STEPS = min 0xFFFFFFFF (s.get DC_TIME_STEPS + 1) ∧
      t.get DC_STEP_LAST_NS = ofSigned 64 delta) ∧
    (delta.natAbs ≤ 1000 → t.get DC_TIME_STEPS = s.get DC_TIME_STEPS)) ∧
  (∀ d : Int, s.get DC_LOCKED = 1 → 1000 < d.natAbs → Completes (.dcLockLost dt d) s fun t =>
    t.get DC_LOCKED = 0 ∧ t.ecat.dcLost = true) ∧
  (∀ d : Int, d.natAbs ≤ 1000 → Completes (.dcLockLost dt d) s fun t => t.get DC_LOCKED = s.get DC_LOCKED) ∧
  (Completes (.dcLocked dt) s fun t => t.get DC_LOCKED = 1 ∧ t.ecat.dcLost = false) ∧
  (s.coeOpen = true →
    (∀ index sub, Completes (.sdoInfo dt 1 index sub) s fun t => t.ecat.answer = allIndices.flatMap (leBytes 2) ∧ t.abort = 0) ∧
    (∀ kind index sub, kind ≠ 1 → subsOf index = [] → isMap index = false → Completes (.sdoInfo dt kind index sub) s fun t =>
      t.ecat.answer = [] ∧ t.abort = 0x06020000) ∧
    (Completes (.sdoSegmentTimeout dt) s fun t => t.ecat.answer = [] ∧ t.abort = 0x05040000)) ∧
  (∀ proto, s.get ECAT_STATE ≠ 1 → proto ≠ 3 → proto ≠ 4 → Completes (.mailboxUnsupported dt proto) s fun t =>
    t.ecat.answer = [0x01, 0x00, 0x02, 0x00]) ∧
  (∀ name (image : List Nat) ok, (∀ b ∈ image, b < 256) → name.take 5 = [0x4D, 0x31, 0x32, 0x46, 0x57] → image.length ≤ imageLimit →
    (s.get MODE ≤ 1 → s.get ECAT_STATE = 3 → imageCheck image ok = 0 → Completes (.foeWrite dt name 0 image ok) s fun t =>
      t.get FW_STANDBY_STATE = 1 ∧ t.get FW_RESULT = 0 ∧ t.abort = 0) ∧
    (s.get MODE ≤ 1 → s.get ECAT_STATE = 3 → imageCheck image ok ≠ 0 → Completes (.foeWrite dt name 0 image ok) s fun t =>
      t.get FW_STANDBY_STATE = 2 ∧ t.get FW_RESULT = imageCheck image ok ∧
      t.ecat.answer = leBytes 4 0x800B ++ [imageCheck image ok]) ∧
    (1 < s.get MODE → s.get ECAT_STATE ≠ 1 → Completes (.foeWrite dt name 0 image ok) s fun t =>
      t.get FW_RESULT = 4 ∧ t.nv = s.nv))

/-- R536, R537, R539, R543 (STORE_PARAMETERS, RESTORE_DEFAULTS, M8_MIRROR_WRITE, FW_ACTIVATE): "save" makes a commit to the
logbook in DORMANT and READY and is refused in the other modes, "load" has the stored set discarded at the next cold reset,
and another word is refused; a write to the mirror's job slot sets the M12's; a VALID standby image is selected for the next
boot in DORMANT and READY, and any other is refused. Where the spec leaves a choice here, the model's is named in log entries
90 and 113. -/
def Obligations.ParametersAndFirmware : Prop := ∀ s : State, s.powered = true → ∀ dt via,
  (s.get MODE ≤ 1 → Completes (.storeParameters dt via 0x65766173) s fun t => t.abort = 0 ∧ t.nv.dropStored = false ∧
    t.get LOGBOOK_COMMITS = (s.get LOGBOOK_COMMITS + 1) % 2 ^ 64) ∧
  (1 < s.get MODE → Completes (.storeParameters dt via 0x65766173) s fun t => t.abort = abortMode ∧ t.nv = s.nv) ∧
  (∀ v, v < 2 ^ 32 → v ≠ 0x65766173 → Completes (.storeParameters dt via v) s fun t => t.abort = 0x06090030 ∧ t.nv = s.nv) ∧
  (Completes (.restoreDefaults dt via 0x64616F6C) s fun t => t.abort = 0 ∧ t.nv.dropStored = true) ∧
  (∀ v, v < 2 ^ 32 → v ≠ 0x64616F6C → Completes (.restoreDefaults dt via v) s fun t => t.abort = 0x06090030 ∧ t.nv = s.nv) ∧
  (∀ v, v ≤ 4095 → Completes (.m8MirrorWrite dt via 0x5040 1 v) s fun t => t.get PRELOAD_SLOT = v ∧ t.abort = 0) ∧
  (s.get MODE < 2 → s.get FW_STANDBY_STATE = 1 → Completes (.fwActivate dt via) s fun t => t.abort = 0 ∧
    t.nv.active = 1 - s.get FW_IMAGE_ACTIVE ∧ t.nv.previous = s.get FW_IMAGE_ACTIVE ∧ t.nv.bootTries = 0) ∧
  (2 ≤ s.get MODE ∨ s.get FW_STANDBY_STATE ≠ 1 → Completes (.fwActivate dt via) s fun t => t.abort = abortMode ∧ t.nv = s.nv)

/-- R46, R47, R539 (PRELOAD, LOAD_COMPLETE, M8_JOB_LOAD): a preload is refused outside READY, MAKEREADY and INSPECT and while a
load or switch is under way, fails on an empty slot, and else loads; a load that nothing holds up ends FAILED with CRC_FAIL or
LOADED with OK, and in DORMANT and HOLD, while the wharf is stopped and while it waits for a decompressor it does not end; the mirror's load preloads and is remembered. Where the spec leaves a
choice here, the model's is named in log entries 87 and 88. -/
def Obligations.JobsLoad : Prop := ∀ s : State, s.powered = true →
  (∀ dt via,
    (s.get MODE ≠ 1 → s.get MODE ≠ 2 → s.get MODE ≠ 3 → Completes (.preload dt via) s fun t =>
      t.get SWITCH_RESULT = 7 ∧ t.get SWITCH_STATE = s.get SWITCH_STATE ∧ t.web = s.web ∧ t.abort = abortMode) ∧
    (s.get MODE = 1 ∨ s.get MODE = 2 ∨ s.get MODE = 3 →
      (s.get SWITCH_STATE ≠ 0 → s.get SWITCH_STATE ≠ 2 → s.get SWITCH_STATE ≠ 5 → Completes (.preload dt via) s fun t =>
        t.get SWITCH_RESULT = 3 ∧ t.get SWITCH_STATE = s.get SWITCH_STATE ∧ t.web = s.web ∧ t.abort = abortBusy) ∧
      (s.get SWITCH_STATE = 0 ∨ s.get SWITCH_STATE = 2 ∨ s.get SWITCH_STATE = 5 →
        (s.nv.pkgs.look (s.get PRELOAD_SLOT) = none → Completes (.preload dt via) s fun t =>
          t.get SWITCH_STATE = 5 ∧ t.get SWITCH_RESULT = 1 ∧ t.web.pendingJob = none ∧ t.abort = 0) ∧
        (∀ p, s.nv.pkgs.look (s.get PRELOAD_SLOT) = some p →
          (Completes (.preload dt via) s fun t => t.get SWITCH_STATE = 1 ∧ t.web.pendingJob = some p ∧
            t.web.pendingSlot = s.get PRELOAD_SLOT ∧ t.abort = 0) ∧
          (Completes (.m8JobLoad dt via) s fun t => t.get SWITCH_STATE = 1 ∧ t.web.pendingJob = some p ∧
            t.ecat.m8Load = true ∧ t.abort = 0))))) ∧
  (∀ dt p, s.get MODE ≠ 0 → s.get MODE ≠ 5 → s.get WH_ALL_STOPPED ≠ 1 → s.loadEngine.wharf.load ≠ 2 → s.dramUnit.reload = [] → s.web.pendingJob = some p → s.get SWITCH_STATE = 1 →
    s.learningAny = false → s.get TIDE_PENDING ≠ 1 → (∀ b < 12, s.get EASEL_PAL_PENDING (2 * (b / 2) + s.ctxOf b) ≠ 1) →
    (s.loadOk p s.web.pendingSlot = false → Completes (.loadComplete dt) s fun t =>
      t.get SWITCH_STATE = 5 ∧ t.get SWITCH_RESULT = 2 ∧ t.web.pendingJob = none) ∧
    (s.loadOk p s.web.pendingSlot = true → s.ecat.m8Load = false → Completes (.loadComplete dt) s fun t =>
      t.get SWITCH_STATE = 2 ∧ t.get SWITCH_RESULT = 0 ∧ t.get REG_SLOT_ACTIVE = s.get REG_SLOT_ACTIVE)) ∧
  (∀ dt, s.get MODE = 0 ∨ s.get MODE = 5 ∨ s.get WH_ALL_STOPPED = 1 ∨ s.loadEngine.wharf.load = 2 →
    Completes (.loadComplete dt) s fun t => t.web = s.web ∧ t.get SWITCH_STATE = s.get SWITCH_STATE)

/-- R48, R49, R52, R55 (SWITCH_ARM, SWITCH_CANCEL): an arm is refused with MODE, BUSY, NO_REFERENCE, RESOURCE or SWITCH_PAST; else
the job waits ARMED in MAKEREADY and INSPECT, and in READY becomes active at once; a cancel leaves an armed job LOADED with
CANCELLED and has no effect otherwise. Where the spec leaves a choice here, the model's is named in log entries 87 and 88. -/
def Obligations.JobsSwitch : Prop := ∀ s : State, s.powered = true → ∀ dt via,
  (s.get MODE ≠ 1 → s.get MODE ≠ 2 → s.get MODE ≠ 3 → Completes (.switchArm dt via) s fun t =>
    t.get SWITCH_RESULT = 7 ∧ t.get SWITCH_STATE = s.get SWITCH_STATE ∧ t.web = s.web ∧ t.abort = abortMode) ∧
  (s.get MODE = 1 ∨ s.get MODE = 2 ∨ s.get MODE = 3 →
    (s.get SWITCH_STATE ≠ 2 → Completes (.switchArm dt via) s fun t =>
      t.get SWITCH_RESULT = 3 ∧ t.get SWITCH_STATE = s.get SWITCH_STATE ∧ t.web = s.web ∧ t.abort = abortBusy) ∧
    (∀ p, s.get SWITCH_STATE = 2 → s.web.pendingJob = some p →
      let brings := (Package.views p).all (s.brings p s.web.pendingSlot)
      let beyond := s.exceeds p s.web.pendingSlot
      let past := s.get SWITCH_MODE = 0 ∧ countDiff (s.get SWITCH_COUNT) (s.get WEB_HIGH_WATER) ≤ 0
      (s.get MODE = 3 → brings = false → Completes (.switchArm dt via) s fun t =>
        t.get SWITCH_RESULT = 4 ∧ t.get SWITCH_STATE = 2 ∧ t.abort = abortMode) ∧
      (s.get MODE ≠ 3 ∨ brings = true → beyond = true → Completes (.switchArm dt via) s fun t =>
        t.get SWITCH_RESULT = 6 ∧ t.get SWITCH_STATE = 2 ∧ t.abort = 0x06040043) ∧
      (s.get MODE ≠ 3 ∨ brings = true → beyond = false → s.get MODE ≠ 1 →
        (past → Completes (.switchArm dt via) s fun t =>
          t.get SWITCH_RESULT = 5 ∧ t.get SWITCH_STATE = 2 ∧ t.abort = abortMode) ∧
        (¬ past → Completes (.switchArm dt via) s fun t => t.get SWITCH_RESULT = 0 ∧ t.get SWITCH_STATE = 3 ∧ t.abort = 0 ∧
          t.web.armed = some (s.get SWITCH_MODE, s.get SWITCH_COUNT, s.get SPLICE_INPUT, s.int SPLICE_OFFSET) ∧
          t.web.switchAt = (if s.get SWITCH_MODE = 0 then some (s.get SWITCH_COUNT) else none))) ∧
      (s.get MODE = 1 → beyond = false → Completes (.switchArm dt via) s fun t =>
        t.get SWITCH_RESULT = 0 ∧ t.get SWITCH_STATE = 0 ∧ t.get ACTIVE_SLOT = s.web.pendingSlot % 2 ^ 16 ∧
        t.get REG_SLOT_ACTIVE = 1 - s.get REG_SLOT_ACTIVE ∧ t.get SWITCH_LINE = s.get LINE_NUMBER % 2 ^ 64 ∧ t.abort = 0))) ∧
  (s.get SWITCH_STATE = 3 → Completes (.switchCancel dt via) s fun t =>
    t.get SWITCH_STATE = 2 ∧ t.get SWITCH_RESULT = 8 ∧ t.web.armed = none ∧ t.web.switchAt = none ∧ t.abort = 0) ∧
  (s.get SWITCH_STATE ≠ 3 → Completes (.switchCancel dt via) s fun t =>
    t.get SWITCH_STATE = s.get SWITCH_STATE ∧ t.web = s.web ∧ t.abort = 0)

/-- R575 to R580 (POWER_CHECK, PSU_STAGE_FAULT, MAINS_HALF_CYCLE, MAINS_LOSS, MAINS_POWER_DOWN): capacity and required power are
shown, and POWER_DEFICIT stands while the capacity is less or the mains are lost; a stage that fails is tallied and at its
third fault retired; half-cycles lead between OK and LOW_LINE, and ten good ones out of LOSS; a loss of the mains is tallied,
sheds the lights and enters HOLD, and 20 ms later every domain goes off. Where the spec leaves a choice here, the model's is
named in log entries 46 and 47. -/
def Obligations.PowerStagesAndMains : Prop := ∀ s : State, s.powered = true →
  (∀ dt,
    (Completes (.powerCheck dt) s fun t => t.get POWER_CAPACITY_W = s.capacity % 2 ^ 16 ∧
      t.get POWER_REQUIRED_W = (s.required + 5) / 10 % 2 ^ 16 ∧
      bit (t.get HOLD_CAUSE) 4 = decide (10 * s.capacity < s.required ∨ s.get MAINS_STATE = 2)) ∧
    (10 * s.capacity < s.required → bit (s.get HOLD_CAUSE) 4 = false → Completes (.powerCheck dt) s fun t => t.get MODE = 5)) ∧
  (∀ dt i, i < 3 →
    (s.get PSU_STAGE_STATE i = 0 → Completes (.psuStageFault dt i) s fun t =>
      t.get PSU_STAGE_FAULTS = min 0xFFFFFFFF (s.get PSU_STAGE_FAULTS + 1) ∧
      t.get PSU_LIFE_FAULTS i = min 3 (s.get PSU_LIFE_FAULTS i + 1) ∧
      t.get PSU_STAGE_STATE i = if 2 ≤ s.get PSU_LIFE_FAULTS i then 3 else 1) ∧
    (s.get PSU_STAGE_STATE i ≠ 0 → Completes (.psuStageFault dt i) s fun t =>
      t.get PSU_STAGE_STATE i = s.get PSU_STAGE_STATE i ∧ t.get PSU_STAGE_FAULTS = s.get PSU_STAGE_FAULTS)) ∧
  (∀ dt peak rms hz, Completes (.mainsHalfCycle dt peak rms hz) s fun t =>
    t.get MAINS_VRMS = rms % 2 ^ 16 ∧ t.get MAINS_HZ = hz % 2 ^ 16 ∧
    (peak ≤ 80 → t.power.goodRun = 0 ∧ t.get MAINS_STATE = s.get MAINS_STATE) ∧
    (80 < peak →
      (s.get MAINS_STATE = 0 → t.get MAINS_STATE = if rms < 1800 then 1 else 0) ∧
      (s.get MAINS_STATE = 1 → t.get MAINS_STATE = if 1900 ≤ rms then 0 else 1) ∧
      (s.get MAINS_STATE = 2 → s.power.goodRun < 9 → t.get MAINS_STATE = 2 ∧ t.power.goodRun = s.power.goodRun + 1) ∧
      (s.get MAINS_STATE = 2 → 9 ≤ s.power.goodRun → t.get MAINS_STATE = if 1900 ≤ rms then 0 else 1))) ∧
  (∀ dt, s.power.peakAt + 12000000 ≤ s.now + dt → s.power.lossAt = none →
    (s.get MAINS_STATE ≠ 2 → Completes (.mainsLoss dt) s fun t => t.get MAINS_STATE = 2 ∧
      t.get MAINS_LOSS_COUNT = min 0xFFFFFFFF (s.get MAINS_LOSS_COUNT + 1) ∧ bit (t.get HOLD_CAUSE) 4 = true ∧
      (bit (s.get HOLD_CAUSE) 4 = false → t.get MODE = 5) ∧ ∀ ch < 12, t.get BAR_CURRENT_MA ch = 0) ∧
    (s.get MAINS_STATE = 2 → Completes (.mainsLoss dt) s fun t => t.power.lossAt = some (s.now + dt) ∧
      t.get MAINS_LOSS_COUNT = s.get MAINS_LOSS_COUNT)) ∧
  (∀ dt t0, s.power.lossAt = some t0 → s.get MAINS_STATE = 2 →
    (t0 + 20000000 ≤ s.now + dt → Completes (.mainsPowerDown dt) s fun t =>
      t.powered = false ∧ (∀ d < 56, t.get PD_STATE d = 0) ∧ ∀ ch < 12, t.get BAR_CURRENT_MA ch = 0) ∧
    (s.now + dt < t0 + 20000000 → Completes (.mainsPowerDown dt) s fun t =>
      t.powered = true ∧ ∀ d < 56, t.get PD_STATE d = s.get PD_STATE d))

/-- R593, R597, R659 (TEMP_SAMPLE, THERMAL_TRIP, WDT_EXPIRY, SUPERVISOR_RESTART, IO_SUPPLY_LOW, IO_SUPPLY_RETURN): temperatures
are shown and OVERTEMP is set above and cleared below their limits; a die that stays above 115 °C for 1 ms takes the power
away; a watchdog that expires enters HOLD, and 2 s later the supervisor restarts with a warm reset; the I/O supply below 18 V
is tallied once per fall, and inputs then read 0. Where the spec leaves a choice here, the model's is named in log entry 103. -/
def Obligations.HeatWatchdogAndSupply : Prop := ∀ s : State, s.powered = true →
  (∀ dt die inlet, Completes (.tempSample dt die inlet) s fun t =>
    t.get TEMP_DIE_MC = ofSigned 32 die ∧ t.get TEMP_INLET_MC = ofSigned 32 inlet ∧
    (105000 < die ∨ 55000 < inlet → bit (t.get HOLD_CAUSE) 5 = true ∧ (bit (s.get HOLD_CAUSE) 5 = false → t.get MODE = 5)) ∧
    (die < 95000 → inlet < 50000 → bit (t.get HOLD_CAUSE) 5 = false ∧ t.get MODE = s.get MODE) ∧
    (die ≤ 105000 → inlet ≤ 55000 → 95000 ≤ die ∨ 50000 ≤ inlet → t.get HOLD_CAUSE = s.get HOLD_CAUSE)) ∧
  (∀ dt t0, s.power.hotAt = some t0 →
    (t0 + 1000000 ≤ s.now + dt → Completes (.thermalTrip dt) s fun t => t.powered = false ∧ t.power.tripped = true) ∧
    (s.now + dt < t0 + 1000000 → Completes (.thermalTrip dt) s fun t => t.powered = true)) ∧
  (∀ dt, Completes (.wdtExpiry dt) s fun t => bit (t.get HOLD_CAUSE) 1 = true ∧
    (bit (s.get HOLD_CAUSE) 1 = false → t.get MODE = 5)) ∧
  (∀ dt t0, s.power.wdtAt = some t0 →
    (t0 + 2000000000 ≤ s.now + dt → Completes (.supervisorRestart dt) s fun t =>
      t.get SUPERVISOR_RESTARTS = min 0xFFFFFFFF (s.get SUPERVISOR_RESTARTS + 1) ∧ t.get RESET_CAUSE_LAST = 5 ∧
      t.get RESET_WARM_COUNT = min 0xFFFFFFFF (s.get RESET_WARM_COUNT + 1)) ∧
    (s.now + dt < t0 + 2000000000 → Completes (.supervisorRestart dt) s fun t =>
      t.get RESET_WARM_COUNT = s.get RESET_WARM_COUNT ∧ t.get MODE = s.get MODE)) ∧
  (∀ dt mv,
    (mv < 18000 → Completes (.ioSupplyLow dt mv) s fun t => t.get IO_SUPPLY_MV = mv ∧ t.get IO_SUPPLY_LOW = 1 ∧
      (s.get IO_SUPPLY_LOW = 0 → t.get IO_SUPPLY_LOSS = min 0xFFFFFFFF (s.get IO_SUPPLY_LOSS + 1) ∧
        ∀ i < 16, bit t.motion.inputs i = false) ∧
      (s.get IO_SUPPLY_LOW ≠ 0 → t.get IO_SUPPLY_LOSS = s.get IO_SUPPLY_LOSS)) ∧
    (18000 ≤ mv → Completes (.ioSupplyReturn dt mv) s fun t => t.get IO_SUPPLY_MV = mv % 2 ^ 16 ∧ t.get IO_SUPPLY_LOW = 0 ∧
      t.get IO_SUPPLY_LOSS = s.get IO_SUPPLY_LOSS))

/-- R61, R104, R581 to R583, R587, R588, R601, R602 (DOMAIN_POWERGOOD, DOMAIN_POWERGOOD_TIMEOUT, ISLAND_RELEASE,
ISLAND_LOCK_TIMEOUT, ISLAND_WAKE, MOORING_TOKEN, BRINGUP_END): domains come up in order, each releasing its island; one
without power-good is tallied and named, and reads FAULT but for domains 26 to 37; a released island runs and awaits its
mooring token; a lock that does not come restarts the generator once, and the second time is named: a bay then reads NO_SPARE,
a package in use leaves its channel, and an island of no unit that has spares enters HOLD; a crossing wakes a stopped island
but not in HOLD; at the end of the bring-up of the bays in use and of the cascade port READY is entered, or LANE_FAIL leaves
DORMANT and a DOWN port DOWN. Where the spec leaves a choice here, the model's is named in log entries 105 and 199. -/
def Obligations.DomainsAndIslands : Prop := ∀ s : State, s.powered = true →
  (∀ dt d rest, d < 51 → s.power.rise = d :: rest → s.testing = false →
    (Completes (.domainPowergood dt d) s fun t => t.get PD_STATE d = 1 ∧ t.get ISLAND_STATE d = 3 ∧ t.power.rise = rest) ∧
    (Completes (.domainPowergoodTimeout dt d) s fun t =>
      t.get PD_POWERGOOD_FAIL = min 0xFFFFFFFF (s.get PD_POWERGOOD_FAIL + 1) ∧ t.get ISLAND_FAIL_LAST = d ∧
      (d < 26 ∨ 38 ≤ d → t.get PD_STATE d = 2) ∧
      (33 ≤ d → d < 38 → bit (s.get HOLD_CAUSE) 2 = false → bit (t.get HOLD_CAUSE) 2 = true ∧ t.get MODE = 5)) ∧
    (∀ e, e < 56 → e ≠ d → Completes (.domainPowergood dt e) s fun t =>
      t.get PD_STATE e = s.get PD_STATE e ∧ t.power.rise = d :: rest)) ∧
  (∀ dt i cycles, i < 74 →
    (s.get ISLAND_STATE i = 3 → 1024 ≤ cycles → Completes (.islandRelease dt i cycles) s fun t => t.get ISLAND_STATE i = 2 ∧
      (i < 38 ∨ 50 < i ∨ s.get MODE_PENDING ≠ 1 → t.power.moor = insertNat i s.power.moor) ∧
      (38 ≤ i → i < 50 → s.get MODE_PENDING = 1 → t.get BAY_STATE (i - 38) = 1)) ∧
    (s.get ISLAND_STATE i ≠ 3 ∨ cycles < 1024 → Completes (.islandRelease dt i cycles) s fun t =>
      t.get ISLAND_STATE i = s.get ISLAND_STATE i ∧ t.power.moor = s.power.moor)) ∧
  (∀ dt i, i < 74 → s.get ISLAND_STATE i = 3 →
    (s.power.lockRetry.contains i = false → Completes (.islandLockTimeout dt i) s fun t => t.get ISLAND_STATE i = 3 ∧
      t.get ISLAND_LOCK_RETRY = min 0xFFFFFFFF (s.get ISLAND_LOCK_RETRY + 1) ∧ t.power.lockRetry = insertNat i s.power.lockRetry) ∧
    (s.power.lockRetry.contains i = true → Completes (.islandLockTimeout dt i) s fun t => t.get ISLAND_FAIL_LAST = i ∧
      ((33 ≤ i ∧ i < 38) ∨ i = 51 ∨ 65 ≤ i → bit (s.get HOLD_CAUSE) 2 = false → bit (t.get HOLD_CAUSE) 2 = true ∧ t.get MODE = 5 ∧
        (s.get MODE ≠ 0 → t.get ISLAND_STATE i = 4)) ∧
      (38 ≤ i → i < 50 → t.get BAY_RESULT (i - 38) = 8 ∧ t.get ISLAND_STATE i = 4) ∧
      (52 ≤ i → i < 65 → s.get DRAM_PKG_STATE (i - 52) = 0 → s.get DRAM_PKG_CHANNEL (i - 52) < 0xFF →
        t.get DRAM_PKG_CHANNEL (i - 52) = 0xFF))) ∧
  (∀ dt i, i < 74 →
    (s.canWake i = true → s.get MODE ≠ 5 → Completes (.islandWake dt i) s fun t => t.get ISLAND_STATE i = 2 ∧
      t.get ISLAND_WAKES = (s.get ISLAND_WAKES + 1) % 2 ^ 64) ∧
    (s.canWake i = false ∨ s.get MODE = 5 → Completes (.islandWake dt i) s fun t =>
      t.get ISLAND_STATE i = s.get ISLAND_STATE i ∧ t.get ISLAND_WAKES = s.get ISLAND_WAKES) ∧
    (s.power.moor.contains i = true → Completes (.mooringToken dt i) s fun t =>
      t.get FERRY_MOORINGS = (s.get FERRY_MOORINGS + 1) % 2 ^ 64 ∧ t.power.moor.contains i = false) ∧
    (s.power.moor.contains i = false → Completes (.mooringToken dt i) s fun t =>
      t.get FERRY_MOORINGS = s.get FERRY_MOORINGS ∧ t.power = s.power)) ∧
  (∀ dt, s.get MODE_PENDING = 1 → s.get MODE = 0 → s.power.rise = [] → (∀ i < 51, s.get ISLAND_STATE i ≠ 3) →
    ((∀ q < 13, s.quadUsed q = true → s.get BAY_STATE q = 2) → Completes (.bringupEnd dt) s fun t =>
      t.get MODE = 1 ∧ t.get MODE_PENDING = 0xFF ∧ (s.get MODE_RESULT = 1 → t.get MODE_RESULT = 0)) ∧
    (∀ q, q < 13 → s.quadUsed q = true → s.get BAY_STATE q = 3 →
      (∀ c < 13, s.quadUsed c = true → s.get BAY_STATE c = 2 ∨ s.get BAY_STATE c = 3) → Completes (.bringupEnd dt) s fun t =>
        t.get MODE = 0 ∧ t.get MODE_PENDING = 0xFF ∧ (s.get MODE_RESULT = 1 → t.get MODE_RESULT = 8) ∧
        t.get BAY_STATE q = 3 ∧ ∀ d < 51, t.get PD_STATE d = 0))

/-- R589 to R592, R606, R609, R615, R541, R597 (RESET_WARM, RESET_COLD, RESET_BUTTON, AO_BROWNOUT, POWER_ON): a warm reset is
accepted in every mode, is tallied with its cause, cuts the rings and domains off, cancels a pending transition and ends in
DORMANT, or in HOLD while a cause stands; a cold reset brings back no package that was not stored and, where the two copies of
the logbook agree, every one whose slot has a valid PORTFOLIO entry (not said of RESET_COLD, which first writes the counters);
it leaves the host's memory, empties module DRAM and boots the active image, or the previous one after three failures;
power-on after a thermal trip waits 60 s. Where the spec leaves a choice here, the model's is named in log entries 56, 102,
103, 104 and 185. -/
def Obligations.Resets : Prop := ∀ s : State,
  let kept (s t : State) : Prop := (∀ e ∈ s.nv.lives, e.in0 = e.in1) →
    t.nv.pkgs = s.nv.pkgs.filter (fun e => (s.nv.entry 0x0A e.1).isSome)
  (s.powered = true → ∀ dt via,
    Completes (.resetWarm dt via) s fun t => t.get RESET_CAUSE_LAST = 1 ∧
      t.get RESET_WARM_COUNT = min 0xFFFFFFFF (s.get RESET_WARM_COUNT + 1) ∧ t.get RESET_COLD_COUNT = s.get RESET_COLD_COUNT ∧
      t.get MODE_PENDING = 0xFF ∧ (∀ d < 51, t.get PD_STATE d = 0 ∧ t.get ISLAND_STATE d = 0) ∧ (∀ r < 5, t.get RING_ENABLE r = 0) ∧
      (setBit (setBit (s.get HOLD_CAUSE) 0 false) 2 false = 0 → t.get MODE = 0 ∧ t.get HOLD_CAUSE = 0 ∧
        ∀ ch < 12, t.get BAR_CURRENT_MA ch = s.get BAR_CURRENT_MA ch) ∧
      (setBit (setBit (s.get HOLD_CAUSE) 0 false) 2 false ≠ 0 → s.get HOLD_CAUSE < 2 ^ 32 → t.get MODE = 5 ∧
        t.get HOLD_FROM_DORMANT = 1)) ∧
  (s.powered = true → ∀ dt held fails,
    (held < 2000 → Completes (.resetButton dt held fails) s fun t => t.get RESET_CAUSE_LAST = 3 ∧
      t.get RESET_WARM_COUNT = min 0xFFFFFFFF (s.get RESET_WARM_COUNT + 1)) ∧
    (2000 ≤ held → held < 5000 → Completes (.resetButton dt held fails) s fun t => t = { s.advance dt with pending := s.pending }) ∧
    (5000 ≤ held → Completes (.resetButton dt held fails) s fun t => t.get RESET_CAUSE_LAST = 4 ∧ t.dram = [] ∧
      kept s t ∧ t.host.hostMem = s.host.hostMem)) ∧
  (s.powered = true → ∀ dt via fails,
    (Completes (.resetCold dt via fails) s fun t => t.get RESET_CAUSE_LAST = 2 ∧ t.dram = [] ∧
      (∀ e ∈ t.nv.pkgs, e ∈ s.nv.pkgs) ∧ t.host.hostMem = s.host.hostMem) ∧
    (Completes (.aoBrownout dt fails) s fun t => t.get RESET_CAUSE_LAST = 8 ∧ t.dram = [] ∧ kept s t ∧
      t.host.hostMem = s.host.hostMem ∧ t.nv.bootTries = 0 ∧
      t.nv.active = (if s.nv.active ≠ s.nv.previous ∧ 3 ≤ s.nv.bootTries + fails then s.nv.previous else s.nv.active) ∧
      t.get FW_IMAGE_ACTIVE = t.nv.active % 2 ^ 8)) ∧
  (∀ dt stages fails,
    (s.power.tripped = true → s.now + dt < s.power.offAt.getD 0 + 60000000000 → Completes (.powerOn dt stages fails) s fun t =>
      t = s.advance dt) ∧
    (s.power.tripped = false ∨ s.power.offAt.getD 0 + 60000000000 ≤ s.now + dt → Completes (.powerOn dt stages fails) s fun t =>
      t.powered = true ∧ t.dram = [] ∧ kept s t ∧ t.pending = s.pending ∧
      t.get RESET_CAUSE_LAST = (if s.power.tripped then 6 else if s.power.offAt.isSome then 7 else 0) ∧
      ∀ i < 3, stages[i]? = some [] → t.get PSU_STAGE_STATE i = 2))

/-- R611, R619, R632 to R635, R651 (LOGBOOK_COUNTERS_TIMER, LOGBOOK_WEAR_TIMER, LOGBOOK_FACTORY_RESET, RO_MEASURE,
FAN_DEFICIT, FAN_TRAY_CHANGE, OBS_SAMPLE_TIMER): while the supervisor runs, the logbook takes the counters every 10 minutes
and the wear every 24 hours; a factory reset needs its value and DORMANT and kills the settings, jobs and snapshots; a powered
tile's drift is shown and more than 6 % marks it; a slow fan is marked and retired, and a new tray returns every fan; the
sample block is renewed every millisecond. Where the spec leaves a choice here, the model's is named in log entries 45, 54,
183 and 186. -/
def Obligations.LogbookAndWear : Prop := ∀ s : State, s.powered = true →
  (∀ dt,
    (s.power.halted = false → s.upkeep.countersAt + 600000000000 ≤ s.now + dt →
      Completes (.logbookCountersTimer dt) s fun t =>
        t.get LOGBOOK_COMMITS = (s.get LOGBOOK_COMMITS + 1) % 2 ^ 64 ∧ t.upkeep.countersAt = s.now + dt) ∧
    (s.power.halted = true ∨ s.now + dt < s.upkeep.countersAt + 600000000000 →
      Completes (.logbookCountersTimer dt) s fun t => t.nv = s.nv) ∧
    (s.power.halted = false → s.upkeep.wearAt + 86400000000000 ≤ s.now + dt → Completes (.logbookWearTimer dt) s fun t =>
      t.get LOGBOOK_COMMITS = (s.get LOGBOOK_COMMITS + 1) % 2 ^ 64 ∧ t.upkeep.wearAt = s.now + dt) ∧
    (s.power.halted = true ∨ s.now + dt < s.upkeep.wearAt + 86400000000000 →
      Completes (.logbookWearTimer dt) s fun t => t.nv = s.nv)) ∧
  (∀ dt via v,
    (v ≠ 0x65706977 → Completes (.logbookFactoryReset dt via v) s fun t => t.nv = s.nv ∧ t.abort = 0x06090030) ∧
    (v = 0x65706977 → s.get MODE ≠ 0 → Completes (.logbookFactoryReset dt via v) s fun t => t.nv = s.nv ∧ t.abort = abortMode) ∧
    (v = 0x65706977 → s.get MODE = 0 → Completes (.logbookFactoryReset dt via v) s fun t => t.nv.pkgs = [] ∧ t.nv.snaps = [] ∧
      t.nv.active = 0 ∧ (∀ e ∈ t.nv.live ++ t.nv.older, e.typ < 4 ∨ e.typ = 0xB ∨ 0xC < e.typ) ∧ t.get FW_BOOT_FAILS = 0 ∧ t.abort = 0)) ∧
  (∀ dt tiles easels p d, p < 104 → tiles[p]? = some d → s.get PD_STATE (p / 4) = 1 →
    Completes (.roMeasure dt tiles easels) s fun t => t.get RO_DRIFT_TILE p = ofSigned 16 d ∧
      (60 < d → ⟨0, p, 1⟩ ∈ t.marks)) ∧
  (∀ dt tiles easels p, p < 104 → s.get PD_STATE (p / 4) ≠ 1 →
    Completes (.roMeasure dt tiles easels) s fun t => t.get RO_DRIFT_TILE p = s.get RO_DRIFT_TILE p) ∧
  (∀ dt f, f < 6 →
    (s.get FAN_STATE f ≠ 1 → Completes (.fanDeficit dt f) s fun t => t.get FAN_STATE f = 1 ∧ ⟨5, f, 6⟩ ∈ t.marks) ∧
    (s.get FAN_STATE f = 1 → Completes (.fanDeficit dt f) s fun t => t.get FAN_STATE f = 1 ∧ t.marks = s.marks)) ∧
  (∀ dt serial,
    (s.blob FAN_TRAY_SERIAL ≠ serial → Completes (.fanTrayChange dt serial) s fun t => (∀ f < 6, t.get FAN_STATE f = 0) ∧
      t.get FAN_TRAY_MINUTES = 0 ∧ t.blob FAN_TRAY_SERIAL = serial ∧ ∀ m ∈ t.marks, m.kind ≠ 5) ∧
    (s.blob FAN_TRAY_SERIAL = serial → Completes (.fanTrayChange dt serial) s fun t => t.marks = s.marks ∧
      ∀ f < 6, t.get FAN_STATE f = s.get FAN_STATE f)) ∧
  (∀ dt,
    (s.upkeep.sampleAt + 1000000 ≤ s.now + dt → Completes (.obsSampleTimer dt) s fun t =>
      t.get OBS_SAMPLE_SEQ = (s.get OBS_SAMPLE_SEQ + 1) % 2 ^ 64 ∧ t.upkeep.sampleAt = s.now + dt ∧
      (t.blob OBS_SAMPLE).take 8 = leBytes 8 (t.get OBS_SAMPLE_SEQ)) ∧
    (s.now + dt < s.upkeep.sampleAt + 1000000 → Completes (.obsSampleTimer dt) s fun t =>
      t.get OBS_SAMPLE_SEQ = s.get OBS_SAMPLE_SEQ))

/-- R622, R623 (SNAP_TAKE, SNAP_DONE, SNAP_DELETE): a snapshot is refused for a bad slot, in a mode without canvas, while one is
copied, for a strip not retained, and without room, which ends FAILED; else the copy runs, and at its end the slot holds a
snapshot of its size or, where the portfolio cannot take it, none; a deletion frees a slot that is not being filled. Where the
spec leaves a choice here, the model's is named in log entries 53 and 101. -/
def Obligations.Snapshots : Prop := ∀ s : State, s.powered = true →
  (∀ dt via slot,
    let size := 64 + s.get SNAP_STRIPS * s.snapBlock (s.get SNAP_VIEW)
    let room := s.snapBytesFree + ((s.snapOf slot).map Snapshot.size).getD 0
    (63 < slot → Completes (.snapTake dt via slot) s fun t => t.nv = s.nv ∧ t.upkeep = s.upkeep ∧ t.abort = 0x06090031) ∧
    (slot ≤ 63 → s.get MODE ≠ 1 → s.get MODE ≠ 2 → s.get MODE ≠ 3 → Completes (.snapTake dt via slot) s fun t =>
      t.nv = s.nv ∧ t.upkeep = s.upkeep ∧ t.abort = abortMode) ∧
    (slot ≤ 63 → s.get MODE = 1 ∨ s.get MODE = 2 ∨ s.get MODE = 3 →
      (s.get SNAP_STATE = 1 → Completes (.snapTake dt via slot) s fun t =>
        t.nv = s.nv ∧ t.upkeep = s.upkeep ∧ t.abort = abortBusy) ∧
      (s.get SNAP_STATE ≠ 1 → s.strip (s.get SNAP_VIEW) (s.get SNAP_FIRST_STRIP) = none → Completes (.snapTake dt via slot) s
        fun t => t.nv = s.nv ∧ t.upkeep = s.upkeep ∧ t.abort = abortMode) ∧
      (s.get SNAP_STATE ≠ 1 → (s.strip (s.get SNAP_VIEW) (s.get SNAP_FIRST_STRIP)).isSome = true →
        (s.get PF_STATE = 2 ∨ room < size → Completes (.snapTake dt via slot) s fun t =>
          t.get SNAP_STATE = 3 ∧ t.nv = s.nv ∧ t.upkeep = s.upkeep ∧ t.abort = 0x06040043) ∧
        (s.get PF_STATE ≠ 2 → size ≤ room → Completes (.snapTake dt via slot) s fun t => t.get SNAP_STATE = 1 ∧
          t.snapOf slot = none ∧ t.abort = 0 ∧
          ∃ dc, t.upkeep.snap = some (s.get SNAP_VIEW, slot, s.get SNAP_FIRST_STRIP, s.get SNAP_STRIPS, dc))))) ∧
  (∀ dt v slot first n dc, s.upkeep.snap = some (v, slot, first, n, dc) →
    (s.get PF_STATE = 2 → Completes (.snapDone dt) s fun t => t.get SNAP_STATE = 3 ∧ t.upkeep.snap = none ∧ t.snapOf slot = none) ∧
    (s.get PF_STATE ≠ 2 → Completes (.snapDone dt) s fun t => t.get SNAP_STATE = 2 ∧ t.upkeep.snap = none ∧
      (t.snapOf slot).map Snapshot.size = some (64 + n * s.snapBlock v))) ∧
  (∀ dt via slot,
    (63 < slot → Completes (.snapDelete dt via slot) s fun t => t.nv = s.nv ∧ t.abort = 0x06090031) ∧
    (slot ≤ 63 → s.upkeep.snap.any (fun x => x.2.1 == slot) = true → Completes (.snapDelete dt via slot) s fun t =>
      t.nv = s.nv ∧ t.abort = abortBusy) ∧
    (slot ≤ 63 → s.upkeep.snap.any (fun x => x.2.1 == slot) = false → Completes (.snapDelete dt via slot) s fun t =>
      t.snapOf slot = none ∧ (∀ q, q ≠ slot → t.snapOf q = s.snapOf q) ∧ t.abort = 0))

/-- R75, R637 and each chapter's rule for its clear command (R117, R147, R197, R233, R268, R320, R366, R383, R402, R422, R442,
R479, R512, R535, R572, R605, R643): each of the twenty clear commands completes in every mode with no abort code, and the
tallies listed for it read 0 with their SAT bits clear; INTAKE_CLEAR also clears the greatest lag and EASEL_CLEAR the two peak
values, MOTION_CLEAR the sticky bits of ENC_FAULT and POWER_CLEAR the sticky PULSE_LOST. -/
def Obligations.ClearCommands : Prop := ∀ s : State, s.powered = true → ∀ dt via,
  let cleared (t : State) (o : Obj) (i : Nat) : Prop := t.get o i = 0 ∧ o.key i ∉ t.sat
  let all (os : List Obj) (t : State) : Prop := t.abort = 0 ∧ ∀ o ∈ os, ∀ i < o.count, cleared t o i
  (∀ b < 12, Completes (.bayClear dt via b) s fun t => t.abort = 0 ∧
    (∀ o ∈ [BAY_POCXP_FAULT, BAY_UNSUPPORTED_PKT, BAY_CTRL_TIMEOUT, LANE_STALE_RESULT, LB_ERRORS], cleared t o b) ∧
    ∀ o ∈ [LANE_CODE_ERR, LANE_LOCK_LOSS, LANE_RETRAIN], ∀ j < 4, cleared t o (4 * b + j)) ∧
  (Completes (.cascadeClear dt via) s fun t => t.abort = 0 ∧ cleared t CASCADE_FRAME_CRC 0 ∧ cleared t CASCADE_FRAME_LOST 0 ∧
    cleared t LANE_STALE_RESULT 12 ∧ cleared t LB_ERRORS 12 ∧
    ∀ o ∈ [LANE_CODE_ERR, LANE_LOCK_LOSS, LANE_RETRAIN], ∀ j < 4, cleared t o (48 + j)) ∧
  (Completes (.intakeClear dt via) s fun t => t.get TRIG_MAX_LAG_NS = 0 ∧
    all [TRIG_DEFERRED, TRIG_OVERSPEED_LINES, TRIG_WIDTH_CLIP, EXP_COMMIT_REPLACED, LANE_CRC_ERR, LINES_LATE, LINES_SUBSTITUTED,
      LATE_DISCARD, TAG_MISMATCH, PKT_TYPE_ERR] t) ∧
  (∀ k < 6, Completes (.easelClear dt via k) s fun t => t.abort = 0 ∧ cleared t EASEL_STALE_RESULT 0 ∧
    t.get EASEL_QUAY_PEAK k = 0 ∧ t.get EASEL_A_MAX_DELAY_NS k = 0 ∧
    ∀ o ∈ [EASEL_QUAY_DROP, EASEL_HB_MISS, EASEL_MIXED_LINES], cleared t o k) ∧
  (∀ v < 4, Completes (.seamClear dt via v) s fun t => t.abort = 0 ∧
    ∀ o ∈ [SEAM_FORCED_COMPLETE, SEAM_LATE_DISCARD, SEAM_STAMP_BLIND_LINES, SEAM_GAIN_LIMIT, CANVAS_OVERRUN, CANVAS_ARCHIVE_EVICT,
      SEAM_QUEUE_OVERFLOW, CANVAS_CROP_EVICT, CASCADE_OVERLAP_MISSING], cleared t o v) ∧
  (Completes (.regClear dt via) s (all [REG_START_LATE, REG_MARK_MISS, REG_LEARN_REJECT, REG_UNREG_STRIPS, REG_CAPTURES])) ∧
  (Completes (.fabricClear dt via) s (all [TILE_HB_MISS, TILE_BLIND_TASKS, TILE_RUN_OVERFLOW, TILE_STALE_RESULT])) ∧
  (Completes (.defClear dt via) s (all [DEF_SUPPRESSED, DEF_CUT, CASCADE_MERGE_LATE, DEF_DEFAULT_HITS, CROP_SKIPPED,
    REJECT_QUEUE_DROP, CROP_EVICTED, DEF_FLOOD_RECORDS, MARK_LATE, MARK_QUEUE_FULL, MARK_ON_LIMIT])) ∧
  (Completes (.motionClear dt via) s fun t => bit (t.get ENC_FAULT) 1 = false ∧ bit (t.get ENC_FAULT) 2 = false ∧
    bit (t.get ENC_FAULT) 6 = false ∧
    all [ENC_ILLEGAL, ENC_INDEX_ERR, ENC_AMP_FAULTS, ENC_SERIAL_ERR, ENC_WIRE, ENC_SERIAL_WARN, CYL_TOOTH_ERR, CYL_REF_MISS,
      AUX_SLIP, PULSE_OVERRUN, CASCADE_COUNT_ERR] t) ∧
  (Completes (.fcClear dt via) s (all [FC_OVERLOAD, DET_DISCARDED, DET_LIMIT_HITS])) ∧
  (Completes (.evtClear dt via) s (all [EVT_TASK_LOST, TASK_COINCIDENCE, EVT_TASK_REFUSED, EVT_HOLDOFF_LOST, CHAN_RATE_HITS])) ∧
  (Completes (.memClear dt via) s (all [SRAM_CE, SRAM_UE, DRAM_STALE_RESULT, DRAM_POISON_READS, DRAM_PKG_CE, DRAM_PKG_UE])) ∧
  (Completes (.whClear dt via) s (all [WH_BUS_ERR])) ∧
  (Completes (.cmpClear dt via) s (all [CMP_FAIL, ARCHIVE_GAPS, ARCHIVE_SPACE_WAIT])) ∧
  (Completes (.hlClear dt via) s (all [HL_APERTURE_WRITE_DROP, HL_DICT_ERRORS, HL_PT_TIMEOUTS, HL_LINK_DOWNS, RING_DROP,
    RING_OVERSIZE])) ∧
  (Completes (.ecatClear dt via) s (all [PDO_WD_EXPIRED, DC_TIME_STEPS, SYNC_LOST, EMCY_LOST])) ∧
  (Completes (.lightClear dt via) s (all [LIGHT_SHED, BAR_CLAMP, BAR_FAULTS, BAR_IDENT_CHANGES])) ∧
  (Completes (.calClear dt via) s (all [CAL_REJECT, TRIM_ABANDONED])) ∧
  (Completes (.powerClear dt via) s fun t => bit (t.get XING_STATUS) 0 = false ∧
    all [MAINS_LOSS_COUNT, PSU_STAGE_FAULTS, PD_POWERGOOD_FAIL, SUPERVISOR_RESTARTS, ISLAND_LOCK_RETRY, ISO_ERROR_RESPONSES,
      XING_PULSE_LOST, FERRY_DISCARD, FERRY_FENCED_DROP] t) ∧
  (Completes (.lbkClear dt via) s (all [LOGBOOK_COMMIT_FAIL, LOGBOOK_SECTORS_RETIRED, PF_BLOCKS_RETIRED, PF_READ_FAIL]))

/-- One step runs the command at the front of the queue with the rest of the queue; with nothing waiting the block idles (DESIGN
CHOICE, log entry 2: the spec names no queue). -/
def Obligations.StepRunsFrontCommand : Prop :=
  (∀ (c : Instr) (s : State), step { s with pending := c :: s.pending } = exec c s) ∧
  (∀ s : State, s.pending = [] → step s = .next s)

/-- R57, R76, R46, R15, R581, R586, R645: the machine after reset: powered, in DORMANT with no transition pending and no hold
cause, no job switch, the switched domains 0 to 50 off and 51 to 55 on, its objects at their defaults, no command waiting, and
module DRAM with nothing listed; defaults and blank memory that the spec does not give are the model's choice. Where the spec
leaves a choice here, the model's is named in log entries 5, 6 and 105. -/
def Obligations.ResetValues : Prop :=
  State.reset.powered = true ∧ State.reset.pending = [] ∧ State.reset.dram = [] ∧ State.reset.get MODE = 0 ∧
  State.reset.get MODE_PENDING = 0xFF ∧ State.reset.get HOLD_CAUSE = 0 ∧ State.reset.get SWITCH_STATE = 0 ∧
  State.reset.get PRELOAD_SLOT = 0xFFFF ∧ State.reset.get LINE_PITCH = 0x100000 ∧ State.reset.get TRACE_HEAD = 0 ∧
  (∀ d < 56, State.reset.get PD_STATE d = if d < 51 then 0 else 1) ∧ State.reset.get ECAT_STATE = 1 ∧
  ∀ o ∈ Reg.rows, ∀ i < o.count, State.reset.get o i = o.dflt i

/-- The invariant of `SafetyKept` holds right after reset. -/
def Obligations.ResetIsSafe : Prop := State.reset.Sound ∧ State.reset.QueueWf

/-- Every command answers a next state, whatever the state, and leaves the commands that wait as they are, unless it names a unit
the module does not have, which stops it; no command is refused. Where the spec leaves a choice here, the model's is named in
log entry 4. -/
def Obligations.CommandsComplete : Prop := ∀ (c : Instr) (s : State),
  (c.wf = true → ∃ t, exec c s = .next t ∧ t.pending = s.pending) ∧ (c.wf = false → exec c s = .fault .noSuchUnit)

/-- R533, R540, R645, R648: from every state in canonical form and within the capacities the spec gives, whose waiting commands
name only units the module has, a step answers a next state, and that state is so too. -/
def Obligations.SafetyKept : Prop := ∀ s : State, s.Sound → s.QueueWf → ∃ t, step s = .next t ∧ t.Sound ∧ t.QueueWf

/-- The frame of every command but those that can set any register: registers outside its footprint, module DRAM, host memory, and
the contents of strings and domains are as before, unless the footprint names them. -/
def Obligations.CommandFrames : Prop := ∀ (c : Instr) (f : Footprint) (s t : State), footprint c = some f → exec c s = .next t →
  t.pending = s.pending ∧ (∀ o i, Out f.regs (o.key i) → t.get o i = s.get o i) ∧
  (f.dram = false → ∀ a, t.dramByte a = s.dramByte a) ∧
  (f.host = false → t.host.hostMem = s.host.hostMem) ∧ (f.blobs = false → t.blobs = s.blobs)

/-- The frame of a write of a plain number by index and subindex (R10, R535): the object of that place, what a refused write, a
channel that is switched off and a stored link mode move, and nothing else. -/
def Obligations.PlainWriteFrame : Prop := ∀ (s t : State) dt via index sub data o i, isMap index = false →
  s.place index sub = .obj o i → o.ty.bytes ≠ 0 → o.mirror = false → o.acc ≠ .cmd →
  (∀ e ∈ writesOwn, e.1 ≠ o.base) → exec (.objectWrite dt via index sub data) s = .next t →
  t.dram = s.dram ∧ t.host.hostMem = s.host.hostMem ∧ t.blobs = s.blobs ∧
  ∀ p j, p.key j ≠ o.key i → Out (bookRegs ++ logRegs ++ [HL_DICT_ERRORS, BAR_CURRENT_MA, BAR_STATE, TRACE_HEAD]) (p.key j) →
    t.get p j = s.get p j

/-- R574, R579, R589: while the module has no power, every command but power-on only lets time pass. Where the spec leaves a
choice here, the model's is named in log entry 139. -/
def Obligations.UnpoweredOnlyTimePasses : Prop := ∀ (c : Instr) (s : State), s.powered = false → c.wf = true →
  (∀ dt stages fails, c ≠ .powerOn dt stages fails) → Completes c s fun t =>
    t.powered = false ∧ t.pending = s.pending ∧ t.abort = s.abort ∧ t.dram = s.dram ∧ t.blobs = s.blobs ∧ t.nv = s.nv ∧
    t.host = s.host ∧ s.now ≤ t.now ∧ ∀ o i, TRACE_HEAD.avoids (o.key i) → t.get o i = s.get o i

/-- R532, R533: no two objects share an index and subindex. Where the spec leaves a choice here, the model's is named in log entry
127. -/
def Obligations.DictionaryUnambiguous : Prop := ∀ o ∈ Reg.rows, ∀ p ∈ Reg.rows, o.base ≠ p.base →
  ∀ i < o.count, ∀ j < p.count, o.key i ≠ p.key j

/-- R637: a tally, but the two that tracing and the crossings themselves keep, counts up to 0xFFFF_FFFF; at the moment it gets
there its SAT bit is set and SATURATED fires once; from then on it stays. Where the spec leaves a choice here, the model's is
named in log entry 115. -/
def Obligations.TalliesSaturate : Prop := ∀ (s : State) (o : Obj) (i n : Nat), i < o.count → o.ty = .u32 →
  Out bookRegs (o.key i) →
  (s.get o i + n < 0xFFFFFFFF → (s.tallyN o i n).get o i = s.get o i + n ∧ (s.tallyN o i n).sat = s.sat ∧
    (s.tallyN o i n).evt = s.evt) ∧
  (s.get o i < 0xFFFFFFFF → 0xFFFFFFFF ≤ s.get o i + n → (s.tallyN o i n).get o i = 0xFFFFFFFF ∧
    o.key i ∈ (s.tallyN o i n).sat ∧
    ((s.evt.xing.look 0xBC).getD 0 < 15 → (s.tallyN o i n).evt.xing.look 0xBC = some ((s.evt.xing.look 0xBC).getD 0 + 1))) ∧
  (s.get o i = 0xFFFFFFFF → s.tallyN o i n = s)

/-- R664: the four self-test commands name a unit in IN_USE, SPARE or RETIRED: refused with 0x0800_0022, and nothing of the kind
changes, its SELFTEST_RESULT included. -/
def Obligations.SelfTestsOfQuarantineOnly : Prop := ∀ s : State, s.powered = true → ∀ dt via,
  (∀ q j, q < 13 → j ≤ 4 → s.get SLICE_STATE (5 * q + j) ≠ 2 → Completes (.sliceSelftest dt via q j) s fun t =>
    t.abort = 0x08000022 ∧ t.quads = s.quads ∧ t.get SLICE_SELFTEST_RESULT q = s.get SLICE_SELFTEST_RESULT q ∧
    (∀ u < 65, t.get SLICE_STATE u = s.get SLICE_STATE u) ∧ ∀ d < 56, t.get PD_STATE d = s.get PD_STATE d) ∧
  (∀ p, p ≤ 6 → s.get EASEL_PHYS_STATE p ≠ 2 → Completes (.easelSelftest dt via p) s fun t =>
    t.abort = 0x08000022 ∧ t.bench = s.bench ∧ t.get EASEL_SELFTEST_RESULT = s.get EASEL_SELFTEST_RESULT ∧
    (∀ u < 7, t.get EASEL_PHYS_STATE u = s.get EASEL_PHYS_STATE u) ∧ ∀ d < 56, t.get PD_STATE d = s.get PD_STATE d) ∧
  (∀ p, p ≤ 103 → s.get TILE_PHYS_STATE p ≠ 2 → Completes (.tileSelftest dt via p) s fun t =>
    t.abort = 0x08000022 ∧ t.bench = s.bench ∧ t.get TILE_SELFTEST_RESULT = s.get TILE_SELFTEST_RESULT ∧
    (∀ u < 104, t.get TILE_PHYS_STATE u = s.get TILE_PHYS_STATE u) ∧ ∀ d < 56, t.get PD_STATE d = s.get PD_STATE d) ∧
  (∀ p, p < 13 → s.get DRAM_PKG_STATE p ≠ 2 → Completes (.dramSelftest dt via p) s fun t =>
    t.abort = 0x08000022 ∧ t.bench = s.bench ∧ t.dram = s.dram ∧ t.get DRAM_SELFTEST_RESULT = s.get DRAM_SELFTEST_RESULT ∧
    ∀ u < 13, t.get DRAM_PKG_STATE u = s.get DRAM_PKG_STATE u)

/-- R22: where a repeat starts, its number is the next 32-bit value, and the 16-bit epoch is the next one exactly where the number
wraps to 0; the repeat is identified by the pair; making a job active leaves both as they are. -/
def Obligations.RepeatNumbers : Prop := ∀ s : State,
  (∀ line count phase unreg,
    let t := s.openRepeat line count phase unreg
    t.get REPEAT_NUMBER = (s.get REPEAT_NUMBER + 1) % 2 ^ 32 ∧
    t.get REPEAT_EPOCH =
      (if (s.get REPEAT_NUMBER + 1) % 2 ^ 32 = 0 then s.get REPEAT_EPOCH + 1 else s.get REPEAT_EPOCH) % 2 ^ 16 ∧
    t.web.open_.map Rep.key = some (t.get REPEAT_EPOCH * 2 ^ 32 + t.get REPEAT_NUMBER)) ∧
  (∀ p slot n c strip, (s.activateJob p slot n c strip).get REPEAT_NUMBER = s.get REPEAT_NUMBER ∧
    (s.activateJob p slot n c strip).get REPEAT_EPOCH = s.get REPEAT_EPOCH)

end Statements
end

