-- ==== Sys2Proof/Laws/Data.lean ====
section
/-! SUPPORT. Laws/Data.lean: the maps and byte memories: what a read gives after a write, and that every operation keeps the
canonical form. -/
namespace Sys2Proof.Machine

/-! ## Maps -/

@[simp] theorem Dict.look_nil (k : Nat) : Dict.look [] k = none := rfl

@[simp] theorem Dict.sorted_nil : Dict.sorted [] = true := rfl

theorem Dict.sorted_cons (e : Nat × Nat) (r : Dict) :
    Dict.sorted (e :: r) = true ↔ (∀ x ∈ r, e.1 < x.1) ∧ Dict.sorted r = true := by
  induction r generalizing e with
  | nil => simp [Dict.sorted]
  | cons b r ih =>
    simp only [Dict.sorted, Bool.and_eq_true, decide_eq_true_eq, List.mem_cons, forall_eq_or_imp]
    constructor
    · rintro ⟨h, hs⟩
      refine ⟨⟨h, fun x hx => ?_⟩, hs⟩
      exact Nat.lt_trans h (((ih b).1 hs).1 x hx)
    · rintro ⟨⟨h, -⟩, hs⟩
      exact ⟨h, hs⟩

theorem Dict.look_none (d : Dict) (k : Nat) (h : ∀ e ∈ d, e.1 ≠ k) : d.look k = none := by
  induction d with
  | nil => rfl
  | cons e r ih =>
    simp only [List.mem_cons, forall_eq_or_imp] at h
    simp [Dict.look, h.1, ih h.2]

theorem Dict.mem_put (d : Dict) (k v : Nat) (e : Nat × Nat) (h : e ∈ d.put k v) : e = (k, v) ∨ e ∈ d := by
  induction d with
  | nil => simp_all [Dict.put]
  | cons a r ih =>
    simp only [Dict.put] at h
    split at h
    · simpa using h
    · split at h <;> simp only [List.mem_cons] at h ⊢ <;> grind

theorem Dict.look_put_same (d : Dict) (k v : Nat) : (d.put k v).look k = some v := by
  induction d with
  | nil => simp [Dict.put, Dict.look]
  | cons a r ih =>
    simp only [Dict.put]
    split
    · simp [Dict.look]
    · split
      · simp [Dict.look]
      · simp [Dict.look, ih, Ne.symm ‹¬k = a.1›]

theorem Dict.look_put_other (d : Dict) (k v j : Nat) (h : j ≠ k) : (d.put k v).look j = d.look j := by
  induction d with
  | nil => simp [Dict.put, Dict.look, Ne.symm h]
  | cons a r ih =>
    simp only [Dict.put]
    split
    · simp [Dict.look, Ne.symm h]
    · split
      · subst_vars; simp [Dict.look, Ne.symm h]
      · simp [Dict.look, ih]

theorem Dict.look_del_same (d : Dict) (k : Nat) : (d.del k).look k = none :=
  Dict.look_none _ _ (fun e he => by simp [Dict.del] at he; exact he.2)

theorem Dict.look_del_other (d : Dict) (k j : Nat) (h : j ≠ k) : (d.del k).look j = d.look j := by
  induction d with
  | nil => rfl
  | cons a r ih =>
    simp only [Dict.del, List.filter_cons] at ih ⊢
    split
    · simp only [Dict.look, ih]
    · rename_i ha
      have hk : a.1 = k := by simpa using ha
      simp only [Dict.look, ih, hk, Ne.symm h, if_false]

theorem Dict.sorted_put (d : Dict) (k v : Nat) (h : d.sorted = true) : (d.put k v).sorted = true := by
  induction d with
  | nil => rfl
  | cons a r ih =>
    have ha := (Dict.sorted_cons a r).1 h
    simp only [Dict.put]
    split
    · rename_i hk
      refine (Dict.sorted_cons _ _).2 ⟨?_, h⟩
      simp only [List.mem_cons, forall_eq_or_imp]
      exact ⟨hk, fun x hx => Nat.lt_trans hk (ha.1 x hx)⟩
    · split
      · subst_vars; exact (Dict.sorted_cons _ _).2 ha
      · refine (Dict.sorted_cons _ _).2 ⟨fun x hx => ?_, ih ha.2⟩
        rcases Dict.mem_put r k v x hx with rfl | hx
        · simp only; omega
        · exact ha.1 x hx

theorem Dict.sorted_filter (d : Dict) (p : Nat × Nat → Bool) (h : d.sorted = true) : Dict.sorted (d.filter p) = true := by
  induction d with
  | nil => rfl
  | cons a r ih =>
    have ha := (Dict.sorted_cons a r).1 h
    simp only [List.filter_cons]
    split
    · exact (Dict.sorted_cons _ _).2 ⟨fun x hx => ha.1 x (List.mem_filter.1 hx).1, ih ha.2⟩
    · exact ih ha.2

theorem Dict.canonical_put (d : Dict) (k v : Nat) (h : d.canonical) (hv : v < 2 ^ 64) : (d.put k v).canonical := by
  refine ⟨Dict.sorted_put d k v h.1, fun e he => ?_⟩
  rcases Dict.mem_put d k v e he with rfl | he
  · exact hv
  · exact h.2 e he

theorem Dict.canonical_del (d : Dict) (k : Nat) (h : d.canonical) : (d.del k).canonical :=
  ⟨Dict.sorted_filter d _ h.1, fun e he => h.2 e (List.mem_filter.1 he).1⟩

/-! ## Byte memories -/

theorem Memory.wfFrom_cons (d : Option (BitVec 8)) (lo : Option Nat) (c : Host.Cell) (r : Memory) :
    Memory.wfFrom d lo (c :: r) = true ↔
      (∀ l, lo = some l → l < c.1) ∧ some c.2 ≠ d ∧ Memory.wfFrom d (some c.1) r = true := by
  simp only [Memory.wfFrom, Bool.and_eq_true, decide_eq_true_eq]
  cases lo <;> simp [and_assoc]

/-- A canonical memory stays so under any lower bound below its first entry. -/
theorem Memory.wfFrom_mono (d : Option (BitVec 8)) (lo lo' : Option Nat) (m : Memory) (h : Memory.wfFrom d lo m = true)
    (hl : ∀ l', lo' = some l' → ∃ l, lo = some l ∧ l' ≤ l) : Memory.wfFrom d lo' m = true := by
  cases m with
  | nil => rfl
  | cons c r =>
    rw [Memory.wfFrom_cons] at h ⊢
    refine ⟨fun l' e => ?_, h.2⟩
    obtain ⟨l, e', hle⟩ := hl l' e
    exact Nat.lt_of_le_of_lt hle (h.1 l e')

theorem Memory.look_insert_same (m : Memory) (k : Nat) (b : BitVec 8) : (m.insert k b).look k = some b := by
  induction m with
  | nil => simp [Memory.insert, Memory.look]
  | cons a r ih =>
    simp only [Memory.insert]
    split
    · simp [Memory.look]
    · split
      · simp [Memory.look]
      · simp [Memory.look, ih, Ne.symm ‹¬k = a.1›]

theorem Memory.look_insert_other (m : Memory) (k j : Nat) (b : BitVec 8) (h : j ≠ k) :
    (m.insert k b).look j = m.look j := by
  induction m with
  | nil => simp [Memory.insert, Memory.look, Ne.symm h]
  | cons a r ih =>
    simp only [Memory.insert]
    split
    · simp [Memory.look, Ne.symm h]
    · split
      · subst_vars; simp [Memory.look, Ne.symm h]
      · simp [Memory.look, ih]

theorem Memory.look_remove_same (m : Memory) (k : Nat) : (m.remove k).look k = none := by
  induction m with
  | nil => rfl
  | cons a r ih =>
    simp only [Memory.remove, List.filter_cons] at ih ⊢
    split
    · rename_i ha
      have : ¬a.1 = k := by simpa using ha
      simp only [Memory.look, this, if_false, ih]
    · exact ih

theorem Memory.look_remove_other (m : Memory) (k j : Nat) (h : j ≠ k) : (m.remove k).look j = m.look j := by
  induction m with
  | nil => rfl
  | cons a r ih =>
    simp only [Memory.remove, List.filter_cons] at ih ⊢
    split
    · simp only [Memory.look, ih]
    · rename_i ha
      have hk : a.1 = k := by simpa using ha
      simp only [Memory.look, ih, hk, Ne.symm h, if_false]

/-- A written byte reads back, with an unlisted byte reading as `d`. -/
theorem Memory.look_put_same (d : Option (BitVec 8)) (m : Memory) (k : Nat) (b : BitVec 8) :
    ((m.put d k b).look k <|> d) = some b := by
  unfold Memory.put
  split
  · rename_i h; rw [Memory.look_remove_same]; simpa using h.symm
  · rw [Memory.look_insert_same]; rfl

theorem Memory.look_put_other (d : Option (BitVec 8)) (m : Memory) (k j : Nat) (b : BitVec 8) (h : j ≠ k) :
    (m.put d k b).look j = m.look j := by
  unfold Memory.put
  split
  · exact Memory.look_remove_other m k j h
  · exact Memory.look_insert_other m k j b h

theorem Memory.wfFrom_insert (d : Option (BitVec 8)) (lo : Option Nat) (m : Memory) (k : Nat) (b : BitVec 8)
    (h : Memory.wfFrom d lo m = true) (hk : ∀ l, lo = some l → l < k) (hb : some b ≠ d) :
    Memory.wfFrom d lo (m.insert k b) = true := by
  induction m generalizing lo with
  | nil => simp only [Memory.insert, Memory.wfFrom_cons]; exact ⟨hk, hb, rfl⟩
  | cons a r ih =>
    rw [Memory.wfFrom_cons] at h
    simp only [Memory.insert]
    split
    · rename_i hlt
      rw [Memory.wfFrom_cons, Memory.wfFrom_cons]
      exact ⟨hk, hb, fun l e => by cases e; exact hlt, h.2⟩
    · split
      · subst_vars; rw [Memory.wfFrom_cons]; exact ⟨hk, hb, h.2.2⟩
      · rw [Memory.wfFrom_cons]
        exact ⟨h.1, h.2.1, ih (some a.1) h.2.2 (fun l e => by cases e; omega)⟩

theorem Memory.wfFrom_filter (d : Option (BitVec 8)) (lo : Option Nat) (m : Memory) (p : Host.Cell → Bool)
    (h : Memory.wfFrom d lo m = true) : Memory.wfFrom d lo (m.filter p) = true := by
  induction m generalizing lo with
  | nil => rfl
  | cons a r ih =>
    rw [Memory.wfFrom_cons] at h
    simp only [List.filter_cons]
    split
    · rw [Memory.wfFrom_cons]; exact ⟨h.1, h.2.1, ih _ h.2.2⟩
    · refine ih lo (Memory.wfFrom_mono d (some a.1) lo r h.2.2 fun l' e => ⟨a.1, rfl, Nat.le_of_lt (h.1 l' e)⟩)

theorem Memory.wf_filter (d : Option (BitVec 8)) (m : Memory) (p : Host.Cell → Bool) (h : Memory.wf d m = true) :
    Memory.wf d (m.filter p) = true := Memory.wfFrom_filter d none m p h

theorem Memory.wf_put (d : Option (BitVec 8)) (m : Memory) (k : Nat) (b : BitVec 8) (h : Memory.wf d m = true) :
    Memory.wf d (m.put d k b) = true := by
  unfold Memory.put
  split
  · exact Memory.wf_filter d m _ h
  · exact Memory.wfFrom_insert d none m k b h (fun l e => by cases e) ‹_›

theorem Memory.wf_write (d : Option (BitVec 8)) (bs : List Byte) (m : Memory) (k : Nat) (h : Memory.wf d m = true) :
    Memory.wf d (m.write d k bs) = true := by
  induction bs generalizing m k with
  | nil => exact h
  | cons b r ih => exact ih _ _ (Memory.wf_put d m k _ h)

theorem Memory.look_write_other (d : Option (BitVec 8)) (bs : List Byte) (m : Memory) (k j : Nat)
    (h : j < k ∨ k + bs.length ≤ j) : (m.write d k bs).look j = m.look j := by
  induction bs generalizing m k with
  | nil => rfl
  | cons b r ih =>
    simp only [List.length_cons] at h
    simp only [Memory.write]
    rw [ih _ _ (by omega), Memory.look_put_other _ _ _ _ _ (by omega)]

theorem Memory.look_write_same (d : Option (BitVec 8)) (bs : List Byte) (m : Memory) (k i : Nat) (h : i < bs.length) :
    ((m.write d k bs).look (k + i) <|> d) = some (BitVec.ofNat 8 bs[i]) := by
  induction bs generalizing m k i with
  | nil => simp at h
  | cons b r ih =>
    simp only [Memory.write]
    cases i with
    | zero =>
      rw [Nat.add_zero, Memory.look_write_other _ _ _ _ _ (by omega)]
      exact Memory.look_put_same d m k _
    | succ i =>
      have := ih (m.put d k (BitVec.ofNat 8 b)) (k + 1) i (by simpa using h)
      rw [show k + (i + 1) = k + 1 + i by omega]
      simpa using this

end Sys2Proof.Machine
end

