-- ==== Sys2Proof/Laws/KeepBase.lean ====
section
/-! SUPPORT. Laws/KeepBase.lean: what a shared operation leaves alone. `Holds k v m h b` says of a state that register `k` reads
`v` there and, where `m`, `h` and `b` are given, that module DRAM, host memory and the contents of strings and domains are those;
the lemmas say which operations keep it. -/
namespace Sys2Proof.Machine

/-- What a state holds at a register, in module DRAM, in host memory and in its strings and domains. -/
structure Holds (k : Key) (v : Option Nat) (m h : Option Memory) (b : Option Blobs) (s : State) : Prop where
  reg : s.dict.look k = v
  dram : ∀ x, m = some x → s.dram = x
  host : ∀ x, h = some x → s.host.hostMem = x
  blob : ∀ x, b = some x → s.blobs = x

/-- The same of the parts of a state. -/
def HoldsOf (k : Key) (v : Option Nat) (m h : Option Memory) (b : Option Blobs) (d : Dict) (dr hm : Memory) (bl : Blobs) : Prop :=
  d.look k = v ∧ (∀ x, m = some x → dr = x) ∧ (∀ x, h = some x → hm = x) ∧ (∀ x, b = some x → bl = x)

section
variable {k : Key} {v : Option Nat} {m h : Option Memory} {b : Option Blobs}

@[simp ↓] theorem holdsOf_parts {e : State} : HoldsOf k v m h b e.dict e.dram e.host.hostMem e.blobs ↔ Holds k v m h b e :=
  ⟨fun x => ⟨x.1, x.2.1, x.2.2.1, x.2.2.2⟩, fun x => ⟨x.reg, x.dram, x.host, x.blob⟩⟩

/-- A state written field by field holds what its parts hold. -/
@[simp ↓] theorem holds_mk
    {pending_ : List Instr} {powered_ : Bool} {now_ : Nat} {dc_ : Nat} {dict_ : Dict} {blobs_ : Blobs}
    {sat_ : List Nat} {held_ : Dict} {written_ : Dict} {writtenBlobs_ : Blobs} {abort_ : Nat} {free_ : Nat}
    {trace_ : Trace} {evt_ : Evt} {host_ : HostLink} {ecat_ : Ecat} {nv_ : Nv} {decls_ : Dict} {fails_ : Dict}
    {marks_ : List Mark} {sramCe_ : List (Nat × Nat × Nat × Nat)} {motion_ : Motion} {filter_ : Filter} {trig_ : Trig}
    {lanes_ : List Lane} {quads_ : List Quad} {bays_ : List Bay} {cascade_ : Cascade} {web_ : Web} {reject_ : Reject}
    {bars_ : List Bar} {easels_ : List Easel} {segs_ : List (List Seg)} {notes_ : List (List Note)}
    {views_ : List View} {regs_ : List RegView} {tiles_ : List Tile} {tide_ : List (Nat × List Byte)}
    {tideNext_ : Option (List Byte)} {tideWin_ : Nat} {asm_ : Asm} {bench_ : Bench} {cal_ : Cal} {trim_ : Trim}
    {wharf_ : Wharf} {dramUnit_ : DramUnit} {power_ : Power} {upkeep_ : Upkeep} {dram_ : List Host.Cell} :
    Holds k v m h b
    ⟨pending_, powered_, now_, dc_, dict_, blobs_, sat_, held_, written_, writtenBlobs_, abort_, free_, trace_,
      evt_, host_, ecat_, nv_, decls_, fails_, marks_, sramCe_, motion_, filter_, trig_, lanes_, quads_, bays_,
      cascade_, web_, reject_, bars_, easels_, segs_, notes_, views_, regs_, tiles_, tide_, tideNext_, tideWin_,
      asm_, bench_, cal_, trim_, wharf_, dramUnit_, power_, upkeep_, dram_⟩ ↔
      HoldsOf k v m h b dict_ dram_ host_.hostMem blobs_ :=
  ⟨fun x => ⟨x.reg, x.dram, x.host, x.blob⟩, fun x => ⟨x.1, x.2.1, x.2.2.1, x.2.2.2⟩⟩

/-- Every state holds what it holds. -/
theorem holds_self (k : Key) (s : State) : Holds k (s.dict.look k) (some s.dram) (some s.host.hostMem) (some s.blobs) s :=
  ⟨rfl, fun _ e => (by cases e; rfl), fun _ e => (by cases e; rfl), fun _ e => (by cases e; rfl)⟩

@[simp ↓] theorem holds_ite {c : Prop} [Decidable c] {a a' : State} :
    Holds k v m h b (if c then a else a') ↔ (c → Holds k v m h b a) ∧ (¬c → Holds k v m h b a') := by
  split <;> simp [*]

theorem keep_ite {c : Prop} [Decidable c] {a a' : State} (ha : c → Holds k v m h b a) (hb : ¬c → Holds k v m h b a') :
    Holds k v m h b (if c then a else a') := by
  split
  · exact ha ‹_›
  · exact hb ‹_›

theorem keep_fst {α : Type} {x : State × α} {t : State} {a : α} (hx : Holds k v m h b x.1) (e : x = (t, a)) : Holds k v m h b t := by
  subst e; exact hx

theorem keep_snd {α : Type} {x : α × State} {t : State} {a : α} (hx : Holds k v m h b x.2) (e : x = (a, t)) : Holds k v m h b t := by
  subst e; exact hx

@[simp ↓] theorem keep_foldl {α : Type} (l : List α) {f : State → α → State} {s : State}
    (hf : ∀ t x, Holds k v m h b t → Holds k v m h b (f t x)) (hs : Holds k v m h b s) : Holds k v m h b (l.foldl f s) := by
  induction l generalizing s with
  | nil => exact hs
  | cons a r ih => exact ih (hf s a hs)

@[simp ↓] theorem keep_foldl_fst {α β : Type} (l : List α) {f : State × β → α → State × β} {s : State × β}
    (hf : ∀ t y x, Holds k v m h b t → Holds k v m h b (f (t, y) x).1) (hs : Holds k v m h b s.1) :
    Holds k v m h b (l.foldl f s).1 := by
  induction l generalizing s with
  | nil => exact hs
  | cons a r ih => exact ih (hf s.1 s.2 a hs)

@[simp ↓] theorem keep_iter (n : Nat) {f : State → State} {s : State} (hf : ∀ t, Holds k v m h b t → Holds k v m h b (f t))
    (hs : Holds k v m h b s) : Holds k v m h b (iter f n s) := by
  induction n generalizing s with
  | zero => exact hs
  | succ n ih => exact ih (hf s hs)

/-! ## Registers outside some objects -/

@[simp ↓] theorem out_nil : Out [] k ↔ True := by simp [Out]

@[simp ↓] theorem out_cons {a : Obj} {l : List Obj} : Out (a :: l) k ↔ a.avoids k ∧ Out l k := by simp [Out]

@[simp ↓] theorem out_append {a a' : List Obj} : Out (a ++ a') k ↔ Out a k ∧ Out a' k := by
  simp only [Out, List.mem_append, or_imp, forall_and]

theorem keep_foldl_objs {os : List Obj} {f : State → Obj → State} {s : State} (ho : Out os k)
    (hf : ∀ t o, o.avoids k → Holds k v m h b t → Holds k v m h b (f t o)) (hs : Holds k v m h b s) : Holds k v m h b (os.foldl f s) := by
  induction os generalizing s with
  | nil => exact hs
  | cons o os ih =>
    rw [out_cons] at ho
    exact ih ho.2 (hf s o ho.1 hs)

theorem Out.avoids {l : List Obj} {o : Obj} (hl : Out l k) (ho : o ∈ l) : o.avoids k := hl o ho

theorem Dict.look_write_avoids {d : Dict} {o : Obj} {i x : Nat} {k : Key} (ho : o.avoids k) :
    (d.write o i x).look k = d.look k := by
  unfold Dict.write
  split
  · rename_i hi
    split
    · exact Dict.look_del_other _ _ _ (Ne.symm (ho i hi))
    · exact Dict.look_put_other _ _ _ _ (Ne.symm (ho i hi))
  · rfl

@[simp ↓] theorem keep_set {o : Obj} {i x : Nat} {s : State} (ho : o.avoids k) (hs : Holds k v m h b s) :
    Holds k v m h b (s.set o i x) :=
  ⟨(Dict.look_write_avoids ho).trans hs.reg, hs.dram, hs.host, hs.blob⟩

@[simp ↓] theorem keep_dramWrite {a : Nat} {bs : List Byte} {s : State} (hs : Holds k v none h b s) :
    Holds k v none h b (s.dramWrite a bs) :=
  ⟨hs.reg, fun _ e => (by cases e), hs.host, hs.blob⟩

@[simp ↓] theorem keep_setBlob {o : Obj} {i : Nat} {bs : List Byte} {s : State} (hs : Holds k v m h none s) :
    Holds k v m h none (s.setBlob o i bs) :=
  ⟨hs.reg, hs.dram, hs.host, fun _ e => (by cases e)⟩

/-- What a command's frame keeps, its effect keeps. -/
theorem keep_act {ok : Bool} {dt : Ns} {s t : State} {f : State → State} (ha : Holds k v m h b (s.advance dt))
    (hf : ∀ u : State, Holds k v m h b u → Holds k v m h b (f u)) (e : act ok dt s f = .next t) : Holds k v m h b t := by
  unfold act at e
  split at e
  · split at e
    · cases e; exact ⟨(hf _ ha).reg, (hf _ ha).dram, (hf _ ha).host, (hf _ ha).blob⟩
    · cases e; exact ha
  · cases e

@[simp ↓] theorem avoids_unitStateObj {kind : Nat} (h0 : Reg.TILE_PHYS_STATE.avoids k) (h1 : Reg.EASEL_PHYS_STATE.avoids k)
    (h2 : Reg.SLICE_STATE.avoids k) (h3 : Reg.DRAM_PKG_STATE.avoids k) : (unitStateObj kind).avoids k := by
  unfold unitStateObj; split <;> assumption

@[simp ↓] theorem avoids_unitEpochObj {kind : Nat} (h0 : Reg.TILE_EPOCH.avoids k) (h1 : Reg.EASEL_EPOCH.avoids k)
    (h2 : Reg.SLICE_EPOCH.avoids k) (h3 : Reg.DRAM_PKG_EPOCH.avoids k) : (unitEpochObj kind).avoids k := by
  unfold unitEpochObj; split <;> assumption

/-! ## Groups of objects -/

open Reg

@[simp ↓] theorem out_emcyRegs : Out emcyRegs k ↔ Out [EMCY_LOST, EMCY_SENT] k := by
  rw [emcyRegs]

@[simp ↓] theorem out_unitRegs : Out unitRegs k ↔ Out [DRAM_PKG_STATE, EASEL_PHYS_STATE, SLICE_STATE,
    TILE_PHYS_STATE] k := by
  rw [unitRegs]

@[simp ↓] theorem out_epochRegs : Out epochRegs k ↔ Out [DRAM_PKG_EPOCH, EASEL_EPOCH, SLICE_EPOCH, TILE_EPOCH] k :=
    by
  rw [epochRegs]

@[simp ↓] theorem out_logRegs : Out logRegs k ↔ Out [LOGBOOK_COMMITS, LOGBOOK_ERASES_MAX, LOGBOOK_HEAD_SECTOR,
    LOGBOOK_LAST_COMMIT_TIME, LOGBOOK_SEQ] k := by
  rw [logRegs]

@[simp ↓] theorem out_recordRegs : Out recordRegs k ↔ Out logRegs k ∧ Out bookRegs k ∧ Out [DEF_NEXT_ID,
    DEF_RECORDS, RING_DROP, RING_FRAMES, RING_OVERSIZE, RING_STAGED_BYTES, WHARF_HOST_WR_BYTES] k := by
  simp only [recordRegs, out_append, and_assoc]

@[simp ↓] theorem out_declareRegs : Out declareRegs k ↔ Out logRegs k ∧ Out bookRegs k ∧ Out unitRegs k ∧ Out
    epochRegs k := by
  simp only [declareRegs, out_append, and_assoc]

@[simp ↓] theorem out_modeRegs : Out modeRegs k ↔ Out bookRegs k ∧ Out emcyRegs k ∧ Out [CAL_RESULT, CAL_STATE,
    FAN_TRAY_MINUTES, MODE, MODE_CHANGE_LINE, MODE_ENTRY_TIME, MODE_PENDING, MODE_RESULT, MODULE_INSPECT_MINUTES,
    MODULE_ON_MINUTES, PSU_ON_MINUTES, REG_LEARN_STATE, REG_UP_PRESENT, TRIM_ABANDONED, TRIM_BUSY_BAY,
    TRIM_LAST_RESULT, TRIM_LAST_STRIP] k := by
  simp only [modeRegs, out_append, and_assoc]

@[simp ↓] theorem out_holdRegs : Out holdRegs k ↔ Out modeRegs k ∧ Out [BAR_CURRENT_MA, BAR_STATE, BAY_LANES_UP,
    BAY_POCXP_MW, BAY_SPEED, BAY_STATE, EASEL_STATE, FERRY_DISCARD, HOLD_CAUSE, HOLD_COUNT, HOLD_FROM_DORMANT,
    HOLD_MARKER_DISCARD, ISLAND_STATE, ISO_ERROR_RESPONSES, LANE_STATE, MARK_NEXT_COUNT, MARK_QUEUE_FILL, PD_STATE,
    REJECT_BITMAP, REJECT_QUEUE_DROP, TILE_LOG_STATE, WHARF_HOST_WR_BYTES] k := by
  simp only [holdRegs, out_append]

@[simp ↓] theorem out_flushRegs : Out flushRegs k ↔ Out recordRegs k ∧ Out [CROP_SKIPPED, DEF_CANDIDATES, DEF_CUT,
    DEF_DEFAULT_HITS, DEF_FLOOD_RECORDS, DEF_REJECT_ITEMS, DEF_SUPPRESSED, MARK_LATE, MARK_NEXT_COUNT,
    MARK_QUEUE_FILL, MARK_QUEUE_FULL, REG_ANCHORS_X, REG_ANCHORS_Y, REG_CONF_PERMILLE, REG_FIELD_ADDR,
    REG_LEARN_BAND, REG_LEARN_REJECT, REG_LEARN_STATE, REG_LEARN_VAR_BLOCKS, REG_MEAN_DX, REG_MEAN_DY,
    REG_VAR_MAP_ADDR, REJECT_BITMAP, REJECT_QUEUE_DROP, REJECT_REPEAT, REJECT_ROW, REJECT_SEQ, SWITCH_STATE] k := by
  simp only [flushRegs, out_append]

@[simp ↓] theorem out_fabricRegs : Out fabricRegs k ↔ Out flushRegs k ∧ Out [TIDE_APPLY_LINE, TIDE_BANK_ACTIVE,
    TIDE_GENERATION, TIDE_PENDING, TIDE_RESULT] k := by
  simp only [fabricRegs, out_append]

@[simp ↓] theorem out_jobRegs : Out jobRegs k ↔ Out presetRegs k ∧ Out fabricRegs k ∧ Out [ACTIVE_SLOT,
    BAR_CURRENT_MA, BAR_STATE, EXP_APPLY_STRIP, EXP_COMMIT_REPLACED, EXP_PENDING, JOB_STAMP, JOB_START_COUNT,
    LIGHT_POWER_W, REG_CAPTURES, REG_SLOT_ACTIVE, REG_UP_PRESENT, SWITCH_LINE, SWITCH_RESULT, TRIG_NEXT_COUNT] k :=
    by
  simp only [jobRegs, out_append, and_assoc]

@[simp ↓] theorem out_leaveRegs : Out leaveRegs k ↔ Out fabricRegs k ∧ Out unitRegs k ∧ Out [BAR_CURRENT_MA,
    BAR_STATE, BAY_LANES_UP, CAL_RESULT, CAL_STATE, DET_DISCARDED, DRAM_MIGRATE_PERMILLE, DRAM_MIGRATE_STATE,
    EASEL_LOAD_MAX_PERMILLE, EASEL_PHYS, EASEL_QUAY_FILL, EASEL_QUAY_PEAK, EASEL_STATE, ISLAND_STATE, LANE_SLICE,
    LANE_STATE, LIGHT_POWER_W, MODE_PENDING, PD_STATE, REG_CAPTURES, TILE_LOG_STATE, TILE_PHYS, TRIG_NEXT_COUNT] k
    := by
  simp only [leaveRegs, out_append, and_assoc]

@[simp ↓] theorem out_requestRegs : Out requestRegs k ↔ Out fabricRegs k ∧ Out holdRegs k ∧ Out [DET_DISCARDED,
    HL_DICT_ERRORS, LIGHT_POWER_W, REG_CAPTURES, TRIG_NEXT_COUNT] k := by
  simp only [requestRegs, out_append, and_assoc]

@[simp ↓] theorem out_countRegs : Out countRegs k ↔ Out leaveRegs k ∧ Out modeRegs k ∧ Out [AUX_SLIP, ENC_FAULT,
    MARK_FIRED, OBS_ACCEL, OBS_EXTREME, OBS_POSITION, OBS_REVERSALS, OBS_SPEED, OBS_STATE, PULSE_BACKLOG,
    PULSE_COUNT, PULSE_OVERRUN, WEB_COUNT, WEB_HIGH_WATER, WEB_SPEED_MM_S] k := by
  simp only [countRegs, out_append, and_assoc]

@[simp ↓] theorem out_readyRegs : Out readyRegs k ↔ Out presetRegs k ∧ Out fabricRegs k ∧ Out modeRegs k ∧ Out
    unitRegs k ∧ Out [ACTIVE_SLOT, BAR_CURRENT_MA, BAR_STATE, BAY_LANES_UP, CAM_SEAM_GAIN_L, CAM_SEAM_GAIN_N,
    CELL_CFG, CHAN_CFG, CHAN_HOLDOFF, CHAN_RATE_LIMIT, CHAN_RATE_WINDOW_US, DET_DISCARDED, DRAM_MIGRATE_PERMILLE,
    DRAM_MIGRATE_STATE, EASEL_BYPASS, EASEL_PHYS, EASEL_QUAY_FILL, EASEL_QUAY_PEAK, EASEL_STATE, EXP_APPLY_STRIP,
    EXP_COMMIT_REPLACED, EXP_PENDING, HOLD_CAUSE, HOLD_FROM_DORMANT, ISLAND_STATE, JOB_STAMP, JOB_START_COUNT,
    LANE_SLICE, LANE_STATE, LIGHT_POWER_W, PD_STATE, TILE_LOG_STATE, TILE_PHYS, TIMER_PERIOD, TRIG_NEXT_COUNT] k :=
    by
  simp only [readyRegs, out_append, and_assoc]

@[simp ↓] theorem out_lostRegs : Out lostRegs k ↔ Out fabricRegs k ∧ Out holdRegs k ∧ Out declareRegs k ∧ Out
    [ARCHIVE_GAPS, CANVAS_ARCHIVE_EVICT, CANVAS_CROP_EVICT, CANVAS_OVERRUN, CMP_ENGINES_BUSY, CMP_FAIL,
    DRAM_MIGRATE_STATE, DRAM_PKG_CHANNEL, EASEL_QUAY_DROP, EASEL_QUAY_FILL, EASEL_QUAY_PEAK, REG_CAPTURES,
    SWITCH_RESULT, WHARF_HOST_RD_BYTES, WH_PROGRESS_ROWS, WH_STATUS] k := by
  simp only [lostRegs, out_append, and_assoc]

@[simp ↓] theorem out_taskRegs : Out taskRegs k ↔ Out presetRegs k ∧ Out requestRegs k ∧ Out jobRegs k ∧ Out
    [EVT_COUNT, EVT_TASK_LOST, EVT_TASK_LOST_LAST, EVT_TASK_REFUSED, EVT_TOGGLE, FC_BANK_ACTIVE, FC_CAPTURE_STATE,
    FC_FADE_STATE, FC_SYNC_COUNT, LATCH_COUNT, LATCH_SEQ, LATCH_SPEED, LATCH_TIME, PULSE_COUNT, TIMER_STATE] k := by
  simp only [taskRegs, out_append, and_assoc]

end

end Sys2Proof.Machine
end

