-- ==== Sys2Proof/Laws/KeepOps.lean ====
section
/-! SUPPORT. Laws/KeepOps.lean: what the operations and commands leave alone, of Machine/Ops.lean. -/
namespace Sys2Proof.Machine
open Reg
variable {kk : Key} {vv : Option Nat} {md mh : Option Memory} {mb : Option Blobs}

@[simp ↓] theorem keep_setInt {s : State} {o : Obj} {i : Nat} {v : Int} (ho : o.avoids kk) (h : Holds kk vv md mh
    mb s) :
    Holds kk vv md mh mb (s.setInt o i v) := by
  unfold State.setInt; repeat' first | (simp (maxDischargeDepth := 60) +contextual [*]; done) | split

@[simp ↓] theorem keep_volume {s : State} {o : Obj} {i n : Nat} (ho : o.avoids kk) (h : Holds kk vv md mh mb s) :
    Holds kk vv md mh mb (s.volume o i n) := by
  unfold State.volume; repeat' first | (simp (maxDischargeDepth := 60) +contextual [*]; done) | split

@[simp ↓] theorem keep_life {s : State} {o : Obj} {i n : Nat} (ho : o.avoids kk) (h : Holds kk vv md mh mb s) :
    Holds kk vv md mh mb (s.life o i n) := by
  unfold State.life; repeat' first | (simp (maxDischargeDepth := 60) +contextual [*]; done) | split

@[simp ↓] theorem keep_fresh {s : State} (h : Holds kk vv md mh mb s) : Holds kk vv md mh mb s.fresh.2 := by
  unfold State.fresh; repeat' first | (simp (maxDischargeDepth := 60) +contextual [*]; done) | split

@[simp ↓] theorem keep_bump {s : State} {o : Obj} {i n : Nat} (ho : o.avoids kk) (h : Holds kk vv md mh mb s) :
    Holds kk vv md mh mb (s.bump o i n).1 := by
  unfold State.bump
  simp only
  split
  · exact h
  · exact keep_set ho h

@[simp ↓] theorem keep_markSat {s : State} {k : Key} (hk : Out bookRegs kk) (h : Holds kk vv md mh mb s) :
    Holds kk vv md mh mb (s.markSat k) := by
  have hb := hk; simp [bookRegs] at hb; unfold State.markSat; repeat' first | (simp (maxDischargeDepth := 60) +contextual [*]; done) | split

@[simp ↓] theorem keep_pulseIn {s : State} {p : Nat} (h : Holds kk vv md mh mb s) :
    Holds kk vv md mh mb (s.pulseIn p) := by
  unfold State.pulseIn; repeat' first | (simp (maxDischargeDepth := 60) +contextual [*]; done) | split

@[simp ↓] theorem keep_lostPulse {s : State} {p : Nat} (hk : Out bookRegs kk) (h : Holds kk vv md mh mb s) :
    Holds kk vv md mh mb (s.lostPulse p).1 := by
  have hb := hk; simp [bookRegs] at hb; unfold State.lostPulse; repeat' first | (simp (maxDischargeDepth := 60) +contextual [*]; done) | split

@[simp ↓] theorem keep_pulseSaturated {s : State} (hk : Out bookRegs kk) (h : Holds kk vv md mh mb s) :
    Holds kk vv md mh mb s.pulseSaturated := by
  unfold State.pulseSaturated; repeat' first | (simp (maxDischargeDepth := 60) +contextual [*]; done) | split

@[simp ↓] theorem keep_traceAdd {s : State} {r : TraceRec} (hk : Out bookRegs kk) (h : Holds kk vv md mh mb s) :
    Holds kk vv md mh mb (s.traceAdd r) := by
  have h1 : Reg.TRACE_LOST.avoids kk := hk.avoids (by simp [bookRegs])
  unfold State.traceAdd
  split
  · simp [h]
  · simp only
    split
    · exact keep_pulseSaturated hk (keep_markSat hk (holds_mk.2 (holdsOf_parts.2 (keep_bump h1 h))))
    · exact holds_mk.2 (holdsOf_parts.2 (keep_bump h1 h))

@[simp ↓] theorem keep_traceRec {s : State} {typ island code arg0 arg1 : Nat} (hk : Out bookRegs kk) (h : Holds kk
    vv md mh mb s) :
    Holds kk vv md mh mb (s.traceRec typ island code arg0 arg1) := by
  unfold State.traceRec; repeat' first | (simp (maxDischargeDepth := 60) +contextual [*]; done) | split

@[simp ↓] theorem keep_traceDrain {s : State} {a1 : Nat} (hk : Out [TRACE_HEAD] kk) (h : Holds kk vv md mh mb s) :
    Holds kk vv md mh mb (s.traceDrain a1) := by
  simp at hk
  induction a1 generalizing s with
  | zero => unfold State.traceDrain; repeat' first | (simp (maxDischargeDepth := 60) +contextual [*]; done) | split
  | succ n ih => unfold State.traceDrain; repeat' first | (simp (maxDischargeDepth := 60) +contextual [*]; done) | split

@[simp ↓] theorem keep_lostCleared {s : State} (hk : Out bookRegs kk) (h : Holds kk vv md mh mb s) :
    Holds kk vv md mh mb s.lostCleared := by
  simp [bookRegs] at hk; unfold State.lostCleared; repeat' first | (simp (maxDischargeDepth := 60) +contextual [*]; done) | split

@[simp ↓] theorem keep_traceEvent {s : State} {p : Nat} (hk : Out bookRegs kk) (h : Holds kk vv md mh mb s) :
    Holds kk vv md mh mb (s.traceEvent p) := by
  unfold State.traceEvent; repeat' first | (simp (maxDischargeDepth := 60) +contextual [*]; done) | split

@[simp ↓] theorem keep_emitSaturated {s : State} (hk : Out bookRegs kk) (h : Holds kk vv md mh mb s) :
    Holds kk vv md mh mb s.emitSaturated := by
  unfold State.emitSaturated; repeat' first | (simp (maxDischargeDepth := 60) +contextual [*]; done) | split

@[simp ↓] theorem keep_saturate {s : State} {k : Key} (hk : Out bookRegs kk) (h : Holds kk vv md mh mb s) :
    Holds kk vv md mh mb (s.saturate k) := by
  unfold State.saturate; repeat' first | (simp (maxDischargeDepth := 60) +contextual [*]; done) | split

@[simp ↓] theorem keep_emit {s : State} {p : Nat} (hk : Out bookRegs kk) (h : Holds kk vv md mh mb s) :
    Holds kk vv md mh mb (s.emit p) := by
  unfold State.emit; repeat' first | (simp (maxDischargeDepth := 60) +contextual [*]; done) | split

@[simp ↓] theorem keep_tallyN {s : State} {o : Obj} {i n : Nat} (hk : Out bookRegs kk) (ho : o.avoids kk) (h :
    Holds kk vv md mh mb s) :
    Holds kk vv md mh mb (s.tallyN o i n) := by
  unfold State.tallyN; repeat' first | (simp (maxDischargeDepth := 60) +contextual [*]; done) | split

@[simp ↓] theorem keep_tally {s : State} {o : Obj} {i : Nat} (hk : Out bookRegs kk) (ho : o.avoids kk) (h : Holds
    kk vv md mh mb s) :
    Holds kk vv md mh mb (s.tally o i) := by
  unfold State.tally; repeat' first | (simp (maxDischargeDepth := 60) +contextual [*]; done) | split

@[simp ↓] theorem keep_isoErrors {s : State} {n : Nat} (hk : Out bookRegs kk ∧ Out [ISO_ERROR_RESPONSES] kk) (h :
    Holds kk vv md mh mb s) :
    Holds kk vv md mh mb (s.isoErrors n) := by
  simp at hk; unfold State.isoErrors; repeat' first | (simp (maxDischargeDepth := 60) +contextual [*]; done) | split

@[simp ↓] theorem keep_clearTally {s : State} {o : Obj} {i : Nat} (ho : o.avoids kk) (h : Holds kk vv md mh mb s) :
    Holds kk vv md mh mb (s.clearTally o i) := by
  unfold State.clearTally; repeat' first | (simp (maxDischargeDepth := 60) +contextual [*]; done) | split

@[simp ↓] theorem keep_clearAll {s : State} {os : List Obj} (ho : Out os kk) (h : Holds kk vv md mh mb s) :
    Holds kk vv md mh mb (s.clearAll os) := by
  unfold State.clearAll
  induction os generalizing s with
  | nil => exact h
  | cons o os ih =>
    rw [out_cons] at ho
    exact ih ho.2 (keep_foldl _ (fun t x ht => keep_clearTally ho.1 ht) h)

@[simp ↓] theorem keep_modFn {s : State} {f : Nat} {g : Fn → Fn} (h : Holds kk vv md mh mb s) :
    Holds kk vv md mh mb (s.modFn f g) := by
  unfold State.modFn; repeat' first | (simp (maxDischargeDepth := 60) +contextual [*]; done) | split

@[simp ↓] theorem keep_irq {s : State} {f v : Nat} (h : Holds kk vv md mh mb s) :
    Holds kk vv md mh mb (s.irq f v) := by
  unfold State.irq; repeat' first | (simp (maxDischargeDepth := 60) +contextual [*]; done) | split

@[simp ↓] theorem keep_irqAll {s : State} {v : Nat} (h : Holds kk vv md mh mb s) :
    Holds kk vv md mh mb (s.irqAll v) := by
  unfold State.irqAll; repeat' first | (simp (maxDischargeDepth := 60) +contextual [*]; done) | split

@[simp ↓] theorem keep_emcy {s : State} {code unit : Nat} (hk : Out bookRegs kk ∧ Out emcyRegs kk) (h : Holds kk vv md mh mb s) :
    Holds kk vv md mh mb (s.emcy code unit) := by
  simp at hk
  unfold State.emcy
  simp only
  repeat' split
  all_goals simp [*]

@[simp ↓] theorem keep_emcyCleared {s before : State} (hk : Out bookRegs kk ∧ Out emcyRegs kk) (h : Holds kk vv md
    mh mb s) (h1 : Holds kk vv md mh mb before) :
    Holds kk vv md mh mb (s.emcyCleared before) := by
  simp at hk; unfold State.emcyCleared; repeat' first | (simp (maxDischargeDepth := 60) +contextual [*]; done) | split

@[simp ↓] theorem keep_refuse {s : State} {via : Path} {k : Key} {code : Nat} (hk : Out bookRegs kk ∧ Out
    [HL_DICT_ERRORS] kk) (h : Holds kk vv md mh mb s) :
    Holds kk vv md mh mb (s.refuse via k code) := by
  simp at hk; unfold State.refuse; repeat' first | (simp (maxDischargeDepth := 60) +contextual [*]; done) | split

@[simp ↓] theorem keep_accept {s : State} (h : Holds kk vv md mh mb s) : Holds kk vv md mh mb s.accept := by
  unfold State.accept; repeat' first | (simp (maxDischargeDepth := 60) +contextual [*]; done) | split

@[simp ↓] theorem keep_command {s : State} {via : Path} {o : Obj} {i : Nat} {ok : Bool} {f : State → State} (hk :
    Out bookRegs kk ∧ Out [HL_DICT_ERRORS] kk) (hf : ∀ (x0 : State), Holds kk vv md mh mb x0 → Holds kk vv md mh
    mb (f x0)) (h : Holds kk vv md mh mb s) :
    Holds kk vv md mh mb (s.command via o i ok f) := by
  simp at hk; unfold State.command; repeat' first | (simp (maxDischargeDepth := 60) +contextual [*]; done) | split

@[simp ↓] theorem keep_remember {s : State} {o : Obj} {i v : Nat} (h : Holds kk vv md mh mb s) :
    Holds kk vv md mh mb (s.remember o i v) := by
  unfold State.remember; repeat' first | (simp (maxDischargeDepth := 60) +contextual [*]; done) | split

@[simp ↓] theorem keep_rememberBlob {s : State} {o : Obj} {i : Nat} {b : List Byte} (h : Holds kk vv md mh mb s) :
    Holds kk vv md mh mb (s.rememberBlob o i b) := by
  unfold State.rememberBlob; repeat' first | (simp (maxDischargeDepth := 60) +contextual [*]; done) | split

@[simp ↓] theorem keep_modBar {s : State} {ch : Nat} {f : Bar → Bar} (h : Holds kk vv md mh mb s) :
    Holds kk vv md mh mb (s.modBar ch f) := by
  unfold State.modBar; repeat' first | (simp (maxDischargeDepth := 60) +contextual [*]; done) | split

@[simp ↓] theorem keep_traceCommit {s : State} {o : Obj} {i result at_ : Nat} (hk : Out bookRegs kk) (h : Holds kk
    vv md mh mb s) :
    Holds kk vv md mh mb (s.traceCommit o i result at_) := by
  unfold State.traceCommit; repeat' first | (simp (maxDischargeDepth := 60) +contextual [*]; done) | split

@[simp ↓] theorem keep_logPut {s : State} {e : LogEntry} (hk : Out logRegs kk) (h : Holds kk vv md mh mb s) :
    Holds kk vv md mh mb (s.logPut e) := by
  simp at hk; unfold State.logPut; repeat' first | (simp (maxDischargeDepth := 60) +contextual [*]; done) | split

@[simp ↓] theorem keep_logWrite {s : State} {typ inst payload : Nat} {regs : Dict} {blobs : Blobs} (hk : Out
    logRegs kk) (h : Holds kk vv md mh mb s) :
    Holds kk vv md mh mb (s.logWrite typ inst payload regs blobs) := by
  simp at hk; unfold State.logWrite; repeat' first | (simp (maxDischargeDepth := 60) +contextual [*]; done) | split

@[simp ↓] theorem keep_logWriteCal {s : State} {c : CalStore} (hk : Out logRegs kk) (h : Holds kk vv md mh mb s) :
    Holds kk vv md mh mb (s.logWriteCal c) := by
  simp at hk; unfold State.logWriteCal; repeat' first | (simp (maxDischargeDepth := 60) +contextual [*]; done) | split

@[simp ↓] theorem keep_programFails {s : State} {copy : Nat} (hk : Out bookRegs kk ∧ Out [LOGBOOK_COMMIT_FAIL,
    LOGBOOK_SECTORS_RETIRED, LOGBOOK_STATE] kk) (h : Holds kk vv md mh mb s) :
    Holds kk vv md mh mb (s.programFails copy) := by
  simp at hk; unfold State.programFails; repeat' first | (simp (maxDischargeDepth := 60) +contextual [*]; done) | split

@[simp ↓] theorem keep_restore {s : State} {os : List Obj} {d : Dict} (ho : Out os kk) (h : Holds kk vv md mh mb s) :
    Holds kk vv md mh mb (s.restore os d) := by
  unfold State.restore
  induction os generalizing s with
  | nil => exact h
  | cons o os ih =>
    rw [out_cons] at ho
    refine ih ho.2 (keep_foldl _ (fun t x ht => ?_) h)
    split
    · exact keep_set ho.1 ht
    · exact ht

@[simp ↓] theorem keep_commitSpareMap {s : State} (hk : Out logRegs kk) (h : Holds kk vv md mh mb s) :
    Holds kk vv md mh mb s.commitSpareMap := by
  simp at hk; unfold State.commitSpareMap; repeat' first | (simp (maxDischargeDepth := 60) +contextual [*]; done) | split

@[simp ↓] theorem keep_restDomain {s : State} {kind u : Nat} (hk : Out [ISLAND_STATE, PD_STATE] kk) (h : Holds kk vv
    md mh mb s) :
    Holds kk vv md mh mb (s.restDomain kind u) := by
  simp at hk; unfold State.restDomain; repeat' first | (simp (maxDischargeDepth := 60) +contextual [*]; done) | split

@[simp ↓] theorem keep_setUnit {s : State} {kind u st : Nat} (hk : Out logRegs kk ∧ Out bookRegs kk ∧ Out unitRegs
    kk) (h : Holds kk vv md mh mb s) :
    Holds kk vv md mh mb (s.setUnit kind u st) := by
  simp at hk; unfold State.setUnit; repeat' first | (simp (maxDischargeDepth := 60) +contextual [*]; done) | split

@[simp ↓] theorem keep_addMark {s : State} {kind u trigger : Nat} (h : Holds kk vv md mh mb s) :
    Holds kk vv md mh mb (s.addMark kind u trigger) := by
  unfold State.addMark; repeat' first | (simp (maxDischargeDepth := 60) +contextual [*]; done) | split

@[simp ↓] theorem keep_markUnit {s : State} {kind u trigger : Nat} (hk : Out logRegs kk ∧ Out bookRegs kk ∧ Out
    unitRegs kk) (h : Holds kk vv md mh mb s) :
    Holds kk vv md mh mb (s.markUnit kind u trigger) := by
  simp at hk; unfold State.markUnit; repeat' first | (simp (maxDischargeDepth := 60) +contextual [*]; done) | split

@[simp ↓] theorem keep_declareDead {s : State} {kind u : Nat} (hk : Out declareRegs kk) (h : Holds kk vv md mh mb s)
    :
    Holds kk vv md mh mb (s.declareDead kind u) := by
  simp at hk; unfold State.declareDead; repeat' first | (simp (maxDischargeDepth := 60) +contextual [*]; done) | split

@[simp ↓] theorem keep_selfTestFailed {s : State} {kind u : Nat} (hk : Out logRegs kk ∧ Out bookRegs kk ∧ Out
    unitRegs kk) (h : Holds kk vv md mh mb s) :
    Holds kk vv md mh mb (s.selfTestFailed kind u) := by
  simp at hk; unfold State.selfTestFailed; repeat' first | (simp (maxDischargeDepth := 60) +contextual [*]; done) | split

@[simp ↓] theorem keep_selfTestPassed {s : State} {kind u : Nat} (hk : Out logRegs kk ∧ Out bookRegs kk ∧ Out
    unitRegs kk) (h : Holds kk vv md mh mb s) :
    Holds kk vv md mh mb (s.selfTestPassed kind u) := by
  simp at hk; unfold State.selfTestPassed; repeat' first | (simp (maxDischargeDepth := 60) +contextual [*]; done) | split

@[simp ↓] theorem keep_stopEasel {s : State} {p : Nat} (hk : Out [ISLAND_STATE, PD_STATE] kk) (h : Holds kk vv md mh
    mb s) :
    Holds kk vv md mh mb (s.stopEasel p) := by
  simp at hk; unfold State.stopEasel; repeat' first | (simp (maxDischargeDepth := 60) +contextual [*]; done) | split

@[simp ↓] theorem keep_advance {s : State} {dt : Ns} (hk : Out [TRACE_HEAD] kk) (h : Holds kk vv md mh mb s) :
    Holds kk vv md mh mb (s.advance dt) := by
  simp at hk; unfold State.advance; repeat' first | (simp (maxDischargeDepth := 60) +contextual [*]; done) | split

end Sys2Proof.Machine
end

