-- ==== Sys2Proof/Laws/KeepMarkers.lean ====
section
/-! SUPPORT. Laws/KeepMarkers.lean: what the operations and commands leave alone, of Machine/Markers.lean. -/
namespace Sys2Proof.Machine
open Reg
variable {kk : Key} {vv : Option Nat} {md mh : Option Memory} {mb : Option Blobs}

@[simp ↓] theorem keep_modMarker {s : State} {m : Nat} {f : Marker → Marker} (h : Holds kk vv md mh mb s) :
    Holds kk vv md mh mb (s.modMarker m f) := by
  unfold State.modMarker; repeat' first | (simp (maxDischargeDepth := 60) +contextual [*]; done) | split

@[simp ↓] theorem keep_markRise {s : State} {m base : Nat} (hk : Out bookRegs kk) (h : Holds kk vv md mh mb s) :
    Holds kk vv md mh mb (s.markRise m base) := by
  unfold State.markRise; repeat' first | (simp (maxDischargeDepth := 60) +contextual [*]; done) | split

@[simp ↓] theorem keep_markFall {s : State} {m : Nat} (h : Holds kk vv md mh mb s) :
    Holds kk vv md mh mb (s.markFall m) := by
  unfold State.markFall; repeat' first | (simp (maxDischargeDepth := 60) +contextual [*]; done) | split

@[simp ↓] theorem keep_markHead {s : State} {m left_ : Nat} (hk : Out [MARK_NEXT_COUNT, MARK_QUEUE_FILL] kk) (h :
    Holds kk vv md mh mb s) :
    Holds kk vv md mh mb (s.markHead m left_) := by
  simp at hk; unfold State.markHead; repeat' first | (simp (maxDischargeDepth := 60) +contextual [*]; done) | split

@[simp ↓] theorem keep_markReached {s : State} {m a2 : Nat} (hk : Out bookRegs kk ∧ Out [MARK_FIRED,
    MARK_NEXT_COUNT, MARK_QUEUE_FILL] kk) (h : Holds kk vv md mh mb s) :
    Holds kk vv md mh mb (s.markReached m a2) := by
  simp at hk
  induction a2 generalizing s m with
  | zero => unfold State.markReached; repeat' first | (simp (maxDischargeDepth := 60) +contextual [*]; done) | split
  | succ n ih => unfold State.markReached; repeat' first | (simp (maxDischargeDepth := 60) +contextual [*]; done) | split

@[simp ↓] theorem keep_compareMarker {s : State} {m : Nat} (hk : Out bookRegs kk ∧ Out [MARK_FIRED,
    MARK_NEXT_COUNT, MARK_QUEUE_FILL] kk) (h : Holds kk vv md mh mb s) :
    Holds kk vv md mh mb (s.compareMarker m) := by
  simp at hk; unfold State.compareMarker; repeat' first | (simp (maxDischargeDepth := 60) +contextual [*]; done) | split

@[simp ↓] theorem keep_compareMarkers {s : State} (hk : Out bookRegs kk ∧ Out [MARK_FIRED, MARK_NEXT_COUNT,
    MARK_QUEUE_FILL] kk) (h : Holds kk vv md mh mb s) :
    Holds kk vv md mh mb s.compareMarkers := by
  simp at hk; unfold State.compareMarkers; repeat' first | (simp (maxDischargeDepth := 60) +contextual [*]; done) | split

@[simp ↓] theorem keep_queueFiring {s : State} {m c : Nat} (hk : Out bookRegs kk ∧ Out [MARK_LATE,
    MARK_NEXT_COUNT, MARK_QUEUE_FILL, MARK_QUEUE_FULL] kk) (h : Holds kk vv md mh mb s) :
    Holds kk vv md mh mb (s.queueFiring m c).1 := by
  simp at hk; unfold State.queueFiring; repeat' first | (simp (maxDischargeDepth := 60) +contextual [*]; done) | split

@[simp ↓] theorem keep_clearMarkers {s : State} (hk : Out bookRegs kk ∧ Out [HOLD_MARKER_DISCARD, MARK_NEXT_COUNT,
    MARK_QUEUE_FILL] kk) (h : Holds kk vv md mh mb s) :
    Holds kk vv md mh mb s.clearMarkers := by
  simp at hk; unfold State.clearMarkers; repeat' first | (simp (maxDischargeDepth := 60) +contextual [*]; done) | split

theorem keep_execMarkWidthEnd {dt marker : Nat} {s : State} {t : State} (hk : Out [TRACE_HEAD] kk) (h : Holds kk
    vv md mh mb s) (e : execMarkWidthEnd dt marker s = .next t) :
    Holds kk vv md mh mb t := by
  simp at hk; unfold execMarkWidthEnd at e
  refine keep_act ?_ (fun u hu => ?_) e
  · simp [*]
  · repeat' first | (simp (maxDischargeDepth := 60) +contextual [*]; done) | split

theorem keep_execMarkOnLimit {dt marker : Nat} {s : State} {t : State} (hk : Out bookRegs kk ∧ Out [MARK_ON_LIMIT,
    TRACE_HEAD] kk) (h : Holds kk vv md mh mb s) (e : execMarkOnLimit dt marker s = .next t) :
    Holds kk vv md mh mb t := by
  simp at hk; unfold execMarkOnLimit at e
  refine keep_act ?_ (fun u hu => ?_) e
  · simp [*]
  · repeat' first | (simp (maxDischargeDepth := 60) +contextual [*]; done) | split

theorem keep_execMarkerOvercurrent {dt marker : Nat} {s : State} {t : State} (hk : Out [TRACE_HEAD] kk) (h : Holds
    kk vv md mh mb s) (e : execMarkerOvercurrent dt marker s = .next t) :
    Holds kk vv md mh mb t := by
  simp at hk; unfold execMarkerOvercurrent at e
  refine keep_act ?_ (fun u hu => ?_) e
  · simp [*]
  · repeat' first | (simp (maxDischargeDepth := 60) +contextual [*]; done) | split

end Sys2Proof.Machine
end

