-- ==== Sys2Proof/Laws/KeepDetectors.lean ====
section
/-! SUPPORT. Laws/KeepDetectors.lean: what the operations and commands leave alone, of Machine/Detectors.lean. -/
namespace Sys2Proof.Machine
open Reg
variable {kk : Key} {vv : Option Nat} {md mh : Option Memory} {mb : Option Blobs}

@[simp ↓] theorem keep_modDet {s : State} {d : Nat} {f : Det → Det} (h : Holds kk vv md mh mb s) :
    Holds kk vv md mh mb (s.modDet d f) := by
  unfold State.modDet; repeat' first | (simp (maxDischargeDepth := 60) +contextual [*]; done) | split

@[simp ↓] theorem keep_detDiscard {s : State} {d : Nat} (hk : Out bookRegs kk ∧ Out [DET_DISCARDED] kk) (h : Holds
    kk vv md mh mb s) :
    Holds kk vv md mh mb (s.detDiscard d) := by
  simp at hk; unfold State.detDiscard; repeat' first | (simp (maxDischargeDepth := 60) +contextual [*]; done) | split

@[simp ↓] theorem keep_detDone {s : State} {d : Nat} {turn : Rat} (hk : Out bookRegs kk ∧ Out [DET_AMPLITUDE,
    DET_BLOCKS, DET_LIMIT_HITS, DET_MEAN, DET_PHASE, DET_RATIO_PERMILLE, DET_VALID] kk) (h : Holds kk vv md mh mb
    s) :
    Holds kk vv md mh mb (s.detDone d turn) := by
  simp at hk; unfold State.detDone; repeat' first | (simp (maxDischargeDepth := 60) +contextual [*]; done) | split

@[simp ↓] theorem keep_detSample {s : State} {d : Nat} {settling : Bool} (hk : Out bookRegs kk ∧ Out
    [DET_AMPLITUDE, DET_BLOCKS, DET_DISCARDED, DET_LIMIT_HITS, DET_MEAN, DET_PHASE, DET_RATIO_PERMILLE, DET_VALID]
    kk) (h : Holds kk vv md mh mb s) :
    Holds kk vv md mh mb (s.detSample d settling) := by
  simp at hk; unfold State.detSample; repeat' first | (simp (maxDischargeDepth := 60) +contextual [*]; done) | split

@[simp ↓] theorem keep_detGroupSample {s : State} {g : Nat} {settling : Bool} (hk : Out bookRegs kk ∧ Out
    [DET_AMPLITUDE, DET_BLOCKS, DET_DISCARDED, DET_LIMIT_HITS, DET_MEAN, DET_PHASE, DET_RATIO_PERMILLE, DET_VALID]
    kk) (h : Holds kk vv md mh mb s) :
    Holds kk vv md mh mb (s.detGroupSample g settling) := by
  simp at hk; unfold State.detGroupSample; repeat' first | (simp (maxDischargeDepth := 60) +contextual [*]; done) | split

@[simp ↓] theorem keep_detGroupDiscard {s : State} {g : Nat} (hk : Out bookRegs kk ∧ Out [DET_DISCARDED] kk) (h :
    Holds kk vv md mh mb s) :
    Holds kk vv md mh mb (s.detGroupDiscard g) := by
  simp at hk; unfold State.detGroupDiscard; repeat' first | (simp (maxDischargeDepth := 60) +contextual [*]; done) | split

@[simp ↓] theorem keep_detRef {s : State} {d : Nat} (hk : Out bookRegs kk ∧ Out [DET_AMPLITUDE, DET_BLOCKS,
    DET_DISCARDED, DET_LIMIT_HITS, DET_MEAN, DET_PHASE, DET_RATIO_PERMILLE, DET_VALID] kk) (h : Holds kk vv md mh
    mb s) :
    Holds kk vv md mh mb (s.detRef d) := by
  simp at hk; unfold State.detRef
  repeat' (first
    | (simp (maxDischargeDepth := 60) +contextual [*]; done)
    | simp only [holds_mk, holdsOf_parts]
    | with_reducible refine keep_foldl _ (fun t x ht => ?_) ?_
    | with_reducible refine keep_foldl_fst _ (fun t b x ht => ?_) ?_
    | with_reducible refine keep_ite (fun _ => ?_) (fun _ => ?_)
    | split | with_reducible refine keep_fst ?_ (by assumption) | with_reducible refine keep_snd ?_ (by assumption)
    | dsimp only)

@[simp ↓] theorem keep_detReference {s : State} (hk : Out bookRegs kk ∧ Out [DET_AMPLITUDE, DET_BLOCKS,
    DET_DISCARDED, DET_LIMIT_HITS, DET_MEAN, DET_PHASE, DET_RATIO_PERMILLE, DET_VALID] kk) (h : Holds kk vv md mh
    mb s) :
    Holds kk vv md mh mb s.detReference := by
  simp at hk; unfold State.detReference; repeat' first | (simp (maxDischargeDepth := 60) +contextual [*]; done) | split

@[simp ↓] theorem keep_detUnlock {s : State} (hk : Out bookRegs kk ∧ Out [DET_DISCARDED] kk) (h : Holds kk vv md
    mh mb s) :
    Holds kk vv md mh mb s.detUnlock := by
  simp at hk; unfold State.detUnlock; repeat' first | (simp (maxDischargeDepth := 60) +contextual [*]; done) | split

@[simp ↓] theorem keep_detRate {s : State} {g : Nat} (h : Holds kk vv md mh mb s) :
    Holds kk vv md mh mb (s.detRate g) := by
  unfold State.detRate; repeat' first | (simp (maxDischargeDepth := 60) +contextual [*]; done) | split

@[simp ↓] theorem keep_detRestart {s : State} (hk : Out bookRegs kk ∧ Out [DET_DISCARDED] kk) (h : Holds kk vv md
    mh mb s) :
    Holds kk vv md mh mb s.detRestart := by
  simp at hk; unfold State.detRestart; repeat' first | (simp (maxDischargeDepth := 60) +contextual [*]; done) | split

end Sys2Proof.Machine
end

