-- ==== Sys2Proof/Laws/KeepMemory.lean ====
section
/-! SUPPORT. Laws/KeepMemory.lean: what the operations and commands leave alone, of Machine/Memory.lean. -/
namespace Sys2Proof.Machine
open Reg
variable {kk : Key} {vv : Option Nat} {md mh : Option Memory} {mb : Option Blobs}

@[simp ↓] theorem keep_dramZero {s : State} {a n : Nat} (h : Holds kk vv none mh mb s) :
    Holds kk vv none mh mb (s.dramZero a n) :=
  ⟨h.reg, fun _ e => (by cases e), h.host, h.blob⟩

@[simp ↓] theorem keep_noteClash {s : State} {n : Nat} {d : Side} (h : Holds kk vv md mh mb s) :
    Holds kk vv md mh mb (s.noteClash n d) := by
  unfold State.noteClash; repeat' first | (simp (maxDischargeDepth := 60) +contextual [*]; done) | split

@[simp ↓] theorem keep_hostWrite {s : State} {f a : Nat} {bs : List Byte} (hk : Out [WHARF_HOST_WR_BYTES] kk)
    (h : Holds kk vv md none mb s) : Holds kk vv md none mb (s.hostWrite f a bs) := by
  simp at hk
  exact keep_volume hk ⟨h.reg, h.dram, fun _ e => (by cases e), h.blob⟩

@[simp ↓] theorem keep_ownWrite {s : State} {f a : Nat} {bs : List Byte} (hk : Out [WHARF_HOST_WR_BYTES] kk) (h :
    Holds kk vv md none mb s) :
    Holds kk vv md none mb (s.ownWrite f a bs) := by
  simp at hk; unfold State.ownWrite; repeat' first | (simp (maxDischargeDepth := 60) +contextual [*]; done) | split

@[simp ↓] theorem keep_hostSpoil {s : State} {f a n : Nat} (h : Holds kk vv md none mb s) :
    Holds kk vv md none mb (s.hostSpoil f a n) :=
  ⟨h.reg, h.dram, fun _ e => (by cases e), h.blob⟩

end Sys2Proof.Machine
end

