-- ==== Sys2Proof/Laws/KeepMailbox.lean ====
section
/-! SUPPORT. Laws/KeepMailbox.lean: what the operations and commands leave alone, of Machine/Mailbox.lean. -/
namespace Sys2Proof.Machine
open Reg
variable {kk : Key} {vv : Option Nat} {md mh : Option Memory} {mb : Option Blobs}

@[simp ↓] theorem keep_mboxFinish {s : State} {fn op result code bytes : Nat} {data : List Byte} (hk : Out
    [WHARF_HOST_WR_BYTES] kk) (h : Holds kk vv md none mb s) :
    Holds kk vv md none mb (s.mboxFinish fn op result code bytes data) := by
  simp at hk; unfold State.mboxFinish; repeat' first | (simp (maxDischargeDepth := 60) +contextual [*]; done) | split

@[simp ↓] theorem keep_ptDrop {s : State} {b : Nat} (h : Holds kk vv md mh mb s) :
    Holds kk vv md mh mb (s.ptDrop b) := by
  unfold State.ptDrop; repeat' first | (simp (maxDischargeDepth := 60) +contextual [*]; done) | split

@[simp ↓] theorem keep_ptEnds {s : State} {b result bytes : Nat} {data : List Byte} {code : Nat} (hk : Out
    [WHARF_HOST_WR_BYTES] kk) (h : Holds kk vv md none mb s) :
    Holds kk vv md none mb (s.ptEnds b result bytes data code) := by
  simp at hk; unfold State.ptEnds; repeat' first | (simp (maxDischargeDepth := 60) +contextual [*]; done) | split

@[simp ↓] theorem keep_ptWrapped {s : State} {b : Nat} (hk : Out bookRegs kk ∧ Out [ISO_ERROR_RESPONSES,
    WHARF_HOST_WR_BYTES] kk) (h : Holds kk vv md none mb s) :
    Holds kk vv md none mb (s.ptWrapped b) := by
  simp at hk; unfold State.ptWrapped; repeat' first | (simp (maxDischargeDepth := 60) +contextual [*]; done) | split

@[simp ↓] theorem keep_ptRun {s : State} {b a2 : Nat} (hk : Out [WHARF_HOST_WR_BYTES] kk) (h : Holds kk vv md none
    mb s) :
    Holds kk vv md none mb (s.ptRun b a2) := by
  simp at hk
  induction a2 generalizing s b with
  | zero => unfold State.ptRun; repeat' first | (simp (maxDischargeDepth := 60) +contextual [*]; done) | split
  | succ n ih => unfold State.ptRun; repeat' first | (simp (maxDischargeDepth := 60) +contextual [*]; done) | split

@[simp ↓] theorem keep_ptNext {s : State} {b : Nat} (hk : Out [WHARF_HOST_WR_BYTES] kk) (h : Holds kk vv md none
    mb s) :
    Holds kk vv md none mb (s.ptNext b) := by
  simp at hk; unfold State.ptNext; repeat' first | (simp (maxDischargeDepth := 60) +contextual [*]; done) | split

end Sys2Proof.Machine
end

