-- ==== Sys2Proof/Laws/KeepModes.lean ====
section
/-! SUPPORT. Laws/KeepModes.lean: what the operations and commands leave alone, of Machine/Modes.lean. -/
namespace Sys2Proof.Machine
open Reg
variable {kk : Key} {vv : Option Nat} {md mh : Option Memory} {mb : Option Blobs}

@[simp ↓] theorem keep_toPending {s : State} {m : Nat} (hk : Out [ MODE_PENDING] kk) (h : Holds kk vv md mh mb s) :
    Holds kk vv md mh mb (s.toPending m) := by
  simp at hk; unfold State.toPending; repeat' first | (simp (maxDischargeDepth := 60) +contextual [*]; done) | split

@[simp ↓] theorem keep_toCause {s : State} {c : Nat} (hk : Out [HOLD_CAUSE] kk) (h : Holds kk vv md mh mb s) :
    Holds kk vv md mh mb (s.toCause c) := by
  simp at hk; unfold State.toCause; repeat' first | (simp (maxDischargeDepth := 60) +contextual [*]; done) | split

@[simp ↓] theorem keep_setTarget {s : State} {t : Nat} (hk : Out [TRIG_NEXT_COUNT] kk) (h : Holds kk vv md mh mb s)
    :
    Holds kk vv md mh mb (s.setTarget t) := by
  simp at hk; unfold State.setTarget; repeat' first | (simp (maxDischargeDepth := 60) +contextual [*]; done) | split

@[simp ↓] theorem keep_createLines {s : State} {a1 : Nat} (hk : Out [TRIG_NEXT_COUNT] kk) (h : Holds kk vv md mh mb
    s) :
    Holds kk vv md mh mb (s.createLines a1) := by
  simp at hk
  induction a1 generalizing s with
  | zero => unfold State.createLines; repeat' first | (simp (maxDischargeDepth := 60) +contextual [*]; done) | split
  | succ n ih => unfold State.createLines; repeat' first | (simp (maxDischargeDepth := 60) +contextual [*]; done) | split

@[simp ↓] theorem keep_createDue {s : State} (hk : Out [TRIG_NEXT_COUNT] kk) (h : Holds kk vv md mh mb s) :
    Holds kk vv md mh mb s.createDue := by
  simp at hk; unfold State.createDue; repeat' first | (simp (maxDischargeDepth := 60) +contextual [*]; done) | split

@[simp ↓] theorem keep_repitch {s : State} {t : Nat} (hk : Out [TRIG_NEXT_COUNT] kk) (h : Holds kk vv md mh mb s) :
    Holds kk vv md mh mb (s.repitch t) := by
  simp at hk; unfold State.repitch; repeat' first | (simp (maxDischargeDepth := 60) +contextual [*]; done) | split

@[simp ↓] theorem keep_suspendLines {s : State} (h : Holds kk vv md mh mb s) :
    Holds kk vv md mh mb s.suspendLines := by
  unfold State.suspendLines; repeat' first | (simp (maxDischargeDepth := 60) +contextual [*]; done) | split

@[simp ↓] theorem keep_resumeLines {s : State} (hk : Out bookRegs kk ∧ Out [DET_DISCARDED, TRIG_NEXT_COUNT] kk) (h
    : Holds kk vv md mh mb s) :
    Holds kk vv md mh mb s.resumeLines := by
  simp at hk; unfold State.resumeLines; repeat' first | (simp (maxDischargeDepth := 60) +contextual [*]; done) | split

@[simp ↓] theorem keep_restartPairing {s : State} (h : Holds kk vv md mh mb s) :
    Holds kk vv md mh mb s.restartPairing := by
  unfold State.restartPairing; repeat' first | (simp (maxDischargeDepth := 60) +contextual [*]; done) | split

@[simp ↓] theorem keep_newMethod {s : State} (h : Holds kk vv md mh mb s) :
    Holds kk vv md mh mb s.newMethod := by
  unfold State.newMethod; repeat' first | (simp (maxDischargeDepth := 60) +contextual [*]; done) | split

@[simp ↓] theorem keep_closeRepeat {s : State} {lastLine : Nat} (h : Holds kk vv md mh mb s) :
    Holds kk vv md mh mb (s.closeRepeat lastLine) := by
  unfold State.closeRepeat; repeat' first | (simp (maxDischargeDepth := 60) +contextual [*]; done) | split

@[simp ↓] theorem keep_openRepeat {s : State} {line count : Nat} {phase : Option Nat} {unregistered : Bool} (hk :
    Out [REG_PHASE_STATE, REPEAT_EPOCH, REPEAT_NUMBER, REPEAT_START_COUNT] kk) (h : Holds kk vv md mh mb s) :
    Holds kk vv md mh mb (s.openRepeat line count phase unregistered) := by
  simp at hk; unfold State.openRepeat; repeat' first | (simp (maxDischargeDepth := 60) +contextual [*]; done) | split

@[simp ↓] theorem keep_lightOff {s : State} {ch : Nat} (hk : Out [BAR_CURRENT_MA, BAR_STATE] kk) (h : Holds kk vv
    md mh mb s) :
    Holds kk vv md mh mb (s.lightOff ch) := by
  simp at hk; unfold State.lightOff; repeat' first | (simp (maxDischargeDepth := 60) +contextual [*]; done) | split

@[simp ↓] theorem keep_lightsOff {s : State} (hk : Out [BAR_CURRENT_MA, BAR_STATE] kk) (h : Holds kk vv md mh mb
    s) :
    Holds kk vv md mh mb s.lightsOff := by
  simp at hk; unfold State.lightsOff; repeat' first | (simp (maxDischargeDepth := 60) +contextual [*]; done) | split

@[simp ↓] theorem keep_modReg {s : State} {v : Nat} {f : RegView → RegView} (h : Holds kk vv md mh mb s) :
    Holds kk vv md mh mb (s.modReg v f) := by
  unfold State.modReg; repeat' first | (simp (maxDischargeDepth := 60) +contextual [*]; done) | split

@[simp ↓] theorem keep_learnAbort {s : State} (hk : Out [REG_LEARN_STATE, REG_UP_PRESENT] kk) (h : Holds kk vv md
    mh mb s) :
    Holds kk vv md mh mb s.learnAbort := by
  simp at hk; unfold State.learnAbort; repeat' first | (simp (maxDischargeDepth := 60) +contextual [*]; done) | split

@[simp ↓] theorem keep_calStop {s : State} {result : Nat} (hk : Out [CAL_RESULT, CAL_STATE] kk) (h : Holds kk vv md mh none s) : Holds kk vv md mh none (s.calStop result) := by
  simp at hk
  unfold State.calStop
  simp only
  refine keep_set hk.1 (keep_set hk.2 ?_)
  exact ⟨h.reg, h.dram, h.host, fun _ e => (by cases e)⟩

@[simp ↓] theorem keep_trimAbandon {s : State} (hk : Out bookRegs kk ∧ Out [TRIM_ABANDONED, TRIM_BUSY_BAY,
    TRIM_LAST_RESULT, TRIM_LAST_STRIP] kk) (h : Holds kk vv md mh mb s) :
    Holds kk vv md mh mb s.trimAbandon := by
  simp at hk; unfold State.trimAbandon; repeat' first | (simp (maxDischargeDepth := 60) +contextual [*]; done) | split

@[simp ↓] theorem keep_trimSpoiled {s : State} {b n : Nat} (hk : Out bookRegs kk ∧ Out [TRIM_ABANDONED,
    TRIM_BUSY_BAY, TRIM_LAST_RESULT, TRIM_LAST_STRIP] kk) (h : Holds kk vv md mh mb s) :
    Holds kk vv md mh mb (s.trimSpoiled b n) := by
  simp at hk; unfold State.trimSpoiled; repeat' first | (simp (maxDischargeDepth := 60) +contextual [*]; done) | split

@[simp ↓] theorem keep_leaveMode {s : State} (hk : Out bookRegs kk ∧ Out [CAL_RESULT, CAL_STATE, REG_LEARN_STATE,
    REG_UP_PRESENT, TRIM_ABANDONED, TRIM_BUSY_BAY, TRIM_LAST_RESULT, TRIM_LAST_STRIP] kk) (h : Holds kk vv md mh
    none s) :
    Holds kk vv md mh none s.leaveMode := by
  simp at hk; unfold State.leaveMode; repeat' first | (simp (maxDischargeDepth := 60) +contextual [*]; done) | split

@[simp ↓] theorem keep_powerDownDomains {s : State} (hk : Out bookRegs kk ∧ Out [BAY_LANES_UP, BAY_POCXP_MW,
    BAY_SPEED, BAY_STATE, EASEL_STATE, FERRY_DISCARD, ISLAND_STATE, ISO_ERROR_RESPONSES, LANE_STATE, PD_STATE,
    TILE_LOG_STATE, WHARF_HOST_WR_BYTES] kk) (h : Holds kk vv md none mb s) :
    Holds kk vv md none mb s.powerDownDomains := by
  simp at hk; unfold State.powerDownDomains; repeat' first | (simp (maxDischargeDepth := 60) +contextual [*]; done) | split

@[simp ↓] theorem keep_creditLife {s : State} (hk : Out [FAN_TRAY_MINUTES, MODULE_INSPECT_MINUTES,
    MODULE_ON_MINUTES, PSU_ON_MINUTES] kk) (h : Holds kk vv md mh mb s) :
    Holds kk vv md mh mb s.creditLife := by
  simp at hk; unfold State.creditLife; repeat' first | (simp (maxDischargeDepth := 60) +contextual [*]; done) | split

@[simp ↓] theorem keep_traceRequest {s : State} {target result : Nat} (hk : Out bookRegs kk) (h : Holds kk vv md
    mh mb s) :
    Holds kk vv md mh mb (s.traceRequest target result) := by
  unfold State.traceRequest; repeat' first | (simp (maxDischargeDepth := 60) +contextual [*]; done) | split

@[simp ↓] theorem keep_modeResult {s : State} {r : Nat} (hk : Out [ MODE_RESULT] kk) (h : Holds kk vv md mh mb s) :
    Holds kk vv md mh mb (s.modeResult r) := by
  simp at hk; unfold State.modeResult; repeat' first | (simp (maxDischargeDepth := 60) +contextual [*]; done) | split

@[simp ↓] theorem keep_copyPauses {s : State} {hold : Bool} (h : Holds kk vv md mh mb s) :
    Holds kk vv md mh mb (s.copyPauses hold) := by
  unfold State.copyPauses; repeat' first | (simp (maxDischargeDepth := 60) +contextual [*]; done) | split

@[simp ↓] theorem keep_setMode {s : State} {m line : Nat} (hk : Out modeRegs kk) (h : Holds kk vv md mh none s) :
    Holds kk vv md mh none (s.setMode m line) := by
  simp at hk; unfold State.setMode; repeat' first | (simp (maxDischargeDepth := 60) +contextual [*]; done) | split

@[simp ↓] theorem keep_freezeIslands {s : State} {from_ to_ : Nat} (hk : Out [ISLAND_STATE] kk) (h : Holds kk vv
    md mh mb s) :
    Holds kk vv md mh mb (s.freezeIslands from_ to_) := by
  simp at hk; unfold State.freezeIslands; repeat' first | (simp (maxDischargeDepth := 60) +contextual [*]; done) | split

@[simp ↓] theorem keep_clearRejects {s : State} (hk : Out bookRegs kk ∧ Out [REJECT_BITMAP, REJECT_QUEUE_DROP] kk)
    (h : Holds kk vv md mh mb s) :
    Holds kk vv md mh mb s.clearRejects := by
  simp at hk; unfold State.clearRejects; repeat' first | (simp (maxDischargeDepth := 60) +contextual [*]; done) | split

@[simp ↓] theorem keep_enterHold {s : State} {byCause : Bool} (hk : Out modeRegs kk ∧ Out [BAR_CURRENT_MA,
    BAR_STATE, BAY_LANES_UP, BAY_POCXP_MW, BAY_SPEED, BAY_STATE, EASEL_STATE, FERRY_DISCARD, HOLD_COUNT,
    HOLD_FROM_DORMANT, HOLD_MARKER_DISCARD, ISLAND_STATE, ISO_ERROR_RESPONSES, LANE_STATE, MARK_NEXT_COUNT,
    MARK_QUEUE_FILL, PD_STATE, REJECT_BITMAP, REJECT_QUEUE_DROP, TILE_LOG_STATE, WHARF_HOST_WR_BYTES] kk) (h : Holds
    kk vv md none none s) :
    Holds kk vv md none none (s.enterHold byCause) := by
  simp at hk; unfold State.enterHold; repeat' first | (simp (maxDischargeDepth := 60) +contextual [*]; done) | split

@[simp ↓] theorem keep_addCause {s : State} {b : Nat} (hk : Out holdRegs kk) (h : Holds kk vv md none none s) :
    Holds kk vv md none none (s.addCause b) := by
  simp at hk; unfold State.addCause; repeat' first | (simp (maxDischargeDepth := 60) +contextual [*]; done) | split

@[simp ↓] theorem keep_clearCause {s : State} {b : Nat} (hk : Out bookRegs kk ∧ Out emcyRegs kk ∧ Out [HOLD_CAUSE]
    kk) (h : Holds kk vv md mh mb s) :
    Holds kk vv md mh mb (s.clearCause b) := by
  simp at hk; unfold State.clearCause; repeat' first | (simp (maxDischargeDepth := 60) +contextual [*]; done) | split

@[simp ↓] theorem keep_commitCounters {s : State} (hk : Out logRegs kk ∧ Out [FAN_TRAY_MINUTES,
    MODULE_INSPECT_MINUTES, MODULE_ON_MINUTES, PSU_ON_MINUTES] kk) (h : Holds kk vv md mh mb s) :
    Holds kk vv md mh mb s.commitCounters := by
  simp at hk; unfold State.commitCounters; repeat' first | (simp (maxDischargeDepth := 60) +contextual [*]; done) | split

@[simp ↓] theorem keep_enterDormant {s : State} (hk : Out modeRegs kk ∧ Out logRegs kk ∧ Out [BAR_CURRENT_MA,
    BAR_STATE, BAY_LANES_UP, BAY_POCXP_MW, BAY_SPEED, BAY_STATE, EASEL_STATE, FERRY_DISCARD, ISLAND_STATE,
    ISO_ERROR_RESPONSES, LANE_STATE, PD_STATE, TILE_LOG_STATE, WHARF_HOST_WR_BYTES] kk) (h : Holds kk vv md none
    none s) :
    Holds kk vv md none none s.enterDormant := by
  simp at hk; unfold State.enterDormant; repeat' first | (simp (maxDischargeDepth := 60) +contextual [*]; done) | split

@[simp ↓] theorem keep_capture {s : State} {v : Nat} (hk : Out bookRegs kk ∧ Out [REG_CAPTURES] kk) (h : Holds kk
    vv md mh mb s) :
    Holds kk vv md mh mb (s.capture v) := by
  simp at hk; unfold State.capture; repeat' first | (simp (maxDischargeDepth := 60) +contextual [*]; done) | split

@[simp ↓] theorem keep_captureViews {s : State} (hk : Out bookRegs kk ∧ Out [REG_CAPTURES] kk) (h : Holds kk vv md
    mh mb s) :
    Holds kk vv md mh mb s.captureViews := by
  simp at hk; unfold State.captureViews; repeat' first | (simp (maxDischargeDepth := 60) +contextual [*]; done) | split

end Sys2Proof.Machine
end

