-- ==== Sys2Proof/Laws/KeepFrames.lean ====
section
/-! SUPPORT. Laws/KeepFrames.lean: what the operations and commands leave alone, of Machine/Frames.lean. -/
namespace Sys2Proof.Machine
open Reg
variable {kk : Key} {vv : Option Nat} {md mh : Option Memory} {mb : Option Blobs}

@[simp ↓] theorem keep_idleBlocks {s : State} (h : Holds kk vv md mh mb s) :
    Holds kk vv md mh mb s.idleBlocks := by
  unfold State.idleBlocks; repeat' first | (simp (maxDischargeDepth := 60) +contextual [*]; done) | split

@[simp ↓] theorem keep_sendBlocks {s : State} {f : List Byte} (h : Holds kk vv md mh mb s) :
    Holds kk vv md mh mb (s.sendBlocks f) := by
  unfold State.sendBlocks; repeat' first | (simp (maxDischargeDepth := 60) +contextual [*]; done) | split

@[simp ↓] theorem keep_sendFrame {s : State} {typ : Nat} {payload : List Byte} (h : Holds kk vv md mh mb s) :
    Holds kk vv md mh mb (s.sendFrame typ payload) := by
  unfold State.sendFrame; repeat' first | (simp (maxDischargeDepth := 60) +contextual [*]; done) | split

@[simp ↓] theorem keep_laneBytes {s : State} {n : Nat} (hk : Out [LANE_BYTES] kk) (h : Holds kk vv md mh mb s) :
    Holds kk vv md mh mb (s.laneBytes n) := by
  simp at hk; unfold State.laneBytes; repeat' first | (simp (maxDischargeDepth := 60) +contextual [*]; done) | split

@[simp ↓] theorem keep_takeFrame {s : State} {typ : Nat} {f : List Byte} (hk : Out bookRegs kk ∧ Out
    [CASCADE_FRAME_CRC, CASCADE_FRAME_LOST, LANE_BYTES] kk) (h : Holds kk vv md mh mb s) :
    Holds kk vv md mh mb (s.takeFrame typ f).1 := by
  simp at hk; unfold State.takeFrame; repeat' first | (simp (maxDischargeDepth := 60) +contextual [*]; done) | split

end Sys2Proof.Machine
end

