-- ==== Sys2Proof/Laws/KeepRings.lean ====
section
/-! SUPPORT. Laws/KeepRings.lean: what the operations and commands leave alone, of Machine/Rings.lean. -/
namespace Sys2Proof.Machine
open Reg
variable {kk : Key} {vv : Option Nat} {md mh : Option Memory} {mb : Option Blobs}

@[simp ↓] theorem keep_modRing {s : State} {r : Nat} {f : Ring → Ring} (h : Holds kk vv md mh mb s) :
    Holds kk vv md mh mb (s.modRing r f) := by
  unfold State.modRing; repeat' first | (simp (maxDischargeDepth := 60) +contextual [*]; done) | split

@[simp ↓] theorem keep_ringStaged {s : State} {r : Nat} (hk : Out [RING_STAGED_BYTES] kk) (h : Holds kk vv md mh
    mb s) :
    Holds kk vv md mh mb (s.ringStaged r) := by
  simp at hk; unfold State.ringStaged; repeat' first | (simp (maxDischargeDepth := 60) +contextual [*]; done) | split

@[simp ↓] theorem keep_ringAdvance {s : State} {r n : Nat} {entry : List Byte} (hk : Out [WHARF_HOST_WR_BYTES] kk)
    (h : Holds kk vv md none mb s) :
    Holds kk vv md none mb (s.ringAdvance r n entry) := by
  simp at hk; unfold State.ringAdvance; repeat' first | (simp (maxDischargeDepth := 60) +contextual [*]; done) | split

@[simp ↓] theorem keep_frameWrite {s : State} {r : Nat} {f : Frame} {payload : List Byte} (hk : Out [RING_FRAMES,
    WHARF_HOST_WR_BYTES] kk) (h : Holds kk vv md none mb s) :
    Holds kk vv md none mb (s.frameWrite r f payload) := by
  simp at hk; unfold State.frameWrite; repeat' first | (simp (maxDischargeDepth := 60) +contextual [*]; done) | split

theorem keep_ringTake {s : State} {r : Nat} {t : State} (hk : Out bookRegs kk ∧ Out [RING_FRAMES, RING_OVERSIZE,
    WHARF_HOST_WR_BYTES] kk) (h : Holds kk vv md none mb s) (e : s.ringTake r = some t) :
    Holds kk vv md none mb t := by
  simp at hk; unfold State.ringTake at e; try dsimp only at e
  repeat' split at e
  all_goals cases e
  all_goals repeat' first | (simp (maxDischargeDepth := 60) +contextual [*]; done) | split

@[simp ↓] theorem keep_ringDrain {s : State} {r a2 : Nat} (hk : Out bookRegs kk ∧ Out [RING_FRAMES, RING_OVERSIZE,
    RING_STAGED_BYTES, WHARF_HOST_WR_BYTES] kk) (h : Holds kk vv md none mb s) :
    Holds kk vv md none mb (s.ringDrain r a2) := by
  simp at hk
  induction a2 generalizing s r with
  | zero =>
    unfold State.ringDrain
    repeat' (first
      | (simp (maxDischargeDepth := 60) +contextual [*]; done)
      | with_reducible apply ih
      | with_reducible refine keep_ringStaged ?_ ?_
      | simp only [holds_mk, holdsOf_parts]
      | with_reducible refine keep_foldl _ (fun t x ht => ?_) ?_
      | with_reducible refine keep_foldl_fst _ (fun t b x ht => ?_) ?_
      | with_reducible refine keep_ite (fun _ => ?_) (fun _ => ?_)
      | split | with_reducible refine keep_fst ?_ (by assumption) | with_reducible refine keep_snd ?_ (by assumption)
      | with_reducible refine keep_ringTake ?_ ?_ (by assumption)
      | (intro _; try dsimp only)
      | dsimp only)
  | succ n ih =>
    unfold State.ringDrain
    repeat' (first
      | (simp (maxDischargeDepth := 60) +contextual [*]; done)
      | with_reducible apply ih
      | with_reducible refine keep_ringStaged ?_ ?_
      | simp only [holds_mk, holdsOf_parts]
      | with_reducible refine keep_foldl _ (fun t x ht => ?_) ?_
      | with_reducible refine keep_foldl_fst _ (fun t b x ht => ?_) ?_
      | with_reducible refine keep_ite (fun _ => ?_) (fun _ => ?_)
      | split | with_reducible refine keep_fst ?_ (by assumption) | with_reducible refine keep_snd ?_ (by assumption)
      | with_reducible refine keep_ringTake ?_ ?_ (by assumption)
      | (intro _; try dsimp only)
      | dsimp only)

@[simp ↓] theorem keep_ringFlush {s : State} {r : Nat} (hk : Out bookRegs kk ∧ Out [RING_FRAMES, RING_OVERSIZE,
    RING_STAGED_BYTES, WHARF_HOST_WR_BYTES] kk) (h : Holds kk vv md none mb s) :
    Holds kk vv md none mb (s.ringFlush r) := by
  simp at hk; unfold State.ringFlush; repeat' first | (simp (maxDischargeDepth := 60) +contextual [*]; done) | split

@[simp ↓] theorem keep_ringDropped {s : State} {r : Nat} (hk : Out bookRegs kk ∧ Out [RING_DROP] kk) (h : Holds kk
    vv md mh mb s) :
    Holds kk vv md mh mb (s.ringDropped r) := by
  simp at hk; unfold State.ringDropped; repeat' first | (simp (maxDischargeDepth := 60) +contextual [*]; done) | split

@[simp ↓] theorem keep_ringPut {s : State} {r : Nat} {f : Frame} (hk : Out bookRegs kk ∧ Out [RING_DROP,
    RING_FRAMES, RING_OVERSIZE, RING_STAGED_BYTES, WHARF_HOST_WR_BYTES] kk) (h : Holds kk vv md none mb s) :
    Holds kk vv md none mb (s.ringPut r f) := by
  simp at hk; unfold State.ringPut; repeat' first | (simp (maxDischargeDepth := 60) +contextual [*]; done) | split

@[simp ↓] theorem keep_record {s : State} {bytes : List Byte} {keep : Bool} (hk : Out bookRegs kk ∧ Out
    [RING_DROP, RING_FRAMES, RING_OVERSIZE, RING_STAGED_BYTES, WHARF_HOST_WR_BYTES] kk) (h : Holds kk vv md none
    mb s) :
    Holds kk vv md none mb (s.record bytes keep) := by
  simp at hk; unfold State.record; repeat' first | (simp (maxDischargeDepth := 60) +contextual [*]; done) | split

@[simp ↓] theorem keep_eventFrame {s : State} {typ unit_ : Nat} {payload : List Byte} (hk : Out bookRegs kk ∧ Out
    [RING_DROP, RING_FRAMES, RING_OVERSIZE, RING_STAGED_BYTES, WHARF_HOST_WR_BYTES] kk) (h : Holds kk vv md none
    mb s) :
    Holds kk vv md none mb (s.eventFrame typ unit_ payload) := by
  simp at hk; unfold State.eventFrame; repeat' first | (simp (maxDischargeDepth := 60) +contextual [*]; done) | split

@[simp ↓] theorem keep_flushRings {s : State} (hk : Out bookRegs kk ∧ Out [RING_FRAMES, RING_OVERSIZE,
    RING_STAGED_BYTES, WHARF_HOST_WR_BYTES] kk) (h : Holds kk vv md none mb s) :
    Holds kk vv md none mb s.flushRings := by
  simp at hk; unfold State.flushRings; repeat' first | (simp (maxDischargeDepth := 60) +contextual [*]; done) | split

@[simp ↓] theorem keep_writeRingEnable {s : State} {via : Path} {r v : Nat} (hk : Out bookRegs kk ∧ Out
    [HL_DICT_ERRORS, RING_ENABLE, RING_FRAMES, RING_OVERSIZE, RING_STAGED_BYTES, WHARF_HOST_WR_BYTES] kk) (h :
    Holds kk vv md none mb s) :
    Holds kk vv md none mb (s.writeRingEnable via r v) := by
  simp at hk; unfold State.writeRingEnable; repeat' first | (simp (maxDischargeDepth := 60) +contextual [*]; done) | split

theorem keep_execRingEnableWrite {dt : Nat} {via : Path} {ring value : Nat} {s : State} {t : State} (hk : Out
    bookRegs kk ∧ Out [HL_DICT_ERRORS, RING_ENABLE, RING_FRAMES, RING_OVERSIZE, RING_STAGED_BYTES, TRACE_HEAD,
    WHARF_HOST_WR_BYTES] kk) (h : Holds kk vv md none mb s) (e : execRingEnableWrite dt via ring value s = .next
    t) :
    Holds kk vv md none mb t := by
  simp at hk; unfold execRingEnableWrite at e
  refine keep_act ?_ (fun u hu => ?_) e
  · simp [*]
  · repeat' first | (simp (maxDischargeDepth := 60) +contextual [*]; done) | split

theorem keep_execRingCoalesceExpiry {dt ring : Nat} {s : State} {t : State} (hk : Out [TRACE_HEAD] kk) (h : Holds
    kk vv md mh mb s) (e : execRingCoalesceExpiry dt ring s = .next t) :
    Holds kk vv md mh mb t := by
  simp at hk; unfold execRingCoalesceExpiry at e
  refine keep_act ?_ (fun u hu => ?_) e
  · simp [*]
  · repeat' first | (simp (maxDischargeDepth := 60) +contextual [*]; done) | split

theorem keep_execHlRingConsWrite {dt fn ring value : Nat} {s : State} {t : State} (hk : Out bookRegs kk ∧ Out
    [HL_DICT_ERRORS, RING_FRAMES, RING_OVERSIZE, RING_STAGED_BYTES, TRACE_HEAD, WHARF_HOST_WR_BYTES] kk) (h :
    Holds kk vv md none mb s) (e : execHlRingConsWrite dt fn ring value s = .next t) :
    Holds kk vv md none mb t := by
  simp at hk; unfold execHlRingConsWrite at e
  refine keep_act ?_ (fun u hu => ?_) e
  · simp [*]
  · repeat' first | (simp (maxDischargeDepth := 60) +contextual [*]; done) | split

end Sys2Proof.Machine
end

