-- ==== Sys2Proof/Laws/KeepRecords.lean ====
section
/-! SUPPORT. Laws/KeepRecords.lean: what the operations and commands leave alone, of Machine/Records.lean. -/
namespace Sys2Proof.Machine
open Reg
variable {kk : Key} {vv : Option Nat} {md mh : Option Memory} {mb : Option Blobs}

@[simp ↓] theorem keep_modRep {s : State} {k : Nat} {f : Rep → Rep} (h : Holds kk vv md mh mb s) :
    Holds kk vv md mh mb (s.modRep k f) := by
  unfold State.modRep; repeat' first | (simp (maxDischargeDepth := 60) +contextual [*]; done) | split

@[simp ↓] theorem keep_modView {s : State} {v : Nat} {f : View → View} (h : Holds kk vv md mh mb s) :
    Holds kk vv md mh mb (s.modView v f) := by
  unfold State.modView; repeat' first | (simp (maxDischargeDepth := 60) +contextual [*]; done) | split

@[simp ↓] theorem keep_modEasel {s : State} {k : Nat} {f : Easel → Easel} (h : Holds kk vv md mh mb s) :
    Holds kk vv md mh mb (s.modEasel k f) := by
  unfold State.modEasel; repeat' first | (simp (maxDischargeDepth := 60) +contextual [*]; done) | split

@[simp ↓] theorem keep_modCtx {s : State} {b : Nat} {f : Ctx → Ctx} (h : Holds kk vv md mh mb s) :
    Holds kk vv md mh mb (s.modCtx b f) := by
  unfold State.modCtx; repeat' first | (simp (maxDischargeDepth := 60) +contextual [*]; done) | split

@[simp ↓] theorem keep_modStrip {s : State} {v n : Nat} {f : CStrip → CStrip} (h : Holds kk vv md mh mb s) :
    Holds kk vv md mh mb (s.modStrip v n f) := by
  unfold State.modStrip; repeat' first | (simp (maxDischargeDepth := 60) +contextual [*]; done) | split

@[simp ↓] theorem keep_loadEngine {s : State} (h : Holds kk vv md mh mb s) :
    Holds kk vv md mh mb s.loadEngine := by
  unfold State.loadEngine; repeat' first | (simp (maxDischargeDepth := 60) +contextual [*]; done) | split

@[simp ↓] theorem keep_archTake {s : State} {v : Nat} (hk : Out [WH_STATUS] kk) (h : Holds kk vv md mh mb s) :
    Holds kk vv md mh mb (s.archTake v) := by
  simp at hk; unfold State.archTake; repeat' first | (simp (maxDischargeDepth := 60) +contextual [*]; done) | split

@[simp ↓] theorem keep_archSettle {s : State} (hk : Out [CMP_ENGINES_BUSY, WH_STATUS] kk) (h : Holds kk vv md mh mb
    s) :
    Holds kk vv md mh mb s.archSettle := by
  simp at hk; unfold State.archSettle; repeat' first | (simp (maxDischargeDepth := 60) +contextual [*]; done) | split

@[simp ↓] theorem keep_flag {s : State} {v n mask : Nat} (h : Holds kk vv md mh mb s) :
    Holds kk vv md mh mb (s.flag v n mask) := by
  unfold State.flag; repeat' first | (simp (maxDischargeDepth := 60) +contextual [*]; done) | split

@[simp ↓] theorem keep_statFlag {s : State} {b n mask : Nat} (h : Holds kk vv md mh mb s) :
    Holds kk vv md mh mb (s.statFlag b n mask) := by
  unfold State.statFlag; repeat' first | (simp (maxDischargeDepth := 60) +contextual [*]; done) | split

@[simp ↓] theorem keep_camFlag {s : State} {b n mask : Nat} (h : Holds kk vv md mh mb s) :
    Holds kk vv md mh mb (s.camFlag b n mask) := by
  unfold State.camFlag; repeat' first | (simp (maxDischargeDepth := 60) +contextual [*]; done) | split

@[simp ↓] theorem keep_noteStrip {s : State} {v : Nat} {x : CStrip} (h : Holds kk vv md mh mb s) :
    Holds kk vv md mh mb (s.noteStrip v x) := by
  unfold State.noteStrip; repeat' first | (simp (maxDischargeDepth := 60) +contextual [*]; done) | split

@[simp ↓] theorem keep_recordId {s : State} (hk : Out logRegs kk ∧ Out [DEF_NEXT_ID] kk) (h : Holds kk vv md mh mb
    s) :
    Holds kk vv md mh mb s.recordId.2 := by
  simp at hk; unfold State.recordId; repeat' first | (simp (maxDischargeDepth := 60) +contextual [*]; done) | split

@[simp ↓] theorem keep_emitRecord {s : State} {keep : Bool} {bytes : Nat → List Byte} (hk : Out recordRegs kk) (h
    : Holds kk vv md none mb s) :
    Holds kk vv md none mb (s.emitRecord keep bytes) := by
  simp at hk; unfold State.emitRecord; repeat' first | (simp (maxDischargeDepth := 60) +contextual [*]; done) | split

@[simp ↓] theorem keep_blindRecord {s : State} {r : Rep} {b : Rect} (hk : Out recordRegs kk) (h : Holds kk vv md
    none mb s) :
    Holds kk vv md none mb (s.blindRecord r b) := by
  simp at hk; unfold State.blindRecord; repeat' first | (simp (maxDischargeDepth := 60) +contextual [*]; done) | split

@[simp ↓] theorem keep_closeRects {s : State} {p : Rect → Bool} (hk : Out recordRegs kk) (h : Holds kk vv md none
    mb s) :
    Holds kk vv md none mb (s.closeRects p) := by
  simp at hk; unfold State.closeRects
  repeat' (first
    | (simp (maxDischargeDepth := 60) +contextual [*]; done)
    | simp only [holds_mk, holdsOf_parts]
    | with_reducible refine keep_foldl _ (fun t x ht => ?_) ?_
    | with_reducible refine keep_foldl_fst _ (fun t b x ht => ?_) ?_
    | with_reducible refine keep_ite (fun _ => ?_) (fun _ => ?_)
    | split | with_reducible refine keep_fst ?_ (by assumption) | with_reducible refine keep_snd ?_ (by assumption)
    | dsimp only)

@[simp ↓] theorem keep_blindCols {s : State} {v cause x0 x1 n : Nat} (h : Holds kk vv md mh mb s) :
    Holds kk vv md mh mb (s.blindCols v cause x0 x1 n) := by
  unfold State.blindCols; repeat' first | (simp (maxDischargeDepth := 60) +contextual [*]; done) | split

@[simp ↓] theorem keep_blindRange {s : State} {v cause x0 x1 n : Nat} (h : Holds kk vv md mh mb s) :
    Holds kk vv md mh mb (s.blindRange v cause x0 x1 n) := by
  unfold State.blindRange; repeat' first | (simp (maxDischargeDepth := 60) +contextual [*]; done) | split

@[simp ↓] theorem keep_blindLine {s : State} {v cause n : Nat} (h : Holds kk vv md mh mb s) :
    Holds kk vv md mh mb (s.blindLine v cause n) := by
  unfold State.blindLine; repeat' first | (simp (maxDischargeDepth := 60) +contextual [*]; done) | split

end Sys2Proof.Machine
end

