-- ==== Sys2Proof/Laws/KeepCanvas.lean ====
section
/-! SUPPORT. Laws/KeepCanvas.lean: what the operations and commands leave alone, of Machine/Canvas.lean. -/
namespace Sys2Proof.Machine
open Reg
variable {kk : Key} {vv : Option Nat} {md mh : Option Memory} {mb : Option Blobs}

@[simp ↓] theorem keep_checkGeometry {s : State} (hk : Out [VIEW_CONFIG_RESULT] kk) (h : Holds kk vv md mh mb s) :
    Holds kk vv md mh mb s.checkGeometry.1 := by
  simp at hk; unfold State.checkGeometry; repeat' first | (simp (maxDischargeDepth := 60) +contextual [*]; done) | split

@[simp ↓] theorem keep_writeHeader {s : State} {v : Nat} {x : CStrip} (h : Holds kk vv none mh mb s) :
    Holds kk vv none mh mb (s.writeHeader v x) := by
  unfold State.writeHeader; repeat' first | (simp (maxDischargeDepth := 60) +contextual [*]; done) | split

@[simp ↓] theorem keep_gapPacket {s : State} {v : Nat} {x : CStrip} (hk : Out bookRegs kk ∧ Out [ARCHIVE_GAPS,
    RING_DROP, RING_FRAMES, RING_OVERSIZE, RING_STAGED_BYTES, WHARF_HOST_WR_BYTES] kk) (h : Holds kk vv md none mb
    s) :
    Holds kk vv md none mb (s.gapPacket v x) := by
  simp at hk; unfold State.gapPacket; repeat' first | (simp (maxDischargeDepth := 60) +contextual [*]; done) | split

@[simp ↓] theorem keep_reclaim {s : State} {v : Nat} {x : CStrip} (hk : Out bookRegs kk ∧ Out emcyRegs kk ∧ Out
    [ARCHIVE_GAPS, CANVAS_ARCHIVE_EVICT, CANVAS_CROP_EVICT, CANVAS_OVERRUN, RING_DROP, RING_FRAMES, RING_OVERSIZE,
    RING_STAGED_BYTES, WHARF_HOST_WR_BYTES] kk) (h : Holds kk vv md none mb s) :
    Holds kk vv md none mb (s.reclaim v x) := by
  simp at hk; unfold State.reclaim; repeat' first | (simp (maxDischargeDepth := 60) +contextual [*]; done) | split

@[simp ↓] theorem keep_reclaimAll {s : State} {v : Nat} (hk : Out bookRegs kk ∧ Out emcyRegs kk ∧ Out
    [ARCHIVE_GAPS, CANVAS_ARCHIVE_EVICT, CANVAS_CROP_EVICT, CANVAS_OVERRUN, RING_DROP, RING_FRAMES, RING_OVERSIZE,
    RING_STAGED_BYTES, WHARF_HOST_WR_BYTES] kk) (h : Holds kk vv md none mb s) :
    Holds kk vv md none mb (s.reclaimAll v) := by
  simp at hk; unfold State.reclaimAll; repeat' first | (simp (maxDischargeDepth := 60) +contextual [*]; done) | split

@[simp ↓] theorem keep_zeroLines {s : State} {v num m : Nat} (h : Holds kk vv none mh mb s) :
    Holds kk vv none mh mb (s.zeroLines v num m) := by
  unfold State.zeroLines; repeat' first | (simp (maxDischargeDepth := 60) +contextual [*]; done) | split

@[simp ↓] theorem keep_openStrip {s : State} {v n : Nat} (hk : Out bookRegs kk ∧ Out emcyRegs kk ∧ Out
    [ARCHIVE_GAPS, CANVAS_ARCHIVE_EVICT, CANVAS_CROP_EVICT, CANVAS_OVERRUN, RING_DROP, RING_FRAMES, RING_OVERSIZE,
    RING_STAGED_BYTES, WHARF_HOST_WR_BYTES] kk) (h : Holds kk vv none none mb s) :
    Holds kk vv none none mb (s.openStrip v n) := by
  simp at hk; unfold State.openStrip; repeat' first | (simp (maxDischargeDepth := 60) +contextual [*]; done) | split

@[simp ↓] theorem keep_openStrips {s : State} {n : Nat} (hk : Out bookRegs kk ∧ Out emcyRegs kk ∧ Out
    [ARCHIVE_GAPS, CANVAS_ARCHIVE_EVICT, CANVAS_CROP_EVICT, CANVAS_OVERRUN, RING_DROP, RING_FRAMES, RING_OVERSIZE,
    RING_STAGED_BYTES, WHARF_HOST_WR_BYTES] kk) (h : Holds kk vv none none mb s) :
    Holds kk vv none none mb (s.openStrips n) := by
  simp at hk; unfold State.openStrips; repeat' first | (simp (maxDischargeDepth := 60) +contextual [*]; done) | split

@[simp ↓] theorem keep_forceClock {s : State} {n : Nat} (h : Holds kk vv md mh mb s) :
    Holds kk vv md mh mb (s.forceClock n) := by
  unfold State.forceClock; repeat' first | (simp (maxDischargeDepth := 60) +contextual [*]; done) | split

@[simp ↓] theorem keep_blendLine {s : State} {v key c a e : Nat} {left right : Nat → List Nat} {okL okR : Bool} (h :
    Holds kk vv none mh mb s) :
    Holds kk vv none mh mb (s.blendLine v key c a e left right okL okR) := by
  unfold State.blendLine; repeat' first | (simp (maxDischargeDepth := 60) +contextual [*]; done) | split

@[simp ↓] theorem keep_blendSeam {s : State} {v i c : Nat} (h : Holds kk vv none mh mb s) :
    Holds kk vv none mh mb (s.blendSeam v i c) := by
  unfold State.blendSeam; repeat' first | (simp (maxDischargeDepth := 60) +contextual [*]; done) | split

@[simp ↓] theorem keep_sendOverlap {s : State} {v c : Nat} {blind : Bool} (h : Holds kk vv md mh mb s) :
    Holds kk vv md mh mb (s.sendOverlap v c blind) := by
  unfold State.sendOverlap; repeat' first | (simp (maxDischargeDepth := 60) +contextual [*]; done) | split

@[simp ↓] theorem keep_blendPartner {s : State} {v c : Nat} {payload : List Byte} (h : Holds kk vv none mh mb s) :
    Holds kk vv none mh mb (s.blendPartner v c payload) := by
  unfold State.blendPartner; repeat' first | (simp (maxDischargeDepth := 60) +contextual [*]; done) | split

@[simp ↓] theorem keep_tryPartner {s : State} {v c : Nat} (h : Holds kk vv none mh mb s) :
    Holds kk vv none mh mb (s.tryPartner v c) := by
  unfold State.tryPartner; repeat' first | (simp (maxDischargeDepth := 60) +contextual [*]; done) | split

@[simp ↓] theorem keep_account {s : State} {v b c : Nat} {cause : Option Nat} (h : Holds kk vv none mh mb s) :
    Holds kk vv none mh mb (s.account v b c cause) := by
  unfold State.account
  repeat' (first
    | (simp (maxDischargeDepth := 60) +contextual [*]; done)
    | with_reducible refine keep_modStrip ?_
    | with_reducible refine keep_blendSeam ?_
    | with_reducible refine keep_tryPartner ?_
    | with_reducible refine keep_sendOverlap ?_
    | simp only [holds_mk, holdsOf_parts]
    | with_reducible refine keep_foldl _ (fun t x ht => ?_) ?_
    | with_reducible refine keep_foldl_fst _ (fun t b x ht => ?_) ?_
    | with_reducible refine keep_ite (fun _ => ?_) (fun _ => ?_)
    | split | with_reducible refine keep_fst ?_ (by assumption) | with_reducible refine keep_snd ?_ (by assumption)
    | (intro _; try dsimp only)
    | dsimp only)

@[simp ↓] theorem keep_coverStrip {s : State} {v : Nat} {x : CStrip} (h : Holds kk vv md mh mb s) :
    Holds kk vv md mh mb (s.coverStrip v x) := by
  unfold State.coverStrip
  repeat' (first
    | (simp (maxDischargeDepth := 60) +contextual [*]; done)
    | simp only [holds_mk, holdsOf_parts]
    | with_reducible refine keep_foldl _ (fun t x ht => ?_) ?_
    | with_reducible refine keep_foldl_fst _ (fun t b x ht => ?_) ?_
    | with_reducible refine keep_ite (fun _ => ?_) (fun _ => ?_)
    | split | with_reducible refine keep_fst ?_ (by assumption) | with_reducible refine keep_snd ?_ (by assumption)
    | dsimp only)

@[simp ↓] theorem keep_seamLoop {s : State} {v : Nat} {x : CStrip} {b key plane : Nat} {farRight : Bool} (hk : Out
    bookRegs kk ∧ Out [CAM_SEAM_GAIN_L, CAM_SEAM_GAIN_N, SEAM_GAIN_LIMIT] kk) (h : Holds kk vv md mh mb s) :
    Holds kk vv md mh mb (s.seamLoop v x b key plane farRight) := by
  simp at hk; unfold State.seamLoop; repeat' first | (simp (maxDischargeDepth := 60) +contextual [*]; done) | split

@[simp ↓] theorem keep_seamLoops {s : State} {v : Nat} {x : CStrip} (hk : Out bookRegs kk ∧ Out [CAM_SEAM_GAIN_L,
    CAM_SEAM_GAIN_N, SEAM_GAIN_LIMIT] kk) (h : Holds kk vv md mh mb s) :
    Holds kk vv md mh mb (s.seamLoops v x) := by
  simp at hk; unfold State.seamLoops; repeat' first | (simp (maxDischargeDepth := 60) +contextual [*]; done) | split

@[simp ↓] theorem keep_gainsStart {s : State} {b : Nat} (hk : Out [CAM_SEAM_GAIN_L, CAM_SEAM_GAIN_N] kk) (h : Holds
    kk vv md mh mb s) :
    Holds kk vv md mh mb (s.gainsStart b) := by
  simp at hk; unfold State.gainsStart; repeat' first | (simp (maxDischargeDepth := 60) +contextual [*]; done) | split

@[simp ↓] theorem keep_releaseStrip {s : State} {v : Nat} {x : CStrip} (hk : Out [CANVAS_RELEASED_STRIP,
    CMP_ENGINES_BUSY, WH_STATUS] kk) (h : Holds kk vv none mh mb s) :
    Holds kk vv none mh mb (s.releaseStrip v x) := by
  simp at hk; unfold State.releaseStrip; repeat' first | (simp (maxDischargeDepth := 60) +contextual [*]; done) | split

@[simp ↓] theorem keep_releaseStrips {s : State} {v a2 : Nat} (hk : Out [CANVAS_RELEASED_STRIP, CMP_ENGINES_BUSY,
    WH_STATUS] kk) (h : Holds kk vv none mh mb s) :
    Holds kk vv none mh mb (s.releaseStrips v a2) := by
  simp at hk
  induction a2 generalizing s v with
  | zero => unfold State.releaseStrips; repeat' first | (simp (maxDischargeDepth := 60) +contextual [*]; done) | split
  | succ n ih => unfold State.releaseStrips; repeat' first | (simp (maxDischargeDepth := 60) +contextual [*]; done) | split

@[simp ↓] theorem keep_completeStrip {s : State} {v n : Nat} (hk : Out bookRegs kk ∧ Out [CAM_SEAM_GAIN_L,
    CAM_SEAM_GAIN_N, CANVAS_RELEASED_STRIP, CMP_ENGINES_BUSY, SEAM_GAIN_LIMIT, WH_STATUS] kk) (h : Holds kk vv none
    mh mb s) :
    Holds kk vv none mh mb (s.completeStrip v n) := by
  simp at hk; unfold State.completeStrip; repeat' first | (simp (maxDischargeDepth := 60) +contextual [*]; done) | split

@[simp ↓] theorem keep_tryComplete {s : State} {v n : Nat} (hk : Out bookRegs kk ∧ Out [CAM_SEAM_GAIN_L,
    CAM_SEAM_GAIN_N, CANVAS_RELEASED_STRIP, CMP_ENGINES_BUSY, SEAM_GAIN_LIMIT, WH_STATUS] kk) (h : Holds kk vv none
    mh mb s) :
    Holds kk vv none mh mb (s.tryComplete v n) := by
  simp at hk; unfold State.tryComplete; repeat' first | (simp (maxDischargeDepth := 60) +contextual [*]; done) | split

@[simp ↓] theorem keep_writeSeg {s : State} {g : Seg} {c : Nat} {gains : Nat × Nat} (h : Holds kk vv none mh mb s) :
    Holds kk vv none mh mb (s.writeSeg g c gains) := by
  unfold State.writeSeg; repeat' first | (simp (maxDischargeDepth := 60) +contextual [*]; done) | split

@[simp ↓] theorem keep_joinSeg {s : State} {g : Seg} (hk : Out bookRegs kk ∧ Out [CAM_SEAM_GAIN_L, CAM_SEAM_GAIN_N,
    CANVAS_RELEASED_STRIP, CMP_ENGINES_BUSY, SEAM_GAIN_LIMIT, SEAM_LATE_DISCARD, SEAM_STAMP_BLIND_LINES, WH_STATUS]
    kk) (h : Holds kk vv none mh mb s) :
    Holds kk vv none mh mb (s.joinSeg g) := by
  simp at hk; unfold State.joinSeg
  repeat' (first
    | (simp (maxDischargeDepth := 60) +contextual [*]; done)
    | simp only [holds_mk, holdsOf_parts]
    | with_reducible refine keep_foldl _ (fun t x ht => ?_) ?_
    | with_reducible refine keep_foldl_fst _ (fun t b x ht => ?_) ?_
    | with_reducible refine keep_ite (fun _ => ?_) (fun _ => ?_)
    | split | with_reducible refine keep_fst ?_ (by assumption) | with_reducible refine keep_snd ?_ (by assumption)
    | dsimp only)

@[simp ↓] theorem keep_accountLine {s : State} {b n cause : Nat} (hk : Out bookRegs kk ∧ Out [CAM_SEAM_GAIN_L,
    CAM_SEAM_GAIN_N, CANVAS_RELEASED_STRIP, CMP_ENGINES_BUSY, SEAM_GAIN_LIMIT, WH_STATUS] kk) (h : Holds kk vv none
    mh mb s) :
    Holds kk vv none mh mb (s.accountLine b n cause) := by
  simp at hk; unfold State.accountLine
  repeat' (first
    | (simp (maxDischargeDepth := 60) +contextual [*]; done)
    | simp only [holds_mk, holdsOf_parts]
    | with_reducible refine keep_foldl _ (fun t x ht => ?_) ?_
    | with_reducible refine keep_foldl_fst _ (fun t b x ht => ?_) ?_
    | with_reducible refine keep_ite (fun _ => ?_) (fun _ => ?_)
    | split | with_reducible refine keep_fst ?_ (by assumption) | with_reducible refine keep_snd ?_ (by assumption)
    | dsimp only)

@[simp ↓] theorem keep_accountRange {s : State} {b first last cause : Nat} (hk : Out bookRegs kk ∧ Out
    [CAM_SEAM_GAIN_L, CAM_SEAM_GAIN_N, CANVAS_RELEASED_STRIP, CMP_ENGINES_BUSY, SEAM_GAIN_LIMIT, WH_STATUS] kk) (h :
    Holds kk vv none mh mb s) :
    Holds kk vv none mh mb (s.accountRange b first last cause) := by
  simp at hk; unfold State.accountRange
  repeat' (first
    | (simp (maxDischargeDepth := 60) +contextual [*]; done)
    | simp only [holds_mk, holdsOf_parts]
    | with_reducible refine keep_foldl _ (fun t x ht => ?_) ?_
    | with_reducible refine keep_foldl_fst _ (fun t b x ht => ?_) ?_
    | with_reducible refine keep_ite (fun _ => ?_) (fun _ => ?_)
    | split | with_reducible refine keep_fst ?_ (by assumption) | with_reducible refine keep_snd ?_ (by assumption)
    | dsimp only)

@[simp ↓] theorem keep_holdB {s : State} {v : Nat} {on : Bool} (h : Holds kk vv md mh mb s) :
    Holds kk vv md mh mb (s.holdB v on) := by
  unfold State.holdB; repeat' first | (simp (maxDischargeDepth := 60) +contextual [*]; done) | split

theorem keep_execJoinerSegment {dt bay fill : Nat} {s : State} {t : State} (hk : Out bookRegs kk ∧ Out
    [CAM_SEAM_GAIN_L, CAM_SEAM_GAIN_N, CANVAS_RELEASED_STRIP, CMP_ENGINES_BUSY, SEAM_GAIN_LIMIT, SEAM_LATE_DISCARD,
    SEAM_QUEUE_OVERFLOW, SEAM_STAMP_BLIND_LINES, TRACE_HEAD, WH_STATUS] kk) (h : Holds kk vv none mh mb s) (e :
    execJoinerSegment dt bay fill s = .next t) :
    Holds kk vv none mh mb t := by
  simp at hk; unfold execJoinerSegment at e
  refine keep_act ?_ (fun u hu => ?_) e
  · simp [*]
  · repeat' first | (simp (maxDischargeDepth := 60) +contextual [*]; done) | split

theorem keep_execCompletionNote {dt bay : Nat} {s : State} {t : State} (hk : Out bookRegs kk ∧ Out [CAM_SEAM_GAIN_L,
    CAM_SEAM_GAIN_N, CANVAS_RELEASED_STRIP, CMP_ENGINES_BUSY, SEAM_GAIN_LIMIT, TRACE_HEAD, WH_STATUS] kk) (h : Holds
    kk vv none mh mb s) (e : execCompletionNote dt bay s = .next t) :
    Holds kk vv none mh mb t := by
  simp at hk; unfold execCompletionNote at e
  refine keep_act ?_ (fun u hu => ?_) e
  · simp [*]
  · repeat' first | (simp (maxDischargeDepth := 60) +contextual [*]; done) | split

@[simp ↓] theorem keep_forceStrip {s : State} {v : Nat} {x : CStrip} (hk : Out bookRegs kk ∧ Out [CAM_SEAM_GAIN_L,
    CAM_SEAM_GAIN_N, CANVAS_RELEASED_STRIP, CASCADE_OVERLAP_MISSING, CMP_ENGINES_BUSY, SEAM_FORCED_COMPLETE,
    SEAM_GAIN_LIMIT, WH_STATUS] kk) (h : Holds kk vv none mh mb s) :
    Holds kk vv none mh mb (s.forceStrip v x) := by
  simp at hk; unfold State.forceStrip; repeat' first | (simp (maxDischargeDepth := 60) +contextual [*]; done) | split

theorem keep_execSeamForcedComplete {dt view : Nat} {s : State} {t : State} (hk : Out bookRegs kk ∧ Out
    [CAM_SEAM_GAIN_L, CAM_SEAM_GAIN_N, CANVAS_RELEASED_STRIP, CASCADE_OVERLAP_MISSING, CMP_ENGINES_BUSY,
    SEAM_FORCED_COMPLETE, SEAM_GAIN_LIMIT, TRACE_HEAD, WH_STATUS] kk) (h : Holds kk vv none mh mb s) (e :
    execSeamForcedComplete dt view s = .next t) :
    Holds kk vv none mh mb t := by
  simp at hk; unfold execSeamForcedComplete at e
  refine keep_act ?_ (fun u hu => ?_) e
  · simp [*]
  · repeat' (first
        | (simp (maxDischargeDepth := 60) +contextual [*]; done)
        | simp only [holds_mk, holdsOf_parts]
        | with_reducible refine keep_foldl _ (fun t x ht => ?_) ?_
        | with_reducible refine keep_foldl_fst _ (fun t b x ht => ?_) ?_
        | with_reducible refine keep_ite (fun _ => ?_) (fun _ => ?_)
        | split | with_reducible refine keep_fst ?_ (by assumption) | with_reducible refine keep_snd ?_ (by assumption)
        | dsimp only)

@[simp ↓] theorem keep_seamClear {s : State} {via : Path} {v : Nat} (hk : Out bookRegs kk ∧ Out
    [CANVAS_ARCHIVE_EVICT, CANVAS_CROP_EVICT, CANVAS_OVERRUN, CASCADE_OVERLAP_MISSING, HL_DICT_ERRORS, SEAM_CLEAR,
    SEAM_FORCED_COMPLETE, SEAM_GAIN_LIMIT, SEAM_LATE_DISCARD, SEAM_QUEUE_OVERFLOW, SEAM_STAMP_BLIND_LINES] kk) (h :
    Holds kk vv md mh mb s) :
    Holds kk vv md mh mb (s.seamClear via v) := by
  simp at hk
  unfold State.seamClear
  simp (maxDischargeDepth := 60) +contextual [seamTallies, List.foldl, *]

theorem keep_execSeamClear {dt : Nat} {via : Path} {view : Nat} {s : State} {t : State} (hk : Out bookRegs kk ∧ Out
    [CANVAS_ARCHIVE_EVICT, CANVAS_CROP_EVICT, CANVAS_OVERRUN, CASCADE_OVERLAP_MISSING, HL_DICT_ERRORS, SEAM_CLEAR,
    SEAM_FORCED_COMPLETE, SEAM_GAIN_LIMIT, SEAM_LATE_DISCARD, SEAM_QUEUE_OVERFLOW, SEAM_STAMP_BLIND_LINES,
    TRACE_HEAD] kk) (h : Holds kk vv md mh mb s) (e : execSeamClear dt via view s = .next t) :
    Holds kk vv md mh mb t := by
  simp at hk; unfold execSeamClear at e
  refine keep_act ?_ (fun u hu => ?_) e
  · simp [*]
  · repeat' first | (simp (maxDischargeDepth := 60) +contextual [*]; done) | split

@[simp ↓] theorem keep_partnerShows {s : State} {v planes overlap : Nat} (h : Holds kk vv md mh mb s) :
    Holds kk vv md mh mb (s.partnerShows v planes overlap) := by
  unfold State.partnerShows; repeat' first | (simp (maxDischargeDepth := 60) +contextual [*]; done) | split

@[simp ↓] theorem keep_keepOverlap {s : State} {v c : Nat} {p : List Byte} (h : Holds kk vv md mh mb s) :
    Holds kk vv md mh mb (s.keepOverlap v c p) := by
  unfold State.keepOverlap; repeat' first | (simp (maxDischargeDepth := 60) +contextual [*]; done) | split

@[simp ↓] theorem keep_joinPartner {s : State} {v c : Nat} {p : List Byte} (hk : Out bookRegs kk ∧ Out
    [CAM_SEAM_GAIN_L, CAM_SEAM_GAIN_N, CANVAS_RELEASED_STRIP, CMP_ENGINES_BUSY, SEAM_GAIN_LIMIT, SEAM_LATE_DISCARD,
    WH_STATUS] kk) (h : Holds kk vv none mh mb s) :
    Holds kk vv none mh mb (s.joinPartner v c p) := by
  simp at hk; unfold State.joinPartner; repeat' first | (simp (maxDischargeDepth := 60) +contextual [*]; done) | split

@[simp ↓] theorem keep_takeOverlap {s : State} {p : List Byte} (hk : Out bookRegs kk ∧ Out [CAM_SEAM_GAIN_L,
    CAM_SEAM_GAIN_N, CANVAS_RELEASED_STRIP, CASCADE_OVERLAP_MISSING, CMP_ENGINES_BUSY, SEAM_GAIN_LIMIT,
    SEAM_LATE_DISCARD, WH_STATUS] kk) (h : Holds kk vv none mh mb s) :
    Holds kk vv none mh mb (s.takeOverlap p) := by
  simp at hk; unfold State.takeOverlap; repeat' first | (simp (maxDischargeDepth := 60) +contextual [*]; done) | split

theorem keep_execOverlapFrame {dt : Nat} {frame : List Nat} {s : State} {t : State} (hk : Out bookRegs kk ∧ Out
    [CAM_SEAM_GAIN_L, CAM_SEAM_GAIN_N, CANVAS_RELEASED_STRIP, CASCADE_FRAME_CRC, CASCADE_FRAME_LOST,
    CASCADE_OVERLAP_MISSING, CMP_ENGINES_BUSY, LANE_BYTES, SEAM_GAIN_LIMIT, SEAM_LATE_DISCARD, TRACE_HEAD,
    WH_STATUS] kk) (h : Holds kk vv none mh mb s) (e : execOverlapFrame dt frame s = .next t) :
    Holds kk vv none mh mb t := by
  simp at hk; unfold execOverlapFrame at e
  refine keep_act ?_ (fun u hu => ?_) e
  · simp [*]
  · repeat' (first
      | (simp (maxDischargeDepth := 60) +contextual [*]; done)
      | (have e' := (by assumption : (_ : State × _) = (_, _))
         have hq := keep_fst (k := kk) (v := vv) (m := none) (h := mh) (b := mb) (by simp (maxDischargeDepth := 60) +contextual [*]; done) e'
         simp (maxDischargeDepth := 60) +contextual [*]; done)
      | simp only [holds_mk, holdsOf_parts]
      | with_reducible refine keep_foldl _ (fun t x ht => ?_) ?_
      | with_reducible refine keep_foldl_fst _ (fun t b x ht => ?_) ?_
      | with_reducible refine keep_ite (fun _ => ?_) (fun _ => ?_)
      | split | with_reducible refine keep_fst ?_ (by assumption) | with_reducible refine keep_snd ?_ (by assumption)
      | dsimp only)

end Sys2Proof.Machine
end

