-- ==== Sys2Proof/Laws/KeepRegistration.lean ====
section
/-! SUPPORT. Laws/KeepRegistration.lean: what the operations and commands leave alone, of Machine/Registration.lean. -/
namespace Sys2Proof.Machine
open Reg
variable {kk : Key} {vv : Option Nat} {md mh : Option Memory} {mb : Option Blobs}

@[simp ↓] theorem keep_modField {s : State} {v rep : Nat} {g : RField → RField} (h : Holds kk vv md mh mb s) :
    Holds kk vv md mh mb (s.modField v rep g) := by
  unfold State.modField; repeat' first | (simp (maxDischargeDepth := 60) +contextual [*]; done) | split

@[simp ↓] theorem keep_finishField {s : State} {v : Nat} {r : Rep} {f : RField} (hk : Out [REG_ANCHORS_X,
    REG_ANCHORS_Y, REG_CONF_PERMILLE, REG_FIELD_ADDR, REG_MEAN_DX, REG_MEAN_DY] kk) (h : Holds kk vv none mh mb s) :
    Holds kk vv none mh mb (s.finishField v r f) := by
  simp at hk; unfold State.finishField; repeat' first | (simp (maxDischargeDepth := 60) +contextual [*]; done) | split

@[simp ↓] theorem keep_rowTaken {s : State} {v : Nat} {r : Rep} {f : RField} {out : ARow} (hk : Out bookRegs kk ∧
    Out [REG_ANCHORS_X, REG_ANCHORS_Y, REG_CAPTURES, REG_CONF_PERMILLE, REG_FIELD_ADDR, REG_MEAN_DX, REG_MEAN_DY]
    kk) (h : Holds kk vv none mh mb s) :
    Holds kk vv none mh mb (s.rowTaken v r f out) := by
  simp at hk; unfold State.rowTaken; repeat' first | (simp (maxDischargeDepth := 60) +contextual [*]; done) | split

@[simp ↓] theorem keep_regRow {s : State} {v : Nat} {at_ : Bool} {out : ARow → ARow} (hk : Out bookRegs kk ∧ Out
    [REG_ANCHORS_X, REG_ANCHORS_Y, REG_CAPTURES, REG_CONF_PERMILLE, REG_FIELD_ADDR, REG_MEAN_DX, REG_MEAN_DY] kk) (h
    : Holds kk vv none mh mb s) :
    Holds kk vv none mh mb (s.regRow v at_ out) := by
  simp at hk; unfold State.regRow; repeat' first | (simp (maxDischargeDepth := 60) +contextual [*]; done) | split

@[simp ↓] theorem keep_regRowFails {s : State} {v : Nat} (hk : Out bookRegs kk ∧ Out [REG_ANCHORS_X,
    REG_ANCHORS_Y, REG_CAPTURES, REG_CONF_PERMILLE, REG_FIELD_ADDR, REG_MEAN_DX, REG_MEAN_DY] kk) (h : Holds kk vv
    none mh mb s) :
    Holds kk vv none mh mb (s.regRowFails v) := by
  simp at hk; unfold State.regRowFails; repeat' first | (simp (maxDischargeDepth := 60) +contextual [*]; done) | split

theorem keep_execRegRowDone {dt view row : Nat} {s : State} {t : State} (hk : Out bookRegs kk ∧ Out [REG_ANCHORS_X,
    REG_ANCHORS_Y, REG_CAPTURES, REG_CONF_PERMILLE, REG_FIELD_ADDR, REG_MEAN_DX, REG_MEAN_DY, TRACE_HEAD] kk) (h :
    Holds kk vv none mh mb s) (e : execRegRowDone dt view row s = .next t) :
    Holds kk vv none mh mb t := by
  simp at hk; unfold execRegRowDone at e
  refine keep_act ?_ (fun u hu => ?_) e
  · simp [*]
  · repeat' first | (simp (maxDischargeDepth := 60) +contextual [*]; done) | split

@[simp ↓] theorem keep_dropFields {s : State} {key : Nat} (hk : Out [REG_ANCHORS_X, REG_ANCHORS_Y,
    REG_CONF_PERMILLE, REG_FIELD_ADDR, REG_MEAN_DX, REG_MEAN_DY] kk) (h : Holds kk vv none mh mb s) :
    Holds kk vv none mh mb (s.dropFields key) := by
  simp at hk; unfold State.dropFields
  repeat' (first
    | (simp (maxDischargeDepth := 60) +contextual [*]; done)
    | simp only [holds_mk, holdsOf_parts]
    | with_reducible refine keep_foldl _ (fun t x ht => ?_) ?_
    | with_reducible refine keep_foldl_fst _ (fun t b x ht => ?_) ?_
    | with_reducible refine keep_ite (fun _ => ?_) (fun _ => ?_)
    | split | with_reducible refine keep_fst ?_ (by assumption) | with_reducible refine keep_snd ?_ (by assumption)
    | dsimp only)

@[simp ↓] theorem keep_modSched {s : State} {f : Sched → Sched} (h : Holds kk vv md mh mb s) :
    Holds kk vv md mh mb (s.modSched f) := by
  unfold State.modSched; repeat' first | (simp (maxDischargeDepth := 60) +contextual [*]; done) | split

@[simp ↓] theorem keep_losePhase {s : State} (hk : Out [REG_PHASE_STATE] kk) (h : Holds kk vv md mh mb s) :
    Holds kk vv md mh mb s.losePhase := by
  simp at hk; unfold State.losePhase
  repeat' (first
    | (simp (maxDischargeDepth := 60) +contextual [*]; done)
    | simp only [holds_mk, holdsOf_parts]
    | with_reducible refine keep_foldl _ (fun t x ht => ?_) ?_
    | with_reducible refine keep_foldl_fst _ (fun t b x ht => ?_) ?_
    | with_reducible refine keep_ite (fun _ => ?_) (fun _ => ?_)
    | split | with_reducible refine keep_fst ?_ (by assumption) | with_reducible refine keep_snd ?_ (by assumption)
    | dsimp only)

@[simp ↓] theorem keep_markMiss {s : State} (hk : Out bookRegs kk ∧ Out [REG_MARK_MISS, REG_PHASE_STATE] kk) (h :
    Holds kk vv md mh mb s) :
    Holds kk vv md mh mb s.markMiss := by
  simp at hk; unfold State.markMiss
  repeat' (first
    | (simp (maxDischargeDepth := 60) +contextual [*]; done)
    | simp only [holds_mk, holdsOf_parts]
    | with_reducible refine keep_foldl _ (fun t x ht => ?_) ?_
    | with_reducible refine keep_foldl_fst _ (fun t b x ht => ?_) ?_
    | with_reducible refine keep_ite (fun _ => ?_) (fun _ => ?_)
    | split | with_reducible refine keep_fst ?_ (by assumption) | with_reducible refine keep_snd ?_ (by assumption)
    | dsimp only)

@[simp ↓] theorem keep_markFound {s : State} {p : List Byte} {r : Rep} {n : Nat} (hk : Out [REG_MARK_ERR_COUNTS] kk)
    (h : Holds kk vv md mh mb s) :
    Holds kk vv md mh mb (s.markFound p r n) := by
  simp at hk; unfold State.markFound
  repeat' (first
    | (simp (maxDischargeDepth := 60) +contextual [*]; done)
    | simp only [holds_mk, holdsOf_parts]
    | with_reducible refine keep_foldl _ (fun t x ht => ?_) ?_
    | with_reducible refine keep_foldl_fst _ (fun t b x ht => ?_) ?_
    | with_reducible refine keep_ite (fun _ => ?_) (fun _ => ?_)
    | split | with_reducible refine keep_fst ?_ (by assumption) | with_reducible refine keep_snd ?_ (by assumption)
    | dsimp only)

@[simp ↓] theorem keep_searchAll {s : State} {p : List Byte} {r : Rep} (hk : Out bookRegs kk ∧ Out [REG_MARK_MISS,
    REG_PHASE_STATE] kk) (h : Holds kk vv md mh mb s) :
    Holds kk vv md mh mb (s.searchAll p r) := by
  simp at hk; unfold State.searchAll
  repeat' (first
    | (simp (maxDischargeDepth := 60) +contextual [*]; done)
    | simp only [holds_mk, holdsOf_parts]
    | with_reducible refine keep_foldl _ (fun t x ht => ?_) ?_
    | with_reducible refine keep_foldl_fst _ (fun t b x ht => ?_) ?_
    | with_reducible refine keep_ite (fun _ => ?_) (fun _ => ?_)
    | split | with_reducible refine keep_fst ?_ (by assumption) | with_reducible refine keep_snd ?_ (by assumption)
    | dsimp only)

@[simp ↓] theorem keep_searchOne {s : State} {p : List Byte} {r : Rep} (hk : Out bookRegs kk ∧ Out
    [REG_MARK_ERR_COUNTS, REG_MARK_MISS, REG_PHASE_STATE] kk) (h : Holds kk vv md mh mb s) :
    Holds kk vv md mh mb (s.searchOne p r) := by
  simp at hk; unfold State.searchOne
  repeat' (first
    | (simp (maxDischargeDepth := 60) +contextual [*]; done)
    | simp only [holds_mk, holdsOf_parts]
    | with_reducible refine keep_foldl _ (fun t x ht => ?_) ?_
    | with_reducible refine keep_foldl_fst _ (fun t b x ht => ?_) ?_
    | with_reducible refine keep_ite (fun _ => ?_) (fun _ => ?_)
    | split | with_reducible refine keep_fst ?_ (by assumption) | with_reducible refine keep_snd ?_ (by assumption)
    | dsimp only)

@[simp ↓] theorem keep_searchEnds {s : State} (hk : Out bookRegs kk ∧ Out [REG_MARK_ERR_COUNTS, REG_MARK_MISS,
    REG_PHASE_STATE] kk) (h : Holds kk vv md mh mb s) :
    Holds kk vv md mh mb s.searchEnds := by
  simp at hk; unfold State.searchEnds; repeat' first | (simp (maxDischargeDepth := 60) +contextual [*]; done) | split

@[simp ↓] theorem keep_learnAtStart {s : State} {number : Nat} (hk : Out bookRegs kk ∧ Out [REG_CAPTURES,
    REG_LEARN_BAND, REG_LEARN_BANDS, REG_LEARN_STATE, REG_UP_PRESENT] kk) (h : Holds kk vv md mh mb s) :
    Holds kk vv md mh mb (s.learnAtStart number) := by
  simp at hk; unfold State.learnAtStart; repeat' first | (simp (maxDischargeDepth := 60) +contextual [*]; done) | split

@[simp ↓] theorem keep_fillPixels {s : State} {w h : Nat} {addr px : Nat → Nat → Nat} (hs : Holds kk vv none mh mb
    s) :
    Holds kk vv none mh mb (s.fillPixels w h addr px) := by
  unfold State.fillPixels; repeat' first | (simp (maxDischargeDepth := 60) +contextual [*]; done) | split

@[simp ↓] theorem keep_seedRows {s : State} {v : Nat} {r : Rep} {y0 n : Nat} (h : Holds kk vv none mh mb s) :
    Holds kk vv none mh mb (s.seedRows v r y0 n) := by
  unfold State.seedRows; repeat' first | (simp (maxDischargeDepth := 60) +contextual [*]; done) | split

@[simp ↓] theorem keep_learnBand {s : State} {v band : Nat} (h : Holds kk vv none mh mb s) :
    Holds kk vv none mh mb (s.learnBand v band) := by
  unfold State.learnBand; repeat' first | (simp (maxDischargeDepth := 60) +contextual [*]; done) | split

@[simp ↓] theorem keep_bandDone {s : State} {v : Nat} (hk : Out [REG_LEARN_BAND, REG_LEARN_STATE,
    REG_LEARN_VAR_BLOCKS, REG_VAR_MAP_ADDR] kk) (h : Holds kk vv none mh mb s) :
    Holds kk vv none mh mb (s.bandDone v) := by
  simp at hk; unfold State.bandDone; repeat' first | (simp (maxDischargeDepth := 60) +contextual [*]; done) | split

@[simp ↓] theorem keep_sampleRows {s : State} {v : Nat} {r : Rep} {f : RField} {y0 n : Nat} (h : Holds kk vv none mh
    mb s) :
    Holds kk vv none mh mb (s.sampleRows v r f y0 n) := by
  unfold State.sampleRows; repeat' first | (simp (maxDischargeDepth := 60) +contextual [*]; done) | split

@[simp ↓] theorem keep_takeRows {s : State} {v : Nat} {r : Rep} {to_ : Nat} (h : Holds kk vv none mh mb s) :
    Holds kk vv none mh mb (s.takeRows v r to_) := by
  unfold State.takeRows; repeat' first | (simp (maxDischargeDepth := 60) +contextual [*]; done) | split

@[simp ↓] theorem keep_learnRows {s : State} {v num : Nat} (h : Holds kk vv none mh mb s) :
    Holds kk vv none mh mb (s.learnRows v num) := by
  unfold State.learnRows; repeat' first | (simp (maxDischargeDepth := 60) +contextual [*]; done) | split

@[simp ↓] theorem keep_takeSample {s : State} {v : Nat} (hk : Out [REG_LEARN_BAND, REG_LEARN_STATE,
    REG_LEARN_VAR_BLOCKS, REG_VAR_MAP_ADDR] kk) (h : Holds kk vv none mh mb s) :
    Holds kk vv none mh mb (s.takeSample v) := by
  simp at hk; unfold State.takeSample; repeat' first | (simp (maxDischargeDepth := 60) +contextual [*]; done) | split

@[simp ↓] theorem keep_learnView {s : State} {v : Nat} {r : Rep} (hk : Out bookRegs kk ∧ Out [REG_LEARN_BAND,
    REG_LEARN_REJECT, REG_LEARN_STATE, REG_LEARN_VAR_BLOCKS, REG_VAR_MAP_ADDR] kk) (h : Holds kk vv none mh mb s) :
    Holds kk vv none mh mb (s.learnView v r) := by
  simp at hk; unfold State.learnView; repeat' first | (simp (maxDischargeDepth := 60) +contextual [*]; done) | split

@[simp ↓] theorem keep_regLearn {s : State} {via : Path} (hk : Out bookRegs kk ∧ Out [HL_DICT_ERRORS] kk) (h :
    Holds kk vv md mh mb s) :
    Holds kk vv md mh mb (s.regLearn via) := by
  simp at hk; unfold State.regLearn; repeat' first | (simp (maxDischargeDepth := 60) +contextual [*]; done) | split

theorem keep_execRegLearn {dt : Nat} {via : Path} {s : State} {t : State} (hk : Out bookRegs kk ∧ Out
    [HL_DICT_ERRORS, TRACE_HEAD] kk) (h : Holds kk vv md mh mb s) (e : execRegLearn dt via s = .next t) :
    Holds kk vv md mh mb t := by
  simp at hk; unfold execRegLearn at e
  refine keep_act ?_ (fun u hu => ?_) e
  · simp [*]
  · repeat' first | (simp (maxDischargeDepth := 60) +contextual [*]; done) | split

@[simp ↓] theorem keep_regUpSave {s : State} {via : Path} (hk : Out bookRegs kk ∧ Out [HL_DICT_ERRORS] kk) (h :
    Holds kk vv md mh mb s) :
    Holds kk vv md mh mb (s.regUpSave via) := by
  simp at hk; unfold State.regUpSave; repeat' first | (simp (maxDischargeDepth := 60) +contextual [*]; done) | split

theorem keep_execRegUpSave {dt : Nat} {via : Path} {s : State} {t : State} (hk : Out bookRegs kk ∧ Out
    [HL_DICT_ERRORS, TRACE_HEAD] kk) (h : Holds kk vv md mh mb s) (e : execRegUpSave dt via s = .next t) :
    Holds kk vv md mh mb t := by
  simp at hk; unfold execRegUpSave at e
  refine keep_act ?_ (fun u hu => ?_) e
  · simp [*]
  · repeat' first | (simp (maxDischargeDepth := 60) +contextual [*]; done) | split

@[simp ↓] theorem keep_regClear {s : State} {via : Path} (hk : Out bookRegs kk ∧ Out [HL_DICT_ERRORS,
    REG_CAPTURES, REG_LEARN_REJECT, REG_MARK_MISS, REG_START_LATE, REG_UNREG_STRIPS] kk) (h : Holds kk vv md mh mb
    s) :
    Holds kk vv md mh mb (s.regClear via) := by
  simp at hk; unfold State.regClear; repeat' first | (simp (maxDischargeDepth := 60) +contextual [*]; done) | split

theorem keep_execRegClear {dt : Nat} {via : Path} {s : State} {t : State} (hk : Out bookRegs kk ∧ Out
    [HL_DICT_ERRORS, REG_CAPTURES, REG_LEARN_REJECT, REG_MARK_MISS, REG_START_LATE, REG_UNREG_STRIPS, TRACE_HEAD]
    kk) (h : Holds kk vv md mh mb s) (e : execRegClear dt via s = .next t) :
    Holds kk vv md mh mb t := by
  simp at hk; unfold execRegClear at e
  refine keep_act ?_ (fun u hu => ?_) e
  · simp [*]
  · repeat' first | (simp (maxDischargeDepth := 60) +contextual [*]; done) | split

end Sys2Proof.Machine
end

