-- ==== Sys2Proof/Laws/KeepAssembler.lean ====
section
/-! SUPPORT. Laws/KeepAssembler.lean: what the operations and commands leave alone, of Machine/Assembler.lean. -/
namespace Sys2Proof.Machine
open Reg
variable {kk : Key} {vv : Option Nat} {md mh : Option Memory} {mb : Option Blobs}

@[simp ↓] theorem keep_addFrag {s : State} {image : List Byte} {f : Frag} (h : Holds kk vv md mh mb s) :
    Holds kk vv md mh mb (s.addFrag image f) := by
  unfold State.addFrag; repeat' first | (simp (maxDischargeDepth := 60) +contextual [*]; done) | split

@[simp ↓] theorem keep_fireItem {s : State} {r : Rep} {i : Item} (hk : Out bookRegs kk ∧ Out [MARK_LATE,
    MARK_NEXT_COUNT, MARK_QUEUE_FILL, MARK_QUEUE_FULL] kk) (h : Holds kk vv md mh mb s) :
    Holds kk vv md mh mb (s.fireItem r i).1 := by
  simp at hk; unfold State.fireItem
  repeat' (first
    | (simp (maxDischargeDepth := 60) +contextual [*]; done)
    | simp only [holds_mk, holdsOf_parts]
    | with_reducible refine keep_foldl _ (fun t x ht => ?_) ?_
    | with_reducible refine keep_foldl_fst _ (fun t b x ht => ?_) ?_
    | with_reducible refine keep_ite (fun _ => ?_) (fun _ => ?_)
    | split | with_reducible refine keep_fst ?_ (by assumption) | with_reducible refine keep_snd ?_ (by assumption)
    | dsimp only)

@[simp ↓] theorem keep_rejectItem {s : State} {key idx : Nat} (hk : Out bookRegs kk ∧ Out [DEF_REJECT_ITEMS,
    MARK_LATE, MARK_NEXT_COUNT, MARK_QUEUE_FILL, MARK_QUEUE_FULL] kk) (h : Holds kk vv md mh mb s) :
    Holds kk vv md mh mb (s.rejectItem key idx) := by
  simp at hk; unfold State.rejectItem; repeat' first | (simp (maxDischargeDepth := 60) +contextual [*]; done) | split

@[simp ↓] theorem keep_requestCrop {s : State} {r : Rep} {c : Cand} {id : Nat} (hk : Out bookRegs kk ∧ Out
    [CROP_SKIPPED] kk) (h : Holds kk vv md mh mb s) :
    Holds kk vv md mh mb (s.requestCrop r c id).1 := by
  simp at hk; unfold State.requestCrop
  repeat' (first
    | (simp (maxDischargeDepth := 60) +contextual [*]; done)
    | simp only [holds_mk, holdsOf_parts]
    | with_reducible refine keep_foldl _ (fun t x ht => ?_) ?_
    | with_reducible refine keep_foldl_fst _ (fun t b x ht => ?_) ?_
    | with_reducible refine keep_ite (fun _ => ?_) (fun _ => ?_)
    | split | with_reducible refine keep_fst ?_ (by assumption) | with_reducible refine keep_snd ?_ (by assumption)
    | dsimp only)

@[simp ↓] theorem keep_defectRecord {s : State} {r : Rep} {v : Nat} {d : Rec} (hk : Out recordRegs kk ∧ Out
    [DEF_FLOOD_RECORDS] kk) (h : Holds kk vv md none mb s) :
    Holds kk vv md none mb (s.defectRecord r v d) := by
  simp at hk; unfold State.defectRecord; repeat' first | (simp (maxDischargeDepth := 60) +contextual [*]; done) | split

@[simp ↓] theorem keep_emitFloodCand {s : State} {r : Rep} {c : Cand} {continued : Bool} (hk : Out recordRegs kk ∧
    Out [DEF_FLOOD_RECORDS, DEF_REJECT_ITEMS, MARK_LATE, MARK_NEXT_COUNT, MARK_QUEUE_FILL, MARK_QUEUE_FULL] kk) (h
    : Holds kk vv md none mb s) :
    Holds kk vv md none mb (s.emitFloodCand r c continued) := by
  simp at hk; unfold State.emitFloodCand; repeat' first | (simp (maxDischargeDepth := 60) +contextual [*]; done) | split

@[simp ↓] theorem keep_addFlood {s : State} {r : Rep} {c : Cand} {f : Feat} {v : Verdict} (h : Holds kk vv md mh
    mb s) :
    Holds kk vv md mh mb (s.addFlood r c f v) := by
  unfold State.addFlood; repeat' first | (simp (maxDischargeDepth := 60) +contextual [*]; done) | split

@[simp ↓] theorem keep_emitCand {s : State} {c : Cand} {continued : Bool} (hk : Out recordRegs kk ∧ Out
    [CROP_SKIPPED, DEF_DEFAULT_HITS, DEF_FLOOD_RECORDS, DEF_REJECT_ITEMS, DEF_SUPPRESSED, MARK_LATE,
    MARK_NEXT_COUNT, MARK_QUEUE_FILL, MARK_QUEUE_FULL] kk) (h : Holds kk vv md none mb s) :
    Holds kk vv md none mb (s.emitCand c continued) := by
  simp at hk; unfold State.emitCand
  repeat' (first
    | (simp (maxDischargeDepth := 60) +contextual [*]; done)
    | simp only [holds_mk, holdsOf_parts]
    | with_reducible refine keep_foldl _ (fun t x ht => ?_) ?_
    | with_reducible refine keep_foldl_fst _ (fun t b x ht => ?_) ?_
    | with_reducible refine keep_ite (fun _ => ?_) (fun _ => ?_)
    | split | with_reducible refine keep_fst ?_ (by assumption) | with_reducible refine keep_snd ?_ (by assumption)
    | dsimp only)

@[simp ↓] theorem keep_mergeReceived {s : State} {d : Cand} {hit : Cand → Bool} (h : Holds kk vv md mh mb s) :
    Holds kk vv md mh mb (s.mergeReceived d hit) := by
  unfold State.mergeReceived; repeat' first | (simp (maxDischargeDepth := 60) +contextual [*]; done) | split

@[simp ↓] theorem keep_beginWait {s : State} {c : Cand} (h : Holds kk vv md mh mb s) :
    Holds kk vv md mh mb (s.beginWait c) := by
  unfold State.beginWait; repeat' first | (simp (maxDischargeDepth := 60) +contextual [*]; done) | split

@[simp ↓] theorem keep_closeCand {s : State} {c : Cand} {continued : Bool} (hk : Out recordRegs kk ∧ Out
    [CROP_SKIPPED, DEF_CANDIDATES, DEF_DEFAULT_HITS, DEF_FLOOD_RECORDS, DEF_REJECT_ITEMS, DEF_SUPPRESSED,
    MARK_LATE, MARK_NEXT_COUNT, MARK_QUEUE_FILL, MARK_QUEUE_FULL] kk) (h : Holds kk vv md none mb s) :
    Holds kk vv md none mb (s.closeCand c continued) := by
  simp at hk; unfold State.closeCand; repeat' first | (simp (maxDischargeDepth := 60) +contextual [*]; done) | split

@[simp ↓] theorem keep_putReject {s : State} {p : Pub} (hk : Out bookRegs kk ∧ Out [REJECT_BITMAP, REJECT_REPEAT,
    REJECT_ROW, REJECT_SEQ] kk) (h : Holds kk vv md mh mb s) :
    Holds kk vv md mh mb (s.putReject p) := by
  simp at hk; unfold State.putReject; repeat' first | (simp (maxDischargeDepth := 60) +contextual [*]; done) | split

@[simp ↓] theorem keep_publish {s : State} {word rep row : Nat} (hk : Out bookRegs kk ∧ Out [REJECT_BITMAP,
    REJECT_QUEUE_DROP, REJECT_REPEAT, REJECT_ROW, REJECT_SEQ] kk) (h : Holds kk vv md mh mb s) :
    Holds kk vv md mh mb (s.publish word rep row) := by
  simp at hk; unfold State.publish; repeat' first | (simp (maxDischargeDepth := 60) +contextual [*]; done) | split

@[simp ↓] theorem keep_closeRow {s : State} {r : Rep} {row : Nat} (hk : Out bookRegs kk ∧ Out [DEF_REJECT_ITEMS,
    MARK_LATE, MARK_NEXT_COUNT, MARK_QUEUE_FILL, MARK_QUEUE_FULL, REJECT_BITMAP, REJECT_QUEUE_DROP, REJECT_REPEAT,
    REJECT_ROW, REJECT_SEQ] kk) (h : Holds kk vv md mh mb s) :
    Holds kk vv md mh mb (s.closeRow r row) := by
  simp at hk; unfold State.closeRow; repeat' first | (simp (maxDischargeDepth := 60) +contextual [*]; done) | split

@[simp ↓] theorem keep_closeRows {s : State} (hk : Out bookRegs kk ∧ Out [DEF_REJECT_ITEMS, MARK_LATE,
    MARK_NEXT_COUNT, MARK_QUEUE_FILL, MARK_QUEUE_FULL, REJECT_BITMAP, REJECT_QUEUE_DROP, REJECT_REPEAT,
    REJECT_ROW, REJECT_SEQ] kk) (h : Holds kk vv md mh mb s) :
    Holds kk vv md mh mb s.closeRows := by
  simp at hk; unfold State.closeRows; repeat' first | (simp (maxDischargeDepth := 60) +contextual [*]; done) | split

@[simp ↓] theorem keep_emitFloods {s : State} (hk : Out recordRegs kk ∧ Out [DEF_FLOOD_RECORDS] kk) (h : Holds kk
    vv md none mb s) :
    Holds kk vv md none mb s.emitFloods := by
  simp at hk; unfold State.emitFloods
  repeat' (first
    | (simp (maxDischargeDepth := 60) +contextual [*]; done)
    | simp only [holds_mk, holdsOf_parts]
    | with_reducible refine keep_foldl _ (fun t x ht => ?_) ?_
    | with_reducible refine keep_foldl_fst _ (fun t b x ht => ?_) ?_
    | with_reducible refine keep_ite (fun _ => ?_) (fun _ => ?_)
    | split | with_reducible refine keep_fst ?_ (by assumption) | with_reducible refine keep_snd ?_ (by assumption)
    | dsimp only)

@[simp ↓] theorem keep_cover {s : State} {r : Rep} (hk : Out recordRegs kk ∧ Out [REG_ANCHORS_X, REG_ANCHORS_Y,
    REG_CONF_PERMILLE, REG_FIELD_ADDR, REG_LEARN_BAND, REG_LEARN_REJECT, REG_LEARN_STATE, REG_LEARN_VAR_BLOCKS,
    REG_MEAN_DX, REG_MEAN_DY, REG_VAR_MAP_ADDR] kk) (h : Holds kk vv none none mb s) :
    Holds kk vv none none mb (s.cover r) := by
  simp at hk; unfold State.cover; repeat' first | (simp (maxDischargeDepth := 60) +contextual [*]; done) | split

@[simp ↓] theorem keep_coverAll {s : State} {a1 : Nat} (hk : Out recordRegs kk ∧ Out [REG_ANCHORS_X, REG_ANCHORS_Y,
    REG_CONF_PERMILLE, REG_FIELD_ADDR, REG_LEARN_BAND, REG_LEARN_REJECT, REG_LEARN_STATE, REG_LEARN_VAR_BLOCKS,
    REG_MEAN_DX, REG_MEAN_DY, REG_VAR_MAP_ADDR] kk) (h : Holds kk vv none none mb s) :
    Holds kk vv none none mb (s.coverAll a1) := by
  simp at hk
  induction a1 generalizing s with
  | zero => unfold State.coverAll; repeat' first | (simp (maxDischargeDepth := 60) +contextual [*]; done) | split
  | succ n ih => unfold State.coverAll; repeat' first | (simp (maxDischargeDepth := 60) +contextual [*]; done) | split

@[simp ↓] theorem keep_switchDone {s : State} (hk : Out bookRegs kk ∧ Out [SWITCH_STATE] kk) (h : Holds kk vv md
    mh mb s) :
    Holds kk vv md mh mb s.switchDone := by
  simp at hk; unfold State.switchDone; repeat' first | (simp (maxDischargeDepth := 60) +contextual [*]; done) | split

@[simp ↓] theorem keep_leaveStrip {s : State} {v : Nat} {x : CStrip} (hk : Out recordRegs kk) (h : Holds kk vv md
    none mb s) :
    Holds kk vv md none mb (s.leaveStrip v x) := by
  simp at hk; unfold State.leaveStrip; repeat' first | (simp (maxDischargeDepth := 60) +contextual [*]; done) | split

@[simp ↓] theorem keep_leaveStrips {s : State} (hk : Out recordRegs kk) (h : Holds kk vv md none mb s) :
    Holds kk vv md none mb s.leaveStrips := by
  simp at hk; unfold State.leaveStrips; repeat' first | (simp (maxDischargeDepth := 60) +contextual [*]; done) | split

@[simp ↓] theorem keep_closeCands {s : State} (hk : Out recordRegs kk ∧ Out [CROP_SKIPPED, DEF_CANDIDATES,
    DEF_CUT, DEF_DEFAULT_HITS, DEF_FLOOD_RECORDS, DEF_REJECT_ITEMS, DEF_SUPPRESSED, MARK_LATE, MARK_NEXT_COUNT,
    MARK_QUEUE_FILL, MARK_QUEUE_FULL] kk) (h : Holds kk vv md none mb s) :
    Holds kk vv md none mb s.closeCands := by
  simp at hk; unfold State.closeCands; repeat' first | (simp (maxDischargeDepth := 60) +contextual [*]; done) | split

@[simp ↓] theorem keep_asmSettle {s : State} (hk : Out flushRegs kk) (h : Holds kk vv none none mb s) :
    Holds kk vv none none mb s.asmSettle := by
  simp at hk; unfold State.asmSettle; repeat' first | (simp (maxDischargeDepth := 60) +contextual [*]; done) | split

theorem keep_execFragmentFrame {dt : Nat} {frame : List Nat} {s : State} {t : State} (hk : Out flushRegs kk ∧ Out
    [CASCADE_FRAME_CRC, CASCADE_FRAME_LOST, CASCADE_MERGE_LATE, LANE_BYTES, TRACE_HEAD] kk) (h : Holds kk vv none
    none mb s) (e : execFragmentFrame dt frame s = .next t) :
    Holds kk vv none none mb t := by
  simp at hk; unfold execFragmentFrame at e
  refine keep_act ?_ (fun u hu => ?_) e
  · simp [*]
  · repeat' (first
        | (simp (maxDischargeDepth := 60) +contextual [*]; done)
        | with_reducible refine keep_takeFrame ?_ ?_
        | with_reducible refine keep_mergeReceived ?_
        | with_reducible refine keep_asmSettle ?_ ?_
        | with_reducible refine keep_emitCand ?_ ?_
        | with_reducible refine keep_tally ?_ ?_ ?_
        | simp only [holds_mk, holdsOf_parts]
        | with_reducible refine keep_foldl _ (fun t x ht => ?_) ?_
        | with_reducible refine keep_foldl_fst _ (fun t b x ht => ?_) ?_
        | with_reducible refine keep_ite (fun _ => ?_) (fun _ => ?_)
        | split | with_reducible refine keep_fst ?_ (by assumption) | with_reducible refine keep_snd ?_ (by assumption)
        | (intro _; try dsimp only)
        | dsimp only)

theorem keep_execDefCascadeWait {dt : Nat} {s : State} {t : State} (hk : Out flushRegs kk ∧ Out [TRACE_HEAD] kk)
    (h : Holds kk vv none none mb s) (e : execDefCascadeWait dt s = .next t) :
    Holds kk vv none none mb t := by
  simp at hk; unfold execDefCascadeWait at e
  refine keep_act ?_ (fun u hu => ?_) e
  · simp [*]
  · repeat' first | (simp (maxDischargeDepth := 60) +contextual [*]; done) | split

theorem keep_execRejectHoldEnd {dt : Nat} {s : State} {t : State} (hk : Out bookRegs kk ∧ Out [REJECT_BITMAP,
    REJECT_REPEAT, REJECT_ROW, REJECT_SEQ, TRACE_HEAD] kk) (h : Holds kk vv md mh mb s) (e : execRejectHoldEnd dt
    s = .next t) :
    Holds kk vv md mh mb t := by
  simp at hk; unfold execRejectHoldEnd at e
  refine keep_act ?_ (fun u hu => ?_) e
  · simp [*]
  · repeat' first | (simp (maxDischargeDepth := 60) +contextual [*]; done) | split

@[simp ↓] theorem keep_defClear {s : State} {via : Path} (hk : Out bookRegs kk ∧ Out [CASCADE_MERGE_LATE, CROP_EVICTED, CROP_SKIPPED, DEF_CUT, DEF_DEFAULT_HITS, DEF_FLOOD_RECORDS, DEF_SUPPRESSED, HL_DICT_ERRORS, MARK_LATE, MARK_ON_LIMIT, MARK_QUEUE_FULL, REJECT_QUEUE_DROP] kk) (h : Holds kk vv md mh mb s) :
    Holds kk vv md mh mb (s.defClear via) := by
  simp at hk
  unfold State.defClear
  simp (maxDischargeDepth := 60) +contextual [defTallies, *]

theorem keep_execDefClear {dt : Nat} {via : Path} {s : State} {t : State} (hk : Out bookRegs kk ∧ Out
    [CASCADE_MERGE_LATE, CROP_EVICTED, CROP_SKIPPED, DEF_CUT, DEF_DEFAULT_HITS, DEF_FLOOD_RECORDS, DEF_SUPPRESSED,
    HL_DICT_ERRORS, MARK_LATE, MARK_ON_LIMIT, MARK_QUEUE_FULL, REJECT_QUEUE_DROP, TRACE_HEAD] kk) (h : Holds kk vv
    md mh mb s) (e : execDefClear dt via s = .next t) :
    Holds kk vv md mh mb t := by
  simp at hk; unfold execDefClear at e
  refine keep_act ?_ (fun u hu => ?_) e
  · simp [*]
  · repeat' first | (simp (maxDischargeDepth := 60) +contextual [*]; done) | split

end Sys2Proof.Machine
end

