-- ==== Sys2Proof/Laws/KeepBays.lean ====
section
/-! SUPPORT. Laws/KeepBays.lean: what the operations and commands leave alone, of Machine/Bays.lean. -/
namespace Sys2Proof.Machine
open Reg
variable {kk : Key} {vv : Option Nat} {md mh : Option Memory} {mb : Option Blobs}

@[simp ↓] theorem keep_modLane {s : State} {l : Nat} {f : Lane → Lane} (h : Holds kk vv md mh mb s) :
    Holds kk vv md mh mb (s.modLane l f) := by
  unfold State.modLane; repeat' first | (simp (maxDischargeDepth := 60) +contextual [*]; done) | split

@[simp ↓] theorem keep_modBay {s : State} {b : Nat} {f : Bay → Bay} (h : Holds kk vv md mh mb s) :
    Holds kk vv md mh mb (s.modBay b f) := by
  unfold State.modBay; repeat' first | (simp (maxDischargeDepth := 60) +contextual [*]; done) | split

@[simp ↓] theorem keep_modQuad {s : State} {q : Nat} {f : Quad → Quad} (h : Holds kk vv md mh mb s) :
    Holds kk vv md mh mb (s.modQuad q f) := by
  unfold State.modQuad; repeat' first | (simp (maxDischargeDepth := 60) +contextual [*]; done) | split

@[simp ↓] theorem keep_lanesUp {s : State} {q : Nat} (hk : Out [BAY_LANES_UP] kk) (h : Holds kk vv md mh mb s) :
    Holds kk vv md mh mb (s.lanesUp q) := by
  simp at hk; unfold State.lanesUp; repeat' first | (simp (maxDischargeDepth := 60) +contextual [*]; done) | split

@[simp ↓] theorem keep_laneTo {s : State} {l state : Nat} (hk : Out [LANE_STATE] kk) (h : Holds kk vv md mh mb s) :
    Holds kk vv md mh mb (s.laneTo l state) := by
  simp at hk; unfold State.laneTo; repeat' first | (simp (maxDischargeDepth := 60) +contextual [*]; done) | split

@[simp ↓] theorem keep_quadResult {s : State} {q code : Nat} (hk : Out [BAY_RESULT, CASCADE_RESULT] kk) (h : Holds
    kk vv md mh mb s) :
    Holds kk vv md mh mb (s.quadResult q code) := by
  simp at hk; unfold State.quadResult; repeat' first | (simp (maxDischargeDepth := 60) +contextual [*]; done) | split

@[simp ↓] theorem keep_quadDown {s : State} {q : Nat} (hk : Out bookRegs kk ∧ Out emcyRegs kk ∧ Out [BAY_STATE,
    WHARF_HOST_WR_BYTES] kk) (h : Holds kk vv md none mb s) :
    Holds kk vv md none mb (s.quadDown q) := by
  simp at hk; unfold State.quadDown; repeat' first | (simp (maxDischargeDepth := 60) +contextual [*]; done) | split

@[simp ↓] theorem keep_bringupFails {s : State} {q code : Nat} (hk : Out bookRegs kk ∧ Out emcyRegs kk ∧ Out
    [BAY_LANES_UP, BAY_RESULT, BAY_STATE, CASCADE_RESULT, LANE_STATE, WHARF_HOST_WR_BYTES] kk) (h : Holds kk vv md
    none mb s) :
    Holds kk vv md none mb (s.bringupFails q code) := by
  simp at hk; unfold State.bringupFails; repeat' first | (simp (maxDischargeDepth := 60) +contextual [*]; done) | split

@[simp ↓] theorem keep_bringupOk {s : State} {q : Nat} (hk : Out [BAY_LANES_UP, BAY_RESULT, BAY_STATE,
    CASCADE_RESULT, WHARF_HOST_WR_BYTES] kk) (h : Holds kk vv md none mb s) :
    Holds kk vv md none mb (s.bringupOk q) := by
  simp at hk; unfold State.bringupOk; repeat' first | (simp (maxDischargeDepth := 60) +contextual [*]; done) | split

@[simp ↓] theorem keep_pocxpFeed {s : State} {b : Nat} (hk : Out [BAY_POCXP_MW] kk) (h : Holds kk vv md mh mb s) :
    Holds kk vv md mh mb (s.pocxpFeed b) := by
  simp at hk; unfold State.pocxpFeed; repeat' first | (simp (maxDischargeDepth := 60) +contextual [*]; done) | split

@[simp ↓] theorem keep_bayStart {s : State} {q n : Nat} (hk : Out [BAY_POCXP_MW, BAY_SPEED] kk) (h : Holds kk vv md
    mh mb s) :
    Holds kk vv md mh mb (s.bayStart q n) := by
  simp at hk; unfold State.bayStart; repeat' first | (simp (maxDischargeDepth := 60) +contextual [*]; done) | split

@[simp ↓] theorem keep_bringupStart {s : State} {q : Nat} (hk : Out [BAY_LANES_UP, BAY_POCXP_MW, BAY_SPEED,
    BAY_STATE, LANE_STATE] kk) (h : Holds kk vv md mh mb s) :
    Holds kk vv md mh mb (s.bringupStart q) := by
  simp at hk; unfold State.bringupStart; repeat' first | (simp (maxDischargeDepth := 60) +contextual [*]; done) | split

@[simp ↓] theorem keep_bayRetry {s : State} {via : Path} {b : Nat} (hk : Out bookRegs kk ∧ Out [BAY_LANES_UP,
    BAY_POCXP_MW, BAY_SPEED, BAY_STATE, HL_DICT_ERRORS, LANE_STATE] kk) (h : Holds kk vv md mh mb s) :
    Holds kk vv md mh mb (s.bayRetry via b) := by
  simp at hk; unfold State.bayRetry; repeat' first | (simp (maxDischargeDepth := 60) +contextual [*]; done) | split

theorem keep_execBayRetry {dt : Nat} {via : Path} {bay : Nat} {s : State} {t : State} (hk : Out bookRegs kk ∧ Out
    [BAY_LANES_UP, BAY_POCXP_MW, BAY_SPEED, BAY_STATE, HL_DICT_ERRORS, LANE_STATE, TRACE_HEAD] kk) (h : Holds kk vv
    md mh mb s) (e : execBayRetry dt via bay s = .next t) :
    Holds kk vv md mh mb t := by
  simp at hk; unfold execBayRetry at e
  refine keep_act ?_ (fun u hu => ?_) e
  · simp [*]
  · repeat' first | (simp (maxDischargeDepth := 60) +contextual [*]; done) | split

@[simp ↓] theorem keep_bootWrite {s : State} {b : Nat} {w : BootWrite} (h : Holds kk vv md mh mb s) :
    Holds kk vv md mh mb (s.bootWrite b w) := by
  unfold State.bootWrite; repeat' first | (simp (maxDischargeDepth := 60) +contextual [*]; done) | split

theorem keep_execCxpSignalDetect {dt bay : Nat} {signal : CxpSignal} {s : State} {t : State} (hk : Out
    [BAY_POCXP_MW, LANE_STATE, TRACE_HEAD] kk) (h : Holds kk vv md mh mb s) (e : execCxpSignalDetect dt bay signal s
    = .next t) :
    Holds kk vv md mh mb t := by
  simp at hk; unfold execCxpSignalDetect at e
  refine keep_act ?_ (fun u hu => ?_) e
  · simp [*]
  · repeat' first | (simp (maxDischargeDepth := 60) +contextual [*]; done) | split

@[simp ↓] theorem keep_connMapped {s : State} {bay : Nat} {c : CxpCamera} (hk : Out [LANE_CONN_ID] kk) (h : Holds kk
    vv md mh mb s) :
    Holds kk vv md mh mb (s.connMapped bay c) := by
  simp at hk; unfold State.connMapped; repeat' first | (simp (maxDischargeDepth := 60) +contextual [*]; done) | split

@[simp ↓] theorem keep_stepUpStart {s : State} {bay : Nat} {c : CxpCamera} {rate n : Nat} {targets : List Nat} (hk :
    Out [LANE_STATE] kk) (h : Holds kk vv md mh mb s) :
    Holds kk vv md mh mb (s.stepUpStart bay c rate n targets) := by
  simp at hk; unfold State.stepUpStart; repeat' first | (simp (maxDischargeDepth := 60) +contextual [*]; done) | split

@[simp ↓] theorem keep_discovered {s : State} {bay : Nat} {c : CxpCamera} (hk : Out bookRegs kk ∧ Out emcyRegs kk ∧
    Out [BAY_LANES_UP, BAY_RESULT, BAY_STATE, CASCADE_RESULT, LANE_CONN_ID, LANE_STATE, WHARF_HOST_WR_BYTES] kk) (h
    : Holds kk vv md none mb s) :
    Holds kk vv md none mb (s.discovered bay c) := by
  simp at hk; unfold State.discovered
  repeat' (first
    | (simp (maxDischargeDepth := 60) +contextual [*]; done)
    | simp only [holds_mk, holdsOf_parts]
    | with_reducible refine keep_foldl _ (fun t x ht => ?_) ?_
    | with_reducible refine keep_foldl_fst _ (fun t b x ht => ?_) ?_
    | with_reducible refine keep_ite (fun _ => ?_) (fun _ => ?_)
    | split | with_reducible refine keep_fst ?_ (by assumption) | with_reducible refine keep_snd ?_ (by assumption)
    | dsimp only)

@[simp ↓] theorem keep_discoveryDone {s : State} {bay : Nat} {cam : Option CxpCamera} (hk : Out bookRegs kk ∧ Out
    emcyRegs kk ∧ Out [BAY_CTRL_TIMEOUT, BAY_LANES_UP, BAY_RESULT, BAY_STATE, CASCADE_RESULT, LANE_CONN_ID,
    LANE_STATE, WHARF_HOST_WR_BYTES] kk) (h : Holds kk vv md none mb s) :
    Holds kk vv md none mb (s.discoveryDone bay cam) := by
  simp at hk; unfold State.discoveryDone; repeat' first | (simp (maxDischargeDepth := 60) +contextual [*]; done) | split

theorem keep_execCxpStepUpLock {dt bay : Nat} {s : State} {t : State} (hk : Out [BAY_LANES_UP, BAY_RESULT,
    BAY_SPEED, BAY_STATE, CASCADE_RESULT, LANE_STATE, TRACE_HEAD, WHARF_HOST_WR_BYTES] kk) (h : Holds kk vv md
    none mb s) (e : execCxpStepUpLock dt bay s = .next t) :
    Holds kk vv md none mb t := by
  simp at hk; unfold execCxpStepUpLock at e
  refine keep_act ?_ (fun u hu => ?_) e
  · simp [*]
  · repeat' first | (simp (maxDischargeDepth := 60) +contextual [*]; done) | split

@[simp ↓] theorem keep_stepUpTimeout {s : State} {bay : Nat} (hk : Out bookRegs kk ∧ Out emcyRegs kk ∧ Out
    [BAY_LANES_UP, BAY_RESULT, BAY_STATE, CASCADE_RESULT, LANE_STATE, WHARF_HOST_WR_BYTES] kk) (h : Holds kk vv md
    none mb s) :
    Holds kk vv md none mb (s.stepUpTimeout bay) := by
  simp at hk; unfold State.stepUpTimeout; repeat' first | (simp (maxDischargeDepth := 60) +contextual [*]; done) | split

@[simp ↓] theorem keep_clhsReady {s : State} {bay : Nat} (hk : Out [BAY_LANES_UP, BAY_RESULT, BAY_STATE,
    CASCADE_RESULT, LANE_STATE, WHARF_HOST_WR_BYTES] kk) (h : Holds kk vv md none mb s) :
    Holds kk vv md none mb (s.clhsReady bay) := by
  simp at hk; unfold State.clhsReady; repeat' first | (simp (maxDischargeDepth := 60) +contextual [*]; done) | split

@[simp ↓] theorem keep_relocked {s : State} {quad l : Nat} (hk : Out [BAY_LANES_UP, LANE_STATE] kk) (h : Holds kk vv
    md mh mb s) :
    Holds kk vv md mh mb (s.relocked quad l) := by
  simp at hk; unfold State.relocked; repeat' first | (simp (maxDischargeDepth := 60) +contextual [*]; done) | split

@[simp ↓] theorem keep_sendControl {s : State} {payload : List Byte} (h : Holds kk vv md mh mb s) :
    Holds kk vv md mh mb (s.sendControl payload) := by
  unfold State.sendControl; repeat' first | (simp (maxDischargeDepth := 60) +contextual [*]; done) | split

@[simp ↓] theorem keep_exchangeStep {s : State} {l : Nat} (hk : Out [LANE_STATE] kk) (h : Holds kk vv md mh mb s) :
    Holds kk vv md mh mb (s.exchangeStep l) := by
  simp at hk; unfold State.exchangeStep; repeat' first | (simp (maxDischargeDepth := 60) +contextual [*]; done) | split

@[simp ↓] theorem keep_laneStepDone {s : State} {quad lane lanesOffered : Nat} (hk : Out bookRegs kk ∧ Out emcyRegs
    kk ∧ Out [BAY_LANES_UP, BAY_RESULT, BAY_STATE, CASCADE_RESULT, LANE_STATE, WHARF_HOST_WR_BYTES] kk) (h : Holds
    kk vv md none mb s) :
    Holds kk vv md none mb (s.laneStepDone quad lane lanesOffered) := by
  simp at hk; unfold State.laneStepDone
  repeat' (first
    | (simp (maxDischargeDepth := 60) +contextual [*]; done)
    | simp only [holds_mk, holdsOf_parts]
    | with_reducible refine keep_foldl _ (fun t x ht => ?_) ?_
    | with_reducible refine keep_foldl_fst _ (fun t b x ht => ?_) ?_
    | with_reducible refine keep_ite (fun _ => ?_) (fun _ => ?_)
    | split | with_reducible refine keep_fst ?_ (by assumption) | with_reducible refine keep_snd ?_ (by assumption)
    | dsimp only)

@[simp ↓] theorem keep_laneStepTimeout {s : State} {quad lane : Nat} (hk : Out bookRegs kk ∧ Out emcyRegs kk ∧ Out
    [BAY_LANES_UP, BAY_RESULT, BAY_STATE, CASCADE_RESULT, LANE_RETRAIN, LANE_STATE, WHARF_HOST_WR_BYTES] kk) (h :
    Holds kk vv md none mb s) :
    Holds kk vv md none mb (s.laneStepTimeout quad lane) := by
  simp at hk; unfold State.laneStepTimeout; repeat' first | (simp (maxDischargeDepth := 60) +contextual [*]; done) | split

@[simp ↓] theorem keep_relock {s : State} {quad l : Nat} (hk : Out [BAY_LANES_UP, LANE_STATE] kk) (h : Holds kk vv
    md mh mb s) :
    Holds kk vv md mh mb (s.relock quad l) := by
  simp at hk; unfold State.relock; repeat' first | (simp (maxDischargeDepth := 60) +contextual [*]; done) | split

@[simp ↓] theorem keep_routeSlice {s : State} {quad l slice : Nat} (hk : Out logRegs kk ∧ Out bookRegs kk ∧ Out
    unitRegs kk ∧ Out [LANE_SLICE] kk) (h : Holds kk vv md mh mb s) :
    Holds kk vv md mh mb (s.routeSlice quad l slice) := by
  simp at hk; unfold State.routeSlice; repeat' first | (simp (maxDischargeDepth := 60) +contextual [*]; done) | split

@[simp ↓] theorem keep_laneFailed {s : State} {quad l code : Nat} (hk : Out bookRegs kk ∧ Out emcyRegs kk ∧ Out
    [BAY_LANES_UP, BAY_RESULT, BAY_STATE, CASCADE_RESULT, LANE_STATE, WHARF_HOST_WR_BYTES] kk) (h : Holds kk vv md
    none mb s) :
    Holds kk vv md none mb (s.laneFailed quad l code) := by
  simp at hk; unfold State.laneFailed; repeat' first | (simp (maxDischargeDepth := 60) +contextual [*]; done) | split

@[simp ↓] theorem keep_sliceDead {s : State} {quad l : Nat} (hk : Out declareRegs kk ∧ Out emcyRegs kk ∧ Out
    [BAY_LANES_UP, BAY_RESULT, BAY_STATE, CASCADE_RESULT, LANE_SLICE, LANE_STATE, WHARF_HOST_WR_BYTES] kk) (h :
    Holds kk vv md none mb s) :
    Holds kk vv md none mb (s.sliceDead quad l) := by
  simp at hk; unfold State.sliceDead
  repeat' (first
    | (simp (maxDischargeDepth := 60) +contextual [*]; done)
    | simp only [holds_mk, holdsOf_parts]
    | with_reducible refine keep_foldl _ (fun t x ht => ?_) ?_
    | with_reducible refine keep_foldl_fst _ (fun t b x ht => ?_) ?_
    | with_reducible refine keep_ite (fun _ => ?_) (fun _ => ?_)
    | split | with_reducible refine keep_fst ?_ (by assumption) | with_reducible refine keep_snd ?_ (by assumption)
    | dsimp only)

theorem keep_execLaneLockLoss {dt quad lane : Nat} {s : State} {t : State} (hk : Out bookRegs kk ∧ Out
    [BAY_LANES_UP, LANE_LOCK_LOSS, LANE_STATE, TRACE_HEAD] kk) (h : Holds kk vv md mh mb s) (e : execLaneLockLoss
    dt quad lane s = .next t) :
    Holds kk vv md mh mb t := by
  simp at hk; unfold execLaneLockLoss at e
  refine keep_act ?_ (fun u hu => ?_) e
  · simp [*]
  · repeat' first | (simp (maxDischargeDepth := 60) +contextual [*]; done) | split

@[simp ↓] theorem keep_laneRetrainFail {s : State} {quad lane : Nat} (hk : Out declareRegs kk ∧ Out emcyRegs kk ∧
    Out [BAY_LANES_UP, BAY_RESULT, BAY_STATE, CASCADE_RESULT, LANE_RETRAIN, LANE_SLICE, LANE_STATE,
    WHARF_HOST_WR_BYTES] kk) (h : Holds kk vv md none mb s) :
    Holds kk vv md none mb (s.laneRetrainFail quad lane) := by
  simp at hk; unfold State.laneRetrainFail; repeat' first | (simp (maxDischargeDepth := 60) +contextual [*]; done) | split

theorem keep_execLaneRetrainDone {dt quad lane : Nat} {s : State} {t : State} (hk : Out [BAY_LANES_UP, LANE_STATE,
    TRACE_HEAD] kk) (h : Holds kk vv md mh mb s) (e : execLaneRetrainDone dt quad lane s = .next t) :
    Holds kk vv md mh mb t := by
  simp at hk; unfold execLaneRetrainDone at e
  refine keep_act ?_ (fun u hu => ?_) e
  · simp [*]
  · repeat' first | (simp (maxDischargeDepth := 60) +contextual [*]; done) | split

@[simp ↓] theorem keep_lockLost {s : State} {quad l : Nat} (hk : Out [BAY_LANES_UP, LANE_STATE] kk) (h : Holds kk vv
    md mh mb s) :
    Holds kk vv md mh mb (s.lockLost quad l) := by
  simp at hk; unfold State.lockLost; repeat' first | (simp (maxDischargeDepth := 60) +contextual [*]; done) | split

@[simp ↓] theorem keep_blockLost {s : State} {quad l : Nat} (hk : Out bookRegs kk ∧ Out [BAY_LANES_UP,
    LANE_LOCK_LOSS, LANE_STATE] kk) (h : Holds kk vv md mh mb s) :
    Holds kk vv md mh mb (s.blockLost quad l) := by
  simp at hk; unfold State.blockLost; repeat' first | (simp (maxDischargeDepth := 60) +contextual [*]; done) | split

@[simp ↓] theorem keep_syncHeader {s : State} {quad l h : Nat} (hk : Out bookRegs kk ∧ Out [BAY_LANES_UP,
    LANE_CODE_ERR, LANE_LOCK_LOSS, LANE_STATE] kk) (hs : Holds kk vv md mh mb s) :
    Holds kk vv md mh mb (s.syncHeader quad l h) := by
  simp at hk; unfold State.syncHeader; repeat' first | (simp (maxDischargeDepth := 60) +contextual [*]; done) | split

@[simp ↓] theorem keep_alignBlock {s : State} {lane seq : Nat} (hk : Out bookRegs kk ∧ Out [BAY_LANES_UP,
    LANE_LOCK_LOSS, LANE_STATE] kk) (h : Holds kk vv md mh mb s) :
    Holds kk vv md mh mb (s.alignBlock lane seq) := by
  simp at hk; unfold State.alignBlock; repeat' first | (simp (maxDischargeDepth := 60) +contextual [*]; done) | split

@[simp ↓] theorem keep_linkControl {s : State} {lane payload : Nat} (hk : Out bookRegs kk ∧ Out [BAY_LANES_UP,
    LANE_CODE_ERR, LANE_LOCK_LOSS, LANE_STATE] kk) (h : Holds kk vv md mh mb s) :
    Holds kk vv md mh mb (s.linkControl lane payload) := by
  simp at hk; unfold State.linkControl; repeat' first | (simp (maxDischargeDepth := 60) +contextual [*]; done) | split

@[simp ↓] theorem keep_takeRound {s : State} {a1 : Nat} (h : Holds kk vv md mh mb s) :
    Holds kk vv md mh mb (s.takeRound a1) := by
  induction a1 generalizing s with
  | zero => unfold State.takeRound; repeat' first | (simp (maxDischargeDepth := 60) +contextual [*]; done) | split
  | succ n ih => unfold State.takeRound; repeat' first | (simp (maxDischargeDepth := 60) +contextual [*]; done) | split

@[simp ↓] theorem keep_stripeBlock {s : State} {lane header payload : Nat} (h : Holds kk vv md mh mb s) :
    Holds kk vv md mh mb (s.stripeBlock lane header payload) := by
  unfold State.stripeBlock
  repeat' (first
    | (simp (maxDischargeDepth := 60) +contextual [*]; done)
    | (have e' := (by assumption : (_ : State × _) = (_, _))
       have hq := keep_fst (k := kk) (v := vv) (m := md) (h := mh) (b := mb) (by simp (maxDischargeDepth := 60) +contextual [*]; done) e'
       simp (maxDischargeDepth := 60) +contextual [*]; done)
    | simp only [holds_mk, holdsOf_parts]
    | with_reducible refine keep_foldl _ (fun t x ht => ?_) ?_
    | with_reducible refine keep_foldl_fst _ (fun t b x ht => ?_) ?_
    | with_reducible refine keep_ite (fun _ => ?_) (fun _ => ?_)
    | split | with_reducible refine keep_fst ?_ (by assumption) | with_reducible refine keep_snd ?_ (by assumption)
    | dsimp only)

@[simp ↓] theorem keep_rxBlock {s : State} {quad lane w : Nat} (hk : Out bookRegs kk ∧ Out [BAY_LANES_UP,
    LANE_CODE_ERR, LANE_LOCK_LOSS, LANE_STATE] kk) (h : Holds kk vv md mh mb s) :
    Holds kk vv md mh mb (s.rxBlock quad lane w) := by
  simp at hk; unfold State.rxBlock; repeat' first | (simp (maxDischargeDepth := 60) +contextual [*]; done) | split

@[simp ↓] theorem keep_staleSlice {s : State} {b slice : Nat} (hk : Out logRegs kk ∧ Out bookRegs kk ∧ Out unitRegs
    kk ∧ Out [LANE_STALE_RESULT] kk) (h : Holds kk vv md mh mb s) :
    Holds kk vv md mh mb (s.staleSlice b slice) := by
  simp at hk; unfold State.staleSlice; repeat' first | (simp (maxDischargeDepth := 60) +contextual [*]; done) | split

@[simp ↓] theorem keep_rxSymbol {s : State} {quad lane : Nat} {x : LaneSymbol} (hk : Out logRegs kk ∧ Out bookRegs
    kk ∧ Out unitRegs kk ∧ Out [BAY_LANES_UP, LANE_CODE_ERR, LANE_LOCK_LOSS, LANE_STALE_RESULT, LANE_STATE] kk) (h :
    Holds kk vv md mh mb s) :
    Holds kk vv md mh mb (s.rxSymbol quad lane x) := by
  simp at hk; unfold State.rxSymbol; repeat' first | (simp (maxDischargeDepth := 60) +contextual [*]; done) | split

theorem keep_execBlockLockGained {dt quad lane : Nat} {symbols : List LaneSymbol} {s : State} {t : State} (hk : Out
    logRegs kk ∧ Out bookRegs kk ∧ Out unitRegs kk ∧ Out [BAY_LANES_UP, LANE_CODE_ERR, LANE_LOCK_LOSS,
    LANE_STALE_RESULT, LANE_STATE, TRACE_HEAD] kk) (h : Holds kk vv md mh mb s) (e : execBlockLockGained dt quad
    lane symbols s = .next t) :
    Holds kk vv md mh mb t := by
  simp at hk; unfold execBlockLockGained at e
  refine keep_act ?_ (fun u hu => ?_) e
  · simp [*]
  · repeat' first | (simp (maxDischargeDepth := 60) +contextual [*]; done) | split

theorem keep_execAlignOrderFault {dt lane seq : Nat} {s : State} {t : State} (hk : Out bookRegs kk ∧ Out
    [BAY_LANES_UP, LANE_LOCK_LOSS, LANE_STATE, TRACE_HEAD] kk) (h : Holds kk vv md mh mb s) (e :
    execAlignOrderFault dt lane seq s = .next t) :
    Holds kk vv md mh mb t := by
  simp at hk; unfold execAlignOrderFault at e
  refine keep_act ?_ (fun u hu => ?_) e
  · simp [*]
  · repeat' first | (simp (maxDischargeDepth := 60) +contextual [*]; done) | split

@[simp ↓] theorem keep_pocxpOverload {s : State} {bay milliwatt overMs : Nat} {short : Bool} (hk : Out bookRegs kk ∧
    Out emcyRegs kk ∧ Out [BAY_LANES_UP, BAY_POCXP_FAULT, BAY_POCXP_MW, BAY_RESULT, BAY_STATE, CASCADE_RESULT,
    LANE_STATE, WHARF_HOST_WR_BYTES] kk) (h : Holds kk vv md none mb s) :
    Holds kk vv md none mb (s.pocxpOverload bay milliwatt overMs short) := by
  simp at hk; unfold State.pocxpOverload; repeat' first | (simp (maxDischargeDepth := 60) +contextual [*]; done) | split

@[simp ↓] theorem keep_substituteLane {s : State} {quad l : Nat} (hk : Out logRegs kk ∧ Out bookRegs kk ∧ Out
    unitRegs kk ∧ Out [BAY_LANES_UP, LANE_SLICE, LANE_STATE] kk) (h : Holds kk vv md mh mb s) :
    Holds kk vv md mh mb (s.substituteLane quad l) := by
  simp at hk; unfold State.substituteLane; repeat' first | (simp (maxDischargeDepth := 60) +contextual [*]; done) | split

@[simp ↓] theorem keep_substituteLanes {s : State} (hk : Out logRegs kk ∧ Out bookRegs kk ∧ Out unitRegs kk ∧ Out
    [BAY_LANES_UP, LANE_SLICE, LANE_STATE] kk) (h : Holds kk vv md mh mb s) :
    Holds kk vv md mh mb s.substituteLanes := by
  simp at hk; unfold State.substituteLanes; repeat' first | (simp (maxDischargeDepth := 60) +contextual [*]; done) | split

theorem keep_execLaneBer {dt quad lane errors bits : Nat} {s : State} {t : State} (hk : Out logRegs kk ∧ Out
    bookRegs kk ∧ Out unitRegs kk ∧ Out [BAY_LANES_UP, LANE_BER_EST, LANE_SLICE, LANE_STATE, TRACE_HEAD] kk) (h :
    Holds kk vv md mh mb s) (e : execLaneBer dt quad lane errors bits s = .next t) :
    Holds kk vv md mh mb t := by
  simp at hk; unfold execLaneBer at e
  refine keep_act ?_ (fun u hu => ?_) e
  · simp [*]
  · repeat' first | (simp (maxDischargeDepth := 60) +contextual [*]; done) | split

@[simp ↓] theorem keep_testPower {s : State} {domain : Nat} {on : Bool} (hk : Out [ISLAND_STATE, PD_STATE] kk) (h
    : Holds kk vv md mh mb s) :
    Holds kk vv md mh mb (s.testPower domain on) := by
  simp at hk; unfold State.testPower; repeat' first | (simp (maxDischargeDepth := 60) +contextual [*]; done) | split

@[simp ↓] theorem keep_sliceSelftest {s : State} {via : Path} {quad slice : Nat} (hk : Out bookRegs kk ∧ Out
    [HL_DICT_ERRORS, ISLAND_STATE, ISO_ERROR_RESPONSES, PD_STATE, SLICE_SELFTEST_RESULT] kk) (h : Holds kk vv md mh
    mb s) :
    Holds kk vv md mh mb (s.sliceSelftest via quad slice) := by
  simp at hk; unfold State.sliceSelftest; repeat' first | (simp (maxDischargeDepth := 60) +contextual [*]; done) | split

theorem keep_execSliceSelftest {dt : Nat} {via : Path} {quad slice : Nat} {s : State} {t : State} (hk : Out bookRegs
    kk ∧ Out [HL_DICT_ERRORS, ISLAND_STATE, ISO_ERROR_RESPONSES, PD_STATE, SLICE_SELFTEST_RESULT, TRACE_HEAD] kk) (h
    : Holds kk vv md mh mb s) (e : execSliceSelftest dt via quad slice s = .next t) :
    Holds kk vv md mh mb t := by
  simp at hk; unfold execSliceSelftest at e
  refine keep_act ?_ (fun u hu => ?_) e
  · simp [*]
  · repeat' first | (simp (maxDischargeDepth := 60) +contextual [*]; done) | split

theorem keep_execSliceSelftestDone {dt quad bits errors : Nat} {s : State} {t : State} (hk : Out logRegs kk ∧ Out
    bookRegs kk ∧ Out unitRegs kk ∧ Out [ISLAND_STATE, PD_STATE, SLICE_SELFTEST_RESULT, TRACE_HEAD] kk) (h : Holds
    kk vv md mh mb s) (e : execSliceSelftestDone dt quad bits errors s = .next t) :
    Holds kk vv md mh mb t := by
  simp at hk; unfold execSliceSelftestDone at e
  refine keep_act ?_ (fun u hu => ?_) e
  · simp [*]
  · repeat' first | (simp (maxDischargeDepth := 60) +contextual [*]; done) | split

theorem keep_execSpareSliceCheck {dt : Nat} {s : State} {t : State} (hk : Out [TRACE_HEAD] kk) (h : Holds kk vv md
    mh mb s) (e : execSpareSliceCheck dt s = .next t) :
    Holds kk vv md mh mb t := by
  simp at hk; unfold execSpareSliceCheck at e
  refine keep_act ?_ (fun u hu => ?_) e
  · simp [*]
  · repeat' (first
        | (simp (maxDischargeDepth := 60) +contextual [*]; done)
        | simp only [holds_mk, holdsOf_parts]
        | with_reducible refine keep_foldl _ (fun t x ht => ?_) ?_
        | with_reducible refine keep_foldl_fst _ (fun t b x ht => ?_) ?_
        | with_reducible refine keep_ite (fun _ => ?_) (fun _ => ?_)
        | split | with_reducible refine keep_fst ?_ (by assumption) | with_reducible refine keep_snd ?_ (by assumption)
        | dsimp only)

theorem keep_execSpareSliceCheckDone {dt quad slice errors : Nat} {s : State} {t : State} (hk : Out logRegs kk ∧
    Out bookRegs kk ∧ Out unitRegs kk ∧ Out [TRACE_HEAD] kk) (h : Holds kk vv md mh mb s) (e :
    execSpareSliceCheckDone dt quad slice errors s = .next t) :
    Holds kk vv md mh mb t := by
  simp at hk; unfold execSpareSliceCheckDone at e
  refine keep_act ?_ (fun u hu => ?_) e
  · simp [*]
  · repeat' first | (simp (maxDischargeDepth := 60) +contextual [*]; done) | split

@[simp ↓] theorem keep_loopStop {s : State} {quad bits errors : Nat} (hk : Out bookRegs kk ∧ Out [BAY_LANES_UP,
    LANE_STATE, LB_BITS, LB_ERRORS, LB_STATUS] kk) (h : Holds kk vv md mh mb s) :
    Holds kk vv md mh mb (s.loopStop quad bits errors) := by
  simp at hk; unfold State.loopStop
  repeat' (first
    | (simp (maxDischargeDepth := 60) +contextual [*]; done)
    | simp only [holds_mk, holdsOf_parts]
    | with_reducible refine keep_foldl _ (fun t x ht => ?_) ?_
    | with_reducible refine keep_foldl_fst _ (fun t b x ht => ?_) ?_
    | with_reducible refine keep_ite (fun _ => ?_) (fun _ => ?_)
    | split | with_reducible refine keep_fst ?_ (by assumption) | with_reducible refine keep_snd ?_ (by assumption)
    | dsimp only)

@[simp ↓] theorem keep_loopStart {s : State} {via : Path} {quad : Nat} {locked : Bool} (hk : Out bookRegs kk ∧ Out
    [BAY_LANES_UP, HL_DICT_ERRORS, LANE_STATE, LB_BITS, LB_ERRORS, LB_STATUS] kk) (h : Holds kk vv md mh mb s) :
    Holds kk vv md mh mb (s.loopStart via quad locked) := by
  simp at hk; unfold State.loopStart
  repeat' (first
    | (simp (maxDischargeDepth := 60) +contextual [*]; done)
    | simp only [holds_mk, holdsOf_parts]
    | with_reducible refine keep_foldl _ (fun t x ht => ?_) ?_
    | with_reducible refine keep_foldl_fst _ (fun t b x ht => ?_) ?_
    | with_reducible refine keep_ite (fun _ => ?_) (fun _ => ?_)
    | split | with_reducible refine keep_fst ?_ (by assumption) | with_reducible refine keep_snd ?_ (by assumption)
    | dsimp only)

theorem keep_execLbRunStart {dt : Nat} {via : Path} {quad : Nat} {locked : Bool} {s : State} {t : State} (hk : Out
    bookRegs kk ∧ Out [BAY_LANES_UP, HL_DICT_ERRORS, LANE_STATE, LB_BITS, LB_ERRORS, LB_STATUS, TRACE_HEAD] kk) (h :
    Holds kk vv md mh mb s) (e : execLbRunStart dt via quad locked s = .next t) :
    Holds kk vv md mh mb t := by
  simp at hk; unfold execLbRunStart at e
  refine keep_act ?_ (fun u hu => ?_) e
  · simp [*]
  · repeat' first | (simp (maxDischargeDepth := 60) +contextual [*]; done) | split

theorem keep_execLbRunStop {dt : Nat} {_via : Path} {quad bits errors : Nat} {s : State} {t : State} (hk : Out
    bookRegs kk ∧ Out [BAY_LANES_UP, LANE_STATE, LB_BITS, LB_ERRORS, LB_STATUS, TRACE_HEAD] kk) (h : Holds kk vv md
    mh mb s) (e : execLbRunStop dt _via quad bits errors s = .next t) :
    Holds kk vv md mh mb t := by
  simp at hk; unfold execLbRunStop at e
  refine keep_act ?_ (fun u hu => ?_) e
  · simp [*]
  · repeat' first | (simp (maxDischargeDepth := 60) +contextual [*]; done) | split

@[simp ↓] theorem keep_quadClear {s : State} {q : Nat} (hk : Out [BAY_CTRL_TIMEOUT, BAY_POCXP_FAULT,
    BAY_UNSUPPORTED_PKT, LANE_CODE_ERR, LANE_LOCK_LOSS, LANE_RETRAIN, LANE_STALE_RESULT, LB_ERRORS] kk) (h : Holds
    kk vv md mh mb s) :
    Holds kk vv md mh mb (s.quadClear q) := by
  simp at hk; unfold State.quadClear; repeat' first | (simp (maxDischargeDepth := 60) +contextual [*]; done) | split

theorem keep_execBayClear {dt : Nat} {via : Path} {bay : Nat} {s : State} {t : State} (hk : Out bookRegs kk ∧ Out
    [BAY_CTRL_TIMEOUT, BAY_POCXP_FAULT, BAY_UNSUPPORTED_PKT, HL_DICT_ERRORS, LANE_CODE_ERR, LANE_LOCK_LOSS,
    LANE_RETRAIN, LANE_STALE_RESULT, LB_ERRORS, TRACE_HEAD] kk) (h : Holds kk vv md mh mb s) (e : execBayClear dt
    via bay s = .next t) :
    Holds kk vv md mh mb t := by
  simp at hk; unfold execBayClear at e
  refine keep_act ?_ (fun u hu => ?_) e
  · simp [*]
  · repeat' first | (simp (maxDischargeDepth := 60) +contextual [*]; done) | split

@[simp ↓] theorem keep_cascadeClear {s : State} (hk : Out [BAY_CTRL_TIMEOUT, BAY_POCXP_FAULT, BAY_UNSUPPORTED_PKT,
    CASCADE_FRAME_CRC, CASCADE_FRAME_LOST, LANE_CODE_ERR, LANE_LOCK_LOSS, LANE_RETRAIN, LANE_STALE_RESULT,
    LB_ERRORS] kk) (h : Holds kk vv md mh mb s) :
    Holds kk vv md mh mb s.cascadeClear := by
  simp at hk; unfold State.cascadeClear; repeat' first | (simp (maxDischargeDepth := 60) +contextual [*]; done) | split

theorem keep_execCascadeClear {dt : Nat} {via : Path} {s : State} {t : State} (hk : Out bookRegs kk ∧ Out
    [BAY_CTRL_TIMEOUT, BAY_POCXP_FAULT, BAY_UNSUPPORTED_PKT, CASCADE_FRAME_CRC, CASCADE_FRAME_LOST,
    HL_DICT_ERRORS, LANE_CODE_ERR, LANE_LOCK_LOSS, LANE_RETRAIN, LANE_STALE_RESULT, LB_ERRORS, TRACE_HEAD] kk) (h
    : Holds kk vv md mh mb s) (e : execCascadeClear dt via s = .next t) :
    Holds kk vv md mh mb t := by
  simp at hk; unfold execCascadeClear at e
  refine keep_act ?_ (fun u hu => ?_) e
  · simp [*]
  · repeat' first | (simp (maxDischargeDepth := 60) +contextual [*]; done) | split

@[simp ↓] theorem keep_controlUnknown {s : State} {p : List Byte} (hk : Out bookRegs kk ∧ Out emcyRegs kk ∧ Out
    [BAY_LANES_UP, BAY_RESULT, BAY_STATE, CASCADE_RESULT, LANE_STATE, WHARF_HOST_WR_BYTES] kk) (h : Holds kk vv md
    none mb s) :
    Holds kk vv md none mb (s.controlUnknown p) := by
  simp at hk; unfold State.controlUnknown; repeat' first | (simp (maxDischargeDepth := 60) +contextual [*]; done) | split

theorem keep_execCapability {dt : Nat} {frame : List Nat} {s : State} {t : State} (hk : Out bookRegs kk ∧ Out
    emcyRegs kk ∧ Out [BAY_LANES_UP, BAY_RESULT, BAY_STATE, CASCADE_FRAME_CRC, CASCADE_FRAME_LOST, CASCADE_RESULT,
    LANE_BYTES, LANE_STATE, TRACE_HEAD, WHARF_HOST_WR_BYTES] kk) (h : Holds kk vv md none mb s) (e : execCapability
    dt frame s = .next t) :
    Holds kk vv md none mb t := by
  simp at hk; unfold execCapability at e
  refine keep_act ?_ (fun u hu => ?_) e
  · simp [*]
  · repeat' (first
        | (simp (maxDischargeDepth := 60) +contextual [*]; done)
        | with_reducible refine keep_takeFrame ?_ ?_
        | with_reducible refine keep_controlUnknown ?_ ?_
        | with_reducible refine keep_bringupFails ?_ ?_
        | with_reducible refine keep_sendControl ?_
        | with_reducible refine keep_bringupOk ?_ ?_
        | with_reducible refine keep_laneTo ?_ ?_
        | simp only [holds_mk, holdsOf_parts]
        | with_reducible refine keep_foldl _ (fun t x ht => ?_) ?_
        | with_reducible refine keep_foldl_fst _ (fun t b x ht => ?_) ?_
        | with_reducible refine keep_ite (fun _ => ?_) (fun _ => ?_)
        | split | with_reducible refine keep_fst ?_ (by assumption) | with_reducible refine keep_snd ?_ (by assumption)
        | (intro _; try dsimp only)
        | dsimp only)

theorem keep_execRttRequest {dt : Nat} {frame : List Nat} {turnaround : Nat} {s : State} {t : State} (hk : Out
    bookRegs kk ∧ Out emcyRegs kk ∧ Out [BAY_LANES_UP, BAY_RESULT, BAY_STATE, CASCADE_FRAME_CRC, CASCADE_FRAME_LOST,
    CASCADE_RESULT, LANE_BYTES, LANE_STATE, TRACE_HEAD, WHARF_HOST_WR_BYTES] kk) (h : Holds kk vv md none mb s) (e :
    execRttRequest dt frame turnaround s = .next t) :
    Holds kk vv md none mb t := by
  simp at hk; unfold execRttRequest at e
  refine keep_act ?_ (fun u hu => ?_) e
  · simp [*]
  · repeat' (first
        | (simp (maxDischargeDepth := 60) +contextual [*]; done)
        | with_reducible refine keep_takeFrame ?_ ?_
        | with_reducible refine keep_controlUnknown ?_ ?_
        | with_reducible refine keep_sendControl ?_
        | simp only [holds_mk, holdsOf_parts]
        | with_reducible refine keep_foldl _ (fun t x ht => ?_) ?_
        | with_reducible refine keep_foldl_fst _ (fun t b x ht => ?_) ?_
        | with_reducible refine keep_ite (fun _ => ?_) (fun _ => ?_)
        | split | with_reducible refine keep_fst ?_ (by assumption) | with_reducible refine keep_snd ?_ (by assumption)
        | (intro _; try dsimp only)
        | dsimp only)

theorem keep_execRttReply {dt : Nat} {frame : List Nat} {s : State} {t : State} (hk : Out bookRegs kk ∧ Out emcyRegs
    kk ∧ Out [BAY_LANES_UP, BAY_RESULT, BAY_STATE, CASCADE_FRAME_CRC, CASCADE_FRAME_LOST, CASCADE_LATENCY_NS,
    CASCADE_RESULT, LANE_BYTES, LANE_STATE, TRACE_HEAD, WHARF_HOST_WR_BYTES] kk) (h : Holds kk vv md none mb s) (e :
    execRttReply dt frame s = .next t) :
    Holds kk vv md none mb t := by
  simp at hk; unfold execRttReply at e
  refine keep_act ?_ (fun u hu => ?_) e
  · simp [*]
  · repeat' (first
        | (simp (maxDischargeDepth := 60) +contextual [*]; done)
        | with_reducible refine keep_takeFrame ?_ ?_
        | with_reducible refine keep_controlUnknown ?_ ?_
        | with_reducible refine keep_sendControl ?_
        | with_reducible refine keep_set ?_ ?_
        | simp only [holds_mk, holdsOf_parts]
        | with_reducible refine keep_foldl _ (fun t x ht => ?_) ?_
        | with_reducible refine keep_foldl_fst _ (fun t b x ht => ?_) ?_
        | with_reducible refine keep_ite (fun _ => ?_) (fun _ => ?_)
        | split | with_reducible refine keep_fst ?_ (by assumption) | with_reducible refine keep_snd ?_ (by assumption)
        | (intro _; try dsimp only)
        | dsimp only)

theorem keep_execLatency {dt : Nat} {frame : List Nat} {s : State} {t : State} (hk : Out bookRegs kk ∧ Out emcyRegs
    kk ∧ Out [BAY_LANES_UP, BAY_RESULT, BAY_STATE, CASCADE_FRAME_CRC, CASCADE_FRAME_LOST, CASCADE_LATENCY_NS,
    CASCADE_RESULT, LANE_BYTES, LANE_STATE, TRACE_HEAD, WHARF_HOST_WR_BYTES] kk) (h : Holds kk vv md none mb s) (e :
    execLatency dt frame s = .next t) :
    Holds kk vv md none mb t := by
  simp at hk; unfold execLatency at e
  refine keep_act ?_ (fun u hu => ?_) e
  · simp [*]
  · repeat' (first
        | (simp (maxDischargeDepth := 60) +contextual [*]; done)
        | with_reducible refine keep_takeFrame ?_ ?_
        | with_reducible refine keep_controlUnknown ?_ ?_
        | with_reducible refine keep_set ?_ ?_
        | simp only [holds_mk, holdsOf_parts]
        | with_reducible refine keep_foldl _ (fun t x ht => ?_) ?_
        | with_reducible refine keep_foldl_fst _ (fun t b x ht => ?_) ?_
        | with_reducible refine keep_ite (fun _ => ?_) (fun _ => ?_)
        | split | with_reducible refine keep_fst ?_ (by assumption) | with_reducible refine keep_snd ?_ (by assumption)
        | (intro _; try dsimp only)
        | dsimp only)

theorem keep_execLbRequest {dt : Nat} {frame : List Nat} {s : State} {t : State} (hk : Out bookRegs kk ∧ Out
    emcyRegs kk ∧ Out [BAY_LANES_UP, BAY_RESULT, BAY_STATE, CASCADE_FRAME_CRC, CASCADE_FRAME_LOST, CASCADE_RESULT,
    LANE_BYTES, LANE_STATE, TRACE_HEAD, WHARF_HOST_WR_BYTES] kk) (h : Holds kk vv md none mb s) (e : execLbRequest
    dt frame s = .next t) :
    Holds kk vv md none mb t := by
  simp at hk; unfold execLbRequest at e
  refine keep_act ?_ (fun u hu => ?_) e
  · simp [*]
  · repeat' (first
        | (simp (maxDischargeDepth := 60) +contextual [*]; done)
        | with_reducible refine keep_takeFrame ?_ ?_
        | with_reducible refine keep_controlUnknown ?_ ?_
        | with_reducible refine keep_sendControl ?_
        | with_reducible refine keep_lanesUp ?_ ?_
        | with_reducible refine keep_laneTo ?_ ?_
        | with_reducible refine keep_relock ?_ ?_
        | simp only [holds_mk, holdsOf_parts]
        | with_reducible refine keep_foldl _ (fun t x ht => ?_) ?_
        | with_reducible refine keep_foldl_fst _ (fun t b x ht => ?_) ?_
        | with_reducible refine keep_ite (fun _ => ?_) (fun _ => ?_)
        | split | with_reducible refine keep_fst ?_ (by assumption) | with_reducible refine keep_snd ?_ (by assumption)
        | (intro _; try dsimp only)
        | dsimp only)

theorem keep_execLbReply {dt : Nat} {frame : List Nat} {s : State} {t : State} (hk : Out bookRegs kk ∧ Out emcyRegs
    kk ∧ Out [BAY_LANES_UP, BAY_RESULT, BAY_STATE, CASCADE_FRAME_CRC, CASCADE_FRAME_LOST, CASCADE_RESULT,
    LANE_BYTES, LANE_STATE, LB_BITS, LB_ERRORS, LB_STATUS, TRACE_HEAD, WHARF_HOST_WR_BYTES] kk) (h : Holds kk vv md
    none mb s) (e : execLbReply dt frame s = .next t) :
    Holds kk vv md none mb t := by
  simp at hk; unfold execLbReply at e
  refine keep_act ?_ (fun u hu => ?_) e
  · simp [*]
  · repeat' (first
        | (simp (maxDischargeDepth := 60) +contextual [*]; done)
        | with_reducible refine keep_takeFrame ?_ ?_
        | with_reducible refine keep_controlUnknown ?_ ?_
        | with_reducible refine keep_set ?_ ?_
        | with_reducible refine keep_loopStop ?_ ?_
        | with_reducible refine keep_modQuad ?_
        | simp only [holds_mk, holdsOf_parts]
        | with_reducible refine keep_foldl _ (fun t x ht => ?_) ?_
        | with_reducible refine keep_foldl_fst _ (fun t b x ht => ?_) ?_
        | with_reducible refine keep_ite (fun _ => ?_) (fun _ => ?_)
        | split | with_reducible refine keep_fst ?_ (by assumption) | with_reducible refine keep_snd ?_ (by assumption)
        | (intro _; try dsimp only)
        | dsimp only)

end Sys2Proof.Machine
end

