-- ==== Sys2Proof/Laws/KeepLight.lean ====
section
/-! SUPPORT. Laws/KeepLight.lean: what the operations and commands leave alone, of Machine/Light.lean. -/
namespace Sys2Proof.Machine
open Reg
variable {kk : Key} {vv : Option Nat} {md mh : Option Memory} {mb : Option Blobs}

@[simp ↓] theorem keep_lightLoad {s : State} (hk : Out [LIGHT_POWER_W] kk) (h : Holds kk vv md mh mb s) :
    Holds kk vv md mh mb s.lightLoad := by
  simp at hk; unfold State.lightLoad; repeat' first | (simp (maxDischargeDepth := 60) +contextual [*]; done) | split

@[simp ↓] theorem keep_drive {s : State} {x : ExpSet} {ch : Nat} (hk : Out [BAR_CURRENT_MA, BAR_STATE] kk) (h :
    Holds kk vv md mh mb s) :
    Holds kk vv md mh mb (s.drive x ch) := by
  simp at hk; unfold State.drive; repeat' first | (simp (maxDischargeDepth := 60) +contextual [*]; done) | split

@[simp ↓] theorem keep_loadCurrents {s : State} {x : ExpSet} (hk : Out [BAR_CURRENT_MA, BAR_STATE, LIGHT_POWER_W]
    kk) (h : Holds kk vv md mh mb s) :
    Holds kk vv md mh mb (s.loadCurrents x) := by
  simp at hk; unfold State.loadCurrents; repeat' first | (simp (maxDischargeDepth := 60) +contextual [*]; done) | split

@[simp ↓] theorem keep_lightsReady {s : State} (hk : Out [BAR_CURRENT_MA, BAR_STATE, LIGHT_POWER_W] kk) (h : Holds
    kk vv md mh mb s) :
    Holds kk vv md mh mb s.lightsReady := by
  simp at hk; unfold State.lightsReady; repeat' first | (simp (maxDischargeDepth := 60) +contextual [*]; done) | split

@[simp ↓] theorem keep_shedLights {s : State} (hk : Out bookRegs kk ∧ Out [BAR_CURRENT_MA, BAR_STATE,
    LIGHT_POWER_W, LIGHT_SHED] kk) (h : Holds kk vv md mh mb s) :
    Holds kk vv md mh mb s.shedLights := by
  simp at hk; unfold State.shedLights; repeat' first | (simp (maxDischargeDepth := 60) +contextual [*]; done) | split

@[simp ↓] theorem keep_compensate {s : State} {ch : Nat} (hk : Out [BAR_COMP_PERMILLE, BAR_OUTPUT_PERMILLE] kk) (h
    : Holds kk vv md mh mb s) :
    Holds kk vv md mh mb (s.compensate ch) := by
  simp at hk; unfold State.compensate; repeat' first | (simp (maxDischargeDepth := 60) +contextual [*]; done) | split

@[simp ↓] theorem keep_stripLights {s : State} (hk : Out bookRegs kk ∧ Out [BAR_CLAMP, BAR_LIFE_STATE] kk) (h :
    Holds kk vv md mh mb s) :
    Holds kk vv md mh mb s.stripLights := by
  simp at hk; unfold State.stripLights; repeat' first | (simp (maxDischargeDepth := 60) +contextual [*]; done) | split

@[simp ↓] theorem keep_barLife {s : State} {ch : Nat} (hk : Out bookRegs kk ∧ Out [BAR_LIFE_PERMILLE,
    BAR_LIFE_STATE] kk) (h : Holds kk vv md mh mb s) :
    Holds kk vv md mh mb (s.barLife ch) := by
  simp at hk; unfold State.barLife; repeat' first | (simp (maxDischargeDepth := 60) +contextual [*]; done) | split

@[simp ↓] theorem keep_barChanged {s : State} {ch : Nat} {life : Option (List Byte)} (hk : Out bookRegs kk ∧ Out
    [BAR_COMP_PERMILLE, BAR_IDENT_CHANGES, BAR_LIFE_STATE, CAL_STALE_VIEWS] kk) (h : Holds kk vv md mh mb s) :
    Holds kk vv md mh mb (s.barChanged ch life) := by
  simp at hk; unfold State.barChanged; repeat' first | (simp (maxDischargeDepth := 60) +contextual [*]; done) | split

@[simp ↓] theorem keep_barTotals {s : State} {ch : Nat} {serial : List Byte} {life : Option (List Byte)} {inB :
    Bool} (hk : Out bookRegs kk ∧ Out [BAR_EQ_MINUTES, BAR_LIFE_PERMILLE, BAR_LIFE_STATE, BAR_ON_MINUTES] kk) (h :
    Holds kk vv md mh mb s) :
    Holds kk vv md mh mb (s.barTotals ch serial life inB) := by
  simp at hk; unfold State.barTotals; repeat' first | (simp (maxDischargeDepth := 60) +contextual [*]; done) | split

@[simp ↓] theorem keep_barUsable {s : State} {ch : Nat} (hk : Out [BAR_CURRENT_MA, BAR_STATE] kk) (h : Holds kk vv
    md mh mb s) :
    Holds kk vv md mh mb (s.barUsable ch) := by
  simp at hk; unfold State.barUsable; repeat' first | (simp (maxDischargeDepth := 60) +contextual [*]; done) | split

@[simp ↓] theorem keep_barRead {s : State} {ch : Nat} {memory : Option (List Nat)} (hk : Out bookRegs kk ∧ Out
    [BAR_COMP_PERMILLE, BAR_CURRENT_MA, BAR_EQ_MINUTES, BAR_IDENT_CHANGES, BAR_LIFE_PERMILLE, BAR_LIFE_STATE,
    BAR_ON_MINUTES, BAR_STATE, CAL_STALE_VIEWS] kk) (h : Holds kk vv md mh none s) :
    Holds kk vv md mh none (s.barRead ch memory) := by
  simp at hk; unfold State.barRead; repeat' first | (simp (maxDischargeDepth := 60) +contextual [*]; done) | split

@[simp ↓] theorem keep_barFaulted {s : State} {ch : Nat} {lasts : Bool} (hk : Out bookRegs kk ∧ Out [BAR_CURRENT_MA,
    BAR_FAULTS, BAR_STATE, LIGHT_POWER_W] kk) (h : Holds kk vv md mh mb s) :
    Holds kk vv md mh mb (s.barFaulted ch lasts) := by
  simp at hk; unfold State.barFaulted; repeat' first | (simp (maxDischargeDepth := 60) +contextual [*]; done) | split

theorem keep_execBarIdentRead {dt chan : Nat} {memory : Option (List Nat)} {tempMc : Int} {s : State} {t : State}
    (hk : Out bookRegs kk ∧ Out [BAR_COMP_PERMILLE, BAR_CURRENT_MA, BAR_EQ_MINUTES, BAR_FAULTS, BAR_IDENT_CHANGES,
    BAR_LIFE_PERMILLE, BAR_LIFE_STATE, BAR_ON_MINUTES, BAR_STATE, BAR_TEMP_MC, CAL_STALE_VIEWS, LIGHT_POWER_W,
    TRACE_HEAD] kk) (h : Holds kk vv md mh none s) (e : execBarIdentRead dt chan memory tempMc s = .next t) :
    Holds kk vv md mh none t := by
  simp at hk; unfold execBarIdentRead at e
  refine keep_act ?_ (fun u hu => ?_) e
  · simp [*]
  · repeat' first | (simp (maxDischargeDepth := 60) +contextual [*]; done) | split

theorem keep_execBarLifeTick {dt chan meanMa dutyPermille milliVolt : Nat} {s : State} {t : State} (hk : Out
    bookRegs kk ∧ Out [BAR_EQ_MINUTES, BAR_LIFE_PERMILLE, BAR_LIFE_STATE, BAR_ON_MINUTES, BAR_POWER_W,
    BAR_VOLTAGE_MV, TRACE_HEAD] kk) (h : Holds kk vv md mh mb s) (e : execBarLifeTick dt chan meanMa dutyPermille
    milliVolt s = .next t) :
    Holds kk vv md mh mb t := by
  simp at hk; unfold execBarLifeTick at e
  refine keep_act ?_ (fun u hu => ?_) e
  · simp [*]
  · repeat' first | (simp (maxDischargeDepth := 60) +contextual [*]; done) | split

theorem keep_execBarLifeWrite {dt chan : Nat} {s : State} {t : State} (hk : Out [TRACE_HEAD] kk) (h : Holds kk vv
    md mh mb s) (e : execBarLifeWrite dt chan s = .next t) :
    Holds kk vv md mh mb t := by
  simp at hk; unfold execBarLifeWrite at e
  refine keep_act ?_ (fun u hu => ?_) e
  · simp [*]
  · repeat' first | (simp (maxDischargeDepth := 60) +contextual [*]; done) | split

theorem keep_execBarFault {dt chan : Nat} {kind : BarFault} {s : State} {t : State} (hk : Out bookRegs kk ∧ Out
    [BAR_CURRENT_MA, BAR_FAULTS, BAR_STATE, LIGHT_POWER_W, TRACE_HEAD] kk) (h : Holds kk vv md mh mb s) (e :
    execBarFault dt chan kind s = .next t) :
    Holds kk vv md mh mb t := by
  simp at hk; unfold execBarFault at e
  refine keep_act ?_ (fun u hu => ?_) e
  · simp [*]
  · repeat' first | (simp (maxDischargeDepth := 60) +contextual [*]; done) | split

@[simp ↓] theorem keep_lightClear {s : State} {via : Path} (hk : Out bookRegs kk ∧ Out [BAR_CLAMP, BAR_FAULTS,
    BAR_IDENT_CHANGES, HL_DICT_ERRORS, LIGHT_SHED] kk) (h : Holds kk vv md mh mb s) :
    Holds kk vv md mh mb (s.lightClear via) := by
  simp at hk; unfold State.lightClear; repeat' first | (simp (maxDischargeDepth := 60) +contextual [*]; done) | split

theorem keep_execLightClear {dt : Nat} {via : Path} {s : State} {t : State} (hk : Out bookRegs kk ∧ Out
    [BAR_CLAMP, BAR_FAULTS, BAR_IDENT_CHANGES, HL_DICT_ERRORS, LIGHT_SHED, TRACE_HEAD] kk) (h : Holds kk vv md mh
    mb s) (e : execLightClear dt via s = .next t) :
    Holds kk vv md mh mb t := by
  simp at hk; unfold execLightClear at e
  refine keep_act ?_ (fun u hu => ?_) e
  · simp [*]
  · repeat' first | (simp (maxDischargeDepth := 60) +contextual [*]; done) | split

end Sys2Proof.Machine
end

