-- ==== Sys2Proof/Laws/KeepIntake.lean ====
section
/-! SUPPORT. Laws/KeepIntake.lean: what the operations and commands leave alone, of Machine/Intake.lean. -/
namespace Sys2Proof.Machine
open Reg
variable {kk : Key} {vv : Option Nat} {md mh : Option Memory} {mb : Option Blobs}

@[simp ↓] theorem keep_sendTiles {s : State} {b sub line first : Nat} {subst last : Bool} {xs : List Nat} (h :
    Holds kk vv md mh mb s) :
    Holds kk vv md mh mb (s.sendTiles b sub line first subst last xs) := by
  unfold State.sendTiles; repeat' first | (simp (maxDischargeDepth := 60) +contextual [*]; done) | split

@[simp ↓] theorem keep_statOpen {s : State} {b strip : Nat} (h : Holds kk vv md mh mb s) :
    Holds kk vv md mh mb (s.statOpen b strip) := by
  unfold State.statOpen; repeat' first | (simp (maxDischargeDepth := 60) +contextual [*]; done) | split

@[simp ↓] theorem keep_statFlush {s : State} {b a2 : Nat} (hk : Out bookRegs kk ∧ Out [RING_DROP, RING_FRAMES,
    RING_OVERSIZE, RING_STAGED_BYTES, WHARF_HOST_WR_BYTES] kk) (h : Holds kk vv md none mb s) :
    Holds kk vv md none mb (s.statFlush b a2) := by
  simp at hk
  induction a2 generalizing s b with
  | zero => unfold State.statFlush; repeat' first | (simp (maxDischargeDepth := 60) +contextual [*]; done) | split
  | succ n ih => unfold State.statFlush; repeat' first | (simp (maxDischargeDepth := 60) +contextual [*]; done) | split

@[simp ↓] theorem keep_statSettle {s : State} {b : Nat} (hk : Out bookRegs kk ∧ Out [RING_DROP, RING_FRAMES,
    RING_OVERSIZE, RING_STAGED_BYTES, WHARF_HOST_WR_BYTES] kk) (h : Holds kk vv md none mb s) :
    Holds kk vv md none mb (s.statSettle b) := by
  simp at hk; unfold State.statSettle; repeat' first | (simp (maxDischargeDepth := 60) +contextual [*]; done) | split

@[simp ↓] theorem keep_sendSubst {s : State} {b n : Nat} (h : Holds kk vv md mh mb s) :
    Holds kk vv md mh mb (s.sendSubst b n) := by
  unfold State.sendSubst; repeat' first | (simp (maxDischargeDepth := 60) +contextual [*]; done) | split

@[simp ↓] theorem keep_replaceLine {s : State} {b n : Nat} (hk : Out bookRegs kk ∧ Out [LINES_SUBSTITUTED,
    RING_DROP, RING_FRAMES, RING_OVERSIZE, RING_STAGED_BYTES, TRIM_ABANDONED, TRIM_BUSY_BAY, TRIM_LAST_RESULT,
    TRIM_LAST_STRIP, WHARF_HOST_WR_BYTES] kk) (h : Holds kk vv md none mb s) :
    Holds kk vv md none mb (s.replaceLine b n) := by
  simp at hk; unfold State.replaceLine; repeat' first | (simp (maxDischargeDepth := 60) +contextual [*]; done) | split

@[simp ↓] theorem keep_missing {s : State} {b n : Nat} (hk : Out bookRegs kk ∧ Out [LINES_SUBSTITUTED, RING_DROP,
    RING_FRAMES, RING_OVERSIZE, RING_STAGED_BYTES, TRIM_ABANDONED, TRIM_BUSY_BAY, TRIM_LAST_RESULT,
    TRIM_LAST_STRIP, WHARF_HOST_WR_BYTES] kk) (h : Holds kk vv md none mb s) :
    Holds kk vv md none mb (s.missing b n) := by
  simp at hk; unfold State.missing; repeat' first | (simp (maxDischargeDepth := 60) +contextual [*]; done) | split

@[simp ↓] theorem keep_lateLine {s : State} {b n : Nat} (hk : Out bookRegs kk ∧ Out [LINES_LATE,
    LINES_SUBSTITUTED, RING_DROP, RING_FRAMES, RING_OVERSIZE, RING_STAGED_BYTES, TRIM_ABANDONED, TRIM_BUSY_BAY,
    TRIM_LAST_RESULT, TRIM_LAST_STRIP, WHARF_HOST_WR_BYTES] kk) (h : Holds kk vv md none mb s) :
    Holds kk vv md none mb (s.lateLine b n) := by
  simp at hk; unfold State.lateLine; repeat' first | (simp (maxDischargeDepth := 60) +contextual [*]; done) | split

@[simp ↓] theorem keep_awaitLine {s : State} {n : Nat} (hk : Out bookRegs kk ∧ Out [LINES_LATE, LINES_SUBSTITUTED,
    RING_DROP, RING_FRAMES, RING_OVERSIZE, RING_STAGED_BYTES, TRIM_ABANDONED, TRIM_BUSY_BAY, TRIM_LAST_RESULT,
    TRIM_LAST_STRIP, WHARF_HOST_WR_BYTES] kk) (h : Holds kk vv md none mb s) :
    Holds kk vv md none mb (s.awaitLine n) := by
  simp at hk; unfold State.awaitLine; repeat' first | (simp (maxDischargeDepth := 60) +contextual [*]; done) | split

theorem keep_execLineLate {dt bay line : Nat} {s : State} {t : State} (hk : Out bookRegs kk ∧ Out [LINES_LATE,
    LINES_SUBSTITUTED, RING_DROP, RING_FRAMES, RING_OVERSIZE, RING_STAGED_BYTES, TRACE_HEAD, TRIM_ABANDONED,
    TRIM_BUSY_BAY, TRIM_LAST_RESULT, TRIM_LAST_STRIP, WHARF_HOST_WR_BYTES] kk) (h : Holds kk vv md none mb s) (e :
    execLineLate dt bay line s = .next t) :
    Holds kk vv md none mb t := by
  simp at hk; unfold execLineLate at e
  refine keep_act ?_ (fun u hu => ?_) e
  · simp [*]
  · repeat' first | (simp (maxDischargeDepth := 60) +contextual [*]; done) | split

@[simp ↓] theorem keep_matchTag {s : State} {b tag : Nat} (hk : Out bookRegs kk ∧ Out [LINES_SUBSTITUTED,
    RING_DROP, RING_FRAMES, RING_OVERSIZE, RING_STAGED_BYTES, TAG_MISMATCH, TRIM_ABANDONED, TRIM_BUSY_BAY,
    TRIM_LAST_RESULT, TRIM_LAST_STRIP, WHARF_HOST_WR_BYTES] kk) (h : Holds kk vv md none mb s) :
    Holds kk vv md none mb (s.matchTag b tag).1 := by
  simp at hk; unfold State.matchTag; repeat' first | (simp (maxDischargeDepth := 60) +contextual [*]; done) | split

@[simp ↓] theorem keep_lineComplete {s : State} {b : Nat} {l : OutLine} (hk : Out bookRegs kk ∧ Out [LATE_DISCARD,
    LINES_RECEIVED, RING_DROP, RING_FRAMES, RING_OVERSIZE, RING_STAGED_BYTES, WHARF_HOST_WR_BYTES] kk) (h : Holds
    kk vv md none mb s) :
    Holds kk vv md none mb (s.lineComplete b l) := by
  simp at hk; unfold State.lineComplete; repeat' first | (simp (maxDischargeDepth := 60) +contextual [*]; done) | split

@[simp ↓] theorem keep_takeSamples {s : State} {b n : Nat} {k : CamPacket} {t : PixType} (hk : Out bookRegs kk ∧ Out
    [LATE_DISCARD, LINES_RECEIVED, RING_DROP, RING_FRAMES, RING_OVERSIZE, RING_STAGED_BYTES, WHARF_HOST_WR_BYTES]
    kk) (h : Holds kk vv md none mb s) :
    Holds kk vv md none mb (s.takeSamples b n k t) := by
  simp at hk; unfold State.takeSamples
  extract_lets room xs last was s1 s2
  have h1 : Holds kk vv md none mb s1 := by
    unfold s1
    split
    · exact h
    · simp (maxDischargeDepth := 60) +contextual [*]
  have h2 : Holds kk vv md none mb s2 := by
    unfold s2
    simp (maxDischargeDepth := 60) +contextual [h1]
  clear_value s1 s2
  split
  · split
    · simp (maxDischargeDepth := 60) +contextual [*]
    · exact h2
  · exact h2

@[simp ↓] theorem keep_badPacket {s : State} {b : Nat} {k : CamPacket} (hk : Out bookRegs kk ∧ Out [LANE_CRC_ERR,
    LINES_SUBSTITUTED, RING_DROP, RING_FRAMES, RING_OVERSIZE, RING_STAGED_BYTES, TAG_MISMATCH, TRIM_ABANDONED,
    TRIM_BUSY_BAY, TRIM_LAST_RESULT, TRIM_LAST_STRIP, WHARF_HOST_WR_BYTES] kk) (h : Holds kk vv md none mb s) :
    Holds kk vv md none mb (s.badPacket b k) := by
  simp at hk; unfold State.badPacket
  repeat' (first
    | (simp (maxDischargeDepth := 60) +contextual [*]; done)
    | (have e' := (by assumption : (_ : State × _) = (_, _))
       have hq := keep_fst (k := kk) (v := vv) (m := md) (h := none) (b := mb) (by simp (maxDischargeDepth := 60) +contextual [*]; done) e'
       simp (maxDischargeDepth := 60) +contextual [*]; done)
    | simp only [holds_mk, holdsOf_parts]
    | with_reducible refine keep_foldl _ (fun t x ht => ?_) ?_
    | with_reducible refine keep_foldl_fst _ (fun t b x ht => ?_) ?_
    | with_reducible refine keep_ite (fun _ => ?_) (fun _ => ?_)
    | split | with_reducible refine keep_fst ?_ (by assumption) | with_reducible refine keep_snd ?_ (by assumption)
    | dsimp only)

@[simp ↓] theorem keep_streamPacket {s : State} {b : Nat} {k : CamPacket} (hk : Out bookRegs kk ∧ Out
    [BAY_UNSUPPORTED_PKT, LATE_DISCARD, LINES_RECEIVED, LINES_SUBSTITUTED, PKT_TYPE_ERR, RING_DROP, RING_FRAMES,
    RING_OVERSIZE, RING_STAGED_BYTES, TAG_MISMATCH, TRIM_ABANDONED, TRIM_BUSY_BAY, TRIM_LAST_RESULT,
    TRIM_LAST_STRIP, WHARF_HOST_WR_BYTES] kk) (h : Holds kk vv md none mb s) :
    Holds kk vv md none mb (s.streamPacket b k) := by
  simp at hk; unfold State.streamPacket
  repeat' (first
    | (simp (maxDischargeDepth := 60) +contextual [*]; done)
    | (have e' := (by assumption : (_ : State × _) = (_, _))
       have hq := keep_fst (k := kk) (v := vv) (m := md) (h := none) (b := mb) (by simp (maxDischargeDepth := 60) +contextual [*]; done) e'
       simp (maxDischargeDepth := 60) +contextual [*]; done)
    | simp only [holds_mk, holdsOf_parts]
    | with_reducible refine keep_foldl _ (fun t x ht => ?_) ?_
    | with_reducible refine keep_foldl_fst _ (fun t b x ht => ?_) ?_
    | with_reducible refine keep_ite (fun _ => ?_) (fun _ => ?_)
    | split | with_reducible refine keep_fst ?_ (by assumption) | with_reducible refine keep_snd ?_ (by assumption)
    | dsimp only)

@[simp ↓] theorem keep_cameraPacket {s : State} {b : Nat} {k : CamPacket} (hk : Out bookRegs kk ∧ Out
    [BAY_UNSUPPORTED_PKT, LANE_BYTES, LANE_CRC_ERR, LATE_DISCARD, LINES_RECEIVED, LINES_SUBSTITUTED, PKT_TYPE_ERR,
    RING_DROP, RING_FRAMES, RING_OVERSIZE, RING_STAGED_BYTES, TAG_MISMATCH, TRIM_ABANDONED, TRIM_BUSY_BAY,
    TRIM_LAST_RESULT, TRIM_LAST_STRIP, WHARF_HOST_WR_BYTES] kk) (h : Holds kk vv md none mb s) :
    Holds kk vv md none mb (s.cameraPacket b k) := by
  simp at hk; unfold State.cameraPacket
  repeat' (first
    | (simp (maxDischargeDepth := 60) +contextual [*]; done)
    | with_reducible refine keep_tally ?_ ?_ ?_
    | with_reducible refine keep_matchTag ?_ ?_
    | with_reducible refine keep_missing ?_ ?_
    | with_reducible refine keep_camFlag ?_
    | with_reducible refine keep_takeSamples ?_ ?_
    | simp only [holds_mk, holdsOf_parts]
    | with_reducible refine keep_foldl _ (fun t x ht => ?_) ?_
    | with_reducible refine keep_foldl_fst _ (fun t b x ht => ?_) ?_
    | with_reducible refine keep_ite (fun _ => ?_) (fun _ => ?_)
    | split | with_reducible refine keep_fst ?_ (by assumption) | with_reducible refine keep_snd ?_ (by assumption)
    | (intro _; try dsimp only)
    | dsimp only)

theorem keep_execCameraPacket {dt bay : Nat} {pkt : CamPacket} {s : State} {t : State} (hk : Out logRegs kk ∧ Out
    bookRegs kk ∧ Out unitRegs kk ∧ Out [BAY_UNSUPPORTED_PKT, LANE_BYTES, LANE_CRC_ERR, LANE_STALE_RESULT,
    LATE_DISCARD, LINES_RECEIVED, LINES_SUBSTITUTED, PKT_TYPE_ERR, RING_DROP, RING_FRAMES, RING_OVERSIZE,
    RING_STAGED_BYTES, TAG_MISMATCH, TRACE_HEAD, TRIM_ABANDONED, TRIM_BUSY_BAY, TRIM_LAST_RESULT, TRIM_LAST_STRIP,
    WHARF_HOST_WR_BYTES] kk) (h : Holds kk vv md none mb s) (e : execCameraPacket dt bay pkt s = .next t) :
    Holds kk vv md none mb t := by
  simp at hk; unfold execCameraPacket at e
  refine keep_act ?_ (fun u hu => ?_) e
  · simp [*]
  · repeat' first | (simp (maxDischargeDepth := 60) +contextual [*]; done) | split

@[simp ↓] theorem keep_registerSet {s : State} {x : ExpSet} {strip : Nat} (hk : Out bookRegs kk ∧ Out
    [BAR_CURRENT_MA, BAR_STATE, EXP_APPLY_STRIP, EXP_COMMIT_REPLACED, EXP_PENDING, LIGHT_POWER_W] kk) (h : Holds kk
    vv md mh mb s) :
    Holds kk vv md mh mb (s.registerSet x strip) := by
  simp at hk; unfold State.registerSet; repeat' first | (simp (maxDischargeDepth := 60) +contextual [*]; done) | split

@[simp ↓] theorem keep_expCommit {s : State} {via : Path} (hk : Out bookRegs kk ∧ Out [BAR_CURRENT_MA, BAR_STATE,
    EXP_APPLY_STRIP, EXP_COMMIT_REPLACED, EXP_PENDING, HL_DICT_ERRORS, LIGHT_POWER_W] kk) (h : Holds kk vv md mh mb
    s) :
    Holds kk vv md mh mb (s.expCommit via) := by
  simp at hk; unfold State.expCommit; repeat' first | (simp (maxDischargeDepth := 60) +contextual [*]; done) | split

theorem keep_execExpCommit {dt : Nat} {via : Path} {s : State} {t : State} (hk : Out bookRegs kk ∧ Out
    [BAR_CURRENT_MA, BAR_STATE, EXP_APPLY_STRIP, EXP_COMMIT_REPLACED, EXP_PENDING, HL_DICT_ERRORS, LIGHT_POWER_W,
    TRACE_HEAD] kk) (h : Holds kk vv md mh mb s) (e : execExpCommit dt via s = .next t) :
    Holds kk vv md mh mb t := by
  simp at hk; unfold execExpCommit at e
  refine keep_act ?_ (fun u hu => ?_) e
  · simp [*]
  · repeat' first | (simp (maxDischargeDepth := 60) +contextual [*]; done) | split

@[simp ↓] theorem keep_applySet {s : State} {strip : Nat} (hk : Out [BAR_CURRENT_MA, BAR_STATE, EXP_GENERATION,
    EXP_PENDING, LIGHT_POWER_W] kk) (h : Holds kk vv md mh mb s) :
    Holds kk vv md mh mb (s.applySet strip) := by
  simp at hk; unfold State.applySet; repeat' first | (simp (maxDischargeDepth := 60) +contextual [*]; done) | split

@[simp ↓] theorem keep_gainWritten {s : State} {b : Nat} (h : Holds kk vv md mh mb s) :
    Holds kk vv md mh mb (s.gainWritten b) := by
  unfold State.gainWritten; repeat' first | (simp (maxDischargeDepth := 60) +contextual [*]; done) | split

@[simp ↓] theorem keep_intakeClear {s : State} {via : Path} (hk : Out bookRegs kk ∧ Out [EXP_COMMIT_REPLACED,
    HL_DICT_ERRORS, LANE_CRC_ERR, LATE_DISCARD, LINES_LATE, LINES_SUBSTITUTED, PKT_TYPE_ERR, TAG_MISMATCH,
    TRIG_DEFERRED, TRIG_MAX_LAG_NS, TRIG_OVERSPEED_LINES, TRIG_WIDTH_CLIP] kk) (h : Holds kk vv md mh mb s) :
    Holds kk vv md mh mb (s.intakeClear via) := by
  simp at hk; unfold State.intakeClear; repeat' first | (simp (maxDischargeDepth := 60) +contextual [*]; done) | split

theorem keep_execIntakeClear {dt : Nat} {via : Path} {s : State} {t : State} (hk : Out bookRegs kk ∧ Out
    [EXP_COMMIT_REPLACED, HL_DICT_ERRORS, LANE_CRC_ERR, LATE_DISCARD, LINES_LATE, LINES_SUBSTITUTED, PKT_TYPE_ERR,
    TAG_MISMATCH, TRACE_HEAD, TRIG_DEFERRED, TRIG_MAX_LAG_NS, TRIG_OVERSPEED_LINES, TRIG_WIDTH_CLIP] kk) (h :
    Holds kk vv md mh mb s) (e : execIntakeClear dt via s = .next t) :
    Holds kk vv md mh mb t := by
  simp at hk; unfold execIntakeClear at e
  refine keep_act ?_ (fun u hu => ?_) e
  · simp [*]
  · repeat' first | (simp (maxDischargeDepth := 60) +contextual [*]; done) | split

end Sys2Proof.Machine
end

