-- ==== Sys2Proof/Laws/KeepEasels.lean ====
section
/-! SUPPORT. Laws/KeepEasels.lean: what the operations and commands leave alone, of Machine/Easels.lean. -/
namespace Sys2Proof.Machine
open Reg
variable {kk : Key} {vv : Option Nat} {md mh : Option Memory} {mb : Option Blobs}

@[simp ↓] theorem keep_quayStore {s : State} {k b n : Nat} {p : List Byte} (h : Holds kk vv none mh mb s) :
    Holds kk vv none mh mb (s.quayStore k b n p) := by
  unfold State.quayStore
  repeat' (first
    | (simp (maxDischargeDepth := 60) +contextual [*]; done)
    | simp only [holds_mk, holdsOf_parts]
    | with_reducible refine keep_foldl _ (fun t x ht => ?_) ?_
    | with_reducible refine keep_foldl_fst _ (fun t b x ht => ?_) ?_
    | with_reducible refine keep_ite (fun _ => ?_) (fun _ => ?_)
    | split | with_reducible refine keep_fst ?_ (by assumption) | with_reducible refine keep_snd ?_ (by assumption)
    | dsimp only)

@[simp ↓] theorem keep_quayFill {s : State} {k : Nat} (hk : Out [EASEL_QUAY_FILL, EASEL_QUAY_PEAK] kk) (h : Holds
    kk vv md mh mb s) :
    Holds kk vv md mh mb (s.quayFill k) := by
  simp at hk; unfold State.quayFill; repeat' first | (simp (maxDischargeDepth := 60) +contextual [*]; done) | split

@[simp ↓] theorem keep_quayDrop {s : State} {k strip : Nat} (hk : Out bookRegs kk ∧ Out [EASEL_QUAY_DROP] kk) (h :
    Holds kk vv md mh mb s) :
    Holds kk vv md mh mb (s.quayDrop k strip) := by
  simp at hk; unfold State.quayDrop; repeat' first | (simp (maxDischargeDepth := 60) +contextual [*]; done) | split

@[simp ↓] theorem keep_quayTrigger {s : State} {n : Nat} (hk : Out bookRegs kk ∧ Out [EASEL_QUAY_DROP,
    EASEL_QUAY_FILL, EASEL_QUAY_PEAK] kk) (h : Holds kk vv md mh mb s) :
    Holds kk vv md mh mb (s.quayTrigger n) := by
  simp at hk; unfold State.quayTrigger; repeat' first | (simp (maxDischargeDepth := 60) +contextual [*]; done) | split

@[simp ↓] theorem keep_quayEmpty {s : State} {k : Nat} (hk : Out [EASEL_QUAY_FILL, EASEL_QUAY_PEAK] kk) (h : Holds
    kk vv md mh mb s) :
    Holds kk vv md mh mb (s.quayEmpty k) := by
  simp at hk; unfold State.quayEmpty; repeat' first | (simp (maxDischargeDepth := 60) +contextual [*]; done) | split

@[simp ↓] theorem keep_quaysEmpty {s : State} (hk : Out [EASEL_QUAY_FILL, EASEL_QUAY_PEAK] kk) (h : Holds kk vv md
    mh mb s) :
    Holds kk vv md mh mb s.quaysEmpty := by
  simp at hk; unfold State.quaysEmpty; repeat' first | (simp (maxDischargeDepth := 60) +contextual [*]; done) | split

@[simp ↓] theorem keep_stageBank {s : State} {i : Nat} {k : Bank} (hk : Out [EASEL_BYPASS] kk) (h : Holds kk vv md
    mh none s) :
    Holds kk vv md mh none (s.stageBank i k) := by
  simp at hk; unfold State.stageBank; repeat' first | (simp (maxDischargeDepth := 60) +contextual [*]; done) | split

@[simp ↓] theorem keep_registerBank {s : State} {k c : Nat} {bank : Bank} {strip : Nat} (hk : Out
    [EASEL_COMMIT_RESULT, EASEL_COMMIT_STAGE, EASEL_CTX_APPLY_STRIP, EASEL_CTX_PENDING] kk) (h : Holds kk vv md mh
    mb s) :
    Holds kk vv md mh mb (s.registerBank k c bank strip) := by
  simp at hk; unfold State.registerBank; repeat' first | (simp (maxDischargeDepth := 60) +contextual [*]; done) | split

@[simp ↓] theorem keep_withBanks {s : State} {k c : Nat} {bank : Bank} (h : Holds kk vv md mh mb s) :
    Holds kk vv md mh mb (s.withBanks k c bank) := by
  unfold State.withBanks; repeat' first | (simp (maxDischargeDepth := 60) +contextual [*]; done) | split

@[simp ↓] theorem keep_ctxCommit {s : State} {via : Path} {k c : Nat} (hk : Out bookRegs kk ∧ Out
    [EASEL_COMMIT_RESULT, EASEL_COMMIT_STAGE, EASEL_CTX_APPLY_STRIP, EASEL_CTX_PENDING, HL_DICT_ERRORS] kk) (h :
    Holds kk vv md mh mb s) :
    Holds kk vv md mh mb (s.ctxCommit via k c) := by
  simp at hk; unfold State.ctxCommit; repeat' first | (simp (maxDischargeDepth := 60) +contextual [*]; done) | split

theorem keep_execEaselCtxCommit {dt : Nat} {via : Path} {easel ctx : Nat} {s : State} {t : State} (hk : Out
    bookRegs kk ∧ Out [EASEL_COMMIT_RESULT, EASEL_COMMIT_STAGE, EASEL_CTX_APPLY_STRIP, EASEL_CTX_PENDING,
    HL_DICT_ERRORS, TRACE_HEAD] kk) (h : Holds kk vv md mh mb s) (e : execEaselCtxCommit dt via easel ctx s =
    .next t) :
    Holds kk vv md mh mb t := by
  simp at hk; unfold execEaselCtxCommit at e
  refine keep_act ?_ (fun u hu => ?_) e
  · simp [*]
  · repeat' first | (simp (maxDischargeDepth := 60) +contextual [*]; done) | split

@[simp ↓] theorem keep_palCommit {s : State} {via : Path} {k c : Nat} (hk : Out bookRegs kk ∧ Out
    [EASEL_COMMIT_RESULT, EASEL_CTX_APPLY_STRIP, EASEL_PAL_PENDING, HL_DICT_ERRORS] kk) (h : Holds kk vv md mh mb
    s) :
    Holds kk vv md mh mb (s.palCommit via k c) := by
  simp at hk; unfold State.palCommit; repeat' first | (simp (maxDischargeDepth := 60) +contextual [*]; done) | split

theorem keep_execEaselPalCommit {dt : Nat} {via : Path} {easel ctx : Nat} {s : State} {t : State} (hk : Out
    bookRegs kk ∧ Out [EASEL_COMMIT_RESULT, EASEL_CTX_APPLY_STRIP, EASEL_PAL_PENDING, HL_DICT_ERRORS, TRACE_HEAD]
    kk) (h : Holds kk vv md mh mb s) (e : execEaselPalCommit dt via easel ctx s = .next t) :
    Holds kk vv md mh mb t := by
  simp at hk; unfold execEaselPalCommit at e
  refine keep_act ?_ (fun u hu => ?_) e
  · simp [*]
  · repeat' first | (simp (maxDischargeDepth := 60) +contextual [*]; done) | split

@[simp ↓] theorem keep_settleCtx {s : State} {k c : Nat} (hk : Out [EASEL_BYPASS, EASEL_COMMIT_RESULT,
    EASEL_CTX_PENDING, EASEL_PAL_PENDING] kk) (h : Holds kk vv md mh none s) :
    Holds kk vv md mh none (s.settleCtx k c) := by
  simp at hk; unfold State.settleCtx; repeat' first | (simp (maxDischargeDepth := 60) +contextual [*]; done) | split

@[simp ↓] theorem keep_applyBanks {s : State} {n : Nat} (hk : Out [EASEL_BYPASS, EASEL_COMMIT_RESULT,
    EASEL_CTX_PENDING, EASEL_PAL_PENDING] kk) (h : Holds kk vv md mh none s) :
    Holds kk vv md mh none (s.applyBanks n) := by
  simp at hk; unfold State.applyBanks; repeat' first | (simp (maxDischargeDepth := 60) +contextual [*]; done) | split

@[simp ↓] theorem keep_applyPalettes {s : State} {p : Package} {n : Nat} (h : Holds kk vv md mh mb s) :
    Holds kk vv md mh mb (s.applyPalettes p n) := by
  unfold State.applyPalettes
  repeat' (first
    | (simp (maxDischargeDepth := 60) +contextual [*]; done)
    | simp only [holds_mk, holdsOf_parts]
    | with_reducible refine keep_foldl _ (fun t x ht => ?_) ?_
    | with_reducible refine keep_foldl_fst _ (fun t b x ht => ?_) ?_
    | with_reducible refine keep_ite (fun _ => ?_) (fun _ => ?_)
    | split | with_reducible refine keep_fst ?_ (by assumption) | with_reducible refine keep_snd ?_ (by assumption)
    | dsimp only)

@[simp ↓] theorem keep_checkBanks {s : State} (hk : Out [EASEL_COMMIT_RESULT] kk) (h : Holds kk vv md mh mb s) :
    Holds kk vv md mh mb s.checkBanks.1 := by
  simp at hk; unfold State.checkBanks
  repeat' (first
    | (simp (maxDischargeDepth := 60) +contextual [*]; done)
    | simp only [holds_mk, holdsOf_parts]
    | with_reducible refine keep_foldl _ (fun t x ht => ?_) ?_
    | with_reducible refine keep_foldl_fst _ (fun t b x ht => ?_) ?_
    | with_reducible refine keep_ite (fun _ => ?_) (fun _ => ?_)
    | split | with_reducible refine keep_fst ?_ (by assumption) | with_reducible refine keep_snd ?_ (by assumption)
    | dsimp only)

@[simp ↓] theorem keep_loadMax {s : State} (hk : Out [EASEL_LOAD_MAX_PERMILLE] kk) (h : Holds kk vv md mh mb s) :
    Holds kk vv md mh mb s.loadMax := by
  simp at hk; unfold State.loadMax; repeat' first | (simp (maxDischargeDepth := 60) +contextual [*]; done) | split

theorem keep_execEaselLoadWindow {dt easel : Nat} {s : State} {t : State} (hk : Out [EASEL_LOAD_PERMILLE,
    TRACE_HEAD] kk) (h : Holds kk vv md mh mb s) (e : execEaselLoadWindow dt easel s = .next t) :
    Holds kk vv md mh mb t := by
  simp at hk; unfold execEaselLoadWindow at e
  refine keep_act ?_ (fun u hu => ?_) e
  · simp [*]
  · repeat' first | (simp (maxDischargeDepth := 60) +contextual [*]; done) | split

@[simp ↓] theorem keep_deliver {s : State} {b n : Nat} {planes : List (List Nat)} {subst mixed : Bool} {gen : Nat}
    (hk : Out bookRegs kk ∧ Out [EASEL_MIXED_LINES, TRIM_ABANDONED, TRIM_BUSY_BAY, TRIM_LAST_RESULT,
    TRIM_LAST_STRIP] kk) (h : Holds kk vv md mh mb s) :
    Holds kk vv md mh mb (s.deliver b n planes subst mixed gen) := by
  simp at hk; unfold State.deliver
  repeat' (first
    | (simp (maxDischargeDepth := 60) +contextual [*]; done)
    | simp only [holds_mk, holdsOf_parts]
    | with_reducible refine keep_foldl _ (fun t x ht => ?_) ?_
    | with_reducible refine keep_foldl_fst _ (fun t b x ht => ?_) ?_
    | with_reducible refine keep_ite (fun _ => ?_) (fun _ => ?_)
    | split | with_reducible refine keep_fst ?_ (by assumption) | with_reducible refine keep_snd ?_ (by assumption)
    | dsimp only)

@[simp ↓] theorem keep_tryOutput {s : State} {b n : Nat} (hk : Out bookRegs kk ∧ Out [EASEL_MIXED_LINES,
    TRIM_ABANDONED, TRIM_BUSY_BAY, TRIM_LAST_RESULT, TRIM_LAST_STRIP] kk) (h : Holds kk vv md mh mb s) :
    Holds kk vv md mh mb (s.tryOutput b n) := by
  simp at hk; unfold State.tryOutput; repeat' first | (simp (maxDischargeDepth := 60) +contextual [*]; done) | split

@[simp ↓] theorem keep_processLine {s : State} {b : Nat} {l : CamLine} (hk : Out bookRegs kk ∧ Out
    [EASEL_MIXED_LINES, TRIM_ABANDONED, TRIM_BUSY_BAY, TRIM_LAST_RESULT, TRIM_LAST_STRIP] kk) (h : Holds kk vv md
    mh mb s) :
    Holds kk vv md mh mb (s.processLine b l) := by
  simp at hk; unfold State.processLine; repeat' first | (simp (maxDischargeDepth := 60) +contextual [*]; done) | split

@[simp ↓] theorem keep_startLine {s : State} {k c : Nat} {l : CamLine} (hk : Out [EASEL_A_MAX_DELAY_NS,
    EASEL_CTX_SWITCHES] kk) (h : Holds kk vv md mh mb s) :
    Holds kk vv md mh mb (s.startLine k c l) := by
  simp at hk; unfold State.startLine; repeat' first | (simp (maxDischargeDepth := 60) +contextual [*]; done) | split

@[simp ↓] theorem keep_arbiter {s : State} {k : Nat} (hk : Out [EASEL_A_MAX_DELAY_NS, EASEL_CTX_SWITCHES] kk) (h :
    Holds kk vv md mh mb s) :
    Holds kk vv md mh mb (s.arbiter k) := by
  simp at hk; unfold State.arbiter; repeat' first | (simp (maxDischargeDepth := 60) +contextual [*]; done) | split

@[simp ↓] theorem keep_storePacket {s : State} {b : Nat} {p : List Byte} (h : Holds kk vv md mh mb s) :
    Holds kk vv md mh mb (s.storePacket b p) := by
  unfold State.storePacket; repeat' first | (simp (maxDischargeDepth := 60) +contextual [*]; done) | split

@[simp ↓] theorem keep_badTile {s : State} {b n : Nat} {sent : List Byte} (hk : Out bookRegs kk ∧ Out [LANE_CRC_ERR,
    LINES_SUBSTITUTED, RING_DROP, RING_FRAMES, RING_OVERSIZE, RING_STAGED_BYTES, TRIM_ABANDONED, TRIM_BUSY_BAY,
    TRIM_LAST_RESULT, TRIM_LAST_STRIP, WHARF_HOST_WR_BYTES] kk) (h : Holds kk vv md none mb s) :
    Holds kk vv md none mb (s.badTile b n sent) := by
  simp at hk; unfold State.badTile
  repeat' (first
    | (simp (maxDischargeDepth := 60) +contextual [*]; done)
    | simp only [holds_mk, holdsOf_parts]
    | with_reducible refine keep_foldl _ (fun t x ht => ?_) ?_
    | with_reducible refine keep_foldl_fst _ (fun t b x ht => ?_) ?_
    | with_reducible refine keep_ite (fun _ => ?_) (fun _ => ?_)
    | split | with_reducible refine keep_fst ?_ (by assumption) | with_reducible refine keep_snd ?_ (by assumption)
    | dsimp only)

theorem keep_execTilePacket {dt easel ctx : Nat} {packet : List Nat} {s : State} {t : State} (hk : Out bookRegs kk ∧
    Out [EASEL_A_MAX_DELAY_NS, EASEL_CTX_SWITCHES, LANE_CRC_ERR, LINES_SUBSTITUTED, RING_DROP, RING_FRAMES,
    RING_OVERSIZE, RING_STAGED_BYTES, TRACE_HEAD, TRIM_ABANDONED, TRIM_BUSY_BAY, TRIM_LAST_RESULT, TRIM_LAST_STRIP,
    WHARF_HOST_WR_BYTES] kk) (h : Holds kk vv none none mb s) (e : execTilePacket dt easel ctx packet s = .next t) :
    Holds kk vv none none mb t := by
  simp at hk; unfold execTilePacket at e
  refine keep_act ?_ (fun u hu => ?_) e
  · simp [*]
  · repeat' (first
        | (simp (maxDischargeDepth := 60) +contextual [*]; done)
        | simp only [holds_mk, holdsOf_parts]
        | with_reducible refine keep_foldl _ (fun t x ht => ?_) ?_
        | with_reducible refine keep_foldl_fst _ (fun t b x ht => ?_) ?_
        | with_reducible refine keep_ite (fun _ => ?_) (fun _ => ?_)
        | split | with_reducible refine keep_fst ?_ (by assumption) | with_reducible refine keep_snd ?_ (by assumption)
        | dsimp only)

theorem keep_execEaselLineDone {dt easel phys : Nat} {ack : Bool} {s : State} {t : State} (hk : Out bookRegs kk ∧
    Out [EASEL_A_MAX_DELAY_NS, EASEL_BUSY_CLOCKS, EASEL_BYPASS, EASEL_COMMIT_RESULT, EASEL_CTX_PENDING,
    EASEL_CTX_SWITCHES, EASEL_MIXED_LINES, EASEL_PAL_PENDING, EASEL_QUAY_FILL, EASEL_QUAY_PEAK,
    EASEL_STALE_RESULT, ISLAND_STATE, TRACE_HEAD, TRIM_ABANDONED, TRIM_BUSY_BAY, TRIM_LAST_RESULT,
    TRIM_LAST_STRIP] kk) (h : Holds kk vv md mh none s) (e : execEaselLineDone dt easel phys ack s = .next t) :
    Holds kk vv md mh none t := by
  simp at hk; unfold execEaselLineDone at e
  refine keep_act ?_ (fun u hu => ?_) e
  · simp [*]
  · repeat' (first
        | (simp (maxDischargeDepth := 60) +contextual [*]; done)
        | simp only [holds_mk, holdsOf_parts]
        | with_reducible refine keep_foldl _ (fun t x ht => ?_) ?_
        | with_reducible refine keep_foldl_fst _ (fun t b x ht => ?_) ?_
        | with_reducible refine keep_ite (fun _ => ?_) (fun _ => ?_)
        | split | with_reducible refine keep_fst ?_ (by assumption) | with_reducible refine keep_snd ?_ (by assumption)
        | dsimp only)

theorem keep_execSeamHoldbackEnd {dt view : Nat} {s : State} {t : State} (hk : Out [EASEL_A_MAX_DELAY_NS,
    EASEL_CTX_SWITCHES, SEAM_HOLDBACK_NS, TRACE_HEAD] kk) (h : Holds kk vv md mh mb s) (e : execSeamHoldbackEnd dt
    view s = .next t) :
    Holds kk vv md mh mb t := by
  simp at hk; unfold execSeamHoldbackEnd at e
  refine keep_act ?_ (fun u hu => ?_) e
  · simp [*]
  · repeat' first | (simp (maxDischargeDepth := 60) +contextual [*]; done) | split

@[simp ↓] theorem keep_sendTokens {s : State} {ns : Nat} {due : Easel → Bool} (h : Holds kk vv md mh mb s) :
    Holds kk vv md mh mb (s.sendTokens ns due) := by
  unfold State.sendTokens; repeat' first | (simp (maxDischargeDepth := 60) +contextual [*]; done) | split

theorem keep_execEaselHeartbeatSend {dt : Nat} {s : State} {t : State} (hk : Out [TRACE_HEAD] kk) (h : Holds kk vv
    md mh mb s) (e : execEaselHeartbeatSend dt s = .next t) :
    Holds kk vv md mh mb t := by
  simp at hk; unfold execEaselHeartbeatSend at e
  refine keep_act ?_ (fun u hu => ?_) e
  · simp [*]
  · repeat' first | (simp (maxDischargeDepth := 60) +contextual [*]; done) | split

@[simp ↓] theorem keep_routeEasel {s : State} {k p : Nat} (hk : Out logRegs kk ∧ Out bookRegs kk ∧ Out unitRegs kk ∧
    Out [EASEL_PHYS, ISLAND_STATE, PD_STATE] kk) (h : Holds kk vv md mh mb s) :
    Holds kk vv md mh mb (s.routeEasel k p) := by
  simp at hk; unfold State.routeEasel; repeat' first | (simp (maxDischargeDepth := 60) +contextual [*]; done) | split

@[simp ↓] theorem keep_easelDead {s : State} {k : Nat} (hk : Out declareRegs kk ∧ Out emcyRegs kk ∧ Out
    [EASEL_PHYS, EASEL_STATE, ISLAND_STATE, LINES_LATE, LINES_SUBSTITUTED, PD_STATE, RING_DROP, RING_FRAMES,
    RING_OVERSIZE, RING_STAGED_BYTES, TRIM_ABANDONED, TRIM_BUSY_BAY, TRIM_LAST_RESULT, TRIM_LAST_STRIP,
    WHARF_HOST_WR_BYTES] kk) (h : Holds kk vv md none mb s) :
    Holds kk vv md none mb (s.easelDead k) := by
  simp at hk; unfold State.easelDead
  repeat' (first
    | (simp (maxDischargeDepth := 60) +contextual [*]; done)
    | simp only [holds_mk, holdsOf_parts]
    | with_reducible refine keep_foldl _ (fun t x ht => ?_) ?_
    | with_reducible refine keep_foldl_fst _ (fun t b x ht => ?_) ?_
    | with_reducible refine keep_ite (fun _ => ?_) (fun _ => ?_)
    | split | with_reducible refine keep_fst ?_ (by assumption) | with_reducible refine keep_snd ?_ (by assumption)
    | dsimp only)

theorem keep_execEaselHbDeadline {dt easel : Nat} {s : State} {t : State} (hk : Out declareRegs kk ∧ Out emcyRegs
    kk ∧ Out [EASEL_HB_MISS, EASEL_PHYS, EASEL_STATE, ISLAND_STATE, LINES_LATE, LINES_SUBSTITUTED, PD_STATE,
    RING_DROP, RING_FRAMES, RING_OVERSIZE, RING_STAGED_BYTES, TRACE_HEAD, TRIM_ABANDONED, TRIM_BUSY_BAY,
    TRIM_LAST_RESULT, TRIM_LAST_STRIP, WHARF_HOST_WR_BYTES] kk) (h : Holds kk vv md none mb s) (e :
    execEaselHbDeadline dt easel s = .next t) :
    Holds kk vv md none mb t := by
  simp at hk; unfold execEaselHbDeadline at e
  refine keep_act ?_ (fun u hu => ?_) e
  · simp [*]
  · repeat' first | (simp (maxDischargeDepth := 60) +contextual [*]; done) | split

@[simp ↓] theorem keep_takeovers {s : State} {n : Nat} (hk : Out [EASEL_QUAY_FILL, EASEL_QUAY_PEAK, EASEL_STATE]
    kk) (h : Holds kk vv md mh mb s) :
    Holds kk vv md mh mb (s.takeovers n) := by
  simp at hk; unfold State.takeovers; repeat' first | (simp (maxDischargeDepth := 60) +contextual [*]; done) | split

@[simp ↓] theorem keep_easelsReady {s : State} (hk : Out logRegs kk ∧ Out bookRegs kk ∧ Out unitRegs kk ∧ Out
    [EASEL_PHYS, EASEL_STATE, ISLAND_STATE, PD_STATE] kk) (h : Holds kk vv md mh mb s) :
    Holds kk vv md mh mb s.easelsReady := by
  simp at hk; unfold State.easelsReady
  repeat' (first
    | (simp (maxDischargeDepth := 60) +contextual [*]; done)
    | simp only [holds_mk, holdsOf_parts]
    | with_reducible refine keep_foldl _ (fun t x ht => ?_) ?_
    | with_reducible refine keep_foldl_fst _ (fun t b x ht => ?_) ?_
    | with_reducible refine keep_ite (fun _ => ?_) (fun _ => ?_)
    | split | with_reducible refine keep_fst ?_ (by assumption) | with_reducible refine keep_snd ?_ (by assumption)
    | dsimp only)

@[simp ↓] theorem keep_easelSelftest {s : State} {via : Path} {p : Nat} (hk : Out bookRegs kk ∧ Out
    [EASEL_SELFTEST_RESULT, HL_DICT_ERRORS, ISLAND_STATE, ISO_ERROR_RESPONSES, PD_STATE] kk) (h : Holds kk vv md mh
    mb s) :
    Holds kk vv md mh mb (s.easelSelftest via p) := by
  simp at hk; unfold State.easelSelftest; repeat' first | (simp (maxDischargeDepth := 60) +contextual [*]; done) | split

theorem keep_execEaselSelftest {dt : Nat} {via : Path} {phys : Nat} {s : State} {t : State} (hk : Out bookRegs kk ∧
    Out [EASEL_SELFTEST_RESULT, HL_DICT_ERRORS, ISLAND_STATE, ISO_ERROR_RESPONSES, PD_STATE, TRACE_HEAD] kk) (h :
    Holds kk vv md mh mb s) (e : execEaselSelftest dt via phys s = .next t) :
    Holds kk vv md mh mb t := by
  simp at hk; unfold execEaselSelftest at e
  refine keep_act ?_ (fun u hu => ?_) e
  · simp [*]
  · repeat' first | (simp (maxDischargeDepth := 60) +contextual [*]; done) | split

theorem keep_execEaselSelftestDone {dt : Nat} {pass : Bool} {s : State} {t : State} (hk : Out logRegs kk ∧ Out
    bookRegs kk ∧ Out unitRegs kk ∧ Out [EASEL_SELFTEST_RESULT, ISLAND_STATE, PD_STATE, TRACE_HEAD] kk) (h : Holds
    kk vv md mh mb s) (e : execEaselSelftestDone dt pass s = .next t) :
    Holds kk vv md mh mb t := by
  simp at hk; unfold execEaselSelftestDone at e
  refine keep_act ?_ (fun u hu => ?_) e
  · simp [*]
  · repeat' first | (simp (maxDischargeDepth := 60) +contextual [*]; done) | split

theorem keep_execSpareEaselCheck {dt : Nat} {s : State} {t : State} (hk : Out [TRACE_HEAD] kk) (h : Holds kk vv md
    mh mb s) (e : execSpareEaselCheck dt s = .next t) :
    Holds kk vv md mh mb t := by
  simp at hk; unfold execSpareEaselCheck at e
  refine keep_act ?_ (fun u hu => ?_) e
  · simp [*]
  · repeat' first | (simp (maxDischargeDepth := 60) +contextual [*]; done) | split

theorem keep_execSpareEaselCheckDone {dt : Nat} {pass : Bool} {s : State} {t : State} (hk : Out logRegs kk ∧ Out
    bookRegs kk ∧ Out unitRegs kk ∧ Out [ISLAND_STATE, TRACE_HEAD] kk) (h : Holds kk vv md mh mb s) (e :
    execSpareEaselCheckDone dt pass s = .next t) :
    Holds kk vv md mh mb t := by
  simp at hk; unfold execSpareEaselCheckDone at e
  refine keep_act ?_ (fun u hu => ?_) e
  · simp [*]
  · repeat' first | (simp (maxDischargeDepth := 60) +contextual [*]; done) | split

@[simp ↓] theorem keep_easelClear {s : State} {via : Path} {k : Nat} (hk : Out bookRegs kk ∧ Out
    [EASEL_A_MAX_DELAY_NS, EASEL_CLEAR, EASEL_HB_MISS, EASEL_MIXED_LINES, EASEL_QUAY_DROP, EASEL_QUAY_PEAK,
    EASEL_STALE_RESULT, HL_DICT_ERRORS] kk) (h : Holds kk vv md mh mb s) :
    Holds kk vv md mh mb (s.easelClear via k) := by
  simp at hk; unfold State.easelClear; repeat' first | (simp (maxDischargeDepth := 60) +contextual [*]; done) | split

theorem keep_execEaselClear {dt : Nat} {via : Path} {easel : Nat} {s : State} {t : State} (hk : Out bookRegs kk ∧
    Out [EASEL_A_MAX_DELAY_NS, EASEL_CLEAR, EASEL_HB_MISS, EASEL_MIXED_LINES, EASEL_QUAY_DROP, EASEL_QUAY_PEAK,
    EASEL_STALE_RESULT, HL_DICT_ERRORS, TRACE_HEAD] kk) (h : Holds kk vv md mh mb s) (e : execEaselClear dt via
    easel s = .next t) :
    Holds kk vv md mh mb t := by
  simp at hk; unfold execEaselClear at e
  refine keep_act ?_ (fun u hu => ?_) e
  · simp [*]
  · repeat' first | (simp (maxDischargeDepth := 60) +contextual [*]; done) | split

end Sys2Proof.Machine
end

