-- ==== Sys2Proof/Laws/KeepCalibration.lean ====
section
/-! SUPPORT. Laws/KeepCalibration.lean: what the operations and commands leave alone, of Machine/Calibration.lean. -/
namespace Sys2Proof.Machine
open Reg
variable {kk : Key} {vv : Option Nat} {md mh : Option Memory} {mb : Option Blobs}

@[simp ↓] theorem keep_putCand {s : State} {b : Nat} {c : CalCam} (h : Holds kk vv md mh mb s) :
    Holds kk vv md mh mb (s.putCand b c) := by
  unfold State.putCand; repeat' first | (simp (maxDischargeDepth := 60) +contextual [*]; done) | split

@[simp ↓] theorem keep_calEnd {s : State} {result : Nat} (hk : Out [BAR_CURRENT_MA, BAR_STATE, CAL_RESULT,
    CAL_STATE, LIGHT_POWER_W, MODE_PENDING] kk) (h : Holds kk vv md mh none s) :
    Holds kk vv md mh none (s.calEnd result) := by
  simp at hk; unfold State.calEnd; repeat' first | (simp (maxDischargeDepth := 60) +contextual [*]; done) | split

@[simp ↓] theorem keep_stageCand {s : State} {o : Obj} {i : Nat} {b : List Byte} (h : Holds kk vv md mh none s) :
    Holds kk vv md mh none (s.stageCand o i b) := by
  unfold State.stageCand; repeat' first | (simp (maxDischargeDepth := 60) +contextual [*]; done) | split

@[simp ↓] theorem keep_calCandidate {s : State} (hk : Out [CAL_STATE] kk) (h : Holds kk vv md mh none s) :
    Holds kk vv md mh none s.calCandidate := by
  simp at hk; unfold State.calCandidate; repeat' first | (simp (maxDischargeDepth := 60) +contextual [*]; done) | split

@[simp ↓] theorem keep_photoAnew {s : State} (h : Holds kk vv md mh mb s) :
    Holds kk vv md mh mb s.photoAnew := by
  unfold State.photoAnew; repeat' first | (simp (maxDischargeDepth := 60) +contextual [*]; done) | split

@[simp ↓] theorem keep_calMeasure {s : State} (hk : Out [BAR_CURRENT_MA, BAR_STATE, CAL_STATE, LIGHT_POWER_W] kk)
    (h : Holds kk vv md mh mb s) :
    Holds kk vv md mh mb s.calMeasure := by
  simp at hk; unfold State.calMeasure; repeat' first | (simp (maxDischargeDepth := 60) +contextual [*]; done) | split

@[simp ↓] theorem keep_calNext {s : State} (hk : Out [BAR_CURRENT_MA, BAR_STATE, CAL_STATE, LIGHT_POWER_W] kk) (h
    : Holds kk vv md mh none s) :
    Holds kk vv md mh none s.calNext := by
  simp at hk; unfold State.calNext; repeat' first | (simp (maxDischargeDepth := 60) +contextual [*]; done) | split

@[simp ↓] theorem keep_calStart {s : State} (hk : Out [BAR_CURRENT_MA, BAR_STATE, CAL_RESULT, CAL_STATE,
    LIGHT_POWER_W, MODE_PENDING] kk) (h : Holds kk vv md mh none s) :
    Holds kk vv md mh none s.calStart := by
  simp at hk; unfold State.calStart; repeat' first | (simp (maxDischargeDepth := 60) +contextual [*]; done) | split

@[simp ↓] theorem keep_calStep {s : State} {via : Path} (hk : Out bookRegs kk ∧ Out [BAR_CURRENT_MA, BAR_STATE,
    CAL_STATE, HL_DICT_ERRORS, LIGHT_POWER_W] kk) (h : Holds kk vv md mh mb s) :
    Holds kk vv md mh mb (s.calStep via) := by
  simp at hk; unfold State.calStep; repeat' first | (simp (maxDischargeDepth := 60) +contextual [*]; done) | split

theorem keep_execCalStep {dt : Nat} {via : Path} {s : State} {t : State} (hk : Out bookRegs kk ∧ Out
    [BAR_CURRENT_MA, BAR_STATE, CAL_STATE, HL_DICT_ERRORS, LIGHT_POWER_W, TRACE_HEAD] kk) (h : Holds kk vv md mh
    mb s) (e : execCalStep dt via s = .next t) :
    Holds kk vv md mh mb t := by
  simp at hk; unfold execCalStep at e
  refine keep_act ?_ (fun u hu => ?_) e
  · simp [*]
  · repeat' first | (simp (maxDischargeDepth := 60) +contextual [*]; done) | split

@[simp ↓] theorem keep_calDark {s : State} {b : Nat} {sums : List (List Nat)} (h : Holds kk vv md mh mb s) :
    Holds kk vv md mh mb (s.calDark b sums) := by
  unfold State.calDark; repeat' first | (simp (maxDischargeDepth := 60) +contextual [*]; done) | split

@[simp ↓] theorem keep_calFlat {s : State} {b : Nat} {sums : List (List Nat)} (h : Holds kk vv md mh mb s) :
    Holds kk vv md mh mb (s.calFlat b sums).1 := by
  unfold State.calFlat; repeat' first | (simp (maxDischargeDepth := 60) +contextual [*]; done) | split

@[simp ↓] theorem keep_calGeometry {s : State} {maps : List (Nat × Nat × Nat × List Nat)} (hk : Out
    [CAL_GEOM_WIDTH] kk) (h : Holds kk vv md mh mb s) :
    Holds kk vv md mh mb (s.calGeometry maps).1 := by
  simp at hk; unfold State.calGeometry
  repeat' (first
    | (simp (maxDischargeDepth := 60) +contextual [*]; done)
    | simp only [holds_mk, holdsOf_parts]
    | with_reducible refine keep_foldl _ (fun t x ht => ?_) ?_
    | with_reducible refine keep_foldl_fst _ (fun t b x ht => ?_) ?_
    | with_reducible refine keep_ite (fun _ => ?_) (fun _ => ?_)
    | split | with_reducible refine keep_fst ?_ (by assumption) | with_reducible refine keep_snd ?_ (by assumption)
    | dsimp only)

@[simp ↓] theorem keep_calColour {s : State} {b : Nat} {means : List (List Rat)} (h : Holds kk vv md mh mb s) :
    Holds kk vv md mh mb (s.calColour b means).1 := by
  unfold State.calColour
  repeat' (first
    | with_reducible assumption
    | with_reducible refine keep_fresh ?_
    | with_reducible refine keep_putCand ?_
    | simp only [holds_mk, holdsOf_parts]
    | with_reducible refine keep_foldl _ (fun t x ht => ?_) ?_
    | with_reducible refine keep_foldl_fst _ (fun t b x ht => ?_) ?_
    | with_reducible refine keep_ite (fun _ => ?_) (fun _ => ?_)
    | with_reducible refine keep_set ?_ ?_
    | (with_reducible refine And.intro ?_ ?_)
    | (simp only [out_cons, out_nil, and_true, true_and]; done)
    | (simp [hk]; done)
    | split | with_reducible refine keep_fst ?_ (by assumption) | with_reducible refine keep_snd ?_ (by assumption)
    | (intro _; try dsimp only)
    | dsimp only)

theorem keep_calResults {s : State} {m : CalMeas} {t : State} {b_ : Nat} (hk : Out [CAL_GEOM_WIDTH] kk) (h : Holds
    kk vv md mh mb s) (e : s.calResults m = some (t, b_)) :
    Holds kk vv md mh mb t := by
  simp at hk; unfold State.calResults at e; try dsimp only at e
  repeat' split at e
  all_goals cases e
  all_goals repeat' (first
    | (simp (maxDischargeDepth := 60) +contextual [*]; done)
    | simp only [holds_mk, holdsOf_parts]
    | with_reducible refine keep_foldl _ (fun t x ht => ?_) ?_
    | with_reducible refine keep_foldl_fst _ (fun t b x ht => ?_) ?_
    | with_reducible refine keep_ite (fun _ => ?_) (fun _ => ?_)
    | split | with_reducible refine keep_fst ?_ (by assumption) | with_reducible refine keep_snd ?_ (by assumption)
    | dsimp only)

theorem keep_execCalMeasureDone {dt : Nat} {meas : CalMeas} {s : State} {t : State} (hk : Out [BAR_CURRENT_MA,
    BAR_STATE, CAL_GEOM_WIDTH, CAL_RESULT, CAL_STATE, LIGHT_POWER_W, MODE_PENDING, TRACE_HEAD] kk) (h : Holds kk
    vv md mh none s) (e : execCalMeasureDone dt meas s = .next t) :
    Holds kk vv md mh none t := by
  simp at hk; unfold execCalMeasureDone at e
  refine keep_act ?_ (fun u hu => ?_) e
  · simp [*]
  · repeat' (first
        | (simp (maxDischargeDepth := 60) +contextual [*]; done)
        | with_reducible refine keep_calEnd ?_ ?_
        | with_reducible refine keep_calNext ?_ ?_
        | with_reducible refine keep_loadCurrents ?_ ?_
        | simp only [holds_mk, holdsOf_parts]
        | with_reducible refine keep_foldl _ (fun t x ht => ?_) ?_
        | with_reducible refine keep_foldl_fst _ (fun t b x ht => ?_) ?_
        | with_reducible refine keep_ite (fun _ => ?_) (fun _ => ?_)
        | split | with_reducible refine keep_fst ?_ (by assumption) | with_reducible refine keep_snd ?_ (by assumption)
        | with_reducible refine keep_calResults ?_ ?_ (by assumption)
        | (intro _; try dsimp only)
        | dsimp only)

@[simp ↓] theorem keep_storeCal {s : State} {cams : List CalCam} {records : List (List Byte)} {base : List (Int ×
    List Int)} (hk : Out logRegs kk) (h : Holds kk vv md mh mb s) :
    Holds kk vv md mh mb (s.storeCal cams records base) := by
  simp at hk; unfold State.storeCal; repeat' first | (simp (maxDischargeDepth := 60) +contextual [*]; done) | split

@[simp ↓] theorem keep_commitCand {s : State} {b : Nat} {c : CalCam} (hk : Out bookRegs kk ∧ Out
    [EASEL_COMMIT_RESULT, EASEL_COMMIT_STAGE, EASEL_CTX_APPLY_STRIP, EASEL_CTX_PENDING, EASEL_PAL_PENDING,
    HL_DICT_ERRORS] kk) (h : Holds kk vv md mh mb s) :
    Holds kk vv md mh mb (s.commitCand b c) := by
  simp at hk; unfold State.commitCand; repeat' first | (simp (maxDischargeDepth := 60) +contextual [*]; done) | split

@[simp ↓] theorem keep_calApply {s : State} (hk : Out logRegs kk ∧ Out bookRegs kk ∧ Out [BAR_CURRENT_MA, BAR_STATE,
    CAL_RESULT, CAL_STALE_VIEWS, CAL_STATE, CAL_STORED_TIME, CAM_SEAM_GAIN_CAL_L, CAM_SEAM_GAIN_CAL_N,
    CAM_SEAM_GAIN_L, CAM_SEAM_GAIN_N, EASEL_COMMIT_RESULT, EASEL_COMMIT_STAGE, EASEL_CTX_APPLY_STRIP,
    EASEL_CTX_PENDING, EASEL_PAL_PENDING, HL_DICT_ERRORS, LIGHT_POWER_W, MODE_PENDING, TRIM_BASE_MC, VIEW_PITCH_UM]
    kk) (h : Holds kk vv md mh none s) :
    Holds kk vv md mh none s.calApply := by
  simp at hk; unfold State.calApply; repeat' first | (simp (maxDischargeDepth := 60) +contextual [*]; done) | split

@[simp ↓] theorem keep_withCands {s : State} {cs : List (Nat × CalCam)} (h : Holds kk vv md mh mb s) :
    Holds kk vv md mh mb (s.withCands cs) := by
  unfold State.withCands; repeat' first | (simp (maxDischargeDepth := 60) +contextual [*]; done) | split

@[simp ↓] theorem keep_calAccept {s : State} {via : Path} (hk : Out logRegs kk ∧ Out bookRegs kk ∧ Out
    [BAR_CURRENT_MA, BAR_STATE, CAL_RESULT, CAL_STALE_VIEWS, CAL_STATE, CAL_STORED_TIME, CAM_SEAM_GAIN_CAL_L,
    CAM_SEAM_GAIN_CAL_N, CAM_SEAM_GAIN_L, CAM_SEAM_GAIN_N, EASEL_COMMIT_RESULT, EASEL_COMMIT_STAGE,
    EASEL_CTX_APPLY_STRIP, EASEL_CTX_PENDING, EASEL_PAL_PENDING, HL_DICT_ERRORS, LIGHT_POWER_W, MODE_PENDING,
    TRIM_BASE_MC, VIEW_PITCH_UM] kk) (h : Holds kk vv md mh none s) :
    Holds kk vv md mh none (s.calAccept via) := by
  simp at hk; unfold State.calAccept; repeat' first | (simp (maxDischargeDepth := 60) +contextual [*]; done) | split

theorem keep_execCalAccept {dt : Nat} {via : Path} {s : State} {t : State} (hk : Out logRegs kk ∧ Out bookRegs kk ∧
    Out [BAR_CURRENT_MA, BAR_STATE, CAL_RESULT, CAL_STALE_VIEWS, CAL_STATE, CAL_STORED_TIME, CAM_SEAM_GAIN_CAL_L,
    CAM_SEAM_GAIN_CAL_N, CAM_SEAM_GAIN_L, CAM_SEAM_GAIN_N, EASEL_COMMIT_RESULT, EASEL_COMMIT_STAGE,
    EASEL_CTX_APPLY_STRIP, EASEL_CTX_PENDING, EASEL_PAL_PENDING, HL_DICT_ERRORS, LIGHT_POWER_W, MODE_PENDING,
    TRACE_HEAD, TRIM_BASE_MC, VIEW_PITCH_UM] kk) (h : Holds kk vv md mh none s) (e : execCalAccept dt via s = .next
    t) :
    Holds kk vv md mh none t := by
  simp at hk; unfold execCalAccept at e
  refine keep_act ?_ (fun u hu => ?_) e
  · simp [*]
  · repeat' first | (simp (maxDischargeDepth := 60) +contextual [*]; done) | split

@[simp ↓] theorem keep_calAbort {s : State} {via : Path} (hk : Out bookRegs kk ∧ Out [BAR_CURRENT_MA, BAR_STATE,
    CAL_RESULT, CAL_STATE, HL_DICT_ERRORS, LIGHT_POWER_W, MODE_PENDING] kk) (h : Holds kk vv md mh none s) :
    Holds kk vv md mh none (s.calAbort via) := by
  simp at hk; unfold State.calAbort; repeat' first | (simp (maxDischargeDepth := 60) +contextual [*]; done) | split

theorem keep_execCalAbort {dt : Nat} {via : Path} {s : State} {t : State} (hk : Out bookRegs kk ∧ Out
    [BAR_CURRENT_MA, BAR_STATE, CAL_RESULT, CAL_STATE, HL_DICT_ERRORS, LIGHT_POWER_W, MODE_PENDING, TRACE_HEAD]
    kk) (h : Holds kk vv md mh none s) (e : execCalAbort dt via s = .next t) :
    Holds kk vv md mh none t := by
  simp at hk; unfold execCalAbort at e
  refine keep_act ?_ (fun u hu => ?_) e
  · simp [*]
  · repeat' first | (simp (maxDischargeDepth := 60) +contextual [*]; done) | split

@[simp ↓] theorem keep_restoreBanks {s : State} (hk : Out [EASEL_BYPASS] kk) (h : Holds kk vv md mh none s) :
    Holds kk vv md mh none s.restoreBanks := by
  simp at hk; unfold State.restoreBanks; repeat' first | (simp (maxDischargeDepth := 60) +contextual [*]; done) | split

@[simp ↓] theorem keep_trimServe {s : State} (hk : Out [TRIM_BUSY_BAY] kk) (h : Holds kk vv md mh mb s) :
    Holds kk vv md mh mb s.trimServe := by
  simp at hk; unfold State.trimServe; repeat' first | (simp (maxDischargeDepth := 60) +contextual [*]; done) | split

theorem keep_execTrimDue {dt bay : Nat} {s : State} {t : State} (hk : Out [TRACE_HEAD, TRIM_BUSY_BAY] kk) (h :
    Holds kk vv md mh mb s) (e : execTrimDue dt bay s = .next t) :
    Holds kk vv md mh mb t := by
  simp at hk; unfold execTrimDue at e
  refine keep_act ?_ (fun u hu => ?_) e
  · simp [*]
  · repeat' first | (simp (maxDischargeDepth := 60) +contextual [*]; done) | split

@[simp ↓] theorem keep_trimNow {s : State} {via : Path} {b : Nat} (hk : Out bookRegs kk ∧ Out [HL_DICT_ERRORS,
    TRIM_BUSY_BAY] kk) (h : Holds kk vv md mh mb s) :
    Holds kk vv md mh mb (s.trimNow via b) := by
  simp at hk; unfold State.trimNow; repeat' first | (simp (maxDischargeDepth := 60) +contextual [*]; done) | split

theorem keep_execTrimNow {dt : Nat} {via : Path} {bay : Nat} {s : State} {t : State} (hk : Out bookRegs kk ∧ Out
    [HL_DICT_ERRORS, TRACE_HEAD, TRIM_BUSY_BAY] kk) (h : Holds kk vv md mh mb s) (e : execTrimNow dt via bay s =
    .next t) :
    Holds kk vv md mh mb t := by
  simp at hk; unfold execTrimNow at e
  refine keep_act ?_ (fun u hu => ?_) e
  · simp [*]
  · repeat' first | (simp (maxDischargeDepth := 60) +contextual [*]; done) | split

@[simp ↓] theorem keep_trimBlind {s : State} {b n : Nat} (h : Holds kk vv md mh mb s) :
    Holds kk vv md mh mb (s.trimBlind b n) := by
  unfold State.trimBlind; repeat' first | (simp (maxDischargeDepth := 60) +contextual [*]; done) | split

@[simp ↓] theorem keep_trimBegin {s : State} {n : Nat} (hk : Out bookRegs kk ∧ Out [TRIM_BUSY_BAY, TRIM_COUNT] kk)
    (h : Holds kk vv md mh mb s) :
    Holds kk vv md mh mb (s.trimBegin n) := by
  simp at hk; unfold State.trimBegin; repeat' first | (simp (maxDischargeDepth := 60) +contextual [*]; done) | split

@[simp ↓] theorem keep_trimFall {s : State} {n : Nat} (hk : Out [BAR_CURRENT_MA, BAR_STATE, LIGHT_POWER_W] kk) (h
    : Holds kk vv md mh mb s) :
    Holds kk vv md mh mb (s.trimFall n) := by
  simp at hk; unfold State.trimFall
  repeat' (first
    | (simp (maxDischargeDepth := 60) +contextual [*]; done)
    | simp only [holds_mk, holdsOf_parts]
    | with_reducible refine keep_foldl _ (fun t x ht => ?_) ?_
    | with_reducible refine keep_foldl_fst _ (fun t b x ht => ?_) ?_
    | with_reducible refine keep_ite (fun _ => ?_) (fun _ => ?_)
    | split | with_reducible refine keep_fst ?_ (by assumption) | with_reducible refine keep_snd ?_ (by assumption)
    | dsimp only)

@[simp ↓] theorem keep_rebase {s : State} {b : Nat} (hk : Out [TRIM_BASE_MC] kk) (h : Holds kk vv md mh mb s) :
    Holds kk vv md mh mb (s.rebase b) := by
  simp at hk; unfold State.rebase; repeat' first | (simp (maxDischargeDepth := 60) +contextual [*]; done) | split

@[simp ↓] theorem keep_trimEnd {s : State} {b strip : Nat} {m : TrimMeas} (hk : Out logRegs kk ∧ Out bookRegs kk ∧
    Out [CAL_REJECT, EASEL_COMMIT_RESULT, EASEL_COMMIT_STAGE, EASEL_CTX_APPLY_STRIP, EASEL_CTX_PENDING,
    TRIM_BASE_MC, TRIM_BUSY_BAY, TRIM_LAST_DARK_MAX, TRIM_LAST_GAIN, TRIM_LAST_RESULT, TRIM_LAST_STRIP] kk) (h :
    Holds kk vv md mh mb s) :
    Holds kk vv md mh mb (s.trimEnd b strip m) := by
  simp at hk; unfold State.trimEnd; repeat' first | (simp (maxDischargeDepth := 60) +contextual [*]; done) | split

@[simp ↓] theorem keep_trimKnown {s : State} {b strip : Nat} {m : TrimMeas} (hk : Out logRegs kk ∧ Out bookRegs kk ∧
    Out [CAL_REJECT, EASEL_COMMIT_RESULT, EASEL_COMMIT_STAGE, EASEL_CTX_APPLY_STRIP, EASEL_CTX_PENDING,
    TRIM_BASE_MC, TRIM_BUSY_BAY, TRIM_LAST_DARK_MAX, TRIM_LAST_GAIN, TRIM_LAST_RESULT, TRIM_LAST_STRIP] kk) (h :
    Holds kk vv md mh mb s) :
    Holds kk vv md mh mb (s.trimKnown b strip m) := by
  simp at hk; unfold State.trimKnown; repeat' first | (simp (maxDischargeDepth := 60) +contextual [*]; done) | split

@[simp ↓] theorem keep_trimLine {s : State} {n : Nat} (hk : Out logRegs kk ∧ Out bookRegs kk ∧ Out [CAL_REJECT,
    EASEL_COMMIT_RESULT, EASEL_COMMIT_STAGE, EASEL_CTX_APPLY_STRIP, EASEL_CTX_PENDING, TRIM_BASE_MC, TRIM_BUSY_BAY,
    TRIM_COUNT, TRIM_LAST_DARK_MAX, TRIM_LAST_GAIN, TRIM_LAST_RESULT, TRIM_LAST_STRIP] kk) (h : Holds kk vv md mh mb
    s) :
    Holds kk vv md mh mb (s.trimLine n) := by
  simp at hk; unfold State.trimLine; repeat' first | (simp (maxDischargeDepth := 60) +contextual [*]; done) | split

theorem keep_execTrimResult {dt : Nat} {meas : TrimMeas} {s : State} {t : State} (hk : Out logRegs kk ∧ Out bookRegs
    kk ∧ Out [CAL_REJECT, EASEL_COMMIT_RESULT, EASEL_COMMIT_STAGE, EASEL_CTX_APPLY_STRIP, EASEL_CTX_PENDING,
    TRACE_HEAD, TRIM_BASE_MC, TRIM_BUSY_BAY, TRIM_LAST_DARK_MAX, TRIM_LAST_GAIN, TRIM_LAST_RESULT, TRIM_LAST_STRIP]
    kk) (h : Holds kk vv md mh mb s) (e : execTrimResult dt meas s = .next t) :
    Holds kk vv md mh mb t := by
  simp at hk; unfold execTrimResult at e
  refine keep_act ?_ (fun u hu => ?_) e
  · simp [*]
  · repeat' first | (simp (maxDischargeDepth := 60) +contextual [*]; done) | split

@[simp ↓] theorem keep_calClear {s : State} {via : Path} (hk : Out bookRegs kk ∧ Out [CAL_REJECT, HL_DICT_ERRORS,
    TRIM_ABANDONED] kk) (h : Holds kk vv md mh mb s) :
    Holds kk vv md mh mb (s.calClear via) := by
  simp at hk; unfold State.calClear; repeat' first | (simp (maxDischargeDepth := 60) +contextual [*]; done) | split

theorem keep_execCalClear {dt : Nat} {via : Path} {s : State} {t : State} (hk : Out bookRegs kk ∧ Out [CAL_REJECT,
    HL_DICT_ERRORS, TRACE_HEAD, TRIM_ABANDONED] kk) (h : Holds kk vv md mh mb s) (e : execCalClear dt via s =
    .next t) :
    Holds kk vv md mh mb t := by
  simp at hk; unfold execCalClear at e
  refine keep_act ?_ (fun u hu => ?_) e
  · simp [*]
  · repeat' first | (simp (maxDischargeDepth := 60) +contextual [*]; done) | split

end Sys2Proof.Machine
end

