-- ==== Sys2Proof/Laws/KeepFabric.lean ====
section
/-! SUPPORT. Laws/KeepFabric.lean: what the operations and commands leave alone, of Machine/Fabric.lean. -/
namespace Sys2Proof.Machine
open Reg
variable {kk : Key} {vv : Option Nat} {md mh : Option Memory} {mb : Option Blobs}

@[simp ↓] theorem keep_checkTide {s : State} (hk : Out [TIDE_RESULT] kk) (h : Holds kk vv md mh mb s) :
    Holds kk vv md mh mb s.checkTide.1 := by
  simp at hk; unfold State.checkTide
  repeat' (first
    | (simp (maxDischargeDepth := 60) +contextual [*]; done)
    | simp only [holds_mk, holdsOf_parts]
    | with_reducible refine keep_foldl _ (fun t x ht => ?_) ?_
    | with_reducible refine keep_foldl_fst _ (fun t b x ht => ?_) ?_
    | with_reducible refine keep_ite (fun _ => ?_) (fun _ => ?_)
    | split | with_reducible refine keep_fst ?_ (by assumption) | with_reducible refine keep_snd ?_ (by assumption)
    | dsimp only)

@[simp ↓] theorem keep_tideApply {s : State} {image : List Byte} {line : Nat} (hk : Out [TIDE_APPLY_LINE,
    TIDE_BANK_ACTIVE, TIDE_GENERATION, TIDE_PENDING] kk) (h : Holds kk vv md mh none s) :
    Holds kk vv md mh none (s.tideApply image line) := by
  simp at hk; unfold State.tideApply; repeat' first | (simp (maxDischargeDepth := 60) +contextual [*]; done) | split

@[simp ↓] theorem keep_tideNow {s : State} {image : List Byte} {n : Nat} (hk : Out [TIDE_APPLY_LINE,
    TIDE_BANK_ACTIVE, TIDE_GENERATION, TIDE_PENDING, TIDE_RESULT] kk) (h : Holds kk vv md mh none s) :
    Holds kk vv md mh none (s.tideNow image n) := by
  simp at hk; unfold State.tideNow; repeat' first | (simp (maxDischargeDepth := 60) +contextual [*]; done) | split

@[simp ↓] theorem keep_tideSettleAt {s : State} {line : Nat} (hk : Out [TIDE_APPLY_LINE, TIDE_BANK_ACTIVE,
    TIDE_GENERATION, TIDE_PENDING, TIDE_RESULT] kk) (h : Holds kk vv md mh none s) :
    Holds kk vv md mh none (s.tideSettleAt line) := by
  simp at hk; unfold State.tideSettleAt; repeat' first | (simp (maxDischargeDepth := 60) +contextual [*]; done) | split

@[simp ↓] theorem keep_tideSettle {s : State} (hk : Out [TIDE_APPLY_LINE, TIDE_BANK_ACTIVE, TIDE_GENERATION,
    TIDE_PENDING, TIDE_RESULT] kk) (h : Holds kk vv md mh none s) :
    Holds kk vv md mh none s.tideSettle := by
  simp at hk; unfold State.tideSettle; repeat' first | (simp (maxDischargeDepth := 60) +contextual [*]; done) | split

@[simp ↓] theorem keep_tideReload {s : State} {image : List Byte} (hk : Out [TIDE_APPLY_LINE, TIDE_GENERATION] kk)
    (h : Holds kk vv md mh mb s) :
    Holds kk vv md mh mb (s.tideReload image) := by
  simp at hk; unfold State.tideReload; repeat' first | (simp (maxDischargeDepth := 60) +contextual [*]; done) | split

@[simp ↓] theorem keep_tideLoad {s : State} (hk : Out [TIDE_APPLY_LINE, TIDE_GENERATION] kk) (h : Holds kk vv md mh
    none s) :
    Holds kk vv md mh none s.tideLoad := by
  simp at hk; unfold State.tideLoad; repeat' first | (simp (maxDischargeDepth := 60) +contextual [*]; done) | split

@[simp ↓] theorem keep_tideRefuse {s : State} {via : Path} {code abortCode : Nat} (hk : Out bookRegs kk ∧ Out
    [HL_DICT_ERRORS, TIDE_RESULT] kk) (h : Holds kk vv md mh mb s) :
    Holds kk vv md mh mb (s.tideRefuse via code abortCode) := by
  simp at hk; unfold State.tideRefuse; repeat' first | (simp (maxDischargeDepth := 60) +contextual [*]; done) | split

@[simp ↓] theorem keep_tideCommit {s : State} {via : Path} (hk : Out bookRegs kk ∧ Out [HL_DICT_ERRORS,
    TIDE_APPLY_LINE, TIDE_BANK_ACTIVE, TIDE_ERR_ENTRY, TIDE_GENERATION, TIDE_PENDING, TIDE_RESULT] kk) (h : Holds
    kk vv md mh none s) :
    Holds kk vv md mh none (s.tideCommit via) := by
  simp at hk; unfold State.tideCommit
  repeat' (first
    | (simp (maxDischargeDepth := 60) +contextual [*]; done)
    | simp only [holds_mk, holdsOf_parts]
    | with_reducible refine keep_foldl _ (fun t x ht => ?_) ?_
    | with_reducible refine keep_foldl_fst _ (fun t b x ht => ?_) ?_
    | with_reducible refine keep_ite (fun _ => ?_) (fun _ => ?_)
    | split | with_reducible refine keep_fst ?_ (by assumption) | with_reducible refine keep_snd ?_ (by assumption)
    | dsimp only)

theorem keep_execTideCommit {dt : Nat} {via : Path} {s : State} {t : State} (hk : Out bookRegs kk ∧ Out
    [HL_DICT_ERRORS, TIDE_APPLY_LINE, TIDE_BANK_ACTIVE, TIDE_ERR_ENTRY, TIDE_GENERATION, TIDE_PENDING,
    TIDE_RESULT, TRACE_HEAD] kk) (h : Holds kk vv md mh none s) (e : execTideCommit dt via s = .next t) :
    Holds kk vv md mh none t := by
  simp at hk; unfold execTideCommit at e
  refine keep_act ?_ (fun u hu => ?_) e
  · simp [*]
  · repeat' first | (simp (maxDischargeDepth := 60) +contextual [*]; done) | split

@[simp ↓] theorem keep_modTile {s : State} {k : Nat} {f : Tile → Tile} (h : Holds kk vv md mh mb s) :
    Holds kk vv md mh mb (s.modTile k f) := by
  unfold State.modTile; repeat' first | (simp (maxDischargeDepth := 60) +contextual [*]; done) | split

@[simp ↓] theorem keep_tilesWake {s : State} (hk : Out [TILE_LOG_STATE] kk) (h : Holds kk vv md mh mb s) :
    Holds kk vv md mh mb s.tilesWake := by
  simp at hk; unfold State.tilesWake
  repeat' (first
    | (simp (maxDischargeDepth := 60) +contextual [*]; done)
    | simp only [holds_mk, holdsOf_parts]
    | with_reducible refine keep_foldl _ (fun t x ht => ?_) ?_
    | with_reducible refine keep_foldl_fst _ (fun t b x ht => ?_) ?_
    | with_reducible refine keep_ite (fun _ => ?_) (fun _ => ?_)
    | split | with_reducible refine keep_fst ?_ (by assumption) | with_reducible refine keep_snd ?_ (by assumption)
    | dsimp only)

@[simp ↓] theorem keep_writeDebug {s : State} {k view : Nat} {words : List (Nat × List (Option Nat))} (h : Holds kk
    vv none mh mb s) :
    Holds kk vv none mh mb (s.writeDebug k view words) := by
  unfold State.writeDebug
  repeat' (first
    | (simp (maxDischargeDepth := 60) +contextual [*]; done)
    | simp only [holds_mk, holdsOf_parts]
    | with_reducible refine keep_foldl _ (fun t x ht => ?_) ?_
    | with_reducible refine keep_foldl_fst _ (fun t b x ht => ?_) ?_
    | with_reducible refine keep_ite (fun _ => ?_) (fun _ => ?_)
    | split | with_reducible refine keep_fst ?_ (by assumption) | with_reducible refine keep_snd ?_ (by assumption)
    | dsimp only)

@[simp ↓] theorem keep_runTask {s : State} {k : Nat} {t : Task} (hk : Out bookRegs kk ∧ Out [TILE_RUN_OVERFLOW] kk)
    (h : Holds kk vv none mh mb s) :
    Holds kk vv none mh mb (s.runTask k t).1 := by
  simp at hk; unfold State.runTask
  repeat' (first
    | (simp (maxDischargeDepth := 60) +contextual [*]; done)
    | (have e' := (by assumption : (_ : State × _) = (_, _))
       have hq := keep_fst (k := kk) (v := vv) (m := none) (h := mh) (b := mb) (by simp (maxDischargeDepth := 60) +contextual [*]; done) e'
       simp (maxDischargeDepth := 60) +contextual [*]; done)
    | simp only [holds_mk, holdsOf_parts]
    | with_reducible refine keep_foldl _ (fun t x ht => ?_) ?_
    | with_reducible refine keep_foldl_fst _ (fun t b x ht => ?_) ?_
    | with_reducible refine keep_ite (fun _ => ?_) (fun _ => ?_)
    | split | with_reducible refine keep_fst ?_ (by assumption) | with_reducible refine keep_snd ?_ (by assumption)
    | dsimp only)

@[simp ↓] theorem keep_headRun {s : State} {k : Nat} (hk : Out bookRegs kk ∧ Out [TILE_RUN_OVERFLOW] kk) (h :
    Holds kk vv none mh mb s) :
    Holds kk vv none mh mb (s.headRun k).1 := by
  simp at hk; unfold State.headRun; repeat' first | (simp (maxDischargeDepth := 60) +contextual [*]; done) | split

@[simp ↓] theorem keep_blindTask {s : State} {t : Task} (h : Holds kk vv md mh mb s) :
    Holds kk vv md mh mb (s.blindTask t) := by
  unfold State.blindTask; repeat' first | (simp (maxDischargeDepth := 60) +contextual [*]; done) | split

@[simp ↓] theorem keep_endTask {s : State} {t : Task} {status : Nat} {o : TaskOut} (hk : Out bookRegs kk ∧ Out
    [TILE_BLIND_TASKS, TILE_TASKS] kk) (h : Holds kk vv md mh mb s) :
    Holds kk vv md mh mb (s.endTask t status o) := by
  simp at hk; unfold State.endTask; repeat' first | (simp (maxDischargeDepth := 60) +contextual [*]; done) | split

@[simp ↓] theorem keep_fabricSettle {s : State} (hk : Out fabricRegs kk) (h : Holds kk vv none none none s) :
    Holds kk vv none none none s.fabricSettle := by
  simp at hk; unfold State.fabricSettle; repeat' first | (simp (maxDischargeDepth := 60) +contextual [*]; done) | split

@[simp ↓] theorem keep_fabricSettleAt {s : State} {line : Nat} (hk : Out fabricRegs kk) (h : Holds kk vv none none
    none s) :
    Holds kk vv none none none (s.fabricSettleAt line) := by
  simp at hk; unfold State.fabricSettleAt; repeat' first | (simp (maxDischargeDepth := 60) +contextual [*]; done) | split

@[simp ↓] theorem keep_coverUnregistered {s : State} {v : Nat} {x : CStrip} (hk : Out bookRegs kk ∧ Out
    [REG_UNREG_STRIPS] kk) (h : Holds kk vv md mh mb s) :
    Holds kk vv md mh mb (s.coverUnregistered v x) := by
  simp at hk; unfold State.coverUnregistered; repeat' first | (simp (maxDischargeDepth := 60) +contextual [*]; done) | split

@[simp ↓] theorem keep_issueTask {s : State} {k : Nat} {t : Task} (hk : Out bookRegs kk ∧ Out [TILE_BLIND_TASKS,
    TILE_TASKS] kk) (h : Holds kk vv md mh mb s) :
    Holds kk vv md mh mb (s.issueTask k t) := by
  simp at hk; unfold State.issueTask; repeat' first | (simp (maxDischargeDepth := 60) +contextual [*]; done) | split

@[simp ↓] theorem keep_issueStrip {s : State} {v : Nat} {x : CStrip} (hk : Out bookRegs kk ∧ Out [REG_UNREG_STRIPS,
    TILE_BLIND_TASKS, TILE_TASKS] kk) (h : Holds kk vv none mh mb s) :
    Holds kk vv none mh mb (s.issueStrip v x) := by
  simp at hk; unfold State.issueStrip; repeat' first | (simp (maxDischargeDepth := 60) +contextual [*]; done) | split

theorem keep_execTaskIssue {dt view : Nat} {s : State} {t : State} (hk : Out fabricRegs kk ∧ Out
    [REG_UNREG_STRIPS, TILE_BLIND_TASKS, TILE_LOG_STATE, TILE_TASKS, TRACE_HEAD] kk) (h : Holds kk vv none none
    none s) (e : execTaskIssue dt view s = .next t) :
    Holds kk vv none none none t := by
  simp at hk; unfold execTaskIssue at e
  refine keep_act ?_ (fun u hu => ?_) e
  · simp [*]
  · repeat' (first
        | (simp (maxDischargeDepth := 60) +contextual [*]; done)
        | simp only [holds_mk, holdsOf_parts]
        | with_reducible refine keep_foldl _ (fun t x ht => ?_) ?_
        | with_reducible refine keep_foldl_fst _ (fun t b x ht => ?_) ?_
        | with_reducible refine keep_ite (fun _ => ?_) (fun _ => ?_)
        | split | with_reducible refine keep_fst ?_ (by assumption) | with_reducible refine keep_snd ?_ (by assumption)
        | dsimp only)

@[simp ↓] theorem keep_gateTile {s : State} {phys : Nat} (h : Holds kk vv md mh mb s) :
    Holds kk vv md mh mb (s.gateTile phys) := by
  unfold State.gateTile; repeat' first | (simp (maxDischargeDepth := 60) +contextual [*]; done) | split

@[simp ↓] theorem keep_staleTile {s : State} {phys : Nat} (hk : Out bookRegs kk ∧ Out [TILE_STALE_RESULT] kk) (h :
    Holds kk vv md mh mb s) :
    Holds kk vv md mh mb (s.staleTile phys) := by
  simp at hk; unfold State.staleTile; repeat' first | (simp (maxDischargeDepth := 60) +contextual [*]; done) | split

theorem keep_execFragment {dt : Nat} {src : TileSender} {s : State} {t : State} (hk : Out bookRegs kk ∧ Out
    [TILE_FRAGMENTS, TILE_LOG_STATE, TILE_RUN_OVERFLOW, TILE_STALE_RESULT, TRACE_HEAD] kk) (h : Holds kk vv none mh
    mb s) (e : execFragment dt src s = .next t) :
    Holds kk vv none mh mb t := by
  simp at hk; unfold execFragment at e
  refine keep_act ?_ (fun u hu => ?_) e
  · simp [*]
  · repeat' (first
        | (simp (maxDischargeDepth := 60) +contextual [*]; done)
        | with_reducible refine keep_tilesWake ?_ ?_
        | with_reducible refine keep_staleTile ?_ ?_
        | with_reducible refine keep_headRun ?_ ?_
        | with_reducible refine keep_volume ?_ ?_
        | with_reducible refine keep_modTile ?_
        | simp only [holds_mk, holdsOf_parts]
        | with_reducible refine keep_foldl _ (fun t x ht => ?_) ?_
        | with_reducible refine keep_foldl_fst _ (fun t b x ht => ?_) ?_
        | with_reducible refine keep_ite (fun _ => ?_) (fun _ => ?_)
        | split | with_reducible refine keep_fst ?_ (by assumption) | with_reducible refine keep_snd ?_ (by assumption)
        | (intro _; try dsimp only)
        | dsimp only)

@[simp ↓] theorem keep_routeTile {s : State} {k p : Nat} (hk : Out logRegs kk ∧ Out bookRegs kk ∧ Out unitRegs kk
    ∧ Out [TILE_PHYS] kk) (h : Holds kk vv md mh mb s) :
    Holds kk vv md mh mb (s.routeTile k p) := by
  simp at hk; unfold State.routeTile; repeat' first | (simp (maxDischargeDepth := 60) +contextual [*]; done) | split

@[simp ↓] theorem keep_tileDead {s : State} {k : Nat} (hk : Out declareRegs kk ∧ Out emcyRegs kk ∧ Out
    [ISLAND_STATE, PD_STATE, TILE_BLIND_TASKS, TILE_LOG_STATE, TILE_PHYS, TILE_TASKS] kk) (h : Holds kk vv md mh mb
    s) :
    Holds kk vv md mh mb (s.tileDead k) := by
  simp at hk; unfold State.tileDead
  repeat' (first
    | (simp (maxDischargeDepth := 60) +contextual [*]; done)
    | simp only [holds_mk, holdsOf_parts]
    | with_reducible refine keep_foldl _ (fun t x ht => ?_) ?_
    | with_reducible refine keep_foldl_fst _ (fun t b x ht => ?_) ?_
    | with_reducible refine keep_ite (fun _ => ?_) (fun _ => ?_)
    | split | with_reducible refine keep_fst ?_ (by assumption) | with_reducible refine keep_snd ?_ (by assumption)
    | dsimp only)

@[simp ↓] theorem keep_tileMiss {s : State} {k : Nat} (hk : Out declareRegs kk ∧ Out emcyRegs kk ∧ Out
    [ISLAND_STATE, PD_STATE, TILE_BLIND_TASKS, TILE_HB_MISS, TILE_LOG_STATE, TILE_PHYS, TILE_TASKS] kk) (h : Holds
    kk vv md mh mb s) :
    Holds kk vv md mh mb (s.tileMiss k) := by
  simp at hk; unfold State.tileMiss
  repeat' (first
    | (simp (maxDischargeDepth := 60) +contextual [*]; done)
    | simp only [holds_mk, holdsOf_parts]
    | with_reducible refine keep_foldl _ (fun t x ht => ?_) ?_
    | with_reducible refine keep_foldl_fst _ (fun t b x ht => ?_) ?_
    | with_reducible refine keep_ite (fun _ => ?_) (fun _ => ?_)
    | split | with_reducible refine keep_fst ?_ (by assumption) | with_reducible refine keep_snd ?_ (by assumption)
    | dsimp only)

theorem keep_execTileDeadline {dt tile : Nat} {s : State} {t : State} (hk : Out fabricRegs kk ∧ Out declareRegs kk ∧
    Out emcyRegs kk ∧ Out [ISLAND_STATE, PD_STATE, TILE_BLIND_TASKS, TILE_HB_MISS, TILE_LOG_STATE, TILE_PHYS,
    TILE_TASKS, TRACE_HEAD] kk) (h : Holds kk vv none none none s) (e : execTileDeadline dt tile s = .next t) :
    Holds kk vv none none none t := by
  simp at hk; unfold execTileDeadline at e
  refine keep_act ?_ (fun u hu => ?_) e
  · simp [*]
  · repeat' first | (simp (maxDischargeDepth := 60) +contextual [*]; done) | split

@[simp ↓] theorem keep_ackTask {s : State} {k wait : Nat} {t : Task} {o : TaskOut} (hk : Out bookRegs kk ∧ Out
    [TILE_BLIND_TASKS, TILE_BUSY_CLOCKS, TILE_FRAGMENTS, TILE_LOAD_WAIT_NS, TILE_TASKS] kk) (h : Holds kk vv md mh
    mb s) :
    Holds kk vv md mh mb (s.ackTask k wait t o) := by
  simp at hk; unfold State.ackTask; repeat' first | (simp (maxDischargeDepth := 60) +contextual [*]; done) | split

theorem keep_execTaskEnd {dt : Nat} {src : TileSender} {loadWaitNs : Nat} {s : State} {t : State} (hk : Out
    fabricRegs kk ∧ Out declareRegs kk ∧ Out emcyRegs kk ∧ Out [ISLAND_STATE, PD_STATE, TILE_BLIND_TASKS,
    TILE_BUSY_CLOCKS, TILE_FRAGMENTS, TILE_HB_MISS, TILE_LOAD_WAIT_NS, TILE_LOG_STATE, TILE_PHYS, TILE_RUN_OVERFLOW,
    TILE_STALE_RESULT, TILE_TASKS, TRACE_HEAD] kk) (h : Holds kk vv none none none s) (e : execTaskEnd dt src
    loadWaitNs s = .next t) :
    Holds kk vv none none none t := by
  simp at hk; unfold execTaskEnd at e
  refine keep_act ?_ (fun u hu => ?_) e
  · simp [*]
  · repeat' (first
        | (simp (maxDischargeDepth := 60) +contextual [*]; done)
        | with_reducible refine keep_tilesWake ?_ ?_
        | with_reducible refine keep_staleTile ?_ ?_
        | with_reducible refine keep_tileMiss ?_ ?_
        | with_reducible refine keep_fabricSettle ?_ ?_
        | with_reducible refine keep_tally ?_ ?_ ?_
        | with_reducible refine keep_headRun ?_ ?_
        | with_reducible refine keep_ackTask ?_ ?_
        | simp only [holds_mk, holdsOf_parts]
        | with_reducible refine keep_foldl _ (fun t x ht => ?_) ?_
        | with_reducible refine keep_foldl_fst _ (fun t b x ht => ?_) ?_
        | with_reducible refine keep_ite (fun _ => ?_) (fun _ => ?_)
        | split | with_reducible refine keep_fst ?_ (by assumption) | with_reducible refine keep_snd ?_ (by assumption)
        | (intro _; try dsimp only)
        | dsimp only)

theorem keep_execTileHeartbeatTask {dt tile : Nat} {s : State} {t : State} (hk : Out [TILE_LOG_STATE, TRACE_HEAD]
    kk) (h : Holds kk vv md mh mb s) (e : execTileHeartbeatTask dt tile s = .next t) :
    Holds kk vv md mh mb t := by
  simp at hk; unfold execTileHeartbeatTask at e
  refine keep_act ?_ (fun u hu => ?_) e
  · simp [*]
  · repeat' first | (simp (maxDischargeDepth := 60) +contextual [*]; done) | split

@[simp ↓] theorem keep_tilesReady {s : State} (hk : Out logRegs kk ∧ Out bookRegs kk ∧ Out unitRegs kk ∧ Out
    [TILE_LOG_STATE, TILE_PHYS] kk) (h : Holds kk vv md mh mb s) :
    Holds kk vv md mh mb s.tilesReady := by
  simp at hk; unfold State.tilesReady
  repeat' (first
    | (simp (maxDischargeDepth := 60) +contextual [*]; done)
    | simp only [holds_mk, holdsOf_parts]
    | with_reducible refine keep_foldl _ (fun t x ht => ?_) ?_
    | with_reducible refine keep_foldl_fst _ (fun t b x ht => ?_) ?_
    | with_reducible refine keep_ite (fun _ => ?_) (fun _ => ?_)
    | split | with_reducible refine keep_fst ?_ (by assumption) | with_reducible refine keep_snd ?_ (by assumption)
    | dsimp only)

@[simp ↓] theorem keep_flushTiles {s : State} (h : Holds kk vv md mh mb s) : Holds kk vv md mh mb s.flushTiles := by
  unfold State.flushTiles; repeat' first | (simp (maxDischargeDepth := 60) +contextual [*]; done) | split

theorem keep_execTideLoadWindow {dt : Nat} {s : State} {t : State} (hk : Out [TIDE_LOAD_PERMILLE, TRACE_HEAD] kk)
    (h : Holds kk vv md mh mb s) (e : execTideLoadWindow dt s = .next t) :
    Holds kk vv md mh mb t := by
  simp at hk; unfold execTideLoadWindow at e
  refine keep_act ?_ (fun u hu => ?_) e
  · simp [*]
  · repeat' first | (simp (maxDischargeDepth := 60) +contextual [*]; done) | split

@[simp ↓] theorem keep_tileSelftest {s : State} {via : Path} {p : Nat} (hk : Out bookRegs kk ∧ Out [HL_DICT_ERRORS,
    ISLAND_STATE, ISO_ERROR_RESPONSES, PD_STATE, TILE_SELFTEST_RESULT] kk) (h : Holds kk vv md mh mb s) :
    Holds kk vv md mh mb (s.tileSelftest via p) := by
  simp at hk; unfold State.tileSelftest; repeat' first | (simp (maxDischargeDepth := 60) +contextual [*]; done) | split

theorem keep_execTileSelftest {dt : Nat} {via : Path} {phys : Nat} {s : State} {t : State} (hk : Out bookRegs kk ∧
    Out [HL_DICT_ERRORS, ISLAND_STATE, ISO_ERROR_RESPONSES, PD_STATE, TILE_SELFTEST_RESULT, TRACE_HEAD] kk) (h :
    Holds kk vv md mh mb s) (e : execTileSelftest dt via phys s = .next t) :
    Holds kk vv md mh mb t := by
  simp at hk; unfold execTileSelftest at e
  refine keep_act ?_ (fun u hu => ?_) e
  · simp [*]
  · repeat' first | (simp (maxDischargeDepth := 60) +contextual [*]; done) | split

theorem keep_execTileSelftestDone {dt : Nat} {pass : Bool} {s : State} {t : State} (hk : Out logRegs kk ∧ Out
    bookRegs kk ∧ Out unitRegs kk ∧ Out [ISLAND_STATE, PD_STATE, TILE_SELFTEST_RESULT, TRACE_HEAD] kk) (h : Holds
    kk vv md mh mb s) (e : execTileSelftestDone dt pass s = .next t) :
    Holds kk vv md mh mb t := by
  simp at hk; unfold execTileSelftestDone at e
  refine keep_act ?_ (fun u hu => ?_) e
  · simp [*]
  · repeat' first | (simp (maxDischargeDepth := 60) +contextual [*]; done) | split

theorem keep_execSpareTileCheck {dt phys : Nat} {s : State} {t : State} (hk : Out [TRACE_HEAD] kk) (h : Holds kk
    vv md mh mb s) (e : execSpareTileCheck dt phys s = .next t) :
    Holds kk vv md mh mb t := by
  simp at hk; unfold execSpareTileCheck at e
  refine keep_act ?_ (fun u hu => ?_) e
  · simp [*]
  · repeat' first | (simp (maxDischargeDepth := 60) +contextual [*]; done) | split

theorem keep_execSpareTileCheckDone {dt phys : Nat} {pass : Bool} {s : State} {t : State} (hk : Out logRegs kk ∧ Out
    bookRegs kk ∧ Out unitRegs kk ∧ Out [ISLAND_STATE, PD_STATE, TRACE_HEAD] kk) (h : Holds kk vv md mh mb s) (e :
    execSpareTileCheckDone dt phys pass s = .next t) :
    Holds kk vv md mh mb t := by
  simp at hk; unfold execSpareTileCheckDone at e
  refine keep_act ?_ (fun u hu => ?_) e
  · simp [*]
  · repeat' first | (simp (maxDischargeDepth := 60) +contextual [*]; done) | split

@[simp ↓] theorem keep_fabricClear {s : State} {via : Path} (hk : Out bookRegs kk ∧ Out [HL_DICT_ERRORS,
    TILE_BLIND_TASKS, TILE_HB_MISS, TILE_RUN_OVERFLOW, TILE_STALE_RESULT] kk) (h : Holds kk vv md mh mb s) :
    Holds kk vv md mh mb (s.fabricClear via) := by
  simp at hk; unfold State.fabricClear; repeat' first | (simp (maxDischargeDepth := 60) +contextual [*]; done) | split

theorem keep_execFabricClear {dt : Nat} {via : Path} {s : State} {t : State} (hk : Out bookRegs kk ∧ Out
    [HL_DICT_ERRORS, TILE_BLIND_TASKS, TILE_HB_MISS, TILE_RUN_OVERFLOW, TILE_STALE_RESULT, TRACE_HEAD] kk) (h :
    Holds kk vv md mh mb s) (e : execFabricClear dt via s = .next t) :
    Holds kk vv md mh mb t := by
  simp at hk; unfold execFabricClear at e
  refine keep_act ?_ (fun u hu => ?_) e
  · simp [*]
  · repeat' first | (simp (maxDischargeDepth := 60) +contextual [*]; done) | split

end Sys2Proof.Machine
end

