-- ==== Sys2Proof/Laws/KeepWharf.lean ====
section
/-! SUPPORT. Laws/KeepWharf.lean: what the operations and commands leave alone, of Machine/Wharf.lean. -/
namespace Sys2Proof.Machine
open Reg
variable {kk : Key} {vv : Option Nat} {md mh : Option Memory} {mb : Option Blobs}

@[simp ↓] theorem keep_modJob {s : State} {n : Nat} {f : Job → Job} (h : Holds kk vv md mh mb s) :
    Holds kk vv md mh mb (s.modJob n f) := by
  unfold State.modJob; repeat' first | (simp (maxDischargeDepth := 60) +contextual [*]; done) | split

@[simp ↓] theorem keep_jobTo {s : State} {n st : Nat} (hk : Out [WH_STATUS] kk) (h : Holds kk vv md mh mb s) :
    Holds kk vv md mh mb (s.jobTo n st) := by
  simp at hk; unfold State.jobTo; repeat' first | (simp (maxDischargeDepth := 60) +contextual [*]; done) | split

@[simp ↓] theorem keep_turnStart {s : State} {n : Nat} (h : Holds kk vv md mh mb s) :
    Holds kk vv md mh mb (s.turnStart n) := by
  unfold State.turnStart; repeat' first | (simp (maxDischargeDepth := 60) +contextual [*]; done) | split

@[simp ↓] theorem keep_grant {s : State} (hk : Out [CMP_ENGINES_BUSY, WH_STATUS] kk) (h : Holds kk vv md mh mb s) :
    Holds kk vv md mh mb s.grant := by
  simp at hk; unfold State.grant
  repeat' (first
    | (simp (maxDischargeDepth := 60) +contextual [*]; done)
    | with_reducible refine keep_jobTo ?_ ?_
    | with_reducible refine keep_set ?_ ?_
    | simp only [holds_mk, holdsOf_parts]
    | with_reducible refine keep_foldl _ (fun t x ht => ?_) ?_
    | with_reducible refine keep_foldl_fst _ (fun t b x ht => ?_) ?_
    | with_reducible refine keep_ite (fun _ => ?_) (fun _ => ?_)
    | split | with_reducible refine keep_fst ?_ (by assumption) | with_reducible refine keep_snd ?_ (by assumption)
    | (intro _; try dsimp only)
    | dsimp only)

@[simp ↓] theorem keep_jobEnds {s : State} {n code : Nat} (hk : Out bookRegs kk ∧ Out [CMP_ENGINES_BUSY, CMP_FAIL,
    WH_STATUS] kk) (h : Holds kk vv md mh mb s) :
    Holds kk vv md mh mb (s.jobEnds n code) := by
  simp at hk; unfold State.jobEnds; repeat' first | (simp (maxDischargeDepth := 60) +contextual [*]; done) | split

@[simp ↓] theorem keep_spaceWrite {s : State} {f space a : Nat} {bs : List Byte} (hk : Out [WHARF_HOST_WR_BYTES]
    kk) (h : Holds kk vv none none mb s) :
    Holds kk vv none none mb (s.spaceWrite f space a bs) := by
  simp at hk; unfold State.spaceWrite; repeat' first | (simp (maxDischargeDepth := 60) +contextual [*]; done) | split

@[simp ↓] theorem keep_copyRows {s : State} {n : Nat} {j : Job} {host : Option (List Byte)} {a b : Nat} (hk : Out
    [WHARF_HOST_RD_BYTES, WHARF_HOST_WR_BYTES] kk) (h : Holds kk vv none none mb s) :
    Holds kk vv none none mb (s.copyRows n j host a b) := by
  simp at hk; unfold State.copyRows; repeat' first | (simp (maxDischargeDepth := 60) +contextual [*]; done) | split

@[simp ↓] theorem keep_spoil {s : State} {n : Nat} {j : Job} (h : Holds kk vv none none mb s) :
    Holds kk vv none none mb (s.spoil n j) := by
  have hf : Holds kk vv none none mb s.fresh.2 := keep_fresh h
  unfold State.spoil
  generalize s.fresh = fr at hf ⊢
  extract_lets d base
  split
  · exact keep_foldl _ (fun t x ht => keep_dramWrite ht) hf
  · exact ⟨hf.reg, fun _ e => (by cases e), fun _ e => (by cases e), hf.blob⟩

@[simp ↓] theorem keep_turnServed {s : State} {m : Nat} {b : Job} {k : Nat} (hk : Out [WHARF_HOST_RD_BYTES,
    WHARF_HOST_WR_BYTES, WH_PROGRESS_ROWS] kk) (h : Holds kk vv none none mb s) :
    Holds kk vv none none mb (s.turnServed m b k) := by
  simp at hk; unfold State.turnServed; repeat' first | (simp (maxDischargeDepth := 60) +contextual [*]; done) | split

@[simp ↓] theorem keep_turnsServe {s : State} {seen : List (Nat × Nat)} {n : Nat} (hk : Out [WHARF_HOST_RD_BYTES,
    WHARF_HOST_WR_BYTES, WH_PROGRESS_ROWS] kk) (h : Holds kk vv none none mb s) :
    Holds kk vv none none mb (s.turnsServe seen n) := by
  simp at hk; unfold State.turnsServe
  repeat' (first
    | (simp (maxDischargeDepth := 60) +contextual [*]; done)
    | simp only [holds_mk, holdsOf_parts]
    | with_reducible refine keep_foldl _ (fun t x ht => ?_) ?_
    | with_reducible refine keep_foldl_fst _ (fun t b x ht => ?_) ?_
    | with_reducible refine keep_ite (fun _ => ?_) (fun _ => ?_)
    | split | with_reducible refine keep_fst ?_ (by assumption) | with_reducible refine keep_snd ?_ (by assumption)
    | dsimp only)

@[simp ↓] theorem keep_copyStops {s : State} {n : Nat} {j : Job} {rows : Nat} (hk : Out [WHARF_HOST_RD_BYTES,
    WHARF_HOST_WR_BYTES] kk) (h : Holds kk vv none none mb s) :
    Holds kk vv none none mb (s.copyStops n j rows) := by
  simp at hk; unfold State.copyStops; repeat' first | (simp (maxDischargeDepth := 60) +contextual [*]; done) | split

@[simp ↓] theorem keep_jobCut {s : State} {n code : Nat} (hk : Out bookRegs kk ∧ Out [CMP_ENGINES_BUSY, CMP_FAIL,
    WHARF_HOST_RD_BYTES, WHARF_HOST_WR_BYTES, WH_PROGRESS_ROWS, WH_STATUS] kk) (h : Holds kk vv none none mb s) :
    Holds kk vv none none mb (s.jobCut n code) := by
  simp at hk; unfold State.jobCut; repeat' first | (simp (maxDischargeDepth := 60) +contextual [*]; done) | split

@[simp ↓] theorem keep_archCut {s : State} {code : Nat} (hk : Out [WH_STATUS] kk) (h : Holds kk vv md mh mb s) :
    Holds kk vv md mh mb (s.archCut code) := by
  simp at hk; unfold State.archCut; repeat' first | (simp (maxDischargeDepth := 60) +contextual [*]; done) | split

@[simp ↓] theorem keep_ownCut {s : State} {code : Nat} (hk : Out [WH_STATUS] kk) (h : Holds kk vv md mh mb s) :
    Holds kk vv md mh mb (s.ownCut code) := by
  simp at hk; unfold State.ownCut; repeat' first | (simp (maxDischargeDepth := 60) +contextual [*]; done) | split

@[simp ↓] theorem keep_jobsCut {s : State} {code : Nat} (hk : Out bookRegs kk ∧ Out [CMP_ENGINES_BUSY, CMP_FAIL,
    WHARF_HOST_RD_BYTES, WHARF_HOST_WR_BYTES, WH_PROGRESS_ROWS, WH_STATUS] kk) (h : Holds kk vv none none mb s) :
    Holds kk vv none none mb (s.jobsCut code) := by
  simp at hk; unfold State.jobsCut; repeat' first | (simp (maxDischargeDepth := 60) +contextual [*]; done) | split

@[simp ↓] theorem keep_jobPoisoned {s : State} {n : Nat} (hk : Out bookRegs kk ∧ Out [CMP_ENGINES_BUSY, CMP_FAIL,
    WHARF_HOST_RD_BYTES, WHARF_HOST_WR_BYTES, WH_PROGRESS_ROWS, WH_STATUS] kk) (h : Holds kk vv none none mb s) :
    Holds kk vv none none mb (s.jobPoisoned n) := by
  simp at hk; unfold State.jobPoisoned; repeat' first | (simp (maxDischargeDepth := 60) +contextual [*]; done) | split

@[simp ↓] theorem keep_archPoisoned {s : State} {v : Nat} (hk : Out bookRegs kk ∧ Out [CMP_FAIL, WH_STATUS] kk) (h :
    Holds kk vv md mh mb s) :
    Holds kk vv md mh mb (s.archPoisoned v) := by
  simp at hk; unfold State.archPoisoned; repeat' first | (simp (maxDischargeDepth := 60) +contextual [*]; done) | split

@[simp ↓] theorem keep_loadPoisoned {s : State} (hk : Out bookRegs kk ∧ Out [CMP_FAIL, WH_STATUS] kk) (h : Holds kk
    vv md mh mb s) :
    Holds kk vv md mh mb s.loadPoisoned := by
  simp at hk; unfold State.loadPoisoned; repeat' first | (simp (maxDischargeDepth := 60) +contextual [*]; done) | split

@[simp ↓] theorem keep_chanPoisoned {s : State} {n : Nat} (hk : Out bookRegs kk ∧ Out [CMP_ENGINES_BUSY, CMP_FAIL,
    WHARF_HOST_RD_BYTES, WHARF_HOST_WR_BYTES, WH_PROGRESS_ROWS, WH_STATUS] kk) (h : Holds kk vv none none mb s) :
    Holds kk vv none none mb (s.chanPoisoned n) := by
  simp at hk; unfold State.chanPoisoned; repeat' first | (simp (maxDischargeDepth := 60) +contextual [*]; done) | split

@[simp ↓] theorem keep_rowsSeen {s : State} {n : Nat} (hk : Out [WH_PROGRESS_ROWS] kk) (h : Holds kk vv md mh mb s)
    :
    Holds kk vv md mh mb (s.rowsSeen n) := by
  simp at hk; unfold State.rowsSeen; repeat' first | (simp (maxDischargeDepth := 60) +contextual [*]; done) | split

@[simp ↓] theorem keep_whStart {s : State} {via : Path} {n : Nat} (hk : Out bookRegs kk ∧ Out [CMP_ENGINES_BUSY,
    HL_DICT_ERRORS, WH_PROGRESS_ROWS, WH_STATUS] kk) (h : Holds kk vv md mh mb s) :
    Holds kk vv md mh mb (s.whStart via n) := by
  simp at hk; unfold State.whStart; repeat' first | (simp (maxDischargeDepth := 60) +contextual [*]; done) | split

theorem keep_execWhStart {dt : Nat} {via : Path} {chan : Nat} {s : State} {t : State} (hk : Out bookRegs kk ∧ Out
    [CMP_ENGINES_BUSY, HL_DICT_ERRORS, TRACE_HEAD, WH_PROGRESS_ROWS, WH_STATUS] kk) (h : Holds kk vv md mh mb s)
    (e : execWhStart dt via chan s = .next t) :
    Holds kk vv md mh mb t := by
  simp at hk; unfold execWhStart at e
  refine keep_act ?_ (fun u hu => ?_) e
  · simp [*]
  · repeat' first | (simp (maxDischargeDepth := 60) +contextual [*]; done) | split

@[simp ↓] theorem keep_whAbort {s : State} {via : Path} {n : Nat} (hk : Out bookRegs kk ∧ Out [CMP_ENGINES_BUSY,
    CMP_FAIL, HL_DICT_ERRORS, WHARF_HOST_RD_BYTES, WHARF_HOST_WR_BYTES, WH_PROGRESS_ROWS, WH_STATUS] kk) (h :
    Holds kk vv none none mb s) :
    Holds kk vv none none mb (s.whAbort via n) := by
  simp at hk; unfold State.whAbort; repeat' first | (simp (maxDischargeDepth := 60) +contextual [*]; done) | split

theorem keep_execWhAbort {dt : Nat} {via : Path} {chan : Nat} {s : State} {t : State} (hk : Out bookRegs kk ∧ Out
    [CMP_ENGINES_BUSY, CMP_FAIL, HL_DICT_ERRORS, TRACE_HEAD, WHARF_HOST_RD_BYTES, WHARF_HOST_WR_BYTES,
    WH_PROGRESS_ROWS, WH_STATUS] kk) (h : Holds kk vv none none mb s) (e : execWhAbort dt via chan s = .next t) :
    Holds kk vv none none mb t := by
  simp at hk; unfold execWhAbort at e
  refine keep_act ?_ (fun u hu => ?_) e
  · simp [*]
  · repeat' first | (simp (maxDischargeDepth := 60) +contextual [*]; done) | split

@[simp ↓] theorem keep_whFlush {s : State} {via : Path} {n consumed : Nat} (hk : Out bookRegs kk ∧ Out
    [HL_DICT_ERRORS] kk) (h : Holds kk vv md mh mb s) :
    Holds kk vv md mh mb (s.whFlush via n consumed) := by
  simp at hk; unfold State.whFlush
  repeat' (first
    | (simp (maxDischargeDepth := 60) +contextual [*]; done)
    | with_reducible refine keep_command ?_ ?_ ?_
    | with_reducible refine keep_modJob ?_
    | simp only [holds_mk, holdsOf_parts]
    | with_reducible refine keep_foldl _ (fun t x ht => ?_) ?_
    | with_reducible refine keep_foldl_fst _ (fun t b x ht => ?_) ?_
    | with_reducible refine keep_ite (fun _ => ?_) (fun _ => ?_)
    | split | with_reducible refine keep_fst ?_ (by assumption) | with_reducible refine keep_snd ?_ (by assumption)
    | (intro _; try dsimp only)
    | dsimp only)

theorem keep_execWhFlush {dt : Nat} {via : Path} {chan consumed : Nat} {s : State} {t : State} (hk : Out bookRegs
    kk ∧ Out [HL_DICT_ERRORS, TRACE_HEAD] kk) (h : Holds kk vv md mh mb s) (e : execWhFlush dt via chan consumed s
    = .next t) :
    Holds kk vv md mh mb t := by
  simp at hk; unfold execWhFlush at e
  refine keep_act ?_ (fun u hu => ?_) e
  · simp [*]
  · repeat' first | (simp (maxDischargeDepth := 60) +contextual [*]; done) | split

@[simp ↓] theorem keep_whRestart {s : State} {via : Path} {settled : Bool} (hk : Out bookRegs kk ∧ Out
    [CMP_ENGINES_BUSY, HL_DICT_ERRORS, RING_FRAMES, RING_OVERSIZE, RING_STAGED_BYTES, WHARF_HOST_WR_BYTES,
    WH_ALL_STOPPED, WH_PROGRESS_ROWS, WH_STATUS] kk) (h : Holds kk vv md none mb s) :
    Holds kk vv md none mb (s.whRestart via settled) := by
  simp at hk; unfold State.whRestart; repeat' first | (simp (maxDischargeDepth := 60) +contextual [*]; done) | split

theorem keep_execWhRestart {dt : Nat} {via : Path} {settled : Bool} {s : State} {t : State} (hk : Out bookRegs kk
    ∧ Out [CMP_ENGINES_BUSY, HL_DICT_ERRORS, RING_FRAMES, RING_OVERSIZE, RING_STAGED_BYTES, TRACE_HEAD,
    WHARF_HOST_WR_BYTES, WH_ALL_STOPPED, WH_PROGRESS_ROWS, WH_STATUS] kk) (h : Holds kk vv md none mb s) (e :
    execWhRestart dt via settled s = .next t) :
    Holds kk vv md none mb t := by
  simp at hk; unfold execWhRestart at e
  refine keep_act ?_ (fun u hu => ?_) e
  · simp [*]
  · repeat' first | (simp (maxDischargeDepth := 60) +contextual [*]; done) | split

theorem keep_execWhBusError {dt : Nat} {kind : BusError} {addr : Option Nat} {progress : List Nat} {s : State} {t
    : State} (hk : Out bookRegs kk ∧ Out [CMP_ENGINES_BUSY, TRACE_HEAD, WHARF_HOST_RD_BYTES, WHARF_HOST_WR_BYTES,
    WH_ALL_STOPPED, WH_BUS_ERR, WH_ERR_ADDR, WH_ERR_INFO, WH_PROGRESS_ROWS, WH_STATUS] kk) (h : Holds kk vv none
    none mb s) (e : execWhBusError dt kind addr progress s = .next t) :
    Holds kk vv none none mb t := by
  simp at hk; unfold execWhBusError at e
  refine keep_act ?_ (fun u hu => ?_) e
  · simp [*]
  · repeat' first | (simp (maxDischargeDepth := 60) +contextual [*]; done) | split

@[simp ↓] theorem keep_compressDone {s : State} {n : Nat} {j : Job} {host : List Byte} (hk : Out bookRegs kk ∧ Out
    [CMP_BYTES_IN, CMP_BYTES_OUT, CMP_ENGINES_BUSY, CMP_FAIL, WHARF_HOST_RD_BYTES, WHARF_HOST_WR_BYTES,
    WH_DST_COMMIT, WH_PROGRESS_ROWS, WH_STATUS] kk) (h : Holds kk vv none none mb s) :
    Holds kk vv none none mb (s.compressDone n j host) := by
  simp at hk; unfold State.compressDone; repeat' first | (simp (maxDischargeDepth := 60) +contextual [*]; done) | split

@[simp ↓] theorem keep_decompressDone {s : State} {n : Nat} {j : Job} {host : List Byte} (hk : Out bookRegs kk ∧
    Out [CMP_ENGINES_BUSY, CMP_FAIL, WHARF_HOST_RD_BYTES, WHARF_HOST_WR_BYTES, WH_DST_COMMIT, WH_ERR_OFFSET,
    WH_PROGRESS_ROWS, WH_STATUS] kk) (h : Holds kk vv none none mb s) :
    Holds kk vv none none mb (s.decompressDone n j host) := by
  simp at hk; unfold State.decompressDone
  repeat' (first
    | (simp (maxDischargeDepth := 60) +contextual [*]; done)
    | simp only [holds_mk, holdsOf_parts]
    | with_reducible refine keep_foldl _ (fun t x ht => ?_) ?_
    | with_reducible refine keep_foldl_fst _ (fun t b x ht => ?_) ?_
    | with_reducible refine keep_ite (fun _ => ?_) (fun _ => ?_)
    | split | with_reducible refine keep_fst ?_ (by assumption) | with_reducible refine keep_snd ?_ (by assumption)
    | dsimp only)

@[simp ↓] theorem keep_archiveNext {s : State} {v a2 : Nat} (hk : Out bookRegs kk ∧ Out [ARCHIVE_GAPS,
    ARCHIVE_SPACE_WAIT, ARCHIVE_STRIPS, CMP_BYTES_IN, CMP_BYTES_OUT, CMP_FAIL, RING_DROP, RING_FRAMES,
    RING_OVERSIZE, RING_STAGED_BYTES, WHARF_HOST_WR_BYTES, WH_STATUS] kk) (h : Holds kk vv md none mb s) :
    Holds kk vv md none mb (s.archiveNext v a2) := by
  simp at hk
  induction a2 generalizing s v with
  | zero => unfold State.archiveNext; repeat' first | (simp (maxDischargeDepth := 60) +contextual [*]; done) | split
  | succ n ih => unfold State.archiveNext; repeat' first | (simp (maxDischargeDepth := 60) +contextual [*]; done) | split

@[simp ↓] theorem keep_cropNext {s : State} (hk : Out bookRegs kk ∧ Out [CROP_EVICTED, RING_DROP, RING_FRAMES,
    RING_OVERSIZE, RING_STAGED_BYTES, WHARF_HOST_WR_BYTES] kk) (h : Holds kk vv md none mb s) :
    Holds kk vv md none mb s.cropNext := by
  simp at hk; unfold State.cropNext; repeat' first | (simp (maxDischargeDepth := 60) +contextual [*]; done) | split

@[simp ↓] theorem keep_serveHigh {s : State} (hk : Out bookRegs kk ∧ Out [CROP_EVICTED, RING_DROP, RING_FRAMES,
    RING_OVERSIZE, RING_STAGED_BYTES, WHARF_HOST_WR_BYTES] kk) (h : Holds kk vv md none mb s) :
    Holds kk vv md none mb s.serveHigh := by
  simp at hk; unfold State.serveHigh; repeat' first | (simp (maxDischargeDepth := 60) +contextual [*]; done) | split

@[simp ↓] theorem keep_serveArchive {s : State} (hk : Out bookRegs kk ∧ Out [ARCHIVE_GAPS, ARCHIVE_SPACE_WAIT,
    ARCHIVE_STRIPS, CMP_BYTES_IN, CMP_BYTES_OUT, CMP_ENGINES_BUSY, CMP_FAIL, RING_DROP, RING_FRAMES, RING_OVERSIZE,
    RING_STAGED_BYTES, WHARF_HOST_WR_BYTES, WH_STATUS] kk) (h : Holds kk vv md none mb s) :
    Holds kk vv md none mb s.serveArchive := by
  simp at hk; unfold State.serveArchive; repeat' first | (simp (maxDischargeDepth := 60) +contextual [*]; done) | split

theorem keep_execWhJobDone {dt chan : Nat} {host : List Nat} {s : State} {t : State} (hk : Out bookRegs kk ∧ Out
    [ARCHIVE_GAPS, ARCHIVE_SPACE_WAIT, ARCHIVE_STRIPS, CMP_BYTES_IN, CMP_BYTES_OUT, CMP_ENGINES_BUSY, CMP_FAIL,
    CROP_EVICTED, RING_DROP, RING_FRAMES, RING_OVERSIZE, RING_STAGED_BYTES, TRACE_HEAD, WHARF_HOST_RD_BYTES,
    WHARF_HOST_WR_BYTES, WH_DST_COMMIT, WH_ERR_OFFSET, WH_PROGRESS_ROWS, WH_STATUS] kk) (h : Holds kk vv none none
    mb s) (e : execWhJobDone dt chan host s = .next t) :
    Holds kk vv none none mb t := by
  simp at hk; unfold execWhJobDone at e
  refine keep_act ?_ (fun u hu => ?_) e
  · simp [*]
  · repeat' first | (simp (maxDischargeDepth := 60) +contextual [*]; done) | split

@[simp ↓] theorem keep_whClear {s : State} {via : Path} (hk : Out bookRegs kk ∧ Out [HL_DICT_ERRORS, WH_BUS_ERR]
    kk) (h : Holds kk vv md mh mb s) :
    Holds kk vv md mh mb (s.whClear via) := by
  simp at hk; unfold State.whClear; repeat' first | (simp (maxDischargeDepth := 60) +contextual [*]; done) | split

theorem keep_execWhClear {dt : Nat} {via : Path} {s : State} {t : State} (hk : Out bookRegs kk ∧ Out
    [HL_DICT_ERRORS, TRACE_HEAD, WH_BUS_ERR] kk) (h : Holds kk vv md mh mb s) (e : execWhClear dt via s = .next t) :
    Holds kk vv md mh mb t := by
  simp at hk; unfold execWhClear at e
  refine keep_act ?_ (fun u hu => ?_) e
  · simp [*]
  · repeat' first | (simp (maxDischargeDepth := 60) +contextual [*]; done) | split

@[simp ↓] theorem keep_cmpClear {s : State} {via : Path} (hk : Out bookRegs kk ∧ Out [ARCHIVE_GAPS,
    ARCHIVE_SPACE_WAIT, CMP_FAIL, HL_DICT_ERRORS] kk) (h : Holds kk vv md mh mb s) :
    Holds kk vv md mh mb (s.cmpClear via) := by
  simp at hk; unfold State.cmpClear; repeat' first | (simp (maxDischargeDepth := 60) +contextual [*]; done) | split

theorem keep_execCmpClear {dt : Nat} {via : Path} {s : State} {t : State} (hk : Out bookRegs kk ∧ Out
    [ARCHIVE_GAPS, ARCHIVE_SPACE_WAIT, CMP_FAIL, HL_DICT_ERRORS, TRACE_HEAD] kk) (h : Holds kk vv md mh mb s) (e :
    execCmpClear dt via s = .next t) :
    Holds kk vv md mh mb t := by
  simp at hk; unfold execCmpClear at e
  refine keep_act ?_ (fun u hu => ?_) e
  · simp [*]
  · repeat' first | (simp (maxDischargeDepth := 60) +contextual [*]; done) | split

end Sys2Proof.Machine
end

