-- ==== Sys2Proof/Laws/KeepDram.lean ====
section
/-! SUPPORT. Laws/KeepDram.lean: what the operations and commands leave alone, of Machine/Dram.lean. -/
namespace Sys2Proof.Machine
open Reg
variable {kk : Key} {vv : Option Nat} {md mh : Option Memory} {mb : Option Blobs}

@[simp ↓] theorem keep_physTileDead {s : State} {p : Nat} (hk : Out declareRegs kk ∧ Out emcyRegs kk ∧ Out
    [ISLAND_STATE, PD_STATE, TILE_BLIND_TASKS, TILE_LOG_STATE, TILE_PHYS, TILE_TASKS] kk) (h : Holds kk vv md mh mb
    s) :
    Holds kk vv md mh mb (s.physTileDead p) := by
  simp at hk; unfold State.physTileDead; repeat' first | (simp (maxDischargeDepth := 60) +contextual [*]; done) | split

@[simp ↓] theorem keep_physEaselDead {s : State} {p : Nat} (hk : Out declareRegs kk ∧ Out emcyRegs kk ∧ Out
    [EASEL_PHYS, EASEL_STATE, ISLAND_STATE, LINES_LATE, LINES_SUBSTITUTED, PD_STATE, RING_DROP, RING_FRAMES,
    RING_OVERSIZE, RING_STAGED_BYTES, TRIM_ABANDONED, TRIM_BUSY_BAY, TRIM_LAST_RESULT, TRIM_LAST_STRIP,
    WHARF_HOST_WR_BYTES] kk) (h : Holds kk vv md none mb s) :
    Holds kk vv md none mb (s.physEaselDead p) := by
  simp at hk; unfold State.physEaselDead; repeat' first | (simp (maxDischargeDepth := 60) +contextual [*]; done) | split

@[simp ↓] theorem keep_dropSeg {s : State} {b : Nat} (hk : Out bookRegs kk ∧ Out [CAM_SEAM_GAIN_L, CAM_SEAM_GAIN_N,
    CANVAS_RELEASED_STRIP, CMP_ENGINES_BUSY, SEAM_GAIN_LIMIT, WH_STATUS] kk) (h : Holds kk vv none mh mb s) :
    Holds kk vv none mh mb (s.dropSeg b) := by
  simp at hk; unfold State.dropSeg; repeat' first | (simp (maxDischargeDepth := 60) +contextual [*]; done) | split

@[simp ↓] theorem keep_poisonTrace {s : State} {i : Nat} (h : Holds kk vv md mh mb s) :
    Holds kk vv md mh mb (s.poisonTrace i) := by
  unfold State.poisonTrace; repeat' first | (simp (maxDischargeDepth := 60) +contextual [*]; done) | split

theorem keep_execSramUncorrectable {dt region unit : Nat} {s : State} {t : State} (hk : Out fabricRegs kk ∧ Out
    unitRegs kk ∧ Out epochRegs kk ∧ Out emcyRegs kk ∧ Out [CAM_SEAM_GAIN_L, CAM_SEAM_GAIN_N,
    CANVAS_RELEASED_STRIP, CMP_ENGINES_BUSY, CMP_FAIL, EASEL_PHYS, EASEL_STATE, ISLAND_STATE, LINES_LATE,
    LINES_SUBSTITUTED, PD_STATE, REG_CAPTURES, SEAM_GAIN_LIMIT, SRAM_UE, SRAM_UE_LAST_REGION, TILE_BLIND_TASKS,
    TILE_LOG_STATE, TILE_PHYS, TILE_TASKS, TRACE_HEAD, TRIM_ABANDONED, TRIM_BUSY_BAY, TRIM_LAST_RESULT,
    TRIM_LAST_STRIP, WH_STATUS] kk) (h : Holds kk vv none none none s) (e : execSramUncorrectable dt region unit s
    = .next t) :
    Holds kk vv none none none t := by
  simp at hk; unfold execSramUncorrectable at e
  refine keep_act ?_ (fun u hu => ?_) e
  · simp [*]
  · repeat' (first
        | (simp (maxDischargeDepth := 60) +contextual [*]; done)
        | simp only [holds_mk, holdsOf_parts]
        | with_reducible refine keep_foldl _ (fun t x ht => ?_) ?_
        | with_reducible refine keep_foldl_fst _ (fun t b x ht => ?_) ?_
        | with_reducible refine keep_ite (fun _ => ?_) (fun _ => ?_)
        | split | with_reducible refine keep_fst ?_ (by assumption) | with_reducible refine keep_snd ?_ (by assumption)
        | dsimp only)

theorem keep_execSramScrub {dt region unit corrected : Nat} {s : State} {t : State} (hk : Out logRegs kk ∧ Out
    bookRegs kk ∧ Out unitRegs kk ∧ Out [ISLAND_STATE, PD_STATE, SRAM_CE, TRACE_HEAD] kk) (h : Holds kk vv md mh mb
    s) (e : execSramScrub dt region unit corrected s = .next t) :
    Holds kk vv md mh mb t := by
  simp at hk; unfold execSramScrub at e
  refine keep_act ?_ (fun u hu => ?_) e
  · simp [*]
  · repeat' first | (simp (maxDischargeDepth := 60) +contextual [*]; done) | split

@[simp ↓] theorem keep_loseView {s : State} {v : Nat} (hk : Out bookRegs kk ∧ Out [REG_CAPTURES, REG_UP_PRESENT]
    kk) (h : Holds kk vv md mh mb s) :
    Holds kk vv md mh mb (s.loseView v) := by
  simp at hk; unfold State.loseView; repeat' first | (simp (maxDischargeDepth := 60) +contextual [*]; done) | split

@[simp ↓] theorem keep_loseQuays {s : State} (hk : Out bookRegs kk ∧ Out [EASEL_QUAY_DROP, EASEL_QUAY_FILL,
    EASEL_QUAY_PEAK] kk) (h : Holds kk vv md mh mb s) :
    Holds kk vv md mh mb s.loseQuays := by
  simp at hk; unfold State.loseQuays; repeat' first | (simp (maxDischargeDepth := 60) +contextual [*]; done) | split

@[simp ↓] theorem keep_loseStaging {s : State} (hk : Out [SWITCH_RESULT, SWITCH_STATE] kk) (h : Holds kk vv md mh
    mb s) :
    Holds kk vv md mh mb s.loseStaging := by
  simp at hk; unfold State.loseStaging; repeat' first | (simp (maxDischargeDepth := 60) +contextual [*]; done) | split

@[simp ↓] theorem keep_loseScratch {s : State} (hk : Out bookRegs kk ∧ Out [CMP_ENGINES_BUSY, CMP_FAIL,
    WHARF_HOST_RD_BYTES, WHARF_HOST_WR_BYTES, WH_PROGRESS_ROWS, WH_STATUS] kk) (h : Holds kk vv none none mb s) :
    Holds kk vv none none mb s.loseScratch := by
  simp at hk; unfold State.loseScratch; repeat' first | (simp (maxDischargeDepth := 60) +contextual [*]; done) | split

@[simp ↓] theorem keep_loseChannel {s : State} {ch : Nat} (hk : Out bookRegs kk ∧ Out emcyRegs kk ∧ Out
    [ARCHIVE_GAPS, CANVAS_ARCHIVE_EVICT, CANVAS_CROP_EVICT, CANVAS_OVERRUN, CMP_ENGINES_BUSY, CMP_FAIL,
    EASEL_QUAY_DROP, EASEL_QUAY_FILL, EASEL_QUAY_PEAK, REG_CAPTURES, REG_LEARN_STATE, REG_UP_PRESENT, RING_DROP,
    RING_FRAMES, RING_OVERSIZE, RING_STAGED_BYTES, SWITCH_RESULT, SWITCH_STATE, WHARF_HOST_RD_BYTES,
    WHARF_HOST_WR_BYTES, WH_PROGRESS_ROWS, WH_STATUS] kk) (h : Holds kk vv none none mb s) :
    Holds kk vv none none mb (s.loseChannel ch) := by
  simp at hk
  unfold State.loseChannel
  have h1 : Holds kk vv none none mb s.learnAbort.loseStaging.loseQuays := by simp (maxDischargeDepth := 60) [*]
  generalize s.learnAbort.loseStaging.loseQuays = t at h1 ⊢
  have h2 : Holds kk vv none none mb ((List.range 4).foldl (fun u v => u.reclaimAll v) t) :=
    keep_foldl _ (fun t x ht => by simp (maxDischargeDepth := 60) [*]) h1
  simp only
  generalize (List.range 4).foldl (fun u v => u.reclaimAll v) t = t1 at h2 ⊢
  have h3 : Holds kk vv none none mb ((List.range 4).foldl (fun u v => u.loseView v) t1.loseScratch) :=
    keep_foldl _ (fun t x ht => by simp (maxDischargeDepth := 60) [*]) (by simp (maxDischargeDepth := 60) [*])
  exact ⟨h3.reg, fun _ e => (by cases e), fun _ e => (by cases e), h3.blob⟩

@[simp ↓] theorem keep_migrateFails {s : State} (hk : Out [DRAM_MIGRATE_STATE] kk) (h : Holds kk vv md mh mb s) :
    Holds kk vv md mh mb s.migrateFails := by
  simp at hk; unfold State.migrateFails; repeat' first | (simp (maxDischargeDepth := 60) +contextual [*]; done) | split

@[simp ↓] theorem keep_dramDead {s : State} {p : Nat} (hk : Out lostRegs kk) (h : Holds kk vv none none none s) :
    Holds kk vv none none none (s.dramDead p) := by
  simp at hk; unfold State.dramDead
  repeat' (first
    | (simp (maxDischargeDepth := 60) +contextual [*]; done)
    | simp only [holds_mk, holdsOf_parts]
    | with_reducible refine keep_foldl _ (fun t x ht => ?_) ?_
    | with_reducible refine keep_foldl_fst _ (fun t b x ht => ?_) ?_
    | with_reducible refine keep_ite (fun _ => ?_) (fun _ => ?_)
    | split | with_reducible refine keep_fst ?_ (by assumption) | with_reducible refine keep_snd ?_ (by assumption)
    | dsimp only)

theorem keep_execDramPkgDead {dt pkg : Nat} {_cause : DramDeath} {s : State} {t : State} (hk : Out lostRegs kk ∧ Out
    [TRACE_HEAD] kk) (h : Holds kk vv none none none s) (e : execDramPkgDead dt pkg _cause s = .next t) :
    Holds kk vv none none none t := by
  simp at hk; unfold execDramPkgDead at e
  refine keep_act ?_ (fun u hu => ?_) e
  · simp [*]
  · repeat' first | (simp (maxDischargeDepth := 60) +contextual [*]; done) | split

@[simp ↓] theorem keep_overrunTask {s : State} {t : Task} (h : Holds kk vv md mh mb s) :
    Holds kk vv md mh mb (s.overrunTask t) := by
  unfold State.overrunTask; repeat' first | (simp (maxDischargeDepth := 60) +contextual [*]; done) | split

@[simp ↓] theorem keep_poisoned {s : State} {c : Consumer} (hk : Out fabricRegs kk ∧ Out [CAM_SEAM_GAIN_L,
    CAM_SEAM_GAIN_N, CANVAS_RELEASED_STRIP, CMP_ENGINES_BUSY, CMP_FAIL, LINES_SUBSTITUTED, REG_CAPTURES,
    REG_UNREG_STRIPS, SEAM_GAIN_LIMIT, TILE_BLIND_TASKS, TILE_TASKS, TRIM_ABANDONED, TRIM_BUSY_BAY,
    TRIM_LAST_RESULT, TRIM_LAST_STRIP, WHARF_HOST_RD_BYTES, WH_PROGRESS_ROWS, WH_STATUS] kk) (h : Holds kk vv none
    none none s) :
    Holds kk vv none none none (s.poisoned c) := by
  simp at hk; unfold State.poisoned; repeat' first | (simp (maxDischargeDepth := 60) +contextual [*]; done) | split

theorem keep_execDramPoisonRead {dt pkg : Nat} {consumer : Consumer} {s : State} {t : State} (hk : Out lostRegs kk ∧
    Out [CAM_SEAM_GAIN_L, CAM_SEAM_GAIN_N, CANVAS_RELEASED_STRIP, DRAM_PKG_UE, DRAM_POISON_READS, DRAM_STALE_RESULT,
    LINES_SUBSTITUTED, REG_UNREG_STRIPS, SEAM_GAIN_LIMIT, TILE_BLIND_TASKS, TILE_TASKS, TRACE_HEAD] kk) (h : Holds
    kk vv none none none s) (e : execDramPoisonRead dt pkg consumer s = .next t) :
    Holds kk vv none none none t := by
  simp at hk; unfold execDramPoisonRead at e
  refine keep_act ?_ (fun u hu => ?_) e
  · simp [*]
  · repeat' first | (simp (maxDischargeDepth := 60) +contextual [*]; done) | split

theorem keep_execDramPatrol {dt : Nat} {corrected : List Nat} {s : State} {t : State} (hk : Out logRegs kk ∧ Out
    bookRegs kk ∧ Out unitRegs kk ∧ Out [DRAM_PKG_CE, DRAM_PKG_CE_RATE, TRACE_HEAD] kk) (h : Holds kk vv md mh mb s)
    (e : execDramPatrol dt corrected s = .next t) :
    Holds kk vv md mh mb t := by
  simp at hk; unfold execDramPatrol at e
  refine keep_act ?_ (fun u hu => ?_) e
  · simp [*]
  · repeat' first | (simp (maxDischargeDepth := 60) +contextual [*]; done) | split

@[simp ↓] theorem keep_migrateStart {s : State} {p : Nat} (hk : Out [DRAM_MIGRATE_PERMILLE, DRAM_MIGRATE_STATE]
    kk) (h : Holds kk vv md mh mb s) :
    Holds kk vv md mh mb (s.migrateStart p) := by
  simp at hk; unfold State.migrateStart; repeat' first | (simp (maxDischargeDepth := 60) +contextual [*]; done) | split

@[simp ↓] theorem keep_dramMigrate {s : State} {via : Path} {p : Nat} (hk : Out bookRegs kk ∧ Out
    [DRAM_MIGRATE_PERMILLE, DRAM_MIGRATE_STATE, HL_DICT_ERRORS] kk) (h : Holds kk vv md mh mb s) :
    Holds kk vv md mh mb (s.dramMigrate via p) := by
  simp at hk; unfold State.dramMigrate; repeat' first | (simp (maxDischargeDepth := 60) +contextual [*]; done) | split

theorem keep_execDramMigrate {dt : Nat} {via : Path} {pkg : Nat} {s : State} {t : State} (hk : Out bookRegs kk ∧
    Out [DRAM_MIGRATE_PERMILLE, DRAM_MIGRATE_STATE, HL_DICT_ERRORS, TRACE_HEAD] kk) (h : Holds kk vv md mh mb s)
    (e : execDramMigrate dt via pkg s = .next t) :
    Holds kk vv md mh mb t := by
  simp at hk; unfold execDramMigrate at e
  refine keep_act ?_ (fun u hu => ?_) e
  · simp [*]
  · repeat' first | (simp (maxDischargeDepth := 60) +contextual [*]; done) | split

@[simp ↓] theorem keep_migrateMarked {s : State} (hk : Out [DRAM_MIGRATE_PERMILLE, DRAM_MIGRATE_STATE] kk) (h :
    Holds kk vv md mh mb s) :
    Holds kk vv md mh mb s.migrateMarked := by
  simp at hk; unfold State.migrateMarked; repeat' first | (simp (maxDischargeDepth := 60) +contextual [*]; done) | split

theorem keep_execDramMigrateDone {dt : Nat} {s : State} {t : State} (hk : Out logRegs kk ∧ Out bookRegs kk ∧ Out
    unitRegs kk ∧ Out [DRAM_MIGRATE_PERMILLE, DRAM_MIGRATE_STATE, DRAM_PKG_CHANNEL, TRACE_HEAD] kk) (h : Holds kk
    vv md mh mb s) (e : execDramMigrateDone dt s = .next t) :
    Holds kk vv md mh mb t := by
  simp at hk; unfold execDramMigrateDone at e
  refine keep_act ?_ (fun u hu => ?_) e
  · simp [*]
  · repeat' first | (simp (maxDischargeDepth := 60) +contextual [*]; done) | split

@[simp ↓] theorem keep_dramSelftest {s : State} {via : Path} {p : Nat} (hk : Out bookRegs kk ∧ Out
    [DRAM_SELFTEST_RESULT, HL_DICT_ERRORS, ISLAND_STATE] kk) (h : Holds kk vv md mh mb s) :
    Holds kk vv md mh mb (s.dramSelftest via p) := by
  simp at hk; unfold State.dramSelftest; repeat' first | (simp (maxDischargeDepth := 60) +contextual [*]; done) | split

theorem keep_execDramSelftest {dt : Nat} {via : Path} {pkg : Nat} {s : State} {t : State} (hk : Out bookRegs kk ∧
    Out [DRAM_SELFTEST_RESULT, HL_DICT_ERRORS, ISLAND_STATE, TRACE_HEAD] kk) (h : Holds kk vv md mh mb s) (e :
    execDramSelftest dt via pkg s = .next t) :
    Holds kk vv md mh mb t := by
  simp at hk; unfold execDramSelftest at e
  refine keep_act ?_ (fun u hu => ?_) e
  · simp [*]
  · repeat' first | (simp (maxDischargeDepth := 60) +contextual [*]; done) | split

theorem keep_execDramSelftestDone {dt errors : Nat} {s : State} {t : State} (hk : Out logRegs kk ∧ Out bookRegs kk
    ∧ Out unitRegs kk ∧ Out [DRAM_SELFTEST_RESULT, ISLAND_STATE, TRACE_HEAD] kk) (h : Holds kk vv md mh mb s) (e :
    execDramSelftestDone dt errors s = .next t) :
    Holds kk vv md mh mb t := by
  simp at hk; unfold execDramSelftestDone at e
  refine keep_act ?_ (fun u hu => ?_) e
  · simp [*]
  · repeat' first | (simp (maxDischargeDepth := 60) +contextual [*]; done) | split

theorem keep_execSpareDramCheck {dt : Nat} {s : State} {t : State} (hk : Out [TRACE_HEAD] kk) (h : Holds kk vv md
    mh mb s) (e : execSpareDramCheck dt s = .next t) :
    Holds kk vv md mh mb t := by
  simp at hk; unfold execSpareDramCheck at e
  refine keep_act ?_ (fun u hu => ?_) e
  · simp [*]
  · repeat' first | (simp (maxDischargeDepth := 60) +contextual [*]; done) | split

theorem keep_execSpareDramCheckDone {dt errors : Nat} {s : State} {t : State} (hk : Out logRegs kk ∧ Out bookRegs
    kk ∧ Out unitRegs kk ∧ Out [ISLAND_STATE, TRACE_HEAD] kk) (h : Holds kk vv md mh mb s) (e :
    execSpareDramCheckDone dt errors s = .next t) :
    Holds kk vv md mh mb t := by
  simp at hk; unfold execSpareDramCheckDone at e
  refine keep_act ?_ (fun u hu => ?_) e
  · simp [*]
  · repeat' first | (simp (maxDischargeDepth := 60) +contextual [*]; done) | split

theorem keep_execSupervisorRegionRebuilt {dt : Nat} {s : State} {t : State} (hk : Out [TRACE_HEAD] kk) (h : Holds
    kk vv md mh mb s) (e : execSupervisorRegionRebuilt dt s = .next t) :
    Holds kk vv md mh mb t := by
  simp at hk; unfold execSupervisorRegionRebuilt at e
  refine keep_act ?_ (fun u hu => ?_) e
  · simp [*]
  · repeat' first | (simp (maxDischargeDepth := 60) +contextual [*]; done) | split

@[simp ↓] theorem keep_memClear {s : State} {via : Path} (hk : Out bookRegs kk ∧ Out [DRAM_PKG_CE, DRAM_PKG_UE,
    DRAM_POISON_READS, DRAM_STALE_RESULT, HL_DICT_ERRORS, SRAM_CE, SRAM_UE] kk) (h : Holds kk vv md mh mb s) :
    Holds kk vv md mh mb (s.memClear via) := by
  simp at hk; unfold State.memClear; repeat' first | (simp (maxDischargeDepth := 60) +contextual [*]; done) | split

theorem keep_execMemClear {dt : Nat} {via : Path} {s : State} {t : State} (hk : Out bookRegs kk ∧ Out
    [DRAM_PKG_CE, DRAM_PKG_UE, DRAM_POISON_READS, DRAM_STALE_RESULT, HL_DICT_ERRORS, SRAM_CE, SRAM_UE, TRACE_HEAD]
    kk) (h : Holds kk vv md mh mb s) (e : execMemClear dt via s = .next t) :
    Holds kk vv md mh mb t := by
  simp at hk; unfold execMemClear at e
  refine keep_act ?_ (fun u hu => ?_) e
  · simp [*]
  · repeat' first | (simp (maxDischargeDepth := 60) +contextual [*]; done) | split

end Sys2Proof.Machine
end

