-- ==== Sys2Proof/Laws/KeepJobs.lean ====
section
/-! SUPPORT. Laws/KeepJobs.lean: what the operations and commands leave alone, of Machine/Jobs.lean. -/
namespace Sys2Proof.Machine
open Reg
variable {kk : Key} {vv : Option Nat} {md mh : Option Memory} {mb : Option Blobs}

@[simp ↓] theorem keep_loadFails {s : State} {result : Nat} (hk : Out bookRegs kk ∧ Out [SWITCH_RESULT,
    SWITCH_STATE] kk) (h : Holds kk vv md mh mb s) :
    Holds kk vv md mh mb (s.loadFails result) := by
  simp at hk; unfold State.loadFails; repeat' first | (simp (maxDischargeDepth := 60) +contextual [*]; done) | split

@[simp ↓] theorem keep_loadTables {s : State} {p : Package} (h : Holds kk vv md mh none s) :
    Holds kk vv md mh none (s.loadTables p) := by
  unfold State.loadTables
  repeat' (first
    | (simp (maxDischargeDepth := 60) +contextual [*]; done)
    | simp only [holds_mk, holdsOf_parts]
    | with_reducible refine keep_foldl _ (fun t x ht => ?_) ?_
    | with_reducible refine keep_foldl_fst _ (fun t b x ht => ?_) ?_
    | with_reducible refine keep_ite (fun _ => ?_) (fun _ => ?_)
    | split | with_reducible refine keep_fst ?_ (by assumption) | with_reducible refine keep_snd ?_ (by assumption)
    | dsimp only)

@[simp ↓] theorem keep_preload {s : State} {via : Path} (hk : Out bookRegs kk ∧ Out [HL_DICT_ERRORS,
    SWITCH_RESULT, SWITCH_STATE] kk) (h : Holds kk vv md mh mb s) :
    Holds kk vv md mh mb (s.preload via) := by
  simp at hk; unfold State.preload; repeat' first | (simp (maxDischargeDepth := 60) +contextual [*]; done) | split

theorem keep_execPreload {dt : Nat} {via : Path} {s : State} {t : State} (hk : Out bookRegs kk ∧ Out
    [HL_DICT_ERRORS, SWITCH_RESULT, SWITCH_STATE, TRACE_HEAD] kk) (h : Holds kk vv md mh mb s) (e : execPreload dt
    via s = .next t) :
    Holds kk vv md mh mb t := by
  simp at hk; unfold execPreload at e
  refine keep_act ?_ (fun u hu => ?_) e
  · simp [*]
  · repeat' first | (simp (maxDischargeDepth := 60) +contextual [*]; done) | split

@[simp ↓] theorem keep_writeUp {s : State} {slot v : Nat} {b : List Byte} (h : Holds kk vv none mh mb s) :
    Holds kk vv none mh mb (s.writeUp slot v b) := by
  unfold State.writeUp; repeat' first | (simp (maxDischargeDepth := 60) +contextual [*]; done) | split

@[simp ↓] theorem keep_writeRegions {s : State} {slot v h : Nat} {m : List Byte} (hs : Holds kk vv none mh mb s) :
    Holds kk vv none mh mb (s.writeRegions slot v h m) := by
  unfold State.writeRegions; repeat' first | (simp (maxDischargeDepth := 60) +contextual [*]; done) | split

@[simp ↓] theorem keep_loadSlot {s : State} {p : Package} {jobSlot slot : Nat} {views : List Nat} (h : Holds kk vv
    none mh mb s) :
    Holds kk vv none mh mb (s.loadSlot p jobSlot slot views) := by
  unfold State.loadSlot
  repeat' (first
    | (simp (maxDischargeDepth := 60) +contextual [*]; done)
    | simp only [holds_mk, holdsOf_parts]
    | with_reducible refine keep_foldl _ (fun t x ht => ?_) ?_
    | with_reducible refine keep_foldl_fst _ (fun t b x ht => ?_) ?_
    | with_reducible refine keep_ite (fun _ => ?_) (fun _ => ?_)
    | split | with_reducible refine keep_fst ?_ (by assumption) | with_reducible refine keep_snd ?_ (by assumption)
    | dsimp only)

@[simp ↓] theorem keep_reloadViews {s : State} (hk : Out bookRegs kk ∧ Out [REG_CAPTURES, REG_UP_PRESENT] kk) (h :
    Holds kk vv none mh mb s) :
    Holds kk vv none mh mb s.reloadViews := by
  simp at hk; unfold State.reloadViews; repeat' first | (simp (maxDischargeDepth := 60) +contextual [*]; done) | split

theorem findObj_mem {k : Key} {o : Obj} {i : Nat} (e : findObj k = some (o, i)) : o ∈ Reg.rows := by
  obtain ⟨x, hx, he⟩ := List.exists_of_findSome?_eq_some e
  cases hi : x.instOf k with
  | none => simp [hi] at he
  | some j => simp [hi] at he; exact he.1 ▸ hx

@[simp ↓] theorem keep_applyPreset {s : State} {e : Preset} (hk : Out presetRegs kk) (h : Holds kk vv md mh mb s) :
    Holds kk vv md mh mb (s.applyPreset e) := by
  unfold State.applyPreset
  split
  · rename_i o i hf
    split
    · exact keep_set (hk.avoids (List.mem_filter.2 ⟨findObj_mem hf, ‹_›⟩)) (holds_mk.2 (holdsOf_parts.2 h))
    · exact h
  · exact h

@[simp ↓] theorem keep_stampJob {s : State} {slot : Nat} (hk : Out logRegs kk ∧ Out [ACTIVE_SLOT, JOB_STAMP] kk)
    (h : Holds kk vv md mh mb s) :
    Holds kk vv md mh mb (s.stampJob slot) := by
  simp at hk; unfold State.stampJob; repeat' first | (simp (maxDischargeDepth := 60) +contextual [*]; done) | split

@[simp ↓] theorem keep_activateJob {s : State} {p : Package} {slot n c strip : Nat} (hk : Out presetRegs kk ∧ Out
    logRegs kk ∧ Out bookRegs kk ∧ Out [ACTIVE_SLOT, BAR_CURRENT_MA, BAR_STATE, EXP_APPLY_STRIP,
    EXP_COMMIT_REPLACED, EXP_PENDING, JOB_STAMP, JOB_START_COUNT, LIGHT_POWER_W, REG_CAPTURES, REG_LEARN_STATE,
    REG_SLOT_ACTIVE, REG_UP_PRESENT, SWITCH_LINE, SWITCH_RESULT, TIDE_APPLY_LINE, TIDE_BANK_ACTIVE, TIDE_GENERATION,
    TIDE_PENDING] kk) (h : Holds kk vv md mh none s) :
    Holds kk vv md mh none (s.activateJob p slot n c strip) := by
  simp at hk; unfold State.activateJob
  repeat' (first
    | (simp (maxDischargeDepth := 60) +contextual [*]; done)
    | simp only [holds_mk, holdsOf_parts]
    | with_reducible refine keep_foldl _ (fun t x ht => ?_) ?_
    | with_reducible refine keep_foldl_fst _ (fun t b x ht => ?_) ?_
    | with_reducible refine keep_ite (fun _ => ?_) (fun _ => ?_)
    | split | with_reducible refine keep_fst ?_ (by assumption) | with_reducible refine keep_snd ?_ (by assumption)
    | dsimp only)

@[simp ↓] theorem keep_armJob {s : State} {p : Package} (hk : Out presetRegs kk ∧ Out jobRegs kk) (h : Holds kk vv
    none none none s) :
    Holds kk vv none none none (s.armJob p) := by
  simp at hk; unfold State.armJob
  repeat' (first
    | (simp (maxDischargeDepth := 60) +contextual [*]; done)
    | simp only [holds_mk, holdsOf_parts]
    | with_reducible refine keep_foldl _ (fun t x ht => ?_) ?_
    | with_reducible refine keep_foldl_fst _ (fun t b x ht => ?_) ?_
    | with_reducible refine keep_ite (fun _ => ?_) (fun _ => ?_)
    | split | with_reducible refine keep_fst ?_ (by assumption) | with_reducible refine keep_snd ?_ (by assumption)
    | dsimp only)

@[simp ↓] theorem keep_switchArm {s : State} {via : Path} (hk : Out presetRegs kk ∧ Out jobRegs kk ∧ Out
    [HL_DICT_ERRORS] kk) (h : Holds kk vv none none none s) :
    Holds kk vv none none none (s.switchArm via) := by
  simp at hk; unfold State.switchArm; repeat' first | (simp (maxDischargeDepth := 60) +contextual [*]; done) | split

theorem keep_execSwitchArm {dt : Nat} {via : Path} {s : State} {t : State} (hk : Out presetRegs kk ∧ Out jobRegs kk
    ∧ Out [HL_DICT_ERRORS, TRACE_HEAD] kk) (h : Holds kk vv none none none s) (e : execSwitchArm dt via s = .next t)
    :
    Holds kk vv none none none t := by
  simp at hk; unfold execSwitchArm at e
  refine keep_act ?_ (fun u hu => ?_) e
  · simp [*]
  · repeat' first | (simp (maxDischargeDepth := 60) +contextual [*]; done) | split

@[simp ↓] theorem keep_disarm {s : State} (hk : Out [SWITCH_RESULT, SWITCH_STATE] kk) (h : Holds kk vv md mh mb s) :
    Holds kk vv md mh mb s.disarm := by
  simp at hk; unfold State.disarm; repeat' first | (simp (maxDischargeDepth := 60) +contextual [*]; done) | split

@[simp ↓] theorem keep_switchCancel {s : State} {via : Path} (hk : Out bookRegs kk ∧ Out [HL_DICT_ERRORS,
    SWITCH_RESULT, SWITCH_STATE] kk) (h : Holds kk vv md mh mb s) :
    Holds kk vv md mh mb (s.switchCancel via) := by
  simp at hk; unfold State.switchCancel; repeat' first | (simp (maxDischargeDepth := 60) +contextual [*]; done) | split

theorem keep_execSwitchCancel {dt : Nat} {via : Path} {s : State} {t : State} (hk : Out bookRegs kk ∧ Out
    [HL_DICT_ERRORS, SWITCH_RESULT, SWITCH_STATE, TRACE_HEAD] kk) (h : Holds kk vv md mh mb s) (e :
    execSwitchCancel dt via s = .next t) :
    Holds kk vv md mh mb t := by
  simp at hk; unfold execSwitchCancel at e
  refine keep_act ?_ (fun u hu => ?_) e
  · simp [*]
  · repeat' first | (simp (maxDischargeDepth := 60) +contextual [*]; done) | split

@[simp ↓] theorem keep_loadEnds {s : State} {p : Package} {slot : Nat} (hk : Out presetRegs kk ∧ Out jobRegs kk ∧
    Out [HL_DICT_ERRORS, SWITCH_MODE] kk) (h : Holds kk vv none none none s) :
    Holds kk vv none none none (s.loadEnds p slot) := by
  simp at hk; unfold State.loadEnds; repeat' first | (simp (maxDischargeDepth := 60) +contextual [*]; done) | split

@[simp ↓] theorem keep_loadJobEnds {s : State} {p : Package} {slot : Nat} (hk : Out bookRegs kk ∧ Out [CMP_FAIL,
    WH_STATUS] kk) (h : Holds kk vv md mh mb s) :
    Holds kk vv md mh mb (s.loadJobEnds p slot) := by
  simp at hk; unfold State.loadJobEnds
  repeat' (first
    | (simp (maxDischargeDepth := 60) +contextual [*]; done)
    | simp only [holds_mk, holdsOf_parts]
    | with_reducible refine keep_foldl _ (fun t x ht => ?_) ?_
    | with_reducible refine keep_foldl_fst _ (fun t b x ht => ?_) ?_
    | with_reducible refine keep_ite (fun _ => ?_) (fun _ => ?_)
    | split | with_reducible refine keep_fst ?_ (by assumption) | with_reducible refine keep_snd ?_ (by assumption)
    | dsimp only)

@[simp ↓] theorem keep_viewsLoaded {s : State} (hk : Out bookRegs kk ∧ Out [REG_CAPTURES, REG_UP_PRESENT, WH_STATUS]
    kk) (h : Holds kk vv none mh mb s) :
    Holds kk vv none mh mb s.viewsLoaded := by
  simp at hk; unfold State.viewsLoaded; repeat' first | (simp (maxDischargeDepth := 60) +contextual [*]; done) | split

@[simp ↓] theorem keep_jobLoaded {s : State} (hk : Out presetRegs kk ∧ Out jobRegs kk ∧ Out [ARCHIVE_GAPS,
    ARCHIVE_SPACE_WAIT, ARCHIVE_STRIPS, CMP_BYTES_IN, CMP_BYTES_OUT, CMP_ENGINES_BUSY, CMP_FAIL, CROP_EVICTED,
    HL_DICT_ERRORS, SWITCH_MODE, WHARF_HOST_RD_BYTES, WH_PROGRESS_ROWS, WH_STATUS] kk) (h : Holds kk vv none none
    none s) :
    Holds kk vv none none none s.jobLoaded := by
  simp at hk; unfold State.jobLoaded; repeat' first | (simp (maxDischargeDepth := 60) +contextual [*]; done) | split

theorem keep_execLoadComplete {dt : Nat} {s : State} {t : State} (hk : Out presetRegs kk ∧ Out jobRegs kk ∧ Out
    [ARCHIVE_GAPS, ARCHIVE_SPACE_WAIT, ARCHIVE_STRIPS, CMP_BYTES_IN, CMP_BYTES_OUT, CMP_ENGINES_BUSY, CMP_FAIL,
    CROP_EVICTED, HL_DICT_ERRORS, SWITCH_MODE, TRACE_HEAD, WHARF_HOST_RD_BYTES, WH_PROGRESS_ROWS, WH_STATUS] kk) (h
    : Holds kk vv none none none s) (e : execLoadComplete dt s = .next t) :
    Holds kk vv none none none t := by
  simp at hk; unfold execLoadComplete at e
  refine keep_act ?_ (fun u hu => ?_) e
  · simp [*]
  · repeat' (first
        | (simp (maxDischargeDepth := 60) +contextual [*]; done)
        | simp only [holds_mk, holdsOf_parts]
        | with_reducible refine keep_foldl _ (fun t x ht => ?_) ?_
        | with_reducible refine keep_foldl_fst _ (fun t b x ht => ?_) ?_
        | with_reducible refine keep_ite (fun _ => ?_) (fun _ => ?_)
        | split | with_reducible refine keep_fst ?_ (by assumption) | with_reducible refine keep_snd ?_ (by assumption)
        | dsimp only)

end Sys2Proof.Machine
end

