-- ==== Sys2Proof/Laws/KeepTransitions.lean ====
section
/-! SUPPORT. Laws/KeepTransitions.lean: what the operations and commands leave alone, of Machine/Transitions.lean. -/
namespace Sys2Proof.Machine
open Reg
variable {kk : Key} {vv : Option Nat} {md mh : Option Memory} {mb : Option Blobs}

@[simp ↓] theorem keep_substituteUnits {s : State} (hk : Out logRegs kk ∧ Out bookRegs kk ∧ Out unitRegs kk ∧ Out
    [EASEL_PHYS, ISLAND_STATE, PD_STATE, TILE_PHYS] kk) (h : Holds kk vv md mh mb s) :
    Holds kk vv md mh mb s.substituteUnits := by
  simp at hk; unfold State.substituteUnits
  repeat' (first
    | (simp (maxDischargeDepth := 60) +contextual [*]; done)
    | simp only [holds_mk, holdsOf_parts]
    | with_reducible refine keep_foldl _ (fun t x ht => ?_) ?_
    | with_reducible refine keep_foldl_fst _ (fun t b x ht => ?_) ?_
    | with_reducible refine keep_ite (fun _ => ?_) (fun _ => ?_)
    | split | with_reducible refine keep_fst ?_ (by assumption) | with_reducible refine keep_snd ?_ (by assumption)
    | dsimp only)

@[simp ↓] theorem keep_readyEntry {s : State} (hk : Out logRegs kk ∧ Out bookRegs kk ∧ Out unitRegs kk ∧ Out
    [BAR_CURRENT_MA, BAR_STATE, BAY_LANES_UP, DRAM_MIGRATE_PERMILLE, DRAM_MIGRATE_STATE, EASEL_PHYS,
    EASEL_QUAY_FILL, EASEL_QUAY_PEAK, EASEL_STATE, ISLAND_STATE, LANE_SLICE, LANE_STATE, LIGHT_POWER_W, PD_STATE,
    RING_FRAMES, RING_OVERSIZE, RING_STAGED_BYTES, TILE_LOG_STATE, TILE_PHYS, WHARF_HOST_WR_BYTES] kk) (h : Holds kk
    vv md none mb s) :
    Holds kk vv md none mb s.readyEntry := by
  simp at hk; unfold State.readyEntry; repeat' first | (simp (maxDischargeDepth := 60) +contextual [*]; done) | split

@[simp ↓] theorem keep_afterChange {s : State} {old line : Nat} {standing : Bool} (hk : Out leaveRegs kk) (h : Holds
    kk vv none none none s) :
    Holds kk vv none none none (s.afterChange old line standing) := by
  simp at hk; unfold State.afterChange; repeat' first | (simp (maxDischargeDepth := 60) +contextual [*]; done) | split

@[simp ↓] theorem keep_atStandstill {s : State} (hk : Out leaveRegs kk ∧ Out modeRegs kk) (h : Holds kk vv none none
    none s) :
    Holds kk vv none none none s.atStandstill := by
  simp at hk; unfold State.atStandstill; repeat' first | (simp (maxDischargeDepth := 60) +contextual [*]; done) | split

@[simp ↓] theorem keep_atStrip {s : State} {line : Nat} (hk : Out leaveRegs kk ∧ Out modeRegs kk) (h : Holds kk vv
    none none none s) :
    Holds kk vv none none none (s.atStrip line) := by
  simp at hk; unfold State.atStrip; repeat' first | (simp (maxDischargeDepth := 60) +contextual [*]; done) | split

end Sys2Proof.Machine
end

