-- ==== Sys2Proof/Laws/KeepMotion.lean ====
section
/-! SUPPORT. Laws/KeepMotion.lean: what the operations and commands leave alone, of Machine/Motion.lean. -/
namespace Sys2Proof.Machine
open Reg
variable {kk : Key} {vv : Option Nat} {md mh : Option Memory} {mb : Option Blobs}

@[simp ↓] theorem keep_encFault {s : State} {b : Nat} (hk : Out bookRegs kk ∧ Out emcyRegs kk ∧ Out [ENC_FAULT]
    kk) (h : Holds kk vv md mh mb s) :
    Holds kk vv md mh mb (s.encFault b) := by
  simp at hk; unfold State.encFault; repeat' first | (simp (maxDischargeDepth := 60) +contextual [*]; done) | split

@[simp ↓] theorem keep_encClear {s : State} {b : Nat} (hk : Out bookRegs kk ∧ Out emcyRegs kk ∧ Out [ENC_FAULT]
    kk) (h : Holds kk vv md mh mb s) :
    Holds kk vv md mh mb (s.encClear b) := by
  simp at hk; unfold State.encClear; repeat' first | (simp (maxDischargeDepth := 60) +contextual [*]; done) | split

@[simp ↓] theorem keep_obsReport {s : State} (hk : Out [OBS_ACCEL, OBS_SPEED, WEB_SPEED_MM_S] kk) (h : Holds kk vv
    md mh mb s) :
    Holds kk vv md mh mb s.obsReport := by
  simp at hk; unfold State.obsReport; repeat' first | (simp (maxDischargeDepth := 60) +contextual [*]; done) | split

@[simp ↓] theorem keep_obsFreeze {s : State} {state held : Nat} (hk : Out [OBS_ACCEL, OBS_POSITION, OBS_SPEED,
    OBS_STATE, WEB_SPEED_MM_S] kk) (h : Holds kk vv md mh mb s) :
    Holds kk vv md mh mb (s.obsFreeze state held) := by
  simp at hk; unfold State.obsFreeze; repeat' first | (simp (maxDischargeDepth := 60) +contextual [*]; done) | split

@[simp ↓] theorem keep_obsRelease {s : State} {fwd : Bool} {c ns : Nat} (hk : Out bookRegs kk ∧ Out [OBS_ACCEL,
    OBS_POSITION, OBS_REVERSALS, OBS_SPEED, OBS_STATE, WEB_SPEED_MM_S] kk) (h : Holds kk vv md mh mb s) :
    Holds kk vv md mh mb (s.obsRelease fwd c ns) := by
  simp at hk; unfold State.obsRelease; repeat' first | (simp (maxDischargeDepth := 60) +contextual [*]; done) | split

@[simp ↓] theorem keep_obsCount {s : State} {fwd : Bool} {old new : Nat} (hk : Out leaveRegs kk ∧ Out modeRegs kk ∧
    Out [OBS_ACCEL, OBS_EXTREME, OBS_POSITION, OBS_REVERSALS, OBS_SPEED, OBS_STATE, WEB_SPEED_MM_S] kk) (h : Holds
    kk vv none none none s) :
    Holds kk vv none none none (s.obsCount fwd old new) := by
  simp at hk; unfold State.obsCount; repeat' first | (simp (maxDischargeDepth := 60) +contextual [*]; done) | split

@[simp ↓] theorem keep_modPulse {s : State} {n : Nat} {f : Pulse → Pulse} (h : Holds kk vv md mh mb s) :
    Holds kk vv md mh mb (s.modPulse n f) := by
  unfold State.modPulse; repeat' first | (simp (maxDischargeDepth := 60) +contextual [*]; done) | split

@[simp ↓] theorem keep_pulseChange {s : State} {n : Nat} {fwd : Bool} (hk : Out bookRegs kk ∧ Out [PULSE_BACKLOG,
    PULSE_COUNT, PULSE_OVERRUN] kk) (h : Holds kk vv md mh mb s) :
    Holds kk vv md mh mb (s.pulseChange n fwd) := by
  simp at hk; unfold State.pulseChange; repeat' first | (simp (maxDischargeDepth := 60) +contextual [*]; done) | split

@[simp ↓] theorem keep_pulseStep {s : State} {n : Nat} {fwd : Bool} (hk : Out bookRegs kk ∧ Out [PULSE_BACKLOG,
    PULSE_COUNT, PULSE_OVERRUN] kk) (h : Holds kk vv md mh mb s) :
    Holds kk vv md mh mb (s.pulseStep n fwd) := by
  simp at hk; unfold State.pulseStep; repeat' first | (simp (maxDischargeDepth := 60) +contextual [*]; done) | split

@[simp ↓] theorem keep_pulseSource {s : State} {src : Nat} {fwd : Bool} (hk : Out bookRegs kk ∧ Out
    [PULSE_BACKLOG, PULSE_COUNT, PULSE_OVERRUN] kk) (h : Holds kk vv md mh mb s) :
    Holds kk vv md mh mb (s.pulseSource src fwd) := by
  simp at hk; unfold State.pulseSource; repeat' first | (simp (maxDischargeDepth := 60) +contextual [*]; done) | split

@[simp ↓] theorem keep_slipCheck {s : State} (hk : Out bookRegs kk ∧ Out emcyRegs kk ∧ Out [AUX_SLIP, ENC_FAULT]
    kk) (h : Holds kk vv md mh mb s) :
    Holds kk vv md mh mb s.slipCheck := by
  simp at hk; unfold State.slipCheck; repeat' first | (simp (maxDischargeDepth := 60) +contextual [*]; done) | split

@[simp ↓] theorem keep_webTo {s : State} {c : Nat} {wrapped : Bool} (hk : Out bookRegs kk ∧ Out [MARK_FIRED,
    MARK_NEXT_COUNT, MARK_QUEUE_FILL, TRIG_NEXT_COUNT, WEB_COUNT, WEB_HIGH_WATER] kk) (h : Holds kk vv md mh mb s) :
    Holds kk vv md mh mb (s.webTo c wrapped) := by
  simp at hk; unfold State.webTo; repeat' first | (simp (maxDischargeDepth := 60) +contextual [*]; done) | split

@[simp ↓] theorem keep_webCounts {s : State} {fwd : Bool} {n : Nat} (hk : Out countRegs kk) (h : Holds kk vv none
    none none s) :
    Holds kk vv none none none (s.webCounts fwd n) := by
  simp at hk; unfold State.webCounts; repeat' first | (simp (maxDischargeDepth := 60) +contextual [*]; done) | split

@[simp ↓] theorem keep_webMove {s : State} {d : Int} (hk : Out countRegs kk) (h : Holds kk vv none none none s) :
    Holds kk vv none none none (s.webMove d) := by
  simp at hk; unfold State.webMove; repeat' first | (simp (maxDischargeDepth := 60) +contextual [*]; done) | split

@[simp ↓] theorem keep_auxCount {s : State} {i : Nat} {fwd : Bool} (hk : Out bookRegs kk ∧ Out [AUX_COUNT,
    PULSE_BACKLOG, PULSE_COUNT, PULSE_OVERRUN] kk) (h : Holds kk vv md mh mb s) :
    Holds kk vv md mh mb (s.auxCount i fwd) := by
  simp at hk; unfold State.auxCount; repeat' first | (simp (maxDischargeDepth := 60) +contextual [*]; done) | split

@[simp ↓] theorem keep_auxCounts {s : State} {i : Nat} {fwd : Bool} {n : Nat} (hk : Out bookRegs kk ∧ Out
    [AUX_COUNT, PULSE_BACKLOG, PULSE_COUNT, PULSE_OVERRUN] kk) (h : Holds kk vv md mh mb s) :
    Holds kk vv md mh mb (s.auxCounts i fwd n) := by
  simp at hk; unfold State.auxCounts; repeat' first | (simp (maxDischargeDepth := 60) +contextual [*]; done) | split

@[simp ↓] theorem keep_sinCosMove {s : State} {input : Nat} {d : Int} (hk : Out countRegs kk ∧ Out [AUX_COUNT] kk)
    (h : Holds kk vv none none none s) :
    Holds kk vv none none none (s.sinCosMove input d) := by
  simp at hk; unfold State.sinCosMove; repeat' first | (simp (maxDischargeDepth := 60) +contextual [*]; done) | split

@[simp ↓] theorem keep_illegalChange {s : State} (hk : Out bookRegs kk ∧ Out emcyRegs kk ∧ Out [ENC_FAULT,
    ENC_ILLEGAL] kk) (h : Holds kk vv md mh mb s) :
    Holds kk vv md mh mb s.illegalChange := by
  simp at hk; unfold State.illegalChange; repeat' first | (simp (maxDischargeDepth := 60) +contextual [*]; done) | split

theorem keep_execEncCount {dt : Nat} {a b : Bool} {held : Nat} {s : State} {t : State} (hk : Out countRegs kk ∧ Out
    [ENC_ILLEGAL, TRACE_HEAD] kk) (h : Holds kk vv none none none s) (e : execEncCount dt a b held s = .next t) :
    Holds kk vv none none none t := by
  simp at hk; unfold execEncCount at e
  refine keep_act ?_ (fun u hu => ?_) e
  · simp [*]
  · repeat' (first
        | (simp (maxDischargeDepth := 60) +contextual [*]; done)
        | simp only [holds_mk, holdsOf_parts]
        | with_reducible refine keep_foldl _ (fun t x ht => ?_) ?_
        | with_reducible refine keep_foldl_fst _ (fun t b x ht => ?_) ?_
        | with_reducible refine keep_ite (fun _ => ?_) (fun _ => ?_)
        | split | with_reducible refine keep_fst ?_ (by assumption) | with_reducible refine keep_snd ?_ (by assumption)
        | dsimp only)

theorem keep_execEncWireFault {dt line lowNs : Nat} {s : State} {t : State} (hk : Out bookRegs kk ∧ Out emcyRegs
    kk ∧ Out [ENC_FAULT, ENC_WIRE, TRACE_HEAD] kk) (h : Holds kk vv md mh mb s) (e : execEncWireFault dt line
    lowNs s = .next t) :
    Holds kk vv md mh mb t := by
  simp at hk; unfold execEncWireFault at e
  refine keep_act ?_ (fun u hu => ?_) e
  · simp [*]
  · repeat' first | (simp (maxDischargeDepth := 60) +contextual [*]; done) | split

theorem keep_execWireClear {dt : Nat} {s : State} {t : State} (hk : Out bookRegs kk ∧ Out emcyRegs kk ∧ Out
    [ENC_FAULT, TRACE_HEAD] kk) (h : Holds kk vv md mh mb s) (e : execWireClear dt s = .next t) :
    Holds kk vv md mh mb t := by
  simp at hk; unfold execWireClear at e
  refine keep_act ?_ (fun u hu => ?_) e
  · simp [*]
  · repeat' first | (simp (maxDischargeDepth := 60) +contextual [*]; done) | split

@[simp ↓] theorem keep_modSinCos {s : State} {i : Nat} {f : SinCos → SinCos} (h : Holds kk vv md mh mb s) :
    Holds kk vv md mh mb (s.modSinCos i f) := by
  unfold State.modSinCos; repeat' first | (simp (maxDischargeDepth := 60) +contextual [*]; done) | split

@[simp ↓] theorem keep_overrate {s : State} {input periodNs : Nat} (hk : Out bookRegs kk ∧ Out emcyRegs kk ∧ Out
    [ENC_FAULT] kk) (h : Holds kk vv md mh mb s) :
    Holds kk vv md mh mb (s.overrate input periodNs) := by
  simp at hk; unfold State.overrate; repeat' first | (simp (maxDischargeDepth := 60) +contextual [*]; done) | split

theorem keep_execSincosQuadrantEdge {dt input quadrant periodNs : Nat} {s : State} {t : State} (hk : Out countRegs
    kk ∧ Out [AUX_COUNT, ENC_ILLEGAL, TRACE_HEAD] kk) (h : Holds kk vv none none none s) (e : execSincosQuadrantEdge
    dt input quadrant periodNs s = .next t) :
    Holds kk vv none none none t := by
  simp at hk; unfold execSincosQuadrantEdge at e
  refine keep_act ?_ (fun u hu => ?_) e
  · simp [*]
  · repeat' (first
        | (simp (maxDischargeDepth := 60) +contextual [*]; done)
        | simp only [holds_mk, holdsOf_parts]
        | with_reducible refine keep_foldl _ (fun t x ht => ?_) ?_
        | with_reducible refine keep_foldl_fst _ (fun t b x ht => ?_) ?_
        | with_reducible refine keep_ite (fun _ => ?_) (fun _ => ?_)
        | split | with_reducible refine keep_fst ?_ (by assumption) | with_reducible refine keep_snd ?_ (by assumption)
        | dsimp only)

@[simp ↓] theorem keep_pollFails {s : State} (hk : Out bookRegs kk ∧ Out emcyRegs kk ∧ Out [ENC_FAULT,
    ENC_SERIAL_ERR] kk) (h : Holds kk vv md mh mb s) :
    Holds kk vv md mh mb s.pollFails := by
  simp at hk; unfold State.pollFails; repeat' first | (simp (maxDischargeDepth := 60) +contextual [*]; done) | split

@[simp ↓] theorem keep_pollGives {s : State} {pos : Nat} (hk : Out countRegs kk ∧ Out [ENC_ABS_POSITION,
    ENC_SERIAL_ERR] kk) (h : Holds kk vv none none none s) :
    Holds kk vv none none none (s.pollGives pos) := by
  simp at hk; unfold State.pollGives; repeat' first | (simp (maxDischargeDepth := 60) +contextual [*]; done) | split

theorem keep_execEncSerialPoll {dt : Nat} {s : State} {t : State} (hk : Out [TRACE_HEAD] kk) (h : Holds kk vv md
    mh mb s) (e : execEncSerialPoll dt s = .next t) :
    Holds kk vv md mh mb t := by
  simp at hk; unfold execEncSerialPoll at e
  refine keep_act ?_ (fun u hu => ?_) e
  · simp [*]
  · repeat' first | (simp (maxDischargeDepth := 60) +contextual [*]; done) | split

theorem keep_execEncSerialPollDone {dt word : Nat} {idle : Bool} {s : State} {t : State} (hk : Out countRegs kk ∧
    Out [ENC_ABS_POSITION, ENC_SERIAL_ERR, ENC_SERIAL_WARN, TRACE_HEAD] kk) (h : Holds kk vv none none none s) (e :
    execEncSerialPollDone dt word idle s = .next t) :
    Holds kk vv none none none t := by
  simp at hk; unfold execEncSerialPollDone at e
  refine keep_act ?_ (fun u hu => ?_) e
  · simp [*]
  · repeat' first | (simp (maxDischargeDepth := 60) +contextual [*]; done) | split

theorem keep_execIndex {edge : ZEdge} {s : State} {t : State} (hk : Out bookRegs kk ∧ Out emcyRegs kk ∧ Out
    [ENC_FAULT, ENC_INDEX_ERR, INDEX_COUNT, INDEX_DELTA, INDEX_DRIFT, INDEX_SEEN, TRACE_HEAD] kk) (h : Holds kk vv
    md mh mb s) (e : execIndex edge s = .next t) :
    Holds kk vv md mh mb t := by
  simp at hk; unfold execIndex at e
  refine keep_act ?_ (fun u hu => ?_) e
  · simp [*]
  · repeat' first | (simp (maxDischargeDepth := 60) +contextual [*]; done) | split

@[simp ↓] theorem keep_obsStep {s : State} (hk : Out [OBS_ACCEL, OBS_POSITION, OBS_SPEED, WEB_SPEED_MM_S] kk) (h :
    Holds kk vv md mh mb s) :
    Holds kk vv md mh mb s.obsStep := by
  simp at hk; unfold State.obsStep; repeat' first | (simp (maxDischargeDepth := 60) +contextual [*]; done) | split

theorem keep_execObsUpdate {dt : Nat} {s : State} {t : State} (hk : Out [OBS_ACCEL, OBS_POSITION, OBS_SPEED,
    TRACE_HEAD, WEB_SPEED_MM_S] kk) (h : Holds kk vv md mh mb s) (e : execObsUpdate dt s = .next t) :
    Holds kk vv md mh mb t := by
  simp at hk; unfold execObsUpdate at e
  refine keep_act ?_ (fun u hu => ?_) e
  · simp [*]
  · repeat' first | (simp (maxDischargeDepth := 60) +contextual [*]; done) | split

theorem keep_execEncStandstill {dt : Nat} {s : State} {t : State} (hk : Out leaveRegs kk ∧ Out modeRegs kk ∧ Out
    [OBS_ACCEL, OBS_POSITION, OBS_SPEED, OBS_STANDSTILLS, OBS_STATE, TRACE_HEAD, WEB_SPEED_MM_S] kk) (h : Holds kk
    vv none none none s) (e : execEncStandstill dt s = .next t) :
    Holds kk vv none none none t := by
  simp at hk; unfold execEncStandstill at e
  refine keep_act ?_ (fun u hu => ?_) e
  · simp [*]
  · repeat' first | (simp (maxDischargeDepth := 60) +contextual [*]; done) | split

@[simp ↓] theorem keep_modCyl {s : State} {f : Cyl → Cyl} (h : Holds kk vv md mh mb s) :
    Holds kk vv md mh mb (s.modCyl f) := by
  unfold State.modCyl; repeat' first | (simp (maxDischargeDepth := 60) +contextual [*]; done) | split

@[simp ↓] theorem keep_addStart {s : State} {x : Nat} (hk : Out bookRegs kk ∧ Out [REG_START_LATE] kk) (h : Holds
    kk vv md mh mb s) :
    Holds kk vv md mh mb (s.addStart x) := by
  simp at hk; unfold State.addStart; repeat' first | (simp (maxDischargeDepth := 60) +contextual [*]; done) | split

@[simp ↓] theorem keep_cylReference {s : State} {c edges : Nat} (hk : Out bookRegs kk ∧ Out [CYL_REFS,
    CYL_REF_COUNT, CYL_TOOTH_ERR, DET_AMPLITUDE, DET_BLOCKS, DET_DISCARDED, DET_LIMIT_HITS, DET_MEAN, DET_PHASE,
    DET_RATIO_PERMILLE, DET_VALID, REG_REV_COUNTS, REG_START_LATE] kk) (h : Holds kk vv md mh mb s) :
    Holds kk vv md mh mb (s.cylReference c edges) := by
  simp at hk; unfold State.cylReference
  repeat' (first
    | (simp (maxDischargeDepth := 60) +contextual [*]; done)
    | simp only [holds_mk, holdsOf_parts]
    | with_reducible refine keep_foldl _ (fun t x ht => ?_) ?_
    | with_reducible refine keep_foldl_fst _ (fun t b x ht => ?_) ?_
    | with_reducible refine keep_ite (fun _ => ?_) (fun _ => ?_)
    | split | with_reducible refine keep_fst ?_ (by assumption) | with_reducible refine keep_snd ?_ (by assumption)
    | dsimp only)

@[simp ↓] theorem keep_cylMiss {s : State} (hk : Out bookRegs kk ∧ Out [CYL_REF_MISS, DET_DISCARDED] kk) (h :
    Holds kk vv md mh mb s) :
    Holds kk vv md mh mb s.cylMiss := by
  simp at hk; unfold State.cylMiss; repeat' first | (simp (maxDischargeDepth := 60) +contextual [*]; done) | split

@[simp ↓] theorem keep_toothNormal {s : State} {p : Nat} (hk : Out bookRegs kk ∧ Out [CYL_REF_MISS,
    CYL_TOOTH_PERIOD, DET_DISCARDED] kk) (h : Holds kk vv md mh mb s) :
    Holds kk vv md mh mb (s.toothNormal p) := by
  simp at hk; unfold State.toothNormal; repeat' first | (simp (maxDischargeDepth := 60) +contextual [*]; done) | split

@[simp ↓] theorem keep_toothEvaluate {s : State} {y : Cyl} {c pk : Nat} (hk : Out bookRegs kk ∧ Out [CYL_REFS,
    CYL_REF_COUNT, CYL_REF_MISS, CYL_TOOTH_ERR, CYL_TOOTH_PERIOD, DET_AMPLITUDE, DET_BLOCKS, DET_DISCARDED,
    DET_LIMIT_HITS, DET_MEAN, DET_PHASE, DET_RATIO_PERMILLE, DET_VALID, REG_REV_COUNTS, REG_START_LATE] kk) (h :
    Holds kk vv md mh mb s) :
    Holds kk vv md mh mb (s.toothEvaluate y c pk) := by
  simp at hk; unfold State.toothEvaluate; repeat' first | (simp (maxDischargeDepth := 60) +contextual [*]; done) | split

@[simp ↓] theorem keep_toothRestart {s : State} (hk : Out bookRegs kk ∧ Out [DET_DISCARDED] kk) (h : Holds kk vv
    md mh mb s) :
    Holds kk vv md mh mb s.toothRestart := by
  simp at hk; unfold State.toothRestart; repeat' first | (simp (maxDischargeDepth := 60) +contextual [*]; done) | split

@[simp ↓] theorem keep_toothEdge {s : State} (hk : Out bookRegs kk ∧ Out [CYL_REFS, CYL_REF_COUNT, CYL_REF_MISS,
    CYL_TOOTH_ERR, CYL_TOOTH_PERIOD, DET_AMPLITUDE, DET_BLOCKS, DET_DISCARDED, DET_LIMIT_HITS, DET_MEAN,
    DET_PHASE, DET_RATIO_PERMILLE, DET_VALID, REG_REV_COUNTS, REG_START_LATE] kk) (h : Holds kk vv md mh mb s) :
    Holds kk vv md mh mb s.toothEdge := by
  simp at hk; unfold State.toothEdge
  repeat' (first
    | (simp (maxDischargeDepth := 60) +contextual [*]; done)
    | simp only [holds_mk, holdsOf_parts]
    | with_reducible refine keep_foldl _ (fun t x ht => ?_) ?_
    | with_reducible refine keep_foldl_fst _ (fun t b x ht => ?_) ?_
    | with_reducible refine keep_ite (fun _ => ?_) (fun _ => ?_)
    | split | with_reducible refine keep_fst ?_ (by assumption) | with_reducible refine keep_snd ?_ (by assumption)
    | dsimp only)

theorem keep_execCylToothEdge {dt : Nat} {s : State} {t : State} (hk : Out bookRegs kk ∧ Out [CYL_REFS,
    CYL_REF_COUNT, CYL_REF_MISS, CYL_TOOTH_ERR, CYL_TOOTH_PERIOD, DET_AMPLITUDE, DET_BLOCKS, DET_DISCARDED,
    DET_LIMIT_HITS, DET_MEAN, DET_PHASE, DET_RATIO_PERMILLE, DET_VALID, REG_REV_COUNTS, REG_START_LATE,
    TRACE_HEAD] kk) (h : Holds kk vv md mh mb s) (e : execCylToothEdge dt s = .next t) :
    Holds kk vv md mh mb t := by
  simp at hk; unfold execCylToothEdge at e
  refine keep_act ?_ (fun u hu => ?_) e
  · simp [*]
  · repeat' (first
        | (simp (maxDischargeDepth := 60) +contextual [*]; done)
        | simp only [holds_mk, holdsOf_parts]
        | with_reducible refine keep_foldl _ (fun t x ht => ?_) ?_
        | with_reducible refine keep_foldl_fst _ (fun t b x ht => ?_) ?_
        | with_reducible refine keep_ite (fun _ => ?_) (fun _ => ?_)
        | split | with_reducible refine keep_fst ?_ (by assumption) | with_reducible refine keep_snd ?_ (by assumption)
        | dsimp only)

theorem keep_execAuxCount {dt input : Nat} {a b : Bool} {held : Nat} {s : State} {t : State} (hk : Out bookRegs kk ∧
    Out emcyRegs kk ∧ Out [AUX_COUNT, ENC_FAULT, ENC_ILLEGAL, PULSE_BACKLOG, PULSE_COUNT, PULSE_OVERRUN, TRACE_HEAD]
    kk) (h : Holds kk vv md mh mb s) (e : execAuxCount dt input a b held s = .next t) :
    Holds kk vv md mh mb t := by
  simp at hk; unfold execAuxCount at e
  refine keep_act ?_ (fun u hu => ?_) e
  · simp [*]
  · repeat' (first
        | (simp (maxDischargeDepth := 60) +contextual [*]; done)
        | simp only [holds_mk, holdsOf_parts]
        | with_reducible refine keep_foldl _ (fun t x ht => ?_) ?_
        | with_reducible refine keep_foldl_fst _ (fun t b x ht => ?_) ?_
        | with_reducible refine keep_ite (fun _ => ?_) (fun _ => ?_)
        | split | with_reducible refine keep_fst ?_ (by assumption) | with_reducible refine keep_snd ?_ (by assumption)
        | dsimp only)

theorem keep_execPulseEdge {dt n : Nat} {s : State} {t : State} (hk : Out [PULSE_BACKLOG, TRACE_HEAD] kk) (h :
    Holds kk vv md mh mb s) (e : execPulseEdge dt n s = .next t) :
    Holds kk vv md mh mb t := by
  simp at hk; unfold execPulseEdge at e
  refine keep_act ?_ (fun u hu => ?_) e
  · simp [*]
  · repeat' (first
        | (simp (maxDischargeDepth := 60) +contextual [*]; done)
        | simp only [holds_mk, holdsOf_parts]
        | with_reducible refine keep_foldl _ (fun t x ht => ?_) ?_
        | with_reducible refine keep_foldl_fst _ (fun t b x ht => ?_) ?_
        | with_reducible refine keep_ite (fun _ => ?_) (fun _ => ?_)
        | split | with_reducible refine keep_fst ?_ (by assumption) | with_reducible refine keep_snd ?_ (by assumption)
        | dsimp only)

@[simp ↓] theorem keep_writePulseDivider {s : State} {via : Path} {n : Nat} {isQ : Bool} {v : Nat} (hk : Out
    bookRegs kk ∧ Out [HL_DICT_ERRORS, PULSE_P, PULSE_Q] kk) (h : Holds kk vv md mh mb s) :
    Holds kk vv md mh mb (s.writePulseDivider via n isQ v) := by
  simp at hk; unfold State.writePulseDivider; repeat' first | (simp (maxDischargeDepth := 60) +contextual [*]; done) | split

theorem keep_execPulseDividerWrite {dt : Nat} {via : Path} {n : Nat} {isQ : Bool} {value : Nat} {s : State} {t :
    State} (hk : Out bookRegs kk ∧ Out [HL_DICT_ERRORS, PULSE_P, PULSE_Q, TRACE_HEAD] kk) (h : Holds kk vv md mh
    mb s) (e : execPulseDividerWrite dt via n isQ value s = .next t) :
    Holds kk vv md mh mb t := by
  simp at hk; unfold execPulseDividerWrite at e
  refine keep_act ?_ (fun u hu => ?_) e
  · simp [*]
  · repeat' first | (simp (maxDischargeDepth := 60) +contextual [*]; done) | split

@[simp ↓] theorem keep_motionClear {s : State} (hk : Out bookRegs kk ∧ Out emcyRegs kk ∧ Out [AUX_SLIP,
    CASCADE_COUNT_ERR, CYL_REF_MISS, CYL_TOOTH_ERR, ENC_AMP_FAULTS, ENC_FAULT, ENC_ILLEGAL, ENC_INDEX_ERR,
    ENC_SERIAL_ERR, ENC_SERIAL_WARN, ENC_WIRE, PULSE_OVERRUN] kk) (h : Holds kk vv md mh mb s) :
    Holds kk vv md mh mb s.motionClear := by
  simp at hk; unfold State.motionClear; repeat' first | (simp (maxDischargeDepth := 60) +contextual [*]; done) | split

theorem keep_execMotionClear {dt : Nat} {via : Path} {s : State} {t : State} (hk : Out bookRegs kk ∧ Out emcyRegs
    kk ∧ Out [AUX_SLIP, CASCADE_COUNT_ERR, CYL_REF_MISS, CYL_TOOTH_ERR, ENC_AMP_FAULTS, ENC_FAULT, ENC_ILLEGAL,
    ENC_INDEX_ERR, ENC_SERIAL_ERR, ENC_SERIAL_WARN, ENC_WIRE, HL_DICT_ERRORS, PULSE_OVERRUN, TRACE_HEAD] kk) (h :
    Holds kk vv md mh mb s) (e : execMotionClear dt via s = .next t) :
    Holds kk vv md mh mb t := by
  simp at hk; unfold execMotionClear at e
  refine keep_act ?_ (fun u hu => ?_) e
  · simp [*]
  · repeat' first | (simp (maxDischargeDepth := 60) +contextual [*]; done) | split

end Sys2Proof.Machine
end

