-- ==== Sys2Proof/Laws/KeepFilterChain.lean ====
section
/-! SUPPORT. Laws/KeepFilterChain.lean: what the operations and commands leave alone, of Machine/FilterChain.lean. -/
namespace Sys2Proof.Machine
open Reg
variable {kk : Key} {vv : Option Nat} {md mh : Option Memory} {mb : Option Blobs}

@[simp ↓] theorem keep_modGrp {s : State} {g : Nat} {f : FGroup → FGroup} (h : Holds kk vv md mh mb s) :
    Holds kk vv md mh mb (s.modGrp g f) := by
  unfold State.modGrp; repeat' first | (simp (maxDischargeDepth := 60) +contextual [*]; done) | split

@[simp ↓] theorem keep_swapBanks {s : State} {g : Nat} (hk : Out [FC_BANK_ACTIVE, FC_FADE_STATE] kk) (h : Holds kk
    vv md mh mb s) :
    Holds kk vv md mh mb (s.swapBanks g) := by
  simp at hk; unfold State.swapBanks; repeat' first | (simp (maxDischargeDepth := 60) +contextual [*]; done) | split

@[simp ↓] theorem keep_endFade {s : State} {g : Nat} (hk : Out [FC_BANK_ACTIVE, FC_FADE_STATE] kk) (h : Holds kk
    vv md mh mb s) :
    Holds kk vv md mh mb (s.endFade g) := by
  simp at hk; unfold State.endFade; repeat' first | (simp (maxDischargeDepth := 60) +contextual [*]; done) | split

@[simp ↓] theorem keep_filterReset {s : State} {g : Nat} (hk : Out bookRegs kk ∧ Out [DET_DISCARDED,
    FC_BANK_ACTIVE, FC_FADE_STATE, FC_SYNC_COUNT] kk) (h : Holds kk vv md mh mb s) :
    Holds kk vv md mh mb (s.filterReset g) := by
  simp at hk; unfold State.filterReset; repeat' first | (simp (maxDischargeDepth := 60) +contextual [*]; done) | split

@[simp ↓] theorem keep_storeFilter {s : State} {g : Nat} (hk : Out logRegs kk) (h : Holds kk vv md mh mb s) :
    Holds kk vv md mh mb (s.storeFilter g) := by
  simp at hk; unfold State.storeFilter; repeat' first | (simp (maxDischargeDepth := 60) +contextual [*]; done) | split

@[simp ↓] theorem keep_writePreset {s : State} {via : Path} {g v : Nat} (hk : Out logRegs kk ∧ Out bookRegs kk ∧
    Out [DET_DISCARDED, FC_BANK_ACTIVE, FC_FADE_STATE, FC_PRESET, FC_SYNC_COUNT, HL_DICT_ERRORS] kk) (h : Holds kk
    vv md mh mb s) :
    Holds kk vv md mh mb (s.writePreset via g v) := by
  simp at hk; unfold State.writePreset; repeat' first | (simp (maxDischargeDepth := 60) +contextual [*]; done) | split

theorem keep_execFcPresetWrite {dt : Nat} {via : Path} {group value : Nat} {s : State} {t : State} (hk : Out
    logRegs kk ∧ Out bookRegs kk ∧ Out [DET_DISCARDED, FC_BANK_ACTIVE, FC_FADE_STATE, FC_PRESET, FC_SYNC_COUNT,
    HL_DICT_ERRORS, TRACE_HEAD] kk) (h : Holds kk vv md mh mb s) (e : execFcPresetWrite dt via group value s =
    .next t) :
    Holds kk vv md mh mb t := by
  simp at hk; unfold execFcPresetWrite at e
  refine keep_act ?_ (fun u hu => ?_) e
  · simp [*]
  · repeat' first | (simp (maxDischargeDepth := 60) +contextual [*]; done) | split

@[simp ↓] theorem keep_writeCoef {s : State} {via : Path} {g : Nat} {b : List Byte} (hk : Out bookRegs kk ∧ Out
    [FC_COMMIT_RESULT, HL_DICT_ERRORS] kk) (h : Holds kk vv md mh mb s) :
    Holds kk vv md mh mb (s.writeCoef via g b) := by
  simp at hk; unfold State.writeCoef; repeat' first | (simp (maxDischargeDepth := 60) +contextual [*]; done) | split

@[simp ↓] theorem keep_coefCommit {s : State} {via : Path} {g : Nat} (hk : Out logRegs kk ∧ Out bookRegs kk ∧ Out
    [FC_BANK_ACTIVE, FC_COMMIT_RESULT, FC_FADE_STATE, HL_DICT_ERRORS] kk) (h : Holds kk vv md mh mb s) :
    Holds kk vv md mh mb (s.coefCommit via g) := by
  simp at hk; unfold State.coefCommit; repeat' first | (simp (maxDischargeDepth := 60) +contextual [*]; done) | split

theorem keep_execFcCoefCommit {dt : Nat} {via : Path} {group : Nat} {s : State} {t : State} (hk : Out logRegs kk ∧
    Out bookRegs kk ∧ Out [FC_BANK_ACTIVE, FC_COMMIT_RESULT, FC_FADE_STATE, HL_DICT_ERRORS, TRACE_HEAD] kk) (h :
    Holds kk vv md mh mb s) (e : execFcCoefCommit dt via group s = .next t) :
    Holds kk vv md mh mb t := by
  simp at hk; unfold execFcCoefCommit at e
  refine keep_act ?_ (fun u hu => ?_) e
  · simp [*]
  · repeat' first | (simp (maxDischargeDepth := 60) +contextual [*]; done) | split

@[simp ↓] theorem keep_coefFactory {s : State} {via : Path} {g : Nat} (hk : Out bookRegs kk ∧ Out [HL_DICT_ERRORS]
    kk) (h : Holds kk vv md mh mb s) :
    Holds kk vv md mh mb (s.coefFactory via g) := by
  simp at hk; unfold State.coefFactory; repeat' first | (simp (maxDischargeDepth := 60) +contextual [*]; done) | split

theorem keep_execFcCoefFactory {dt : Nat} {via : Path} {group : Nat} {s : State} {t : State} (hk : Out bookRegs kk
    ∧ Out [HL_DICT_ERRORS, TRACE_HEAD] kk) (h : Holds kk vv md mh mb s) (e : execFcCoefFactory dt via group s =
    .next t) :
    Holds kk vv md mh mb t := by
  simp at hk; unfold execFcCoefFactory at e
  refine keep_act ?_ (fun u hu => ?_) e
  · simp [*]
  · repeat' first | (simp (maxDischargeDepth := 60) +contextual [*]; done) | split

@[simp ↓] theorem keep_filterSync {s : State} {via : Path} {mask : Nat} (hk : Out bookRegs kk ∧ Out
    [DET_DISCARDED, FC_BANK_ACTIVE, FC_FADE_STATE, FC_SYNC_COUNT, HL_DICT_ERRORS] kk) (h : Holds kk vv md mh mb s) :
    Holds kk vv md mh mb (s.filterSync via mask) := by
  simp at hk; unfold State.filterSync; repeat' first | (simp (maxDischargeDepth := 60) +contextual [*]; done) | split

theorem keep_execFcSync {dt : Nat} {via : Path} {mask : Nat} {s : State} {t : State} (hk : Out bookRegs kk ∧ Out
    [DET_DISCARDED, FC_BANK_ACTIVE, FC_FADE_STATE, FC_SYNC_COUNT, HL_DICT_ERRORS, TRACE_HEAD] kk) (h : Holds kk vv
    md mh mb s) (e : execFcSync dt via mask s = .next t) :
    Holds kk vv md mh mb t := by
  simp at hk; unfold execFcSync at e
  refine keep_act ?_ (fun u hu => ?_) e
  · simp [*]
  · repeat' first | (simp (maxDischargeDepth := 60) +contextual [*]; done) | split

@[simp ↓] theorem keep_captureRun {s : State} (hk : Out [FC_CAPTURE_STATE] kk) (h : Holds kk vv md mh none s) :
    Holds kk vv md mh none s.captureRun := by
  simp at hk; unfold State.captureRun; repeat' first | (simp (maxDischargeDepth := 60) +contextual [*]; done) | split

theorem keep_execFcCaptureRun {dt : Nat} {via : Path} {s : State} {t : State} (hk : Out bookRegs kk ∧ Out
    [FC_CAPTURE_STATE, HL_DICT_ERRORS, TRACE_HEAD] kk) (h : Holds kk vv md mh none s) (e : execFcCaptureRun dt via
    s = .next t) :
    Holds kk vv md mh none t := by
  simp at hk; unfold execFcCaptureRun at e
  refine keep_act ?_ (fun u hu => ?_) e
  · simp [*]
  · repeat' first | (simp (maxDischargeDepth := 60) +contextual [*]; done) | split

@[simp ↓] theorem keep_filterClear {s : State} {via : Path} (hk : Out bookRegs kk ∧ Out [DET_DISCARDED,
    DET_LIMIT_HITS, FC_OVERLOAD, HL_DICT_ERRORS] kk) (h : Holds kk vv md mh mb s) :
    Holds kk vv md mh mb (s.filterClear via) := by
  simp at hk; unfold State.filterClear; repeat' first | (simp (maxDischargeDepth := 60) +contextual [*]; done) | split

theorem keep_execFcClear {dt : Nat} {via : Path} {s : State} {t : State} (hk : Out bookRegs kk ∧ Out
    [DET_DISCARDED, DET_LIMIT_HITS, FC_OVERLOAD, HL_DICT_ERRORS, TRACE_HEAD] kk) (h : Holds kk vv md mh mb s) (e :
    execFcClear dt via s = .next t) :
    Holds kk vv md mh mb t := by
  simp at hk; unfold execFcClear at e
  refine keep_act ?_ (fun u hu => ?_) e
  · simp [*]
  · repeat' first | (simp (maxDischargeDepth := 60) +contextual [*]; done) | split

@[simp ↓] theorem keep_chanOutput {s : State} {c : Nat} {y : Int} {settling fading : Bool} (hk : Out bookRegs kk ∧
    Out [FC_FLAGS, FC_OVERLOAD, FC_SAMPLES, FC_VALUE] kk) (h : Holds kk vv md mh mb s) :
    Holds kk vv md mh mb (s.chanOutput c y settling fading) := by
  simp at hk; unfold State.chanOutput; repeat' first | (simp (maxDischargeDepth := 60) +contextual [*]; done) | split

@[simp ↓] theorem keep_amplitudeCheck {s : State} {input : Nat} (hk : Out bookRegs kk ∧ Out emcyRegs kk ∧ Out
    [ENC_AMPLITUDE_PERMILLE, ENC_AMP_FAULTS, ENC_FAULT] kk) (h : Holds kk vv md mh mb s) :
    Holds kk vv md mh mb (s.amplitudeCheck input) := by
  simp at hk; unfold State.amplitudeCheck; repeat' first | (simp (maxDischargeDepth := 60) +contextual [*]; done) | split

@[simp ↓] theorem keep_fractionFollows {s : State} {input : Nat} (hk : Out countRegs kk ∧ Out [AUX_COUNT] kk) (h :
    Holds kk vv none none none s) :
    Holds kk vv none none none (s.fractionFollows input) := by
  simp at hk; unfold State.fractionFollows; repeat' first | (simp (maxDischargeDepth := 60) +contextual [*]; done) | split

@[simp ↓] theorem keep_encoderOutput {s : State} {input : Nat} {settling : Bool} (hk : Out countRegs kk ∧ Out
    [AUX_COUNT, ENC_AMPLITUDE_PERMILLE, ENC_AMP_FAULTS] kk) (h : Holds kk vv none none none s) :
    Holds kk vv none none none (s.encoderOutput input settling) := by
  simp at hk; unfold State.encoderOutput; repeat' first | (simp (maxDischargeDepth := 60) +contextual [*]; done) | split

@[simp ↓] theorem keep_photoOutput {s : State} {settling : Bool} (hk : Out bookRegs kk ∧ Out [TRIM_ABANDONED,
    TRIM_BUSY_BAY, TRIM_LAST_RESULT, TRIM_LAST_STRIP] kk) (h : Holds kk vv md mh mb s) :
    Holds kk vv md mh mb (s.photoOutput settling) := by
  simp at hk; unfold State.photoOutput; repeat' first | (simp (maxDischargeDepth := 60) +contextual [*]; done) | split

@[simp ↓] theorem keep_captureOutput {s : State} {g : Nat} (hk : Out bookRegs kk ∧ Out [FC_CAPTURE_STATE,
    REG_CAPTURES] kk) (h : Holds kk vv md mh none s) :
    Holds kk vv md mh none (s.captureOutput g) := by
  simp at hk; unfold State.captureOutput; repeat' first | (simp (maxDischargeDepth := 60) +contextual [*]; done) | split

@[simp ↓] theorem keep_groupOutput {s : State} {g : Nat} {words : List Nat} (hk : Out countRegs kk ∧ Out [AUX_COUNT,
    DET_AMPLITUDE, DET_BLOCKS, DET_LIMIT_HITS, DET_MEAN, DET_PHASE, DET_RATIO_PERMILLE, DET_VALID,
    ENC_AMPLITUDE_PERMILLE, ENC_AMP_FAULTS, FC_BANK_ACTIVE, FC_CAPTURE_STATE, FC_FADE_STATE, FC_FLAGS, FC_OVERLOAD,
    FC_SAMPLES, FC_VALUE] kk) (h : Holds kk vv none none none s) :
    Holds kk vv none none none (s.groupOutput g words) := by
  simp at hk; unfold State.groupOutput
  repeat' (first
    | with_reducible assumption
    | with_reducible refine keep_modGrp ?_
    | with_reducible refine keep_chanOutput ?_ ?_
    | with_reducible refine keep_swapBanks ?_ ?_
    | with_reducible refine keep_emit ?_ ?_
    | with_reducible refine keep_encoderOutput ?_ ?_
    | with_reducible refine keep_photoOutput ?_ ?_
    | with_reducible refine keep_captureOutput ?_ ?_
    | with_reducible refine keep_detGroupSample ?_ ?_
    | simp only [holds_mk, holdsOf_parts]
    | with_reducible refine keep_foldl _ (fun t x ht => ?_) ?_
    | with_reducible refine keep_foldl_fst _ (fun t b x ht => ?_) ?_
    | with_reducible refine keep_ite (fun _ => ?_) (fun _ => ?_)
    | with_reducible refine keep_set ?_ ?_
    | (with_reducible refine And.intro ?_ ?_)
    | (simp only [out_cons, out_nil, and_true, true_and]; done)
    | (simp [hk]; done)
    | split | with_reducible refine keep_fst ?_ (by assumption) | with_reducible refine keep_snd ?_ (by assumption)
    | (intro _; try dsimp only)
    | dsimp only)

theorem keep_execFilterOutput {dt group : Nat} {words : List Nat} {s : State} {t : State} (hk : Out countRegs kk ∧
    Out [AUX_COUNT, DET_AMPLITUDE, DET_BLOCKS, DET_LIMIT_HITS, DET_MEAN, DET_PHASE, DET_RATIO_PERMILLE, DET_VALID,
    ENC_AMPLITUDE_PERMILLE, ENC_AMP_FAULTS, FC_BANK_ACTIVE, FC_CAPTURE_STATE, FC_FADE_STATE, FC_FLAGS, FC_OVERLOAD,
    FC_SAMPLES, FC_VALUE, TRACE_HEAD] kk) (h : Holds kk vv none none none s) (e : execFilterOutput dt group words s
    = .next t) :
    Holds kk vv none none none t := by
  simp at hk; unfold execFilterOutput at e
  refine keep_act ?_ (fun u hu => ?_) e
  · simp [*]
  · repeat' first | (simp (maxDischargeDepth := 60) +contextual [*]; done) | split

end Sys2Proof.Machine
end

