-- ==== Sys2Proof/Laws/KeepLaneCommands.lean ====
section
/-! SUPPORT. Laws/KeepLaneCommands.lean: what the operations and commands leave alone, of Machine/LaneCommands.lean. -/
namespace Sys2Proof.Machine
open Reg
variable {kk : Key} {vv : Option Nat} {md mh : Option Memory} {mb : Option Blobs}

@[simp ↓] theorem keep_linesDown {s : State} (hk : Out bookRegs kk ∧ Out [LINES_LATE, LINES_SUBSTITUTED, RING_DROP,
    RING_FRAMES, RING_OVERSIZE, RING_STAGED_BYTES, TRIM_ABANDONED, TRIM_BUSY_BAY, TRIM_LAST_RESULT, TRIM_LAST_STRIP,
    WHARF_HOST_WR_BYTES] kk) (h : Holds kk vv md none mb s) :
    Holds kk vv md none mb s.linesDown := by
  simp at hk; unfold State.linesDown; repeat' first | (simp (maxDischargeDepth := 60) +contextual [*]; done) | split

theorem keep_execCxpDiscoveryDone {dt bay : Nat} {cam : Option CxpCamera} {s : State} {t : State} (hk : Out bookRegs
    kk ∧ Out emcyRegs kk ∧ Out [BAY_CTRL_TIMEOUT, BAY_LANES_UP, BAY_RESULT, BAY_STATE, CASCADE_RESULT, LANE_CONN_ID,
    LANE_STATE, LINES_LATE, LINES_SUBSTITUTED, RING_DROP, RING_FRAMES, RING_OVERSIZE, RING_STAGED_BYTES, TRACE_HEAD,
    TRIM_ABANDONED, TRIM_BUSY_BAY, TRIM_LAST_RESULT, TRIM_LAST_STRIP, WHARF_HOST_WR_BYTES] kk) (h : Holds kk vv md
    none mb s) (e : execCxpDiscoveryDone dt bay cam s = .next t) :
    Holds kk vv md none mb t := by
  simp at hk; unfold execCxpDiscoveryDone at e
  refine keep_act ?_ (fun u hu => ?_) e
  · simp [*]
  · repeat' first | (simp (maxDischargeDepth := 60) +contextual [*]; done) | split

theorem keep_execCxpStepUpTimeout {dt bay : Nat} {s : State} {t : State} (hk : Out bookRegs kk ∧ Out emcyRegs kk ∧
    Out [BAY_LANES_UP, BAY_RESULT, BAY_STATE, CASCADE_RESULT, LANE_STATE, LINES_LATE, LINES_SUBSTITUTED, RING_DROP,
    RING_FRAMES, RING_OVERSIZE, RING_STAGED_BYTES, TRACE_HEAD, TRIM_ABANDONED, TRIM_BUSY_BAY, TRIM_LAST_RESULT,
    TRIM_LAST_STRIP, WHARF_HOST_WR_BYTES] kk) (h : Holds kk vv md none mb s) (e : execCxpStepUpTimeout dt bay s =
    .next t) :
    Holds kk vv md none mb t := by
  simp at hk; unfold execCxpStepUpTimeout at e
  refine keep_act ?_ (fun u hu => ?_) e
  · simp [*]
  · repeat' first | (simp (maxDischargeDepth := 60) +contextual [*]; done) | split

theorem keep_execLaneStepDone {dt quad lane lanesOffered : Nat} {s : State} {t : State} (hk : Out bookRegs kk ∧ Out
    emcyRegs kk ∧ Out [BAY_LANES_UP, BAY_RESULT, BAY_STATE, CASCADE_RESULT, LANE_STATE, LINES_LATE,
    LINES_SUBSTITUTED, RING_DROP, RING_FRAMES, RING_OVERSIZE, RING_STAGED_BYTES, TRACE_HEAD, TRIM_ABANDONED,
    TRIM_BUSY_BAY, TRIM_LAST_RESULT, TRIM_LAST_STRIP, WHARF_HOST_WR_BYTES] kk) (h : Holds kk vv md none mb s) (e :
    execLaneStepDone dt quad lane lanesOffered s = .next t) :
    Holds kk vv md none mb t := by
  simp at hk; unfold execLaneStepDone at e
  refine keep_act ?_ (fun u hu => ?_) e
  · simp [*]
  · repeat' (first
        | (simp (maxDischargeDepth := 60) +contextual [*]; done)
        | simp only [holds_mk, holdsOf_parts]
        | with_reducible refine keep_foldl _ (fun t x ht => ?_) ?_
        | with_reducible refine keep_foldl_fst _ (fun t b x ht => ?_) ?_
        | with_reducible refine keep_ite (fun _ => ?_) (fun _ => ?_)
        | split | with_reducible refine keep_fst ?_ (by assumption) | with_reducible refine keep_snd ?_ (by assumption)
        | dsimp only)

theorem keep_execLaneStepTimeout {dt quad lane : Nat} {s : State} {t : State} (hk : Out bookRegs kk ∧ Out emcyRegs
    kk ∧ Out [BAY_LANES_UP, BAY_RESULT, BAY_STATE, CASCADE_RESULT, LANE_RETRAIN, LANE_STATE, LINES_LATE,
    LINES_SUBSTITUTED, RING_DROP, RING_FRAMES, RING_OVERSIZE, RING_STAGED_BYTES, TRACE_HEAD, TRIM_ABANDONED,
    TRIM_BUSY_BAY, TRIM_LAST_RESULT, TRIM_LAST_STRIP, WHARF_HOST_WR_BYTES] kk) (h : Holds kk vv md none mb s) (e :
    execLaneStepTimeout dt quad lane s = .next t) :
    Holds kk vv md none mb t := by
  simp at hk; unfold execLaneStepTimeout at e
  refine keep_act ?_ (fun u hu => ?_) e
  · simp [*]
  · repeat' (first
        | (simp (maxDischargeDepth := 60) +contextual [*]; done)
        | simp only [holds_mk, holdsOf_parts]
        | with_reducible refine keep_foldl _ (fun t x ht => ?_) ?_
        | with_reducible refine keep_foldl_fst _ (fun t b x ht => ?_) ?_
        | with_reducible refine keep_ite (fun _ => ?_) (fun _ => ?_)
        | split | with_reducible refine keep_fst ?_ (by assumption) | with_reducible refine keep_snd ?_ (by assumption)
        | dsimp only)

theorem keep_execLaneRetrainFail {dt quad lane : Nat} {s : State} {t : State} (hk : Out declareRegs kk ∧ Out
    emcyRegs kk ∧ Out [BAY_LANES_UP, BAY_RESULT, BAY_STATE, CASCADE_RESULT, LANE_RETRAIN, LANE_SLICE, LANE_STATE,
    LINES_LATE, LINES_SUBSTITUTED, RING_DROP, RING_FRAMES, RING_OVERSIZE, RING_STAGED_BYTES, TRACE_HEAD,
    TRIM_ABANDONED, TRIM_BUSY_BAY, TRIM_LAST_RESULT, TRIM_LAST_STRIP, WHARF_HOST_WR_BYTES] kk) (h : Holds kk vv md
    none mb s) (e : execLaneRetrainFail dt quad lane s = .next t) :
    Holds kk vv md none mb t := by
  simp at hk; unfold execLaneRetrainFail at e
  refine keep_act ?_ (fun u hu => ?_) e
  · simp [*]
  · repeat' first | (simp (maxDischargeDepth := 60) +contextual [*]; done) | split

theorem keep_execPocxpOverload {dt bay milliwatt overMs : Nat} {short : Bool} {s : State} {t : State} (hk : Out
    bookRegs kk ∧ Out emcyRegs kk ∧ Out [BAY_LANES_UP, BAY_POCXP_FAULT, BAY_POCXP_MW, BAY_RESULT, BAY_STATE,
    CASCADE_RESULT, LANE_STATE, LINES_LATE, LINES_SUBSTITUTED, RING_DROP, RING_FRAMES, RING_OVERSIZE,
    RING_STAGED_BYTES, TRACE_HEAD, TRIM_ABANDONED, TRIM_BUSY_BAY, TRIM_LAST_RESULT, TRIM_LAST_STRIP,
    WHARF_HOST_WR_BYTES] kk) (h : Holds kk vv md none mb s) (e : execPocxpOverload dt bay milliwatt overMs short s =
    .next t) :
    Holds kk vv md none mb t := by
  simp at hk; unfold execPocxpOverload at e
  refine keep_act ?_ (fun u hu => ?_) e
  · simp [*]
  · repeat' first | (simp (maxDischargeDepth := 60) +contextual [*]; done) | split

end Sys2Proof.Machine
end

