-- ==== Sys2Proof/Laws/KeepPower.lean ====
section
/-! SUPPORT. Laws/KeepPower.lean: what the operations and commands leave alone, of Machine/Power.lean. -/
namespace Sys2Proof.Machine
open Reg
variable {kk : Key} {vv : Option Nat} {md mh : Option Memory} {mb : Option Blobs}

@[simp ↓] theorem keep_powerCheck {s : State} (hk : Out holdRegs kk ∧ Out [POWER_CAPACITY_W, POWER_REDUNDANT,
    POWER_REQUIRED_W] kk) (h : Holds kk vv md none none s) :
    Holds kk vv md none none s.powerCheck := by
  simp at hk; unfold State.powerCheck; repeat' first | (simp (maxDischargeDepth := 60) +contextual [*]; done) | split

theorem keep_execPowerCheck {dt : Nat} {s : State} {t : State} (hk : Out holdRegs kk ∧ Out [DC_LOAD_W,
    INPUT_POWER_W, POWER_CAPACITY_W, POWER_REDUNDANT, POWER_REQUIRED_W, PSU_STAGE_POWER_W, TRACE_HEAD] kk) (h :
    Holds kk vv md none none s) (e : execPowerCheck dt s = .next t) :
    Holds kk vv md none none t := by
  simp at hk; unfold execPowerCheck at e
  refine keep_act ?_ (fun u hu => ?_) e
  · simp [*]
  · repeat' first | (simp (maxDischargeDepth := 60) +contextual [*]; done) | split

theorem keep_execPsuStageFault {dt stage : Nat} {s : State} {t : State} (hk : Out logRegs kk ∧ Out bookRegs kk ∧
    Out [PSU_LIFE_FAULTS, PSU_STAGE_FAULTS, PSU_STAGE_STATE, TRACE_HEAD] kk) (h : Holds kk vv md mh mb s) (e :
    execPsuStageFault dt stage s = .next t) :
    Holds kk vv md mh mb t := by
  simp at hk; unfold execPsuStageFault at e
  refine keep_act ?_ (fun u hu => ?_) e
  · simp [*]
  · repeat' first | (simp (maxDischargeDepth := 60) +contextual [*]; done) | split

@[simp ↓] theorem keep_lineState {s : State} {st : Nat} (hk : Out holdRegs kk ∧ Out [MAINS_STATE] kk) (h : Holds kk
    vv md none none s) :
    Holds kk vv md none none (s.lineState st) := by
  simp at hk; unfold State.lineState; repeat' first | (simp (maxDischargeDepth := 60) +contextual [*]; done) | split

theorem keep_execMainsHalfCycle {dt peakV rmsDeciV centiHz : Nat} {s : State} {t : State} (hk : Out holdRegs kk ∧
    Out [MAINS_HZ, MAINS_STATE, MAINS_VRMS, POWER_CAPACITY_W, POWER_REDUNDANT, POWER_REQUIRED_W, TRACE_HEAD] kk) (h
    : Holds kk vv md none none s) (e : execMainsHalfCycle dt peakV rmsDeciV centiHz s = .next t) :
    Holds kk vv md none none t := by
  simp at hk; unfold execMainsHalfCycle at e
  refine keep_act ?_ (fun u hu => ?_) e
  · simp [*]
  · repeat' (first
        | (simp (maxDischargeDepth := 60) +contextual [*]; done)
        | simp only [holds_mk, holdsOf_parts]
        | with_reducible refine keep_foldl _ (fun t x ht => ?_) ?_
        | with_reducible refine keep_foldl_fst _ (fun t b x ht => ?_) ?_
        | with_reducible refine keep_ite (fun _ => ?_) (fun _ => ?_)
        | split | with_reducible refine keep_fst ?_ (by assumption) | with_reducible refine keep_snd ?_ (by assumption)
        | dsimp only)

theorem keep_execMainsLoss {dt : Nat} {s : State} {t : State} (hk : Out holdRegs kk ∧ Out logRegs kk ∧ Out
    [LIGHT_POWER_W, LIGHT_SHED, LOGBOOK_MAINS_COMMIT_US, MAINS_LOSS_COUNT, MAINS_STATE, TRACE_HEAD] kk) (h : Holds
    kk vv md none none s) (e : execMainsLoss dt s = .next t) :
    Holds kk vv md none none t := by
  simp at hk; unfold execMainsLoss at e
  refine keep_act ?_ (fun u hu => ?_) e
  · simp [*]
  · repeat' first | (simp (maxDischargeDepth := 60) +contextual [*]; done) | split

@[simp ↓] theorem keep_powerDown {s : State} (hk : Out bookRegs kk ∧ Out [BAR_CURRENT_MA, BAR_STATE, BAY_LANES_UP,
    BAY_POCXP_MW, BAY_SPEED, BAY_STATE, EASEL_STATE, FERRY_DISCARD, ISLAND_STATE, ISO_ERROR_RESPONSES, LANE_STATE,
    PD_STATE, TILE_LOG_STATE, WHARF_HOST_WR_BYTES] kk) (h : Holds kk vv md none mb s) :
    Holds kk vv md none mb s.powerDown := by
  simp at hk; unfold State.powerDown; repeat' first | (simp (maxDischargeDepth := 60) +contextual [*]; done) | split

theorem keep_execMainsPowerDown {dt : Nat} {s : State} {t : State} (hk : Out bookRegs kk ∧ Out [BAR_CURRENT_MA,
    BAR_STATE, BAY_LANES_UP, BAY_POCXP_MW, BAY_SPEED, BAY_STATE, EASEL_STATE, FERRY_DISCARD, ISLAND_STATE,
    ISO_ERROR_RESPONSES, LANE_STATE, PD_STATE, TILE_LOG_STATE, TRACE_HEAD, WHARF_HOST_WR_BYTES] kk) (h : Holds kk vv
    md none mb s) (e : execMainsPowerDown dt s = .next t) :
    Holds kk vv md none mb t := by
  simp at hk; unfold execMainsPowerDown at e
  refine keep_act ?_ (fun u hu => ?_) e
  · simp [*]
  · repeat' first | (simp (maxDischargeDepth := 60) +contextual [*]; done) | split

theorem keep_execTempSample {dt : Nat} {dieMc inletMc : Int} {s : State} {t : State} (hk : Out holdRegs kk ∧ Out
    [TEMP_DIE_MC, TEMP_INLET_MC, TRACE_HEAD] kk) (h : Holds kk vv md none none s) (e : execTempSample dt dieMc
    inletMc s = .next t) :
    Holds kk vv md none none t := by
  simp at hk; unfold execTempSample at e
  refine keep_act ?_ (fun u hu => ?_) e
  · simp [*]
  · repeat' first | (simp (maxDischargeDepth := 60) +contextual [*]; done) | split

theorem keep_execThermalTrip {dt : Nat} {s : State} {t : State} (hk : Out bookRegs kk ∧ Out [BAR_CURRENT_MA,
    BAR_STATE, BAY_LANES_UP, BAY_POCXP_MW, BAY_SPEED, BAY_STATE, EASEL_STATE, FERRY_DISCARD, ISLAND_STATE,
    ISO_ERROR_RESPONSES, LANE_STATE, PD_STATE, TILE_LOG_STATE, TRACE_HEAD, WHARF_HOST_WR_BYTES] kk) (h : Holds kk vv
    md none mb s) (e : execThermalTrip dt s = .next t) :
    Holds kk vv md none mb t := by
  simp at hk; unfold execThermalTrip at e
  refine keep_act ?_ (fun u hu => ?_) e
  · simp [*]
  · repeat' first | (simp (maxDischargeDepth := 60) +contextual [*]; done) | split

theorem keep_execWdtExpiry {dt : Nat} {s : State} {t : State} (hk : Out holdRegs kk ∧ Out [TRACE_HEAD] kk) (h :
    Holds kk vv md none none s) (e : execWdtExpiry dt s = .next t) :
    Holds kk vv md none none t := by
  simp at hk; unfold execWdtExpiry at e
  refine keep_act ?_ (fun u hu => ?_) e
  · simp [*]
  · repeat' first | (simp (maxDischargeDepth := 60) +contextual [*]; done) | split

@[simp ↓] theorem keep_islandFailed {s : State} {i : Nat} (hk : Out lostRegs kk ∧ Out [BAY_RESULT, CASCADE_RESULT,
    EASEL_PHYS, LINES_LATE, LINES_SUBSTITUTED, TILE_BLIND_TASKS, TILE_PHYS, TILE_TASKS] kk) (h : Holds kk vv none
    none none s) :
    Holds kk vv none none none (s.islandFailed i) := by
  simp at hk; unfold State.islandFailed; repeat' first | (simp (maxDischargeDepth := 60) +contextual [*]; done) | split

@[simp ↓] theorem keep_islandFail {s : State} {i : Nat} (hk : Out lostRegs kk ∧ Out [BAY_RESULT, CASCADE_RESULT,
    EASEL_PHYS, ISLAND_FAIL_LAST, LINES_LATE, LINES_SUBSTITUTED, TILE_BLIND_TASKS, TILE_PHYS, TILE_TASKS] kk) (h :
    Holds kk vv none none none s) :
    Holds kk vv none none none (s.islandFail i) := by
  simp at hk; unfold State.islandFail; repeat' first | (simp (maxDischargeDepth := 60) +contextual [*]; done) | split

theorem keep_execIslandRelease {dt island cycles : Nat} {s : State} {t : State} (hk : Out [BAY_LANES_UP,
    BAY_POCXP_MW, BAY_SPEED, BAY_STATE, ISLAND_STATE, LANE_STATE, TRACE_HEAD] kk) (h : Holds kk vv md mh mb s) (e :
    execIslandRelease dt island cycles s = .next t) :
    Holds kk vv md mh mb t := by
  simp at hk; unfold execIslandRelease at e
  refine keep_act ?_ (fun u hu => ?_) e
  · simp [*]
  · repeat' first | (simp (maxDischargeDepth := 60) +contextual [*]; done) | split

theorem keep_execIslandLockTimeout {dt island : Nat} {s : State} {t : State} (hk : Out lostRegs kk ∧ Out
    [BAY_RESULT, CASCADE_RESULT, EASEL_PHYS, ISLAND_FAIL_LAST, ISLAND_LOCK_RETRY, LINES_LATE, LINES_SUBSTITUTED,
    TILE_BLIND_TASKS, TILE_PHYS, TILE_TASKS, TRACE_HEAD] kk) (h : Holds kk vv none none none s) (e :
    execIslandLockTimeout dt island s = .next t) :
    Holds kk vv none none none t := by
  simp at hk; unfold execIslandLockTimeout at e
  refine keep_act ?_ (fun u hu => ?_) e
  · simp [*]
  · repeat' first | (simp (maxDischargeDepth := 60) +contextual [*]; done) | split

theorem keep_execIslandWake {dt island : Nat} {s : State} {t : State} (hk : Out [ISLAND_STATE, ISLAND_WAKES,
    TRACE_HEAD] kk) (h : Holds kk vv md mh mb s) (e : execIslandWake dt island s = .next t) :
    Holds kk vv md mh mb t := by
  simp at hk; unfold execIslandWake at e
  refine keep_act ?_ (fun u hu => ?_) e
  · simp [*]
  · repeat' first | (simp (maxDischargeDepth := 60) +contextual [*]; done) | split

theorem keep_execMooringToken {dt island : Nat} {s : State} {t : State} (hk : Out [FERRY_MOORINGS, TRACE_HEAD] kk)
    (h : Holds kk vv md mh mb s) (e : execMooringToken dt island s = .next t) :
    Holds kk vv md mh mb t := by
  simp at hk; unfold execMooringToken at e
  refine keep_act ?_ (fun u hu => ?_) e
  · simp [*]
  · repeat' first | (simp (maxDischargeDepth := 60) +contextual [*]; done) | split

@[simp ↓] theorem keep_riseStart {s : State} (hk : Out [ MODE_PENDING, MODE_RESULT] kk) (h : Holds kk vv md mh mb
    s) :
    Holds kk vv md mh mb s.riseStart := by
  simp at hk; unfold State.riseStart; repeat' first | (simp (maxDischargeDepth := 60) +contextual [*]; done) | split

theorem keep_execDomainPowergood {dt domain : Nat} {s : State} {t : State} (hk : Out [ISLAND_STATE, PD_STATE,
    TRACE_HEAD] kk) (h : Holds kk vv md mh mb s) (e : execDomainPowergood dt domain s = .next t) :
    Holds kk vv md mh mb t := by
  simp at hk; unfold execDomainPowergood at e
  refine keep_act ?_ (fun u hu => ?_) e
  · simp [*]
  · repeat' first | (simp (maxDischargeDepth := 60) +contextual [*]; done) | split

theorem keep_execDomainPowergoodTimeout {dt domain : Nat} {s : State} {t : State} (hk : Out lostRegs kk ∧ Out
    [BAY_RESULT, CASCADE_RESULT, EASEL_PHYS, ISLAND_FAIL_LAST, LINES_LATE, LINES_SUBSTITUTED, PD_POWERGOOD_FAIL,
    TILE_BLIND_TASKS, TILE_PHYS, TILE_TASKS, TRACE_HEAD] kk) (h : Holds kk vv none none none s) (e :
    execDomainPowergoodTimeout dt domain s = .next t) :
    Holds kk vv none none none t := by
  simp at hk; unfold execDomainPowergoodTimeout at e
  refine keep_act ?_ (fun u hu => ?_) e
  · simp [*]
  · repeat' first | (simp (maxDischargeDepth := 60) +contextual [*]; done) | split

@[simp ↓] theorem keep_reviveJob {s : State} (hk : Out presetRegs kk ∧ Out logRegs kk ∧ Out bookRegs kk ∧ Out
    [ACTIVE_SLOT, BAR_CURRENT_MA, BAR_STATE, EXP_APPLY_STRIP, EXP_COMMIT_REPLACED, EXP_PENDING, JOB_STAMP,
    JOB_START_COUNT, LIGHT_POWER_W, REG_UP_PRESENT] kk) (h : Holds kk vv none mh mb s) :
    Holds kk vv none mh mb s.reviveJob := by
  simp at hk; unfold State.reviveJob
  repeat' (first
    | (simp (maxDischargeDepth := 60) +contextual [*]; done)
    | simp only [holds_mk, holdsOf_parts]
    | with_reducible refine keep_foldl _ (fun t x ht => ?_) ?_
    | with_reducible refine keep_foldl_fst _ (fun t b x ht => ?_) ?_
    | with_reducible refine keep_ite (fun _ => ?_) (fun _ => ?_)
    | split | with_reducible refine keep_fst ?_ (by assumption) | with_reducible refine keep_snd ?_ (by assumption)
    | dsimp only)

@[simp ↓] theorem keep_startWindow {s : State} {k : Nat} (h : Holds kk vv md mh mb s) :
    Holds kk vv md mh mb (s.startWindow k) := by
  unfold State.startWindow; repeat' first | (simp (maxDischargeDepth := 60) +contextual [*]; done) | split

@[simp ↓] theorem keep_restoreEvents {s : State} (hk : Out [CELL_CFG, CHAN_CFG, CHAN_HOLDOFF, CHAN_RATE_LIMIT, CHAN_RATE_WINDOW_US, TIMER_PERIOD] kk) (h : Holds kk vv md mh mb s) :
    Holds kk vv md mh mb s.restoreEvents := by
  simp at hk
  unfold State.restoreEvents
  simp only
  split
  · exact h
  · split
    · simp [h]
    · refine keep_foldl _ (fun t x ht => ?_) (keep_restore (by simp [eventObjs, hk]) (by simp [h]))
      split
      · simp [ht]
      · exact ht

@[simp ↓] theorem keep_enterReady {s : State} (hk : Out presetRegs kk ∧ Out readyRegs kk) (h : Holds kk vv none none
    none s) :
    Holds kk vv none none none s.enterReady := by
  simp at hk; unfold State.enterReady; repeat' first | (simp (maxDischargeDepth := 60) +contextual [*]; done) | split

theorem keep_execBringupEnd {dt : Nat} {s : State} {t : State} (hk : Out presetRegs kk ∧ Out readyRegs kk ∧ Out
    [BAY_POCXP_MW, BAY_SPEED, BAY_STATE, FERRY_DISCARD, ISO_ERROR_RESPONSES, TRACE_HEAD] kk) (h : Holds kk vv none
    none none s) (e : execBringupEnd dt s = .next t) :
    Holds kk vv none none none t := by
  simp at hk; unfold execBringupEnd at e
  refine keep_act ?_ (fun u hu => ?_) e
  · simp [*]
  · repeat' first | (simp (maxDischargeDepth := 60) +contextual [*]; done) | split

@[simp ↓] theorem keep_powerClear {s : State} {via : Path} (hk : Out bookRegs kk ∧ Out [FERRY_DISCARD,
    FERRY_FENCED_DROP, HL_DICT_ERRORS, ISLAND_LOCK_RETRY, ISO_ERROR_RESPONSES, MAINS_LOSS_COUNT,
    PD_POWERGOOD_FAIL, PSU_STAGE_FAULTS, SUPERVISOR_RESTARTS] kk) (h : Holds kk vv md mh mb s) :
    Holds kk vv md mh mb (s.powerClear via) := by
  have hb := hk; simp [bookRegs] at hb; simp at hk; unfold State.powerClear; repeat' first | (simp (maxDischargeDepth := 60) +contextual [*]; done) | split

theorem keep_execPowerClear {dt : Nat} {via : Path} {s : State} {t : State} (hk : Out bookRegs kk ∧ Out
    [FERRY_DISCARD, FERRY_FENCED_DROP, HL_DICT_ERRORS, ISLAND_LOCK_RETRY, ISO_ERROR_RESPONSES, MAINS_LOSS_COUNT,
    PD_POWERGOOD_FAIL, PSU_STAGE_FAULTS, SUPERVISOR_RESTARTS, TRACE_HEAD] kk) (h : Holds kk vv md mh mb s) (e :
    execPowerClear dt via s = .next t) :
    Holds kk vv md mh mb t := by
  simp at hk; unfold execPowerClear at e
  refine keep_act ?_ (fun u hu => ?_) e
  · simp [*]
  · repeat' first | (simp (maxDischargeDepth := 60) +contextual [*]; done) | split

end Sys2Proof.Machine
end

