-- ==== Sys2Proof/Laws/KeepModeRequest.lean ====
section
/-! SUPPORT. Laws/KeepModeRequest.lean: what the operations and commands leave alone, of Machine/ModeRequest.lean. -/
namespace Sys2Proof.Machine
open Reg
variable {kk : Key} {vv : Option Nat} {md mh : Option Memory} {mb : Option Blobs}

@[simp ↓] theorem keep_dataChecks {s : State} (hk : Out [EASEL_COMMIT_RESULT, TIDE_RESULT, VIEW_CONFIG_RESULT] kk)
    (h : Holds kk vv md mh mb s) :
    Holds kk vv md mh mb s.dataChecks.1 := by
  simp at hk; unfold State.dataChecks; repeat' first | (simp (maxDischargeDepth := 60) +contextual [*]; done) | split

@[simp ↓] theorem keep_inspectCheck {s : State} (hk : Out [EASEL_COMMIT_RESULT, TIDE_RESULT, VIEW_CONFIG_RESULT]
    kk) (h : Holds kk vv md mh mb s) :
    Holds kk vv md mh mb s.inspectCheck.1 := by
  simp at hk; unfold State.inspectCheck; repeat' first | (simp (maxDischargeDepth := 60) +contextual [*]; done) | split

@[simp ↓] theorem keep_makereadyCheck {s : State} (hk : Out [EASEL_COMMIT_RESULT, TIDE_RESULT, VIEW_CONFIG_RESULT]
    kk) (h : Holds kk vv md mh mb s) :
    Holds kk vv md mh mb s.makereadyCheck.1 := by
  simp at hk; unfold State.makereadyCheck; repeat' first | (simp (maxDischargeDepth := 60) +contextual [*]; done) | split

@[simp ↓] theorem keep_calibrateCheck {s : State} (hk : Out [EASEL_COMMIT_RESULT, VIEW_CONFIG_RESULT] kk) (h :
    Holds kk vv md mh mb s) :
    Holds kk vv md mh mb s.calibrateCheck.1 := by
  simp at hk; unfold State.calibrateCheck; repeat' first | (simp (maxDischargeDepth := 60) +contextual [*]; done) | split

theorem keep_modeCheck {s t : State} {m target b : Nat} (hk : Out [EASEL_COMMIT_RESULT, TIDE_RESULT,
    VIEW_CONFIG_RESULT] kk) (h : Holds kk vv md mh mb s) (e : s.modeCheck m target = some (t, b)) :
    Holds kk vv md mh mb t := by
  simp at hk
  unfold State.modeCheck at e
  split at e
  all_goals first
    | with_reducible exact keep_fst (x := s.makereadyCheck) (by simp [*]) (Option.some.inj e)
    | with_reducible exact keep_fst (x := s.calibrateCheck) (by simp [*]) (Option.some.inj e)
    | with_reducible exact keep_fst (x := s.inspectCheck) (by simp [*]) (Option.some.inj e)
    | with_reducible exact keep_fst (x := (s, _)) h (Option.some.inj e)
    | cases e

@[simp ↓] theorem keep_coverFlushed {s : State} {v : Nat} {x : CStrip} (h : Holds kk vv md mh mb s) :
    Holds kk vv md mh mb (s.coverFlushed v x) := by
  unfold State.coverFlushed; repeat' first | (simp (maxDischargeDepth := 60) +contextual [*]; done) | split

@[simp ↓] theorem keep_flushStrip {s : State} {v : Nat} {x : CStrip} (hk : Out recordRegs kk) (h : Holds kk vv none
    none mb s) :
    Holds kk vv none none mb (s.flushStrip v x) := by
  simp at hk; unfold State.flushStrip
  repeat' (first
    | (simp (maxDischargeDepth := 60) +contextual [*]; done)
    | simp only [holds_mk, holdsOf_parts]
    | with_reducible refine keep_foldl _ (fun t x ht => ?_) ?_
    | with_reducible refine keep_foldl_fst _ (fun t b x ht => ?_) ?_
    | with_reducible refine keep_ite (fun _ => ?_) (fun _ => ?_)
    | split | with_reducible refine keep_fst ?_ (by assumption) | with_reducible refine keep_snd ?_ (by assumption)
    | dsimp only)

@[simp ↓] theorem keep_reopenStrip {s : State} {v : Nat} (h : Holds kk vv none mh mb s) :
    Holds kk vv none mh mb (s.reopenStrip v) := by
  unfold State.reopenStrip
  repeat' (first
    | (simp (maxDischargeDepth := 60) +contextual [*]; done)
    | simp only [holds_mk, holdsOf_parts]
    | with_reducible refine keep_foldl _ (fun t x ht => ?_) ?_
    | with_reducible refine keep_foldl_fst _ (fun t b x ht => ?_) ?_
    | with_reducible refine keep_ite (fun _ => ?_) (fun _ => ?_)
    | split | with_reducible refine keep_fst ?_ (by assumption) | with_reducible refine keep_snd ?_ (by assumption)
    | dsimp only)

@[simp ↓] theorem keep_dropInFlight {s : State} (h : Holds kk vv md mh mb s) :
    Holds kk vv md mh mb s.dropInFlight := by
  unfold State.dropInFlight; repeat' first | (simp (maxDischargeDepth := 60) +contextual [*]; done) | split

@[simp ↓] theorem keep_finishMosaics {s : State} (hk : Out bookRegs kk ∧ Out [CAM_SEAM_GAIN_L, CAM_SEAM_GAIN_N,
    CANVAS_RELEASED_STRIP, CMP_ENGINES_BUSY, SEAM_GAIN_LIMIT, WH_STATUS] kk) (h : Holds kk vv none mh mb s) :
    Holds kk vv none mh mb s.finishMosaics := by
  simp at hk; unfold State.finishMosaics; repeat' first | (simp (maxDischargeDepth := 60) +contextual [*]; done) | split

@[simp ↓] theorem keep_flushPath {s : State} (hk : Out flushRegs kk ∧ Out [CAM_SEAM_GAIN_L, CAM_SEAM_GAIN_N,
    CANVAS_RELEASED_STRIP, CMP_ENGINES_BUSY, SEAM_GAIN_LIMIT, WH_STATUS] kk) (h : Holds kk vv none none mb s) :
    Holds kk vv none none mb s.flushPath := by
  simp at hk; unfold State.flushPath; repeat' first | (simp (maxDischargeDepth := 60) +contextual [*]; done) | split

@[simp ↓] theorem keep_dropOpen {s before : State} (h : Holds kk vv md mh mb s) :
    Holds kk vv md mh mb (s.dropOpen before) := by
  unfold State.dropOpen; repeat' first | (simp (maxDischargeDepth := 60) +contextual [*]; done) | split

@[simp ↓] theorem keep_leaveReady {s : State} (hk : Out fabricRegs kk ∧ Out modeRegs kk ∧ Out [BAR_CURRENT_MA,
    BAR_STATE, BAY_LANES_UP, BAY_POCXP_MW, BAY_SPEED, BAY_STATE, CAM_SEAM_GAIN_L, CAM_SEAM_GAIN_N,
    CANVAS_RELEASED_STRIP, CMP_ENGINES_BUSY, EASEL_STATE, FERRY_DISCARD, ISLAND_STATE, ISO_ERROR_RESPONSES,
    LANE_STATE, PD_STATE, SEAM_GAIN_LIMIT, TILE_LOG_STATE, WH_STATUS] kk) (h : Holds kk vv none none none s) :
    Holds kk vv none none none s.leaveReady := by
  simp at hk; unfold State.leaveReady; repeat' first | (simp (maxDischargeDepth := 60) +contextual [*]; done) | split

@[simp ↓] theorem keep_modeRefuse {s : State} {via : Path} {target result : Nat} (hk : Out bookRegs kk ∧ Out
    [HL_DICT_ERRORS, MODE_RESULT] kk) (h : Holds kk vv md mh mb s) :
    Holds kk vv md mh mb (s.modeRefuse via target result) := by
  simp at hk; unfold State.modeRefuse; repeat' first | (simp (maxDischargeDepth := 60) +contextual [*]; done) | split

@[simp ↓] theorem keep_requestHold {s : State} (hk : Out holdRegs kk) (h : Holds kk vv md none none s) :
    Holds kk vv md none none s.requestHold := by
  simp at hk; unfold State.requestHold; repeat' first | (simp (maxDischargeDepth := 60) +contextual [*]; done) | split

@[simp ↓] theorem keep_modeAccept {s : State} {target : Nat} (hk : Out leaveRegs kk ∧ Out modeRegs kk ∧ Out
    [BAY_POCXP_MW, BAY_SPEED, BAY_STATE, CAM_SEAM_GAIN_L, CAM_SEAM_GAIN_N, CANVAS_RELEASED_STRIP, CMP_ENGINES_BUSY,
    FERRY_DISCARD, ISO_ERROR_RESPONSES, SEAM_GAIN_LIMIT, WH_STATUS] kk) (h : Holds kk vv none none none s) :
    Holds kk vv none none none (s.modeAccept target) := by
  simp at hk; unfold State.modeAccept; repeat' first | (simp (maxDischargeDepth := 60) +contextual [*]; done) | split

@[simp ↓] theorem keep_requestMode {s : State} {via : Path} {target : Nat} (hk : Out leaveRegs kk ∧ Out modeRegs kk
    ∧ Out [BAY_POCXP_MW, BAY_SPEED, BAY_STATE, CAM_SEAM_GAIN_L, CAM_SEAM_GAIN_N, CANVAS_RELEASED_STRIP,
    CMP_ENGINES_BUSY, EASEL_COMMIT_RESULT, FERRY_DISCARD, HL_DICT_ERRORS, ISO_ERROR_RESPONSES, SEAM_GAIN_LIMIT,
    VIEW_CONFIG_RESULT, WH_STATUS] kk) (h : Holds kk vv none none none s) :
    Holds kk vv none none none (s.requestMode via target) := by
  simp at hk; unfold State.requestMode
  repeat' (first
    | (simp (maxDischargeDepth := 60) +contextual [*]; done)
    | with_reducible refine keep_modeResult ?_ ?_
    | with_reducible refine keep_accept ?_
    | with_reducible refine keep_modeRefuse ?_ ?_
    | with_reducible refine keep_modeAccept ?_ ?_
    | simp only [holds_mk, holdsOf_parts]
    | with_reducible refine keep_foldl _ (fun t x ht => ?_) ?_
    | with_reducible refine keep_foldl_fst _ (fun t b x ht => ?_) ?_
    | with_reducible refine keep_ite (fun _ => ?_) (fun _ => ?_)
    | split | with_reducible refine keep_fst ?_ (by assumption) | with_reducible refine keep_snd ?_ (by assumption)
    | with_reducible refine keep_modeCheck ?_ ?_ (by assumption)
    | (intro _; try dsimp only)
    | dsimp only)

@[simp ↓] theorem keep_modeRequest {s : State} {via : Path} {target : Nat} (hk : Out requestRegs kk ∧ Out leaveRegs
    kk ∧ Out [CAM_SEAM_GAIN_L, CAM_SEAM_GAIN_N, CANVAS_RELEASED_STRIP, CMP_ENGINES_BUSY, EASEL_COMMIT_RESULT,
    SEAM_GAIN_LIMIT, VIEW_CONFIG_RESULT, WH_STATUS] kk) (h : Holds kk vv none none none s) :
    Holds kk vv none none none (s.modeRequest via target) := by
  simp at hk; unfold State.modeRequest; repeat' first | (simp (maxDischargeDepth := 60) +contextual [*]; done) | split

theorem keep_execModeRequest {dt : Nat} {via : Path} {code : Nat} {s : State} {t : State} (hk : Out requestRegs kk ∧
    Out leaveRegs kk ∧ Out [CAM_SEAM_GAIN_L, CAM_SEAM_GAIN_N, CANVAS_RELEASED_STRIP, CMP_ENGINES_BUSY,
    EASEL_COMMIT_RESULT, SEAM_GAIN_LIMIT, TRACE_HEAD, VIEW_CONFIG_RESULT, WH_STATUS] kk) (h : Holds kk vv none none
    none s) (e : execModeRequest dt via code s = .next t) :
    Holds kk vv none none none t := by
  simp at hk; unfold execModeRequest at e
  refine keep_act ?_ (fun u hu => ?_) e
  · simp [*]
  · repeat' first | (simp (maxDischargeDepth := 60) +contextual [*]; done) | split

theorem keep_execHoldExitFlush {dt : Nat} {s : State} {t : State} (hk : Out fabricRegs kk ∧ Out modeRegs kk ∧ Out
    unitRegs kk ∧ Out [BAR_CURRENT_MA, BAR_STATE, BAY_LANES_UP, CAM_SEAM_GAIN_L, CAM_SEAM_GAIN_N,
    CANVAS_RELEASED_STRIP, CMP_ENGINES_BUSY, DET_DISCARDED, DRAM_MIGRATE_PERMILLE, DRAM_MIGRATE_STATE, EASEL_PHYS,
    EASEL_QUAY_FILL, EASEL_QUAY_PEAK, EASEL_STATE, HOLD_CAUSE, ISLAND_STATE, LANE_SLICE, LANE_STATE, LIGHT_POWER_W,
    PD_STATE, SEAM_GAIN_LIMIT, TILE_LOG_STATE, TILE_PHYS, TRACE_HEAD, TRIG_NEXT_COUNT, WH_STATUS] kk) (h : Holds kk
    vv none none none s) (e : execHoldExitFlush dt s = .next t) :
    Holds kk vv none none none t := by
  simp at hk; unfold execHoldExitFlush at e
  refine keep_act ?_ (fun u hu => ?_) e
  · simp [*]
  · repeat' first | (simp (maxDischargeDepth := 60) +contextual [*]; done) | split

end Sys2Proof.Machine
end

