-- ==== Sys2Proof/Laws/KeepTrigger.lean ====
section
/-! SUPPORT. Laws/KeepTrigger.lean: what the operations and commands leave alone, of Machine/Trigger.lean. -/
namespace Sys2Proof.Machine
open Reg
variable {kk : Key} {vv : Option Nat} {md mh : Option Memory} {mb : Option Blobs}

@[simp ↓] theorem keep_lineFallen {s : State} {n : Nat} (hk : Out [BAR_COMP_PERMILLE, BAR_CURRENT_MA,
    BAR_OUTPUT_PERMILLE, BAR_STATE, LIGHT_POWER_W] kk) (h : Holds kk vv md mh mb s) :
    Holds kk vv md mh mb (s.lineFallen n) := by
  simp at hk; unfold State.lineFallen
  repeat' (first
    | (simp (maxDischargeDepth := 60) +contextual [*]; done)
    | simp only [holds_mk, holdsOf_parts]
    | with_reducible refine keep_foldl _ (fun t x ht => ?_) ?_
    | with_reducible refine keep_foldl_fst _ (fun t b x ht => ?_) ?_
    | with_reducible refine keep_ite (fun _ => ?_) (fun _ => ?_)
    | split | with_reducible refine keep_fst ?_ (by assumption) | with_reducible refine keep_snd ?_ (by assumption)
    | dsimp only)

@[simp ↓] theorem keep_trigEdge {s : State} {b at_ : Nat} {rise : Bool} (h : Holds kk vv md mh mb s) :
    Holds kk vv md mh mb (s.trigEdge b at_ rise) := by
  unfold State.trigEdge; repeat' first | (simp (maxDischargeDepth := 60) +contextual [*]; done) | split

@[simp ↓] theorem keep_clipped {s : State} {b e : Nat} (hk : Out bookRegs kk ∧ Out [TRIG_WIDTH_CLIP] kk) (h : Holds
    kk vv md mh mb s) :
    Holds kk vv md mh mb (s.clipped b e) := by
  simp at hk; unfold State.clipped; repeat' first | (simp (maxDischargeDepth := 60) +contextual [*]; done) | split

@[simp ↓] theorem keep_clipTriggers {s : State} (hk : Out bookRegs kk ∧ Out [BAR_COMP_PERMILLE, BAR_CURRENT_MA,
    BAR_OUTPUT_PERMILLE, BAR_STATE, LIGHT_POWER_W, TRIG_WIDTH_CLIP] kk) (h : Holds kk vv md mh mb s) :
    Holds kk vv md mh mb s.clipTriggers := by
  simp at hk; unfold State.clipTriggers
  repeat' (first
    | (simp (maxDischargeDepth := 60) +contextual [*]; done)
    | with_reducible refine keep_tally ?_ ?_ ?_
    | with_reducible refine keep_lineFallen ?_ ?_
    | simp only [holds_mk, holdsOf_parts]
    | with_reducible refine keep_foldl _ (fun t x ht => ?_) ?_
    | with_reducible refine keep_foldl_fst _ (fun t b x ht => ?_) ?_
    | with_reducible refine keep_ite (fun _ => ?_) (fun _ => ?_)
    | split | with_reducible refine keep_fst ?_ (by assumption) | with_reducible refine keep_snd ?_ (by assumption)
    | (intro _; try dsimp only)
    | dsimp only)

@[simp ↓] theorem keep_trigDown {s : State} {bay : Nat} (h : Holds kk vv md mh mb s) :
    Holds kk vv md mh mb (s.trigDown bay) := by
  unfold State.trigDown; repeat' first | (simp (maxDischargeDepth := 60) +contextual [*]; done) | split

@[simp ↓] theorem keep_triggerFalls {s : State} {bay e : Nat} (hk : Out bookRegs kk ∧ Out [BAR_COMP_PERMILLE,
    BAR_CURRENT_MA, BAR_OUTPUT_PERMILLE, BAR_STATE, LIGHT_POWER_W, TRIG_WIDTH_CLIP] kk) (h : Holds kk vv md mh mb s)
    :
    Holds kk vv md mh mb (s.triggerFalls bay e) := by
  simp at hk; unfold State.triggerFalls; repeat' first | (simp (maxDischargeDepth := 60) +contextual [*]; done) | split

theorem keep_execTriggerWidthEnd {dt bay : Nat} {s : State} {t : State} (hk : Out bookRegs kk ∧ Out
    [BAR_COMP_PERMILLE, BAR_CURRENT_MA, BAR_OUTPUT_PERMILLE, BAR_STATE, CAL_STATE, LIGHT_POWER_W, TRACE_HEAD,
    TRIG_WIDTH_CLIP] kk) (h : Holds kk vv md mh none s) (e : execTriggerWidthEnd dt bay s = .next t) :
    Holds kk vv md mh none t := by
  simp at hk; unfold execTriggerWidthEnd at e
  refine keep_act ?_ (fun u hu => ?_) e
  · simp [*]
  · repeat' first | (simp (maxDischargeDepth := 60) +contextual [*]; done) | split

@[simp ↓] theorem keep_applyHeld {s : State} {a : Acc} (ha : a = .rwbStrip ∨ a = .rwbRepeat) (hk : Out presetRegs kk)
    (h : Holds kk vv md mh mb s) : Holds kk vv md mh mb (s.applyHeld a) := by
  unfold State.applyHeld
  refine keep_foldl _ (fun t x ht => ?_) h
  split
  · rename_i o i hf
    split
    · rename_i ho
      refine keep_set (hk.avoids (List.mem_filter.2 ⟨findObj_mem hf, ?_⟩)) (holds_mk.2 (holdsOf_parts.2 ht))
      rcases ha with rfl | rfl <;> simp [Obj.mayPreset, ho]
    · exact ht
  · exact ht

@[simp ↓] theorem keep_stripStart {s : State} {n : Nat} (hk : Out presetRegs kk ∧ Out bookRegs kk ∧ Out
    [BAR_CLAMP, BAR_CURRENT_MA, BAR_LIFE_STATE, BAR_STATE, EASEL_BYPASS, EASEL_COMMIT_RESULT, EASEL_CTX_PENDING,
    EASEL_PAL_PENDING, EASEL_QUAY_FILL, EASEL_QUAY_PEAK, EASEL_STATE, EXP_GENERATION, EXP_PENDING, LIGHT_POWER_W,
    TILE_DEADLINE_NS] kk) (h : Holds kk vv md mh none s) :
    Holds kk vv md mh none (s.stripStart n) := by
  simp at hk; unfold State.stripStart; repeat' first | (simp (maxDischargeDepth := 60) +contextual [*]; done) | split

@[simp ↓] theorem keep_dropStarts {s : State} {c : Nat} (h : Holds kk vv md mh mb s) :
    Holds kk vv md mh mb (s.dropStarts c) := by
  unfold State.dropStarts; repeat' first | (simp (maxDischargeDepth := 60) +contextual [*]; done) | split

@[simp ↓] theorem keep_fixMark {s : State} {l : PLine} {prev : Nat} (hk : Out bookRegs kk ∧ Out [REG_START_LATE]
    kk) (h : Holds kk vv md mh mb s) :
    Holds kk vv md mh mb (s.fixMark l prev) := by
  simp at hk; unfold State.fixMark
  repeat' (first
    | (simp (maxDischargeDepth := 60) +contextual [*]; done)
    | simp only [holds_mk, holdsOf_parts]
    | with_reducible refine keep_foldl _ (fun t x ht => ?_) ?_
    | with_reducible refine keep_foldl_fst _ (fun t b x ht => ?_) ?_
    | with_reducible refine keep_ite (fun _ => ?_) (fun _ => ?_)
    | split | with_reducible refine keep_fst ?_ (by assumption) | with_reducible refine keep_snd ?_ (by assumption)
    | dsimp only)

@[simp ↓] theorem keep_acquired {s : State} {l : PLine} {a : Nat} {r : Rep} (h : Holds kk vv md mh mb s) :
    Holds kk vv md mh mb (s.acquired l a r).1 := by
  unfold State.acquired; repeat' first | (simp (maxDischargeDepth := 60) +contextual [*]; done) | split

@[simp ↓] theorem keep_unlessShort {s : State} {short : Bool} {x : RepStart} (hk : Out bookRegs kk ∧ Out
    [REPEAT_SHORT] kk) (h : Holds kk vv md mh mb s) :
    Holds kk vv md mh mb (s.unlessShort short x).1 := by
  simp at hk; unfold State.unlessShort; repeat' first | (simp (maxDischargeDepth := 60) +contextual [*]; done) | split

@[simp ↓] theorem keep_openStart {s : State} {r : Rep} {n : Nat} {l : PLine} {prev : Nat} (hk : Out bookRegs kk ∧
    Out [REG_START_LATE, REPEAT_SHORT] kk) (h : Holds kk vv md mh mb s) :
    Holds kk vv md mh mb (s.openStart r n l prev).1 := by
  simp at hk; unfold State.openStart
  repeat' (first
    | (simp (maxDischargeDepth := 60) +contextual [*]; done)
    | simp only [holds_mk, holdsOf_parts]
    | with_reducible refine keep_foldl _ (fun t x ht => ?_) ?_
    | with_reducible refine keep_foldl_fst _ (fun t b x ht => ?_) ?_
    | with_reducible refine keep_ite (fun _ => ?_) (fun _ => ?_)
    | split | with_reducible refine keep_fst ?_ (by assumption) | with_reducible refine keep_snd ?_ (by assumption)
    | dsimp only)

@[simp ↓] theorem keep_repeatStart {s : State} {n : Nat} {l : PLine} {prev : Nat} (hk : Out bookRegs kk ∧ Out
    [REG_START_LATE, REPEAT_SHORT] kk) (h : Holds kk vv md mh mb s) :
    Holds kk vv md mh mb (s.repeatStart n l prev).1 := by
  simp at hk; unfold State.repeatStart
  repeat' (first
    | (simp (maxDischargeDepth := 60) +contextual [*]; done)
    | simp only [holds_mk, holdsOf_parts]
    | with_reducible refine keep_foldl _ (fun t x ht => ?_) ?_
    | with_reducible refine keep_foldl_fst _ (fun t b x ht => ?_) ?_
    | with_reducible refine keep_ite (fun _ => ?_) (fun _ => ?_)
    | split | with_reducible refine keep_fst ?_ (by assumption) | with_reducible refine keep_snd ?_ (by assumption)
    | dsimp only)

@[simp ↓] theorem keep_newOffset {s before : State} (h : Holds kk vv md mh mb s) :
    Holds kk vv md mh mb (s.newOffset before) := by
  unfold State.newOffset; repeat' first | (simp (maxDischargeDepth := 60) +contextual [*]; done) | split

@[simp ↓] theorem keep_entryPhase {s : State} {l : PLine} {prev : Nat} (h : Holds kk vv md mh mb s) :
    Holds kk vv md mh mb (s.entryPhase l prev).1 := by
  unfold State.entryPhase
  repeat' (first
    | (simp (maxDischargeDepth := 60) +contextual [*]; done)
    | simp only [holds_mk, holdsOf_parts]
    | with_reducible refine keep_foldl _ (fun t x ht => ?_) ?_
    | with_reducible refine keep_foldl_fst _ (fun t b x ht => ?_) ?_
    | with_reducible refine keep_ite (fun _ => ?_) (fun _ => ?_)
    | split | with_reducible refine keep_fst ?_ (by assumption) | with_reducible refine keep_snd ?_ (by assumption)
    | dsimp only)

@[simp ↓] theorem keep_startRepeat {s : State} {n : Nat} {l : PLine} {r : RepStart} (hk : Out bookRegs kk ∧ Out
    [REG_CAPTURES, REG_LEARN_BAND, REG_LEARN_BANDS, REG_LEARN_STATE, REG_PHASE_STATE, REG_UP_PRESENT,
    REPEAT_EPOCH, REPEAT_NUMBER, REPEAT_START_COUNT, TIDE_APPLY_LINE, TIDE_BANK_ACTIVE, TIDE_GENERATION,
    TIDE_PENDING, TIDE_RESULT] kk) (h : Holds kk vv md mh none s) :
    Holds kk vv md mh none (s.startRepeat n l r) := by
  simp at hk; unfold State.startRepeat
  repeat' (first
    | (simp (maxDischargeDepth := 60) +contextual [*]; done)
    | simp only [holds_mk, holdsOf_parts]
    | with_reducible refine keep_foldl _ (fun t x ht => ?_) ?_
    | with_reducible refine keep_foldl_fst _ (fun t b x ht => ?_) ?_
    | with_reducible refine keep_ite (fun _ => ?_) (fun _ => ?_)
    | split | with_reducible refine keep_fst ?_ (by assumption) | with_reducible refine keep_snd ?_ (by assumption)
    | dsimp only)

@[simp ↓] theorem keep_switchLine {s : State} {n : Nat} {l : PLine} (hk : Out presetRegs kk ∧ Out logRegs kk ∧ Out
    bookRegs kk ∧ Out [ACTIVE_SLOT, BAR_CURRENT_MA, BAR_STATE, EXP_APPLY_STRIP, EXP_COMMIT_REPLACED, EXP_PENDING,
    JOB_STAMP, JOB_START_COUNT, LIGHT_POWER_W, REG_CAPTURES, REG_LEARN_STATE, REG_SLOT_ACTIVE, REG_UP_PRESENT,
    SWITCH_LINE, SWITCH_RESULT, SWITCH_STATE, TIDE_APPLY_LINE, TIDE_BANK_ACTIVE, TIDE_GENERATION, TIDE_PENDING,
    TRIG_NEXT_COUNT, TRIM_ABANDONED, TRIM_BUSY_BAY, TRIM_LAST_RESULT, TRIM_LAST_STRIP] kk) (h : Holds kk vv md mh
    none s) :
    Holds kk vv md mh none (s.switchLine n l) := by
  simp at hk; unfold State.switchLine; repeat' first | (simp (maxDischargeDepth := 60) +contextual [*]; done) | split

@[simp ↓] theorem keep_changeOnStart {s : State} {n : Nat} (hk : Out leaveRegs kk ∧ Out modeRegs kk ∧ Out
    [EASEL_COMMIT_RESULT, VIEW_CONFIG_RESULT] kk) (h : Holds kk vv none none none s) :
    Holds kk vv none none none (s.changeOnStart n) := by
  simp at hk; unfold State.changeOnStart; repeat' first | (simp (maxDischargeDepth := 60) +contextual [*]; done) | split

@[simp ↓] theorem keep_lineStart {s : State} {n : Nat} {l : PLine} {prev : Nat} (hk : Out bookRegs kk ∧ Out
    [REG_START_LATE, REPEAT_SHORT] kk) (h : Holds kk vv md mh mb s) :
    Holds kk vv md mh mb (s.lineStart n l prev).1 := by
  simp at hk; unfold State.lineStart; repeat' first | (simp (maxDischargeDepth := 60) +contextual [*]; done) | split

@[simp ↓] theorem keep_lineTurn {s : State} {n : Nat} {l : PLine} {sw start leaves : Bool} (hk : Out presetRegs kk ∧
    Out leaveRegs kk ∧ Out jobRegs kk ∧ Out modeRegs kk ∧ Out [EASEL_COMMIT_RESULT, VIEW_CONFIG_RESULT] kk) (h :
    Holds kk vv none none none s) :
    Holds kk vv none none none (s.lineTurn n l sw start leaves) := by
  simp at hk; unfold State.lineTurn; repeat' first | (simp (maxDischargeDepth := 60) +contextual [*]; done) | split

@[simp ↓] theorem keep_lineOpen {s : State} {n : Nat} {l : PLine} {prev : Nat} {fresh : Bool} {start : Option
    RepStart} (hk : Out presetRegs kk ∧ Out bookRegs kk ∧ Out [REG_CAPTURES, REG_LEARN_BAND, REG_LEARN_BANDS,
    REG_LEARN_STATE, REG_PHASE_STATE, REG_UP_PRESENT, REPEAT_EPOCH, REPEAT_NUMBER, REPEAT_START_COUNT,
    TIDE_APPLY_LINE, TIDE_BANK_ACTIVE, TIDE_GENERATION, TIDE_PENDING, TIDE_RESULT] kk) (h : Holds kk vv md mh none
    s) :
    Holds kk vv md mh none (s.lineOpen n l prev fresh start) := by
  simp at hk; unfold State.lineOpen; repeat' first | (simp (maxDischargeDepth := 60) +contextual [*]; done) | split

@[simp ↓] theorem keep_lineChanges {s : State} {n : Nat} {l : PLine} {prev : Nat} (hk : Out presetRegs kk ∧ Out
    leaveRegs kk ∧ Out jobRegs kk ∧ Out modeRegs kk ∧ Out [EASEL_COMMIT_RESULT, REG_LEARN_BANDS, REG_PHASE_STATE,
    REG_START_LATE, REPEAT_EPOCH, REPEAT_NUMBER, REPEAT_SHORT, REPEAT_START_COUNT, VIEW_CONFIG_RESULT] kk) (h :
    Holds kk vv none none none s) :
    Holds kk vv none none none (s.lineChanges n l prev) := by
  simp at hk; unfold State.lineChanges
  repeat' (first
    | with_reducible assumption
    | with_reducible refine keep_lineStart ?_ ?_
    | with_reducible refine keep_lineTurn ?_ ?_
    | with_reducible refine keep_lineOpen ?_ ?_
    | simp only [holds_mk, holdsOf_parts]
    | with_reducible refine keep_foldl _ (fun t x ht => ?_) ?_
    | with_reducible refine keep_foldl_fst _ (fun t b x ht => ?_) ?_
    | with_reducible refine keep_ite (fun _ => ?_) (fun _ => ?_)
    | with_reducible refine keep_set ?_ ?_
    | (with_reducible refine And.intro ?_ ?_)
    | (simp only [out_cons, out_nil, and_true, true_and]; done)
    | (simp [hk]; done)
    | split | with_reducible refine keep_fst ?_ (by assumption) | with_reducible refine keep_snd ?_ (by assumption)
    | (intro _; try dsimp only)
    | dsimp only)

@[simp ↓] theorem keep_overspeedLine {s : State} {n : Nat} (hk : Out bookRegs kk ∧ Out [TRIG_OVERSPEED_LINES] kk)
    (h : Holds kk vv md mh mb s) :
    Holds kk vv md mh mb (s.overspeedLine n) := by
  simp at hk; unfold State.overspeedLine; repeat' first | (simp (maxDischargeDepth := 60) +contextual [*]; done) | split

@[simp ↓] theorem keep_lineOut {s : State} {n : Nat} {l : PLine} {calib : Bool} (hk : Out fabricRegs kk ∧ Out
    emcyRegs kk ∧ Out [ARCHIVE_GAPS, CAL_REJECT, CANVAS_ARCHIVE_EVICT, CANVAS_CROP_EVICT, CANVAS_OVERRUN,
    EASEL_COMMIT_RESULT, EASEL_COMMIT_STAGE, EASEL_CTX_APPLY_STRIP, EASEL_CTX_PENDING, EASEL_QUAY_DROP,
    EASEL_QUAY_FILL, EASEL_QUAY_PEAK, LINES_LATE, LINES_SUBSTITUTED, TRIG_OVERSPEED_LINES, TRIM_ABANDONED,
    TRIM_BASE_MC, TRIM_BUSY_BAY, TRIM_COUNT, TRIM_LAST_DARK_MAX, TRIM_LAST_GAIN, TRIM_LAST_RESULT, TRIM_LAST_STRIP]
    kk) (h : Holds kk vv none none none s) :
    Holds kk vv none none none (s.lineOut n l calib) := by
  simp at hk; unfold State.lineOut; repeat' first | (simp (maxDischargeDepth := 60) +contextual [*]; done) | split

@[simp ↓] theorem keep_sendCount {s : State} (h : Holds kk vv md mh mb s) : Holds kk vv md mh mb s.sendCount := by
  unfold State.sendCount; repeat' first | (simp (maxDischargeDepth := 60) +contextual [*]; done) | split

@[simp ↓] theorem keep_tellStart {s : State} {n : Nat} (h : Holds kk vv md mh mb s) :
    Holds kk vv md mh mb (s.tellStart n) := by
  unfold State.tellStart; repeat' first | (simp (maxDischargeDepth := 60) +contextual [*]; done) | split

theorem keep_execMarkSearchDone {dt rep : Nat} {s : State} {t : State} (hk : Out bookRegs kk ∧ Out
    [REG_MARK_ERR_COUNTS, REG_MARK_MISS, REG_PHASE_STATE, TRACE_HEAD] kk) (h : Holds kk vv md mh mb s) (e :
    execMarkSearchDone dt rep s = .next t) :
    Holds kk vv md mh mb t := by
  simp at hk; unfold execMarkSearchDone at e
  refine keep_act ?_ (fun u hu => ?_) e
  · simp [*]
  · repeat' first | (simp (maxDischargeDepth := 60) +contextual [*]; done) | split

@[simp ↓] theorem keep_jobStarts {s : State} {c : Nat} (hk : Out [JOB_START_COUNT] kk) (h : Holds kk vv md mh mb s)
    :
    Holds kk vv md mh mb (s.jobStarts c) := by
  simp at hk; unfold State.jobStarts; repeat' first | (simp (maxDischargeDepth := 60) +contextual [*]; done) | split

@[simp ↓] theorem keep_issueLine {s : State} {l : PLine} {calib : Bool} (hk : Out presetRegs kk ∧ Out leaveRegs kk ∧
    Out jobRegs kk ∧ Out modeRegs kk ∧ Out [ARCHIVE_GAPS, BAR_CLAMP, BAR_COMP_PERMILLE, BAR_LIFE_STATE,
    BAR_OUTPUT_PERMILLE, CAL_REJECT, CANVAS_ARCHIVE_EVICT, CANVAS_CROP_EVICT, CANVAS_OVERRUN, EASEL_BYPASS,
    EASEL_COMMIT_RESULT, EASEL_COMMIT_STAGE, EASEL_CTX_APPLY_STRIP, EASEL_CTX_PENDING, EASEL_PAL_PENDING,
    EASEL_QUAY_DROP, EXP_GENERATION, LINES_LATE, LINES_SUBSTITUTED, LINE_NUMBER, REG_LEARN_BANDS, REG_PHASE_STATE,
    REG_START_LATE, REPEAT_EPOCH, REPEAT_NUMBER, REPEAT_SHORT, REPEAT_START_COUNT, TILE_DEADLINE_NS,
    TRIG_OVERSPEED_LINES, TRIG_WIDTH_CLIP, TRIM_BASE_MC, TRIM_COUNT, TRIM_LAST_DARK_MAX, TRIM_LAST_GAIN,
    VIEW_CONFIG_RESULT] kk) (h : Holds kk vv none none none s) :
    Holds kk vv none none none (s.issueLine l calib) := by
  simp at hk; unfold State.issueLine; repeat' first | (simp (maxDischargeDepth := 60) +contextual [*]; done) | split

@[simp ↓] theorem keep_deferred {s : State} {l : PLine} (hk : Out bookRegs kk ∧ Out [TRIG_DEFERRED,
    TRIG_MAX_LAG_NS] kk) (h : Holds kk vv md mh mb s) :
    Holds kk vv md mh mb (s.deferred l) := by
  simp at hk; unfold State.deferred; repeat' first | (simp (maxDischargeDepth := 60) +contextual [*]; done) | split

theorem keep_execTriggerIssue {dt : Nat} {s : State} {t : State} (hk : Out presetRegs kk ∧ Out leaveRegs kk ∧ Out
    jobRegs kk ∧ Out modeRegs kk ∧ Out [ARCHIVE_GAPS, BAR_CLAMP, BAR_COMP_PERMILLE, BAR_LIFE_STATE,
    BAR_OUTPUT_PERMILLE, CAL_REJECT, CANVAS_ARCHIVE_EVICT, CANVAS_CROP_EVICT, CANVAS_OVERRUN, EASEL_BYPASS,
    EASEL_COMMIT_RESULT, EASEL_COMMIT_STAGE, EASEL_CTX_APPLY_STRIP, EASEL_CTX_PENDING, EASEL_PAL_PENDING,
    EASEL_QUAY_DROP, EXP_GENERATION, LINES_LATE, LINES_SUBSTITUTED, LINE_NUMBER, REG_LEARN_BANDS, REG_PHASE_STATE,
    REG_START_LATE, REPEAT_EPOCH, REPEAT_NUMBER, REPEAT_SHORT, REPEAT_START_COUNT, TILE_DEADLINE_NS, TRACE_HEAD,
    TRIG_DEFERRED, TRIG_MAX_LAG_NS, TRIG_OVERSPEED_LINES, TRIG_WIDTH_CLIP, TRIM_BASE_MC, TRIM_COUNT,
    TRIM_LAST_DARK_MAX, TRIM_LAST_GAIN, VIEW_CONFIG_RESULT] kk) (h : Holds kk vv none none none s) (e :
    execTriggerIssue dt s = .next t) :
    Holds kk vv none none none t := by
  simp at hk; unfold execTriggerIssue at e
  refine keep_act ?_ (fun u hu => ?_) e
  · simp [*]
  · repeat' first | (simp (maxDischargeDepth := 60) +contextual [*]; done) | split

theorem keep_execCalLineTimer {dt : Nat} {s : State} {t : State} (hk : Out presetRegs kk ∧ Out leaveRegs kk ∧ Out
    jobRegs kk ∧ Out modeRegs kk ∧ Out [ARCHIVE_GAPS, BAR_CLAMP, BAR_COMP_PERMILLE, BAR_LIFE_STATE,
    BAR_OUTPUT_PERMILLE, CAL_REJECT, CANVAS_ARCHIVE_EVICT, CANVAS_CROP_EVICT, CANVAS_OVERRUN, EASEL_BYPASS,
    EASEL_COMMIT_RESULT, EASEL_COMMIT_STAGE, EASEL_CTX_APPLY_STRIP, EASEL_CTX_PENDING, EASEL_PAL_PENDING,
    EASEL_QUAY_DROP, EXP_GENERATION, LINES_LATE, LINES_SUBSTITUTED, LINE_NUMBER, REG_LEARN_BANDS, REG_PHASE_STATE,
    REG_START_LATE, REPEAT_EPOCH, REPEAT_NUMBER, REPEAT_SHORT, REPEAT_START_COUNT, TILE_DEADLINE_NS, TRACE_HEAD,
    TRIG_OVERSPEED_LINES, TRIG_WIDTH_CLIP, TRIM_BASE_MC, TRIM_COUNT, TRIM_LAST_DARK_MAX, TRIM_LAST_GAIN,
    VIEW_CONFIG_RESULT] kk) (h : Holds kk vv none none none s) (e : execCalLineTimer dt s = .next t) :
    Holds kk vv none none none t := by
  simp at hk; unfold execCalLineTimer at e
  refine keep_act ?_ (fun u hu => ?_) e
  · simp [*]
  · repeat' first | (simp (maxDischargeDepth := 60) +contextual [*]; done) | split

theorem keep_execWebCountSend {dt : Nat} {s : State} {t : State} (hk : Out [TRACE_HEAD] kk) (h : Holds kk vv md mh
    mb s) (e : execWebCountSend dt s = .next t) :
    Holds kk vv md mh mb t := by
  simp at hk; unfold execWebCountSend at e
  refine keep_act ?_ (fun u hu => ?_) e
  · simp [*]
  · repeat' first | (simp (maxDischargeDepth := 60) +contextual [*]; done) | split

@[simp ↓] theorem keep_adoptCount {s : State} {d : Int} (hk : Out bookRegs kk ∧ Out [CASCADE_COUNT_ERR,
    CASCADE_COUNT_OFFSET, MARK_FIRED, MARK_NEXT_COUNT, MARK_QUEUE_FILL, TRIG_NEXT_COUNT, WEB_COUNT,
    WEB_HIGH_WATER] kk) (h : Holds kk vv md mh mb s) :
    Holds kk vv md mh mb (s.adoptCount d) := by
  simp at hk; unfold State.adoptCount; repeat' first | (simp (maxDischargeDepth := 60) +contextual [*]; done) | split

@[simp ↓] theorem keep_forgetFrom {s : State} {next : Nat} (hk : Out bookRegs kk ∧ Out emcyRegs kk ∧ Out
    [ARCHIVE_GAPS, CANVAS_ARCHIVE_EVICT, CANVAS_CROP_EVICT, CANVAS_OVERRUN, EASEL_CTX_APPLY_STRIP, EXP_APPLY_STRIP,
    RING_DROP, RING_FRAMES, RING_OVERSIZE, RING_STAGED_BYTES, TIDE_APPLY_LINE, WHARF_HOST_WR_BYTES] kk) (h : Holds
    kk vv md none mb s) :
    Holds kk vv md none mb (s.forgetFrom next) := by
  simp at hk; unfold State.forgetFrom; repeat' first | (simp (maxDischargeDepth := 60) +contextual [*]; done) | split

@[simp ↓] theorem keep_showWaiting {s : State} (hk : Out [EASEL_CTX_APPLY_STRIP, EXP_APPLY_STRIP] kk) (h : Holds kk
    vv md mh mb s) :
    Holds kk vv md mh mb s.showWaiting := by
  simp at hk; unfold State.showWaiting
  repeat' (first
    | (simp (maxDischargeDepth := 60) +contextual [*]; done)
    | simp only [holds_mk, holdsOf_parts]
    | with_reducible refine keep_foldl _ (fun t x ht => ?_) ?_
    | with_reducible refine keep_foldl_fst _ (fun t b x ht => ?_) ?_
    | with_reducible refine keep_ite (fun _ => ?_) (fun _ => ?_)
    | split | with_reducible refine keep_fst ?_ (by assumption) | with_reducible refine keep_snd ?_ (by assumption)
    | dsimp only)

@[simp ↓] theorem keep_stepBack {s : State} {next : Nat} (hk : Out bookRegs kk ∧ Out emcyRegs kk ∧ Out
    [ARCHIVE_GAPS, CANVAS_ARCHIVE_EVICT, CANVAS_CROP_EVICT, CANVAS_OVERRUN, EASEL_CTX_APPLY_STRIP, EXP_APPLY_STRIP,
    RING_DROP, RING_FRAMES, RING_OVERSIZE, RING_STAGED_BYTES, TIDE_APPLY_LINE, WHARF_HOST_WR_BYTES] kk) (h : Holds
    kk vv md none mb s) :
    Holds kk vv md none mb (s.stepBack next) := by
  simp at hk; unfold State.stepBack; repeat' first | (simp (maxDischargeDepth := 60) +contextual [*]; done) | split

@[simp ↓] theorem keep_pairAnew {s : State} {next : Nat} (h : Holds kk vv md mh mb s) :
    Holds kk vv md mh mb (s.pairAnew next) := by
  unfold State.pairAnew; repeat' first | (simp (maxDischargeDepth := 60) +contextual [*]; done) | split

@[simp ↓] theorem keep_adoptLine {s : State} {next target : Nat} (hk : Out bookRegs kk ∧ Out emcyRegs kk ∧ Out
    [ARCHIVE_GAPS, CANVAS_ARCHIVE_EVICT, CANVAS_CROP_EVICT, CANVAS_OVERRUN, EASEL_CTX_APPLY_STRIP, EXP_APPLY_STRIP,
    LINE_NUMBER, MODE_CHANGE_LINE, RING_DROP, RING_FRAMES, RING_OVERSIZE, RING_STAGED_BYTES, SWITCH_LINE,
    TIDE_APPLY_LINE, TRIG_NEXT_COUNT, WHARF_HOST_WR_BYTES] kk) (h : Holds kk vv md none mb s) :
    Holds kk vv md none mb (s.adoptLine next target) := by
  simp at hk; unfold State.adoptLine; repeat' first | (simp (maxDischargeDepth := 60) +contextual [*]; done) | split

@[simp ↓] theorem keep_takeCount {s : State} {p : List Byte} (hk : Out bookRegs kk ∧ Out emcyRegs kk ∧ Out
    [ARCHIVE_GAPS, CANVAS_ARCHIVE_EVICT, CANVAS_CROP_EVICT, CANVAS_OVERRUN, CASCADE_COUNT_ERR, CASCADE_COUNT_OFFSET,
    EASEL_CTX_APPLY_STRIP, EXP_APPLY_STRIP, LINE_NUMBER, MARK_FIRED, MARK_NEXT_COUNT, MARK_QUEUE_FILL,
    MODE_CHANGE_LINE, REG_PHASE_STATE, RING_DROP, RING_FRAMES, RING_OVERSIZE, RING_STAGED_BYTES, SWITCH_LINE,
    TIDE_APPLY_LINE, TRIG_NEXT_COUNT, WEB_COUNT, WEB_HIGH_WATER, WHARF_HOST_WR_BYTES] kk) (h : Holds kk vv md none
    mb s) :
    Holds kk vv md none mb (s.takeCount p) := by
  simp at hk; unfold State.takeCount; repeat' first | (simp (maxDischargeDepth := 60) +contextual [*]; done) | split

theorem keep_execWebCountFrame {dt : Nat} {frame : List Nat} {s : State} {t : State} (hk : Out bookRegs kk ∧ Out
    emcyRegs kk ∧ Out [ARCHIVE_GAPS, CANVAS_ARCHIVE_EVICT, CANVAS_CROP_EVICT, CANVAS_OVERRUN, CASCADE_COUNT_ERR,
    CASCADE_COUNT_OFFSET, CASCADE_FRAME_CRC, CASCADE_FRAME_LOST, EASEL_CTX_APPLY_STRIP, EXP_APPLY_STRIP, LANE_BYTES,
    LINE_NUMBER, MARK_FIRED, MARK_NEXT_COUNT, MARK_QUEUE_FILL, MODE_CHANGE_LINE, REG_PHASE_STATE, RING_DROP,
    RING_FRAMES, RING_OVERSIZE, RING_STAGED_BYTES, SWITCH_LINE, TIDE_APPLY_LINE, TRACE_HEAD, TRIG_NEXT_COUNT,
    WEB_COUNT, WEB_HIGH_WATER, WHARF_HOST_WR_BYTES] kk) (h : Holds kk vv md none mb s) (e : execWebCountFrame dt
    frame s = .next t) :
    Holds kk vv md none mb t := by
  simp at hk; unfold execWebCountFrame at e
  refine keep_act ?_ (fun u hu => ?_) e
  · simp [*]
  · repeat' (first
        | (simp (maxDischargeDepth := 60) +contextual [*]; done)
        | simp only [holds_mk, holdsOf_parts]
        | with_reducible refine keep_foldl _ (fun t x ht => ?_) ?_
        | with_reducible refine keep_foldl_fst _ (fun t b x ht => ?_) ?_
        | with_reducible refine keep_ite (fun _ => ?_) (fun _ => ?_)
        | split | with_reducible refine keep_fst ?_ (by assumption) | with_reducible refine keep_snd ?_ (by assumption)
        | dsimp only)

end Sys2Proof.Machine
end

