-- ==== Sys2Proof/Laws/KeepEvents.lean ====
section
/-! SUPPORT. Laws/KeepEvents.lean: what the operations and commands leave alone, of Machine/Events.lean. -/
namespace Sys2Proof.Machine
open Reg
variable {kk : Key} {vv : Option Nat} {md mh : Option Memory} {mb : Option Blobs}

@[simp ↓] theorem keep_modChan {s : State} {k : Nat} {f : Chan → Chan} (h : Holds kk vv md mh mb s) :
    Holds kk vv md mh mb (s.modChan k f) := by
  unfold State.modChan; repeat' first | (simp (maxDischargeDepth := 60) +contextual [*]; done) | split

@[simp ↓] theorem keep_modCell {s : State} {c : Nat} {f : Cell → Cell} (h : Holds kk vv md mh mb s) :
    Holds kk vv md mh mb (s.modCell c f) := by
  unfold State.modCell; repeat' first | (simp (maxDischargeDepth := 60) +contextual [*]; done) | split

@[simp ↓] theorem keep_taskRefused {s : State} (hk : Out bookRegs kk ∧ Out [EVT_TASK_REFUSED] kk) (h : Holds kk vv
    md mh mb s) :
    Holds kk vv md mh mb s.taskRefused := by
  simp at hk; unfold State.taskRefused; repeat' first | (simp (maxDischargeDepth := 60) +contextual [*]; done) | split

@[simp ↓] theorem keep_taskMark {s : State} {m : Nat} (hk : Out bookRegs kk ∧ Out [EVT_TASK_REFUSED] kk) (h :
    Holds kk vv md mh mb s) :
    Holds kk vv md mh mb (s.taskMark m) := by
  simp at hk; unfold State.taskMark; repeat' first | (simp (maxDischargeDepth := 60) +contextual [*]; done) | split

@[simp ↓] theorem keep_taskStart {s : State} {n : Nat} (hk : Out [TIMER_STATE] kk) (h : Holds kk vv md mh mb s) :
    Holds kk vv md mh mb (s.taskStart n) := by
  simp at hk; unfold State.taskStart; repeat' first | (simp (maxDischargeDepth := 60) +contextual [*]; done) | split

@[simp ↓] theorem keep_taskStop {s : State} {n : Nat} (hk : Out [TIMER_STATE] kk) (h : Holds kk vv md mh mb s) :
    Holds kk vv md mh mb (s.taskStop n) := by
  simp at hk; unfold State.taskStop; repeat' first | (simp (maxDischargeDepth := 60) +contextual [*]; done) | split

@[simp ↓] theorem keep_taskLatch {s : State} {n : Nat} (hk : Out [LATCH_COUNT, LATCH_SEQ, LATCH_SPEED, LATCH_TIME]
    kk) (h : Holds kk vv md mh mb s) :
    Holds kk vv md mh mb (s.taskLatch n) := by
  simp at hk; unfold State.taskLatch; repeat' first | (simp (maxDischargeDepth := 60) +contextual [*]; done) | split

@[simp ↓] theorem keep_taskCount {s : State} {n : Nat} (hk : Out [EVT_COUNT] kk) (h : Holds kk vv md mh mb s) :
    Holds kk vv md mh mb (s.taskCount n) := by
  simp at hk; unfold State.taskCount; repeat' first | (simp (maxDischargeDepth := 60) +contextual [*]; done) | split

@[simp ↓] theorem keep_taskHost {s : State} {n : Nat} (hk : Out bookRegs kk ∧ Out [RING_DROP, RING_FRAMES,
    RING_OVERSIZE, RING_STAGED_BYTES, WHARF_HOST_WR_BYTES] kk) (h : Holds kk vv md none mb s) :
    Holds kk vv md none mb (s.taskHost n) := by
  simp at hk; unfold State.taskHost; repeat' first | (simp (maxDischargeDepth := 60) +contextual [*]; done) | split

@[simp ↓] theorem keep_taskToggle {s : State} {n : Nat} (hk : Out [EVT_TOGGLE] kk) (h : Holds kk vv md mh mb s) :
    Holds kk vv md mh mb (s.taskToggle n) := by
  simp at hk; unfold State.taskToggle; repeat' first | (simp (maxDischargeDepth := 60) +contextual [*]; done) | split

@[simp ↓] theorem keep_taskDet {s : State} {d : Nat} (hk : Out bookRegs kk ∧ Out [DET_DISCARDED, EVT_TASK_REFUSED]
    kk) (h : Holds kk vv md mh mb s) :
    Holds kk vv md mh mb (s.taskDet d) := by
  simp at hk; unfold State.taskDet; repeat' first | (simp (maxDischargeDepth := 60) +contextual [*]; done) | split

@[simp ↓] theorem keep_taskZero {s : State} {n : Nat} (hk : Out [PULSE_COUNT] kk) (h : Holds kk vv md mh mb s) :
    Holds kk vv md mh mb (s.taskZero n) := by
  simp at hk; unfold State.taskZero; repeat' first | (simp (maxDischargeDepth := 60) +contextual [*]; done) | split

@[simp ↓] theorem keep_taskExposure {s : State} (hk : Out bookRegs kk ∧ Out [BAR_CURRENT_MA, BAR_STATE,
    EVT_TASK_REFUSED, EXP_APPLY_STRIP, EXP_COMMIT_REPLACED, EXP_PENDING, HL_DICT_ERRORS, LIGHT_POWER_W] kk) (h :
    Holds kk vv md mh mb s) :
    Holds kk vv md mh mb s.taskExposure := by
  simp at hk; unfold State.taskExposure; repeat' first | (simp (maxDischargeDepth := 60) +contextual [*]; done) | split

@[simp ↓] theorem keep_taskSwitch {s : State} (hk : Out presetRegs kk ∧ Out jobRegs kk ∧ Out [EVT_TASK_REFUSED,
    HL_DICT_ERRORS] kk) (h : Holds kk vv none none none s) :
    Holds kk vv none none none s.taskSwitch := by
  simp at hk; unfold State.taskSwitch; repeat' first | (simp (maxDischargeDepth := 60) +contextual [*]; done) | split

@[simp ↓] theorem keep_taskTrace {s : State} (hk : Out bookRegs kk) (h : Holds kk vv md mh mb s) :
    Holds kk vv md mh mb s.taskTrace := by
  unfold State.taskTrace; repeat' first | (simp (maxDischargeDepth := 60) +contextual [*]; done) | split

@[simp ↓] theorem keep_taskAct {s : State} {c : Nat} (hk : Out presetRegs kk ∧ Out requestRegs kk ∧ Out jobRegs kk ∧
    Out [EVT_COUNT, EVT_TASK_REFUSED, EVT_TOGGLE, FC_BANK_ACTIVE, FC_CAPTURE_STATE, FC_FADE_STATE, FC_SYNC_COUNT,
    LATCH_COUNT, LATCH_SEQ, LATCH_SPEED, LATCH_TIME, PULSE_COUNT, TIMER_STATE] kk) (h : Holds kk vv none none none
    s) :
    Holds kk vv none none none (s.taskAct c) := by
  simp at hk; unfold State.taskAct; repeat' first | (simp (maxDischargeDepth := 60) +contextual [*]; done) | split

@[simp ↓] theorem keep_taskEvent {s : State} {c : Nat} (hk : Out presetRegs kk ∧ Out taskRegs kk) (h : Holds kk vv
    none none none s) :
    Holds kk vv none none none (s.taskEvent c) := by
  simp at hk; unfold State.taskEvent; repeat' first | (simp (maxDischargeDepth := 60) +contextual [*]; done) | split

@[simp ↓] theorem keep_reach {s : State} {cycle c : Nat} (hk : Out presetRegs kk ∧ Out taskRegs kk ∧ Out
    [TASK_COINCIDENCE, TASK_COINCIDENCE_LAST] kk) (h : Holds kk vv none none none s) :
    Holds kk vv none none none (s.reach cycle c) := by
  simp at hk; unfold State.reach; repeat' first | (simp (maxDischargeDepth := 60) +contextual [*]; done) | split

@[simp ↓] theorem keep_consume {s : State} {dst : Nat} (hk : Out presetRegs kk ∧ Out taskRegs kk ∧ Out
    [TASK_COINCIDENCE, TASK_COINCIDENCE_LAST] kk) (h : Holds kk vv none none none s) :
    Holds kk vv none none none (s.consume dst) := by
  simp at hk; unfold State.consume; repeat' first | (simp (maxDischargeDepth := 60) +contextual [*]; done) | split

@[simp ↓] theorem keep_rateExceeded {s : State} {k : Nat} (hk : Out bookRegs kk ∧ Out [CHAN_CFG, CHAN_RATE_HITS]
    kk) (h : Holds kk vv md mh mb s) :
    Holds kk vv md mh mb (s.rateExceeded k) := by
  simp at hk; unfold State.rateExceeded; repeat' first | (simp (maxDischargeDepth := 60) +contextual [*]; done) | split

@[simp ↓] theorem keep_chanDelivers {s : State} {k : Nat} (hk : Out bookRegs kk ∧ Out [CHAN_CFG, CHAN_EVENTS,
    CHAN_RATE_HITS] kk) (h : Holds kk vv md mh mb s) :
    Holds kk vv md mh mb (s.chanDelivers k) := by
  simp at hk; unfold State.chanDelivers; repeat' first | (simp (maxDischargeDepth := 60) +contextual [*]; done) | split

@[simp ↓] theorem keep_chanArrive {s : State} {k : Nat} (hk : Out bookRegs kk ∧ Out [CHAN_CFG, CHAN_EVENTS,
    CHAN_RATE_HITS, EVT_HOLDOFF_LOST] kk) (h : Holds kk vv md mh mb s) :
    Holds kk vv md mh mb (s.chanArrive k).1 := by
  simp at hk; unfold State.chanArrive
  repeat' (first
    | (simp (maxDischargeDepth := 60) +contextual [*]; done)
    | simp only [holds_mk, holdsOf_parts]
    | with_reducible refine keep_foldl _ (fun t x ht => ?_) ?_
    | with_reducible refine keep_foldl_fst _ (fun t b x ht => ?_) ?_
    | with_reducible refine keep_ite (fun _ => ?_) (fun _ => ?_)
    | split | with_reducible refine keep_fst ?_ (by assumption) | with_reducible refine keep_snd ?_ (by assumption)
    | dsimp only)

@[simp ↓] theorem keep_chanRelease {s : State} {k : Nat} (hk : Out bookRegs kk ∧ Out [CHAN_CFG, CHAN_EVENTS,
    CHAN_RATE_HITS] kk) (h : Holds kk vv md mh mb s) :
    Holds kk vv md mh mb (s.chanRelease k).1 := by
  simp at hk; unfold State.chanRelease
  repeat' (first
    | (simp (maxDischargeDepth := 60) +contextual [*]; done)
    | simp only [holds_mk, holdsOf_parts]
    | with_reducible refine keep_foldl _ (fun t x ht => ?_) ?_
    | with_reducible refine keep_foldl_fst _ (fun t b x ht => ?_) ?_
    | with_reducible refine keep_ite (fun _ => ?_) (fun _ => ?_)
    | split | with_reducible refine keep_fst ?_ (by assumption) | with_reducible refine keep_snd ?_ (by assumption)
    | dsimp only)

@[simp ↓] theorem keep_runChannels {s : State} {fired : List (Nat × Nat)} (hk : Out bookRegs kk ∧ Out [CHAN_CFG,
    CHAN_EVENTS, CHAN_RATE_HITS, EVT_HOLDOFF_LOST] kk) (h : Holds kk vv md mh mb s) :
    Holds kk vv md mh mb (s.runChannels fired).1 := by
  simp at hk; unfold State.runChannels
  repeat' (first
    | (simp (maxDischargeDepth := 60) +contextual [*]; done)
    | simp only [holds_mk, holdsOf_parts]
    | with_reducible refine keep_foldl _ (fun t x ht => ?_) ?_
    | with_reducible refine keep_foldl_fst _ (fun t b x ht => ?_) ?_
    | with_reducible refine keep_ite (fun _ => ?_) (fun _ => ?_)
    | split | with_reducible refine keep_fst ?_ (by assumption) | with_reducible refine keep_snd ?_ (by assumption)
    | dsimp only)

@[simp ↓] theorem keep_glitchReport {s : State} {c : Nat} (hk : Out bookRegs kk) (h : Holds kk vv md mh mb s) :
    Holds kk vv md mh mb (s.glitchReport c) := by
  unfold State.glitchReport; repeat' first | (simp (maxDischargeDepth := 60) +contextual [*]; done) | split

@[simp ↓] theorem keep_cellSample {s : State} {ins : List Nat} {c : Nat} (hk : Out bookRegs kk ∧ Out [CELL_STATE]
    kk) (h : Holds kk vv md mh mb s) :
    Holds kk vv md mh mb (s.cellSample ins c) := by
  simp at hk; unfold State.cellSample; repeat' first | (simp (maxDischargeDepth := 60) +contextual [*]; done) | split

theorem keep_execLutGlitchExpiry {dt cell : Nat} {s : State} {t : State} (hk : Out bookRegs kk ∧ Out [TRACE_HEAD]
    kk) (h : Holds kk vv md mh mb s) (e : execLutGlitchExpiry dt cell s = .next t) :
    Holds kk vv md mh mb t := by
  simp at hk; unfold execLutGlitchExpiry at e
  refine keep_act ?_ (fun u hu => ?_) e
  · simp [*]
  · repeat' first | (simp (maxDischargeDepth := 60) +contextual [*]; done) | split

@[simp ↓] theorem keep_runPending {s : State} (hk : Out presetRegs kk ∧ Out requestRegs kk ∧ Out jobRegs kk ∧ Out
    [EVT_COUNT, EVT_TASK_REFUSED, EVT_TOGGLE, FC_BANK_ACTIVE, FC_CAPTURE_STATE, FC_FADE_STATE, FC_SYNC_COUNT,
    LATCH_COUNT, LATCH_SEQ, LATCH_SPEED, LATCH_TIME, PULSE_COUNT, TIMER_STATE] kk) (h : Holds kk vv none none none
    s) :
    Holds kk vv none none none s.runPending := by
  simp at hk; unfold State.runPending; repeat' first | (simp (maxDischargeDepth := 60) +contextual [*]; done) | split

@[simp ↓] theorem keep_runTasks {s : State} {dsts : List Nat} (hk : Out presetRegs kk ∧ Out taskRegs kk ∧ Out
    [TASK_COINCIDENCE, TASK_COINCIDENCE_LAST] kk) (h : Holds kk vv none none none s) :
    Holds kk vv none none none (s.runTasks dsts) := by
  simp at hk; unfold State.runTasks; repeat' first | (simp (maxDischargeDepth := 60) +contextual [*]; done) | split

@[simp ↓] theorem keep_cellFires {s : State} {c : Nat} (hk : Out bookRegs kk) (h : Holds kk vv md mh mb s) :
    Holds kk vv md mh mb (s.cellFires c) := by
  unfold State.cellFires; repeat' first | (simp (maxDischargeDepth := 60) +contextual [*]; done) | split

@[simp ↓] theorem keep_runCycle {s : State} (hk : Out presetRegs kk ∧ Out taskRegs kk ∧ Out [CELL_STATE, CHAN_CFG,
    CHAN_EVENTS, CHAN_RATE_HITS, EVT_HOLDOFF_LOST, TASK_COINCIDENCE, TASK_COINCIDENCE_LAST] kk) (h : Holds kk vv
    none none none s) :
    Holds kk vv none none none s.runCycle := by
  simp at hk; unfold State.runCycle; repeat' first | (simp (maxDischargeDepth := 60) +contextual [*]; done) | split

theorem keep_execEventDeliver {dt : Nat} {s : State} {t : State} (hk : Out presetRegs kk ∧ Out taskRegs kk ∧ Out
    [CELL_STATE, CHAN_CFG, CHAN_EVENTS, CHAN_RATE_HITS, EVT_HOLDOFF_LOST, TASK_COINCIDENCE, TASK_COINCIDENCE_LAST,
    TRACE_HEAD] kk) (h : Holds kk vv none none none s) (e : execEventDeliver dt s = .next t) :
    Holds kk vv none none none t := by
  simp at hk; unfold execEventDeliver at e
  refine keep_act ?_ (fun u hu => ?_) e
  · simp [*]
  · repeat' first | (simp (maxDischargeDepth := 60) +contextual [*]; done) | split

theorem keep_execChanHoldoffEnd {dt chan : Nat} {s : State} {t : State} (hk : Out presetRegs kk ∧ Out taskRegs kk ∧
    Out [CHAN_CFG, CHAN_EVENTS, CHAN_RATE_HITS, TASK_COINCIDENCE, TASK_COINCIDENCE_LAST, TRACE_HEAD] kk) (h : Holds
    kk vv none none none s) (e : execChanHoldoffEnd dt chan s = .next t) :
    Holds kk vv none none none t := by
  simp at hk; unfold execChanHoldoffEnd at e
  refine keep_act ?_ (fun u hu => ?_) e
  · simp [*]
  · repeat' first | (simp (maxDischargeDepth := 60) +contextual [*]; done) | split

theorem keep_execChanRateWindow {dt chan : Nat} {s : State} {t : State} (hk : Out [TRACE_HEAD] kk) (h : Holds kk
    vv md mh mb s) (e : execChanRateWindow dt chan s = .next t) :
    Holds kk vv md mh mb t := by
  simp at hk; unfold execChanRateWindow at e
  refine keep_act ?_ (fun u hu => ?_) e
  · simp [*]
  · repeat' first | (simp (maxDischargeDepth := 60) +contextual [*]; done) | split

theorem keep_execTimerExpire {dt n : Nat} {s : State} {t : State} (hk : Out bookRegs kk ∧ Out [TIMER_STATE,
    TRACE_HEAD] kk) (h : Holds kk vv md mh mb s) (e : execTimerExpire dt n s = .next t) :
    Holds kk vv md mh mb t := by
  simp at hk; unfold execTimerExpire at e
  refine keep_act ?_ (fun u hu => ?_) e
  · simp [*]
  · repeat' first | (simp (maxDischargeDepth := 60) +contextual [*]; done) | split

theorem keep_execMarkPulse {dt marker : Nat} {s : State} {t : State} (hk : Out presetRegs kk ∧ Out taskRegs kk ∧ Out
    [TRACE_HEAD] kk) (h : Holds kk vv none none none s) (e : execMarkPulse dt marker s = .next t) :
    Holds kk vv none none none t := by
  simp at hk; unfold execMarkPulse at e
  refine keep_act ?_ (fun u hu => ?_) e
  · simp [*]
  · repeat' first | (simp (maxDischargeDepth := 60) +contextual [*]; done) | split

theorem keep_execTimerStart {dt n : Nat} {s : State} {t : State} (hk : Out presetRegs kk ∧ Out taskRegs kk ∧ Out
    [TRACE_HEAD] kk) (h : Holds kk vv none none none s) (e : execTimerStart dt n s = .next t) :
    Holds kk vv none none none t := by
  simp at hk; unfold execTimerStart at e
  refine keep_act ?_ (fun u hu => ?_) e
  · simp [*]
  · repeat' first | (simp (maxDischargeDepth := 60) +contextual [*]; done) | split

theorem keep_execTimerStop {dt n : Nat} {s : State} {t : State} (hk : Out presetRegs kk ∧ Out taskRegs kk ∧ Out
    [TRACE_HEAD] kk) (h : Holds kk vv none none none s) (e : execTimerStop dt n s = .next t) :
    Holds kk vv none none none t := by
  simp at hk; unfold execTimerStop at e
  refine keep_act ?_ (fun u hu => ?_) e
  · simp [*]
  · repeat' first | (simp (maxDischargeDepth := 60) +contextual [*]; done) | split

theorem keep_execLatch {dt n : Nat} {s : State} {t : State} (hk : Out presetRegs kk ∧ Out taskRegs kk ∧ Out
    [TRACE_HEAD] kk) (h : Holds kk vv none none none s) (e : execLatch dt n s = .next t) :
    Holds kk vv none none none t := by
  simp at hk; unfold execLatch at e
  refine keep_act ?_ (fun u hu => ?_) e
  · simp [*]
  · repeat' first | (simp (maxDischargeDepth := 60) +contextual [*]; done) | split

theorem keep_execEvtCount {dt n : Nat} {s : State} {t : State} (hk : Out presetRegs kk ∧ Out taskRegs kk ∧ Out
    [TRACE_HEAD] kk) (h : Holds kk vv none none none s) (e : execEvtCount dt n s = .next t) :
    Holds kk vv none none none t := by
  simp at hk; unfold execEvtCount at e
  refine keep_act ?_ (fun u hu => ?_) e
  · simp [*]
  · repeat' first | (simp (maxDischargeDepth := 60) +contextual [*]; done) | split

theorem keep_execHostEvt {dt n : Nat} {s : State} {t : State} (hk : Out presetRegs kk ∧ Out taskRegs kk ∧ Out
    [TRACE_HEAD] kk) (h : Holds kk vv none none none s) (e : execHostEvt dt n s = .next t) :
    Holds kk vv none none none t := by
  simp at hk; unfold execHostEvt at e
  refine keep_act ?_ (fun u hu => ?_) e
  · simp [*]
  · repeat' first | (simp (maxDischargeDepth := 60) +contextual [*]; done) | split

theorem keep_execEcatToggle {dt n : Nat} {s : State} {t : State} (hk : Out presetRegs kk ∧ Out taskRegs kk ∧ Out
    [TRACE_HEAD] kk) (h : Holds kk vv none none none s) (e : execEcatToggle dt n s = .next t) :
    Holds kk vv none none none t := by
  simp at hk; unfold execEcatToggle at e
  refine keep_act ?_ (fun u hu => ?_) e
  · simp [*]
  · repeat' first | (simp (maxDischargeDepth := 60) +contextual [*]; done) | split

theorem keep_execFcSyncGroup {dt group : Nat} {s : State} {t : State} (hk : Out presetRegs kk ∧ Out taskRegs kk ∧
    Out [TRACE_HEAD] kk) (h : Holds kk vv none none none s) (e : execFcSyncGroup dt group s = .next t) :
    Holds kk vv none none none t := by
  simp at hk; unfold execFcSyncGroup at e
  refine keep_act ?_ (fun u hu => ?_) e
  · simp [*]
  · repeat' first | (simp (maxDischargeDepth := 60) +contextual [*]; done) | split

theorem keep_execDetStart {dt det : Nat} {s : State} {t : State} (hk : Out presetRegs kk ∧ Out taskRegs kk ∧ Out
    [TRACE_HEAD] kk) (h : Holds kk vv none none none s) (e : execDetStart dt det s = .next t) :
    Holds kk vv none none none t := by
  simp at hk; unfold execDetStart at e
  refine keep_act ?_ (fun u hu => ?_) e
  · simp [*]
  · repeat' first | (simp (maxDischargeDepth := 60) +contextual [*]; done) | split

theorem keep_execPulseZero {dt n : Nat} {s : State} {t : State} (hk : Out presetRegs kk ∧ Out taskRegs kk ∧ Out
    [TRACE_HEAD] kk) (h : Holds kk vv none none none s) (e : execPulseZero dt n s = .next t) :
    Holds kk vv none none none t := by
  simp at hk; unfold execPulseZero at e
  refine keep_act ?_ (fun u hu => ?_) e
  · simp [*]
  · repeat' first | (simp (maxDischargeDepth := 60) +contextual [*]; done) | split

theorem keep_execHoldRequest {dt : Nat} {s : State} {t : State} (hk : Out presetRegs kk ∧ Out taskRegs kk ∧ Out
    [TRACE_HEAD] kk) (h : Holds kk vv none none none s) (e : execHoldRequest dt s = .next t) :
    Holds kk vv none none none t := by
  simp at hk; unfold execHoldRequest at e
  refine keep_act ?_ (fun u hu => ?_) e
  · simp [*]
  · repeat' first | (simp (maxDischargeDepth := 60) +contextual [*]; done) | split

theorem keep_execTraceMark {dt : Nat} {s : State} {t : State} (hk : Out presetRegs kk ∧ Out taskRegs kk ∧ Out
    [TRACE_HEAD] kk) (h : Holds kk vv none none none s) (e : execTraceMark dt s = .next t) :
    Holds kk vv none none none t := by
  simp at hk; unfold execTraceMark at e
  refine keep_act ?_ (fun u hu => ?_) e
  · simp [*]
  · repeat' first | (simp (maxDischargeDepth := 60) +contextual [*]; done) | split

@[simp ↓] theorem keep_softEvents {s : State} {via : Path} {mask : Nat} (hk : Out bookRegs kk ∧ Out
    [HL_DICT_ERRORS] kk) (h : Holds kk vv md mh mb s) :
    Holds kk vv md mh mb (s.softEvents via mask) := by
  simp at hk; unfold State.softEvents; repeat' first | (simp (maxDischargeDepth := 60) +contextual [*]; done) | split

theorem keep_execEvtSoft {dt : Nat} {via : Path} {mask : Nat} {s : State} {t : State} (hk : Out bookRegs kk ∧ Out
    [HL_DICT_ERRORS, TRACE_HEAD] kk) (h : Holds kk vv md mh mb s) (e : execEvtSoft dt via mask s = .next t) :
    Holds kk vv md mh mb t := by
  simp at hk; unfold execEvtSoft at e
  refine keep_act ?_ (fun u hu => ?_) e
  · simp [*]
  · repeat' first | (simp (maxDischargeDepth := 60) +contextual [*]; done) | split

@[simp ↓] theorem keep_eventSave {s : State} {via : Path} (hk : Out logRegs kk ∧ Out bookRegs kk ∧ Out
    [HL_DICT_ERRORS] kk) (h : Holds kk vv md mh mb s) :
    Holds kk vv md mh mb (s.eventSave via) := by
  simp at hk; unfold State.eventSave; repeat' first | (simp (maxDischargeDepth := 60) +contextual [*]; done) | split

theorem keep_execEvtSave {dt : Nat} {via : Path} {s : State} {t : State} (hk : Out logRegs kk ∧ Out bookRegs kk ∧
    Out [HL_DICT_ERRORS, TRACE_HEAD] kk) (h : Holds kk vv md mh mb s) (e : execEvtSave dt via s = .next t) :
    Holds kk vv md mh mb t := by
  simp at hk; unfold execEvtSave at e
  refine keep_act ?_ (fun u hu => ?_) e
  · simp [*]
  · repeat' first | (simp (maxDischargeDepth := 60) +contextual [*]; done) | split

@[simp ↓] theorem keep_writeChan {s : State} {via : Path} {k v : Nat} (hk : Out bookRegs kk ∧ Out [CHAN_CFG,
    EVT_RESULT, HL_DICT_ERRORS] kk) (h : Holds kk vv md mh mb s) :
    Holds kk vv md mh mb (s.writeChan via k v) := by
  simp at hk; unfold State.writeChan; repeat' first | (simp (maxDischargeDepth := 60) +contextual [*]; done) | split

theorem keep_execChanCfgWrite {dt : Nat} {via : Path} {chan value : Nat} {s : State} {t : State} (hk : Out
    bookRegs kk ∧ Out [CHAN_CFG, EVT_RESULT, HL_DICT_ERRORS, TRACE_HEAD] kk) (h : Holds kk vv md mh mb s) (e :
    execChanCfgWrite dt via chan value s = .next t) :
    Holds kk vv md mh mb t := by
  simp at hk; unfold execChanCfgWrite at e
  refine keep_act ?_ (fun u hu => ?_) e
  · simp [*]
  · repeat' first | (simp (maxDischargeDepth := 60) +contextual [*]; done) | split

@[simp ↓] theorem keep_writeCell {s : State} {via : Path} {c v : Nat} (hk : Out bookRegs kk ∧ Out [CELL_CFG,
    CELL_STATE, HL_DICT_ERRORS] kk) (h : Holds kk vv md mh mb s) :
    Holds kk vv md mh mb (s.writeCell via c v) := by
  simp at hk; unfold State.writeCell; repeat' first | (simp (maxDischargeDepth := 60) +contextual [*]; done) | split

theorem keep_execCellCfgWrite {dt : Nat} {via : Path} {cell value : Nat} {s : State} {t : State} (hk : Out
    bookRegs kk ∧ Out [CELL_CFG, CELL_STATE, HL_DICT_ERRORS, TRACE_HEAD] kk) (h : Holds kk vv md mh mb s) (e :
    execCellCfgWrite dt via cell value s = .next t) :
    Holds kk vv md mh mb t := by
  simp at hk; unfold execCellCfgWrite at e
  refine keep_act ?_ (fun u hu => ?_) e
  · simp [*]
  · repeat' first | (simp (maxDischargeDepth := 60) +contextual [*]; done) | split

@[simp ↓] theorem keep_eventClear {s : State} {via : Path} (hk : Out bookRegs kk ∧ Out [CHAN_RATE_HITS,
    EVT_HOLDOFF_LOST, EVT_TASK_LOST, EVT_TASK_REFUSED, HL_DICT_ERRORS, TASK_COINCIDENCE] kk) (h : Holds kk vv md
    mh mb s) :
    Holds kk vv md mh mb (s.eventClear via) := by
  simp at hk; unfold State.eventClear; repeat' first | (simp (maxDischargeDepth := 60) +contextual [*]; done) | split

theorem keep_execEvtClear {dt : Nat} {via : Path} {s : State} {t : State} (hk : Out bookRegs kk ∧ Out
    [CHAN_RATE_HITS, EVT_HOLDOFF_LOST, EVT_TASK_LOST, EVT_TASK_REFUSED, HL_DICT_ERRORS, TASK_COINCIDENCE,
    TRACE_HEAD] kk) (h : Holds kk vv md mh mb s) (e : execEvtClear dt via s = .next t) :
    Holds kk vv md mh mb t := by
  simp at hk; unfold execEvtClear at e
  refine keep_act ?_ (fun u hu => ?_) e
  · simp [*]
  · repeat' first | (simp (maxDischargeDepth := 60) +contextual [*]; done) | split

@[simp ↓] theorem keep_dcLatch {s : State} {input : Nat} {level : Bool} (h : Holds kk vv md mh mb s) :
    Holds kk vv md mh mb (s.dcLatch input level) := by
  unfold State.dcLatch; repeat' first | (simp (maxDischargeDepth := 60) +contextual [*]; done) | split

theorem keep_execDigitalInputEdge {dt input : Nat} {level : Bool} {held : Nat} {s : State} {t : State} (hk : Out
    bookRegs kk ∧ Out [TRACE_HEAD] kk) (h : Holds kk vv md mh mb s) (e : execDigitalInputEdge dt input level held
    s = .next t) :
    Holds kk vv md mh mb t := by
  simp at hk; unfold execDigitalInputEdge at e
  refine keep_act ?_ (fun u hu => ?_) e
  · simp [*]
  · repeat' (first
        | (simp (maxDischargeDepth := 60) +contextual [*]; done)
        | simp only [holds_mk, holdsOf_parts]
        | with_reducible refine keep_foldl _ (fun t x ht => ?_) ?_
        | with_reducible refine keep_foldl_fst _ (fun t b x ht => ?_) ?_
        | with_reducible refine keep_ite (fun _ => ?_) (fun _ => ?_)
        | split | with_reducible refine keep_fst ?_ (by assumption) | with_reducible refine keep_snd ?_ (by assumption)
        | dsimp only)

end Sys2Proof.Machine
end

