-- ==== Sys2Proof/Laws/KeepLogbook.lean ====
section
/-! SUPPORT. Laws/KeepLogbook.lean: what the operations and commands leave alone, of Machine/Logbook.lean. -/
namespace Sys2Proof.Machine
open Reg
variable {kk : Key} {vv : Option Nat} {md mh : Option Memory} {mb : Option Blobs}

@[simp ↓] theorem keep_programMayFail {s : State} {copy : Nat} (hk : Out bookRegs kk ∧ Out [LOGBOOK_COMMIT_FAIL,
    LOGBOOK_SECTORS_RETIRED, LOGBOOK_STATE] kk) (h : Holds kk vv md mh mb s) :
    Holds kk vv md mh mb (s.programMayFail copy) := by
  simp at hk; unfold State.programMayFail; repeat' first | (simp (maxDischargeDepth := 60) +contextual [*]; done) | split

theorem keep_execLogbookCountersTimer {dt : Nat} {s : State} {t : State} (hk : Out logRegs kk ∧ Out bookRegs kk ∧
    Out [FAN_TRAY_MINUTES, LOGBOOK_COMMIT_FAIL, LOGBOOK_SECTORS_RETIRED, LOGBOOK_STATE, MODULE_INSPECT_MINUTES,
    MODULE_ON_MINUTES, PSU_ON_MINUTES, TRACE_HEAD] kk) (h : Holds kk vv md mh mb s) (e : execLogbookCountersTimer dt
    s = .next t) :
    Holds kk vv md mh mb t := by
  simp at hk; unfold execLogbookCountersTimer at e
  refine keep_act ?_ (fun u hu => ?_) e
  · simp [*]
  · repeat' first | (simp (maxDischargeDepth := 60) +contextual [*]; done) | split

@[simp ↓] theorem keep_nandSeen {s : State} {n : NandWear} (hk : Out [PF_ERASE_MAX, PF_ERASE_MEAN,
    PF_RESERVE_PERMILLE, PF_STATE] kk) (h : Holds kk vv md mh mb s) :
    Holds kk vv md mh mb (s.nandSeen n) := by
  simp at hk; unfold State.nandSeen; repeat' first | (simp (maxDischargeDepth := 60) +contextual [*]; done) | split

@[simp ↓] theorem keep_commitWear {s : State} (hk : Out logRegs kk) (h : Holds kk vv md mh mb s) :
    Holds kk vv md mh mb s.commitWear := by
  simp at hk; unfold State.commitWear; repeat' first | (simp (maxDischargeDepth := 60) +contextual [*]; done) | split

theorem keep_execLogbookWearTimer {dt : Nat} {s : State} {t : State} (hk : Out logRegs kk ∧ Out bookRegs kk ∧ Out
    [PF_BLOCKS_RETIRED, PF_ERASE_MAX, PF_ERASE_MEAN, PF_READ_FAIL, PF_RESERVE_PERMILLE, PF_STATE, TRACE_HEAD] kk) (h
    : Holds kk vv md mh mb s) (e : execLogbookWearTimer dt s = .next t) :
    Holds kk vv md mh mb t := by
  simp at hk; unfold execLogbookWearTimer at e
  refine keep_act ?_ (fun u hu => ?_) e
  · simp [*]
  · repeat' first | (simp (maxDischargeDepth := 60) +contextual [*]; done) | split

@[simp ↓] theorem keep_factoryReset {s : State} {via : Path} {v : Nat} (hk : Out bookRegs kk ∧ Out [FW_BOOT_FAILS,
    HL_DICT_ERRORS] kk) (h : Holds kk vv md mh mb s) :
    Holds kk vv md mh mb (s.factoryReset via v) := by
  simp at hk; unfold State.factoryReset; repeat' first | (simp (maxDischargeDepth := 60) +contextual [*]; done) | split

theorem keep_execLogbookFactoryReset {dt : Nat} {via : Path} {value : Nat} {s : State} {t : State} (hk : Out
    bookRegs kk ∧ Out [FW_BOOT_FAILS, HL_DICT_ERRORS, TRACE_HEAD] kk) (h : Holds kk vv md mh mb s) (e :
    execLogbookFactoryReset dt via value s = .next t) :
    Holds kk vv md mh mb t := by
  simp at hk; unfold execLogbookFactoryReset at e
  refine keep_act ?_ (fun u hu => ?_) e
  · simp [*]
  · repeat' first | (simp (maxDischargeDepth := 60) +contextual [*]; done) | split

@[simp ↓] theorem keep_logbookClear {s : State} {via : Path} (hk : Out bookRegs kk ∧ Out [HL_DICT_ERRORS,
    LOGBOOK_COMMIT_FAIL, LOGBOOK_SECTORS_RETIRED, PF_BLOCKS_RETIRED, PF_READ_FAIL] kk) (h : Holds kk vv md mh mb
    s) :
    Holds kk vv md mh mb (s.logbookClear via) := by
  simp at hk; unfold State.logbookClear; repeat' first | (simp (maxDischargeDepth := 60) +contextual [*]; done) | split

theorem keep_execLbkClear {dt : Nat} {via : Path} {s : State} {t : State} (hk : Out bookRegs kk ∧ Out
    [HL_DICT_ERRORS, LOGBOOK_COMMIT_FAIL, LOGBOOK_SECTORS_RETIRED, PF_BLOCKS_RETIRED, PF_READ_FAIL, TRACE_HEAD]
    kk) (h : Holds kk vv md mh mb s) (e : execLbkClear dt via s = .next t) :
    Holds kk vv md mh mb t := by
  simp at hk; unfold execLbkClear at e
  refine keep_act ?_ (fun u hu => ?_) e
  · simp [*]
  · repeat' first | (simp (maxDischargeDepth := 60) +contextual [*]; done) | split

@[simp ↓] theorem keep_snapFree {s : State} {slot : Nat} (h : Holds kk vv md mh mb s) :
    Holds kk vv md mh mb (s.snapFree slot) := by
  unfold State.snapFree; repeat' first | (simp (maxDischargeDepth := 60) +contextual [*]; done) | split

@[simp ↓] theorem keep_snapTake {s : State} {via : Path} {slot : Nat} (hk : Out bookRegs kk ∧ Out [HL_DICT_ERRORS,
    SNAP_STATE] kk) (h : Holds kk vv md mh mb s) :
    Holds kk vv md mh mb (s.snapTake via slot) := by
  simp at hk; unfold State.snapTake; repeat' first | (simp (maxDischargeDepth := 60) +contextual [*]; done) | split

theorem keep_execSnapTake {dt : Nat} {via : Path} {slot : Nat} {s : State} {t : State} (hk : Out bookRegs kk ∧ Out
    [HL_DICT_ERRORS, SNAP_STATE, TRACE_HEAD] kk) (h : Holds kk vv md mh mb s) (e : execSnapTake dt via slot s =
    .next t) :
    Holds kk vv md mh mb t := by
  simp at hk; unfold execSnapTake at e
  refine keep_act ?_ (fun u hu => ?_) e
  · simp [*]
  · repeat' first | (simp (maxDischargeDepth := 60) +contextual [*]; done) | split

theorem keep_execSnapDone {dt : Nat} {s : State} {t : State} (hk : Out [SNAP_STATE, TRACE_HEAD] kk) (h : Holds kk
    vv md mh mb s) (e : execSnapDone dt s = .next t) :
    Holds kk vv md mh mb t := by
  simp at hk; unfold execSnapDone at e
  refine keep_act ?_ (fun u hu => ?_) e
  · simp [*]
  · repeat' first | (simp (maxDischargeDepth := 60) +contextual [*]; done) | split

@[simp ↓] theorem keep_snapDelete {s : State} {via : Path} {slot : Nat} (hk : Out bookRegs kk ∧ Out
    [HL_DICT_ERRORS] kk) (h : Holds kk vv md mh mb s) :
    Holds kk vv md mh mb (s.snapDelete via slot) := by
  simp at hk; unfold State.snapDelete; repeat' first | (simp (maxDischargeDepth := 60) +contextual [*]; done) | split

theorem keep_execSnapDelete {dt : Nat} {via : Path} {slot : Nat} {s : State} {t : State} (hk : Out bookRegs kk ∧
    Out [HL_DICT_ERRORS, TRACE_HEAD] kk) (h : Holds kk vv md mh mb s) (e : execSnapDelete dt via slot s = .next t) :
    Holds kk vv md mh mb t := by
  simp at hk; unfold execSnapDelete at e
  refine keep_act ?_ (fun u hu => ?_) e
  · simp [*]
  · repeat' first | (simp (maxDischargeDepth := 60) +contextual [*]; done) | split

theorem keep_execRoMeasure {dt : Nat} {tiles easels : List Int} {s : State} {t : State} (hk : Out logRegs kk ∧ Out
    bookRegs kk ∧ Out unitRegs kk ∧ Out [ISLAND_STATE, PD_STATE, RO_DRIFT_EASEL, RO_DRIFT_TILE, TRACE_HEAD] kk) (h :
    Holds kk vv md mh mb s) (e : execRoMeasure dt tiles easels s = .next t) :
    Holds kk vv md mh mb t := by
  simp at hk; unfold execRoMeasure at e
  refine keep_act ?_ (fun u hu => ?_) e
  · simp [*]
  · repeat' first | (simp (maxDischargeDepth := 60) +contextual [*]; done) | split

theorem keep_execFanDeficit {dt fan : Nat} {s : State} {t : State} (hk : Out logRegs kk ∧ Out bookRegs kk ∧ Out
    [FAN_STATE, TRACE_HEAD] kk) (h : Holds kk vv md mh mb s) (e : execFanDeficit dt fan s = .next t) :
    Holds kk vv md mh mb t := by
  simp at hk; unfold execFanDeficit at e
  refine keep_act ?_ (fun u hu => ?_) e
  · simp [*]
  · repeat' first | (simp (maxDischargeDepth := 60) +contextual [*]; done) | split

theorem keep_execFanTrayChange {dt : Nat} {serial : List Nat} {s : State} {t : State} (hk : Out logRegs kk ∧ Out
    bookRegs kk ∧ Out [FAN_STATE, FAN_TRAY_MINUTES, TRACE_HEAD] kk) (h : Holds kk vv md mh none s) (e :
    execFanTrayChange dt serial s = .next t) :
    Holds kk vv md mh none t := by
  simp at hk; unfold execFanTrayChange at e
  refine keep_act ?_ (fun u hu => ?_) e
  · simp [*]
  · repeat' first | (simp (maxDischargeDepth := 60) +contextual [*]; done) | split

@[simp ↓] theorem keep_growFree {s : State} {o : Obj} {i : Nat} (ho : o.avoids kk) (h : Holds kk vv md mh mb s) :
    Holds kk vv md mh mb (s.growFree o i) := by
  unfold State.growFree; simp [*]

@[simp ↓] theorem keep_perfMeasure {s : State} (hk : Out [DRAM_RD_BYTES, DRAM_WR_BYTES, ECAT_FRAMES, ECAT_FRAME_ERR,
    SUPERVISOR_BUSY_NS] kk) (h : Holds kk vv md mh mb s) :
    Holds kk vv md mh mb s.perfMeasure := by
  simp at hk; unfold State.perfMeasure
  simp only [freeCounters, List.foldl]
  iterate 5 refine keep_foldl _ (fun t x ht => by simp [hk, ht]) ?_
  exact h

theorem keep_execObsSampleTimer {dt : Nat} {s : State} {t : State} (hk : Out [DRAM_RD_BYTES, DRAM_WR_BYTES,
    ECAT_FRAMES, ECAT_FRAME_ERR, OBS_SAMPLE_SEQ, SUPERVISOR_BUSY_NS, TRACE_HEAD] kk) (h : Holds kk vv md mh none s)
    (e : execObsSampleTimer dt s = .next t) :
    Holds kk vv md mh none t := by
  simp at hk; unfold execObsSampleTimer at e
  refine keep_act ?_ (fun u hu => ?_) e
  · simp [*]
  · repeat' first | (simp (maxDischargeDepth := 60) +contextual [*]; done) | split

end Sys2Proof.Machine
end

