-- ==== Sys2Proof/Laws/KeepReset.lean ====
section
/-! SUPPORT. Laws/KeepReset.lean: what the operations and commands leave alone, of Machine/Reset.lean. -/
namespace Sys2Proof.Machine
open Reg
variable {kk : Key} {vv : Option Nat} {md mh : Option Memory} {mb : Option Blobs}

@[simp ↓] theorem keep_resumeIds {s : State} (hk : Out [DEF_NEXT_ID] kk) (h : Holds kk vv md mh mb s) :
    Holds kk vv md mh mb s.resumeIds := by
  simp at hk; unfold State.resumeIds; repeat' first | (simp (maxDischargeDepth := 60) +contextual [*]; done) | split

@[simp ↓] theorem keep_storedBase {s : State} (hk : Out [TRIM_BASE_MC] kk) (h : Holds kk vv md mh mb s) :
    Holds kk vv md mh mb s.storedBase := by
  simp at hk; unfold State.storedBase; repeat' first | (simp (maxDischargeDepth := 60) +contextual [*]; done) | split

@[simp ↓] theorem keep_resetDone {s : State} {o : Obj} {cause : Nat} (hk : Out bookRegs kk ∧ Out
    [RESET_CAUSE_LAST, RESET_TIME_LAST] kk) (ho : o.avoids kk) (h : Holds kk vv md mh mb s) :
    Holds kk vv md mh mb (s.resetDone o cause) := by
  simp at hk; unfold State.resetDone; repeat' first | (simp (maxDischargeDepth := 60) +contextual [*]; done) | split

@[simp ↓] theorem keep_standingCauses {s : State} (hk : Out modeRegs kk ∧ Out [BAR_CURRENT_MA, BAR_STATE,
    BAY_LANES_UP, BAY_POCXP_MW, BAY_SPEED, BAY_STATE, EASEL_STATE, FERRY_DISCARD, HOLD_COUNT, HOLD_FROM_DORMANT,
    HOLD_MARKER_DISCARD, ISLAND_STATE, ISO_ERROR_RESPONSES, LANE_STATE, MARK_NEXT_COUNT, MARK_QUEUE_FILL, PD_STATE,
    REJECT_BITMAP, REJECT_QUEUE_DROP, TILE_LOG_STATE, WHARF_HOST_WR_BYTES] kk) (h : Holds kk vv md none none s) :
    Holds kk vv md none none s.standingCauses := by
  simp at hk; unfold State.standingCauses; repeat' first | (simp (maxDischargeDepth := 60) +contextual [*]; done) | split

@[simp ↓] theorem keep_switchReset {s : State} (hk : Out [SWITCH_RESULT, SWITCH_STATE] kk) (h : Holds kk vv md mh
    mb s) :
    Holds kk vv md mh mb s.switchReset := by
  simp at hk; unfold State.switchReset; repeat' first | (simp (maxDischargeDepth := 60) +contextual [*]; done) | split

@[simp ↓] theorem keep_ringsOff {s : State} {f : Nat → Bool} (hk : Out [RING_ENABLE] kk) (h : Holds kk vv md mh mb
    s) :
    Holds kk vv md mh mb (s.ringsOff f) := by
  simp at hk; unfold State.ringsOff; repeat' first | (simp (maxDischargeDepth := 60) +contextual [*]; done) | split

@[simp ↓] theorem keep_barsHeld {s : State} (h : Holds kk vv md mh mb s) : Holds kk vv md mh mb s.barsHeld := by
  unfold State.barsHeld; repeat' first | (simp (maxDischargeDepth := 60) +contextual [*]; done) | split

@[simp ↓] theorem keep_testsEnd {s : State} (hk : Out [EASEL_SELFTEST_RESULT, SLICE_SELFTEST_RESULT,
    TILE_SELFTEST_RESULT] kk) (h : Holds kk vv md mh mb s) :
    Holds kk vv md mh mb s.testsEnd := by
  simp at hk; unfold State.testsEnd; repeat' first | (simp (maxDischargeDepth := 60) +contextual [*]; done) | split

@[simp ↓] theorem keep_loseWork {s : State} (h : Holds kk vv md mh mb s) :
    Holds kk vv md mh mb s.loseWork := by
  unfold State.loseWork; repeat' first | (simp (maxDischargeDepth := 60) +contextual [*]; done) | split

@[simp ↓] theorem keep_dormantAgain {s : State} (hk : Out modeRegs kk ∧ Out [HOLD_FROM_DORMANT] kk) (h : Holds kk
    vv md mh none s) :
    Holds kk vv md mh none s.dormantAgain := by
  simp at hk; unfold State.dormantAgain; repeat' first | (simp (maxDischargeDepth := 60) +contextual [*]; done) | split

@[simp ↓] theorem keep_ferriesDrain {s : State} (hk : Out bookRegs kk ∧ Out [FERRY_DISCARD] kk) (h : Holds kk vv md
    mh mb s) :
    Holds kk vv md mh mb s.ferriesDrain := by
  simp at hk; unfold State.ferriesDrain; repeat' first | (simp (maxDischargeDepth := 60) +contextual [*]; done) | split

@[simp ↓] theorem keep_warmReset {s : State} {cause : Nat} (hk : Out holdRegs kk ∧ Out flushRegs kk ∧ Out
    [CAM_SEAM_GAIN_L, CAM_SEAM_GAIN_N, CANVAS_RELEASED_STRIP, CMP_ENGINES_BUSY, CMP_FAIL, EASEL_SELFTEST_RESULT,
    RESET_CAUSE_LAST, RESET_TIME_LAST, RESET_WARM_COUNT, RING_ENABLE, SEAM_GAIN_LIMIT, SLICE_SELFTEST_RESULT,
    SWITCH_RESULT, TIDE_PENDING, TILE_SELFTEST_RESULT, TRIM_BASE_MC, WHARF_HOST_RD_BYTES, WH_PROGRESS_ROWS,
    WH_STATUS] kk) (h : Holds kk vv none none none s) :
    Holds kk vv none none none (s.warmReset cause) := by
  simp at hk; unfold State.warmReset; repeat' first | (simp (maxDischargeDepth := 60) +contextual [*]; done) | split

theorem keep_execResetWarm {dt : Nat} {via : Path} {s : State} {t : State} (hk : Out holdRegs kk ∧ Out flushRegs kk
    ∧ Out [CAM_SEAM_GAIN_L, CAM_SEAM_GAIN_N, CANVAS_RELEASED_STRIP, CMP_ENGINES_BUSY, CMP_FAIL,
    EASEL_SELFTEST_RESULT, HL_DICT_ERRORS, RESET_CAUSE_LAST, RESET_TIME_LAST, RESET_WARM_COUNT, RING_ENABLE,
    SEAM_GAIN_LIMIT, SLICE_SELFTEST_RESULT, SWITCH_RESULT, TIDE_PENDING, TILE_SELFTEST_RESULT, TRACE_HEAD,
    TRIM_BASE_MC, WHARF_HOST_RD_BYTES, WH_PROGRESS_ROWS, WH_STATUS] kk) (h : Holds kk vv none none none s) (e :
    execResetWarm dt via s = .next t) :
    Holds kk vv none none none t := by
  simp at hk; unfold execResetWarm at e
  refine keep_act ?_ (fun u hu => ?_) e
  · simp [*]
  · repeat' first | (simp (maxDischargeDepth := 60) +contextual [*]; done) | split

theorem keep_execSupervisorRestart {dt : Nat} {s : State} {t : State} (hk : Out holdRegs kk ∧ Out flushRegs kk ∧ Out
    [CAM_SEAM_GAIN_L, CAM_SEAM_GAIN_N, CANVAS_RELEASED_STRIP, CMP_ENGINES_BUSY, CMP_FAIL, EASEL_SELFTEST_RESULT,
    RESET_CAUSE_LAST, RESET_TIME_LAST, RESET_WARM_COUNT, RING_ENABLE, SEAM_GAIN_LIMIT, SLICE_SELFTEST_RESULT,
    SUPERVISOR_RESTARTS, SWITCH_RESULT, TIDE_PENDING, TILE_SELFTEST_RESULT, TRACE_HEAD, TRIM_BASE_MC,
    WHARF_HOST_RD_BYTES, WH_PROGRESS_ROWS, WH_STATUS] kk) (h : Holds kk vv none none none s) (e :
    execSupervisorRestart dt s = .next t) :
    Holds kk vv none none none t := by
  simp at hk; unfold execSupervisorRestart at e
  refine keep_act ?_ (fun u hu => ?_) e
  · simp [*]
  · repeat' first | (simp (maxDischargeDepth := 60) +contextual [*]; done) | split

@[simp ↓] theorem keep_reconcile {s : State} (hk : Out [LOGBOOK_COMMITS, LOGBOOK_HEAD_SECTOR, LOGBOOK_RECONCILED,
    LOGBOOK_SEQ, LOGBOOK_STATE] kk) (h : Holds kk vv md mh mb s) :
    Holds kk vv md mh mb s.reconcile := by
  simp at hk; unfold State.reconcile; repeat' first | (simp (maxDischargeDepth := 60) +contextual [*]; done) | split

@[simp ↓] theorem keep_gainsBack {s : State} (h : Holds kk vv md mh mb s) :
    Holds kk vv md mh mb s.gainsBack := by
  unfold State.gainsBack; repeat' first | (simp (maxDischargeDepth := 60) +contextual [*]; done) | split

@[simp ↓] theorem keep_filtersBack {s : State} (hk : Out [FC_PRESET] kk) (h : Holds kk vv md mh mb s) :
    Holds kk vv md mh mb s.filtersBack := by
  simp at hk; unfold State.filtersBack
  repeat' (first
    | (simp (maxDischargeDepth := 60) +contextual [*]; done)
    | simp only [holds_mk, holdsOf_parts]
    | with_reducible refine keep_foldl _ (fun t x ht => ?_) ?_
    | with_reducible refine keep_foldl_fst _ (fun t b x ht => ?_) ?_
    | with_reducible refine keep_ite (fun _ => ?_) (fun _ => ?_)
    | split | with_reducible refine keep_fst ?_ (by assumption) | with_reducible refine keep_snd ?_ (by assumption)
    | dsimp only)

@[simp ↓] theorem keep_calibrationBack {s : State} (hk : Out [CAL_STALE_VIEWS, CAL_STORED_TIME, TRIM_BASE_MC,
    VIEW_PITCH_UM] kk) (h : Holds kk vv md mh none s) :
    Holds kk vv md mh none s.calibrationBack := by
  simp at hk; unfold State.calibrationBack; repeat' first | (simp (maxDischargeDepth := 60) +contextual [*]; done) | split

@[simp ↓] theorem keep_hostlinkBack {s : State} (hk : Out [HL_LINK_MODE, HL_LINK_MODE_ACTIVE] kk) (h : Holds kk vv
    md mh mb s) :
    Holds kk vv md mh mb s.hostlinkBack := by
  simp at hk; unfold State.hostlinkBack; repeat' first | (simp (maxDischargeDepth := 60) +contextual [*]; done) | split

@[simp ↓] theorem keep_bootFirmware {s : State} {fails : Nat} (hk : Out logRegs kk ∧ Out bookRegs kk ∧ Out
    [FW_BOOT_FAILS, FW_IMAGE_ACTIVE, FW_REVISION, FW_STANDBY_REVISION, FW_STANDBY_STATE] kk) (h : Holds kk vv md
    mh mb s) :
    Holds kk vv md mh mb (s.bootFirmware fails) := by
  simp at hk; unfold State.bootFirmware; repeat' first | (simp (maxDischargeDepth := 60) +contextual [*]; done) | split

@[simp ↓] theorem keep_jobsReset {s old : State} (hk : Out [WH_STATUS] kk) (h : Holds kk vv md mh mb s) :
    Holds kk vv md mh mb (s.jobsReset old) := by
  simp at hk; unfold State.jobsReset; repeat' first | (simp (maxDischargeDepth := 60) +contextual [*]; done) | split

@[simp ↓] theorem keep_stageFound {s : State} {i : Nat} {serial : Option (List Byte)} (hk : Out [PSU_LIFE_FAULTS,
    PSU_ON_MINUTES, PSU_STAGE_STATE] kk) (h : Holds kk vv md mh none s) :
    Holds kk vv md mh none (s.stageFound i serial) := by
  simp at hk; unfold State.stageFound; repeat' first | (simp (maxDischargeDepth := 60) +contextual [*]; done) | split

@[simp ↓] theorem keep_stagesFound {s : State} {stages : List (List Nat)} (hk : Out [PSU_LIFE_FAULTS,
    PSU_ON_MINUTES, PSU_STAGE_STATE] kk) (h : Holds kk vv md mh none s) :
    Holds kk vv md mh none (s.stagesFound stages) := by
  simp at hk; unfold State.stagesFound; repeat' first | (simp (maxDischargeDepth := 60) +contextual [*]; done) | split

@[simp ↓] theorem keep_ioSupply {s : State} {milliVolt : Nat} (hk : Out bookRegs kk ∧ Out [IO_SUPPLY_LOSS,
    IO_SUPPLY_LOW, IO_SUPPLY_MV] kk) (h : Holds kk vv md mh mb s) :
    Holds kk vv md mh mb (s.ioSupply milliVolt) := by
  simp at hk; unfold State.ioSupply; repeat' first | (simp (maxDischargeDepth := 60) +contextual [*]; done) | split

theorem keep_execIoSupplyLow {dt milliVolt : Nat} {s : State} {t : State} (hk : Out bookRegs kk ∧ Out
    [IO_SUPPLY_LOSS, IO_SUPPLY_LOW, IO_SUPPLY_MV, TRACE_HEAD] kk) (h : Holds kk vv md mh mb s) (e :
    execIoSupplyLow dt milliVolt s = .next t) :
    Holds kk vv md mh mb t := by
  simp at hk; unfold execIoSupplyLow at e
  refine keep_act ?_ (fun u hu => ?_) e
  · simp [*]
  · repeat' first | (simp (maxDischargeDepth := 60) +contextual [*]; done) | split

theorem keep_execIoSupplyReturn {dt milliVolt : Nat} {s : State} {t : State} (hk : Out bookRegs kk ∧ Out
    [IO_SUPPLY_LOSS, IO_SUPPLY_LOW, IO_SUPPLY_MV, TRACE_HEAD] kk) (h : Holds kk vv md mh mb s) (e :
    execIoSupplyReturn dt milliVolt s = .next t) :
    Holds kk vv md mh mb t := by
  simp at hk; unfold execIoSupplyReturn at e
  refine keep_act ?_ (fun u hu => ?_) e
  · simp [*]
  · repeat' first | (simp (maxDischargeDepth := 60) +contextual [*]; done) | split

end Sys2Proof.Machine
end

