-- ==== Sys2Proof/Laws/KeepDictionary.lean ====
section
/-! SUPPORT. Laws/KeepDictionary.lean: what the operations and commands leave alone, of Machine/Dictionary.lean. -/
namespace Sys2Proof.Machine
open Reg
variable {kk : Key} {vv : Option Nat} {md mh : Option Memory} {mb : Option Blobs}

@[simp ↓] theorem keep_storePackage {s : State} {p : List Byte} (hk : Out logRegs kk) (h : Holds kk vv md mh mb s) :
    Holds kk vv md mh mb (s.storePackage p).1 := by
  simp at hk; unfold State.storePackage
  repeat' (first
    | (simp (maxDischargeDepth := 60) +contextual [*]; done)
    | simp only [holds_mk, holdsOf_parts]
    | with_reducible refine keep_foldl _ (fun t x ht => ?_) ?_
    | with_reducible refine keep_foldl_fst _ (fun t b x ht => ?_) ?_
    | with_reducible refine keep_ite (fun _ => ?_) (fun _ => ?_)
    | split | with_reducible refine keep_fst ?_ (by assumption) | with_reducible refine keep_snd ?_ (by assumption)
    | dsimp only)

@[simp ↓] theorem keep_storeImage {s : State} {image : List Byte} {signatureOk : Bool} (hk : Out [FW_RESULT,
    FW_STANDBY_REVISION, FW_STANDBY_STATE] kk) (h : Holds kk vv md mh mb s) :
    Holds kk vv md mh mb (s.storeImage image signatureOk) := by
  simp at hk; unfold State.storeImage; repeat' first | (simp (maxDischargeDepth := 60) +contextual [*]; done) | split

@[simp ↓] theorem keep_fwActivate {s : State} {via : Path} (hk : Out logRegs kk ∧ Out bookRegs kk ∧ Out
    [HL_DICT_ERRORS] kk) (h : Holds kk vv md mh mb s) :
    Holds kk vv md mh mb (s.fwActivate via) := by
  simp at hk; unfold State.fwActivate; repeat' first | (simp (maxDischargeDepth := 60) +contextual [*]; done) | split

theorem keep_execFwActivate {dt : Nat} {via : Path} {s : State} {t : State} (hk : Out logRegs kk ∧ Out bookRegs kk
    ∧ Out [HL_DICT_ERRORS, TRACE_HEAD] kk) (h : Holds kk vv md mh mb s) (e : execFwActivate dt via s = .next t) :
    Holds kk vv md mh mb t := by
  simp at hk; unfold execFwActivate at e
  refine keep_act ?_ (fun u hu => ?_) e
  · simp [*]
  · repeat' first | (simp (maxDischargeDepth := 60) +contextual [*]; done) | split

@[simp ↓] theorem keep_hlClear {s : State} {via : Path} (hk : Out bookRegs kk ∧ Out [HL_APERTURE_WRITE_DROP,
    HL_DICT_ERRORS, HL_LINK_DOWNS, HL_PT_TIMEOUTS, RING_DROP, RING_OVERSIZE] kk) (h : Holds kk vv md mh mb s) :
    Holds kk vv md mh mb (s.hlClear via) := by
  simp at hk; unfold State.hlClear; repeat' first | (simp (maxDischargeDepth := 60) +contextual [*]; done) | split

theorem keep_execHlClear {dt : Nat} {via : Path} {s : State} {t : State} (hk : Out bookRegs kk ∧ Out
    [HL_APERTURE_WRITE_DROP, HL_DICT_ERRORS, HL_LINK_DOWNS, HL_PT_TIMEOUTS, RING_DROP, RING_OVERSIZE, TRACE_HEAD]
    kk) (h : Holds kk vv md mh mb s) (e : execHlClear dt via s = .next t) :
    Holds kk vv md mh mb t := by
  simp at hk; unfold execHlClear at e
  refine keep_act ?_ (fun u hu => ?_) e
  · simp [*]
  · repeat' first | (simp (maxDischargeDepth := 60) +contextual [*]; done) | split

@[simp ↓] theorem keep_ecatClear {s : State} {via : Path} (hk : Out bookRegs kk ∧ Out [DC_TIME_STEPS, EMCY_LOST,
    HL_DICT_ERRORS, PDO_WD_EXPIRED, SYNC_LOST] kk) (h : Holds kk vv md mh mb s) :
    Holds kk vv md mh mb (s.ecatClear via) := by
  simp at hk; unfold State.ecatClear; repeat' first | (simp (maxDischargeDepth := 60) +contextual [*]; done) | split

theorem keep_execEcatClear {dt : Nat} {via : Path} {s : State} {t : State} (hk : Out bookRegs kk ∧ Out
    [DC_TIME_STEPS, EMCY_LOST, HL_DICT_ERRORS, PDO_WD_EXPIRED, SYNC_LOST, TRACE_HEAD] kk) (h : Holds kk vv md mh
    mb s) (e : execEcatClear dt via s = .next t) :
    Holds kk vv md mh mb t := by
  simp at hk; unfold execEcatClear at e
  refine keep_act ?_ (fun u hu => ?_) e
  · simp [*]
  · repeat' first | (simp (maxDischargeDepth := 60) +contextual [*]; done) | split

@[simp ↓] theorem keep_saveParameters {s : State} {via : Path} {v : Nat} (hk : Out logRegs kk ∧ Out bookRegs kk ∧
    Out [HL_DICT_ERRORS] kk) (h : Holds kk vv md mh mb s) :
    Holds kk vv md mh mb (s.saveParameters via v) := by
  simp at hk; unfold State.saveParameters; repeat' first | (simp (maxDischargeDepth := 60) +contextual [*]; done) | split

@[simp ↓] theorem keep_loadDefaults {s : State} {via : Path} {v : Nat} (hk : Out bookRegs kk ∧ Out
    [HL_DICT_ERRORS] kk) (h : Holds kk vv md mh mb s) :
    Holds kk vv md mh mb (s.loadDefaults via v) := by
  simp at hk; unfold State.loadDefaults; repeat' first | (simp (maxDischargeDepth := 60) +contextual [*]; done) | split

@[simp ↓] theorem keep_wide {s : State} {via : Path} {o : Obj} (hk : Out bookRegs kk ∧ Out [HL_DICT_ERRORS] kk) (h
    : Holds kk vv md mh mb s) :
    Holds kk vv md mh mb (s.wide via o) := by
  simp at hk; unfold State.wide; repeat' first | (simp (maxDischargeDepth := 60) +contextual [*]; done) | split

theorem keep_execStoreParameters {dt : Nat} {via : Path} {value : Nat} {s : State} {t : State} (hk : Out logRegs
    kk ∧ Out bookRegs kk ∧ Out [HL_DICT_ERRORS, TRACE_HEAD] kk) (h : Holds kk vv md mh mb s) (e :
    execStoreParameters dt via value s = .next t) :
    Holds kk vv md mh mb t := by
  simp at hk; unfold execStoreParameters at e
  refine keep_act ?_ (fun u hu => ?_) e
  · simp [*]
  · repeat' first | (simp (maxDischargeDepth := 60) +contextual [*]; done) | split

theorem keep_execRestoreDefaults {dt : Nat} {via : Path} {value : Nat} {s : State} {t : State} (hk : Out bookRegs
    kk ∧ Out [HL_DICT_ERRORS, TRACE_HEAD] kk) (h : Holds kk vv md mh mb s) (e : execRestoreDefaults dt via value s
    = .next t) :
    Holds kk vv md mh mb t := by
  simp at hk; unfold execRestoreDefaults at e
  refine keep_act ?_ (fun u hu => ?_) e
  · simp [*]
  · repeat' first | (simp (maxDischargeDepth := 60) +contextual [*]; done) | split

@[simp ↓] theorem keep_mapped {s t : State} {via : Path} {k : Key} (hk : Out bookRegs kk ∧ Out [HL_DICT_ERRORS] kk)
    (h : Holds kk vv md mh mb s) (ht : Holds kk vv md mh mb t) :
    Holds kk vv md mh mb (s.mapped via k t) := by
  simp at hk; unfold State.mapped; repeat' first | (simp (maxDischargeDepth := 60) +contextual [*]; done) | split

@[simp ↓] theorem keep_writeMap {s : State} {via : Path} {index sub : Nat} {data : List Byte} (hk : Out bookRegs
    kk ∧ Out [HL_DICT_ERRORS] kk) (h : Holds kk vv md mh none s) :
    Holds kk vv md mh none (s.writeMap via index sub data) := by
  simp at hk; unfold State.writeMap; repeat' first | (simp (maxDischargeDepth := 60) +contextual [*]; done) | split

@[simp ↓] theorem keep_writeAssigned {s : State} {via : Path} {index : Nat} {data : List Byte} (hk : Out bookRegs
    kk ∧ Out [HL_DICT_ERRORS] kk) (h : Holds kk vv md mh mb s) :
    Holds kk vv md mh mb (s.writeAssigned via index data) := by
  simp at hk; unfold State.writeAssigned; repeat' first | (simp (maxDischargeDepth := 60) +contextual [*]; done) | split

@[simp ↓] theorem keep_linkTypeWritten {s : State} {b v : Nat} (hk : Out bookRegs kk ∧ Out [BAY_LANES_UP,
    BAY_POCXP_MW, BAY_SPEED, BAY_STATE, EASEL_STATE, FERRY_DISCARD, ISLAND_STATE, ISO_ERROR_RESPONSES, LANE_STATE,
    PD_STATE, WHARF_HOST_WR_BYTES] kk) (h : Holds kk vv md none mb s) :
    Holds kk vv md none mb (s.linkTypeWritten b v) := by
  simp at hk; unfold State.linkTypeWritten; repeat' first | (simp (maxDischargeDepth := 60) +contextual [*]; done) | split

@[simp ↓] theorem keep_cascadeWritten {s : State} {v : Nat} (hk : Out [BAY_LANES_UP, BAY_STATE, ISLAND_STATE,
    LANE_STATE, PD_STATE] kk) (h : Holds kk vv md mh mb s) :
    Holds kk vv md mh mb (s.cascadeWritten v) := by
  simp at hk; unfold State.cascadeWritten; repeat' first | (simp (maxDischargeDepth := 60) +contextual [*]; done) | split

@[simp ↓] theorem keep_afterWrite {s : State} {o : Obj} {i v : Nat} (hk : Out logRegs kk ∧ Out bookRegs kk ∧ Out
    [BAR_CURRENT_MA, BAR_STATE, BAY_LANES_UP, BAY_POCXP_MW, BAY_SPEED, BAY_STATE, EASEL_STATE, FERRY_DISCARD, ISLAND_STATE,
    ISO_ERROR_RESPONSES, LANE_STATE, PD_STATE, WHARF_HOST_WR_BYTES] kk) (h : Holds kk vv md none mb s) :
    Holds kk vv md none mb (s.afterWrite o i v) := by
  simp at hk; unfold State.afterWrite
  with_reducible repeat' refine keep_ite (fun _ => ?_) (fun _ => ?_)
  all_goals first | (with_reducible exact h) | (simp (maxDischargeDepth := 60) [hk, h]; done)

@[simp ↓] theorem keep_writeContent {s : State} {via : Path} {o : Obj} {i : Nat} {b : List Byte} (hk : Out
    bookRegs kk ∧ Out [FC_COMMIT_RESULT, HL_DICT_ERRORS] kk) (h : Holds kk vv md mh none s) :
    Holds kk vv md mh none (s.writeContent via o i b) := by
  simp at hk; unfold State.writeContent; repeat' first | (simp (maxDischargeDepth := 60) +contextual [*]; done) | split

@[simp ↓] theorem keep_asMirror {s : State} {via : Path} {k : Key} {f : State → State} (hf : ∀ (x0 : State), Holds
    kk vv md mh mb x0 → Holds kk vv md mh mb (f x0)) (h : Holds kk vv md mh mb s) :
    Holds kk vv md mh mb (s.asMirror via k f) := by
  unfold State.asMirror; repeat' first | (simp (maxDischargeDepth := 60) +contextual [*]; done) | split

@[simp ↓] theorem keep_m8JobLoad {s : State} {via : Path} (hk : Out bookRegs kk ∧ Out [HL_DICT_ERRORS,
    SWITCH_RESULT, SWITCH_STATE] kk) (h : Holds kk vv md mh mb s) :
    Holds kk vv md mh mb (s.m8JobLoad via) := by
  simp at hk; unfold State.m8JobLoad; repeat' first | (simp (maxDischargeDepth := 60) +contextual [*]; done) | split

theorem keep_execM8JobLoad {dt : Nat} {via : Path} {s : State} {t : State} (hk : Out bookRegs kk ∧ Out
    [HL_DICT_ERRORS, SWITCH_RESULT, SWITCH_STATE, TRACE_HEAD] kk) (h : Holds kk vv md mh mb s) (e : execM8JobLoad
    dt via s = .next t) :
    Holds kk vv md mh mb t := by
  simp at hk; unfold execM8JobLoad at e
  refine keep_act ?_ (fun u hu => ?_) e
  · simp [*]
  · repeat' first | (simp (maxDischargeDepth := 60) +contextual [*]; done) | split

@[simp ↓] theorem keep_rowsRead {s : State} {index sub : Nat} (hk : Out [WH_PROGRESS_ROWS] kk) (h : Holds kk vv md
    mh mb s) :
    Holds kk vv md mh mb (s.rowsRead index sub) := by
  simp at hk; unfold State.rowsRead; repeat' first | (simp (maxDischargeDepth := 60) +contextual [*]; done) | split

end Sys2Proof.Machine
end

