-- ==== Sys2Proof/Laws/KeepHostLink.lean ====
section
/-! SUPPORT. Laws/KeepHostLink.lean: what the operations and commands leave alone, of Machine/HostLink.lean. -/
namespace Sys2Proof.Machine
open Reg
variable {kk : Key} {vv : Option Nat} {md mh : Option Memory} {mb : Option Blobs}

theorem keep_execHlIrqStatusWrite {dt fn : Nat} {hi : Bool} {value : Nat} {s : State} {t : State} (hk : Out
    [TRACE_HEAD] kk) (h : Holds kk vv md mh mb s) (e : execHlIrqStatusWrite dt fn hi value s = .next t) :
    Holds kk vv md mh mb t := by
  simp at hk; unfold execHlIrqStatusWrite at e
  refine keep_act ?_ (fun u hu => ?_) e
  · simp [*]
  · repeat' first | (simp (maxDischargeDepth := 60) +contextual [*]; done) | split

theorem keep_execMsixUnmask {dt fn vector : Nat} {s : State} {t : State} (hk : Out [TRACE_HEAD] kk) (h : Holds kk
    vv md mh mb s) (e : execMsixUnmask dt fn vector s = .next t) :
    Holds kk vv md mh mb t := by
  simp at hk; unfold execMsixUnmask at e
  refine keep_act ?_ (fun u hu => ?_) e
  · simp [*]
  · repeat' first | (simp (maxDischargeDepth := 60) +contextual [*]; done) | split

theorem keep_execHlWhCommitLoRead {dt fn chan : Nat} {s : State} {t : State} (hk : Out [TRACE_HEAD] kk) (h : Holds
    kk vv md mh mb s) (e : execHlWhCommitLoRead dt fn chan s = .next t) :
    Holds kk vv md mh mb t := by
  simp at hk; unfold execHlWhCommitLoRead at e
  refine keep_act ?_ (fun u hu => ?_) e
  · simp [*]
  · repeat' first | (simp (maxDischargeDepth := 60) +contextual [*]; done) | split

theorem keep_execApertureWrite {dt fn offset : Nat} {data : List Nat} {s : State} {t : State} (hk : Out bookRegs
    kk ∧ Out [HL_APERTURE_WRITE_DROP, TRACE_HEAD] kk) (h : Holds kk vv none mh mb s) (e : execApertureWrite dt fn
    offset data s = .next t) :
    Holds kk vv none mh mb t := by
  simp at hk; unfold execApertureWrite at e
  refine keep_act ?_ (fun u hu => ?_) e
  · simp [*]
  · repeat' first | (simp (maxDischargeDepth := 60) +contextual [*]; done) | split

theorem keep_execHlWindowRead {dt fn offset width : Nat} {s : State} {t : State} (hk : Out bookRegs kk ∧ Out
    [HL_DICT_ERRORS, HL_WINDOW_ACCESSES, TRACE_HEAD, WH_PROGRESS_ROWS] kk) (h : Holds kk vv md mh mb s) (e :
    execHlWindowRead dt fn offset width s = .next t) :
    Holds kk vv md mh mb t := by
  simp at hk; unfold execHlWindowRead at e
  refine keep_act ?_ (fun u hu => ?_) e
  · simp [*]
  · repeat' (first
        | (simp (maxDischargeDepth := 60) +contextual [*]; done)
        | simp only [holds_mk, holdsOf_parts]
        | with_reducible refine keep_foldl _ (fun t x ht => ?_) ?_
        | with_reducible refine keep_foldl_fst _ (fun t b x ht => ?_) ?_
        | with_reducible refine keep_ite (fun _ => ?_) (fun _ => ?_)
        | split | with_reducible refine keep_fst ?_ (by assumption) | with_reducible refine keep_snd ?_ (by assumption)
        | dsimp only)

theorem keep_execHlMboxTailWrite {dt fn value : Nat} {s : State} {t : State} (hk : Out [TRACE_HEAD] kk) (h : Holds
    kk vv md mh mb s) (e : execHlMboxTailWrite dt fn value s = .next t) :
    Holds kk vv md mh mb t := by
  simp at hk; unfold execHlMboxTailWrite at e
  refine keep_act ?_ (fun u hu => ?_) e
  · simp [*]
  · repeat' first | (simp (maxDischargeDepth := 60) +contextual [*]; done) | split

theorem keep_execDictRead {dt index sub bufLen : Nat} {s : State} {t : State} (hk : Out [TRACE_HEAD,
    WHARF_HOST_WR_BYTES, WH_PROGRESS_ROWS] kk) (h : Holds kk vv md none mb s) (e : execDictRead dt index sub bufLen
    s = .next t) :
    Holds kk vv md none mb t := by
  simp at hk; unfold execDictRead at e
  refine keep_act ?_ (fun u hu => ?_) e
  · simp [*]
  · repeat' (first
        | (simp (maxDischargeDepth := 60) +contextual [*]; done)
        | simp only [holds_mk, holdsOf_parts]
        | with_reducible refine keep_foldl _ (fun t x ht => ?_) ?_
        | with_reducible refine keep_foldl_fst _ (fun t b x ht => ?_) ?_
        | with_reducible refine keep_ite (fun _ => ?_) (fun _ => ?_)
        | split | with_reducible refine keep_fst ?_ (by assumption) | with_reducible refine keep_snd ?_ (by assumption)
        | dsimp only)

theorem keep_execPkgStore {dt : Nat} {package : List Nat} {s : State} {t : State} (hk : Out logRegs kk ∧ Out
    [TRACE_HEAD, WHARF_HOST_WR_BYTES] kk) (h : Holds kk vv md none mb s) (e : execPkgStore dt package s = .next t) :
    Holds kk vv md none mb t := by
  simp at hk; unfold execPkgStore at e
  refine keep_act ?_ (fun u hu => ?_) e
  · simp [*]
  · repeat' first | (simp (maxDischargeDepth := 60) +contextual [*]; done) | split

theorem keep_execFwStore {dt : Nat} {image : List Nat} {signatureOk : Bool} {s : State} {t : State} (hk : Out
    [FW_RESULT, FW_STANDBY_REVISION, FW_STANDBY_STATE, TRACE_HEAD, WHARF_HOST_WR_BYTES] kk) (h : Holds kk vv md
    none mb s) (e : execFwStore dt image signatureOk s = .next t) :
    Holds kk vv md none mb t := by
  simp at hk; unfold execFwStore at e
  refine keep_act ?_ (fun u hu => ?_) e
  · simp [*]
  · repeat' first | (simp (maxDischargeDepth := 60) +contextual [*]; done) | split

@[simp ↓] theorem keep_camOp {s : State} {r : CamReq} (hk : Out [WHARF_HOST_WR_BYTES] kk) (h : Holds kk vv md none
    mb s) :
    Holds kk vv md none mb (s.camOp r) := by
  simp at hk; unfold State.camOp; repeat' first | (simp (maxDischargeDepth := 60) +contextual [*]; done) | split

theorem keep_execCamRead {dt fn bay addr len : Nat} {s : State} {t : State} (hk : Out [TRACE_HEAD,
    WHARF_HOST_WR_BYTES] kk) (h : Holds kk vv md none mb s) (e : execCamRead dt fn bay addr len s = .next t) :
    Holds kk vv md none mb t := by
  simp at hk; unfold execCamRead at e
  refine keep_act ?_ (fun u hu => ?_) e
  · simp [*]
  · repeat' first | (simp (maxDischargeDepth := 60) +contextual [*]; done) | split

theorem keep_execCamWrite {dt fn bay addr : Nat} {data : List Nat} {s : State} {t : State} (hk : Out [TRACE_HEAD,
    WHARF_HOST_WR_BYTES] kk) (h : Holds kk vv md none mb s) (e : execCamWrite dt fn bay addr data s = .next t) :
    Holds kk vv md none mb t := by
  simp at hk; unfold execCamWrite at e
  refine keep_act ?_ (fun u hu => ?_) e
  · simp [*]
  · repeat' first | (simp (maxDischargeDepth := 60) +contextual [*]; done) | split

theorem keep_execCamReply {dt bay : Nat} {data : List Nat} {s : State} {t : State} (hk : Out [TRACE_HEAD,
    WHARF_HOST_WR_BYTES] kk) (h : Holds kk vv md none mb s) (e : execCamReply dt bay data s = .next t) :
    Holds kk vv md none mb t := by
  simp at hk; unfold execCamReply at e
  refine keep_act ?_ (fun u hu => ?_) e
  · simp [*]
  · repeat' first | (simp (maxDischargeDepth := 60) +contextual [*]; done) | split

theorem keep_execPtTimeout {dt bay : Nat} {s : State} {t : State} (hk : Out bookRegs kk ∧ Out [HL_PT_TIMEOUTS,
    TRACE_HEAD, WHARF_HOST_WR_BYTES] kk) (h : Holds kk vv md none mb s) (e : execPtTimeout dt bay s = .next t) :
    Holds kk vv md none mb t := by
  simp at hk; unfold execPtTimeout at e
  refine keep_act ?_ (fun u hu => ?_) e
  · simp [*]
  · repeat' first | (simp (maxDischargeDepth := 60) +contextual [*]; done) | split

theorem keep_execLinkDown {dt fn : Nat} {s : State} {t : State} (hk : Out bookRegs kk ∧ Out [CMP_ENGINES_BUSY,
    CMP_FAIL, HL_LINK_DOWNS, RING_ENABLE, TRACE_HEAD, WHARF_HOST_RD_BYTES, WHARF_HOST_WR_BYTES, WH_PROGRESS_ROWS,
    WH_STATUS] kk) (h : Holds kk vv none none mb s) (e : execLinkDown dt fn s = .next t) :
    Holds kk vv none none mb t := by
  simp at hk; unfold execLinkDown at e
  refine keep_act ?_ (fun u hu => ?_) e
  · simp [*]
  · repeat' first | (simp (maxDischargeDepth := 60) +contextual [*]; done) | split

theorem keep_execHostLinkUp {dt fn gen width : Nat} {s : State} {t : State} (hk : Out bookRegs kk ∧ Out
    [RING_FRAMES, RING_OVERSIZE, RING_STAGED_BYTES, TRACE_HEAD, WHARF_HOST_WR_BYTES] kk) (h : Holds kk vv md none
    mb s) (e : execHostLinkUp dt fn gen width s = .next t) :
    Holds kk vv md none mb t := by
  simp at hk; unfold execHostLinkUp at e
  refine keep_act ?_ (fun u hu => ?_) e
  · simp [*]
  · repeat' first | (simp (maxDischargeDepth := 60) +contextual [*]; done) | split

end Sys2Proof.Machine
end

