-- ==== Sys2Proof/Laws/KeepEtherCat.lean ====
section
/-! SUPPORT. Laws/KeepEtherCat.lean: what the operations and commands leave alone, of Machine/EtherCat.lean. -/
namespace Sys2Proof.Machine
open Reg
variable {kk : Key} {vv : Option Nat} {md mh : Option Memory} {mb : Option Blobs}

theorem keep_execAlStateRequest {dt target : Nat} {sm : SmConfig} {s : State} {t : State} (hk : Out
    [ECAT_AL_STATUS_CODE, ECAT_CYCLE_NS, ECAT_STATE, ECAT_SYNC_MODE, TRACE_HEAD] kk) (h : Holds kk vv md mh mb s)
    (e : execAlStateRequest dt target sm s = .next t) :
    Holds kk vv md mh mb t := by
  simp at hk; unfold execAlStateRequest at e
  refine keep_act ?_ (fun u hu => ?_) e
  · simp [*]
  · repeat' first | (simp (maxDischargeDepth := 60) +contextual [*]; done) | split

theorem keep_execSm2Watchdog {dt : Nat} {s : State} {t : State} (hk : Out requestRegs kk ∧ Out leaveRegs kk ∧ Out
    [CAM_SEAM_GAIN_L, CAM_SEAM_GAIN_N, CANVAS_RELEASED_STRIP, CMP_ENGINES_BUSY, EASEL_COMMIT_RESULT,
    ECAT_AL_STATUS_CODE, ECAT_STATE, PDO_WD_EXPIRED, SEAM_GAIN_LIMIT, TRACE_HEAD, VIEW_CONFIG_RESULT, WH_STATUS] kk)
    (h : Holds kk vv none none none s) (e : execSm2Watchdog dt s = .next t) :
    Holds kk vv none none none t := by
  simp at hk; unfold execSm2Watchdog at e
  refine keep_act ?_ (fun u hu => ?_) e
  · simp [*]
  · repeat' first | (simp (maxDischargeDepth := 60) +contextual [*]; done) | split

@[simp ↓] theorem keep_answered {s : State} {b : List Byte} (h : Holds kk vv md mh mb s) :
    Holds kk vv md mh mb (s.answered b) := by
  unfold State.answered; repeat' first | (simp (maxDischargeDepth := 60) +contextual [*]; done) | split

@[simp ↓] theorem keep_aborted {s : State} {code : Nat} (h : Holds kk vv md mh mb s) :
    Holds kk vv md mh mb (s.aborted code) := by
  unfold State.aborted; repeat' first | (simp (maxDischargeDepth := 60) +contextual [*]; done) | split

theorem keep_execSdoUpload {dt index sub : Nat} {complete : Bool} {s : State} {t : State} (hk : Out [TRACE_HEAD,
    WH_PROGRESS_ROWS] kk) (h : Holds kk vv md mh mb s) (e : execSdoUpload dt index sub complete s = .next t) :
    Holds kk vv md mh mb t := by
  simp at hk; unfold execSdoUpload at e
  refine keep_act ?_ (fun u hu => ?_) e
  · simp [*]
  · repeat' (first
      | (simp (maxDischargeDepth := 60) +contextual [*]; done)
      | simp only [holds_mk, holdsOf_parts]
      | with_reducible refine keep_foldl _ (fun t x ht => ?_) ?_
      | with_reducible refine keep_foldl_fst _ (fun t b x ht => ?_) ?_
      | with_reducible refine keep_ite (fun _ => ?_) (fun _ => ?_)
      | split | with_reducible refine keep_fst ?_ (by assumption) | with_reducible refine keep_snd ?_ (by assumption)
      | dsimp only)

theorem keep_execSdoInfo {dt kind index sub : Nat} {s : State} {t : State} (hk : Out [TRACE_HEAD] kk) (h : Holds
    kk vv md mh mb s) (e : execSdoInfo dt kind index sub s = .next t) :
    Holds kk vv md mh mb t := by
  simp at hk; unfold execSdoInfo at e
  refine keep_act ?_ (fun u hu => ?_) e
  · simp [*]
  · repeat' first | (simp (maxDischargeDepth := 60) +contextual [*]; done) | split

theorem keep_execSdoSegmentTimeout {dt : Nat} {s : State} {t : State} (hk : Out [TRACE_HEAD] kk) (h : Holds kk vv
    md mh mb s) (e : execSdoSegmentTimeout dt s = .next t) :
    Holds kk vv md mh mb t := by
  simp at hk; unfold execSdoSegmentTimeout at e
  refine keep_act ?_ (fun u hu => ?_) e
  · simp [*]
  · repeat' first | (simp (maxDischargeDepth := 60) +contextual [*]; done) | split

theorem keep_execMailboxUnsupported {dt proto : Nat} {s : State} {t : State} (hk : Out [TRACE_HEAD] kk) (h : Holds
    kk vv md mh mb s) (e : execMailboxUnsupported dt proto s = .next t) :
    Holds kk vv md mh mb t := by
  simp at hk; unfold execMailboxUnsupported at e
  refine keep_act ?_ (fun u hu => ?_) e
  · simp [*]
  · repeat' first | (simp (maxDischargeDepth := 60) +contextual [*]; done) | split

@[simp ↓] theorem keep_foeError {s : State} {code detail : Nat} (h : Holds kk vv md mh mb s) :
    Holds kk vv md mh mb (s.foeError code detail) := by
  unfold State.foeError; repeat' first | (simp (maxDischargeDepth := 60) +contextual [*]; done) | split

theorem keep_execFoeWrite {dt : Nat} {name : List Nat} {password : Nat} {data : List Nat} {signatureOk : Bool} {s
    : State} {t : State} (hk : Out logRegs kk ∧ Out [FW_RESULT, FW_STANDBY_REVISION, FW_STANDBY_STATE, TRACE_HEAD]
    kk) (h : Holds kk vv md mh mb s) (e : execFoeWrite dt name password data signatureOk s = .next t) :
    Holds kk vv md mh mb t := by
  simp at hk; unfold execFoeWrite at e
  refine keep_act ?_ (fun u hu => ?_) e
  · simp [*]
  · repeat' first | (simp (maxDischargeDepth := 60) +contextual [*]; done) | split

theorem keep_execSync0 {dt which : Nat} {s : State} {t : State} (hk : Out bookRegs kk ∧ Out [PDO_WEB_COUNT,
    PDO_WEB_SPEED, TRACE_HEAD] kk) (h : Holds kk vv md mh mb s) (e : execSync0 dt which s = .next t) :
    Holds kk vv md mh mb t := by
  simp at hk; unfold execSync0 at e
  refine keep_act ?_ (fun u hu => ?_) e
  · simp [*]
  · repeat' first | (simp (maxDischargeDepth := 60) +contextual [*]; done) | split

theorem keep_execSyncLost {dt : Nat} {s : State} {t : State} (hk : Out bookRegs kk ∧ Out [SYNC_LOST, TRACE_HEAD]
    kk) (h : Holds kk vv md mh mb s) (e : execSyncLost dt s = .next t) :
    Holds kk vv md mh mb t := by
  simp at hk; unfold execSyncLost at e
  refine keep_act ?_ (fun u hu => ?_) e
  · simp [*]
  · repeat' first | (simp (maxDischargeDepth := 60) +contextual [*]; done) | split

theorem keep_execDcTimeStep {dt : Nat} {delta : Int} {s : State} {t : State} (hk : Out bookRegs kk ∧ Out
    [DC_STEP_LAST_NS, DC_TIME_STEPS, TRACE_HEAD] kk) (h : Holds kk vv md mh mb s) (e : execDcTimeStep dt delta s =
    .next t) :
    Holds kk vv md mh mb t := by
  simp at hk; unfold execDcTimeStep at e
  refine keep_act ?_ (fun u hu => ?_) e
  · simp [*]
  · repeat' first | (simp (maxDischargeDepth := 60) +contextual [*]; done) | split

theorem keep_execDcLockLost {dt : Nat} {difference : Int} {s : State} {t : State} (hk : Out bookRegs kk ∧ Out
    emcyRegs kk ∧ Out [DC_LOCKED, TRACE_HEAD] kk) (h : Holds kk vv md mh mb s) (e : execDcLockLost dt difference s
    = .next t) :
    Holds kk vv md mh mb t := by
  simp at hk; unfold execDcLockLost at e
  refine keep_act ?_ (fun u hu => ?_) e
  · simp [*]
  · repeat' first | (simp (maxDischargeDepth := 60) +contextual [*]; done) | split

theorem keep_execDcLocked {dt : Nat} {s : State} {t : State} (hk : Out bookRegs kk ∧ Out emcyRegs kk ∧ Out
    [DC_LOCKED, TRACE_HEAD] kk) (h : Holds kk vv md mh mb s) (e : execDcLocked dt s = .next t) :
    Holds kk vv md mh mb t := by
  simp at hk; unfold execDcLocked at e
  refine keep_act ?_ (fun u hu => ?_) e
  · simp [*]
  · repeat' first | (simp (maxDischargeDepth := 60) +contextual [*]; done) | split

end Sys2Proof.Machine
end

