-- ==== Sys2Proof/Laws/Registers.lean ====
section
/-! SUPPORT. Laws/Registers.lean: what a register reads after a write, and how a register that an effect leaves alone is read. -/
namespace Sys2Proof.Machine

/-- A written register reads the value at its width. -/
@[simp] theorem get_set_same {s : State} {o : Obj} {i v : Nat} (h : i < o.count) :
    (s.set o i v).get o i = v % 2 ^ o.ty.bits := by
  unfold State.get State.set Dict.write
  simp only [h, if_true]
  split
  · rename_i e; rw [Dict.look_del_same]; exact e.symm
  · rw [Dict.look_put_same]; rfl

/-- A written register reads the value that was written when it fits. -/
theorem get_set_fits {s : State} {o : Obj} {i v : Nat} (h : i < o.count) (hv : v < 2 ^ o.ty.bits) :
    (s.set o i v).get o i = v := by rw [get_set_same h, Nat.mod_eq_of_lt hv]

/-- A register reads by what the state holds under its key. -/
theorem get_congr {s t : State} {o : Obj} {i : Nat} (h : t.dict.look (o.key i) = s.dict.look (o.key i)) :
    t.get o i = s.get o i := by
  unfold State.get; rw [h]

/-- A write leaves every register of another key alone. -/
theorem get_set_other {s : State} {o p : Obj} {i j v : Nat} (h : o.key i ≠ p.key j) : (s.set o i v).get p j = s.get p j := by
  apply get_congr
  unfold State.set Dict.write
  simp only
  split
  · split
    · exact Dict.look_del_other _ _ _ (Ne.symm h)
    · exact Dict.look_put_other _ _ _ _ (Ne.symm h)
  · rfl

/-- A register that an effect keeps reads as before. -/
theorem get_of_keep {s t : State} {o : Obj} {i : Nat}
    (h : Holds (o.key i) (s.dict.look (o.key i)) none none none t) : t.get o i = s.get o i := get_congr h.reg

/-- A register that an effect keeps still reads what it read. -/
theorem get_of_holds {t : State} {o : Obj} {i : Nat} {v : Option Nat} {m h : Option Memory} {b : Option Blobs}
    (x : Holds (o.key i) v m h b t) : t.get o i = if i < o.count then v.getD (o.dflt i) else o.dflt i := by
  unfold State.get; rw [x.reg]

/-- What a state holds at a register that was just written. -/
theorem holds_set {s : State} {o : Obj} {i v : Nat} : Holds (o.key i) ((s.set o i v).dict.look (o.key i)) none none none (s.set o i v) :=
  ⟨rfl, fun _ e => (by cases e), fun _ e => (by cases e), fun _ e => (by cases e)⟩

/-- What a state holds at a register. -/
theorem holds_reg (s : State) (k : Key) : Holds k (s.dict.look k) none none none s :=
  ⟨rfl, fun _ e => (by cases e), fun _ e => (by cases e), fun _ e => (by cases e)⟩

/-! ## Checking that a register lies outside some objects -/

/-- `Obj.avoids` as a computation. -/
def Obj.avoidsB (o : Obj) (k : Key) : Bool := (List.range o.count).all (fun i => o.key i != k)

theorem avoids_of_check {o : Obj} {k : Key} (h : o.avoidsB k = true) : o.avoids k := by
  intro i hi
  have := List.all_eq_true.1 h i (List.mem_range.2 hi)
  simpa using this

theorem out_of_check {l : List Obj} {k : Key} (h : (l.all fun o => o.avoidsB k) = true) : Out l k :=
  fun o ho => avoids_of_check (List.all_eq_true.1 h o ho)

end Sys2Proof.Machine
end

