-- ==== Sys2Proof/Laws/SoundBase.lean ====
section
/-! SUPPORT. Laws/SoundBase.lean: the shared operations keep a state sound. -/
namespace Sys2Proof.Machine

/-- A state that agrees with a sound one where soundness looks is sound. -/
theorem sound_of {e t : State} (h : e.Sound) (h1 : t.dict = e.dict) (h2 : t.dram = e.dram)
    (h3 : t.host.hostMem = e.host.hostMem) (h4 : t.trace.queue = e.trace.queue) (h5 : t.trace.ring = e.trace.ring)
    (h6 : t.ecat.emcyQ = e.ecat.emcyQ) : t.Sound :=
  ⟨h1 ▸ h.dict, h2 ▸ h.dram, h3 ▸ h.hostMem, h4 ▸ h.traceQueue, h5 ▸ h.traceRing, h6 ▸ h.emcyQueue⟩

/-- Soundness of the parts of a state it looks at. -/
def SoundOf (d : Dict) (m h : Memory) (q r : List TraceRec) (e : List Emcy) : Prop :=
  d.canonical ∧ Memory.wf dramBlank m = true ∧ Memory.wf none h = true ∧ q.length ≤ 64 ∧ r.length ≤ 262144 ∧ e.length ≤ 16

@[simp ↓] theorem soundOf_parts {e : State} :
    SoundOf e.dict e.dram e.host.hostMem e.trace.queue e.trace.ring e.ecat.emcyQ ↔ e.Sound :=
  ⟨fun h => ⟨h.1, h.2.1, h.2.2.1, h.2.2.2.1, h.2.2.2.2.1, h.2.2.2.2.2⟩,
    fun h => ⟨h.dict, h.dram, h.hostMem, h.traceQueue, h.traceRing, h.emcyQueue⟩⟩

theorem State.Sound.parts {e : State} (h : e.Sound) :
    SoundOf e.dict e.dram e.host.hostMem e.trace.queue e.trace.ring e.ecat.emcyQ :=
  ⟨h.dict, h.dram, h.hostMem, h.traceQueue, h.traceRing, h.emcyQueue⟩

/-- A state written field by field is sound when its parts are. -/
@[simp ↓] theorem sound_mk
    {pending_ : List Instr} {powered_ : Bool} {now_ : Nat} {dc_ : Nat} {dict_ : Dict} {blobs_ : Blobs}
    {sat_ : List Nat} {held_ : Dict} {written_ : Dict} {writtenBlobs_ : Blobs} {abort_ : Nat} {free_ : Nat}
    {trace_ : Trace} {evt_ : Evt} {host_ : HostLink} {ecat_ : Ecat} {nv_ : Nv} {decls_ : Dict} {fails_ : Dict}
    {marks_ : List Mark} {sramCe_ : List (Nat × Nat × Nat × Nat)} {motion_ : Motion} {filter_ : Filter} {trig_ : Trig}
    {lanes_ : List Lane} {quads_ : List Quad} {bays_ : List Bay} {cascade_ : Cascade} {web_ : Web} {reject_ : Reject}
    {bars_ : List Bar} {easels_ : List Easel} {segs_ : List (List Seg)} {notes_ : List (List Note)}
    {views_ : List View} {regs_ : List RegView} {tiles_ : List Tile} {tide_ : List (Nat × List Byte)}
    {tideNext_ : Option (List Byte)} {tideWin_ : Nat} {asm_ : Asm} {bench_ : Bench} {cal_ : Cal} {trim_ : Trim}
    {wharf_ : Wharf} {dramUnit_ : DramUnit} {power_ : Power} {upkeep_ : Upkeep} {dram_ : List Host.Cell} :
    State.Sound
    ⟨pending_, powered_, now_, dc_, dict_, blobs_, sat_, held_, written_, writtenBlobs_, abort_, free_, trace_,
      evt_, host_, ecat_, nv_, decls_, fails_, marks_, sramCe_, motion_, filter_, trig_, lanes_, quads_, bays_,
      cascade_, web_, reject_, bars_, easels_, segs_, notes_, views_, regs_, tiles_, tide_, tideNext_, tideWin_,
      asm_, bench_, cal_, trim_, wharf_, dramUnit_, power_, upkeep_, dram_⟩ ↔
      SoundOf dict_ dram_ host_.hostMem trace_.queue trace_.ring ecat_.emcyQ :=
  ⟨fun h => h.parts, fun h => ⟨h.1, h.2.1, h.2.2.1, h.2.2.2.1, h.2.2.2.2.1, h.2.2.2.2.2⟩⟩

@[simp ↓] theorem sound_foldl {α : Type} (l : List α) {f : State → α → State} {s : State}
    (hf : ∀ t x, t.Sound → (f t x).Sound) (h : s.Sound) : (l.foldl f s).Sound := by
  induction l generalizing s with
  | nil => exact h
  | cons a r ih => exact ih (hf s a h)

@[simp ↓] theorem sound_foldl_fst {α β : Type} (l : List α) {f : State × β → α → State × β} {s : State × β}
    (hf : ∀ t b x, t.Sound → (f (t, b) x).1.Sound) (h : s.1.Sound) : (l.foldl f s).1.Sound := by
  induction l generalizing s with
  | nil => exact h
  | cons a r ih => exact ih (hf s.1 s.2 a h)

@[simp ↓] theorem sound_iter (n : Nat) {f : State → State} {s : State} (hf : ∀ t : State, t.Sound → (f t).Sound) (hs : s.Sound) :
    (iter f n s).Sound := by
  induction n generalizing s with
  | zero => exact hs
  | succ n ih => exact ih (hf s hs)

@[simp ↓] theorem soundOf_filter_host {d : Dict} {m h : Memory} {q r : List TraceRec} {e : List Emcy} {p : Host.Cell → Bool}
    (x : SoundOf d m h q r e) : SoundOf d m (h.filter p) q r e :=
  ⟨x.1, x.2.1, Memory.wf_filter _ _ _ x.2.2.1, x.2.2.2⟩

@[simp ↓] theorem soundOf_filter_dram {d : Dict} {m h : Memory} {q r : List TraceRec} {e : List Emcy} {p : Host.Cell → Bool}
    (x : SoundOf d m h q r e) : SoundOf d (m.filter p) h q r e :=
  ⟨x.1, Memory.wf_filter _ _ _ x.2.1, x.2.2⟩

@[simp ↓] theorem soundOf_ring_set {d : Dict} {m h : Memory} {q r : List TraceRec} {e : List Emcy} {i : Nat} {a : TraceRec}
    (x : SoundOf d m h q r e) : SoundOf d m h q (r.set i a) e :=
  ⟨x.1, x.2.1, x.2.2.1, x.2.2.2.1, by simpa using x.2.2.2.2.1, x.2.2.2.2.2⟩

@[simp ↓] theorem soundOf_ring_erase {d : Dict} {m h : Memory} {q r : List TraceRec} {e : List Emcy} {i : Nat}
    (x : SoundOf d m h q r e) : SoundOf d m h q (r.eraseIdx i) e :=
  ⟨x.1, x.2.1, x.2.2.1, x.2.2.2.1, Nat.le_trans (List.length_eraseIdx_le ..) x.2.2.2.2.1, x.2.2.2.2.2⟩

@[simp ↓] theorem sound_reset : State.reset.Sound := by
  refine ⟨⟨rfl, ?_⟩, rfl, rfl, ?_, ?_, ?_⟩
  · intro e he; cases he
  all_goals exact Nat.zero_le _

/-- The state after reset with the host memory of a sound one. -/
@[simp ↓] theorem soundOf_reset {s : State} (h : s.Sound) :
    SoundOf State.reset.dict State.reset.dram s.host.hostMem State.reset.trace.queue State.reset.trace.ring
      State.reset.ecat.emcyQ :=
  ⟨sound_reset.dict, sound_reset.dram, h.hostMem, sound_reset.traceQueue, sound_reset.traceRing, sound_reset.emcyQueue⟩

@[simp ↓] theorem sound_ite_iff {c : Prop} [Decidable c] {a b : State} :
    (if c then a else b).Sound ↔ (c → a.Sound) ∧ (¬c → b.Sound) := by
  split <;> simp [*]

theorem sound_ite {c : Prop} [Decidable c] {a b : State} (ha : c → a.Sound) (hb : ¬c → b.Sound) :
    (if c then a else b).Sound := by
  split
  · exact ha ‹_›
  · exact hb ‹_›

theorem sound_fst {α : Type} {x : State × α} {t : State} {b : α} (h : x.1.Sound) (e : x = (t, b)) : t.Sound := by
  subst e; exact h

theorem sound_snd {α : Type} {x : α × State} {t : State} {b : α} (h : x.2.Sound) (e : x = (b, t)) : t.Sound := by
  subst e; exact h

theorem Ty.bits_le (t : Ty) : t.bits ≤ 64 := by cases t <;> decide

theorem Dict.canonical_write {d : Dict} {o : Obj} {i v : Nat} (h : d.canonical) : (d.write o i v).canonical := by
  unfold Dict.write
  split
  · have hv : v % 2 ^ o.ty.bits < 2 ^ 64 :=
      Nat.lt_of_lt_of_le (Nat.mod_lt _ (Nat.two_pow_pos _)) (Nat.pow_le_pow_right (by decide) o.ty.bits_le)
    split
    · exact Dict.canonical_del _ _ h
    · exact Dict.canonical_put _ _ _ h hv
  · exact h

@[simp ↓] theorem sound_set {s : State} {o : Obj} {i v : Nat} (h : s.Sound) : (s.set o i v).Sound :=
  ⟨Dict.canonical_write h.dict, h.dram, h.hostMem, h.traceQueue, h.traceRing, h.emcyQueue⟩

@[simp ↓] theorem sound_dramWrite {s : State} {a : Nat} {bs : List Byte} (h : s.Sound) : (s.dramWrite a bs).Sound :=
  ⟨h.dict, Memory.wf_write _ _ _ _ h.dram, h.hostMem, h.traceQueue, h.traceRing, h.emcyQueue⟩

@[simp ↓] theorem sound_hostWrite {s : State} {f a : Nat} {bs : List Byte} (h : s.Sound) : (s.hostWrite f a bs).Sound := by
  unfold State.hostWrite State.volume
  exact sound_set ⟨h.dict, h.dram, Memory.wf_write _ _ _ _ h.hostMem, h.traceQueue, h.traceRing, h.emcyQueue⟩

theorem TraceRec.length_insert (r : TraceRec) (q : List TraceRec) : (r.insert q).length = q.length + 1 := by
  induction q with
  | nil => rfl
  | cons a q ih => simp only [TraceRec.insert]; split <;> simp [ih]

@[simp ↓] theorem sound_markSat {s : State} {k : Key} (h : s.Sound) : (s.markSat k).Sound := by
  unfold State.markSat
  exact sound_set (sound_of h rfl rfl rfl rfl rfl rfl)

@[simp ↓] theorem sound_bump {s : State} {o : Obj} {i n : Nat} (h : s.Sound) : (s.bump o i n).1.Sound := by
  unfold State.bump
  simp only
  split
  · exact h
  · exact sound_set h

@[simp ↓] theorem sound_pulseIn {s : State} {p : Nat} (h : s.Sound) : (s.pulseIn p).Sound := by
  unfold State.pulseIn
  split <;> exact sound_of h rfl rfl rfl rfl rfl rfl

@[simp ↓] theorem sound_lostPulse {s : State} {p : Nat} (h : s.Sound) : (s.lostPulse p).1.Sound := by
  unfold State.lostPulse
  exact sound_bump (sound_set (sound_set (sound_of h rfl rfl rfl rfl rfl rfl)))

@[simp ↓] theorem sound_pulseSaturated {s : State} (h : s.Sound) : s.pulseSaturated.Sound := by
  unfold State.pulseSaturated
  simp only
  repeat' split
  · exact sound_markSat (sound_lostPulse h)
  · exact sound_lostPulse h
  · exact sound_pulseIn h

@[simp ↓] theorem sound_traceAdd {s : State} {r : TraceRec} (h : s.Sound) : (s.traceAdd r).Sound := by
  unfold State.traceAdd
  split
  · refine ⟨h.dict, h.dram, h.hostMem, ?_, h.traceRing, h.emcyQueue⟩
    simp only [TraceRec.length_insert]; omega
  · have hb : (s.bump Reg.TRACE_LOST 0 1).1.Sound := sound_bump h
    have hl : ({ (s.bump Reg.TRACE_LOST 0 1).1 with
        trace := { (s.bump Reg.TRACE_LOST 0 1).1.trace with lostFlag := true } } : State).Sound :=
      sound_of hb rfl rfl rfl rfl rfl rfl
    simp only
    split
    · exact sound_pulseSaturated (sound_markSat hl)
    · exact hl

@[simp ↓] theorem sound_traceDrain {n : Nat} {s : State} (h : s.Sound) : (s.traceDrain n).Sound := by
  induction n generalizing s with
  | zero => exact h
  | succ n ih =>
    simp only [State.traceDrain]
    split
    · exact h
    · rename_i r q hq
      refine ih (sound_set ⟨h.dict, h.dram, h.hostMem, ?_, ?_, h.emcyQueue⟩)
      · have := h.traceQueue; rw [hq] at this; simp only [List.length_cons] at this; simp only; omega
      · simp only [List.length_take]; omega

theorem sound_tally_step {s : State} {o : Obj} {i n : Nat} {k : Key} (hs : ∀ t : State, t.Sound → (t.saturate k).Sound)
    (h : s.Sound) : (if (s.bump o i n).2 then (s.bump o i n).1.saturate k else (s.bump o i n).1).Sound := by
  split
  · exact hs _ (sound_bump h)
  · exact sound_bump h

@[simp ↓] theorem sound_advance {s : State} {dt : Ns} (h : s.Sound) : (s.advance dt).Sound := by
  unfold State.advance
  split
  · exact h
  · exact sound_traceDrain ⟨h.dict, h.dram, h.hostMem, h.traceQueue, h.traceRing, Nat.zero_le _⟩

/-- What a command's frame needs of its effect. -/
theorem sound_act {ok : Bool} {dt : Ns} {s t : State} {f : State → State} (hf : ∀ u : State, u.Sound → (f u).Sound)
    (h : s.Sound) (e : act ok dt s f = .next t) : t.Sound := by
  unfold act at e
  split at e
  · split at e
    · cases e; exact sound_of (hf _ (sound_advance h)) rfl rfl rfl rfl rfl rfl
    · cases e; exact sound_advance h
  · cases e

end Sys2Proof.Machine
end

