-- ==== Sys2Proof/Laws/SoundOps.lean ====
section
/-! SUPPORT. Laws/SoundOps.lean: soundness is kept by the operations and commands of Machine/Ops.lean. -/
namespace Sys2Proof.Machine
open Reg

@[simp ↓] theorem sound_setInt {s : State} {o : Obj} {i : Nat} {v : Int} (h : s.Sound) : (s.setInt o i v).Sound := by
  unfold State.setInt; repeat' first | (simp (maxDischargeDepth := 60) +contextual [*]; done) | split

@[simp ↓] theorem sound_setBlob {s : State} {o : Obj} {i : Nat} {b : List Byte} (h : s.Sound) :
    (s.setBlob o i b).Sound := by
  unfold State.setBlob; repeat' first | (simp (maxDischargeDepth := 60) +contextual [*]; done) | split

@[simp ↓] theorem sound_volume {s : State} {o : Obj} {i n : Nat} (h : s.Sound) : (s.volume o i n).Sound := by
  unfold State.volume; repeat' first | (simp (maxDischargeDepth := 60) +contextual [*]; done) | split

@[simp ↓] theorem sound_life {s : State} {o : Obj} {i n : Nat} (h : s.Sound) : (s.life o i n).Sound := by
  unfold State.life; repeat' first | (simp (maxDischargeDepth := 60) +contextual [*]; done) | split

@[simp ↓] theorem sound_fresh {s : State} (h : s.Sound) : s.fresh.2.Sound := by
  unfold State.fresh; repeat' first | (simp (maxDischargeDepth := 60) +contextual [*]; done) | split

@[simp ↓] theorem sound_traceRec {s : State} {typ island code arg0 arg1 : Nat} (h : s.Sound) :
    (s.traceRec typ island code arg0 arg1).Sound := by
  unfold State.traceRec; repeat' first | (simp (maxDischargeDepth := 60) +contextual [*]; done) | split

@[simp ↓] theorem sound_lostCleared {s : State} (h : s.Sound) : s.lostCleared.Sound := by
  unfold State.lostCleared; repeat' first | (simp (maxDischargeDepth := 60) +contextual [*]; done) | split

@[simp ↓] theorem sound_traceEvent {s : State} {p : Nat} (h : s.Sound) : (s.traceEvent p).Sound := by
  unfold State.traceEvent; repeat' first | (simp (maxDischargeDepth := 60) +contextual [*]; done) | split

@[simp ↓] theorem sound_emitSaturated {s : State} (h : s.Sound) : s.emitSaturated.Sound := by
  unfold State.emitSaturated; repeat' first | (simp (maxDischargeDepth := 60) +contextual [*]; done) | split

@[simp ↓] theorem sound_saturate {s : State} {k : Key} (h : s.Sound) : (s.saturate k).Sound := by
  unfold State.saturate; repeat' first | (simp (maxDischargeDepth := 60) +contextual [*]; done) | split

@[simp ↓] theorem sound_emit {s : State} {p : Nat} (h : s.Sound) : (s.emit p).Sound := by
  unfold State.emit; repeat' first | (simp (maxDischargeDepth := 60) +contextual [*]; done) | split

@[simp ↓] theorem sound_tallyN {s : State} {o : Obj} {i n : Nat} (h : s.Sound) : (s.tallyN o i n).Sound := by
  unfold State.tallyN; repeat' first | (simp (maxDischargeDepth := 60) +contextual [*]; done) | split

@[simp ↓] theorem sound_tally {s : State} {o : Obj} {i : Nat} (h : s.Sound) : (s.tally o i).Sound := by
  unfold State.tally; repeat' first | (simp (maxDischargeDepth := 60) +contextual [*]; done) | split

@[simp ↓] theorem sound_isoErrors {s : State} {n : Nat} (h : s.Sound) : (s.isoErrors n).Sound := by
  unfold State.isoErrors; repeat' first | (simp (maxDischargeDepth := 60) +contextual [*]; done) | split

@[simp ↓] theorem sound_clearTally {s : State} {o : Obj} {i : Nat} (h : s.Sound) : (s.clearTally o i).Sound := by
  unfold State.clearTally; repeat' first | (simp (maxDischargeDepth := 60) +contextual [*]; done) | split

@[simp ↓] theorem sound_clearAll {s : State} {os : List Obj} (h : s.Sound) : (s.clearAll os).Sound := by
  unfold State.clearAll; repeat' first | (simp (maxDischargeDepth := 60) +contextual [*]; done) | split

@[simp ↓] theorem sound_modFn {s : State} {f : Nat} {g : Fn → Fn} (h : s.Sound) : (s.modFn f g).Sound := by
  unfold State.modFn; repeat' first | (simp (maxDischargeDepth := 60) +contextual [*]; done) | split

@[simp ↓] theorem sound_irq {s : State} {f v : Nat} (h : s.Sound) : (s.irq f v).Sound := by
  unfold State.irq; repeat' first | (simp (maxDischargeDepth := 60) +contextual [*]; done) | split

@[simp ↓] theorem sound_irqAll {s : State} {v : Nat} (h : s.Sound) : (s.irqAll v).Sound := by
  unfold State.irqAll; repeat' first | (simp (maxDischargeDepth := 60) +contextual [*]; done) | split

@[simp ↓] theorem sound_emcy {s : State} {code unit : Nat} (h0 : s.Sound) : (State.emcy s code unit).Sound := by
  unfold State.emcy
  simp only
  repeat' split
  all_goals first
    | exact h0
    | exact sound_tally h0
    | (refine sound_volume ⟨h0.dict, h0.dram, h0.hostMem, h0.traceQueue, h0.traceRing, ?_⟩
       simp only [List.length_append, List.length_singleton]
       omega)

@[simp ↓] theorem sound_emcyCleared {s before : State} (h : s.Sound) (h1 : before.Sound) :
    (s.emcyCleared before).Sound := by
  unfold State.emcyCleared; repeat' first | (simp (maxDischargeDepth := 60) +contextual [*]; done) | split

@[simp ↓] theorem sound_refuse {s : State} {via : Path} {k : Key} {code : Nat} (h : s.Sound) :
    (s.refuse via k code).Sound := by
  unfold State.refuse; repeat' first | (simp (maxDischargeDepth := 60) +contextual [*]; done) | split

@[simp ↓] theorem sound_accept {s : State} (h : s.Sound) : s.accept.Sound := by
  unfold State.accept; repeat' first | (simp (maxDischargeDepth := 60) +contextual [*]; done) | split

@[simp ↓] theorem sound_command {s : State} {via : Path} {o : Obj} {i : Nat} {ok : Bool} {f : State → State} (hf : ∀
    (x0 : State), x0.Sound → (f x0).Sound) (h : s.Sound) :
    (s.command via o i ok f).Sound := by
  unfold State.command; repeat' first | (simp (maxDischargeDepth := 60) +contextual [*]; done) | split

@[simp ↓] theorem sound_remember {s : State} {o : Obj} {i v : Nat} (h : s.Sound) : (s.remember o i v).Sound := by
  unfold State.remember; repeat' first | (simp (maxDischargeDepth := 60) +contextual [*]; done) | split

@[simp ↓] theorem sound_rememberBlob {s : State} {o : Obj} {i : Nat} {b : List Byte} (h : s.Sound) :
    (s.rememberBlob o i b).Sound := by
  unfold State.rememberBlob; repeat' first | (simp (maxDischargeDepth := 60) +contextual [*]; done) | split

@[simp ↓] theorem sound_modBar {s : State} {ch : Nat} {f : Bar → Bar} (h : s.Sound) : (s.modBar ch f).Sound := by
  unfold State.modBar; repeat' first | (simp (maxDischargeDepth := 60) +contextual [*]; done) | split

@[simp ↓] theorem sound_traceCommit {s : State} {o : Obj} {i result at_ : Nat} (h : s.Sound) :
    (s.traceCommit o i result at_).Sound := by
  unfold State.traceCommit; repeat' first | (simp (maxDischargeDepth := 60) +contextual [*]; done) | split

@[simp ↓] theorem sound_logPut {s : State} {e : LogEntry} (h : s.Sound) : (s.logPut e).Sound := by
  unfold State.logPut; repeat' first | (simp (maxDischargeDepth := 60) +contextual [*]; done) | split

@[simp ↓] theorem sound_logWrite {s : State} {typ inst payload : Nat} {regs : Dict} {blobs : Blobs} (h : s.Sound) :
    (s.logWrite typ inst payload regs blobs).Sound := by
  unfold State.logWrite; repeat' first | (simp (maxDischargeDepth := 60) +contextual [*]; done) | split

@[simp ↓] theorem sound_logWriteCal {s : State} {c : CalStore} (h : s.Sound) : (s.logWriteCal c).Sound := by
  unfold State.logWriteCal; repeat' first | (simp (maxDischargeDepth := 60) +contextual [*]; done) | split

@[simp ↓] theorem sound_programFails {s : State} {copy : Nat} (h : s.Sound) : (s.programFails copy).Sound := by
  unfold State.programFails; repeat' first | (simp (maxDischargeDepth := 60) +contextual [*]; done) | split

@[simp ↓] theorem sound_restore {s : State} {os : List Obj} {d : Dict} (h : s.Sound) : (s.restore os d).Sound := by
  unfold State.restore
  repeat' (first
    | (simp (maxDischargeDepth := 60) +contextual [*]; done)
    | simp only [sound_mk, soundOf_parts]
    | with_reducible refine sound_foldl _ (fun t x ht => ?_) ?_
    | with_reducible refine sound_foldl_fst _ (fun t b x ht => ?_) ?_
    | with_reducible refine sound_ite (fun _ => ?_) (fun _ => ?_)
    | split | with_reducible refine sound_fst ?_ (by assumption) | with_reducible refine sound_snd ?_ (by assumption)
    | with_reducible refine sound_ringTake ?_ (by assumption)
    | with_reducible refine sound_calResults ?_ (by assumption)
    | with_reducible refine sound_modeCheck ?_ (by assumption)
    | dsimp only)

@[simp ↓] theorem sound_commitSpareMap {s : State} (h : s.Sound) : s.commitSpareMap.Sound := by
  unfold State.commitSpareMap; repeat' first | (simp (maxDischargeDepth := 60) +contextual [*]; done) | split

@[simp ↓] theorem sound_restDomain {s : State} {kind u : Nat} (h : s.Sound) : (s.restDomain kind u).Sound := by
  unfold State.restDomain; repeat' first | (simp (maxDischargeDepth := 60) +contextual [*]; done) | split

@[simp ↓] theorem sound_setUnit {s : State} {kind u st : Nat} (h : s.Sound) : (s.setUnit kind u st).Sound := by
  unfold State.setUnit; repeat' first | (simp (maxDischargeDepth := 60) +contextual [*]; done) | split

@[simp ↓] theorem sound_addMark {s : State} {kind u trigger : Nat} (h : s.Sound) : (s.addMark kind u trigger).Sound := by
  unfold State.addMark; repeat' first | (simp (maxDischargeDepth := 60) +contextual [*]; done) | split

@[simp ↓] theorem sound_markUnit {s : State} {kind u trigger : Nat} (h : s.Sound) : (s.markUnit kind u trigger).Sound := by
  unfold State.markUnit; repeat' first | (simp (maxDischargeDepth := 60) +contextual [*]; done) | split

@[simp ↓] theorem sound_declareDead {s : State} {kind u : Nat} (h : s.Sound) : (s.declareDead kind u).Sound := by
  unfold State.declareDead; repeat' first | (simp (maxDischargeDepth := 60) +contextual [*]; done) | split

@[simp ↓] theorem sound_selfTestFailed {s : State} {kind u : Nat} (h : s.Sound) : (s.selfTestFailed kind u).Sound := by
  unfold State.selfTestFailed; repeat' first | (simp (maxDischargeDepth := 60) +contextual [*]; done) | split

@[simp ↓] theorem sound_selfTestPassed {s : State} {kind u : Nat} (h : s.Sound) : (s.selfTestPassed kind u).Sound := by
  unfold State.selfTestPassed; repeat' first | (simp (maxDischargeDepth := 60) +contextual [*]; done) | split

@[simp ↓] theorem sound_stopEasel {s : State} {p : Nat} (h : s.Sound) : (s.stopEasel p).Sound := by
  unfold State.stopEasel; repeat' first | (simp (maxDischargeDepth := 60) +contextual [*]; done) | split

end Sys2Proof.Machine
end

