-- ==== Sys2Proof/Laws/SoundMarkers.lean ====
section
/-! SUPPORT. Laws/SoundMarkers.lean: soundness is kept by the operations and commands of Machine/Markers.lean. -/
namespace Sys2Proof.Machine
open Reg

@[simp ↓] theorem sound_modMarker {s : State} {m : Nat} {f : Marker → Marker} (h : s.Sound) : (s.modMarker m f).Sound := by
  unfold State.modMarker; repeat' first | (simp (maxDischargeDepth := 60) +contextual [*]; done) | split

@[simp ↓] theorem sound_markRise {s : State} {m base : Nat} (h : s.Sound) : (s.markRise m base).Sound := by
  unfold State.markRise; repeat' first | (simp (maxDischargeDepth := 60) +contextual [*]; done) | split

@[simp ↓] theorem sound_markFall {s : State} {m : Nat} (h : s.Sound) : (s.markFall m).Sound := by
  unfold State.markFall; repeat' first | (simp (maxDischargeDepth := 60) +contextual [*]; done) | split

@[simp ↓] theorem sound_markHead {s : State} {m left_ : Nat} (h : s.Sound) : (s.markHead m left_).Sound := by
  unfold State.markHead; repeat' first | (simp (maxDischargeDepth := 60) +contextual [*]; done) | split

@[simp ↓] theorem sound_markReached {s : State} {m a2 : Nat} (h : s.Sound) : (s.markReached m a2).Sound := by
  induction a2 generalizing s m with
  | zero => unfold State.markReached; repeat' first | (simp (maxDischargeDepth := 60) +contextual [*]; done) | split
  | succ n ih => unfold State.markReached; repeat' first | (simp (maxDischargeDepth := 60) +contextual [*]; done) | split

@[simp ↓] theorem sound_compareMarker {s : State} {m : Nat} (h : s.Sound) : (s.compareMarker m).Sound := by
  unfold State.compareMarker; repeat' first | (simp (maxDischargeDepth := 60) +contextual [*]; done) | split

@[simp ↓] theorem sound_compareMarkers {s : State} (h : s.Sound) : s.compareMarkers.Sound := by
  unfold State.compareMarkers; repeat' first | (simp (maxDischargeDepth := 60) +contextual [*]; done) | split

@[simp ↓] theorem sound_queueFiring {s : State} {m c : Nat} (h : s.Sound) : (s.queueFiring m c).1.Sound := by
  unfold State.queueFiring; repeat' first | (simp (maxDischargeDepth := 60) +contextual [*]; done) | split

@[simp ↓] theorem sound_clearMarkers {s : State} (h : s.Sound) : s.clearMarkers.Sound := by
  unfold State.clearMarkers; repeat' first | (simp (maxDischargeDepth := 60) +contextual [*]; done) | split

theorem sound_execMarkWidthEnd {dt marker : Nat} {s : State} {t : State} (h : s.Sound)
    (e : execMarkWidthEnd dt marker s = .next t) :
    t.Sound := by
  unfold execMarkWidthEnd at e; refine sound_act (fun u hu => ?_) h e; repeat' first | (simp (maxDischargeDepth := 60) +contextual [*]; done) | split

theorem sound_execMarkOnLimit {dt marker : Nat} {s : State} {t : State} (h : s.Sound)
    (e : execMarkOnLimit dt marker s = .next t) :
    t.Sound := by
  unfold execMarkOnLimit at e; refine sound_act (fun u hu => ?_) h e; repeat' first | (simp (maxDischargeDepth := 60) +contextual [*]; done) | split

theorem sound_execMarkerOvercurrent {dt marker : Nat} {s : State} {t : State} (h : s.Sound)
    (e : execMarkerOvercurrent dt marker s = .next t) :
    t.Sound := by
  unfold execMarkerOvercurrent at e; refine sound_act (fun u hu => ?_) h e; repeat' first | (simp (maxDischargeDepth := 60) +contextual [*]; done) | split

end Sys2Proof.Machine
end

