-- ==== Sys2Proof/Laws/SoundDetectors.lean ====
section
/-! SUPPORT. Laws/SoundDetectors.lean: soundness is kept by the operations and commands of Machine/Detectors.lean. -/
namespace Sys2Proof.Machine
open Reg

@[simp ↓] theorem sound_modDet {s : State} {d : Nat} {f : Det → Det} (h : s.Sound) : (s.modDet d f).Sound := by
  unfold State.modDet; repeat' first | (simp (maxDischargeDepth := 60) +contextual [*]; done) | split

@[simp ↓] theorem sound_detDiscard {s : State} {d : Nat} (h : s.Sound) : (s.detDiscard d).Sound := by
  unfold State.detDiscard; repeat' first | (simp (maxDischargeDepth := 60) +contextual [*]; done) | split

@[simp ↓] theorem sound_detDone {s : State} {d : Nat} {turn : Rat} (h : s.Sound) : (s.detDone d turn).Sound := by
  unfold State.detDone; repeat' first | (simp (maxDischargeDepth := 60) +contextual [*]; done) | split

@[simp ↓] theorem sound_detSample {s : State} {d : Nat} {settling : Bool} (h : s.Sound) :
    (s.detSample d settling).Sound := by
  unfold State.detSample; repeat' first | (simp (maxDischargeDepth := 60) +contextual [*]; done) | split

@[simp ↓] theorem sound_detGroupSample {s : State} {g : Nat} {settling : Bool} (h : s.Sound) :
    (s.detGroupSample g settling).Sound := by
  unfold State.detGroupSample; repeat' first | (simp (maxDischargeDepth := 60) +contextual [*]; done) | split

@[simp ↓] theorem sound_detGroupDiscard {s : State} {g : Nat} (h : s.Sound) : (s.detGroupDiscard g).Sound := by
  unfold State.detGroupDiscard; repeat' first | (simp (maxDischargeDepth := 60) +contextual [*]; done) | split

@[simp ↓] theorem sound_detRef {s : State} {d : Nat} (h : s.Sound) : (s.detRef d).Sound := by
  unfold State.detRef
  repeat' (first
    | (simp (maxDischargeDepth := 60) +contextual [*]; done)
    | simp only [sound_mk, soundOf_parts]
    | with_reducible refine sound_foldl _ (fun t x ht => ?_) ?_
    | with_reducible refine sound_foldl_fst _ (fun t b x ht => ?_) ?_
    | with_reducible refine sound_ite (fun _ => ?_) (fun _ => ?_)
    | split | with_reducible refine sound_fst ?_ (by assumption) | with_reducible refine sound_snd ?_ (by assumption)
    | with_reducible refine sound_ringTake ?_ (by assumption)
    | with_reducible refine sound_calResults ?_ (by assumption)
    | with_reducible refine sound_modeCheck ?_ (by assumption)
    | dsimp only)

@[simp ↓] theorem sound_detReference {s : State} (h : s.Sound) : s.detReference.Sound := by
  unfold State.detReference; repeat' first | (simp (maxDischargeDepth := 60) +contextual [*]; done) | split

@[simp ↓] theorem sound_detUnlock {s : State} (h : s.Sound) : s.detUnlock.Sound := by
  unfold State.detUnlock; repeat' first | (simp (maxDischargeDepth := 60) +contextual [*]; done) | split

@[simp ↓] theorem sound_detRate {s : State} {g : Nat} (h : s.Sound) : (s.detRate g).Sound := by
  unfold State.detRate; repeat' first | (simp (maxDischargeDepth := 60) +contextual [*]; done) | split

@[simp ↓] theorem sound_detRestart {s : State} (h : s.Sound) : s.detRestart.Sound := by
  unfold State.detRestart; repeat' first | (simp (maxDischargeDepth := 60) +contextual [*]; done) | split

end Sys2Proof.Machine
end

