-- ==== Sys2Proof/Laws/SoundMemory.lean ====
section
/-! SUPPORT. Laws/SoundMemory.lean: soundness is kept by the operations and commands of Machine/Memory.lean. -/
namespace Sys2Proof.Machine
open Reg

@[simp ↓] theorem sound_dramZero {s : State} {a n : Nat} (h : s.Sound) : (s.dramZero a n).Sound := by
  unfold State.dramZero; repeat' first | (simp (maxDischargeDepth := 60) +contextual [*]; done) | split

@[simp ↓] theorem sound_noteClash {s : State} {n : Nat} {d : Side} (h : s.Sound) : (s.noteClash n d).Sound := by
  unfold State.noteClash; repeat' first | (simp (maxDischargeDepth := 60) +contextual [*]; done) | split

@[simp ↓] theorem sound_ownWrite {s : State} {f a : Nat} {bs : List Byte} (h : s.Sound) : (s.ownWrite f a bs).Sound
    := by
  unfold State.ownWrite; repeat' first | (simp (maxDischargeDepth := 60) +contextual [*]; done) | split

@[simp ↓] theorem sound_hostSpoil {s : State} {f a n : Nat} (h : s.Sound) : (s.hostSpoil f a n).Sound :=
  ⟨h.dict, h.dram, Memory.wf_filter _ _ _ h.hostMem, h.traceQueue, h.traceRing, h.emcyQueue⟩

end Sys2Proof.Machine
end

