-- ==== Sys2Proof/Laws/SoundMailbox.lean ====
section
/-! SUPPORT. Laws/SoundMailbox.lean: soundness is kept by the operations and commands of Machine/Mailbox.lean. -/
namespace Sys2Proof.Machine
open Reg

@[simp ↓] theorem sound_mboxFinish {s : State} {fn op result code bytes : Nat} {data : List Byte} (h : s.Sound) :
    (s.mboxFinish fn op result code bytes data).Sound := by
  unfold State.mboxFinish; repeat' first | (simp (maxDischargeDepth := 60) +contextual [*]; done) | split

@[simp ↓] theorem sound_ptDrop {s : State} {b : Nat} (h : s.Sound) : (s.ptDrop b).Sound := by
  unfold State.ptDrop; repeat' first | (simp (maxDischargeDepth := 60) +contextual [*]; done) | split

@[simp ↓] theorem sound_ptEnds {s : State} {b result bytes : Nat} {data : List Byte} {code : Nat} (h : s.Sound) :
    (s.ptEnds b result bytes data code).Sound := by
  unfold State.ptEnds; repeat' first | (simp (maxDischargeDepth := 60) +contextual [*]; done) | split

@[simp ↓] theorem sound_ptWrapped {s : State} {b : Nat} (h : s.Sound) : (s.ptWrapped b).Sound := by
  unfold State.ptWrapped; repeat' first | (simp (maxDischargeDepth := 60) +contextual [*]; done) | split

@[simp ↓] theorem sound_ptRun {s : State} {b a2 : Nat} (h : s.Sound) : (s.ptRun b a2).Sound := by
  induction a2 generalizing s b with
  | zero => unfold State.ptRun; repeat' first | (simp (maxDischargeDepth := 60) +contextual [*]; done) | split
  | succ n ih => unfold State.ptRun; repeat' first | (simp (maxDischargeDepth := 60) +contextual [*]; done) | split

@[simp ↓] theorem sound_ptNext {s : State} {b : Nat} (h : s.Sound) : (s.ptNext b).Sound := by
  unfold State.ptNext; repeat' first | (simp (maxDischargeDepth := 60) +contextual [*]; done) | split

end Sys2Proof.Machine
end

