-- ==== Sys2Proof/Laws/SoundModes.lean ====
section
/-! SUPPORT. Laws/SoundModes.lean: soundness is kept by the operations and commands of Machine/Modes.lean. -/
namespace Sys2Proof.Machine
open Reg

@[simp ↓] theorem sound_toPending {s : State} {m : Nat} (h : s.Sound) : (s.toPending m).Sound := by
  unfold State.toPending; repeat' first | (simp (maxDischargeDepth := 60) +contextual [*]; done) | split

@[simp ↓] theorem sound_toCause {s : State} {c : Nat} (h : s.Sound) : (s.toCause c).Sound := by
  unfold State.toCause; repeat' first | (simp (maxDischargeDepth := 60) +contextual [*]; done) | split

@[simp ↓] theorem sound_setTarget {s : State} {t : Nat} (h : s.Sound) : (s.setTarget t).Sound := by
  unfold State.setTarget; repeat' first | (simp (maxDischargeDepth := 60) +contextual [*]; done) | split

@[simp ↓] theorem sound_createLines {s : State} {a1 : Nat} (h : s.Sound) : (s.createLines a1).Sound := by
  induction a1 generalizing s with
  | zero => unfold State.createLines; repeat' first | (simp (maxDischargeDepth := 60) +contextual [*]; done) | split
  | succ n ih => unfold State.createLines; repeat' first | (simp (maxDischargeDepth := 60) +contextual [*]; done) | split

@[simp ↓] theorem sound_createDue {s : State} (h : s.Sound) : s.createDue.Sound := by
  unfold State.createDue; repeat' first | (simp (maxDischargeDepth := 60) +contextual [*]; done) | split

@[simp ↓] theorem sound_repitch {s : State} {t : Nat} (h : s.Sound) : (s.repitch t).Sound := by
  unfold State.repitch; repeat' first | (simp (maxDischargeDepth := 60) +contextual [*]; done) | split

@[simp ↓] theorem sound_suspendLines {s : State} (h : s.Sound) : s.suspendLines.Sound := by
  unfold State.suspendLines; repeat' first | (simp (maxDischargeDepth := 60) +contextual [*]; done) | split

@[simp ↓] theorem sound_resumeLines {s : State} (h : s.Sound) : s.resumeLines.Sound := by
  unfold State.resumeLines; repeat' first | (simp (maxDischargeDepth := 60) +contextual [*]; done) | split

@[simp ↓] theorem sound_restartPairing {s : State} (h : s.Sound) : s.restartPairing.Sound := by
  unfold State.restartPairing; repeat' first | (simp (maxDischargeDepth := 60) +contextual [*]; done) | split

@[simp ↓] theorem sound_newMethod {s : State} (h : s.Sound) : s.newMethod.Sound := by
  unfold State.newMethod; repeat' first | (simp (maxDischargeDepth := 60) +contextual [*]; done) | split

@[simp ↓] theorem sound_closeRepeat {s : State} {lastLine : Nat} (h : s.Sound) : (s.closeRepeat lastLine).Sound := by
  unfold State.closeRepeat; repeat' first | (simp (maxDischargeDepth := 60) +contextual [*]; done) | split

@[simp ↓] theorem sound_openRepeat {s : State} {line count : Nat} {phase : Option Nat} {unregistered : Bool} (h :
    s.Sound) :
    (s.openRepeat line count phase unregistered).Sound := by
  unfold State.openRepeat; repeat' first | (simp (maxDischargeDepth := 60) +contextual [*]; done) | split

@[simp ↓] theorem sound_lightOff {s : State} {ch : Nat} (h : s.Sound) : (s.lightOff ch).Sound := by
  unfold State.lightOff; repeat' first | (simp (maxDischargeDepth := 60) +contextual [*]; done) | split

@[simp ↓] theorem sound_lightsOff {s : State} (h : s.Sound) : s.lightsOff.Sound := by
  unfold State.lightsOff; repeat' first | (simp (maxDischargeDepth := 60) +contextual [*]; done) | split

@[simp ↓] theorem sound_modReg {s : State} {v : Nat} {f : RegView → RegView} (h : s.Sound) : (s.modReg v f).Sound := by
  unfold State.modReg; repeat' first | (simp (maxDischargeDepth := 60) +contextual [*]; done) | split

@[simp ↓] theorem sound_learnAbort {s : State} (h : s.Sound) : s.learnAbort.Sound := by
  unfold State.learnAbort; repeat' first | (simp (maxDischargeDepth := 60) +contextual [*]; done) | split

@[simp ↓] theorem sound_calStop {s : State} {result : Nat} (h : s.Sound) : (s.calStop result).Sound := by
  unfold State.calStop; repeat' first | (simp (maxDischargeDepth := 60) +contextual [*]; done) | split

@[simp ↓] theorem sound_trimAbandon {s : State} (h : s.Sound) : s.trimAbandon.Sound := by
  unfold State.trimAbandon; repeat' first | (simp (maxDischargeDepth := 60) +contextual [*]; done) | split

@[simp ↓] theorem sound_trimSpoiled {s : State} {b n : Nat} (h : s.Sound) : (s.trimSpoiled b n).Sound := by
  unfold State.trimSpoiled; repeat' first | (simp (maxDischargeDepth := 60) +contextual [*]; done) | split

@[simp ↓] theorem sound_leaveMode {s : State} (h : s.Sound) : s.leaveMode.Sound := by
  unfold State.leaveMode; repeat' first | (simp (maxDischargeDepth := 60) +contextual [*]; done) | split

@[simp ↓] theorem sound_powerDownDomains {s : State} (h : s.Sound) : s.powerDownDomains.Sound := by
  unfold State.powerDownDomains; repeat' first | (simp (maxDischargeDepth := 60) +contextual [*]; done) | split

@[simp ↓] theorem sound_creditLife {s : State} (h : s.Sound) : s.creditLife.Sound := by
  unfold State.creditLife; repeat' first | (simp (maxDischargeDepth := 60) +contextual [*]; done) | split

@[simp ↓] theorem sound_traceRequest {s : State} {target result : Nat} (h : s.Sound) :
    (s.traceRequest target result).Sound := by
  unfold State.traceRequest; repeat' first | (simp (maxDischargeDepth := 60) +contextual [*]; done) | split

@[simp ↓] theorem sound_modeResult {s : State} {r : Nat} (h : s.Sound) : (s.modeResult r).Sound := by
  unfold State.modeResult; repeat' first | (simp (maxDischargeDepth := 60) +contextual [*]; done) | split

@[simp ↓] theorem sound_copyPauses {s : State} {hold : Bool} (h : s.Sound) : (s.copyPauses hold).Sound := by
  unfold State.copyPauses; repeat' first | (simp (maxDischargeDepth := 60) +contextual [*]; done) | split

@[simp ↓] theorem sound_setMode {s : State} {m line : Nat} (h : s.Sound) : (s.setMode m line).Sound := by
  unfold State.setMode; repeat' first | (simp (maxDischargeDepth := 60) +contextual [*]; done) | split

@[simp ↓] theorem sound_freezeIslands {s : State} {from_ to_ : Nat} (h : s.Sound) : (s.freezeIslands from_ to_).Sound := by
  unfold State.freezeIslands; repeat' first | (simp (maxDischargeDepth := 60) +contextual [*]; done) | split

@[simp ↓] theorem sound_clearRejects {s : State} (h : s.Sound) : s.clearRejects.Sound := by
  unfold State.clearRejects; repeat' first | (simp (maxDischargeDepth := 60) +contextual [*]; done) | split

@[simp ↓] theorem sound_enterHold {s : State} {byCause : Bool} (h : s.Sound) : (s.enterHold byCause).Sound := by
  unfold State.enterHold; repeat' first | (simp (maxDischargeDepth := 60) +contextual [*]; done) | split

@[simp ↓] theorem sound_addCause {s : State} {b : Nat} (h : s.Sound) : (s.addCause b).Sound := by
  unfold State.addCause; repeat' first | (simp (maxDischargeDepth := 60) +contextual [*]; done) | split

@[simp ↓] theorem sound_clearCause {s : State} {b : Nat} (h : s.Sound) : (s.clearCause b).Sound := by
  unfold State.clearCause; repeat' first | (simp (maxDischargeDepth := 60) +contextual [*]; done) | split

@[simp ↓] theorem sound_commitCounters {s : State} (h : s.Sound) : s.commitCounters.Sound := by
  unfold State.commitCounters; repeat' first | (simp (maxDischargeDepth := 60) +contextual [*]; done) | split

@[simp ↓] theorem sound_enterDormant {s : State} (h : s.Sound) : s.enterDormant.Sound := by
  unfold State.enterDormant; repeat' first | (simp (maxDischargeDepth := 60) +contextual [*]; done) | split

@[simp ↓] theorem sound_capture {s : State} {v : Nat} (h : s.Sound) : (s.capture v).Sound := by
  unfold State.capture; repeat' first | (simp (maxDischargeDepth := 60) +contextual [*]; done) | split

@[simp ↓] theorem sound_captureViews {s : State} (h : s.Sound) : s.captureViews.Sound := by
  unfold State.captureViews; repeat' first | (simp (maxDischargeDepth := 60) +contextual [*]; done) | split

end Sys2Proof.Machine
end

