-- ==== Sys2Proof/Laws/SoundFrames.lean ====
section
/-! SUPPORT. Laws/SoundFrames.lean: soundness is kept by the operations and commands of Machine/Frames.lean. -/
namespace Sys2Proof.Machine
open Reg

@[simp ↓] theorem sound_idleBlocks {s : State} (h : s.Sound) : s.idleBlocks.Sound := by
  unfold State.idleBlocks; repeat' first | (simp (maxDischargeDepth := 60) +contextual [*]; done) | split

@[simp ↓] theorem sound_sendBlocks {s : State} {f : List Byte} (h : s.Sound) : (s.sendBlocks f).Sound := by
  unfold State.sendBlocks; repeat' first | (simp (maxDischargeDepth := 60) +contextual [*]; done) | split

@[simp ↓] theorem sound_sendFrame {s : State} {typ : Nat} {payload : List Byte} (h : s.Sound) :
    (s.sendFrame typ payload).Sound := by
  unfold State.sendFrame; repeat' first | (simp (maxDischargeDepth := 60) +contextual [*]; done) | split

@[simp ↓] theorem sound_laneBytes {s : State} {n : Nat} (h : s.Sound) : (s.laneBytes n).Sound := by
  unfold State.laneBytes; repeat' first | (simp (maxDischargeDepth := 60) +contextual [*]; done) | split

@[simp ↓] theorem sound_takeFrame {s : State} {typ : Nat} {f : List Byte} (h : s.Sound) : (s.takeFrame typ f).1.Sound := by
  unfold State.takeFrame; repeat' first | (simp (maxDischargeDepth := 60) +contextual [*]; done) | split

end Sys2Proof.Machine
end

