-- ==== Sys2Proof/Laws/SoundRings.lean ====
section
/-! SUPPORT. Laws/SoundRings.lean: soundness is kept by the operations and commands of Machine/Rings.lean. -/
namespace Sys2Proof.Machine
open Reg

@[simp ↓] theorem sound_modRing {s : State} {r : Nat} {f : Ring → Ring} (h : s.Sound) : (s.modRing r f).Sound := by
  unfold State.modRing; repeat' first | (simp (maxDischargeDepth := 60) +contextual [*]; done) | split

@[simp ↓] theorem sound_ringStaged {s : State} {r : Nat} (h : s.Sound) : (s.ringStaged r).Sound := by
  unfold State.ringStaged; repeat' first | (simp (maxDischargeDepth := 60) +contextual [*]; done) | split

@[simp ↓] theorem sound_ringAdvance {s : State} {r n : Nat} {entry : List Byte} (h : s.Sound) :
    (s.ringAdvance r n entry).Sound := by
  unfold State.ringAdvance; repeat' first | (simp (maxDischargeDepth := 60) +contextual [*]; done) | split

@[simp ↓] theorem sound_frameWrite {s : State} {r : Nat} {f : Frame} {payload : List Byte} (h : s.Sound) :
    (s.frameWrite r f payload).Sound := by
  unfold State.frameWrite; repeat' first | (simp (maxDischargeDepth := 60) +contextual [*]; done) | split

theorem sound_ringTake {s : State} {r : Nat} {t : State} (h : s.Sound)
    (e : s.ringTake r = some t) : t.Sound := by
  unfold State.ringTake at e; try dsimp only at e
  repeat' split at e
  all_goals cases e
  all_goals repeat' first | (simp (maxDischargeDepth := 60) +contextual [*]; done) | split

@[simp ↓] theorem sound_ringDrain {s : State} {r n : Nat} (h : s.Sound) : (s.ringDrain r n).Sound := by
  induction n generalizing s with
  | zero => exact sound_ringStaged h
  | succ n ih =>
    unfold State.ringDrain
    split
    · exact sound_ringStaged h
    · exact ih (sound_ringTake h ‹_›)

@[simp ↓] theorem sound_ringFlush {s : State} {r : Nat} (h : s.Sound) : (s.ringFlush r).Sound := by
  unfold State.ringFlush; repeat' first | (simp (maxDischargeDepth := 60) +contextual [*]; done) | split

@[simp ↓] theorem sound_ringDropped {s : State} {r : Nat} (h : s.Sound) : (s.ringDropped r).Sound := by
  unfold State.ringDropped; repeat' first | (simp (maxDischargeDepth := 60) +contextual [*]; done) | split

@[simp ↓] theorem sound_ringPut {s : State} {r : Nat} {f : Frame} (h : s.Sound) : (s.ringPut r f).Sound := by
  unfold State.ringPut; repeat' first | (simp (maxDischargeDepth := 60) +contextual [*]; done) | split

@[simp ↓] theorem sound_record {s : State} {bytes : List Byte} {keep : Bool} (h : s.Sound) :
    (s.record bytes keep).Sound := by
  unfold State.record; repeat' first | (simp (maxDischargeDepth := 60) +contextual [*]; done) | split

@[simp ↓] theorem sound_eventFrame {s : State} {typ unit_ : Nat} {payload : List Byte} (h : s.Sound) :
    (s.eventFrame typ unit_ payload).Sound := by
  unfold State.eventFrame; repeat' first | (simp (maxDischargeDepth := 60) +contextual [*]; done) | split

@[simp ↓] theorem sound_flushRings {s : State} (h : s.Sound) : s.flushRings.Sound := by
  unfold State.flushRings; repeat' first | (simp (maxDischargeDepth := 60) +contextual [*]; done) | split

@[simp ↓] theorem sound_writeRingEnable {s : State} {via : Path} {r v : Nat} (h : s.Sound) :
    (s.writeRingEnable via r v).Sound := by
  unfold State.writeRingEnable; repeat' first | (simp (maxDischargeDepth := 60) +contextual [*]; done) | split

theorem sound_execRingEnableWrite {dt : Nat} {via : Path} {ring value : Nat} {s : State} {t : State} (h : s.Sound)
    (e : execRingEnableWrite dt via ring value s = .next t) :
    t.Sound := by
  unfold execRingEnableWrite at e; refine sound_act (fun u hu => ?_) h e; repeat' first | (simp (maxDischargeDepth := 60) +contextual [*]; done) | split

theorem sound_execRingCoalesceExpiry {dt ring : Nat} {s : State} {t : State} (h : s.Sound)
    (e : execRingCoalesceExpiry dt ring s = .next t) :
    t.Sound := by
  unfold execRingCoalesceExpiry at e; refine sound_act (fun u hu => ?_) h e; repeat' first | (simp (maxDischargeDepth := 60) +contextual [*]; done) | split

theorem sound_execHlRingConsWrite {dt fn ring value : Nat} {s : State} {t : State} (h : s.Sound)
    (e : execHlRingConsWrite dt fn ring value s = .next t) :
    t.Sound := by
  unfold execHlRingConsWrite at e; refine sound_act (fun u hu => ?_) h e; repeat' first | (simp (maxDischargeDepth := 60) +contextual [*]; done) | split

end Sys2Proof.Machine
end

