-- ==== Sys2Proof/Laws/SoundRecords.lean ====
section
/-! SUPPORT. Laws/SoundRecords.lean: soundness is kept by the operations and commands of Machine/Records.lean. -/
namespace Sys2Proof.Machine
open Reg

@[simp ↓] theorem sound_modRep {s : State} {k : Nat} {f : Rep → Rep} (h : s.Sound) : (s.modRep k f).Sound := by
  unfold State.modRep; repeat' first | (simp (maxDischargeDepth := 60) +contextual [*]; done) | split

@[simp ↓] theorem sound_modView {s : State} {v : Nat} {f : View → View} (h : s.Sound) : (s.modView v f).Sound := by
  unfold State.modView; repeat' first | (simp (maxDischargeDepth := 60) +contextual [*]; done) | split

@[simp ↓] theorem sound_modEasel {s : State} {k : Nat} {f : Easel → Easel} (h : s.Sound) : (s.modEasel k f).Sound := by
  unfold State.modEasel; repeat' first | (simp (maxDischargeDepth := 60) +contextual [*]; done) | split

@[simp ↓] theorem sound_modCtx {s : State} {b : Nat} {f : Ctx → Ctx} (h : s.Sound) : (s.modCtx b f).Sound := by
  unfold State.modCtx; repeat' first | (simp (maxDischargeDepth := 60) +contextual [*]; done) | split

@[simp ↓] theorem sound_modStrip {s : State} {v n : Nat} {f : CStrip → CStrip} (h : s.Sound) :
    (s.modStrip v n f).Sound := by
  unfold State.modStrip; repeat' first | (simp (maxDischargeDepth := 60) +contextual [*]; done) | split

@[simp ↓] theorem sound_loadEngine {s : State} (h : s.Sound) : s.loadEngine.Sound := by
  unfold State.loadEngine; repeat' first | (simp (maxDischargeDepth := 60) +contextual [*]; done) | split

@[simp ↓] theorem sound_archTake {s : State} {v : Nat} (h : s.Sound) : (s.archTake v).Sound := by
  unfold State.archTake; repeat' first | (simp (maxDischargeDepth := 60) +contextual [*]; done) | split

@[simp ↓] theorem sound_archSettle {s : State} (h : s.Sound) : s.archSettle.Sound := by
  unfold State.archSettle; repeat' first | (simp (maxDischargeDepth := 60) +contextual [*]; done) | split

@[simp ↓] theorem sound_flag {s : State} {v n mask : Nat} (h : s.Sound) : (s.flag v n mask).Sound := by
  unfold State.flag; repeat' first | (simp (maxDischargeDepth := 60) +contextual [*]; done) | split

@[simp ↓] theorem sound_statFlag {s : State} {b n mask : Nat} (h : s.Sound) : (s.statFlag b n mask).Sound := by
  unfold State.statFlag; repeat' first | (simp (maxDischargeDepth := 60) +contextual [*]; done) | split

@[simp ↓] theorem sound_camFlag {s : State} {b n mask : Nat} (h : s.Sound) : (s.camFlag b n mask).Sound := by
  unfold State.camFlag; repeat' first | (simp (maxDischargeDepth := 60) +contextual [*]; done) | split

@[simp ↓] theorem sound_noteStrip {s : State} {v : Nat} {x : CStrip} (h : s.Sound) : (s.noteStrip v x).Sound := by
  unfold State.noteStrip; repeat' first | (simp (maxDischargeDepth := 60) +contextual [*]; done) | split

@[simp ↓] theorem sound_recordId {s : State} (h : s.Sound) : s.recordId.2.Sound := by
  unfold State.recordId; repeat' first | (simp (maxDischargeDepth := 60) +contextual [*]; done) | split

@[simp ↓] theorem sound_emitRecord {s : State} {keep : Bool} {bytes : Nat → List Byte} (h : s.Sound) :
    (s.emitRecord keep bytes).Sound := by
  unfold State.emitRecord; repeat' first | (simp (maxDischargeDepth := 60) +contextual [*]; done) | split

@[simp ↓] theorem sound_blindRecord {s : State} {r : Rep} {b : Rect} (h : s.Sound) : (s.blindRecord r b).Sound := by
  unfold State.blindRecord; repeat' first | (simp (maxDischargeDepth := 60) +contextual [*]; done) | split

@[simp ↓] theorem sound_closeRects {s : State} {p : Rect → Bool} (h : s.Sound) : (s.closeRects p).Sound := by
  unfold State.closeRects
  repeat' (first
    | (simp (maxDischargeDepth := 60) +contextual [*]; done)
    | simp only [sound_mk, soundOf_parts]
    | with_reducible refine sound_foldl _ (fun t x ht => ?_) ?_
    | with_reducible refine sound_foldl_fst _ (fun t b x ht => ?_) ?_
    | with_reducible refine sound_ite (fun _ => ?_) (fun _ => ?_)
    | split | with_reducible refine sound_fst ?_ (by assumption) | with_reducible refine sound_snd ?_ (by assumption)
    | with_reducible refine sound_ringTake ?_ (by assumption)
    | with_reducible refine sound_calResults ?_ (by assumption)
    | with_reducible refine sound_modeCheck ?_ (by assumption)
    | dsimp only)

@[simp ↓] theorem sound_blindCols {s : State} {v cause x0 x1 n : Nat} (h : s.Sound) :
    (s.blindCols v cause x0 x1 n).Sound := by
  unfold State.blindCols; repeat' first | (simp (maxDischargeDepth := 60) +contextual [*]; done) | split

@[simp ↓] theorem sound_blindRange {s : State} {v cause x0 x1 n : Nat} (h : s.Sound) :
    (s.blindRange v cause x0 x1 n).Sound := by
  unfold State.blindRange; repeat' first | (simp (maxDischargeDepth := 60) +contextual [*]; done) | split

@[simp ↓] theorem sound_blindLine {s : State} {v cause n : Nat} (h : s.Sound) : (s.blindLine v cause n).Sound := by
  unfold State.blindLine; repeat' first | (simp (maxDischargeDepth := 60) +contextual [*]; done) | split

end Sys2Proof.Machine
end

