-- ==== Sys2Proof/Laws/SoundCanvas.lean ====
section
/-! SUPPORT. Laws/SoundCanvas.lean: soundness is kept by the operations and commands of Machine/Canvas.lean. -/
namespace Sys2Proof.Machine
open Reg

@[simp ↓] theorem sound_checkGeometry {s : State} (h : s.Sound) : s.checkGeometry.1.Sound := by
  unfold State.checkGeometry; repeat' first | (simp (maxDischargeDepth := 60) +contextual [*]; done) | split

@[simp ↓] theorem sound_writeHeader {s : State} {v : Nat} {x : CStrip} (h : s.Sound) : (s.writeHeader v x).Sound := by
  unfold State.writeHeader; repeat' first | (simp (maxDischargeDepth := 60) +contextual [*]; done) | split

@[simp ↓] theorem sound_gapPacket {s : State} {v : Nat} {x : CStrip} (h : s.Sound) : (s.gapPacket v x).Sound := by
  unfold State.gapPacket; repeat' first | (simp (maxDischargeDepth := 60) +contextual [*]; done) | split

@[simp ↓] theorem sound_reclaim {s : State} {v : Nat} {x : CStrip} (h : s.Sound) : (s.reclaim v x).Sound := by
  unfold State.reclaim; repeat' first | (simp (maxDischargeDepth := 60) +contextual [*]; done) | split

@[simp ↓] theorem sound_reclaimAll {s : State} {v : Nat} (h : s.Sound) : (s.reclaimAll v).Sound := by
  unfold State.reclaimAll; repeat' first | (simp (maxDischargeDepth := 60) +contextual [*]; done) | split

@[simp ↓] theorem sound_zeroLines {s : State} {v num m : Nat} (h : s.Sound) : (s.zeroLines v num m).Sound := by
  unfold State.zeroLines; repeat' first | (simp (maxDischargeDepth := 60) +contextual [*]; done) | split

@[simp ↓] theorem sound_openStrip {s : State} {v n : Nat} (h : s.Sound) : (s.openStrip v n).Sound := by
  unfold State.openStrip; repeat' first | (simp (maxDischargeDepth := 60) +contextual [*]; done) | split

@[simp ↓] theorem sound_openStrips {s : State} {n : Nat} (h : s.Sound) : (s.openStrips n).Sound := by
  unfold State.openStrips; repeat' first | (simp (maxDischargeDepth := 60) +contextual [*]; done) | split

@[simp ↓] theorem sound_forceClock {s : State} {n : Nat} (h : s.Sound) : (s.forceClock n).Sound := by
  unfold State.forceClock; repeat' first | (simp (maxDischargeDepth := 60) +contextual [*]; done) | split

@[simp ↓] theorem sound_blendLine {s : State} {v key c a e : Nat} {left right : Nat → List Nat} {okL okR : Bool} (h
    : s.Sound) : (s.blendLine v key c a e left right okL okR).Sound := by
  unfold State.blendLine; repeat' first | (simp (maxDischargeDepth := 60) +contextual [*]; done) | split

@[simp ↓] theorem sound_blendSeam {s : State} {v i c : Nat} (h : s.Sound) : (s.blendSeam v i c).Sound := by
  unfold State.blendSeam; repeat' first | (simp (maxDischargeDepth := 60) +contextual [*]; done) | split

@[simp ↓] theorem sound_sendOverlap {s : State} {v c : Nat} {blind : Bool} (h : s.Sound) :
    (s.sendOverlap v c blind).Sound := by
  unfold State.sendOverlap; repeat' first | (simp (maxDischargeDepth := 60) +contextual [*]; done) | split

@[simp ↓] theorem sound_blendPartner {s : State} {v c : Nat} {payload : List Byte} (h : s.Sound) :
    (s.blendPartner v c payload).Sound := by
  unfold State.blendPartner; repeat' first | (simp (maxDischargeDepth := 60) +contextual [*]; done) | split

@[simp ↓] theorem sound_tryPartner {s : State} {v c : Nat} (h : s.Sound) : (s.tryPartner v c).Sound := by
  unfold State.tryPartner; repeat' first | (simp (maxDischargeDepth := 60) +contextual [*]; done) | split

@[simp ↓] theorem sound_account {s : State} {v b c : Nat} {cause : Option Nat} (h : s.Sound) :
    (s.account v b c cause).Sound := by
  unfold State.account
  repeat' (first
    | (simp (maxDischargeDepth := 60) +contextual [*]; done)
    | simp only [sound_mk, soundOf_parts]
    | with_reducible refine sound_modStrip ?_
    | with_reducible refine sound_blendSeam ?_
    | with_reducible refine sound_tryPartner ?_
    | with_reducible refine sound_sendOverlap ?_
    | with_reducible refine sound_foldl _ (fun t x ht => ?_) ?_
    | with_reducible refine sound_foldl_fst _ (fun t b x ht => ?_) ?_
    | with_reducible refine sound_ite (fun _ => ?_) (fun _ => ?_)
    | split | with_reducible refine sound_fst ?_ (by assumption) | with_reducible refine sound_snd ?_ (by assumption)
    | with_reducible refine sound_ringTake ?_ (by assumption)
    | with_reducible refine sound_calResults ?_ (by assumption)
    | with_reducible refine sound_modeCheck ?_ (by assumption)
    | (intro _; try dsimp only)
    | dsimp only)

@[simp ↓] theorem sound_coverStrip {s : State} {v : Nat} {x : CStrip} (h : s.Sound) : (s.coverStrip v x).Sound := by
  unfold State.coverStrip
  repeat' (first
    | (simp (maxDischargeDepth := 60) +contextual [*]; done)
    | simp only [sound_mk, soundOf_parts]
    | with_reducible refine sound_foldl _ (fun t x ht => ?_) ?_
    | with_reducible refine sound_foldl_fst _ (fun t b x ht => ?_) ?_
    | with_reducible refine sound_ite (fun _ => ?_) (fun _ => ?_)
    | split | with_reducible refine sound_fst ?_ (by assumption) | with_reducible refine sound_snd ?_ (by assumption)
    | with_reducible refine sound_ringTake ?_ (by assumption)
    | with_reducible refine sound_calResults ?_ (by assumption)
    | with_reducible refine sound_modeCheck ?_ (by assumption)
    | dsimp only)

@[simp ↓] theorem sound_seamLoop {s : State} {v : Nat} {x : CStrip} {b key plane : Nat} {farRight : Bool} (h :
    s.Sound) :
    (s.seamLoop v x b key plane farRight).Sound := by
  unfold State.seamLoop; repeat' first | (simp (maxDischargeDepth := 60) +contextual [*]; done) | split

@[simp ↓] theorem sound_seamLoops {s : State} {v : Nat} {x : CStrip} (h : s.Sound) : (s.seamLoops v x).Sound := by
  unfold State.seamLoops; repeat' first | (simp (maxDischargeDepth := 60) +contextual [*]; done) | split

@[simp ↓] theorem sound_gainsStart {s : State} {b : Nat} (h : s.Sound) : (s.gainsStart b).Sound := by
  unfold State.gainsStart; repeat' first | (simp (maxDischargeDepth := 60) +contextual [*]; done) | split

@[simp ↓] theorem sound_releaseStrip {s : State} {v : Nat} {x : CStrip} (h : s.Sound) : (s.releaseStrip v x).Sound := by
  unfold State.releaseStrip; repeat' first | (simp (maxDischargeDepth := 60) +contextual [*]; done) | split

@[simp ↓] theorem sound_releaseStrips {s : State} {v a2 : Nat} (h : s.Sound) : (s.releaseStrips v a2).Sound := by
  induction a2 generalizing s v with
  | zero => unfold State.releaseStrips; repeat' first | (simp (maxDischargeDepth := 60) +contextual [*]; done) | split
  | succ n ih => unfold State.releaseStrips; repeat' first | (simp (maxDischargeDepth := 60) +contextual [*]; done) | split

@[simp ↓] theorem sound_completeStrip {s : State} {v n : Nat} (h : s.Sound) : (s.completeStrip v n).Sound := by
  unfold State.completeStrip; repeat' first | (simp (maxDischargeDepth := 60) +contextual [*]; done) | split

@[simp ↓] theorem sound_tryComplete {s : State} {v n : Nat} (h : s.Sound) : (s.tryComplete v n).Sound := by
  unfold State.tryComplete; repeat' first | (simp (maxDischargeDepth := 60) +contextual [*]; done) | split

@[simp ↓] theorem sound_writeSeg {s : State} {g : Seg} {c : Nat} {gains : Nat × Nat} (h : s.Sound) :
    (s.writeSeg g c gains).Sound := by
  unfold State.writeSeg; repeat' first | (simp (maxDischargeDepth := 60) +contextual [*]; done) | split

@[simp ↓] theorem sound_joinSeg {s : State} {g : Seg} (h : s.Sound) : (s.joinSeg g).Sound := by
  unfold State.joinSeg
  repeat' (first
    | (simp (maxDischargeDepth := 60) +contextual [*]; done)
    | simp only [sound_mk, soundOf_parts]
    | with_reducible refine sound_foldl _ (fun t x ht => ?_) ?_
    | with_reducible refine sound_foldl_fst _ (fun t b x ht => ?_) ?_
    | with_reducible refine sound_ite (fun _ => ?_) (fun _ => ?_)
    | split | with_reducible refine sound_fst ?_ (by assumption) | with_reducible refine sound_snd ?_ (by assumption)
    | with_reducible refine sound_ringTake ?_ (by assumption)
    | with_reducible refine sound_calResults ?_ (by assumption)
    | with_reducible refine sound_modeCheck ?_ (by assumption)
    | dsimp only)

@[simp ↓] theorem sound_accountLine {s : State} {b n cause : Nat} (h : s.Sound) : (s.accountLine b n cause).Sound :=
    by
  unfold State.accountLine
  repeat' (first
    | (simp (maxDischargeDepth := 60) +contextual [*]; done)
    | simp only [sound_mk, soundOf_parts]
    | with_reducible refine sound_foldl _ (fun t x ht => ?_) ?_
    | with_reducible refine sound_foldl_fst _ (fun t b x ht => ?_) ?_
    | with_reducible refine sound_ite (fun _ => ?_) (fun _ => ?_)
    | split | with_reducible refine sound_fst ?_ (by assumption) | with_reducible refine sound_snd ?_ (by assumption)
    | with_reducible refine sound_ringTake ?_ (by assumption)
    | with_reducible refine sound_calResults ?_ (by assumption)
    | with_reducible refine sound_modeCheck ?_ (by assumption)
    | dsimp only)

@[simp ↓] theorem sound_accountRange {s : State} {b first last cause : Nat} (h : s.Sound) :
    (s.accountRange b first last cause).Sound := by
  unfold State.accountRange
  repeat' (first
    | (simp (maxDischargeDepth := 60) +contextual [*]; done)
    | simp only [sound_mk, soundOf_parts]
    | with_reducible refine sound_foldl _ (fun t x ht => ?_) ?_
    | with_reducible refine sound_foldl_fst _ (fun t b x ht => ?_) ?_
    | with_reducible refine sound_ite (fun _ => ?_) (fun _ => ?_)
    | split | with_reducible refine sound_fst ?_ (by assumption) | with_reducible refine sound_snd ?_ (by assumption)
    | with_reducible refine sound_ringTake ?_ (by assumption)
    | with_reducible refine sound_calResults ?_ (by assumption)
    | with_reducible refine sound_modeCheck ?_ (by assumption)
    | dsimp only)

@[simp ↓] theorem sound_holdB {s : State} {v : Nat} {on : Bool} (h : s.Sound) : (s.holdB v on).Sound := by
  unfold State.holdB; repeat' first | (simp (maxDischargeDepth := 60) +contextual [*]; done) | split

theorem sound_execJoinerSegment {dt bay fill : Nat} {s : State} {t : State} (h : s.Sound)
    (e : execJoinerSegment dt bay fill s = .next t) :
    t.Sound := by
  unfold execJoinerSegment at e; refine sound_act (fun u hu => ?_) h e; repeat' first | (simp (maxDischargeDepth := 60) +contextual [*]; done) | split

theorem sound_execCompletionNote {dt bay : Nat} {s : State} {t : State} (h : s.Sound)
    (e : execCompletionNote dt bay s = .next t) :
    t.Sound := by
  unfold execCompletionNote at e; refine sound_act (fun u hu => ?_) h e; repeat' first | (simp (maxDischargeDepth := 60) +contextual [*]; done) | split

@[simp ↓] theorem sound_forceStrip {s : State} {v : Nat} {x : CStrip} (h : s.Sound) : (s.forceStrip v x).Sound := by
  unfold State.forceStrip; repeat' first | (simp (maxDischargeDepth := 60) +contextual [*]; done) | split

theorem sound_execSeamForcedComplete {dt view : Nat} {s : State} {t : State} (h : s.Sound)
    (e : execSeamForcedComplete dt view s = .next t) :
    t.Sound := by
  unfold execSeamForcedComplete at e; refine sound_act (fun u hu => ?_) h e
  repeat' (first
    | (simp (maxDischargeDepth := 60) +contextual [*]; done)
    | simp only [sound_mk, soundOf_parts]
    | with_reducible refine sound_foldl _ (fun t x ht => ?_) ?_
    | with_reducible refine sound_foldl_fst _ (fun t b x ht => ?_) ?_
    | with_reducible refine sound_ite (fun _ => ?_) (fun _ => ?_)
    | split | with_reducible refine sound_fst ?_ (by assumption) | with_reducible refine sound_snd ?_ (by assumption)
    | with_reducible refine sound_ringTake ?_ (by assumption)
    | with_reducible refine sound_calResults ?_ (by assumption)
    | with_reducible refine sound_modeCheck ?_ (by assumption)
    | dsimp only)

@[simp ↓] theorem sound_seamClear {s : State} {via : Path} {v : Nat} (h : s.Sound) : (s.seamClear via v).Sound := by
  unfold State.seamClear; repeat' first | (simp (maxDischargeDepth := 60) +contextual [*]; done) | split

theorem sound_execSeamClear {dt : Nat} {via : Path} {view : Nat} {s : State} {t : State} (h : s.Sound)
    (e : execSeamClear dt via view s = .next t) :
    t.Sound := by
  unfold execSeamClear at e; refine sound_act (fun u hu => ?_) h e; repeat' first | (simp (maxDischargeDepth := 60) +contextual [*]; done) | split

@[simp ↓] theorem sound_partnerShows {s : State} {v planes overlap : Nat} (h : s.Sound) : (s.partnerShows v planes
    overlap).Sound := by
  unfold State.partnerShows; repeat' first | (simp (maxDischargeDepth := 60) +contextual [*]; done) | split

@[simp ↓] theorem sound_keepOverlap {s : State} {v c : Nat} {p : List Byte} (h : s.Sound) : (s.keepOverlap v c
    p).Sound := by
  unfold State.keepOverlap; repeat' first | (simp (maxDischargeDepth := 60) +contextual [*]; done) | split

@[simp ↓] theorem sound_joinPartner {s : State} {v c : Nat} {p : List Byte} (h : s.Sound) : (s.joinPartner v c
    p).Sound := by
  unfold State.joinPartner; repeat' first | (simp (maxDischargeDepth := 60) +contextual [*]; done) | split

@[simp ↓] theorem sound_takeOverlap {s : State} {p : List Byte} (h : s.Sound) : (s.takeOverlap p).Sound := by
  unfold State.takeOverlap; repeat' first | (simp (maxDischargeDepth := 60) +contextual [*]; done) | split

theorem sound_execOverlapFrame {dt : Nat} {frame : List Nat} {s : State} {t : State} (h : s.Sound) (e :
    execOverlapFrame dt frame s = .next t) :
    t.Sound := by
  unfold execOverlapFrame at e; refine sound_act (fun u hu => ?_) h e
  repeat' (first
    | (simp (maxDischargeDepth := 60) +contextual [*]; done)
    | (have e' := (by assumption : (_ : State × _) = (_, _))
       have hq := sound_fst (by simp (maxDischargeDepth := 60) +contextual [*]; done) e'
       simp (maxDischargeDepth := 60) +contextual [*]; done)
    | simp only [sound_mk, soundOf_parts]
    | with_reducible refine sound_foldl _ (fun t x ht => ?_) ?_
    | with_reducible refine sound_foldl_fst _ (fun t b x ht => ?_) ?_
    | with_reducible refine sound_ite (fun _ => ?_) (fun _ => ?_)
    | split | with_reducible refine sound_fst ?_ (by assumption) | with_reducible refine sound_snd ?_ (by assumption)
    | with_reducible refine sound_ringTake ?_ (by assumption)
    | with_reducible refine sound_calResults ?_ (by assumption)
    | with_reducible refine sound_modeCheck ?_ (by assumption)
    | dsimp only)

end Sys2Proof.Machine
end

