-- ==== Sys2Proof/Laws/SoundRegistration.lean ====
section
/-! SUPPORT. Laws/SoundRegistration.lean: soundness is kept by the operations and commands of Machine/Registration.lean. -/
namespace Sys2Proof.Machine
open Reg

@[simp ↓] theorem sound_modField {s : State} {v rep : Nat} {g : RField → RField} (h : s.Sound) : (s.modField v rep
    g).Sound := by
  unfold State.modField; repeat' first | (simp (maxDischargeDepth := 60) +contextual [*]; done) | split

@[simp ↓] theorem sound_finishField {s : State} {v : Nat} {r : Rep} {f : RField} (h : s.Sound) : (s.finishField v r
    f).Sound := by
  unfold State.finishField; repeat' first | (simp (maxDischargeDepth := 60) +contextual [*]; done) | split

@[simp ↓] theorem sound_rowTaken {s : State} {v : Nat} {r : Rep} {f : RField} {out : ARow} (h : s.Sound) :
    (s.rowTaken v r f out).Sound := by
  unfold State.rowTaken; repeat' first | (simp (maxDischargeDepth := 60) +contextual [*]; done) | split

@[simp ↓] theorem sound_regRow {s : State} {v : Nat} {at_ : Bool} {out : ARow → ARow} (h : s.Sound) : (s.regRow v
    at_ out).Sound := by
  unfold State.regRow; repeat' first | (simp (maxDischargeDepth := 60) +contextual [*]; done) | split

@[simp ↓] theorem sound_regRowFails {s : State} {v : Nat} (h : s.Sound) : (s.regRowFails v).Sound := by
  unfold State.regRowFails; repeat' first | (simp (maxDischargeDepth := 60) +contextual [*]; done) | split

theorem sound_execRegRowDone {dt view row : Nat} {s : State} {t : State} (h : s.Sound) (e : execRegRowDone dt view
    row s = .next t) :
    t.Sound := by
  unfold execRegRowDone at e; refine sound_act (fun u hu => ?_) h e; repeat' first | (simp (maxDischargeDepth := 60) +contextual [*]; done) | split

@[simp ↓] theorem sound_dropFields {s : State} {key : Nat} (h : s.Sound) : (s.dropFields key).Sound := by
  unfold State.dropFields
  repeat' (first
    | (simp (maxDischargeDepth := 60) +contextual [*]; done)
    | simp only [sound_mk, soundOf_parts]
    | with_reducible refine sound_foldl _ (fun t x ht => ?_) ?_
    | with_reducible refine sound_foldl_fst _ (fun t b x ht => ?_) ?_
    | with_reducible refine sound_ite (fun _ => ?_) (fun _ => ?_)
    | split | with_reducible refine sound_fst ?_ (by assumption) | with_reducible refine sound_snd ?_ (by assumption)
    | with_reducible refine sound_ringTake ?_ (by assumption)
    | with_reducible refine sound_calResults ?_ (by assumption)
    | with_reducible refine sound_modeCheck ?_ (by assumption)
    | dsimp only)

@[simp ↓] theorem sound_modSched {s : State} {f : Sched → Sched} (h : s.Sound) : (s.modSched f).Sound := by
  unfold State.modSched; repeat' first | (simp (maxDischargeDepth := 60) +contextual [*]; done) | split

@[simp ↓] theorem sound_losePhase {s : State} (h : s.Sound) : s.losePhase.Sound := by
  unfold State.losePhase
  repeat' (first
    | (simp (maxDischargeDepth := 60) +contextual [*]; done)
    | simp only [sound_mk, soundOf_parts]
    | with_reducible refine sound_foldl _ (fun t x ht => ?_) ?_
    | with_reducible refine sound_foldl_fst _ (fun t b x ht => ?_) ?_
    | with_reducible refine sound_ite (fun _ => ?_) (fun _ => ?_)
    | split | with_reducible refine sound_fst ?_ (by assumption) | with_reducible refine sound_snd ?_ (by assumption)
    | with_reducible refine sound_ringTake ?_ (by assumption)
    | with_reducible refine sound_calResults ?_ (by assumption)
    | with_reducible refine sound_modeCheck ?_ (by assumption)
    | dsimp only)

@[simp ↓] theorem sound_markMiss {s : State} (h : s.Sound) : s.markMiss.Sound := by
  unfold State.markMiss
  repeat' (first
    | (simp (maxDischargeDepth := 60) +contextual [*]; done)
    | simp only [sound_mk, soundOf_parts]
    | with_reducible refine sound_foldl _ (fun t x ht => ?_) ?_
    | with_reducible refine sound_foldl_fst _ (fun t b x ht => ?_) ?_
    | with_reducible refine sound_ite (fun _ => ?_) (fun _ => ?_)
    | split | with_reducible refine sound_fst ?_ (by assumption) | with_reducible refine sound_snd ?_ (by assumption)
    | with_reducible refine sound_ringTake ?_ (by assumption)
    | with_reducible refine sound_calResults ?_ (by assumption)
    | with_reducible refine sound_modeCheck ?_ (by assumption)
    | dsimp only)

@[simp ↓] theorem sound_markFound {s : State} {p : List Byte} {r : Rep} {n : Nat} (h : s.Sound) : (s.markFound p r
    n).Sound := by
  unfold State.markFound
  repeat' (first
    | (simp (maxDischargeDepth := 60) +contextual [*]; done)
    | simp only [sound_mk, soundOf_parts]
    | with_reducible refine sound_foldl _ (fun t x ht => ?_) ?_
    | with_reducible refine sound_foldl_fst _ (fun t b x ht => ?_) ?_
    | with_reducible refine sound_ite (fun _ => ?_) (fun _ => ?_)
    | split | with_reducible refine sound_fst ?_ (by assumption) | with_reducible refine sound_snd ?_ (by assumption)
    | with_reducible refine sound_ringTake ?_ (by assumption)
    | with_reducible refine sound_calResults ?_ (by assumption)
    | with_reducible refine sound_modeCheck ?_ (by assumption)
    | dsimp only)

@[simp ↓] theorem sound_searchAll {s : State} {p : List Byte} {r : Rep} (h : s.Sound) : (s.searchAll p r).Sound :=
    by
  unfold State.searchAll
  repeat' (first
    | (simp (maxDischargeDepth := 60) +contextual [*]; done)
    | simp only [sound_mk, soundOf_parts]
    | with_reducible refine sound_foldl _ (fun t x ht => ?_) ?_
    | with_reducible refine sound_foldl_fst _ (fun t b x ht => ?_) ?_
    | with_reducible refine sound_ite (fun _ => ?_) (fun _ => ?_)
    | split | with_reducible refine sound_fst ?_ (by assumption) | with_reducible refine sound_snd ?_ (by assumption)
    | with_reducible refine sound_ringTake ?_ (by assumption)
    | with_reducible refine sound_calResults ?_ (by assumption)
    | with_reducible refine sound_modeCheck ?_ (by assumption)
    | dsimp only)

@[simp ↓] theorem sound_searchOne {s : State} {p : List Byte} {r : Rep} (h : s.Sound) : (s.searchOne p r).Sound :=
    by
  unfold State.searchOne
  repeat' (first
    | (simp (maxDischargeDepth := 60) +contextual [*]; done)
    | simp only [sound_mk, soundOf_parts]
    | with_reducible refine sound_foldl _ (fun t x ht => ?_) ?_
    | with_reducible refine sound_foldl_fst _ (fun t b x ht => ?_) ?_
    | with_reducible refine sound_ite (fun _ => ?_) (fun _ => ?_)
    | split | with_reducible refine sound_fst ?_ (by assumption) | with_reducible refine sound_snd ?_ (by assumption)
    | with_reducible refine sound_ringTake ?_ (by assumption)
    | with_reducible refine sound_calResults ?_ (by assumption)
    | with_reducible refine sound_modeCheck ?_ (by assumption)
    | dsimp only)

@[simp ↓] theorem sound_searchEnds {s : State} (h : s.Sound) : s.searchEnds.Sound := by
  unfold State.searchEnds; repeat' first | (simp (maxDischargeDepth := 60) +contextual [*]; done) | split

@[simp ↓] theorem sound_learnAtStart {s : State} {number : Nat} (h : s.Sound) : (s.learnAtStart number).Sound := by
  unfold State.learnAtStart; repeat' first | (simp (maxDischargeDepth := 60) +contextual [*]; done) | split

@[simp ↓] theorem sound_fillPixels {s : State} {w h : Nat} {addr px : Nat → Nat → Nat} (hs : s.Sound) :
    (s.fillPixels w h addr px).Sound := by
  unfold State.fillPixels; repeat' first | (simp (maxDischargeDepth := 60) +contextual [*]; done) | split

@[simp ↓] theorem sound_seedRows {s : State} {v : Nat} {r : Rep} {y0 n : Nat} (h : s.Sound) : (s.seedRows v r y0
    n).Sound := by
  unfold State.seedRows; repeat' first | (simp (maxDischargeDepth := 60) +contextual [*]; done) | split

@[simp ↓] theorem sound_learnBand {s : State} {v band : Nat} (h : s.Sound) : (s.learnBand v band).Sound := by
  unfold State.learnBand; repeat' first | (simp (maxDischargeDepth := 60) +contextual [*]; done) | split

@[simp ↓] theorem sound_bandDone {s : State} {v : Nat} (h : s.Sound) : (s.bandDone v).Sound := by
  unfold State.bandDone; repeat' first | (simp (maxDischargeDepth := 60) +contextual [*]; done) | split

@[simp ↓] theorem sound_sampleRows {s : State} {v : Nat} {r : Rep} {f : RField} {y0 n : Nat} (h : s.Sound) :
    (s.sampleRows v r f y0 n).Sound := by
  unfold State.sampleRows; repeat' first | (simp (maxDischargeDepth := 60) +contextual [*]; done) | split

@[simp ↓] theorem sound_takeRows {s : State} {v : Nat} {r : Rep} {to_ : Nat} (h : s.Sound) : (s.takeRows v r
    to_).Sound := by
  unfold State.takeRows; repeat' first | (simp (maxDischargeDepth := 60) +contextual [*]; done) | split

@[simp ↓] theorem sound_learnRows {s : State} {v num : Nat} (h : s.Sound) : (s.learnRows v num).Sound := by
  unfold State.learnRows; repeat' first | (simp (maxDischargeDepth := 60) +contextual [*]; done) | split

@[simp ↓] theorem sound_takeSample {s : State} {v : Nat} (h : s.Sound) : (s.takeSample v).Sound := by
  unfold State.takeSample; repeat' first | (simp (maxDischargeDepth := 60) +contextual [h]; done) | split

@[simp ↓] theorem sound_learnView {s : State} {v : Nat} {r : Rep} (h : s.Sound) : (s.learnView v r).Sound := by
  unfold State.learnView; repeat' first | (simp (maxDischargeDepth := 60) +contextual [*]; done) | split

@[simp ↓] theorem sound_regLearn {s : State} {via : Path} (h : s.Sound) : (s.regLearn via).Sound := by
  unfold State.regLearn; repeat' first | (simp (maxDischargeDepth := 60) +contextual [*]; done) | split

theorem sound_execRegLearn {dt : Nat} {via : Path} {s : State} {t : State} (h : s.Sound)
    (e : execRegLearn dt via s = .next t) :
    t.Sound := by
  unfold execRegLearn at e; refine sound_act (fun u hu => ?_) h e; repeat' first | (simp (maxDischargeDepth := 60) +contextual [*]; done) | split

@[simp ↓] theorem sound_regUpSave {s : State} {via : Path} (h : s.Sound) : (s.regUpSave via).Sound := by
  unfold State.regUpSave; repeat' first | (simp (maxDischargeDepth := 60) +contextual [*]; done) | split

theorem sound_execRegUpSave {dt : Nat} {via : Path} {s : State} {t : State} (h : s.Sound)
    (e : execRegUpSave dt via s = .next t) :
    t.Sound := by
  unfold execRegUpSave at e; refine sound_act (fun u hu => ?_) h e; repeat' first | (simp (maxDischargeDepth := 60) +contextual [*]; done) | split

@[simp ↓] theorem sound_regClear {s : State} {via : Path} (h : s.Sound) : (s.regClear via).Sound := by
  unfold State.regClear; repeat' first | (simp (maxDischargeDepth := 60) +contextual [*]; done) | split

theorem sound_execRegClear {dt : Nat} {via : Path} {s : State} {t : State} (h : s.Sound)
    (e : execRegClear dt via s = .next t) :
    t.Sound := by
  unfold execRegClear at e; refine sound_act (fun u hu => ?_) h e; repeat' first | (simp (maxDischargeDepth := 60) +contextual [*]; done) | split

end Sys2Proof.Machine
end

