-- ==== Sys2Proof/Laws/SoundAssembler.lean ====
section
/-! SUPPORT. Laws/SoundAssembler.lean: soundness is kept by the operations and commands of Machine/Assembler.lean. -/
namespace Sys2Proof.Machine
open Reg

@[simp ↓] theorem sound_addFrag {s : State} {image : List Byte} {f : Frag} (h : s.Sound) : (s.addFrag image f).Sound := by
  unfold State.addFrag; repeat' first | (simp (maxDischargeDepth := 60) +contextual [*]; done) | split

@[simp ↓] theorem sound_fireItem {s : State} {r : Rep} {i : Item} (h : s.Sound) : (s.fireItem r i).1.Sound := by
  unfold State.fireItem
  repeat' (first
    | (simp (maxDischargeDepth := 60) +contextual [*]; done)
    | simp only [sound_mk, soundOf_parts]
    | with_reducible refine sound_foldl _ (fun t x ht => ?_) ?_
    | with_reducible refine sound_foldl_fst _ (fun t b x ht => ?_) ?_
    | with_reducible refine sound_ite (fun _ => ?_) (fun _ => ?_)
    | split | with_reducible refine sound_fst ?_ (by assumption) | with_reducible refine sound_snd ?_ (by assumption)
    | with_reducible refine sound_ringTake ?_ (by assumption)
    | with_reducible refine sound_calResults ?_ (by assumption)
    | with_reducible refine sound_modeCheck ?_ (by assumption)
    | dsimp only)

@[simp ↓] theorem sound_rejectItem {s : State} {key idx : Nat} (h : s.Sound) : (s.rejectItem key idx).Sound := by
  unfold State.rejectItem; repeat' first | (simp (maxDischargeDepth := 60) +contextual [*]; done) | split

@[simp ↓] theorem sound_requestCrop {s : State} {r : Rep} {c : Cand} {id : Nat} (h : s.Sound) :
    (s.requestCrop r c id).1.Sound := by
  unfold State.requestCrop
  repeat' (first
    | (simp (maxDischargeDepth := 60) +contextual [*]; done)
    | simp only [sound_mk, soundOf_parts]
    | with_reducible refine sound_foldl _ (fun t x ht => ?_) ?_
    | with_reducible refine sound_foldl_fst _ (fun t b x ht => ?_) ?_
    | with_reducible refine sound_ite (fun _ => ?_) (fun _ => ?_)
    | split | with_reducible refine sound_fst ?_ (by assumption) | with_reducible refine sound_snd ?_ (by assumption)
    | with_reducible refine sound_ringTake ?_ (by assumption)
    | with_reducible refine sound_calResults ?_ (by assumption)
    | with_reducible refine sound_modeCheck ?_ (by assumption)
    | dsimp only)

@[simp ↓] theorem sound_defectRecord {s : State} {r : Rep} {v : Nat} {d : Rec} (h : s.Sound) :
    (s.defectRecord r v d).Sound := by
  unfold State.defectRecord; repeat' first | (simp (maxDischargeDepth := 60) +contextual [*]; done) | split

@[simp ↓] theorem sound_emitFloodCand {s : State} {r : Rep} {c : Cand} {continued : Bool} (h : s.Sound) :
    (s.emitFloodCand r c continued).Sound := by
  unfold State.emitFloodCand; repeat' first | (simp (maxDischargeDepth := 60) +contextual [*]; done) | split

@[simp ↓] theorem sound_addFlood {s : State} {r : Rep} {c : Cand} {f : Feat} {v : Verdict} (h : s.Sound) :
    (s.addFlood r c f v).Sound := by
  unfold State.addFlood; repeat' first | (simp (maxDischargeDepth := 60) +contextual [*]; done) | split

@[simp ↓] theorem sound_emitCand {s : State} {c : Cand} {continued : Bool} (h : s.Sound) :
    (s.emitCand c continued).Sound := by
  unfold State.emitCand
  repeat' (first
    | (simp (maxDischargeDepth := 60) +contextual [*]; done)
    | simp only [sound_mk, soundOf_parts]
    | with_reducible refine sound_foldl _ (fun t x ht => ?_) ?_
    | with_reducible refine sound_foldl_fst _ (fun t b x ht => ?_) ?_
    | with_reducible refine sound_ite (fun _ => ?_) (fun _ => ?_)
    | split | with_reducible refine sound_fst ?_ (by assumption) | with_reducible refine sound_snd ?_ (by assumption)
    | with_reducible refine sound_ringTake ?_ (by assumption)
    | with_reducible refine sound_calResults ?_ (by assumption)
    | with_reducible refine sound_modeCheck ?_ (by assumption)
    | dsimp only)

@[simp ↓] theorem sound_mergeReceived {s : State} {d : Cand} {hit : Cand → Bool} (h : s.Sound) :
    (s.mergeReceived d hit).Sound := by
  unfold State.mergeReceived; repeat' first | (simp (maxDischargeDepth := 60) +contextual [*]; done) | split

@[simp ↓] theorem sound_beginWait {s : State} {c : Cand} (h : s.Sound) : (s.beginWait c).Sound := by
  unfold State.beginWait; repeat' first | (simp (maxDischargeDepth := 60) +contextual [*]; done) | split

@[simp ↓] theorem sound_closeCand {s : State} {c : Cand} {continued : Bool} (h : s.Sound) :
    (s.closeCand c continued).Sound := by
  unfold State.closeCand; repeat' first | (simp (maxDischargeDepth := 60) +contextual [*]; done) | split

@[simp ↓] theorem sound_putReject {s : State} {p : Pub} (h : s.Sound) : (s.putReject p).Sound := by
  unfold State.putReject; repeat' first | (simp (maxDischargeDepth := 60) +contextual [*]; done) | split

@[simp ↓] theorem sound_publish {s : State} {word rep row : Nat} (h : s.Sound) : (s.publish word rep row).Sound := by
  unfold State.publish; repeat' first | (simp (maxDischargeDepth := 60) +contextual [*]; done) | split

@[simp ↓] theorem sound_closeRow {s : State} {r : Rep} {row : Nat} (h : s.Sound) : (s.closeRow r row).Sound := by
  unfold State.closeRow; repeat' first | (simp (maxDischargeDepth := 60) +contextual [*]; done) | split

@[simp ↓] theorem sound_closeRows {s : State} (h : s.Sound) : s.closeRows.Sound := by
  unfold State.closeRows; repeat' first | (simp (maxDischargeDepth := 60) +contextual [*]; done) | split

@[simp ↓] theorem sound_emitFloods {s : State} (h : s.Sound) : s.emitFloods.Sound := by
  unfold State.emitFloods
  repeat' (first
    | (simp (maxDischargeDepth := 60) +contextual [*]; done)
    | simp only [sound_mk, soundOf_parts]
    | with_reducible refine sound_foldl _ (fun t x ht => ?_) ?_
    | with_reducible refine sound_foldl_fst _ (fun t b x ht => ?_) ?_
    | with_reducible refine sound_ite (fun _ => ?_) (fun _ => ?_)
    | split | with_reducible refine sound_fst ?_ (by assumption) | with_reducible refine sound_snd ?_ (by assumption)
    | with_reducible refine sound_ringTake ?_ (by assumption)
    | with_reducible refine sound_calResults ?_ (by assumption)
    | with_reducible refine sound_modeCheck ?_ (by assumption)
    | dsimp only)

@[simp ↓] theorem sound_cover {s : State} {r : Rep} (h : s.Sound) : (s.cover r).Sound := by
  unfold State.cover; repeat' first | (simp (maxDischargeDepth := 60) +contextual [*]; done) | split

@[simp ↓] theorem sound_coverAll {s : State} {a1 : Nat} (h : s.Sound) : (s.coverAll a1).Sound := by
  induction a1 generalizing s with
  | zero => unfold State.coverAll; repeat' first | (simp (maxDischargeDepth := 60) +contextual [*]; done) | split
  | succ n ih => unfold State.coverAll; repeat' first | (simp (maxDischargeDepth := 60) +contextual [*]; done) | split

@[simp ↓] theorem sound_switchDone {s : State} (h : s.Sound) : s.switchDone.Sound := by
  unfold State.switchDone; repeat' first | (simp (maxDischargeDepth := 60) +contextual [*]; done) | split

@[simp ↓] theorem sound_leaveStrip {s : State} {v : Nat} {x : CStrip} (h : s.Sound) : (s.leaveStrip v x).Sound := by
  unfold State.leaveStrip; repeat' first | (simp (maxDischargeDepth := 60) +contextual [*]; done) | split

@[simp ↓] theorem sound_leaveStrips {s : State} (h : s.Sound) : s.leaveStrips.Sound := by
  unfold State.leaveStrips; repeat' first | (simp (maxDischargeDepth := 60) +contextual [*]; done) | split

@[simp ↓] theorem sound_closeCands {s : State} (h : s.Sound) : s.closeCands.Sound := by
  unfold State.closeCands; repeat' first | (simp (maxDischargeDepth := 60) +contextual [*]; done) | split

@[simp ↓] theorem sound_asmSettle {s : State} (h : s.Sound) : s.asmSettle.Sound := by
  unfold State.asmSettle; repeat' first | (simp (maxDischargeDepth := 60) +contextual [*]; done) | split

theorem sound_execFragmentFrame {dt : Nat} {frame : List Nat} {s : State} {t : State} (h : s.Sound)
    (e : execFragmentFrame dt frame s = .next t) :
    t.Sound := by
  unfold execFragmentFrame at e; refine sound_act (fun u hu => ?_) h e
  repeat' (first
    | (simp (maxDischargeDepth := 60) +contextual [*]; done)
    | simp only [sound_mk, soundOf_parts]
    | with_reducible refine sound_takeFrame ?_
    | with_reducible refine sound_mergeReceived ?_
    | with_reducible refine sound_asmSettle ?_
    | with_reducible refine sound_emitCand ?_
    | with_reducible refine sound_tally ?_
    | with_reducible refine sound_foldl _ (fun t x ht => ?_) ?_
    | with_reducible refine sound_foldl_fst _ (fun t b x ht => ?_) ?_
    | with_reducible refine sound_ite (fun _ => ?_) (fun _ => ?_)
    | split | with_reducible refine sound_fst ?_ (by assumption) | with_reducible refine sound_snd ?_ (by assumption)
    | with_reducible refine sound_ringTake ?_ (by assumption)
    | with_reducible refine sound_calResults ?_ (by assumption)
    | with_reducible refine sound_modeCheck ?_ (by assumption)
    | (intro _; try dsimp only)
    | dsimp only)

theorem sound_execDefCascadeWait {dt : Nat} {s : State} {t : State} (h : s.Sound)
    (e : execDefCascadeWait dt s = .next t) :
    t.Sound := by
  unfold execDefCascadeWait at e; refine sound_act (fun u hu => ?_) h e; repeat' first | (simp (maxDischargeDepth := 60) +contextual [*]; done) | split

theorem sound_execRejectHoldEnd {dt : Nat} {s : State} {t : State} (h : s.Sound)
    (e : execRejectHoldEnd dt s = .next t) :
    t.Sound := by
  unfold execRejectHoldEnd at e; refine sound_act (fun u hu => ?_) h e; repeat' first | (simp (maxDischargeDepth := 60) +contextual [*]; done) | split

@[simp ↓] theorem sound_defClear {s : State} {via : Path} (h : s.Sound) : (s.defClear via).Sound := by
  unfold State.defClear; repeat' first | (simp (maxDischargeDepth := 60) +contextual [*]; done) | split

theorem sound_execDefClear {dt : Nat} {via : Path} {s : State} {t : State} (h : s.Sound)
    (e : execDefClear dt via s = .next t) :
    t.Sound := by
  unfold execDefClear at e; refine sound_act (fun u hu => ?_) h e; repeat' first | (simp (maxDischargeDepth := 60) +contextual [*]; done) | split

end Sys2Proof.Machine
end

