-- ==== Sys2Proof/Laws/SoundBays.lean ====
section
/-! SUPPORT. Laws/SoundBays.lean: soundness is kept by the operations and commands of Machine/Bays.lean. -/
namespace Sys2Proof.Machine
open Reg

@[simp ↓] theorem sound_modLane {s : State} {l : Nat} {f : Lane → Lane} (h : s.Sound) : (s.modLane l f).Sound := by
  unfold State.modLane; repeat' first | (simp (maxDischargeDepth := 60) +contextual [*]; done) | split

@[simp ↓] theorem sound_modBay {s : State} {b : Nat} {f : Bay → Bay} (h : s.Sound) : (s.modBay b f).Sound := by
  unfold State.modBay; repeat' first | (simp (maxDischargeDepth := 60) +contextual [*]; done) | split

@[simp ↓] theorem sound_modQuad {s : State} {q : Nat} {f : Quad → Quad} (h : s.Sound) : (s.modQuad q f).Sound := by
  unfold State.modQuad; repeat' first | (simp (maxDischargeDepth := 60) +contextual [*]; done) | split

@[simp ↓] theorem sound_lanesUp {s : State} {q : Nat} (h : s.Sound) : (s.lanesUp q).Sound := by
  unfold State.lanesUp; repeat' first | (simp (maxDischargeDepth := 60) +contextual [*]; done) | split

@[simp ↓] theorem sound_laneTo {s : State} {l state : Nat} (h : s.Sound) : (s.laneTo l state).Sound := by
  unfold State.laneTo; repeat' first | (simp (maxDischargeDepth := 60) +contextual [*]; done) | split

@[simp ↓] theorem sound_quadResult {s : State} {q code : Nat} (h : s.Sound) : (s.quadResult q code).Sound := by
  unfold State.quadResult; repeat' first | (simp (maxDischargeDepth := 60) +contextual [*]; done) | split

@[simp ↓] theorem sound_quadDown {s : State} {q : Nat} (h : s.Sound) : (s.quadDown q).Sound := by
  unfold State.quadDown; repeat' first | (simp (maxDischargeDepth := 60) +contextual [*]; done) | split

@[simp ↓] theorem sound_bringupFails {s : State} {q code : Nat} (h : s.Sound) : (s.bringupFails q code).Sound := by
  unfold State.bringupFails; repeat' first | (simp (maxDischargeDepth := 60) +contextual [*]; done) | split

@[simp ↓] theorem sound_bringupOk {s : State} {q : Nat} (h : s.Sound) : (s.bringupOk q).Sound := by
  unfold State.bringupOk; repeat' first | (simp (maxDischargeDepth := 60) +contextual [*]; done) | split

@[simp ↓] theorem sound_pocxpFeed {s : State} {b : Nat} (h : s.Sound) : (s.pocxpFeed b).Sound := by
  unfold State.pocxpFeed; repeat' first | (simp (maxDischargeDepth := 60) +contextual [*]; done) | split

@[simp ↓] theorem sound_bayStart {s : State} {q n : Nat} (h : s.Sound) : (s.bayStart q n).Sound := by
  unfold State.bayStart; repeat' first | (simp (maxDischargeDepth := 60) +contextual [*]; done) | split

@[simp ↓] theorem sound_bringupStart {s : State} {q : Nat} (h : s.Sound) : (s.bringupStart q).Sound := by
  unfold State.bringupStart; repeat' first | (simp (maxDischargeDepth := 60) +contextual [*]; done) | split

@[simp ↓] theorem sound_bayRetry {s : State} {via : Path} {b : Nat} (h : s.Sound) : (s.bayRetry via b).Sound := by
  unfold State.bayRetry; repeat' first | (simp (maxDischargeDepth := 60) +contextual [*]; done) | split

theorem sound_execBayRetry {dt : Nat} {via : Path} {bay : Nat} {s : State} {t : State} (h : s.Sound)
    (e : execBayRetry dt via bay s = .next t) :
    t.Sound := by
  unfold execBayRetry at e; refine sound_act (fun u hu => ?_) h e; repeat' first | (simp (maxDischargeDepth := 60) +contextual [*]; done) | split

@[simp ↓] theorem sound_bootWrite {s : State} {b : Nat} {w : BootWrite} (h : s.Sound) : (s.bootWrite b w).Sound :=
    by
  unfold State.bootWrite; repeat' first | (simp (maxDischargeDepth := 60) +contextual [*]; done) | split

theorem sound_execCxpSignalDetect {dt bay : Nat} {signal : CxpSignal} {s : State} {t : State} (h : s.Sound) (e :
    execCxpSignalDetect dt bay signal s = .next t) :
    t.Sound := by
  unfold execCxpSignalDetect at e; refine sound_act (fun u hu => ?_) h e; repeat' first | (simp (maxDischargeDepth := 60) +contextual [*]; done) | split

@[simp ↓] theorem sound_connMapped {s : State} {bay : Nat} {c : CxpCamera} (h : s.Sound) : (s.connMapped bay
    c).Sound := by
  unfold State.connMapped; repeat' first | (simp (maxDischargeDepth := 60) +contextual [*]; done) | split

@[simp ↓] theorem sound_stepUpStart {s : State} {bay : Nat} {c : CxpCamera} {rate n : Nat} {targets : List Nat} (h :
    s.Sound) : (s.stepUpStart bay c rate n targets).Sound := by
  unfold State.stepUpStart; repeat' first | (simp (maxDischargeDepth := 60) +contextual [*]; done) | split

@[simp ↓] theorem sound_discovered {s : State} {bay : Nat} {c : CxpCamera} (h : s.Sound) : (s.discovered bay
    c).Sound := by
  unfold State.discovered
  repeat' (first
    | (simp (maxDischargeDepth := 60) +contextual [*]; done)
    | simp only [sound_mk, soundOf_parts]
    | with_reducible refine sound_foldl _ (fun t x ht => ?_) ?_
    | with_reducible refine sound_foldl_fst _ (fun t b x ht => ?_) ?_
    | with_reducible refine sound_ite (fun _ => ?_) (fun _ => ?_)
    | split | with_reducible refine sound_fst ?_ (by assumption) | with_reducible refine sound_snd ?_ (by assumption)
    | with_reducible refine sound_ringTake ?_ (by assumption)
    | with_reducible refine sound_calResults ?_ (by assumption)
    | with_reducible refine sound_modeCheck ?_ (by assumption)
    | dsimp only)

@[simp ↓] theorem sound_discoveryDone {s : State} {bay : Nat} {cam : Option CxpCamera} (h : s.Sound) :
    (s.discoveryDone bay cam).Sound := by
  unfold State.discoveryDone; repeat' first | (simp (maxDischargeDepth := 60) +contextual [*]; done) | split

theorem sound_execCxpStepUpLock {dt bay : Nat} {s : State} {t : State} (h : s.Sound)
    (e : execCxpStepUpLock dt bay s = .next t) :
    t.Sound := by
  unfold execCxpStepUpLock at e; refine sound_act (fun u hu => ?_) h e; repeat' first | (simp (maxDischargeDepth := 60) +contextual [*]; done) | split

@[simp ↓] theorem sound_stepUpTimeout {s : State} {bay : Nat} (h : s.Sound) : (s.stepUpTimeout bay).Sound := by
  unfold State.stepUpTimeout; repeat' first | (simp (maxDischargeDepth := 60) +contextual [*]; done) | split

@[simp ↓] theorem sound_clhsReady {s : State} {bay : Nat} (h : s.Sound) : (s.clhsReady bay).Sound := by
  unfold State.clhsReady; repeat' first | (simp (maxDischargeDepth := 60) +contextual [*]; done) | split

@[simp ↓] theorem sound_relocked {s : State} {quad l : Nat} (h : s.Sound) : (s.relocked quad l).Sound := by
  unfold State.relocked; repeat' first | (simp (maxDischargeDepth := 60) +contextual [*]; done) | split

@[simp ↓] theorem sound_sendControl {s : State} {payload : List Byte} (h : s.Sound) : (s.sendControl payload).Sound := by
  unfold State.sendControl; repeat' first | (simp (maxDischargeDepth := 60) +contextual [*]; done) | split

@[simp ↓] theorem sound_exchangeStep {s : State} {l : Nat} (h : s.Sound) : (s.exchangeStep l).Sound := by
  unfold State.exchangeStep; repeat' first | (simp (maxDischargeDepth := 60) +contextual [*]; done) | split

@[simp ↓] theorem sound_laneStepDone {s : State} {quad lane lanesOffered : Nat} (h : s.Sound) : (s.laneStepDone quad
    lane lanesOffered).Sound := by
  unfold State.laneStepDone
  repeat' (first
    | (simp (maxDischargeDepth := 60) +contextual [*]; done)
    | simp only [sound_mk, soundOf_parts]
    | with_reducible refine sound_foldl _ (fun t x ht => ?_) ?_
    | with_reducible refine sound_foldl_fst _ (fun t b x ht => ?_) ?_
    | with_reducible refine sound_ite (fun _ => ?_) (fun _ => ?_)
    | split | with_reducible refine sound_fst ?_ (by assumption) | with_reducible refine sound_snd ?_ (by assumption)
    | with_reducible refine sound_ringTake ?_ (by assumption)
    | with_reducible refine sound_calResults ?_ (by assumption)
    | with_reducible refine sound_modeCheck ?_ (by assumption)
    | dsimp only)

@[simp ↓] theorem sound_laneStepTimeout {s : State} {quad lane : Nat} (h : s.Sound) : (s.laneStepTimeout quad
    lane).Sound := by
  unfold State.laneStepTimeout; repeat' first | (simp (maxDischargeDepth := 60) +contextual [*]; done) | split

@[simp ↓] theorem sound_relock {s : State} {quad l : Nat} (h : s.Sound) : (s.relock quad l).Sound := by
  unfold State.relock; repeat' first | (simp (maxDischargeDepth := 60) +contextual [*]; done) | split

@[simp ↓] theorem sound_routeSlice {s : State} {quad l slice : Nat} (h : s.Sound) : (s.routeSlice quad l slice).Sound := by
  unfold State.routeSlice; repeat' first | (simp (maxDischargeDepth := 60) +contextual [*]; done) | split

@[simp ↓] theorem sound_laneFailed {s : State} {quad l code : Nat} (h : s.Sound) : (s.laneFailed quad l code).Sound := by
  unfold State.laneFailed; repeat' first | (simp (maxDischargeDepth := 60) +contextual [*]; done) | split

@[simp ↓] theorem sound_sliceDead {s : State} {quad l : Nat} (h : s.Sound) : (s.sliceDead quad l).Sound := by
  unfold State.sliceDead
  repeat' (first
    | (simp (maxDischargeDepth := 60) +contextual [*]; done)
    | simp only [sound_mk, soundOf_parts]
    | with_reducible refine sound_foldl _ (fun t x ht => ?_) ?_
    | with_reducible refine sound_foldl_fst _ (fun t b x ht => ?_) ?_
    | with_reducible refine sound_ite (fun _ => ?_) (fun _ => ?_)
    | split | with_reducible refine sound_fst ?_ (by assumption) | with_reducible refine sound_snd ?_ (by assumption)
    | with_reducible refine sound_ringTake ?_ (by assumption)
    | with_reducible refine sound_calResults ?_ (by assumption)
    | with_reducible refine sound_modeCheck ?_ (by assumption)
    | dsimp only)

theorem sound_execLaneLockLoss {dt quad lane : Nat} {s : State} {t : State} (h : s.Sound)
    (e : execLaneLockLoss dt quad lane s = .next t) :
    t.Sound := by
  unfold execLaneLockLoss at e; refine sound_act (fun u hu => ?_) h e; repeat' first | (simp (maxDischargeDepth := 60) +contextual [*]; done) | split

@[simp ↓] theorem sound_laneRetrainFail {s : State} {quad lane : Nat} (h : s.Sound) : (s.laneRetrainFail quad
    lane).Sound := by
  unfold State.laneRetrainFail; repeat' first | (simp (maxDischargeDepth := 60) +contextual [*]; done) | split

theorem sound_execLaneRetrainDone {dt quad lane : Nat} {s : State} {t : State} (h : s.Sound)
    (e : execLaneRetrainDone dt quad lane s = .next t) :
    t.Sound := by
  unfold execLaneRetrainDone at e; refine sound_act (fun u hu => ?_) h e; repeat' first | (simp (maxDischargeDepth := 60) +contextual [*]; done) | split

@[simp ↓] theorem sound_lockLost {s : State} {quad l : Nat} (h : s.Sound) : (s.lockLost quad l).Sound := by
  unfold State.lockLost; repeat' first | (simp (maxDischargeDepth := 60) +contextual [*]; done) | split

@[simp ↓] theorem sound_blockLost {s : State} {quad l : Nat} (h : s.Sound) : (s.blockLost quad l).Sound := by
  unfold State.blockLost; repeat' first | (simp (maxDischargeDepth := 60) +contextual [*]; done) | split

@[simp ↓] theorem sound_syncHeader {s : State} {quad l h : Nat} (hs : s.Sound) : (s.syncHeader quad l h).Sound := by
  unfold State.syncHeader; repeat' first | (simp (maxDischargeDepth := 60) +contextual [*]; done) | split

@[simp ↓] theorem sound_alignBlock {s : State} {lane seq : Nat} (h : s.Sound) : (s.alignBlock lane seq).Sound := by
  unfold State.alignBlock; repeat' first | (simp (maxDischargeDepth := 60) +contextual [*]; done) | split

@[simp ↓] theorem sound_linkControl {s : State} {lane payload : Nat} (h : s.Sound) : (s.linkControl lane
    payload).Sound := by
  unfold State.linkControl; repeat' first | (simp (maxDischargeDepth := 60) +contextual [*]; done) | split

@[simp ↓] theorem sound_takeRound {s : State} {a1 : Nat} (h : s.Sound) : (s.takeRound a1).Sound := by
  induction a1 generalizing s with
  | zero => unfold State.takeRound; repeat' first | (simp (maxDischargeDepth := 60) +contextual [*]; done) | split
  | succ n ih => unfold State.takeRound; repeat' first | (simp (maxDischargeDepth := 60) +contextual [*]; done) | split

@[simp ↓] theorem sound_stripeBlock {s : State} {lane header payload : Nat} (h : s.Sound) : (s.stripeBlock lane
    header payload).Sound := by
  unfold State.stripeBlock; repeat' first | (simp (maxDischargeDepth := 60) +contextual [*]; done) | split

@[simp ↓] theorem sound_rxBlock {s : State} {quad lane w : Nat} (h : s.Sound) : (s.rxBlock quad lane w).Sound := by
  unfold State.rxBlock; repeat' first | (simp (maxDischargeDepth := 60) +contextual [*]; done) | split

@[simp ↓] theorem sound_staleSlice {s : State} {b slice : Nat} (h : s.Sound) : (s.staleSlice b slice).Sound := by
  unfold State.staleSlice; repeat' first | (simp (maxDischargeDepth := 60) +contextual [*]; done) | split

@[simp ↓] theorem sound_rxSymbol {s : State} {quad lane : Nat} {x : LaneSymbol} (h : s.Sound) : (s.rxSymbol quad
    lane x).Sound := by
  unfold State.rxSymbol; repeat' first | (simp (maxDischargeDepth := 60) +contextual [*]; done) | split

theorem sound_execBlockLockGained {dt quad lane : Nat} {symbols : List LaneSymbol} {s : State} {t : State} (h :
    s.Sound) (e : execBlockLockGained dt quad lane symbols s = .next t) :
    t.Sound := by
  unfold execBlockLockGained at e; refine sound_act (fun u hu => ?_) h e; repeat' first | (simp (maxDischargeDepth := 60) +contextual [*]; done) | split

theorem sound_execAlignOrderFault {dt lane seq : Nat} {s : State} {t : State} (h : s.Sound)
    (e : execAlignOrderFault dt lane seq s = .next t) :
    t.Sound := by
  unfold execAlignOrderFault at e; refine sound_act (fun u hu => ?_) h e; repeat' first | (simp (maxDischargeDepth := 60) +contextual [*]; done) | split

@[simp ↓] theorem sound_pocxpOverload {s : State} {bay milliwatt overMs : Nat} {short : Bool} (h : s.Sound) :
    (s.pocxpOverload bay milliwatt overMs short).Sound := by
  unfold State.pocxpOverload; repeat' first | (simp (maxDischargeDepth := 60) +contextual [*]; done) | split

@[simp ↓] theorem sound_substituteLane {s : State} {quad l : Nat} (h : s.Sound) : (s.substituteLane quad l).Sound := by
  unfold State.substituteLane; repeat' first | (simp (maxDischargeDepth := 60) +contextual [*]; done) | split

@[simp ↓] theorem sound_substituteLanes {s : State} (h : s.Sound) : s.substituteLanes.Sound := by
  unfold State.substituteLanes; repeat' first | (simp (maxDischargeDepth := 60) +contextual [*]; done) | split

theorem sound_execLaneBer {dt quad lane errors bits : Nat} {s : State} {t : State} (h : s.Sound)
    (e : execLaneBer dt quad lane errors bits s = .next t) :
    t.Sound := by
  unfold execLaneBer at e; refine sound_act (fun u hu => ?_) h e; repeat' first | (simp (maxDischargeDepth := 60) +contextual [*]; done) | split

@[simp ↓] theorem sound_testPower {s : State} {domain : Nat} {on : Bool} (h : s.Sound) : (s.testPower domain on).Sound := by
  unfold State.testPower; repeat' first | (simp (maxDischargeDepth := 60) +contextual [*]; done) | split

@[simp ↓] theorem sound_sliceSelftest {s : State} {via : Path} {quad slice : Nat} (h : s.Sound) :
    (s.sliceSelftest via quad slice).Sound := by
  unfold State.sliceSelftest; repeat' first | (simp (maxDischargeDepth := 60) +contextual [*]; done) | split

theorem sound_execSliceSelftest {dt : Nat} {via : Path} {quad slice : Nat} {s : State} {t : State} (h : s.Sound)
    (e : execSliceSelftest dt via quad slice s = .next t) :
    t.Sound := by
  unfold execSliceSelftest at e; refine sound_act (fun u hu => ?_) h e; repeat' first | (simp (maxDischargeDepth := 60) +contextual [*]; done) | split

theorem sound_execSliceSelftestDone {dt quad bits errors : Nat} {s : State} {t : State} (h : s.Sound)
    (e : execSliceSelftestDone dt quad bits errors s = .next t) :
    t.Sound := by
  unfold execSliceSelftestDone at e; refine sound_act (fun u hu => ?_) h e; repeat' first | (simp (maxDischargeDepth := 60) +contextual [*]; done) | split

theorem sound_execSpareSliceCheck {dt : Nat} {s : State} {t : State} (h : s.Sound)
    (e : execSpareSliceCheck dt s = .next t) :
    t.Sound := by
  unfold execSpareSliceCheck at e; refine sound_act (fun u hu => ?_) h e
  repeat' (first
    | (simp (maxDischargeDepth := 60) +contextual [*]; done)
    | simp only [sound_mk, soundOf_parts]
    | with_reducible refine sound_foldl _ (fun t x ht => ?_) ?_
    | with_reducible refine sound_foldl_fst _ (fun t b x ht => ?_) ?_
    | with_reducible refine sound_ite (fun _ => ?_) (fun _ => ?_)
    | split | with_reducible refine sound_fst ?_ (by assumption) | with_reducible refine sound_snd ?_ (by assumption)
    | with_reducible refine sound_ringTake ?_ (by assumption)
    | with_reducible refine sound_calResults ?_ (by assumption)
    | with_reducible refine sound_modeCheck ?_ (by assumption)
    | dsimp only)

theorem sound_execSpareSliceCheckDone {dt quad slice errors : Nat} {s : State} {t : State} (h : s.Sound)
    (e : execSpareSliceCheckDone dt quad slice errors s = .next t) :
    t.Sound := by
  unfold execSpareSliceCheckDone at e; refine sound_act (fun u hu => ?_) h e; repeat' first | (simp (maxDischargeDepth := 60) +contextual [*]; done) | split

@[simp ↓] theorem sound_loopStop {s : State} {quad bits errors : Nat} (h : s.Sound) :
    (s.loopStop quad bits errors).Sound := by
  unfold State.loopStop
  repeat' (first
    | (simp (maxDischargeDepth := 60) +contextual [*]; done)
    | simp only [sound_mk, soundOf_parts]
    | with_reducible refine sound_foldl _ (fun t x ht => ?_) ?_
    | with_reducible refine sound_foldl_fst _ (fun t b x ht => ?_) ?_
    | with_reducible refine sound_ite (fun _ => ?_) (fun _ => ?_)
    | split | with_reducible refine sound_fst ?_ (by assumption) | with_reducible refine sound_snd ?_ (by assumption)
    | with_reducible refine sound_ringTake ?_ (by assumption)
    | with_reducible refine sound_calResults ?_ (by assumption)
    | with_reducible refine sound_modeCheck ?_ (by assumption)
    | dsimp only)

@[simp ↓] theorem sound_loopStart {s : State} {via : Path} {quad : Nat} {locked : Bool} (h : s.Sound) :
    (s.loopStart via quad locked).Sound := by
  unfold State.loopStart
  repeat' (first
    | (simp (maxDischargeDepth := 60) +contextual [*]; done)
    | simp only [sound_mk, soundOf_parts]
    | with_reducible refine sound_foldl _ (fun t x ht => ?_) ?_
    | with_reducible refine sound_foldl_fst _ (fun t b x ht => ?_) ?_
    | with_reducible refine sound_ite (fun _ => ?_) (fun _ => ?_)
    | split | with_reducible refine sound_fst ?_ (by assumption) | with_reducible refine sound_snd ?_ (by assumption)
    | with_reducible refine sound_ringTake ?_ (by assumption)
    | with_reducible refine sound_calResults ?_ (by assumption)
    | with_reducible refine sound_modeCheck ?_ (by assumption)
    | dsimp only)

theorem sound_execLbRunStart {dt : Nat} {via : Path} {quad : Nat} {locked : Bool} {s : State} {t : State} (h : s.Sound)
    (e : execLbRunStart dt via quad locked s = .next t) :
    t.Sound := by
  unfold execLbRunStart at e; refine sound_act (fun u hu => ?_) h e; repeat' first | (simp (maxDischargeDepth := 60) +contextual [*]; done) | split

theorem sound_execLbRunStop {dt : Nat} {_via : Path} {quad bits errors : Nat} {s : State} {t : State} (h : s.Sound)
    (e : execLbRunStop dt _via quad bits errors s = .next t) :
    t.Sound := by
  unfold execLbRunStop at e; refine sound_act (fun u hu => ?_) h e; repeat' first | (simp (maxDischargeDepth := 60) +contextual [*]; done) | split

@[simp ↓] theorem sound_quadClear {s : State} {q : Nat} (h : s.Sound) : (s.quadClear q).Sound := by
  unfold State.quadClear; repeat' first | (simp (maxDischargeDepth := 60) +contextual [*]; done) | split

theorem sound_execBayClear {dt : Nat} {via : Path} {bay : Nat} {s : State} {t : State} (h : s.Sound)
    (e : execBayClear dt via bay s = .next t) :
    t.Sound := by
  unfold execBayClear at e; refine sound_act (fun u hu => ?_) h e; repeat' first | (simp (maxDischargeDepth := 60) +contextual [*]; done) | split

@[simp ↓] theorem sound_cascadeClear {s : State} (h : s.Sound) : s.cascadeClear.Sound := by
  unfold State.cascadeClear; repeat' first | (simp (maxDischargeDepth := 60) +contextual [*]; done) | split

theorem sound_execCascadeClear {dt : Nat} {via : Path} {s : State} {t : State} (h : s.Sound)
    (e : execCascadeClear dt via s = .next t) :
    t.Sound := by
  unfold execCascadeClear at e; refine sound_act (fun u hu => ?_) h e; repeat' first | (simp (maxDischargeDepth := 60) +contextual [*]; done) | split

@[simp ↓] theorem sound_controlUnknown {s : State} {p : List Byte} (h : s.Sound) : (s.controlUnknown p).Sound := by
  unfold State.controlUnknown; repeat' first | (simp (maxDischargeDepth := 60) +contextual [*]; done) | split

theorem sound_execCapability {dt : Nat} {frame : List Nat} {s : State} {t : State} (h : s.Sound)
    (e : execCapability dt frame s = .next t) :
    t.Sound := by
  unfold execCapability at e; refine sound_act (fun u hu => ?_) h e
  repeat' (first
    | (simp (maxDischargeDepth := 60) +contextual [*]; done)
    | simp only [sound_mk, soundOf_parts]
    | with_reducible refine sound_takeFrame ?_
    | with_reducible refine sound_controlUnknown ?_
    | with_reducible refine sound_bringupFails ?_
    | with_reducible refine sound_sendControl ?_
    | with_reducible refine sound_bringupOk ?_
    | with_reducible refine sound_laneTo ?_
    | with_reducible refine sound_foldl _ (fun t x ht => ?_) ?_
    | with_reducible refine sound_foldl_fst _ (fun t b x ht => ?_) ?_
    | with_reducible refine sound_ite (fun _ => ?_) (fun _ => ?_)
    | split | with_reducible refine sound_fst ?_ (by assumption) | with_reducible refine sound_snd ?_ (by assumption)
    | with_reducible refine sound_ringTake ?_ (by assumption)
    | with_reducible refine sound_calResults ?_ (by assumption)
    | with_reducible refine sound_modeCheck ?_ (by assumption)
    | (intro _; try dsimp only)
    | dsimp only)

theorem sound_execRttRequest {dt : Nat} {frame : List Nat} {turnaround : Nat} {s : State} {t : State} (h : s.Sound)
    (e : execRttRequest dt frame turnaround s = .next t) :
    t.Sound := by
  unfold execRttRequest at e; refine sound_act (fun u hu => ?_) h e
  repeat' (first
    | (simp (maxDischargeDepth := 60) +contextual [*]; done)
    | simp only [sound_mk, soundOf_parts]
    | with_reducible refine sound_takeFrame ?_
    | with_reducible refine sound_controlUnknown ?_
    | with_reducible refine sound_sendControl ?_
    | with_reducible refine sound_foldl _ (fun t x ht => ?_) ?_
    | with_reducible refine sound_foldl_fst _ (fun t b x ht => ?_) ?_
    | with_reducible refine sound_ite (fun _ => ?_) (fun _ => ?_)
    | split | with_reducible refine sound_fst ?_ (by assumption) | with_reducible refine sound_snd ?_ (by assumption)
    | with_reducible refine sound_ringTake ?_ (by assumption)
    | with_reducible refine sound_calResults ?_ (by assumption)
    | with_reducible refine sound_modeCheck ?_ (by assumption)
    | (intro _; try dsimp only)
    | dsimp only)

theorem sound_execRttReply {dt : Nat} {frame : List Nat} {s : State} {t : State} (h : s.Sound)
    (e : execRttReply dt frame s = .next t) :
    t.Sound := by
  unfold execRttReply at e; refine sound_act (fun u hu => ?_) h e
  repeat' (first
    | (simp (maxDischargeDepth := 60) +contextual [*]; done)
    | simp only [sound_mk, soundOf_parts]
    | with_reducible refine sound_takeFrame ?_
    | with_reducible refine sound_controlUnknown ?_
    | with_reducible refine sound_sendControl ?_
    | with_reducible refine sound_set ?_
    | with_reducible refine sound_foldl _ (fun t x ht => ?_) ?_
    | with_reducible refine sound_foldl_fst _ (fun t b x ht => ?_) ?_
    | with_reducible refine sound_ite (fun _ => ?_) (fun _ => ?_)
    | split | with_reducible refine sound_fst ?_ (by assumption) | with_reducible refine sound_snd ?_ (by assumption)
    | with_reducible refine sound_ringTake ?_ (by assumption)
    | with_reducible refine sound_calResults ?_ (by assumption)
    | with_reducible refine sound_modeCheck ?_ (by assumption)
    | (intro _; try dsimp only)
    | dsimp only)

theorem sound_execLatency {dt : Nat} {frame : List Nat} {s : State} {t : State} (h : s.Sound)
    (e : execLatency dt frame s = .next t) :
    t.Sound := by
  unfold execLatency at e; refine sound_act (fun u hu => ?_) h e
  repeat' (first
    | (simp (maxDischargeDepth := 60) +contextual [*]; done)
    | simp only [sound_mk, soundOf_parts]
    | with_reducible refine sound_takeFrame ?_
    | with_reducible refine sound_controlUnknown ?_
    | with_reducible refine sound_set ?_
    | with_reducible refine sound_foldl _ (fun t x ht => ?_) ?_
    | with_reducible refine sound_foldl_fst _ (fun t b x ht => ?_) ?_
    | with_reducible refine sound_ite (fun _ => ?_) (fun _ => ?_)
    | split | with_reducible refine sound_fst ?_ (by assumption) | with_reducible refine sound_snd ?_ (by assumption)
    | with_reducible refine sound_ringTake ?_ (by assumption)
    | with_reducible refine sound_calResults ?_ (by assumption)
    | with_reducible refine sound_modeCheck ?_ (by assumption)
    | (intro _; try dsimp only)
    | dsimp only)

theorem sound_execLbRequest {dt : Nat} {frame : List Nat} {s : State} {t : State} (h : s.Sound)
    (e : execLbRequest dt frame s = .next t) :
    t.Sound := by
  unfold execLbRequest at e; refine sound_act (fun u hu => ?_) h e
  repeat' (first
    | (simp (maxDischargeDepth := 60) +contextual [*]; done)
    | simp only [sound_mk, soundOf_parts]
    | with_reducible refine sound_takeFrame ?_
    | with_reducible refine sound_controlUnknown ?_
    | with_reducible refine sound_sendControl ?_
    | with_reducible refine sound_lanesUp ?_
    | with_reducible refine sound_laneTo ?_
    | with_reducible refine sound_relock ?_
    | with_reducible refine sound_foldl _ (fun t x ht => ?_) ?_
    | with_reducible refine sound_foldl_fst _ (fun t b x ht => ?_) ?_
    | with_reducible refine sound_ite (fun _ => ?_) (fun _ => ?_)
    | split | with_reducible refine sound_fst ?_ (by assumption) | with_reducible refine sound_snd ?_ (by assumption)
    | with_reducible refine sound_ringTake ?_ (by assumption)
    | with_reducible refine sound_calResults ?_ (by assumption)
    | with_reducible refine sound_modeCheck ?_ (by assumption)
    | (intro _; try dsimp only)
    | dsimp only)

theorem sound_execLbReply {dt : Nat} {frame : List Nat} {s : State} {t : State} (h : s.Sound)
    (e : execLbReply dt frame s = .next t) :
    t.Sound := by
  unfold execLbReply at e; refine sound_act (fun u hu => ?_) h e
  repeat' (first
    | (simp (maxDischargeDepth := 60) +contextual [*]; done)
    | simp only [sound_mk, soundOf_parts]
    | with_reducible refine sound_takeFrame ?_
    | with_reducible refine sound_controlUnknown ?_
    | with_reducible refine sound_set ?_
    | with_reducible refine sound_loopStop ?_
    | with_reducible refine sound_modQuad ?_
    | with_reducible refine sound_foldl _ (fun t x ht => ?_) ?_
    | with_reducible refine sound_foldl_fst _ (fun t b x ht => ?_) ?_
    | with_reducible refine sound_ite (fun _ => ?_) (fun _ => ?_)
    | split | with_reducible refine sound_fst ?_ (by assumption) | with_reducible refine sound_snd ?_ (by assumption)
    | with_reducible refine sound_ringTake ?_ (by assumption)
    | with_reducible refine sound_calResults ?_ (by assumption)
    | with_reducible refine sound_modeCheck ?_ (by assumption)
    | (intro _; try dsimp only)
    | dsimp only)

end Sys2Proof.Machine
end

