-- ==== Sys2Proof/Laws/SoundLight.lean ====
section
/-! SUPPORT. Laws/SoundLight.lean: soundness is kept by the operations and commands of Machine/Light.lean. -/
namespace Sys2Proof.Machine
open Reg

@[simp ↓] theorem sound_lightLoad {s : State} (h : s.Sound) : s.lightLoad.Sound := by
  unfold State.lightLoad; repeat' first | (simp (maxDischargeDepth := 60) +contextual [*]; done) | split

@[simp ↓] theorem sound_drive {s : State} {x : ExpSet} {ch : Nat} (h : s.Sound) : (s.drive x ch).Sound := by
  unfold State.drive; repeat' first | (simp (maxDischargeDepth := 60) +contextual [*]; done) | split

@[simp ↓] theorem sound_loadCurrents {s : State} {x : ExpSet} (h : s.Sound) : (s.loadCurrents x).Sound := by
  unfold State.loadCurrents; repeat' first | (simp (maxDischargeDepth := 60) +contextual [*]; done) | split

@[simp ↓] theorem sound_lightsReady {s : State} (h : s.Sound) : s.lightsReady.Sound := by
  unfold State.lightsReady; repeat' first | (simp (maxDischargeDepth := 60) +contextual [*]; done) | split

@[simp ↓] theorem sound_shedLights {s : State} (h : s.Sound) : s.shedLights.Sound := by
  unfold State.shedLights; repeat' first | (simp (maxDischargeDepth := 60) +contextual [*]; done) | split

@[simp ↓] theorem sound_compensate {s : State} {ch : Nat} (h : s.Sound) : (s.compensate ch).Sound := by
  unfold State.compensate; repeat' first | (simp (maxDischargeDepth := 60) +contextual [*]; done) | split

@[simp ↓] theorem sound_stripLights {s : State} (h : s.Sound) : s.stripLights.Sound := by
  unfold State.stripLights; repeat' first | (simp (maxDischargeDepth := 60) +contextual [*]; done) | split

@[simp ↓] theorem sound_barLife {s : State} {ch : Nat} (h : s.Sound) : (s.barLife ch).Sound := by
  unfold State.barLife; repeat' first | (simp (maxDischargeDepth := 60) +contextual [*]; done) | split

@[simp ↓] theorem sound_barChanged {s : State} {ch : Nat} {life : Option (List Byte)} (h : s.Sound) :
    (s.barChanged ch life).Sound := by
  unfold State.barChanged; repeat' first | (simp (maxDischargeDepth := 60) +contextual [*]; done) | split

@[simp ↓] theorem sound_barTotals {s : State} {ch : Nat} {serial : List Byte} {life : Option (List Byte)} {inB :
    Bool} (h : s.Sound) : (s.barTotals ch serial life inB).Sound := by
  unfold State.barTotals; repeat' first | (simp (maxDischargeDepth := 60) +contextual [*]; done) | split

@[simp ↓] theorem sound_barUsable {s : State} {ch : Nat} (h : s.Sound) : (s.barUsable ch).Sound := by
  unfold State.barUsable; repeat' first | (simp (maxDischargeDepth := 60) +contextual [*]; done) | split

@[simp ↓] theorem sound_barRead {s : State} {ch : Nat} {memory : Option (List Nat)} (h : s.Sound) :
    (s.barRead ch memory).Sound := by
  unfold State.barRead; repeat' first | (simp (maxDischargeDepth := 60) +contextual [*]; done) | split

@[simp ↓] theorem sound_barFaulted {s : State} {ch : Nat} {lasts : Bool} (h : s.Sound) : (s.barFaulted ch
    lasts).Sound := by
  unfold State.barFaulted; repeat' first | (simp (maxDischargeDepth := 60) +contextual [*]; done) | split

theorem sound_execBarIdentRead {dt chan : Nat} {memory : Option (List Nat)} {tempMc : Int} {s : State} {t : State}
    (h : s.Sound)     (e : execBarIdentRead dt chan memory tempMc s = .next t) :
    t.Sound := by
  unfold execBarIdentRead at e; refine sound_act (fun u hu => ?_) h e; repeat' first | (simp (maxDischargeDepth := 60) +contextual [*]; done) | split

theorem sound_execBarLifeTick {dt chan meanMa dutyPermille milliVolt : Nat} {s : State} {t : State} (h : s.Sound)
    (e : execBarLifeTick dt chan meanMa dutyPermille milliVolt s = .next t) :
    t.Sound := by
  unfold execBarLifeTick at e; refine sound_act (fun u hu => ?_) h e; repeat' first | (simp (maxDischargeDepth := 60) +contextual [*]; done) | split

theorem sound_execBarLifeWrite {dt chan : Nat} {s : State} {t : State} (h : s.Sound)
    (e : execBarLifeWrite dt chan s = .next t) :
    t.Sound := by
  unfold execBarLifeWrite at e; refine sound_act (fun u hu => ?_) h e; repeat' first | (simp (maxDischargeDepth := 60) +contextual [*]; done) | split

theorem sound_execBarFault {dt chan : Nat} {kind : BarFault} {s : State} {t : State} (h : s.Sound)
    (e : execBarFault dt chan kind s = .next t) :
    t.Sound := by
  unfold execBarFault at e; refine sound_act (fun u hu => ?_) h e; repeat' first | (simp (maxDischargeDepth := 60) +contextual [*]; done) | split

@[simp ↓] theorem sound_lightClear {s : State} {via : Path} (h : s.Sound) : (s.lightClear via).Sound := by
  unfold State.lightClear; repeat' first | (simp (maxDischargeDepth := 60) +contextual [*]; done) | split

theorem sound_execLightClear {dt : Nat} {via : Path} {s : State} {t : State} (h : s.Sound)
    (e : execLightClear dt via s = .next t) :
    t.Sound := by
  unfold execLightClear at e; refine sound_act (fun u hu => ?_) h e; repeat' first | (simp (maxDischargeDepth := 60) +contextual [*]; done) | split

end Sys2Proof.Machine
end

