-- ==== Sys2Proof/Laws/SoundIntake.lean ====
section
/-! SUPPORT. Laws/SoundIntake.lean: soundness is kept by the operations and commands of Machine/Intake.lean. -/
namespace Sys2Proof.Machine
open Reg

@[simp ↓] theorem sound_sendTiles {s : State} {b sub line first : Nat} {subst last : Bool} {xs : List Nat} (h :
    s.Sound) :
    (s.sendTiles b sub line first subst last xs).Sound := by
  unfold State.sendTiles; repeat' first | (simp (maxDischargeDepth := 60) +contextual [*]; done) | split

@[simp ↓] theorem sound_statOpen {s : State} {b strip : Nat} (h : s.Sound) : (s.statOpen b strip).Sound := by
  unfold State.statOpen; repeat' first | (simp (maxDischargeDepth := 60) +contextual [*]; done) | split

@[simp ↓] theorem sound_statFlush {s : State} {b a2 : Nat} (h : s.Sound) : (s.statFlush b a2).Sound := by
  induction a2 generalizing s b with
  | zero => unfold State.statFlush; repeat' first | (simp (maxDischargeDepth := 60) +contextual [*]; done) | split
  | succ n ih => unfold State.statFlush; repeat' first | (simp (maxDischargeDepth := 60) +contextual [*]; done) | split

@[simp ↓] theorem sound_statSettle {s : State} {b : Nat} (h : s.Sound) : (s.statSettle b).Sound := by
  unfold State.statSettle; repeat' first | (simp (maxDischargeDepth := 60) +contextual [*]; done) | split

@[simp ↓] theorem sound_sendSubst {s : State} {b n : Nat} (h : s.Sound) : (s.sendSubst b n).Sound := by
  unfold State.sendSubst; repeat' first | (simp (maxDischargeDepth := 60) +contextual [*]; done) | split

@[simp ↓] theorem sound_replaceLine {s : State} {b n : Nat} (h : s.Sound) : (s.replaceLine b n).Sound := by
  unfold State.replaceLine; repeat' first | (simp (maxDischargeDepth := 60) +contextual [*]; done) | split

@[simp ↓] theorem sound_missing {s : State} {b n : Nat} (h : s.Sound) : (s.missing b n).Sound := by
  unfold State.missing; repeat' first | (simp (maxDischargeDepth := 60) +contextual [*]; done) | split

@[simp ↓] theorem sound_lateLine {s : State} {b n : Nat} (h : s.Sound) : (s.lateLine b n).Sound := by
  unfold State.lateLine; repeat' first | (simp (maxDischargeDepth := 60) +contextual [*]; done) | split

@[simp ↓] theorem sound_awaitLine {s : State} {n : Nat} (h : s.Sound) : (s.awaitLine n).Sound := by
  unfold State.awaitLine; repeat' first | (simp (maxDischargeDepth := 60) +contextual [*]; done) | split

theorem sound_execLineLate {dt bay line : Nat} {s : State} {t : State} (h : s.Sound)
    (e : execLineLate dt bay line s = .next t) :
    t.Sound := by
  unfold execLineLate at e; refine sound_act (fun u hu => ?_) h e; repeat' first | (simp (maxDischargeDepth := 60) +contextual [*]; done) | split

@[simp ↓] theorem sound_matchTag {s : State} {b tag : Nat} (h : s.Sound) : (s.matchTag b tag).1.Sound := by
  unfold State.matchTag; repeat' first | (simp (maxDischargeDepth := 60) +contextual [*]; done) | split

@[simp ↓] theorem sound_lineComplete {s : State} {b : Nat} {l : OutLine} (h : s.Sound) : (s.lineComplete b l).Sound := by
  unfold State.lineComplete; repeat' first | (simp (maxDischargeDepth := 60) +contextual [*]; done) | split

@[simp ↓] theorem sound_takeSamples {s : State} {b n : Nat} {k : CamPacket} {t : PixType} (h : s.Sound) :
    (s.takeSamples b n k t).Sound := by
  unfold State.takeSamples
  extract_lets room xs last was s1 s2
  have h1 : s1.Sound := by
    unfold s1
    split
    · exact h
    · simp (maxDischargeDepth := 60) +contextual [*]
  have h2 : s2.Sound := by
    unfold s2
    simp (maxDischargeDepth := 60) +contextual [h1]
  clear_value s1 s2
  split
  · split
    · simp (maxDischargeDepth := 60) +contextual [*]
    · exact h2
  · exact h2

@[simp ↓] theorem sound_badPacket {s : State} {b : Nat} {k : CamPacket} (h : s.Sound) : (s.badPacket b k).Sound :=
    by
  unfold State.badPacket
  repeat' (first
    | (simp (maxDischargeDepth := 60) +contextual [*]; done)
    | (have e' := (by assumption : (_ : State × _) = (_, _))
       have hq := sound_fst (by simp (maxDischargeDepth := 60) +contextual [*]; done) e'
       simp (maxDischargeDepth := 60) +contextual [*]; done)
    | simp only [sound_mk, soundOf_parts]
    | with_reducible refine sound_foldl _ (fun t x ht => ?_) ?_
    | with_reducible refine sound_foldl_fst _ (fun t b x ht => ?_) ?_
    | with_reducible refine sound_ite (fun _ => ?_) (fun _ => ?_)
    | split | with_reducible refine sound_fst ?_ (by assumption) | with_reducible refine sound_snd ?_ (by assumption)
    | with_reducible refine sound_ringTake ?_ (by assumption)
    | with_reducible refine sound_calResults ?_ (by assumption)
    | with_reducible refine sound_modeCheck ?_ (by assumption)
    | dsimp only)

@[simp ↓] theorem sound_streamPacket {s : State} {b : Nat} {k : CamPacket} (h : s.Sound) : (s.streamPacket b
    k).Sound := by
  unfold State.streamPacket
  repeat' (first
    | (simp (maxDischargeDepth := 60) +contextual [*]; done)
    | (have e' := (by assumption : (_ : State × _) = (_, _))
       have hq := sound_fst (by simp (maxDischargeDepth := 60) +contextual [*]; done) e'
       simp (maxDischargeDepth := 60) +contextual [*]; done)
    | simp only [sound_mk, soundOf_parts]
    | with_reducible refine sound_foldl _ (fun t x ht => ?_) ?_
    | with_reducible refine sound_foldl_fst _ (fun t b x ht => ?_) ?_
    | with_reducible refine sound_ite (fun _ => ?_) (fun _ => ?_)
    | split | with_reducible refine sound_fst ?_ (by assumption) | with_reducible refine sound_snd ?_ (by assumption)
    | with_reducible refine sound_ringTake ?_ (by assumption)
    | with_reducible refine sound_calResults ?_ (by assumption)
    | with_reducible refine sound_modeCheck ?_ (by assumption)
    | dsimp only)

@[simp ↓] theorem sound_cameraPacket {s : State} {b : Nat} {k : CamPacket} (h : s.Sound) : (s.cameraPacket b k).Sound := by
  unfold State.cameraPacket
  repeat' (first
    | (simp (maxDischargeDepth := 60) +contextual [*]; done)
    | simp only [sound_mk, soundOf_parts]
    | with_reducible refine sound_tally ?_
    | with_reducible refine sound_matchTag ?_
    | with_reducible refine sound_missing ?_
    | with_reducible refine sound_camFlag ?_
    | with_reducible refine sound_takeSamples ?_
    | with_reducible refine sound_foldl _ (fun t x ht => ?_) ?_
    | with_reducible refine sound_foldl_fst _ (fun t b x ht => ?_) ?_
    | with_reducible refine sound_ite (fun _ => ?_) (fun _ => ?_)
    | split | with_reducible refine sound_fst ?_ (by assumption) | with_reducible refine sound_snd ?_ (by assumption)
    | with_reducible refine sound_ringTake ?_ (by assumption)
    | with_reducible refine sound_calResults ?_ (by assumption)
    | with_reducible refine sound_modeCheck ?_ (by assumption)
    | (intro _; try dsimp only)
    | dsimp only)

theorem sound_execCameraPacket {dt bay : Nat} {pkt : CamPacket} {s : State} {t : State} (h : s.Sound)
    (e : execCameraPacket dt bay pkt s = .next t) :
    t.Sound := by
  unfold execCameraPacket at e; refine sound_act (fun u hu => ?_) h e; repeat' first | (simp (maxDischargeDepth := 60) +contextual [*]; done) | split

@[simp ↓] theorem sound_registerSet {s : State} {x : ExpSet} {strip : Nat} (h : s.Sound) :
    (s.registerSet x strip).Sound := by
  unfold State.registerSet; repeat' first | (simp (maxDischargeDepth := 60) +contextual [*]; done) | split

@[simp ↓] theorem sound_expCommit {s : State} {via : Path} (h : s.Sound) : (s.expCommit via).Sound := by
  unfold State.expCommit; repeat' first | (simp (maxDischargeDepth := 60) +contextual [*]; done) | split

theorem sound_execExpCommit {dt : Nat} {via : Path} {s : State} {t : State} (h : s.Sound)
    (e : execExpCommit dt via s = .next t) :
    t.Sound := by
  unfold execExpCommit at e; refine sound_act (fun u hu => ?_) h e; repeat' first | (simp (maxDischargeDepth := 60) +contextual [*]; done) | split

@[simp ↓] theorem sound_applySet {s : State} {strip : Nat} (h : s.Sound) : (s.applySet strip).Sound := by
  unfold State.applySet; repeat' first | (simp (maxDischargeDepth := 60) +contextual [*]; done) | split

@[simp ↓] theorem sound_gainWritten {s : State} {b : Nat} (h : s.Sound) : (s.gainWritten b).Sound := by
  unfold State.gainWritten; repeat' first | (simp (maxDischargeDepth := 60) +contextual [*]; done) | split

@[simp ↓] theorem sound_intakeClear {s : State} {via : Path} (h : s.Sound) : (s.intakeClear via).Sound := by
  unfold State.intakeClear; repeat' first | (simp (maxDischargeDepth := 60) +contextual [*]; done) | split

theorem sound_execIntakeClear {dt : Nat} {via : Path} {s : State} {t : State} (h : s.Sound)
    (e : execIntakeClear dt via s = .next t) :
    t.Sound := by
  unfold execIntakeClear at e; refine sound_act (fun u hu => ?_) h e; repeat' first | (simp (maxDischargeDepth := 60) +contextual [*]; done) | split

end Sys2Proof.Machine
end

