-- ==== Sys2Proof/Laws/SoundEasels.lean ====
section
/-! SUPPORT. Laws/SoundEasels.lean: soundness is kept by the operations and commands of Machine/Easels.lean. -/
namespace Sys2Proof.Machine
open Reg

@[simp ↓] theorem sound_quayStore {s : State} {k b n : Nat} {p : List Byte} (h : s.Sound) : (s.quayStore k b n
    p).Sound := by
  unfold State.quayStore
  repeat' (first
    | (simp (maxDischargeDepth := 60) +contextual [*]; done)
    | simp only [sound_mk, soundOf_parts]
    | with_reducible refine sound_foldl _ (fun t x ht => ?_) ?_
    | with_reducible refine sound_foldl_fst _ (fun t b x ht => ?_) ?_
    | with_reducible refine sound_ite (fun _ => ?_) (fun _ => ?_)
    | split | with_reducible refine sound_fst ?_ (by assumption) | with_reducible refine sound_snd ?_ (by assumption)
    | with_reducible refine sound_ringTake ?_ (by assumption)
    | with_reducible refine sound_calResults ?_ (by assumption)
    | with_reducible refine sound_modeCheck ?_ (by assumption)
    | dsimp only)

@[simp ↓] theorem sound_quayFill {s : State} {k : Nat} (h : s.Sound) : (s.quayFill k).Sound := by
  unfold State.quayFill; repeat' first | (simp (maxDischargeDepth := 60) +contextual [*]; done) | split

@[simp ↓] theorem sound_quayDrop {s : State} {k strip : Nat} (h : s.Sound) : (s.quayDrop k strip).Sound := by
  unfold State.quayDrop; repeat' first | (simp (maxDischargeDepth := 60) +contextual [*]; done) | split

@[simp ↓] theorem sound_quayTrigger {s : State} {n : Nat} (h : s.Sound) : (s.quayTrigger n).Sound := by
  unfold State.quayTrigger; repeat' first | (simp (maxDischargeDepth := 60) +contextual [*]; done) | split

@[simp ↓] theorem sound_quayEmpty {s : State} {k : Nat} (h : s.Sound) : (s.quayEmpty k).Sound := by
  unfold State.quayEmpty; repeat' first | (simp (maxDischargeDepth := 60) +contextual [*]; done) | split

@[simp ↓] theorem sound_quaysEmpty {s : State} (h : s.Sound) : s.quaysEmpty.Sound := by
  unfold State.quaysEmpty; repeat' first | (simp (maxDischargeDepth := 60) +contextual [*]; done) | split

@[simp ↓] theorem sound_stageBank {s : State} {i : Nat} {k : Bank} (h : s.Sound) : (s.stageBank i k).Sound := by
  unfold State.stageBank; repeat' first | (simp (maxDischargeDepth := 60) +contextual [*]; done) | split

@[simp ↓] theorem sound_registerBank {s : State} {k c : Nat} {bank : Bank} {strip : Nat} (h : s.Sound) :
    (s.registerBank k c bank strip).Sound := by
  unfold State.registerBank; repeat' first | (simp (maxDischargeDepth := 60) +contextual [*]; done) | split

@[simp ↓] theorem sound_withBanks {s : State} {k c : Nat} {bank : Bank} (h : s.Sound) : (s.withBanks k c bank).Sound
    := by
  unfold State.withBanks; repeat' first | (simp (maxDischargeDepth := 60) +contextual [*]; done) | split

@[simp ↓] theorem sound_ctxCommit {s : State} {via : Path} {k c : Nat} (h : s.Sound) : (s.ctxCommit via k c).Sound := by
  unfold State.ctxCommit; repeat' first | (simp (maxDischargeDepth := 60) +contextual [*]; done) | split

theorem sound_execEaselCtxCommit {dt : Nat} {via : Path} {easel ctx : Nat} {s : State} {t : State} (h : s.Sound)
    (e : execEaselCtxCommit dt via easel ctx s = .next t) :
    t.Sound := by
  unfold execEaselCtxCommit at e; refine sound_act (fun u hu => ?_) h e; repeat' first | (simp (maxDischargeDepth := 60) +contextual [*]; done) | split

@[simp ↓] theorem sound_palCommit {s : State} {via : Path} {k c : Nat} (h : s.Sound) : (s.palCommit via k c).Sound := by
  unfold State.palCommit; repeat' first | (simp (maxDischargeDepth := 60) +contextual [*]; done) | split

theorem sound_execEaselPalCommit {dt : Nat} {via : Path} {easel ctx : Nat} {s : State} {t : State} (h : s.Sound)
    (e : execEaselPalCommit dt via easel ctx s = .next t) :
    t.Sound := by
  unfold execEaselPalCommit at e; refine sound_act (fun u hu => ?_) h e; repeat' first | (simp (maxDischargeDepth := 60) +contextual [*]; done) | split

@[simp ↓] theorem sound_settleCtx {s : State} {k c : Nat} (h : s.Sound) : (s.settleCtx k c).Sound := by
  unfold State.settleCtx; repeat' first | (simp (maxDischargeDepth := 60) +contextual [*]; done) | split

@[simp ↓] theorem sound_applyBanks {s : State} {n : Nat} (h : s.Sound) : (s.applyBanks n).Sound := by
  unfold State.applyBanks; repeat' first | (simp (maxDischargeDepth := 60) +contextual [*]; done) | split

@[simp ↓] theorem sound_applyPalettes {s : State} {p : Package} {n : Nat} (h : s.Sound) : (s.applyPalettes p n).Sound := by
  unfold State.applyPalettes
  repeat' (first
    | (simp (maxDischargeDepth := 60) +contextual [*]; done)
    | simp only [sound_mk, soundOf_parts]
    | with_reducible refine sound_foldl _ (fun t x ht => ?_) ?_
    | with_reducible refine sound_foldl_fst _ (fun t b x ht => ?_) ?_
    | with_reducible refine sound_ite (fun _ => ?_) (fun _ => ?_)
    | split | with_reducible refine sound_fst ?_ (by assumption) | with_reducible refine sound_snd ?_ (by assumption)
    | with_reducible refine sound_ringTake ?_ (by assumption)
    | with_reducible refine sound_calResults ?_ (by assumption)
    | with_reducible refine sound_modeCheck ?_ (by assumption)
    | dsimp only)

@[simp ↓] theorem sound_checkBanks {s : State} (h : s.Sound) : s.checkBanks.1.Sound := by
  unfold State.checkBanks
  repeat' (first
    | (simp (maxDischargeDepth := 60) +contextual [*]; done)
    | simp only [sound_mk, soundOf_parts]
    | with_reducible refine sound_foldl _ (fun t x ht => ?_) ?_
    | with_reducible refine sound_foldl_fst _ (fun t b x ht => ?_) ?_
    | with_reducible refine sound_ite (fun _ => ?_) (fun _ => ?_)
    | split | with_reducible refine sound_fst ?_ (by assumption) | with_reducible refine sound_snd ?_ (by assumption)
    | with_reducible refine sound_ringTake ?_ (by assumption)
    | with_reducible refine sound_calResults ?_ (by assumption)
    | with_reducible refine sound_modeCheck ?_ (by assumption)
    | dsimp only)

@[simp ↓] theorem sound_loadMax {s : State} (h : s.Sound) : s.loadMax.Sound := by
  unfold State.loadMax; repeat' first | (simp (maxDischargeDepth := 60) +contextual [*]; done) | split

theorem sound_execEaselLoadWindow {dt easel : Nat} {s : State} {t : State} (h : s.Sound)
    (e : execEaselLoadWindow dt easel s = .next t) :
    t.Sound := by
  unfold execEaselLoadWindow at e; refine sound_act (fun u hu => ?_) h e; repeat' first | (simp (maxDischargeDepth := 60) +contextual [*]; done) | split

@[simp ↓] theorem sound_deliver {s : State} {b n : Nat} {planes : List (List Nat)} {subst mixed : Bool} {gen : Nat}
    (h : s.Sound) :
    (s.deliver b n planes subst mixed gen).Sound := by
  unfold State.deliver
  repeat' (first
    | (simp (maxDischargeDepth := 60) +contextual [*]; done)
    | simp only [sound_mk, soundOf_parts]
    | with_reducible refine sound_foldl _ (fun t x ht => ?_) ?_
    | with_reducible refine sound_foldl_fst _ (fun t b x ht => ?_) ?_
    | with_reducible refine sound_ite (fun _ => ?_) (fun _ => ?_)
    | split | with_reducible refine sound_fst ?_ (by assumption) | with_reducible refine sound_snd ?_ (by assumption)
    | with_reducible refine sound_ringTake ?_ (by assumption)
    | with_reducible refine sound_calResults ?_ (by assumption)
    | with_reducible refine sound_modeCheck ?_ (by assumption)
    | dsimp only)

@[simp ↓] theorem sound_tryOutput {s : State} {b n : Nat} (h : s.Sound) : (s.tryOutput b n).Sound := by
  unfold State.tryOutput; repeat' first | (simp (maxDischargeDepth := 60) +contextual [*]; done) | split

@[simp ↓] theorem sound_processLine {s : State} {b : Nat} {l : CamLine} (h : s.Sound) : (s.processLine b l).Sound := by
  unfold State.processLine; repeat' first | (simp (maxDischargeDepth := 60) +contextual [*]; done) | split

@[simp ↓] theorem sound_startLine {s : State} {k c : Nat} {l : CamLine} (h : s.Sound) : (s.startLine k c l).Sound := by
  unfold State.startLine; repeat' first | (simp (maxDischargeDepth := 60) +contextual [*]; done) | split

@[simp ↓] theorem sound_arbiter {s : State} {k : Nat} (h : s.Sound) : (s.arbiter k).Sound := by
  unfold State.arbiter; repeat' first | (simp (maxDischargeDepth := 60) +contextual [*]; done) | split

@[simp ↓] theorem sound_storePacket {s : State} {b : Nat} {p : List Byte} (h : s.Sound) : (s.storePacket b p).Sound := by
  unfold State.storePacket; repeat' first | (simp (maxDischargeDepth := 60) +contextual [*]; done) | split

@[simp ↓] theorem sound_badTile {s : State} {b n : Nat} {sent : List Byte} (h : s.Sound) : (s.badTile b n
    sent).Sound := by
  unfold State.badTile
  repeat' (first
    | (simp (maxDischargeDepth := 60) +contextual [*]; done)
    | simp only [sound_mk, soundOf_parts]
    | with_reducible refine sound_foldl _ (fun t x ht => ?_) ?_
    | with_reducible refine sound_foldl_fst _ (fun t b x ht => ?_) ?_
    | with_reducible refine sound_ite (fun _ => ?_) (fun _ => ?_)
    | split | with_reducible refine sound_fst ?_ (by assumption) | with_reducible refine sound_snd ?_ (by assumption)
    | with_reducible refine sound_ringTake ?_ (by assumption)
    | with_reducible refine sound_calResults ?_ (by assumption)
    | with_reducible refine sound_modeCheck ?_ (by assumption)
    | dsimp only)

theorem sound_execTilePacket {dt easel ctx : Nat} {packet : List Nat} {s : State} {t : State} (h : s.Sound)
    (e : execTilePacket dt easel ctx packet s = .next t) :
    t.Sound := by
  unfold execTilePacket at e; refine sound_act (fun u hu => ?_) h e
  repeat' (first
    | (simp (maxDischargeDepth := 60) +contextual [*]; done)
    | simp only [sound_mk, soundOf_parts]
    | with_reducible refine sound_foldl _ (fun t x ht => ?_) ?_
    | with_reducible refine sound_foldl_fst _ (fun t b x ht => ?_) ?_
    | with_reducible refine sound_ite (fun _ => ?_) (fun _ => ?_)
    | split | with_reducible refine sound_fst ?_ (by assumption) | with_reducible refine sound_snd ?_ (by assumption)
    | with_reducible refine sound_ringTake ?_ (by assumption)
    | with_reducible refine sound_calResults ?_ (by assumption)
    | with_reducible refine sound_modeCheck ?_ (by assumption)
    | dsimp only)

theorem sound_execEaselLineDone {dt easel phys : Nat} {ack : Bool} {s : State} {t : State} (h : s.Sound)
    (e : execEaselLineDone dt easel phys ack s = .next t) :
    t.Sound := by
  unfold execEaselLineDone at e; refine sound_act (fun u hu => ?_) h e
  repeat' (first
    | (simp (maxDischargeDepth := 60) +contextual [*]; done)
    | simp only [sound_mk, soundOf_parts]
    | with_reducible refine sound_foldl _ (fun t x ht => ?_) ?_
    | with_reducible refine sound_foldl_fst _ (fun t b x ht => ?_) ?_
    | with_reducible refine sound_ite (fun _ => ?_) (fun _ => ?_)
    | split | with_reducible refine sound_fst ?_ (by assumption) | with_reducible refine sound_snd ?_ (by assumption)
    | with_reducible refine sound_ringTake ?_ (by assumption)
    | with_reducible refine sound_calResults ?_ (by assumption)
    | with_reducible refine sound_modeCheck ?_ (by assumption)
    | dsimp only)

theorem sound_execSeamHoldbackEnd {dt view : Nat} {s : State} {t : State} (h : s.Sound)
    (e : execSeamHoldbackEnd dt view s = .next t) :
    t.Sound := by
  unfold execSeamHoldbackEnd at e; refine sound_act (fun u hu => ?_) h e; repeat' first | (simp (maxDischargeDepth := 60) +contextual [*]; done) | split

@[simp ↓] theorem sound_sendTokens {s : State} {ns : Nat} {due : Easel → Bool} (h : s.Sound) : (s.sendTokens ns
    due).Sound := by
  unfold State.sendTokens; repeat' first | (simp (maxDischargeDepth := 60) +contextual [*]; done) | split

theorem sound_execEaselHeartbeatSend {dt : Nat} {s : State} {t : State} (h : s.Sound)
    (e : execEaselHeartbeatSend dt s = .next t) :
    t.Sound := by
  unfold execEaselHeartbeatSend at e; refine sound_act (fun u hu => ?_) h e; repeat' first | (simp (maxDischargeDepth := 60) +contextual [*]; done) | split

@[simp ↓] theorem sound_routeEasel {s : State} {k p : Nat} (h : s.Sound) : (s.routeEasel k p).Sound := by
  unfold State.routeEasel; repeat' first | (simp (maxDischargeDepth := 60) +contextual [*]; done) | split

@[simp ↓] theorem sound_easelDead {s : State} {k : Nat} (h : s.Sound) : (s.easelDead k).Sound := by
  unfold State.easelDead
  repeat' (first
    | (simp (maxDischargeDepth := 60) +contextual [*]; done)
    | simp only [sound_mk, soundOf_parts]
    | with_reducible refine sound_foldl _ (fun t x ht => ?_) ?_
    | with_reducible refine sound_foldl_fst _ (fun t b x ht => ?_) ?_
    | with_reducible refine sound_ite (fun _ => ?_) (fun _ => ?_)
    | split | with_reducible refine sound_fst ?_ (by assumption) | with_reducible refine sound_snd ?_ (by assumption)
    | with_reducible refine sound_ringTake ?_ (by assumption)
    | with_reducible refine sound_calResults ?_ (by assumption)
    | with_reducible refine sound_modeCheck ?_ (by assumption)
    | dsimp only)

theorem sound_execEaselHbDeadline {dt easel : Nat} {s : State} {t : State} (h : s.Sound)
    (e : execEaselHbDeadline dt easel s = .next t) :
    t.Sound := by
  unfold execEaselHbDeadline at e; refine sound_act (fun u hu => ?_) h e; repeat' first | (simp (maxDischargeDepth := 60) +contextual [*]; done) | split

@[simp ↓] theorem sound_takeovers {s : State} {n : Nat} (h : s.Sound) : (s.takeovers n).Sound := by
  unfold State.takeovers; repeat' first | (simp (maxDischargeDepth := 60) +contextual [*]; done) | split

@[simp ↓] theorem sound_easelsReady {s : State} (h : s.Sound) : s.easelsReady.Sound := by
  unfold State.easelsReady
  repeat' (first
    | (simp (maxDischargeDepth := 60) +contextual [*]; done)
    | simp only [sound_mk, soundOf_parts]
    | with_reducible refine sound_foldl _ (fun t x ht => ?_) ?_
    | with_reducible refine sound_foldl_fst _ (fun t b x ht => ?_) ?_
    | with_reducible refine sound_ite (fun _ => ?_) (fun _ => ?_)
    | split | with_reducible refine sound_fst ?_ (by assumption) | with_reducible refine sound_snd ?_ (by assumption)
    | with_reducible refine sound_ringTake ?_ (by assumption)
    | with_reducible refine sound_calResults ?_ (by assumption)
    | with_reducible refine sound_modeCheck ?_ (by assumption)
    | dsimp only)

@[simp ↓] theorem sound_easelSelftest {s : State} {via : Path} {p : Nat} (h : s.Sound) : (s.easelSelftest via p).Sound := by
  unfold State.easelSelftest; repeat' first | (simp (maxDischargeDepth := 60) +contextual [*]; done) | split

theorem sound_execEaselSelftest {dt : Nat} {via : Path} {phys : Nat} {s : State} {t : State} (h : s.Sound)
    (e : execEaselSelftest dt via phys s = .next t) :
    t.Sound := by
  unfold execEaselSelftest at e; refine sound_act (fun u hu => ?_) h e; repeat' first | (simp (maxDischargeDepth := 60) +contextual [*]; done) | split

theorem sound_execEaselSelftestDone {dt : Nat} {pass : Bool} {s : State} {t : State} (h : s.Sound)
    (e : execEaselSelftestDone dt pass s = .next t) :
    t.Sound := by
  unfold execEaselSelftestDone at e; refine sound_act (fun u hu => ?_) h e; repeat' first | (simp (maxDischargeDepth := 60) +contextual [*]; done) | split

theorem sound_execSpareEaselCheck {dt : Nat} {s : State} {t : State} (h : s.Sound)
    (e : execSpareEaselCheck dt s = .next t) :
    t.Sound := by
  unfold execSpareEaselCheck at e; refine sound_act (fun u hu => ?_) h e; repeat' first | (simp (maxDischargeDepth := 60) +contextual [*]; done) | split

theorem sound_execSpareEaselCheckDone {dt : Nat} {pass : Bool} {s : State} {t : State} (h : s.Sound)
    (e : execSpareEaselCheckDone dt pass s = .next t) :
    t.Sound := by
  unfold execSpareEaselCheckDone at e; refine sound_act (fun u hu => ?_) h e; repeat' first | (simp (maxDischargeDepth := 60) +contextual [*]; done) | split

@[simp ↓] theorem sound_easelClear {s : State} {via : Path} {k : Nat} (h : s.Sound) : (s.easelClear via k).Sound := by
  unfold State.easelClear; repeat' first | (simp (maxDischargeDepth := 60) +contextual [*]; done) | split

theorem sound_execEaselClear {dt : Nat} {via : Path} {easel : Nat} {s : State} {t : State} (h : s.Sound)
    (e : execEaselClear dt via easel s = .next t) :
    t.Sound := by
  unfold execEaselClear at e; refine sound_act (fun u hu => ?_) h e; repeat' first | (simp (maxDischargeDepth := 60) +contextual [*]; done) | split

end Sys2Proof.Machine
end

