-- ==== Sys2Proof/Laws/SoundCalibration.lean ====
section
/-! SUPPORT. Laws/SoundCalibration.lean: soundness is kept by the operations and commands of Machine/Calibration.lean. -/
namespace Sys2Proof.Machine
open Reg

@[simp ↓] theorem sound_putCand {s : State} {b : Nat} {c : CalCam} (h : s.Sound) : (s.putCand b c).Sound := by
  unfold State.putCand; repeat' first | (simp (maxDischargeDepth := 60) +contextual [*]; done) | split

@[simp ↓] theorem sound_calEnd {s : State} {result : Nat} (h : s.Sound) : (s.calEnd result).Sound := by
  unfold State.calEnd; repeat' first | (simp (maxDischargeDepth := 60) +contextual [*]; done) | split

@[simp ↓] theorem sound_stageCand {s : State} {o : Obj} {i : Nat} {b : List Byte} (h : s.Sound) :
    (s.stageCand o i b).Sound := by
  unfold State.stageCand; repeat' first | (simp (maxDischargeDepth := 60) +contextual [*]; done) | split

@[simp ↓] theorem sound_calCandidate {s : State} (h : s.Sound) : s.calCandidate.Sound := by
  unfold State.calCandidate; repeat' first | (simp (maxDischargeDepth := 60) +contextual [*]; done) | split

@[simp ↓] theorem sound_photoAnew {s : State} (h : s.Sound) : s.photoAnew.Sound := by
  unfold State.photoAnew; repeat' first | (simp (maxDischargeDepth := 60) +contextual [*]; done) | split

@[simp ↓] theorem sound_calMeasure {s : State} (h : s.Sound) : s.calMeasure.Sound := by
  unfold State.calMeasure; repeat' first | (simp (maxDischargeDepth := 60) +contextual [*]; done) | split

@[simp ↓] theorem sound_calNext {s : State} (h : s.Sound) : s.calNext.Sound := by
  unfold State.calNext; repeat' first | (simp (maxDischargeDepth := 60) +contextual [*]; done) | split

@[simp ↓] theorem sound_calStart {s : State} (h : s.Sound) : s.calStart.Sound := by
  unfold State.calStart; repeat' first | (simp (maxDischargeDepth := 60) +contextual [*]; done) | split

@[simp ↓] theorem sound_calStep {s : State} {via : Path} (h : s.Sound) : (s.calStep via).Sound := by
  unfold State.calStep; repeat' first | (simp (maxDischargeDepth := 60) +contextual [*]; done) | split

theorem sound_execCalStep {dt : Nat} {via : Path} {s : State} {t : State} (h : s.Sound)
    (e : execCalStep dt via s = .next t) :
    t.Sound := by
  unfold execCalStep at e; refine sound_act (fun u hu => ?_) h e; repeat' first | (simp (maxDischargeDepth := 60) +contextual [*]; done) | split

@[simp ↓] theorem sound_calDark {s : State} {b : Nat} {sums : List (List Nat)} (h : s.Sound) :
    (s.calDark b sums).Sound := by
  unfold State.calDark; repeat' first | (simp (maxDischargeDepth := 60) +contextual [*]; done) | split

@[simp ↓] theorem sound_calFlat {s : State} {b : Nat} {sums : List (List Nat)} (h : s.Sound) : (s.calFlat b
    sums).1.Sound := by
  unfold State.calFlat; repeat' first | (simp (maxDischargeDepth := 60) +contextual [h]; done) | split

@[simp ↓] theorem sound_calGeometry {s : State} {maps : List (Nat × Nat × Nat × List Nat)} (h : s.Sound) :
    (s.calGeometry maps).1.Sound := by
  unfold State.calGeometry
  repeat' (first
    | (simp (maxDischargeDepth := 60) +contextual [*]; done)
    | simp only [sound_mk, soundOf_parts]
    | with_reducible refine sound_foldl _ (fun t x ht => ?_) ?_
    | with_reducible refine sound_foldl_fst _ (fun t b x ht => ?_) ?_
    | with_reducible refine sound_ite (fun _ => ?_) (fun _ => ?_)
    | split | with_reducible refine sound_fst ?_ (by assumption) | with_reducible refine sound_snd ?_ (by assumption)
    | with_reducible refine sound_ringTake ?_ (by assumption)
    | with_reducible refine sound_calResults ?_ (by assumption)
    | with_reducible refine sound_modeCheck ?_ (by assumption)
    | dsimp only)

@[simp ↓] theorem sound_calColour {s : State} {b : Nat} {means : List (List Rat)} (h : s.Sound) :
    (s.calColour b means).1.Sound := by
  unfold State.calColour
  repeat' (first
    | with_reducible assumption
    | simp only [sound_mk, soundOf_parts]
    | with_reducible refine sound_fresh ?_
    | with_reducible refine sound_putCand ?_
    | with_reducible refine sound_foldl _ (fun t x ht => ?_) ?_
    | with_reducible refine sound_foldl_fst _ (fun t b x ht => ?_) ?_
    | with_reducible refine sound_ite (fun _ => ?_) (fun _ => ?_)
    | with_reducible refine sound_set ?_ | split | with_reducible refine sound_fst ?_ (by assumption) | with_reducible refine sound_snd ?_ (by assumption)
    | with_reducible refine sound_ringTake ?_ (by assumption)
    | with_reducible refine sound_calResults ?_ (by assumption)
    | with_reducible refine sound_modeCheck ?_ (by assumption)
    | (intro _; try dsimp only)
    | dsimp only)

theorem sound_calResults {s : State} {m : CalMeas} {t : State} {b_ : Nat} (h : s.Sound)
    (e : s.calResults m = some (t, b_)) :
    t.Sound := by
  unfold State.calResults at e; try dsimp only at e
  repeat' split at e
  all_goals cases e
  all_goals repeat' (first
    | (simp (maxDischargeDepth := 60) +contextual [*]; done)
    | simp only [sound_mk, soundOf_parts]
    | with_reducible refine sound_foldl _ (fun t x ht => ?_) ?_
    | with_reducible refine sound_foldl_fst _ (fun t b x ht => ?_) ?_
    | with_reducible refine sound_ite (fun _ => ?_) (fun _ => ?_)
    | split | with_reducible refine sound_fst ?_ (by assumption) | with_reducible refine sound_snd ?_ (by assumption)
    | with_reducible refine sound_ringTake ?_ (by assumption)
    | with_reducible refine sound_calResults ?_ (by assumption)
    | with_reducible refine sound_modeCheck ?_ (by assumption)
    | dsimp only)

theorem sound_execCalMeasureDone {dt : Nat} {meas : CalMeas} {s : State} {t : State} (h : s.Sound)
    (e : execCalMeasureDone dt meas s = .next t) :
    t.Sound := by
  unfold execCalMeasureDone at e; refine sound_act (fun u hu => ?_) h e
  repeat' (first
    | (simp (maxDischargeDepth := 60) +contextual [*]; done)
    | simp only [sound_mk, soundOf_parts]
    | with_reducible refine sound_calEnd ?_
    | with_reducible refine sound_calNext ?_
    | with_reducible refine sound_loadCurrents ?_
    | with_reducible refine sound_foldl _ (fun t x ht => ?_) ?_
    | with_reducible refine sound_foldl_fst _ (fun t b x ht => ?_) ?_
    | with_reducible refine sound_ite (fun _ => ?_) (fun _ => ?_)
    | split | with_reducible refine sound_fst ?_ (by assumption) | with_reducible refine sound_snd ?_ (by assumption)
    | with_reducible refine sound_ringTake ?_ (by assumption)
    | with_reducible refine sound_calResults ?_ (by assumption)
    | with_reducible refine sound_modeCheck ?_ (by assumption)
    | (intro _; try dsimp only)
    | dsimp only)

@[simp ↓] theorem sound_storeCal {s : State} {cams : List CalCam} {records : List (List Byte)} {base : List (Int ×
    List Int)} (h : s.Sound) :
    (s.storeCal cams records base).Sound := by
  unfold State.storeCal; repeat' first | (simp (maxDischargeDepth := 60) +contextual [*]; done) | split

@[simp ↓] theorem sound_commitCand {s : State} {b : Nat} {c : CalCam} (h : s.Sound) : (s.commitCand b c).Sound := by
  unfold State.commitCand; repeat' first | (simp (maxDischargeDepth := 60) +contextual [*]; done) | split

@[simp ↓] theorem sound_calApply {s : State} (h : s.Sound) : s.calApply.Sound := by
  unfold State.calApply; repeat' first | (simp (maxDischargeDepth := 60) +contextual [*]; done) | split

@[simp ↓] theorem sound_withCands {s : State} {cs : List (Nat × CalCam)} (h : s.Sound) : (s.withCands cs).Sound :=
    by
  unfold State.withCands; repeat' first | (simp (maxDischargeDepth := 60) +contextual [*]; done) | split

@[simp ↓] theorem sound_calAccept {s : State} {via : Path} (h : s.Sound) : (s.calAccept via).Sound := by
  unfold State.calAccept; repeat' first | (simp (maxDischargeDepth := 60) +contextual [*]; done) | split

theorem sound_execCalAccept {dt : Nat} {via : Path} {s : State} {t : State} (h : s.Sound)
    (e : execCalAccept dt via s = .next t) :
    t.Sound := by
  unfold execCalAccept at e; refine sound_act (fun u hu => ?_) h e; repeat' first | (simp (maxDischargeDepth := 60) +contextual [*]; done) | split

@[simp ↓] theorem sound_calAbort {s : State} {via : Path} (h : s.Sound) : (s.calAbort via).Sound := by
  unfold State.calAbort; repeat' first | (simp (maxDischargeDepth := 60) +contextual [*]; done) | split

theorem sound_execCalAbort {dt : Nat} {via : Path} {s : State} {t : State} (h : s.Sound)
    (e : execCalAbort dt via s = .next t) :
    t.Sound := by
  unfold execCalAbort at e; refine sound_act (fun u hu => ?_) h e; repeat' first | (simp (maxDischargeDepth := 60) +contextual [*]; done) | split

@[simp ↓] theorem sound_restoreBanks {s : State} (h : s.Sound) : s.restoreBanks.Sound := by
  unfold State.restoreBanks; repeat' first | (simp (maxDischargeDepth := 60) +contextual [*]; done) | split

@[simp ↓] theorem sound_trimServe {s : State} (h : s.Sound) : s.trimServe.Sound := by
  unfold State.trimServe; repeat' first | (simp (maxDischargeDepth := 60) +contextual [*]; done) | split

theorem sound_execTrimDue {dt bay : Nat} {s : State} {t : State} (h : s.Sound)
    (e : execTrimDue dt bay s = .next t) :
    t.Sound := by
  unfold execTrimDue at e; refine sound_act (fun u hu => ?_) h e; repeat' first | (simp (maxDischargeDepth := 60) +contextual [*]; done) | split

@[simp ↓] theorem sound_trimNow {s : State} {via : Path} {b : Nat} (h : s.Sound) : (s.trimNow via b).Sound := by
  unfold State.trimNow; repeat' first | (simp (maxDischargeDepth := 60) +contextual [*]; done) | split

theorem sound_execTrimNow {dt : Nat} {via : Path} {bay : Nat} {s : State} {t : State} (h : s.Sound)
    (e : execTrimNow dt via bay s = .next t) :
    t.Sound := by
  unfold execTrimNow at e; refine sound_act (fun u hu => ?_) h e; repeat' first | (simp (maxDischargeDepth := 60) +contextual [*]; done) | split

@[simp ↓] theorem sound_trimBlind {s : State} {b n : Nat} (h : s.Sound) : (s.trimBlind b n).Sound := by
  unfold State.trimBlind; repeat' first | (simp (maxDischargeDepth := 60) +contextual [*]; done) | split

@[simp ↓] theorem sound_trimBegin {s : State} {n : Nat} (h : s.Sound) : (s.trimBegin n).Sound := by
  unfold State.trimBegin; repeat' first | (simp (maxDischargeDepth := 60) +contextual [*]; done) | split

@[simp ↓] theorem sound_trimFall {s : State} {n : Nat} (h : s.Sound) : (s.trimFall n).Sound := by
  unfold State.trimFall
  repeat' (first
    | (simp (maxDischargeDepth := 60) +contextual [*]; done)
    | simp only [sound_mk, soundOf_parts]
    | with_reducible refine sound_foldl _ (fun t x ht => ?_) ?_
    | with_reducible refine sound_foldl_fst _ (fun t b x ht => ?_) ?_
    | with_reducible refine sound_ite (fun _ => ?_) (fun _ => ?_)
    | split | with_reducible refine sound_fst ?_ (by assumption) | with_reducible refine sound_snd ?_ (by assumption)
    | with_reducible refine sound_ringTake ?_ (by assumption)
    | with_reducible refine sound_calResults ?_ (by assumption)
    | with_reducible refine sound_modeCheck ?_ (by assumption)
    | dsimp only)

@[simp ↓] theorem sound_rebase {s : State} {b : Nat} (h : s.Sound) : (s.rebase b).Sound := by
  unfold State.rebase; repeat' first | (simp (maxDischargeDepth := 60) +contextual [*]; done) | split

@[simp ↓] theorem sound_trimEnd {s : State} {b strip : Nat} {m : TrimMeas} (h : s.Sound) : (s.trimEnd b strip m).Sound := by
  unfold State.trimEnd; repeat' first | (simp (maxDischargeDepth := 60) +contextual [*]; done) | split

@[simp ↓] theorem sound_trimKnown {s : State} {b strip : Nat} {m : TrimMeas} (h : s.Sound) : (s.trimKnown b strip
    m).Sound := by
  unfold State.trimKnown; repeat' first | (simp (maxDischargeDepth := 60) +contextual [*]; done) | split

@[simp ↓] theorem sound_trimLine {s : State} {n : Nat} (h : s.Sound) : (s.trimLine n).Sound := by
  unfold State.trimLine; repeat' first | (simp (maxDischargeDepth := 60) +contextual [*]; done) | split

theorem sound_execTrimResult {dt : Nat} {meas : TrimMeas} {s : State} {t : State} (h : s.Sound)
    (e : execTrimResult dt meas s = .next t) :
    t.Sound := by
  unfold execTrimResult at e; refine sound_act (fun u hu => ?_) h e; repeat' first | (simp (maxDischargeDepth := 60) +contextual [*]; done) | split

@[simp ↓] theorem sound_calClear {s : State} {via : Path} (h : s.Sound) : (s.calClear via).Sound := by
  unfold State.calClear; repeat' first | (simp (maxDischargeDepth := 60) +contextual [*]; done) | split

theorem sound_execCalClear {dt : Nat} {via : Path} {s : State} {t : State} (h : s.Sound)
    (e : execCalClear dt via s = .next t) :
    t.Sound := by
  unfold execCalClear at e; refine sound_act (fun u hu => ?_) h e; repeat' first | (simp (maxDischargeDepth := 60) +contextual [*]; done) | split

end Sys2Proof.Machine
end

