-- ==== Sys2Proof/Laws/SoundFabric.lean ====
section
/-! SUPPORT. Laws/SoundFabric.lean: soundness is kept by the operations and commands of Machine/Fabric.lean. -/
namespace Sys2Proof.Machine
open Reg

@[simp ↓] theorem sound_checkTide {s : State} (h : s.Sound) : s.checkTide.1.Sound := by
  unfold State.checkTide
  repeat' (first
    | (simp (maxDischargeDepth := 60) +contextual [*]; done)
    | simp only [sound_mk, soundOf_parts]
    | with_reducible refine sound_foldl _ (fun t x ht => ?_) ?_
    | with_reducible refine sound_foldl_fst _ (fun t b x ht => ?_) ?_
    | with_reducible refine sound_ite (fun _ => ?_) (fun _ => ?_)
    | split | with_reducible refine sound_fst ?_ (by assumption) | with_reducible refine sound_snd ?_ (by assumption)
    | with_reducible refine sound_ringTake ?_ (by assumption)
    | with_reducible refine sound_calResults ?_ (by assumption)
    | with_reducible refine sound_modeCheck ?_ (by assumption)
    | dsimp only)

@[simp ↓] theorem sound_tideApply {s : State} {image : List Byte} {line : Nat} (h : s.Sound) :
    (s.tideApply image line).Sound := by
  unfold State.tideApply; repeat' first | (simp (maxDischargeDepth := 60) +contextual [*]; done) | split

@[simp ↓] theorem sound_tideNow {s : State} {image : List Byte} {n : Nat} (h : s.Sound) : (s.tideNow image n).Sound
    := by
  unfold State.tideNow; repeat' first | (simp (maxDischargeDepth := 60) +contextual [*]; done) | split

@[simp ↓] theorem sound_tideSettleAt {s : State} {line : Nat} (h : s.Sound) : (s.tideSettleAt line).Sound := by
  unfold State.tideSettleAt; repeat' first | (simp (maxDischargeDepth := 60) +contextual [*]; done) | split

@[simp ↓] theorem sound_tideSettle {s : State} (h : s.Sound) : s.tideSettle.Sound := by
  unfold State.tideSettle; repeat' first | (simp (maxDischargeDepth := 60) +contextual [*]; done) | split

@[simp ↓] theorem sound_tideReload {s : State} {image : List Byte} (h : s.Sound) : (s.tideReload image).Sound := by
  unfold State.tideReload; repeat' first | (simp (maxDischargeDepth := 60) +contextual [*]; done) | split

@[simp ↓] theorem sound_tideLoad {s : State} (h : s.Sound) : s.tideLoad.Sound := by
  unfold State.tideLoad; repeat' first | (simp (maxDischargeDepth := 60) +contextual [*]; done) | split

@[simp ↓] theorem sound_tideRefuse {s : State} {via : Path} {code abortCode : Nat} (h : s.Sound) :
    (s.tideRefuse via code abortCode).Sound := by
  unfold State.tideRefuse; repeat' first | (simp (maxDischargeDepth := 60) +contextual [*]; done) | split

@[simp ↓] theorem sound_tideCommit {s : State} {via : Path} (h : s.Sound) : (s.tideCommit via).Sound := by
  unfold State.tideCommit
  repeat' (first
    | (simp (maxDischargeDepth := 60) +contextual [*]; done)
    | simp only [sound_mk, soundOf_parts]
    | with_reducible refine sound_foldl _ (fun t x ht => ?_) ?_
    | with_reducible refine sound_foldl_fst _ (fun t b x ht => ?_) ?_
    | with_reducible refine sound_ite (fun _ => ?_) (fun _ => ?_)
    | split | with_reducible refine sound_fst ?_ (by assumption) | with_reducible refine sound_snd ?_ (by assumption)
    | with_reducible refine sound_ringTake ?_ (by assumption)
    | with_reducible refine sound_calResults ?_ (by assumption)
    | with_reducible refine sound_modeCheck ?_ (by assumption)
    | dsimp only)

theorem sound_execTideCommit {dt : Nat} {via : Path} {s : State} {t : State} (h : s.Sound)
    (e : execTideCommit dt via s = .next t) :
    t.Sound := by
  unfold execTideCommit at e; refine sound_act (fun u hu => ?_) h e; repeat' first | (simp (maxDischargeDepth := 60) +contextual [*]; done) | split

@[simp ↓] theorem sound_modTile {s : State} {k : Nat} {f : Tile → Tile} (h : s.Sound) : (s.modTile k f).Sound := by
  unfold State.modTile; repeat' first | (simp (maxDischargeDepth := 60) +contextual [*]; done) | split

@[simp ↓] theorem sound_tilesWake {s : State} (h : s.Sound) : s.tilesWake.Sound := by
  unfold State.tilesWake
  repeat' (first
    | (simp (maxDischargeDepth := 60) +contextual [*]; done)
    | simp only [sound_mk, soundOf_parts]
    | with_reducible refine sound_foldl _ (fun t x ht => ?_) ?_
    | with_reducible refine sound_foldl_fst _ (fun t b x ht => ?_) ?_
    | with_reducible refine sound_ite (fun _ => ?_) (fun _ => ?_)
    | split | with_reducible refine sound_fst ?_ (by assumption) | with_reducible refine sound_snd ?_ (by assumption)
    | with_reducible refine sound_ringTake ?_ (by assumption)
    | with_reducible refine sound_calResults ?_ (by assumption)
    | with_reducible refine sound_modeCheck ?_ (by assumption)
    | dsimp only)

@[simp ↓] theorem sound_writeDebug {s : State} {k view : Nat} {words : List (Nat × List (Option Nat))} (h : s.Sound)
    : (s.writeDebug k view words).Sound := by
  unfold State.writeDebug
  repeat' (first
    | (simp (maxDischargeDepth := 60) +contextual [*]; done)
    | simp only [sound_mk, soundOf_parts]
    | with_reducible refine sound_foldl _ (fun t x ht => ?_) ?_
    | with_reducible refine sound_foldl_fst _ (fun t b x ht => ?_) ?_
    | with_reducible refine sound_ite (fun _ => ?_) (fun _ => ?_)
    | split | with_reducible refine sound_fst ?_ (by assumption) | with_reducible refine sound_snd ?_ (by assumption)
    | with_reducible refine sound_ringTake ?_ (by assumption)
    | with_reducible refine sound_calResults ?_ (by assumption)
    | with_reducible refine sound_modeCheck ?_ (by assumption)
    | dsimp only)

@[simp ↓] theorem sound_runTask {s : State} {k : Nat} {t : Task} (h : s.Sound) : (s.runTask k t).1.Sound := by
  unfold State.runTask; repeat' first | (simp (maxDischargeDepth := 60) +contextual [*]; done) | split

@[simp ↓] theorem sound_headRun {s : State} {k : Nat} (h : s.Sound) : (s.headRun k).1.Sound := by
  unfold State.headRun; repeat' first | (simp (maxDischargeDepth := 60) +contextual [*]; done) | split

@[simp ↓] theorem sound_blindTask {s : State} {t : Task} (h : s.Sound) : (s.blindTask t).Sound := by
  unfold State.blindTask; repeat' first | (simp (maxDischargeDepth := 60) +contextual [*]; done) | split

@[simp ↓] theorem sound_endTask {s : State} {t : Task} {status : Nat} {o : TaskOut} (h : s.Sound) : (s.endTask t
    status o).Sound := by
  unfold State.endTask; repeat' first | (simp (maxDischargeDepth := 60) +contextual [*]; done) | split

@[simp ↓] theorem sound_fabricSettle {s : State} (h : s.Sound) : s.fabricSettle.Sound := by
  unfold State.fabricSettle; repeat' first | (simp (maxDischargeDepth := 60) +contextual [*]; done) | split

@[simp ↓] theorem sound_fabricSettleAt {s : State} {line : Nat} (h : s.Sound) : (s.fabricSettleAt line).Sound := by
  unfold State.fabricSettleAt; repeat' first | (simp (maxDischargeDepth := 60) +contextual [*]; done) | split

@[simp ↓] theorem sound_coverUnregistered {s : State} {v : Nat} {x : CStrip} (h : s.Sound) :
    (s.coverUnregistered v x).Sound := by
  unfold State.coverUnregistered; repeat' first | (simp (maxDischargeDepth := 60) +contextual [*]; done) | split

@[simp ↓] theorem sound_issueTask {s : State} {k : Nat} {t : Task} (h : s.Sound) : (s.issueTask k t).Sound := by
  unfold State.issueTask; repeat' first | (simp (maxDischargeDepth := 60) +contextual [*]; done) | split

@[simp ↓] theorem sound_issueStrip {s : State} {v : Nat} {x : CStrip} (h : s.Sound) : (s.issueStrip v x).Sound := by
  unfold State.issueStrip; repeat' first | (simp (maxDischargeDepth := 60) +contextual [*]; done) | split

theorem sound_execTaskIssue {dt view : Nat} {s : State} {t : State} (h : s.Sound)
    (e : execTaskIssue dt view s = .next t) :
    t.Sound := by
  unfold execTaskIssue at e; refine sound_act (fun u hu => ?_) h e
  repeat' (first
    | (simp (maxDischargeDepth := 60) +contextual [*]; done)
    | simp only [sound_mk, soundOf_parts]
    | with_reducible refine sound_foldl _ (fun t x ht => ?_) ?_
    | with_reducible refine sound_foldl_fst _ (fun t b x ht => ?_) ?_
    | with_reducible refine sound_ite (fun _ => ?_) (fun _ => ?_)
    | split | with_reducible refine sound_fst ?_ (by assumption) | with_reducible refine sound_snd ?_ (by assumption)
    | with_reducible refine sound_ringTake ?_ (by assumption)
    | with_reducible refine sound_calResults ?_ (by assumption)
    | with_reducible refine sound_modeCheck ?_ (by assumption)
    | dsimp only)

@[simp ↓] theorem sound_gateTile {s : State} {phys : Nat} (h : s.Sound) : (s.gateTile phys).Sound := by
  unfold State.gateTile; repeat' first | (simp (maxDischargeDepth := 60) +contextual [*]; done) | split

@[simp ↓] theorem sound_staleTile {s : State} {phys : Nat} (h : s.Sound) : (s.staleTile phys).Sound := by
  unfold State.staleTile; repeat' first | (simp (maxDischargeDepth := 60) +contextual [*]; done) | split

theorem sound_execFragment {dt : Nat} {src : TileSender} {s : State} {t : State} (h : s.Sound) (e : execFragment dt
    src s = .next t) :
    t.Sound := by
  unfold execFragment at e; refine sound_act (fun u hu => ?_) h e
  repeat' (first
    | (simp (maxDischargeDepth := 60) +contextual [*]; done)
    | simp only [sound_mk, soundOf_parts]
    | with_reducible refine sound_tilesWake ?_
    | with_reducible refine sound_staleTile ?_
    | with_reducible refine sound_headRun ?_
    | with_reducible refine sound_volume ?_
    | with_reducible refine sound_modTile ?_
    | with_reducible refine sound_foldl _ (fun t x ht => ?_) ?_
    | with_reducible refine sound_foldl_fst _ (fun t b x ht => ?_) ?_
    | with_reducible refine sound_ite (fun _ => ?_) (fun _ => ?_)
    | split | with_reducible refine sound_fst ?_ (by assumption) | with_reducible refine sound_snd ?_ (by assumption)
    | with_reducible refine sound_ringTake ?_ (by assumption)
    | with_reducible refine sound_calResults ?_ (by assumption)
    | with_reducible refine sound_modeCheck ?_ (by assumption)
    | (intro _; try dsimp only)
    | dsimp only)

@[simp ↓] theorem sound_routeTile {s : State} {k p : Nat} (h : s.Sound) : (s.routeTile k p).Sound := by
  unfold State.routeTile; repeat' first | (simp (maxDischargeDepth := 60) +contextual [*]; done) | split

@[simp ↓] theorem sound_tileDead {s : State} {k : Nat} (h : s.Sound) : (s.tileDead k).Sound := by
  unfold State.tileDead
  repeat' (first
    | (simp (maxDischargeDepth := 60) +contextual [*]; done)
    | simp only [sound_mk, soundOf_parts]
    | with_reducible refine sound_foldl _ (fun t x ht => ?_) ?_
    | with_reducible refine sound_foldl_fst _ (fun t b x ht => ?_) ?_
    | with_reducible refine sound_ite (fun _ => ?_) (fun _ => ?_)
    | split | with_reducible refine sound_fst ?_ (by assumption) | with_reducible refine sound_snd ?_ (by assumption)
    | with_reducible refine sound_ringTake ?_ (by assumption)
    | with_reducible refine sound_calResults ?_ (by assumption)
    | with_reducible refine sound_modeCheck ?_ (by assumption)
    | dsimp only)

@[simp ↓] theorem sound_tileMiss {s : State} {k : Nat} (h : s.Sound) : (s.tileMiss k).Sound := by
  unfold State.tileMiss
  repeat' (first
    | (simp (maxDischargeDepth := 60) +contextual [*]; done)
    | simp only [sound_mk, soundOf_parts]
    | with_reducible refine sound_foldl _ (fun t x ht => ?_) ?_
    | with_reducible refine sound_foldl_fst _ (fun t b x ht => ?_) ?_
    | with_reducible refine sound_ite (fun _ => ?_) (fun _ => ?_)
    | split | with_reducible refine sound_fst ?_ (by assumption) | with_reducible refine sound_snd ?_ (by assumption)
    | with_reducible refine sound_ringTake ?_ (by assumption)
    | with_reducible refine sound_calResults ?_ (by assumption)
    | with_reducible refine sound_modeCheck ?_ (by assumption)
    | dsimp only)

theorem sound_execTileDeadline {dt tile : Nat} {s : State} {t : State} (h : s.Sound)
    (e : execTileDeadline dt tile s = .next t) :
    t.Sound := by
  unfold execTileDeadline at e; refine sound_act (fun u hu => ?_) h e; repeat' first | (simp (maxDischargeDepth := 60) +contextual [*]; done) | split

@[simp ↓] theorem sound_ackTask {s : State} {k wait : Nat} {t : Task} {o : TaskOut} (h : s.Sound) : (s.ackTask k
    wait t o).Sound := by
  unfold State.ackTask; repeat' first | (simp (maxDischargeDepth := 60) +contextual [*]; done) | split

theorem sound_execTaskEnd {dt : Nat} {src : TileSender} {loadWaitNs : Nat} {s : State} {t : State} (h : s.Sound) (e
    : execTaskEnd dt src loadWaitNs s = .next t) :
    t.Sound := by
  unfold execTaskEnd at e; refine sound_act (fun u hu => ?_) h e
  repeat' (first
    | (simp (maxDischargeDepth := 60) +contextual [*]; done)
    | simp only [sound_mk, soundOf_parts]
    | with_reducible refine sound_tilesWake ?_
    | with_reducible refine sound_staleTile ?_
    | with_reducible refine sound_tileMiss ?_
    | with_reducible refine sound_fabricSettle ?_
    | with_reducible refine sound_tally ?_
    | with_reducible refine sound_headRun ?_
    | with_reducible refine sound_ackTask ?_
    | with_reducible refine sound_foldl _ (fun t x ht => ?_) ?_
    | with_reducible refine sound_foldl_fst _ (fun t b x ht => ?_) ?_
    | with_reducible refine sound_ite (fun _ => ?_) (fun _ => ?_)
    | split | with_reducible refine sound_fst ?_ (by assumption) | with_reducible refine sound_snd ?_ (by assumption)
    | with_reducible refine sound_ringTake ?_ (by assumption)
    | with_reducible refine sound_calResults ?_ (by assumption)
    | with_reducible refine sound_modeCheck ?_ (by assumption)
    | (intro _; try dsimp only)
    | dsimp only)

theorem sound_execTileHeartbeatTask {dt tile : Nat} {s : State} {t : State} (h : s.Sound)
    (e : execTileHeartbeatTask dt tile s = .next t) :
    t.Sound := by
  unfold execTileHeartbeatTask at e; refine sound_act (fun u hu => ?_) h e; repeat' first | (simp (maxDischargeDepth := 60) +contextual [*]; done) | split

@[simp ↓] theorem sound_tilesReady {s : State} (h : s.Sound) : s.tilesReady.Sound := by
  unfold State.tilesReady
  repeat' (first
    | (simp (maxDischargeDepth := 60) +contextual [*]; done)
    | simp only [sound_mk, soundOf_parts]
    | with_reducible refine sound_foldl _ (fun t x ht => ?_) ?_
    | with_reducible refine sound_foldl_fst _ (fun t b x ht => ?_) ?_
    | with_reducible refine sound_ite (fun _ => ?_) (fun _ => ?_)
    | split | with_reducible refine sound_fst ?_ (by assumption) | with_reducible refine sound_snd ?_ (by assumption)
    | with_reducible refine sound_ringTake ?_ (by assumption)
    | with_reducible refine sound_calResults ?_ (by assumption)
    | with_reducible refine sound_modeCheck ?_ (by assumption)
    | dsimp only)

@[simp ↓] theorem sound_flushTiles {s : State} (h : s.Sound) : s.flushTiles.Sound := by
  unfold State.flushTiles; repeat' first | (simp (maxDischargeDepth := 60) +contextual [*]; done) | split

theorem sound_execTideLoadWindow {dt : Nat} {s : State} {t : State} (h : s.Sound)
    (e : execTideLoadWindow dt s = .next t) :
    t.Sound := by
  unfold execTideLoadWindow at e; refine sound_act (fun u hu => ?_) h e; repeat' first | (simp (maxDischargeDepth := 60) +contextual [*]; done) | split

@[simp ↓] theorem sound_tileSelftest {s : State} {via : Path} {p : Nat} (h : s.Sound) : (s.tileSelftest via p).Sound := by
  unfold State.tileSelftest; repeat' first | (simp (maxDischargeDepth := 60) +contextual [*]; done) | split

theorem sound_execTileSelftest {dt : Nat} {via : Path} {phys : Nat} {s : State} {t : State} (h : s.Sound)
    (e : execTileSelftest dt via phys s = .next t) :
    t.Sound := by
  unfold execTileSelftest at e; refine sound_act (fun u hu => ?_) h e; repeat' first | (simp (maxDischargeDepth := 60) +contextual [*]; done) | split

theorem sound_execTileSelftestDone {dt : Nat} {pass : Bool} {s : State} {t : State} (h : s.Sound)
    (e : execTileSelftestDone dt pass s = .next t) :
    t.Sound := by
  unfold execTileSelftestDone at e; refine sound_act (fun u hu => ?_) h e; repeat' first | (simp (maxDischargeDepth := 60) +contextual [*]; done) | split

theorem sound_execSpareTileCheck {dt phys : Nat} {s : State} {t : State} (h : s.Sound)
    (e : execSpareTileCheck dt phys s = .next t) :
    t.Sound := by
  unfold execSpareTileCheck at e; refine sound_act (fun u hu => ?_) h e; repeat' first | (simp (maxDischargeDepth := 60) +contextual [*]; done) | split

theorem sound_execSpareTileCheckDone {dt phys : Nat} {pass : Bool} {s : State} {t : State} (h : s.Sound)
    (e : execSpareTileCheckDone dt phys pass s = .next t) :
    t.Sound := by
  unfold execSpareTileCheckDone at e; refine sound_act (fun u hu => ?_) h e; repeat' first | (simp (maxDischargeDepth := 60) +contextual [*]; done) | split

@[simp ↓] theorem sound_fabricClear {s : State} {via : Path} (h : s.Sound) : (s.fabricClear via).Sound := by
  unfold State.fabricClear; repeat' first | (simp (maxDischargeDepth := 60) +contextual [*]; done) | split

theorem sound_execFabricClear {dt : Nat} {via : Path} {s : State} {t : State} (h : s.Sound)
    (e : execFabricClear dt via s = .next t) :
    t.Sound := by
  unfold execFabricClear at e; refine sound_act (fun u hu => ?_) h e; repeat' first | (simp (maxDischargeDepth := 60) +contextual [*]; done) | split

end Sys2Proof.Machine
end

