-- ==== Sys2Proof/Laws/SoundWharf.lean ====
section
/-! SUPPORT. Laws/SoundWharf.lean: soundness is kept by the operations and commands of Machine/Wharf.lean. -/
namespace Sys2Proof.Machine
open Reg

@[simp ↓] theorem sound_modJob {s : State} {n : Nat} {f : Job → Job} (h : s.Sound) : (s.modJob n f).Sound := by
  unfold State.modJob; repeat' first | (simp (maxDischargeDepth := 60) +contextual [*]; done) | split

@[simp ↓] theorem sound_jobTo {s : State} {n st : Nat} (h : s.Sound) : (s.jobTo n st).Sound := by
  unfold State.jobTo; repeat' first | (simp (maxDischargeDepth := 60) +contextual [*]; done) | split

@[simp ↓] theorem sound_turnStart {s : State} {n : Nat} (h : s.Sound) : (s.turnStart n).Sound := by
  unfold State.turnStart; repeat' first | (simp (maxDischargeDepth := 60) +contextual [*]; done) | split

@[simp ↓] theorem sound_grant {s : State} (h : s.Sound) : s.grant.Sound := by
  unfold State.grant
  repeat' (first
    | (simp (maxDischargeDepth := 60) +contextual [*]; done)
    | simp only [sound_mk, soundOf_parts]
    | with_reducible refine sound_jobTo ?_
    | with_reducible refine sound_set ?_
    | with_reducible refine sound_foldl _ (fun t x ht => ?_) ?_
    | with_reducible refine sound_foldl_fst _ (fun t b x ht => ?_) ?_
    | with_reducible refine sound_ite (fun _ => ?_) (fun _ => ?_)
    | split | with_reducible refine sound_fst ?_ (by assumption) | with_reducible refine sound_snd ?_ (by assumption)
    | with_reducible refine sound_ringTake ?_ (by assumption)
    | with_reducible refine sound_calResults ?_ (by assumption)
    | with_reducible refine sound_modeCheck ?_ (by assumption)
    | (intro _; try dsimp only)
    | dsimp only)

@[simp ↓] theorem sound_jobEnds {s : State} {n code : Nat} (h : s.Sound) : (s.jobEnds n code).Sound := by
  unfold State.jobEnds; repeat' first | (simp (maxDischargeDepth := 60) +contextual [*]; done) | split

@[simp ↓] theorem sound_spaceWrite {s : State} {f space a : Nat} {bs : List Byte} (h : s.Sound) :
    (s.spaceWrite f space a bs).Sound := by
  unfold State.spaceWrite; repeat' first | (simp (maxDischargeDepth := 60) +contextual [*]; done) | split

@[simp ↓] theorem sound_copyRows {s : State} {n : Nat} {j : Job} {host : Option (List Byte)} {a b : Nat} (h : s.Sound) :
    (s.copyRows n j host a b).Sound := by
  unfold State.copyRows; repeat' first | (simp (maxDischargeDepth := 60) +contextual [*]; done) | split

@[simp ↓] theorem sound_spoil {s : State} {n : Nat} {j : Job} (h : s.Sound) : (s.spoil n j).Sound := by
  unfold State.spoil; repeat' first | (simp (maxDischargeDepth := 60) +contextual [*]; done) | split

@[simp ↓] theorem sound_turnServed {s : State} {m : Nat} {b : Job} {k : Nat} (h : s.Sound) : (s.turnServed m b
    k).Sound := by
  unfold State.turnServed; repeat' first | (simp (maxDischargeDepth := 60) +contextual [*]; done) | split

@[simp ↓] theorem sound_turnsServe {s : State} {seen : List (Nat × Nat)} {n : Nat} (h : s.Sound) : (s.turnsServe
    seen n).Sound := by
  unfold State.turnsServe
  repeat' (first
    | (simp (maxDischargeDepth := 60) +contextual [*]; done)
    | simp only [sound_mk, soundOf_parts]
    | with_reducible refine sound_foldl _ (fun t x ht => ?_) ?_
    | with_reducible refine sound_foldl_fst _ (fun t b x ht => ?_) ?_
    | with_reducible refine sound_ite (fun _ => ?_) (fun _ => ?_)
    | split | with_reducible refine sound_fst ?_ (by assumption) | with_reducible refine sound_snd ?_ (by assumption)
    | with_reducible refine sound_ringTake ?_ (by assumption)
    | with_reducible refine sound_calResults ?_ (by assumption)
    | with_reducible refine sound_modeCheck ?_ (by assumption)
    | dsimp only)

@[simp ↓] theorem sound_copyStops {s : State} {n : Nat} {j : Job} {rows : Nat} (h : s.Sound) :
    (s.copyStops n j rows).Sound := by
  unfold State.copyStops; repeat' first | (simp (maxDischargeDepth := 60) +contextual [*]; done) | split

@[simp ↓] theorem sound_jobCut {s : State} {n code : Nat} (h : s.Sound) : (s.jobCut n code).Sound := by
  unfold State.jobCut; repeat' first | (simp (maxDischargeDepth := 60) +contextual [*]; done) | split

@[simp ↓] theorem sound_archCut {s : State} {code : Nat} (h : s.Sound) : (s.archCut code).Sound := by
  unfold State.archCut; repeat' first | (simp (maxDischargeDepth := 60) +contextual [*]; done) | split

@[simp ↓] theorem sound_ownCut {s : State} {code : Nat} (h : s.Sound) : (s.ownCut code).Sound := by
  unfold State.ownCut; repeat' first | (simp (maxDischargeDepth := 60) +contextual [*]; done) | split

@[simp ↓] theorem sound_jobsCut {s : State} {code : Nat} (h : s.Sound) : (s.jobsCut code).Sound := by
  unfold State.jobsCut; repeat' first | (simp (maxDischargeDepth := 60) +contextual [*]; done) | split

@[simp ↓] theorem sound_jobPoisoned {s : State} {n : Nat} (h : s.Sound) : (s.jobPoisoned n).Sound := by
  unfold State.jobPoisoned; repeat' first | (simp (maxDischargeDepth := 60) +contextual [*]; done) | split

@[simp ↓] theorem sound_archPoisoned {s : State} {v : Nat} (h : s.Sound) : (s.archPoisoned v).Sound := by
  unfold State.archPoisoned; repeat' first | (simp (maxDischargeDepth := 60) +contextual [*]; done) | split

@[simp ↓] theorem sound_loadPoisoned {s : State} (h : s.Sound) : s.loadPoisoned.Sound := by
  unfold State.loadPoisoned; repeat' first | (simp (maxDischargeDepth := 60) +contextual [*]; done) | split

@[simp ↓] theorem sound_chanPoisoned {s : State} {n : Nat} (h : s.Sound) : (s.chanPoisoned n).Sound := by
  unfold State.chanPoisoned; repeat' first | (simp (maxDischargeDepth := 60) +contextual [*]; done) | split

@[simp ↓] theorem sound_rowsSeen {s : State} {n : Nat} (h : s.Sound) : (s.rowsSeen n).Sound := by
  unfold State.rowsSeen; repeat' first | (simp (maxDischargeDepth := 60) +contextual [*]; done) | split

@[simp ↓] theorem sound_whStart {s : State} {via : Path} {n : Nat} (h : s.Sound) : (s.whStart via n).Sound := by
  unfold State.whStart; repeat' first | (simp (maxDischargeDepth := 60) +contextual [*]; done) | split

theorem sound_execWhStart {dt : Nat} {via : Path} {chan : Nat} {s : State} {t : State} (h : s.Sound)
    (e : execWhStart dt via chan s = .next t) :
    t.Sound := by
  unfold execWhStart at e; refine sound_act (fun u hu => ?_) h e; repeat' first | (simp (maxDischargeDepth := 60) +contextual [*]; done) | split

@[simp ↓] theorem sound_whAbort {s : State} {via : Path} {n : Nat} (h : s.Sound) : (s.whAbort via n).Sound := by
  unfold State.whAbort; repeat' first | (simp (maxDischargeDepth := 60) +contextual [*]; done) | split

theorem sound_execWhAbort {dt : Nat} {via : Path} {chan : Nat} {s : State} {t : State} (h : s.Sound)
    (e : execWhAbort dt via chan s = .next t) :
    t.Sound := by
  unfold execWhAbort at e; refine sound_act (fun u hu => ?_) h e; repeat' first | (simp (maxDischargeDepth := 60) +contextual [*]; done) | split

@[simp ↓] theorem sound_whFlush {s : State} {via : Path} {n consumed : Nat} (h : s.Sound) :
    (s.whFlush via n consumed).Sound := by
  unfold State.whFlush
  repeat' (first
    | (simp (maxDischargeDepth := 60) +contextual [*]; done)
    | simp only [sound_mk, soundOf_parts]
    | with_reducible refine sound_command ?_ ?_
    | with_reducible refine sound_modJob ?_
    | with_reducible refine sound_foldl _ (fun t x ht => ?_) ?_
    | with_reducible refine sound_foldl_fst _ (fun t b x ht => ?_) ?_
    | with_reducible refine sound_ite (fun _ => ?_) (fun _ => ?_)
    | split | with_reducible refine sound_fst ?_ (by assumption) | with_reducible refine sound_snd ?_ (by assumption)
    | with_reducible refine sound_ringTake ?_ (by assumption)
    | with_reducible refine sound_calResults ?_ (by assumption)
    | with_reducible refine sound_modeCheck ?_ (by assumption)
    | (intro _; try dsimp only)
    | dsimp only)

theorem sound_execWhFlush {dt : Nat} {via : Path} {chan consumed : Nat} {s : State} {t : State} (h : s.Sound)
    (e : execWhFlush dt via chan consumed s = .next t) :
    t.Sound := by
  unfold execWhFlush at e; refine sound_act (fun u hu => ?_) h e; repeat' first | (simp (maxDischargeDepth := 60) +contextual [*]; done) | split

@[simp ↓] theorem sound_whRestart {s : State} {via : Path} {settled : Bool} (h : s.Sound) :
    (s.whRestart via settled).Sound := by
  unfold State.whRestart; repeat' first | (simp (maxDischargeDepth := 60) +contextual [*]; done) | split

theorem sound_execWhRestart {dt : Nat} {via : Path} {settled : Bool} {s : State} {t : State} (h : s.Sound)
    (e : execWhRestart dt via settled s = .next t) :
    t.Sound := by
  unfold execWhRestart at e; refine sound_act (fun u hu => ?_) h e; repeat' first | (simp (maxDischargeDepth := 60) +contextual [*]; done) | split

theorem sound_execWhBusError {dt : Nat} {kind : BusError} {addr : Option Nat} {progress : List Nat} {s : State} {t :
    State} (h : s.Sound)     (e : execWhBusError dt kind addr progress s = .next t) :
    t.Sound := by
  unfold execWhBusError at e; refine sound_act (fun u hu => ?_) h e; repeat' first | (simp (maxDischargeDepth := 60) +contextual [*]; done) | split

@[simp ↓] theorem sound_compressDone {s : State} {n : Nat} {j : Job} {host : List Byte} (h : s.Sound) :
    (s.compressDone n j host).Sound := by
  unfold State.compressDone; repeat' first | (simp (maxDischargeDepth := 60) +contextual [*]; done) | split

@[simp ↓] theorem sound_decompressDone {s : State} {n : Nat} {j : Job} {host : List Byte} (h : s.Sound) :
    (s.decompressDone n j host).Sound := by
  unfold State.decompressDone
  repeat' (first
    | (simp (maxDischargeDepth := 60) +contextual [*]; done)
    | simp only [sound_mk, soundOf_parts]
    | with_reducible refine sound_foldl _ (fun t x ht => ?_) ?_
    | with_reducible refine sound_foldl_fst _ (fun t b x ht => ?_) ?_
    | with_reducible refine sound_ite (fun _ => ?_) (fun _ => ?_)
    | split | with_reducible refine sound_fst ?_ (by assumption) | with_reducible refine sound_snd ?_ (by assumption)
    | with_reducible refine sound_ringTake ?_ (by assumption)
    | with_reducible refine sound_calResults ?_ (by assumption)
    | with_reducible refine sound_modeCheck ?_ (by assumption)
    | dsimp only)

@[simp ↓] theorem sound_archiveNext {s : State} {v a2 : Nat} (h : s.Sound) : (s.archiveNext v a2).Sound := by
  induction a2 generalizing s v with
  | zero => unfold State.archiveNext; repeat' first | (simp (maxDischargeDepth := 60) +contextual [*]; done) | split
  | succ n ih => unfold State.archiveNext; repeat' first | (simp (maxDischargeDepth := 60) +contextual [*]; done) | split

@[simp ↓] theorem sound_cropNext {s : State} (h : s.Sound) : s.cropNext.Sound := by
  unfold State.cropNext; repeat' first | (simp (maxDischargeDepth := 60) +contextual [*]; done) | split

@[simp ↓] theorem sound_serveHigh {s : State} (h : s.Sound) : s.serveHigh.Sound := by
  unfold State.serveHigh; repeat' first | (simp (maxDischargeDepth := 60) +contextual [*]; done) | split

@[simp ↓] theorem sound_serveArchive {s : State} (h : s.Sound) : s.serveArchive.Sound := by
  unfold State.serveArchive; repeat' first | (simp (maxDischargeDepth := 60) +contextual [*]; done) | split

theorem sound_execWhJobDone {dt chan : Nat} {host : List Nat} {s : State} {t : State} (h : s.Sound)
    (e : execWhJobDone dt chan host s = .next t) :
    t.Sound := by
  unfold execWhJobDone at e; refine sound_act (fun u hu => ?_) h e; repeat' first | (simp (maxDischargeDepth := 60) +contextual [*]; done) | split

@[simp ↓] theorem sound_whClear {s : State} {via : Path} (h : s.Sound) : (s.whClear via).Sound := by
  unfold State.whClear; repeat' first | (simp (maxDischargeDepth := 60) +contextual [*]; done) | split

theorem sound_execWhClear {dt : Nat} {via : Path} {s : State} {t : State} (h : s.Sound)
    (e : execWhClear dt via s = .next t) :
    t.Sound := by
  unfold execWhClear at e; refine sound_act (fun u hu => ?_) h e; repeat' first | (simp (maxDischargeDepth := 60) +contextual [*]; done) | split

@[simp ↓] theorem sound_cmpClear {s : State} {via : Path} (h : s.Sound) : (s.cmpClear via).Sound := by
  unfold State.cmpClear; repeat' first | (simp (maxDischargeDepth := 60) +contextual [*]; done) | split

theorem sound_execCmpClear {dt : Nat} {via : Path} {s : State} {t : State} (h : s.Sound)
    (e : execCmpClear dt via s = .next t) :
    t.Sound := by
  unfold execCmpClear at e; refine sound_act (fun u hu => ?_) h e; repeat' first | (simp (maxDischargeDepth := 60) +contextual [*]; done) | split

end Sys2Proof.Machine
end

