-- ==== Sys2Proof/Laws/SoundDram.lean ====
section
/-! SUPPORT. Laws/SoundDram.lean: soundness is kept by the operations and commands of Machine/Dram.lean. -/
namespace Sys2Proof.Machine
open Reg

@[simp ↓] theorem sound_physTileDead {s : State} {p : Nat} (h : s.Sound) : (s.physTileDead p).Sound := by
  unfold State.physTileDead; repeat' first | (simp (maxDischargeDepth := 60) +contextual [*]; done) | split

@[simp ↓] theorem sound_physEaselDead {s : State} {p : Nat} (h : s.Sound) : (s.physEaselDead p).Sound := by
  unfold State.physEaselDead; repeat' first | (simp (maxDischargeDepth := 60) +contextual [*]; done) | split

@[simp ↓] theorem sound_dropSeg {s : State} {b : Nat} (h : s.Sound) : (s.dropSeg b).Sound := by
  unfold State.dropSeg; repeat' first | (simp (maxDischargeDepth := 60) +contextual [*]; done) | split

@[simp ↓] theorem sound_poisonTrace {s : State} {i : Nat} (h : s.Sound) : (s.poisonTrace i).Sound := by
  unfold State.poisonTrace; repeat' first | (simp (maxDischargeDepth := 60) +contextual [*]; done) | split

theorem sound_execSramUncorrectable {dt region unit : Nat} {s : State} {t : State} (h : s.Sound)
    (e : execSramUncorrectable dt region unit s = .next t) :
    t.Sound := by
  unfold execSramUncorrectable at e; refine sound_act (fun u hu => ?_) h e
  repeat' (first
    | (simp (maxDischargeDepth := 60) +contextual [*]; done)
    | simp only [sound_mk, soundOf_parts]
    | with_reducible refine sound_foldl _ (fun t x ht => ?_) ?_
    | with_reducible refine sound_foldl_fst _ (fun t b x ht => ?_) ?_
    | with_reducible refine sound_ite (fun _ => ?_) (fun _ => ?_)
    | split | with_reducible refine sound_fst ?_ (by assumption) | with_reducible refine sound_snd ?_ (by assumption)
    | with_reducible refine sound_ringTake ?_ (by assumption)
    | with_reducible refine sound_calResults ?_ (by assumption)
    | with_reducible refine sound_modeCheck ?_ (by assumption)
    | dsimp only)

theorem sound_execSramScrub {dt region unit corrected : Nat} {s : State} {t : State} (h : s.Sound)
    (e : execSramScrub dt region unit corrected s = .next t) :
    t.Sound := by
  unfold execSramScrub at e; refine sound_act (fun u hu => ?_) h e; repeat' first | (simp (maxDischargeDepth := 60) +contextual [*]; done) | split

@[simp ↓] theorem sound_loseView {s : State} {v : Nat} (h : s.Sound) : (s.loseView v).Sound := by
  unfold State.loseView; repeat' first | (simp (maxDischargeDepth := 60) +contextual [*]; done) | split

@[simp ↓] theorem sound_loseQuays {s : State} (h : s.Sound) : s.loseQuays.Sound := by
  unfold State.loseQuays; repeat' first | (simp (maxDischargeDepth := 60) +contextual [*]; done) | split

@[simp ↓] theorem sound_loseStaging {s : State} (h : s.Sound) : s.loseStaging.Sound := by
  unfold State.loseStaging; repeat' first | (simp (maxDischargeDepth := 60) +contextual [*]; done) | split

@[simp ↓] theorem sound_loseScratch {s : State} (h : s.Sound) : s.loseScratch.Sound := by
  unfold State.loseScratch; repeat' first | (simp (maxDischargeDepth := 60) +contextual [*]; done) | split

@[simp ↓] theorem sound_loseChannel {s : State} {ch : Nat} (h : s.Sound) : (s.loseChannel ch).Sound := by
  unfold State.loseChannel; repeat' first | (simp (maxDischargeDepth := 60) +contextual [*]; done) | split

@[simp ↓] theorem sound_migrateFails {s : State} (h : s.Sound) : s.migrateFails.Sound := by
  unfold State.migrateFails; repeat' first | (simp (maxDischargeDepth := 60) +contextual [*]; done) | split

@[simp ↓] theorem sound_dramDead {s : State} {p : Nat} (h : s.Sound) : (s.dramDead p).Sound := by
  unfold State.dramDead
  repeat' (first
    | (simp (maxDischargeDepth := 60) +contextual [*]; done)
    | simp only [sound_mk, soundOf_parts]
    | with_reducible refine sound_foldl _ (fun t x ht => ?_) ?_
    | with_reducible refine sound_foldl_fst _ (fun t b x ht => ?_) ?_
    | with_reducible refine sound_ite (fun _ => ?_) (fun _ => ?_)
    | split | with_reducible refine sound_fst ?_ (by assumption) | with_reducible refine sound_snd ?_ (by assumption)
    | with_reducible refine sound_ringTake ?_ (by assumption)
    | with_reducible refine sound_calResults ?_ (by assumption)
    | with_reducible refine sound_modeCheck ?_ (by assumption)
    | dsimp only)

theorem sound_execDramPkgDead {dt pkg : Nat} {_cause : DramDeath} {s : State} {t : State} (h : s.Sound) (e :
    execDramPkgDead dt pkg _cause s = .next t) :
    t.Sound := by
  unfold execDramPkgDead at e; refine sound_act (fun u hu => ?_) h e; repeat' first | (simp (maxDischargeDepth := 60) +contextual [*]; done) | split

@[simp ↓] theorem sound_overrunTask {s : State} {t : Task} (h : s.Sound) : (s.overrunTask t).Sound := by
  unfold State.overrunTask; repeat' first | (simp (maxDischargeDepth := 60) +contextual [*]; done) | split

@[simp ↓] theorem sound_poisoned {s : State} {c : Consumer} (h : s.Sound) : (s.poisoned c).Sound := by
  unfold State.poisoned; repeat' first | (simp (maxDischargeDepth := 60) +contextual [*]; done) | split

theorem sound_execDramPoisonRead {dt pkg : Nat} {consumer : Consumer} {s : State} {t : State} (h : s.Sound)
    (e : execDramPoisonRead dt pkg consumer s = .next t) :
    t.Sound := by
  unfold execDramPoisonRead at e; refine sound_act (fun u hu => ?_) h e; repeat' first | (simp (maxDischargeDepth := 60) +contextual [*]; done) | split

theorem sound_execDramPatrol {dt : Nat} {corrected : List Nat} {s : State} {t : State} (h : s.Sound) (e :
    execDramPatrol dt corrected s = .next t) :
    t.Sound := by
  unfold execDramPatrol at e; refine sound_act (fun u hu => ?_) h e; repeat' first | (simp (maxDischargeDepth := 60) +contextual [*]; done) | split

@[simp ↓] theorem sound_migrateStart {s : State} {p : Nat} (h : s.Sound) : (s.migrateStart p).Sound := by
  unfold State.migrateStart; repeat' first | (simp (maxDischargeDepth := 60) +contextual [*]; done) | split

@[simp ↓] theorem sound_dramMigrate {s : State} {via : Path} {p : Nat} (h : s.Sound) : (s.dramMigrate via p).Sound := by
  unfold State.dramMigrate; repeat' first | (simp (maxDischargeDepth := 60) +contextual [*]; done) | split

theorem sound_execDramMigrate {dt : Nat} {via : Path} {pkg : Nat} {s : State} {t : State} (h : s.Sound)
    (e : execDramMigrate dt via pkg s = .next t) :
    t.Sound := by
  unfold execDramMigrate at e; refine sound_act (fun u hu => ?_) h e; repeat' first | (simp (maxDischargeDepth := 60) +contextual [*]; done) | split

@[simp ↓] theorem sound_migrateMarked {s : State} (h : s.Sound) : s.migrateMarked.Sound := by
  unfold State.migrateMarked; repeat' first | (simp (maxDischargeDepth := 60) +contextual [*]; done) | split

theorem sound_execDramMigrateDone {dt : Nat} {s : State} {t : State} (h : s.Sound)
    (e : execDramMigrateDone dt s = .next t) :
    t.Sound := by
  unfold execDramMigrateDone at e; refine sound_act (fun u hu => ?_) h e; repeat' first | (simp (maxDischargeDepth := 60) +contextual [*]; done) | split

@[simp ↓] theorem sound_dramSelftest {s : State} {via : Path} {p : Nat} (h : s.Sound) : (s.dramSelftest via p).Sound := by
  unfold State.dramSelftest; repeat' first | (simp (maxDischargeDepth := 60) +contextual [*]; done) | split

theorem sound_execDramSelftest {dt : Nat} {via : Path} {pkg : Nat} {s : State} {t : State} (h : s.Sound)
    (e : execDramSelftest dt via pkg s = .next t) :
    t.Sound := by
  unfold execDramSelftest at e; refine sound_act (fun u hu => ?_) h e; repeat' first | (simp (maxDischargeDepth := 60) +contextual [*]; done) | split

theorem sound_execDramSelftestDone {dt errors : Nat} {s : State} {t : State} (h : s.Sound)
    (e : execDramSelftestDone dt errors s = .next t) :
    t.Sound := by
  unfold execDramSelftestDone at e; refine sound_act (fun u hu => ?_) h e; repeat' first | (simp (maxDischargeDepth := 60) +contextual [*]; done) | split

theorem sound_execSpareDramCheck {dt : Nat} {s : State} {t : State} (h : s.Sound)
    (e : execSpareDramCheck dt s = .next t) :
    t.Sound := by
  unfold execSpareDramCheck at e; refine sound_act (fun u hu => ?_) h e; repeat' first | (simp (maxDischargeDepth := 60) +contextual [*]; done) | split

theorem sound_execSpareDramCheckDone {dt errors : Nat} {s : State} {t : State} (h : s.Sound)
    (e : execSpareDramCheckDone dt errors s = .next t) :
    t.Sound := by
  unfold execSpareDramCheckDone at e; refine sound_act (fun u hu => ?_) h e; repeat' first | (simp (maxDischargeDepth := 60) +contextual [*]; done) | split

theorem sound_execSupervisorRegionRebuilt {dt : Nat} {s : State} {t : State} (h : s.Sound)
    (e : execSupervisorRegionRebuilt dt s = .next t) :
    t.Sound := by
  unfold execSupervisorRegionRebuilt at e; refine sound_act (fun u hu => ?_) h e; repeat' first | (simp (maxDischargeDepth := 60) +contextual [*]; done) | split

@[simp ↓] theorem sound_memClear {s : State} {via : Path} (h : s.Sound) : (s.memClear via).Sound := by
  unfold State.memClear; repeat' first | (simp (maxDischargeDepth := 60) +contextual [*]; done) | split

theorem sound_execMemClear {dt : Nat} {via : Path} {s : State} {t : State} (h : s.Sound)
    (e : execMemClear dt via s = .next t) :
    t.Sound := by
  unfold execMemClear at e; refine sound_act (fun u hu => ?_) h e; repeat' first | (simp (maxDischargeDepth := 60) +contextual [*]; done) | split

end Sys2Proof.Machine
end

