-- ==== Sys2Proof/Laws/SoundJobs.lean ====
section
/-! SUPPORT. Laws/SoundJobs.lean: soundness is kept by the operations and commands of Machine/Jobs.lean. -/
namespace Sys2Proof.Machine
open Reg

@[simp ↓] theorem sound_loadFails {s : State} {result : Nat} (h : s.Sound) : (s.loadFails result).Sound := by
  unfold State.loadFails; repeat' first | (simp (maxDischargeDepth := 60) +contextual [*]; done) | split

@[simp ↓] theorem sound_loadTables {s : State} {p : Package} (h : s.Sound) : (s.loadTables p).Sound := by
  unfold State.loadTables
  repeat' (first
    | (simp (maxDischargeDepth := 60) +contextual [*]; done)
    | simp only [sound_mk, soundOf_parts]
    | with_reducible refine sound_foldl _ (fun t x ht => ?_) ?_
    | with_reducible refine sound_foldl_fst _ (fun t b x ht => ?_) ?_
    | with_reducible refine sound_ite (fun _ => ?_) (fun _ => ?_)
    | split | with_reducible refine sound_fst ?_ (by assumption) | with_reducible refine sound_snd ?_ (by assumption)
    | with_reducible refine sound_ringTake ?_ (by assumption)
    | with_reducible refine sound_calResults ?_ (by assumption)
    | with_reducible refine sound_modeCheck ?_ (by assumption)
    | dsimp only)

@[simp ↓] theorem sound_preload {s : State} {via : Path} (h : s.Sound) : (s.preload via).Sound := by
  unfold State.preload; repeat' first | (simp (maxDischargeDepth := 60) +contextual [*]; done) | split

theorem sound_execPreload {dt : Nat} {via : Path} {s : State} {t : State} (h : s.Sound)
    (e : execPreload dt via s = .next t) :
    t.Sound := by
  unfold execPreload at e; refine sound_act (fun u hu => ?_) h e; repeat' first | (simp (maxDischargeDepth := 60) +contextual [*]; done) | split

@[simp ↓] theorem sound_writeUp {s : State} {slot v : Nat} {b : List Byte} (h : s.Sound) : (s.writeUp slot v b).Sound := by
  unfold State.writeUp; repeat' first | (simp (maxDischargeDepth := 60) +contextual [*]; done) | split

@[simp ↓] theorem sound_writeRegions {s : State} {slot v h : Nat} {m : List Byte} (hs : s.Sound) : (s.writeRegions
    slot v h m).Sound := by
  unfold State.writeRegions; repeat' first | (simp (maxDischargeDepth := 60) +contextual [*]; done) | split

@[simp ↓] theorem sound_loadSlot {s : State} {p : Package} {jobSlot slot : Nat} {views : List Nat} (h : s.Sound) :
    (s.loadSlot p jobSlot slot views).Sound := by
  unfold State.loadSlot
  repeat' (first
    | (simp (maxDischargeDepth := 60) +contextual [*]; done)
    | simp only [sound_mk, soundOf_parts]
    | with_reducible refine sound_foldl _ (fun t x ht => ?_) ?_
    | with_reducible refine sound_foldl_fst _ (fun t b x ht => ?_) ?_
    | with_reducible refine sound_ite (fun _ => ?_) (fun _ => ?_)
    | split | with_reducible refine sound_fst ?_ (by assumption) | with_reducible refine sound_snd ?_ (by assumption)
    | with_reducible refine sound_ringTake ?_ (by assumption)
    | with_reducible refine sound_calResults ?_ (by assumption)
    | with_reducible refine sound_modeCheck ?_ (by assumption)
    | dsimp only)

@[simp ↓] theorem sound_reloadViews {s : State} (h : s.Sound) : s.reloadViews.Sound := by
  unfold State.reloadViews; repeat' first | (simp (maxDischargeDepth := 60) +contextual [*]; done) | split

@[simp ↓] theorem sound_applyPreset {s : State} {e : Preset} (h : s.Sound) : (s.applyPreset e).Sound := by
  unfold State.applyPreset; repeat' first | (simp (maxDischargeDepth := 60) +contextual [*]; done) | split

@[simp ↓] theorem sound_stampJob {s : State} {slot : Nat} (h : s.Sound) : (s.stampJob slot).Sound := by
  unfold State.stampJob; repeat' first | (simp (maxDischargeDepth := 60) +contextual [*]; done) | split

@[simp ↓] theorem sound_activateJob {s : State} {p : Package} {slot n c strip : Nat} (h : s.Sound) :
    (s.activateJob p slot n c strip).Sound := by
  unfold State.activateJob
  repeat' (first
    | (simp (maxDischargeDepth := 60) +contextual [*]; done)
    | simp only [sound_mk, soundOf_parts]
    | with_reducible refine sound_foldl _ (fun t x ht => ?_) ?_
    | with_reducible refine sound_foldl_fst _ (fun t b x ht => ?_) ?_
    | with_reducible refine sound_ite (fun _ => ?_) (fun _ => ?_)
    | split | with_reducible refine sound_fst ?_ (by assumption) | with_reducible refine sound_snd ?_ (by assumption)
    | with_reducible refine sound_ringTake ?_ (by assumption)
    | with_reducible refine sound_calResults ?_ (by assumption)
    | with_reducible refine sound_modeCheck ?_ (by assumption)
    | dsimp only)

@[simp ↓] theorem sound_armJob {s : State} {p : Package} (h : s.Sound) : (s.armJob p).Sound := by
  unfold State.armJob
  repeat' (first
    | (simp (maxDischargeDepth := 60) +contextual [*]; done)
    | simp only [sound_mk, soundOf_parts]
    | with_reducible refine sound_foldl _ (fun t x ht => ?_) ?_
    | with_reducible refine sound_foldl_fst _ (fun t b x ht => ?_) ?_
    | with_reducible refine sound_ite (fun _ => ?_) (fun _ => ?_)
    | split | with_reducible refine sound_fst ?_ (by assumption) | with_reducible refine sound_snd ?_ (by assumption)
    | with_reducible refine sound_ringTake ?_ (by assumption)
    | with_reducible refine sound_calResults ?_ (by assumption)
    | with_reducible refine sound_modeCheck ?_ (by assumption)
    | dsimp only)

@[simp ↓] theorem sound_switchArm {s : State} {via : Path} (h : s.Sound) : (s.switchArm via).Sound := by
  unfold State.switchArm; repeat' first | (simp (maxDischargeDepth := 60) +contextual [*]; done) | split

theorem sound_execSwitchArm {dt : Nat} {via : Path} {s : State} {t : State} (h : s.Sound)
    (e : execSwitchArm dt via s = .next t) :
    t.Sound := by
  unfold execSwitchArm at e; refine sound_act (fun u hu => ?_) h e; repeat' first | (simp (maxDischargeDepth := 60) +contextual [*]; done) | split

@[simp ↓] theorem sound_disarm {s : State} (h : s.Sound) : s.disarm.Sound := by
  unfold State.disarm; repeat' first | (simp (maxDischargeDepth := 60) +contextual [*]; done) | split

@[simp ↓] theorem sound_switchCancel {s : State} {via : Path} (h : s.Sound) : (s.switchCancel via).Sound := by
  unfold State.switchCancel; repeat' first | (simp (maxDischargeDepth := 60) +contextual [*]; done) | split

theorem sound_execSwitchCancel {dt : Nat} {via : Path} {s : State} {t : State} (h : s.Sound)
    (e : execSwitchCancel dt via s = .next t) :
    t.Sound := by
  unfold execSwitchCancel at e; refine sound_act (fun u hu => ?_) h e; repeat' first | (simp (maxDischargeDepth := 60) +contextual [*]; done) | split

@[simp ↓] theorem sound_loadEnds {s : State} {p : Package} {slot : Nat} (h : s.Sound) : (s.loadEnds p slot).Sound :=
    by
  unfold State.loadEnds; repeat' first | (simp (maxDischargeDepth := 60) +contextual [*]; done) | split

@[simp ↓] theorem sound_loadJobEnds {s : State} {p : Package} {slot : Nat} (h : s.Sound) : (s.loadJobEnds p
    slot).Sound := by
  unfold State.loadJobEnds
  repeat' (first
    | (simp (maxDischargeDepth := 60) +contextual [*]; done)
    | simp only [sound_mk, soundOf_parts]
    | with_reducible refine sound_foldl _ (fun t x ht => ?_) ?_
    | with_reducible refine sound_foldl_fst _ (fun t b x ht => ?_) ?_
    | with_reducible refine sound_ite (fun _ => ?_) (fun _ => ?_)
    | split | with_reducible refine sound_fst ?_ (by assumption) | with_reducible refine sound_snd ?_ (by assumption)
    | with_reducible refine sound_ringTake ?_ (by assumption)
    | with_reducible refine sound_calResults ?_ (by assumption)
    | with_reducible refine sound_modeCheck ?_ (by assumption)
    | dsimp only)

@[simp ↓] theorem sound_viewsLoaded {s : State} (h : s.Sound) : s.viewsLoaded.Sound := by
  unfold State.viewsLoaded; repeat' first | (simp (maxDischargeDepth := 60) +contextual [*]; done) | split

@[simp ↓] theorem sound_jobLoaded {s : State} (h : s.Sound) : s.jobLoaded.Sound := by
  unfold State.jobLoaded; repeat' first | (simp (maxDischargeDepth := 60) +contextual [*]; done) | split

theorem sound_execLoadComplete {dt : Nat} {s : State} {t : State} (h : s.Sound)
    (e : execLoadComplete dt s = .next t) :
    t.Sound := by
  unfold execLoadComplete at e; refine sound_act (fun u hu => ?_) h e
  repeat' (first
    | (simp (maxDischargeDepth := 60) +contextual [*]; done)
    | simp only [sound_mk, soundOf_parts]
    | with_reducible refine sound_foldl _ (fun t x ht => ?_) ?_
    | with_reducible refine sound_foldl_fst _ (fun t b x ht => ?_) ?_
    | with_reducible refine sound_ite (fun _ => ?_) (fun _ => ?_)
    | split | with_reducible refine sound_fst ?_ (by assumption) | with_reducible refine sound_snd ?_ (by assumption)
    | with_reducible refine sound_ringTake ?_ (by assumption)
    | with_reducible refine sound_calResults ?_ (by assumption)
    | with_reducible refine sound_modeCheck ?_ (by assumption)
    | dsimp only)

end Sys2Proof.Machine
end

