-- ==== Sys2Proof/Laws/SoundTransitions.lean ====
section
/-! SUPPORT. Laws/SoundTransitions.lean: soundness is kept by the operations and commands of Machine/Transitions.lean. -/
namespace Sys2Proof.Machine
open Reg

@[simp ↓] theorem sound_substituteUnits {s : State} (h : s.Sound) : s.substituteUnits.Sound := by
  unfold State.substituteUnits
  repeat' (first
    | (simp (maxDischargeDepth := 60) +contextual [*]; done)
    | simp only [sound_mk, soundOf_parts]
    | with_reducible refine sound_foldl _ (fun t x ht => ?_) ?_
    | with_reducible refine sound_foldl_fst _ (fun t b x ht => ?_) ?_
    | with_reducible refine sound_ite (fun _ => ?_) (fun _ => ?_)
    | split | with_reducible refine sound_fst ?_ (by assumption) | with_reducible refine sound_snd ?_ (by assumption)
    | with_reducible refine sound_ringTake ?_ (by assumption)
    | with_reducible refine sound_calResults ?_ (by assumption)
    | with_reducible refine sound_modeCheck ?_ (by assumption)
    | dsimp only)

@[simp ↓] theorem sound_readyEntry {s : State} (h : s.Sound) : s.readyEntry.Sound := by
  unfold State.readyEntry; repeat' first | (simp (maxDischargeDepth := 60) +contextual [*]; done) | split

@[simp ↓] theorem sound_afterChange {s : State} {old line : Nat} {standing : Bool} (h : s.Sound) :
    (s.afterChange old line standing).Sound := by
  unfold State.afterChange; repeat' first | (simp (maxDischargeDepth := 60) +contextual [*]; done) | split

@[simp ↓] theorem sound_atStandstill {s : State} (h : s.Sound) : s.atStandstill.Sound := by
  unfold State.atStandstill; repeat' first | (simp (maxDischargeDepth := 60) +contextual [*]; done) | split

@[simp ↓] theorem sound_atStrip {s : State} {line : Nat} (h : s.Sound) : (s.atStrip line).Sound := by
  unfold State.atStrip; repeat' first | (simp (maxDischargeDepth := 60) +contextual [*]; done) | split

end Sys2Proof.Machine
end

