-- ==== Sys2Proof/Laws/SoundMotion.lean ====
section
/-! SUPPORT. Laws/SoundMotion.lean: soundness is kept by the operations and commands of Machine/Motion.lean. -/
namespace Sys2Proof.Machine
open Reg

@[simp ↓] theorem sound_encFault {s : State} {b : Nat} (h : s.Sound) : (s.encFault b).Sound := by
  unfold State.encFault; repeat' first | (simp (maxDischargeDepth := 60) +contextual [*]; done) | split

@[simp ↓] theorem sound_encClear {s : State} {b : Nat} (h : s.Sound) : (s.encClear b).Sound := by
  unfold State.encClear; repeat' first | (simp (maxDischargeDepth := 60) +contextual [*]; done) | split

@[simp ↓] theorem sound_obsReport {s : State} (h : s.Sound) : s.obsReport.Sound := by
  unfold State.obsReport; repeat' first | (simp (maxDischargeDepth := 60) +contextual [*]; done) | split

@[simp ↓] theorem sound_obsFreeze {s : State} {state held : Nat} (h : s.Sound) : (s.obsFreeze state held).Sound := by
  unfold State.obsFreeze; repeat' first | (simp (maxDischargeDepth := 60) +contextual [*]; done) | split

@[simp ↓] theorem sound_obsRelease {s : State} {fwd : Bool} {c ns : Nat} (h : s.Sound) : (s.obsRelease fwd c ns).Sound := by
  unfold State.obsRelease; repeat' first | (simp (maxDischargeDepth := 60) +contextual [*]; done) | split

@[simp ↓] theorem sound_obsCount {s : State} {fwd : Bool} {old new : Nat} (h : s.Sound) :
    (s.obsCount fwd old new).Sound := by
  unfold State.obsCount; repeat' first | (simp (maxDischargeDepth := 60) +contextual [*]; done) | split

@[simp ↓] theorem sound_modPulse {s : State} {n : Nat} {f : Pulse → Pulse} (h : s.Sound) : (s.modPulse n f).Sound := by
  unfold State.modPulse; repeat' first | (simp (maxDischargeDepth := 60) +contextual [*]; done) | split

@[simp ↓] theorem sound_pulseChange {s : State} {n : Nat} {fwd : Bool} (h : s.Sound) : (s.pulseChange n fwd).Sound := by
  unfold State.pulseChange; repeat' first | (simp (maxDischargeDepth := 60) +contextual [*]; done) | split

@[simp ↓] theorem sound_pulseStep {s : State} {n : Nat} {fwd : Bool} (h : s.Sound) : (s.pulseStep n fwd).Sound := by
  unfold State.pulseStep; repeat' first | (simp (maxDischargeDepth := 60) +contextual [*]; done) | split

@[simp ↓] theorem sound_pulseSource {s : State} {src : Nat} {fwd : Bool} (h : s.Sound) : (s.pulseSource src fwd).Sound := by
  unfold State.pulseSource; repeat' first | (simp (maxDischargeDepth := 60) +contextual [*]; done) | split

@[simp ↓] theorem sound_slipCheck {s : State} (h : s.Sound) : s.slipCheck.Sound := by
  unfold State.slipCheck; repeat' first | (simp (maxDischargeDepth := 60) +contextual [*]; done) | split

@[simp ↓] theorem sound_webTo {s : State} {c : Nat} {wrapped : Bool} (h : s.Sound) : (s.webTo c wrapped).Sound := by
  unfold State.webTo; repeat' first | (simp (maxDischargeDepth := 60) +contextual [*]; done) | split

@[simp ↓] theorem sound_webCounts {s : State} {fwd : Bool} {n : Nat} (h : s.Sound) : (s.webCounts fwd n).Sound := by
  unfold State.webCounts; repeat' first | (simp (maxDischargeDepth := 60) +contextual [*]; done) | split

@[simp ↓] theorem sound_webMove {s : State} {d : Int} (h : s.Sound) : (s.webMove d).Sound := by
  unfold State.webMove; repeat' first | (simp (maxDischargeDepth := 60) +contextual [*]; done) | split

@[simp ↓] theorem sound_auxCount {s : State} {i : Nat} {fwd : Bool} (h : s.Sound) : (s.auxCount i fwd).Sound := by
  unfold State.auxCount; repeat' first | (simp (maxDischargeDepth := 60) +contextual [*]; done) | split

@[simp ↓] theorem sound_auxCounts {s : State} {i : Nat} {fwd : Bool} {n : Nat} (h : s.Sound) :
    (s.auxCounts i fwd n).Sound := by
  unfold State.auxCounts; repeat' first | (simp (maxDischargeDepth := 60) +contextual [*]; done) | split

@[simp ↓] theorem sound_sinCosMove {s : State} {input : Nat} {d : Int} (h : s.Sound) : (s.sinCosMove input d).Sound := by
  unfold State.sinCosMove; repeat' first | (simp (maxDischargeDepth := 60) +contextual [*]; done) | split

@[simp ↓] theorem sound_illegalChange {s : State} (h : s.Sound) : s.illegalChange.Sound := by
  unfold State.illegalChange; repeat' first | (simp (maxDischargeDepth := 60) +contextual [*]; done) | split

theorem sound_execEncCount {dt : Nat} {a b : Bool} {held : Nat} {s : State} {t : State} (h : s.Sound)
    (e : execEncCount dt a b held s = .next t) :
    t.Sound := by
  unfold execEncCount at e; refine sound_act (fun u hu => ?_) h e
  repeat' (first
    | (simp (maxDischargeDepth := 60) +contextual [*]; done)
    | simp only [sound_mk, soundOf_parts]
    | with_reducible refine sound_foldl _ (fun t x ht => ?_) ?_
    | with_reducible refine sound_foldl_fst _ (fun t b x ht => ?_) ?_
    | with_reducible refine sound_ite (fun _ => ?_) (fun _ => ?_)
    | split | with_reducible refine sound_fst ?_ (by assumption) | with_reducible refine sound_snd ?_ (by assumption)
    | with_reducible refine sound_ringTake ?_ (by assumption)
    | with_reducible refine sound_calResults ?_ (by assumption)
    | with_reducible refine sound_modeCheck ?_ (by assumption)
    | dsimp only)

theorem sound_execEncWireFault {dt line lowNs : Nat} {s : State} {t : State} (h : s.Sound)
    (e : execEncWireFault dt line lowNs s = .next t) :
    t.Sound := by
  unfold execEncWireFault at e; refine sound_act (fun u hu => ?_) h e; repeat' first | (simp (maxDischargeDepth := 60) +contextual [*]; done) | split

theorem sound_execWireClear {dt : Nat} {s : State} {t : State} (h : s.Sound)
    (e : execWireClear dt s = .next t) :
    t.Sound := by
  unfold execWireClear at e; refine sound_act (fun u hu => ?_) h e; repeat' first | (simp (maxDischargeDepth := 60) +contextual [*]; done) | split

@[simp ↓] theorem sound_modSinCos {s : State} {i : Nat} {f : SinCos → SinCos} (h : s.Sound) : (s.modSinCos i f).Sound := by
  unfold State.modSinCos; repeat' first | (simp (maxDischargeDepth := 60) +contextual [*]; done) | split

@[simp ↓] theorem sound_overrate {s : State} {input periodNs : Nat} (h : s.Sound) : (s.overrate input periodNs).Sound := by
  unfold State.overrate; repeat' first | (simp (maxDischargeDepth := 60) +contextual [*]; done) | split

theorem sound_execSincosQuadrantEdge {dt input quadrant periodNs : Nat} {s : State} {t : State} (h : s.Sound)
    (e : execSincosQuadrantEdge dt input quadrant periodNs s = .next t) :
    t.Sound := by
  unfold execSincosQuadrantEdge at e; refine sound_act (fun u hu => ?_) h e
  repeat' (first
    | (simp (maxDischargeDepth := 60) +contextual [*]; done)
    | simp only [sound_mk, soundOf_parts]
    | with_reducible refine sound_foldl _ (fun t x ht => ?_) ?_
    | with_reducible refine sound_foldl_fst _ (fun t b x ht => ?_) ?_
    | with_reducible refine sound_ite (fun _ => ?_) (fun _ => ?_)
    | split | with_reducible refine sound_fst ?_ (by assumption) | with_reducible refine sound_snd ?_ (by assumption)
    | with_reducible refine sound_ringTake ?_ (by assumption)
    | with_reducible refine sound_calResults ?_ (by assumption)
    | with_reducible refine sound_modeCheck ?_ (by assumption)
    | dsimp only)

@[simp ↓] theorem sound_pollFails {s : State} (h : s.Sound) : s.pollFails.Sound := by
  unfold State.pollFails; repeat' first | (simp (maxDischargeDepth := 60) +contextual [*]; done) | split

@[simp ↓] theorem sound_pollGives {s : State} {pos : Nat} (h : s.Sound) : (s.pollGives pos).Sound := by
  unfold State.pollGives; repeat' first | (simp (maxDischargeDepth := 60) +contextual [*]; done) | split

theorem sound_execEncSerialPoll {dt : Nat} {s : State} {t : State} (h : s.Sound)
    (e : execEncSerialPoll dt s = .next t) :
    t.Sound := by
  unfold execEncSerialPoll at e; refine sound_act (fun u hu => ?_) h e; repeat' first | (simp (maxDischargeDepth := 60) +contextual [*]; done) | split

theorem sound_execEncSerialPollDone {dt word : Nat} {idle : Bool} {s : State} {t : State} (h : s.Sound)
    (e : execEncSerialPollDone dt word idle s = .next t) :
    t.Sound := by
  unfold execEncSerialPollDone at e; refine sound_act (fun u hu => ?_) h e; repeat' first | (simp (maxDischargeDepth := 60) +contextual [*]; done) | split

theorem sound_execIndex {edge : ZEdge} {s : State} {t : State} (h : s.Sound) (e : execIndex edge s = .next t) :
    t.Sound := by
  unfold execIndex at e; refine sound_act (fun u hu => ?_) h e; repeat' first | (simp (maxDischargeDepth := 60) +contextual [*]; done) | split

@[simp ↓] theorem sound_obsStep {s : State} (h : s.Sound) : s.obsStep.Sound := by
  unfold State.obsStep; repeat' first | (simp (maxDischargeDepth := 60) +contextual [*]; done) | split

theorem sound_execObsUpdate {dt : Nat} {s : State} {t : State} (h : s.Sound)
    (e : execObsUpdate dt s = .next t) :
    t.Sound := by
  unfold execObsUpdate at e; refine sound_act (fun u hu => ?_) h e; repeat' first | (simp (maxDischargeDepth := 60) +contextual [*]; done) | split

theorem sound_execEncStandstill {dt : Nat} {s : State} {t : State} (h : s.Sound)
    (e : execEncStandstill dt s = .next t) :
    t.Sound := by
  unfold execEncStandstill at e; refine sound_act (fun u hu => ?_) h e; repeat' first | (simp (maxDischargeDepth := 60) +contextual [*]; done) | split

@[simp ↓] theorem sound_modCyl {s : State} {f : Cyl → Cyl} (h : s.Sound) : (s.modCyl f).Sound := by
  unfold State.modCyl; repeat' first | (simp (maxDischargeDepth := 60) +contextual [*]; done) | split

@[simp ↓] theorem sound_addStart {s : State} {x : Nat} (h : s.Sound) : (s.addStart x).Sound := by
  unfold State.addStart; repeat' first | (simp (maxDischargeDepth := 60) +contextual [*]; done) | split

@[simp ↓] theorem sound_cylReference {s : State} {c edges : Nat} (h : s.Sound) : (s.cylReference c edges).Sound := by
  unfold State.cylReference
  repeat' (first
    | (simp (maxDischargeDepth := 60) +contextual [*]; done)
    | simp only [sound_mk, soundOf_parts]
    | with_reducible refine sound_foldl _ (fun t x ht => ?_) ?_
    | with_reducible refine sound_foldl_fst _ (fun t b x ht => ?_) ?_
    | with_reducible refine sound_ite (fun _ => ?_) (fun _ => ?_)
    | split | with_reducible refine sound_fst ?_ (by assumption) | with_reducible refine sound_snd ?_ (by assumption)
    | with_reducible refine sound_ringTake ?_ (by assumption)
    | with_reducible refine sound_calResults ?_ (by assumption)
    | with_reducible refine sound_modeCheck ?_ (by assumption)
    | dsimp only)

@[simp ↓] theorem sound_cylMiss {s : State} (h : s.Sound) : s.cylMiss.Sound := by
  unfold State.cylMiss; repeat' first | (simp (maxDischargeDepth := 60) +contextual [*]; done) | split

@[simp ↓] theorem sound_toothNormal {s : State} {p : Nat} (h : s.Sound) : (s.toothNormal p).Sound := by
  unfold State.toothNormal; repeat' first | (simp (maxDischargeDepth := 60) +contextual [*]; done) | split

@[simp ↓] theorem sound_toothEvaluate {s : State} {y : Cyl} {c pk : Nat} (h : s.Sound) :
    (s.toothEvaluate y c pk).Sound := by
  unfold State.toothEvaluate; repeat' first | (simp (maxDischargeDepth := 60) +contextual [*]; done) | split

@[simp ↓] theorem sound_toothRestart {s : State} (h : s.Sound) : s.toothRestart.Sound := by
  unfold State.toothRestart; repeat' first | (simp (maxDischargeDepth := 60) +contextual [*]; done) | split

@[simp ↓] theorem sound_toothEdge {s : State} (h : s.Sound) : s.toothEdge.Sound := by
  unfold State.toothEdge
  repeat' (first
    | (simp (maxDischargeDepth := 60) +contextual [*]; done)
    | simp only [sound_mk, soundOf_parts]
    | with_reducible refine sound_foldl _ (fun t x ht => ?_) ?_
    | with_reducible refine sound_foldl_fst _ (fun t b x ht => ?_) ?_
    | with_reducible refine sound_ite (fun _ => ?_) (fun _ => ?_)
    | split | with_reducible refine sound_fst ?_ (by assumption) | with_reducible refine sound_snd ?_ (by assumption)
    | with_reducible refine sound_ringTake ?_ (by assumption)
    | with_reducible refine sound_calResults ?_ (by assumption)
    | with_reducible refine sound_modeCheck ?_ (by assumption)
    | dsimp only)

theorem sound_execCylToothEdge {dt : Nat} {s : State} {t : State} (h : s.Sound)
    (e : execCylToothEdge dt s = .next t) :
    t.Sound := by
  unfold execCylToothEdge at e; refine sound_act (fun u hu => ?_) h e
  repeat' (first
    | (simp (maxDischargeDepth := 60) +contextual [*]; done)
    | simp only [sound_mk, soundOf_parts]
    | with_reducible refine sound_foldl _ (fun t x ht => ?_) ?_
    | with_reducible refine sound_foldl_fst _ (fun t b x ht => ?_) ?_
    | with_reducible refine sound_ite (fun _ => ?_) (fun _ => ?_)
    | split | with_reducible refine sound_fst ?_ (by assumption) | with_reducible refine sound_snd ?_ (by assumption)
    | with_reducible refine sound_ringTake ?_ (by assumption)
    | with_reducible refine sound_calResults ?_ (by assumption)
    | with_reducible refine sound_modeCheck ?_ (by assumption)
    | dsimp only)

theorem sound_execAuxCount {dt input : Nat} {a b : Bool} {held : Nat} {s : State} {t : State} (h : s.Sound)
    (e : execAuxCount dt input a b held s = .next t) :
    t.Sound := by
  unfold execAuxCount at e; refine sound_act (fun u hu => ?_) h e
  repeat' (first
    | (simp (maxDischargeDepth := 60) +contextual [*]; done)
    | simp only [sound_mk, soundOf_parts]
    | with_reducible refine sound_foldl _ (fun t x ht => ?_) ?_
    | with_reducible refine sound_foldl_fst _ (fun t b x ht => ?_) ?_
    | with_reducible refine sound_ite (fun _ => ?_) (fun _ => ?_)
    | split | with_reducible refine sound_fst ?_ (by assumption) | with_reducible refine sound_snd ?_ (by assumption)
    | with_reducible refine sound_ringTake ?_ (by assumption)
    | with_reducible refine sound_calResults ?_ (by assumption)
    | with_reducible refine sound_modeCheck ?_ (by assumption)
    | dsimp only)

theorem sound_execPulseEdge {dt n : Nat} {s : State} {t : State} (h : s.Sound)
    (e : execPulseEdge dt n s = .next t) :
    t.Sound := by
  unfold execPulseEdge at e; refine sound_act (fun u hu => ?_) h e
  repeat' (first
    | (simp (maxDischargeDepth := 60) +contextual [*]; done)
    | simp only [sound_mk, soundOf_parts]
    | with_reducible refine sound_foldl _ (fun t x ht => ?_) ?_
    | with_reducible refine sound_foldl_fst _ (fun t b x ht => ?_) ?_
    | with_reducible refine sound_ite (fun _ => ?_) (fun _ => ?_)
    | split | with_reducible refine sound_fst ?_ (by assumption) | with_reducible refine sound_snd ?_ (by assumption)
    | with_reducible refine sound_ringTake ?_ (by assumption)
    | with_reducible refine sound_calResults ?_ (by assumption)
    | with_reducible refine sound_modeCheck ?_ (by assumption)
    | dsimp only)

@[simp ↓] theorem sound_writePulseDivider {s : State} {via : Path} {n : Nat} {isQ : Bool} {v : Nat} (h : s.Sound) :
    (s.writePulseDivider via n isQ v).Sound := by
  unfold State.writePulseDivider; repeat' first | (simp (maxDischargeDepth := 60) +contextual [*]; done) | split

theorem sound_execPulseDividerWrite {dt : Nat} {via : Path} {n : Nat} {isQ : Bool} {value : Nat} {s : State} {t :
    State} (h : s.Sound)     (e : execPulseDividerWrite dt via n isQ value s = .next t) :
    t.Sound := by
  unfold execPulseDividerWrite at e; refine sound_act (fun u hu => ?_) h e; repeat' first | (simp (maxDischargeDepth := 60) +contextual [*]; done) | split

@[simp ↓] theorem sound_motionClear {s : State} (h : s.Sound) : s.motionClear.Sound := by
  unfold State.motionClear; repeat' first | (simp (maxDischargeDepth := 60) +contextual [*]; done) | split

theorem sound_execMotionClear {dt : Nat} {via : Path} {s : State} {t : State} (h : s.Sound)
    (e : execMotionClear dt via s = .next t) :
    t.Sound := by
  unfold execMotionClear at e; refine sound_act (fun u hu => ?_) h e; repeat' first | (simp (maxDischargeDepth := 60) +contextual [*]; done) | split

end Sys2Proof.Machine
end

