-- ==== Sys2Proof/Laws/SoundFilterChain.lean ====
section
/-! SUPPORT. Laws/SoundFilterChain.lean: soundness is kept by the operations and commands of Machine/FilterChain.lean. -/
namespace Sys2Proof.Machine
open Reg

@[simp ↓] theorem sound_modGrp {s : State} {g : Nat} {f : FGroup → FGroup} (h : s.Sound) : (s.modGrp g f).Sound := by
  unfold State.modGrp; repeat' first | (simp (maxDischargeDepth := 60) +contextual [*]; done) | split

@[simp ↓] theorem sound_swapBanks {s : State} {g : Nat} (h : s.Sound) : (s.swapBanks g).Sound := by
  unfold State.swapBanks; repeat' first | (simp (maxDischargeDepth := 60) +contextual [*]; done) | split

@[simp ↓] theorem sound_endFade {s : State} {g : Nat} (h : s.Sound) : (s.endFade g).Sound := by
  unfold State.endFade; repeat' first | (simp (maxDischargeDepth := 60) +contextual [*]; done) | split

@[simp ↓] theorem sound_filterReset {s : State} {g : Nat} (h : s.Sound) : (s.filterReset g).Sound := by
  unfold State.filterReset; repeat' first | (simp (maxDischargeDepth := 60) +contextual [*]; done) | split

@[simp ↓] theorem sound_storeFilter {s : State} {g : Nat} (h : s.Sound) : (s.storeFilter g).Sound := by
  unfold State.storeFilter; repeat' first | (simp (maxDischargeDepth := 60) +contextual [*]; done) | split

@[simp ↓] theorem sound_writeDet {s : State} {via : Path} {o : Obj} {d v : Nat} (h : s.Sound) :
    (s.writeDet via o d v).Sound := by
  unfold State.writeDet; repeat' first | (simp (maxDischargeDepth := 60) +contextual [*]; done) | split

@[simp ↓] theorem sound_writePreset {s : State} {via : Path} {g v : Nat} (h : s.Sound) : (s.writePreset via g v).Sound := by
  unfold State.writePreset; repeat' first | (simp (maxDischargeDepth := 60) +contextual [*]; done) | split

theorem sound_execFcPresetWrite {dt : Nat} {via : Path} {group value : Nat} {s : State} {t : State} (h : s.Sound)
    (e : execFcPresetWrite dt via group value s = .next t) :
    t.Sound := by
  unfold execFcPresetWrite at e; refine sound_act (fun u hu => ?_) h e; repeat' first | (simp (maxDischargeDepth := 60) +contextual [*]; done) | split

@[simp ↓] theorem sound_writeCoef {s : State} {via : Path} {g : Nat} {b : List Byte} (h : s.Sound) :
    (s.writeCoef via g b).Sound := by
  unfold State.writeCoef; repeat' first | (simp (maxDischargeDepth := 60) +contextual [*]; done) | split

@[simp ↓] theorem sound_coefCommit {s : State} {via : Path} {g : Nat} (h : s.Sound) : (s.coefCommit via g).Sound := by
  unfold State.coefCommit; repeat' first | (simp (maxDischargeDepth := 60) +contextual [*]; done) | split

theorem sound_execFcCoefCommit {dt : Nat} {via : Path} {group : Nat} {s : State} {t : State} (h : s.Sound)
    (e : execFcCoefCommit dt via group s = .next t) :
    t.Sound := by
  unfold execFcCoefCommit at e; refine sound_act (fun u hu => ?_) h e; repeat' first | (simp (maxDischargeDepth := 60) +contextual [*]; done) | split

@[simp ↓] theorem sound_coefFactory {s : State} {via : Path} {g : Nat} (h : s.Sound) : (s.coefFactory via g).Sound := by
  unfold State.coefFactory; repeat' first | (simp (maxDischargeDepth := 60) +contextual [*]; done) | split

theorem sound_execFcCoefFactory {dt : Nat} {via : Path} {group : Nat} {s : State} {t : State} (h : s.Sound)
    (e : execFcCoefFactory dt via group s = .next t) :
    t.Sound := by
  unfold execFcCoefFactory at e; refine sound_act (fun u hu => ?_) h e; repeat' first | (simp (maxDischargeDepth := 60) +contextual [*]; done) | split

@[simp ↓] theorem sound_filterSync {s : State} {via : Path} {mask : Nat} (h : s.Sound) : (s.filterSync via mask).Sound := by
  unfold State.filterSync; repeat' first | (simp (maxDischargeDepth := 60) +contextual [*]; done) | split

theorem sound_execFcSync {dt : Nat} {via : Path} {mask : Nat} {s : State} {t : State} (h : s.Sound)
    (e : execFcSync dt via mask s = .next t) :
    t.Sound := by
  unfold execFcSync at e; refine sound_act (fun u hu => ?_) h e; repeat' first | (simp (maxDischargeDepth := 60) +contextual [*]; done) | split

@[simp ↓] theorem sound_captureRun {s : State} (h : s.Sound) : s.captureRun.Sound := by
  unfold State.captureRun; repeat' first | (simp (maxDischargeDepth := 60) +contextual [*]; done) | split

theorem sound_execFcCaptureRun {dt : Nat} {via : Path} {s : State} {t : State} (h : s.Sound)
    (e : execFcCaptureRun dt via s = .next t) :
    t.Sound := by
  unfold execFcCaptureRun at e; refine sound_act (fun u hu => ?_) h e; repeat' first | (simp (maxDischargeDepth := 60) +contextual [*]; done) | split

@[simp ↓] theorem sound_filterClear {s : State} {via : Path} (h : s.Sound) : (s.filterClear via).Sound := by
  unfold State.filterClear; repeat' first | (simp (maxDischargeDepth := 60) +contextual [*]; done) | split

theorem sound_execFcClear {dt : Nat} {via : Path} {s : State} {t : State} (h : s.Sound)
    (e : execFcClear dt via s = .next t) :
    t.Sound := by
  unfold execFcClear at e; refine sound_act (fun u hu => ?_) h e; repeat' first | (simp (maxDischargeDepth := 60) +contextual [*]; done) | split

@[simp ↓] theorem sound_chanOutput {s : State} {c : Nat} {y : Int} {settling fading : Bool} (h : s.Sound) :
    (s.chanOutput c y settling fading).Sound := by
  unfold State.chanOutput; repeat' first | (simp (maxDischargeDepth := 60) +contextual [*]; done) | split

@[simp ↓] theorem sound_amplitudeCheck {s : State} {input : Nat} (h : s.Sound) : (s.amplitudeCheck input).Sound := by
  unfold State.amplitudeCheck; repeat' first | (simp (maxDischargeDepth := 60) +contextual [*]; done) | split

@[simp ↓] theorem sound_fractionFollows {s : State} {input : Nat} (h : s.Sound) : (s.fractionFollows input).Sound := by
  unfold State.fractionFollows; repeat' first | (simp (maxDischargeDepth := 60) +contextual [*]; done) | split

@[simp ↓] theorem sound_encoderOutput {s : State} {input : Nat} {settling : Bool} (h : s.Sound) :
    (s.encoderOutput input settling).Sound := by
  unfold State.encoderOutput; repeat' first | (simp (maxDischargeDepth := 60) +contextual [*]; done) | split

@[simp ↓] theorem sound_photoOutput {s : State} {settling : Bool} (h : s.Sound) : (s.photoOutput settling).Sound := by
  unfold State.photoOutput; repeat' first | (simp (maxDischargeDepth := 60) +contextual [*]; done) | split

@[simp ↓] theorem sound_captureOutput {s : State} {g : Nat} (h : s.Sound) : (s.captureOutput g).Sound := by
  unfold State.captureOutput; repeat' first | (simp (maxDischargeDepth := 60) +contextual [*]; done) | split

@[simp ↓] theorem sound_groupOutput {s : State} {g : Nat} {words : List Nat} (h : s.Sound) : (s.groupOutput g
    words).Sound := by
  unfold State.groupOutput
  repeat' (first
    | with_reducible assumption
    | simp only [sound_mk, soundOf_parts]
    | with_reducible refine sound_modGrp ?_
    | with_reducible refine sound_chanOutput ?_
    | with_reducible refine sound_swapBanks ?_
    | with_reducible refine sound_emit ?_
    | with_reducible refine sound_encoderOutput ?_
    | with_reducible refine sound_photoOutput ?_
    | with_reducible refine sound_captureOutput ?_
    | with_reducible refine sound_detGroupSample ?_
    | with_reducible refine sound_foldl _ (fun t x ht => ?_) ?_
    | with_reducible refine sound_foldl_fst _ (fun t b x ht => ?_) ?_
    | with_reducible refine sound_ite (fun _ => ?_) (fun _ => ?_)
    | with_reducible refine sound_set ?_ | split | with_reducible refine sound_fst ?_ (by assumption) | with_reducible refine sound_snd ?_ (by assumption)
    | with_reducible refine sound_ringTake ?_ (by assumption)
    | with_reducible refine sound_calResults ?_ (by assumption)
    | with_reducible refine sound_modeCheck ?_ (by assumption)
    | (intro _; try dsimp only)
    | dsimp only)

theorem sound_execFilterOutput {dt group : Nat} {words : List Nat} {s : State} {t : State} (h : s.Sound) (e :
    execFilterOutput dt group words s = .next t) :
    t.Sound := by
  unfold execFilterOutput at e; refine sound_act (fun u hu => ?_) h e; repeat' first | (simp (maxDischargeDepth := 60) +contextual [*]; done) | split

end Sys2Proof.Machine
end

