-- ==== Sys2Proof/Laws/SoundLaneCommands.lean ====
section
/-! SUPPORT. Laws/SoundLaneCommands.lean: soundness is kept by the operations and commands of Machine/LaneCommands.lean. -/
namespace Sys2Proof.Machine
open Reg

@[simp ↓] theorem sound_linesDown {s : State} (h : s.Sound) : s.linesDown.Sound := by
  unfold State.linesDown; repeat' first | (simp (maxDischargeDepth := 60) +contextual [*]; done) | split

theorem sound_execCxpDiscoveryDone {dt bay : Nat} {cam : Option CxpCamera} {s : State} {t : State} (h : s.Sound)
    (e : execCxpDiscoveryDone dt bay cam s = .next t) :
    t.Sound := by
  unfold execCxpDiscoveryDone at e; refine sound_act (fun u hu => ?_) h e; repeat' first | (simp (maxDischargeDepth := 60) +contextual [*]; done) | split

theorem sound_execCxpStepUpTimeout {dt bay : Nat} {s : State} {t : State} (h : s.Sound)
    (e : execCxpStepUpTimeout dt bay s = .next t) :
    t.Sound := by
  unfold execCxpStepUpTimeout at e; refine sound_act (fun u hu => ?_) h e; repeat' first | (simp (maxDischargeDepth := 60) +contextual [*]; done) | split

theorem sound_execLaneStepDone {dt quad lane lanesOffered : Nat} {s : State} {t : State} (h : s.Sound)
    (e : execLaneStepDone dt quad lane lanesOffered s = .next t) :
    t.Sound := by
  unfold execLaneStepDone at e; refine sound_act (fun u hu => ?_) h e
  repeat' (first
    | (simp (maxDischargeDepth := 60) +contextual [*]; done)
    | simp only [sound_mk, soundOf_parts]
    | with_reducible refine sound_foldl _ (fun t x ht => ?_) ?_
    | with_reducible refine sound_foldl_fst _ (fun t b x ht => ?_) ?_
    | with_reducible refine sound_ite (fun _ => ?_) (fun _ => ?_)
    | split | with_reducible refine sound_fst ?_ (by assumption) | with_reducible refine sound_snd ?_ (by assumption)
    | with_reducible refine sound_ringTake ?_ (by assumption)
    | with_reducible refine sound_calResults ?_ (by assumption)
    | with_reducible refine sound_modeCheck ?_ (by assumption)
    | dsimp only)

theorem sound_execLaneStepTimeout {dt quad lane : Nat} {s : State} {t : State} (h : s.Sound)
    (e : execLaneStepTimeout dt quad lane s = .next t) :
    t.Sound := by
  unfold execLaneStepTimeout at e; refine sound_act (fun u hu => ?_) h e
  repeat' (first
    | (simp (maxDischargeDepth := 60) +contextual [*]; done)
    | simp only [sound_mk, soundOf_parts]
    | with_reducible refine sound_foldl _ (fun t x ht => ?_) ?_
    | with_reducible refine sound_foldl_fst _ (fun t b x ht => ?_) ?_
    | with_reducible refine sound_ite (fun _ => ?_) (fun _ => ?_)
    | split | with_reducible refine sound_fst ?_ (by assumption) | with_reducible refine sound_snd ?_ (by assumption)
    | with_reducible refine sound_ringTake ?_ (by assumption)
    | with_reducible refine sound_calResults ?_ (by assumption)
    | with_reducible refine sound_modeCheck ?_ (by assumption)
    | dsimp only)

theorem sound_execLaneRetrainFail {dt quad lane : Nat} {s : State} {t : State} (h : s.Sound)
    (e : execLaneRetrainFail dt quad lane s = .next t) :
    t.Sound := by
  unfold execLaneRetrainFail at e; refine sound_act (fun u hu => ?_) h e; repeat' first | (simp (maxDischargeDepth := 60) +contextual [*]; done) | split

theorem sound_execPocxpOverload {dt bay milliwatt overMs : Nat} {short : Bool} {s : State} {t : State} (h : s.Sound)
    (e : execPocxpOverload dt bay milliwatt overMs short s = .next t) :
    t.Sound := by
  unfold execPocxpOverload at e; refine sound_act (fun u hu => ?_) h e; repeat' first | (simp (maxDischargeDepth := 60) +contextual [*]; done) | split

end Sys2Proof.Machine
end

