-- ==== Sys2Proof/Laws/SoundPower.lean ====
section
/-! SUPPORT. Laws/SoundPower.lean: soundness is kept by the operations and commands of Machine/Power.lean. -/
namespace Sys2Proof.Machine
open Reg

@[simp ↓] theorem sound_powerCheck {s : State} (h : s.Sound) : s.powerCheck.Sound := by
  unfold State.powerCheck; repeat' first | (simp (maxDischargeDepth := 60) +contextual [*]; done) | split

theorem sound_execPowerCheck {dt : Nat} {s : State} {t : State} (h : s.Sound)
    (e : execPowerCheck dt s = .next t) :
    t.Sound := by
  unfold execPowerCheck at e; refine sound_act (fun u hu => ?_) h e; repeat' first | (simp (maxDischargeDepth := 60) +contextual [*]; done) | split

theorem sound_execPsuStageFault {dt stage : Nat} {s : State} {t : State} (h : s.Sound)
    (e : execPsuStageFault dt stage s = .next t) :
    t.Sound := by
  unfold execPsuStageFault at e; refine sound_act (fun u hu => ?_) h e; repeat' first | (simp (maxDischargeDepth := 60) +contextual [*]; done) | split

@[simp ↓] theorem sound_lineState {s : State} {st : Nat} (h : s.Sound) : (s.lineState st).Sound := by
  unfold State.lineState; repeat' first | (simp (maxDischargeDepth := 60) +contextual [*]; done) | split

theorem sound_execMainsHalfCycle {dt peakV rmsDeciV centiHz : Nat} {s : State} {t : State} (h : s.Sound)
    (e : execMainsHalfCycle dt peakV rmsDeciV centiHz s = .next t) :
    t.Sound := by
  unfold execMainsHalfCycle at e; refine sound_act (fun u hu => ?_) h e
  repeat' (first
    | (simp (maxDischargeDepth := 60) +contextual [*]; done)
    | simp only [sound_mk, soundOf_parts]
    | with_reducible refine sound_foldl _ (fun t x ht => ?_) ?_
    | with_reducible refine sound_foldl_fst _ (fun t b x ht => ?_) ?_
    | with_reducible refine sound_ite (fun _ => ?_) (fun _ => ?_)
    | split | with_reducible refine sound_fst ?_ (by assumption) | with_reducible refine sound_snd ?_ (by assumption)
    | with_reducible refine sound_ringTake ?_ (by assumption)
    | with_reducible refine sound_calResults ?_ (by assumption)
    | with_reducible refine sound_modeCheck ?_ (by assumption)
    | dsimp only)

theorem sound_execMainsLoss {dt : Nat} {s : State} {t : State} (h : s.Sound)
    (e : execMainsLoss dt s = .next t) :
    t.Sound := by
  unfold execMainsLoss at e; refine sound_act (fun u hu => ?_) h e; repeat' first | (simp (maxDischargeDepth := 60) +contextual [*]; done) | split

@[simp ↓] theorem sound_powerDown {s : State} (h : s.Sound) : s.powerDown.Sound := by
  unfold State.powerDown; repeat' first | (simp (maxDischargeDepth := 60) +contextual [*]; done) | split

theorem sound_execMainsPowerDown {dt : Nat} {s : State} {t : State} (h : s.Sound)
    (e : execMainsPowerDown dt s = .next t) :
    t.Sound := by
  unfold execMainsPowerDown at e; refine sound_act (fun u hu => ?_) h e; repeat' first | (simp (maxDischargeDepth := 60) +contextual [*]; done) | split

theorem sound_execTempSample {dt : Nat} {dieMc inletMc : Int} {s : State} {t : State} (h : s.Sound)
    (e : execTempSample dt dieMc inletMc s = .next t) :
    t.Sound := by
  unfold execTempSample at e; refine sound_act (fun u hu => ?_) h e; repeat' first | (simp (maxDischargeDepth := 60) +contextual [*]; done) | split

theorem sound_execThermalTrip {dt : Nat} {s : State} {t : State} (h : s.Sound)
    (e : execThermalTrip dt s = .next t) :
    t.Sound := by
  unfold execThermalTrip at e; refine sound_act (fun u hu => ?_) h e; repeat' first | (simp (maxDischargeDepth := 60) +contextual [*]; done) | split

theorem sound_execWdtExpiry {dt : Nat} {s : State} {t : State} (h : s.Sound)
    (e : execWdtExpiry dt s = .next t) :
    t.Sound := by
  unfold execWdtExpiry at e; refine sound_act (fun u hu => ?_) h e; repeat' first | (simp (maxDischargeDepth := 60) +contextual [*]; done) | split

@[simp ↓] theorem sound_islandFailed {s : State} {i : Nat} (h : s.Sound) : (s.islandFailed i).Sound := by
  unfold State.islandFailed; repeat' first | (simp (maxDischargeDepth := 60) +contextual [*]; done) | split

@[simp ↓] theorem sound_islandFail {s : State} {i : Nat} (h : s.Sound) : (s.islandFail i).Sound := by
  unfold State.islandFail; repeat' first | (simp (maxDischargeDepth := 60) +contextual [*]; done) | split

theorem sound_execIslandRelease {dt island cycles : Nat} {s : State} {t : State} (h : s.Sound)
    (e : execIslandRelease dt island cycles s = .next t) :
    t.Sound := by
  unfold execIslandRelease at e; refine sound_act (fun u hu => ?_) h e; repeat' first | (simp (maxDischargeDepth := 60) +contextual [*]; done) | split

theorem sound_execIslandLockTimeout {dt island : Nat} {s : State} {t : State} (h : s.Sound)
    (e : execIslandLockTimeout dt island s = .next t) :
    t.Sound := by
  unfold execIslandLockTimeout at e; refine sound_act (fun u hu => ?_) h e; repeat' first | (simp (maxDischargeDepth := 60) +contextual [*]; done) | split

theorem sound_execIslandWake {dt island : Nat} {s : State} {t : State} (h : s.Sound)
    (e : execIslandWake dt island s = .next t) :
    t.Sound := by
  unfold execIslandWake at e; refine sound_act (fun u hu => ?_) h e; repeat' first | (simp (maxDischargeDepth := 60) +contextual [*]; done) | split

theorem sound_execMooringToken {dt island : Nat} {s : State} {t : State} (h : s.Sound)
    (e : execMooringToken dt island s = .next t) :
    t.Sound := by
  unfold execMooringToken at e; refine sound_act (fun u hu => ?_) h e; repeat' first | (simp (maxDischargeDepth := 60) +contextual [*]; done) | split

@[simp ↓] theorem sound_riseStart {s : State} (h : s.Sound) : s.riseStart.Sound := by
  unfold State.riseStart; repeat' first | (simp (maxDischargeDepth := 60) +contextual [*]; done) | split

theorem sound_execDomainPowergood {dt domain : Nat} {s : State} {t : State} (h : s.Sound)
    (e : execDomainPowergood dt domain s = .next t) :
    t.Sound := by
  unfold execDomainPowergood at e; refine sound_act (fun u hu => ?_) h e; repeat' first | (simp (maxDischargeDepth := 60) +contextual [*]; done) | split

theorem sound_execDomainPowergoodTimeout {dt domain : Nat} {s : State} {t : State} (h : s.Sound)
    (e : execDomainPowergoodTimeout dt domain s = .next t) :
    t.Sound := by
  unfold execDomainPowergoodTimeout at e; refine sound_act (fun u hu => ?_) h e; repeat' first | (simp (maxDischargeDepth := 60) +contextual [*]; done) | split

@[simp ↓] theorem sound_reviveJob {s : State} (h : s.Sound) : s.reviveJob.Sound := by
  unfold State.reviveJob
  repeat' (first
    | (simp (maxDischargeDepth := 60) +contextual [*]; done)
    | simp only [sound_mk, soundOf_parts]
    | with_reducible refine sound_foldl _ (fun t x ht => ?_) ?_
    | with_reducible refine sound_foldl_fst _ (fun t b x ht => ?_) ?_
    | with_reducible refine sound_ite (fun _ => ?_) (fun _ => ?_)
    | split | with_reducible refine sound_fst ?_ (by assumption) | with_reducible refine sound_snd ?_ (by assumption)
    | with_reducible refine sound_ringTake ?_ (by assumption)
    | with_reducible refine sound_calResults ?_ (by assumption)
    | with_reducible refine sound_modeCheck ?_ (by assumption)
    | dsimp only)

@[simp ↓] theorem sound_startWindow {s : State} {k : Nat} (h : s.Sound) : (s.startWindow k).Sound := by
  unfold State.startWindow; repeat' first | (simp (maxDischargeDepth := 60) +contextual [*]; done) | split

@[simp ↓] theorem sound_restoreEvents {s : State} (h : s.Sound) : s.restoreEvents.Sound := by
  unfold State.restoreEvents; repeat' first | (simp (maxDischargeDepth := 60) +contextual [*]; done) | split

@[simp ↓] theorem sound_enterReady {s : State} (h : s.Sound) : s.enterReady.Sound := by
  unfold State.enterReady; repeat' first | (simp (maxDischargeDepth := 60) +contextual [*]; done) | split

theorem sound_execBringupEnd {dt : Nat} {s : State} {t : State} (h : s.Sound)
    (e : execBringupEnd dt s = .next t) :
    t.Sound := by
  unfold execBringupEnd at e; refine sound_act (fun u hu => ?_) h e; repeat' first | (simp (maxDischargeDepth := 60) +contextual [*]; done) | split

@[simp ↓] theorem sound_powerClear {s : State} {via : Path} (h : s.Sound) : (s.powerClear via).Sound := by
  unfold State.powerClear; repeat' first | (simp (maxDischargeDepth := 60) +contextual [*]; done) | split

theorem sound_execPowerClear {dt : Nat} {via : Path} {s : State} {t : State} (h : s.Sound)
    (e : execPowerClear dt via s = .next t) :
    t.Sound := by
  unfold execPowerClear at e; refine sound_act (fun u hu => ?_) h e; repeat' first | (simp (maxDischargeDepth := 60) +contextual [*]; done) | split

end Sys2Proof.Machine
end

