-- ==== Sys2Proof/Laws/SoundModeRequest.lean ====
section
/-! SUPPORT. Laws/SoundModeRequest.lean: soundness is kept by the operations and commands of Machine/ModeRequest.lean. -/
namespace Sys2Proof.Machine
open Reg

@[simp ↓] theorem sound_dataChecks {s : State} (h : s.Sound) : s.dataChecks.1.Sound := by
  unfold State.dataChecks; repeat' first | (simp (maxDischargeDepth := 60) +contextual [*]; done) | split

@[simp ↓] theorem sound_inspectCheck {s : State} (h : s.Sound) : s.inspectCheck.1.Sound := by
  unfold State.inspectCheck; repeat' first | (simp (maxDischargeDepth := 60) +contextual [*]; done) | split

@[simp ↓] theorem sound_makereadyCheck {s : State} (h : s.Sound) : s.makereadyCheck.1.Sound := by
  unfold State.makereadyCheck; repeat' first | (simp (maxDischargeDepth := 60) +contextual [*]; done) | split

@[simp ↓] theorem sound_calibrateCheck {s : State} (h : s.Sound) : s.calibrateCheck.1.Sound := by
  unfold State.calibrateCheck; repeat' first | (simp (maxDischargeDepth := 60) +contextual [*]; done) | split

theorem sound_modeCheck {s t : State} {m target b : Nat} (h0 : s.Sound) (e : s.modeCheck m target = some (t, b)) :
    t.Sound := by
  unfold State.modeCheck at e
  split at e
  all_goals first
    | with_reducible exact sound_fst (sound_makereadyCheck h0) (Option.some.inj e)
    | with_reducible exact sound_fst (sound_calibrateCheck h0) (Option.some.inj e)
    | with_reducible exact sound_fst (sound_inspectCheck h0) (Option.some.inj e)
    | with_reducible exact sound_fst (x := (s, _)) (show (s, _).1.Sound from h0) (Option.some.inj e)
    | cases e

@[simp ↓] theorem sound_coverFlushed {s : State} {v : Nat} {x : CStrip} (h : s.Sound) : (s.coverFlushed v x).Sound := by
  unfold State.coverFlushed; repeat' first | (simp (maxDischargeDepth := 60) +contextual [*]; done) | split

@[simp ↓] theorem sound_flushStrip {s : State} {v : Nat} {x : CStrip} (h : s.Sound) : (s.flushStrip v x).Sound := by
  unfold State.flushStrip
  repeat' (first
    | (simp (maxDischargeDepth := 60) +contextual [*]; done)
    | simp only [sound_mk, soundOf_parts]
    | with_reducible refine sound_foldl _ (fun t x ht => ?_) ?_
    | with_reducible refine sound_foldl_fst _ (fun t b x ht => ?_) ?_
    | with_reducible refine sound_ite (fun _ => ?_) (fun _ => ?_)
    | split | with_reducible refine sound_fst ?_ (by assumption) | with_reducible refine sound_snd ?_ (by assumption)
    | with_reducible refine sound_ringTake ?_ (by assumption)
    | with_reducible refine sound_calResults ?_ (by assumption)
    | with_reducible refine sound_modeCheck ?_ (by assumption)
    | dsimp only)

@[simp ↓] theorem sound_reopenStrip {s : State} {v : Nat} (h : s.Sound) : (s.reopenStrip v).Sound := by
  unfold State.reopenStrip
  repeat' (first
    | (simp (maxDischargeDepth := 60) +contextual [*]; done)
    | simp only [sound_mk, soundOf_parts]
    | with_reducible refine sound_foldl _ (fun t x ht => ?_) ?_
    | with_reducible refine sound_foldl_fst _ (fun t b x ht => ?_) ?_
    | with_reducible refine sound_ite (fun _ => ?_) (fun _ => ?_)
    | split | with_reducible refine sound_fst ?_ (by assumption) | with_reducible refine sound_snd ?_ (by assumption)
    | with_reducible refine sound_ringTake ?_ (by assumption)
    | with_reducible refine sound_calResults ?_ (by assumption)
    | with_reducible refine sound_modeCheck ?_ (by assumption)
    | dsimp only)

@[simp ↓] theorem sound_dropInFlight {s : State} (h : s.Sound) : s.dropInFlight.Sound := by
  unfold State.dropInFlight; repeat' first | (simp (maxDischargeDepth := 60) +contextual [*]; done) | split

@[simp ↓] theorem sound_finishMosaics {s : State} (h : s.Sound) : s.finishMosaics.Sound := by
  unfold State.finishMosaics; repeat' first | (simp (maxDischargeDepth := 60) +contextual [*]; done) | split

@[simp ↓] theorem sound_flushPath {s : State} (h : s.Sound) : s.flushPath.Sound := by
  unfold State.flushPath; repeat' first | (simp (maxDischargeDepth := 60) +contextual [*]; done) | split

@[simp ↓] theorem sound_dropOpen {s before : State} (h : s.Sound) : (s.dropOpen before).Sound := by
  unfold State.dropOpen; repeat' first | (simp (maxDischargeDepth := 60) +contextual [*]; done) | split

@[simp ↓] theorem sound_leaveReady {s : State} (h : s.Sound) : s.leaveReady.Sound := by
  unfold State.leaveReady; repeat' first | (simp (maxDischargeDepth := 60) +contextual [*]; done) | split

@[simp ↓] theorem sound_modeRefuse {s : State} {via : Path} {target result : Nat} (h : s.Sound) :
    (s.modeRefuse via target result).Sound := by
  unfold State.modeRefuse; repeat' first | (simp (maxDischargeDepth := 60) +contextual [*]; done) | split

@[simp ↓] theorem sound_requestHold {s : State} (h : s.Sound) : s.requestHold.Sound := by
  unfold State.requestHold; repeat' first | (simp (maxDischargeDepth := 60) +contextual [*]; done) | split

@[simp ↓] theorem sound_modeAccept {s : State} {target : Nat} (h : s.Sound) : (s.modeAccept target).Sound := by
  unfold State.modeAccept; repeat' first | (simp (maxDischargeDepth := 60) +contextual [*]; done) | split

@[simp ↓] theorem sound_requestMode {s : State} {via : Path} {target : Nat} (h : s.Sound) :
    (s.requestMode via target).Sound := by
  unfold State.requestMode
  repeat' (first
    | (simp (maxDischargeDepth := 60) +contextual [*]; done)
    | simp only [sound_mk, soundOf_parts]
    | with_reducible refine sound_modeResult ?_
    | with_reducible refine sound_accept ?_
    | with_reducible refine sound_modeRefuse ?_
    | with_reducible refine sound_modeAccept ?_
    | with_reducible refine sound_foldl _ (fun t x ht => ?_) ?_
    | with_reducible refine sound_foldl_fst _ (fun t b x ht => ?_) ?_
    | with_reducible refine sound_ite (fun _ => ?_) (fun _ => ?_)
    | split | with_reducible refine sound_fst ?_ (by assumption) | with_reducible refine sound_snd ?_ (by assumption)
    | with_reducible refine sound_ringTake ?_ (by assumption)
    | with_reducible refine sound_calResults ?_ (by assumption)
    | with_reducible refine sound_modeCheck ?_ (by assumption)
    | (intro _; try dsimp only)
    | dsimp only)

@[simp ↓] theorem sound_modeRequest {s : State} {via : Path} {target : Nat} (h : s.Sound) :
    (s.modeRequest via target).Sound := by
  unfold State.modeRequest; repeat' first | (simp (maxDischargeDepth := 60) +contextual [*]; done) | split

theorem sound_execModeRequest {dt : Nat} {via : Path} {code : Nat} {s : State} {t : State} (h : s.Sound)
    (e : execModeRequest dt via code s = .next t) :
    t.Sound := by
  unfold execModeRequest at e; refine sound_act (fun u hu => ?_) h e; repeat' first | (simp (maxDischargeDepth := 60) +contextual [*]; done) | split

theorem sound_execHoldExitFlush {dt : Nat} {s : State} {t : State} (h : s.Sound)
    (e : execHoldExitFlush dt s = .next t) :
    t.Sound := by
  unfold execHoldExitFlush at e; refine sound_act (fun u hu => ?_) h e; repeat' first | (simp (maxDischargeDepth := 60) +contextual [*]; done) | split

end Sys2Proof.Machine
end

