-- ==== Sys2Proof/Laws/SoundTrigger.lean ====
section
/-! SUPPORT. Laws/SoundTrigger.lean: soundness is kept by the operations and commands of Machine/Trigger.lean. -/
namespace Sys2Proof.Machine
open Reg

@[simp ↓] theorem sound_lineFallen {s : State} {n : Nat} (h : s.Sound) : (s.lineFallen n).Sound := by
  unfold State.lineFallen
  repeat' (first
    | (simp (maxDischargeDepth := 60) +contextual [*]; done)
    | simp only [sound_mk, soundOf_parts]
    | with_reducible refine sound_foldl _ (fun t x ht => ?_) ?_
    | with_reducible refine sound_foldl_fst _ (fun t b x ht => ?_) ?_
    | with_reducible refine sound_ite (fun _ => ?_) (fun _ => ?_)
    | split | with_reducible refine sound_fst ?_ (by assumption) | with_reducible refine sound_snd ?_ (by assumption)
    | with_reducible refine sound_ringTake ?_ (by assumption)
    | with_reducible refine sound_calResults ?_ (by assumption)
    | with_reducible refine sound_modeCheck ?_ (by assumption)
    | dsimp only)

@[simp ↓] theorem sound_trigEdge {s : State} {b at_ : Nat} {rise : Bool} (h : s.Sound) : (s.trigEdge b at_
    rise).Sound := by
  unfold State.trigEdge; repeat' first | (simp (maxDischargeDepth := 60) +contextual [*]; done) | split

@[simp ↓] theorem sound_clipped {s : State} {b e : Nat} (h : s.Sound) : (s.clipped b e).Sound := by
  unfold State.clipped; repeat' first | (simp (maxDischargeDepth := 60) +contextual [*]; done) | split

@[simp ↓] theorem sound_clipTriggers {s : State} (h : s.Sound) : s.clipTriggers.Sound := by
  unfold State.clipTriggers
  repeat' (first
    | (simp (maxDischargeDepth := 60) +contextual [*]; done)
    | simp only [sound_mk, soundOf_parts]
    | with_reducible refine sound_tally ?_
    | with_reducible refine sound_lineFallen ?_
    | with_reducible refine sound_foldl _ (fun t x ht => ?_) ?_
    | with_reducible refine sound_foldl_fst _ (fun t b x ht => ?_) ?_
    | with_reducible refine sound_ite (fun _ => ?_) (fun _ => ?_)
    | split | with_reducible refine sound_fst ?_ (by assumption) | with_reducible refine sound_snd ?_ (by assumption)
    | with_reducible refine sound_ringTake ?_ (by assumption)
    | with_reducible refine sound_calResults ?_ (by assumption)
    | with_reducible refine sound_modeCheck ?_ (by assumption)
    | (intro _; try dsimp only)
    | dsimp only)

@[simp ↓] theorem sound_trigDown {s : State} {bay : Nat} (h : s.Sound) : (s.trigDown bay).Sound := by
  unfold State.trigDown; repeat' first | (simp (maxDischargeDepth := 60) +contextual [*]; done) | split

@[simp ↓] theorem sound_triggerFalls {s : State} {bay e : Nat} (h : s.Sound) : (s.triggerFalls bay e).Sound := by
  unfold State.triggerFalls; repeat' first | (simp (maxDischargeDepth := 60) +contextual [*]; done) | split

theorem sound_execTriggerWidthEnd {dt bay : Nat} {s : State} {t : State} (h : s.Sound)
    (e : execTriggerWidthEnd dt bay s = .next t) :
    t.Sound := by
  unfold execTriggerWidthEnd at e; refine sound_act (fun u hu => ?_) h e; repeat' first | (simp (maxDischargeDepth := 60) +contextual [*]; done) | split

@[simp ↓] theorem sound_applyHeld {s : State} {a : Acc} (h : s.Sound) : (s.applyHeld a).Sound := by
  unfold State.applyHeld
  repeat' (first
    | (simp (maxDischargeDepth := 60) +contextual [*]; done)
    | simp only [sound_mk, soundOf_parts]
    | with_reducible refine sound_foldl _ (fun t x ht => ?_) ?_
    | with_reducible refine sound_foldl_fst _ (fun t b x ht => ?_) ?_
    | with_reducible refine sound_ite (fun _ => ?_) (fun _ => ?_)
    | split | with_reducible refine sound_fst ?_ (by assumption) | with_reducible refine sound_snd ?_ (by assumption)
    | with_reducible refine sound_ringTake ?_ (by assumption)
    | with_reducible refine sound_calResults ?_ (by assumption)
    | with_reducible refine sound_modeCheck ?_ (by assumption)
    | dsimp only)

@[simp ↓] theorem sound_stripStart {s : State} {n : Nat} (h : s.Sound) : (s.stripStart n).Sound := by
  unfold State.stripStart; repeat' first | (simp (maxDischargeDepth := 60) +contextual [*]; done) | split

@[simp ↓] theorem sound_dropStarts {s : State} {c : Nat} (h : s.Sound) : (s.dropStarts c).Sound := by
  unfold State.dropStarts; repeat' first | (simp (maxDischargeDepth := 60) +contextual [*]; done) | split

@[simp ↓] theorem sound_fixMark {s : State} {l : PLine} {prev : Nat} (h : s.Sound) : (s.fixMark l prev).Sound := by
  unfold State.fixMark
  repeat' (first
    | (simp (maxDischargeDepth := 60) +contextual [*]; done)
    | simp only [sound_mk, soundOf_parts]
    | with_reducible refine sound_foldl _ (fun t x ht => ?_) ?_
    | with_reducible refine sound_foldl_fst _ (fun t b x ht => ?_) ?_
    | with_reducible refine sound_ite (fun _ => ?_) (fun _ => ?_)
    | split | with_reducible refine sound_fst ?_ (by assumption) | with_reducible refine sound_snd ?_ (by assumption)
    | with_reducible refine sound_ringTake ?_ (by assumption)
    | with_reducible refine sound_calResults ?_ (by assumption)
    | with_reducible refine sound_modeCheck ?_ (by assumption)
    | dsimp only)

@[simp ↓] theorem sound_acquired {s : State} {l : PLine} {a : Nat} {r : Rep} (h : s.Sound) : (s.acquired l a
    r).1.Sound := by
  unfold State.acquired; repeat' first | (simp (maxDischargeDepth := 60) +contextual [*]; done) | split

@[simp ↓] theorem sound_unlessShort {s : State} {short : Bool} {x : RepStart} (h : s.Sound) :
    (s.unlessShort short x).1.Sound := by
  unfold State.unlessShort; repeat' first | (simp (maxDischargeDepth := 60) +contextual [*]; done) | split

@[simp ↓] theorem sound_openStart {s : State} {r : Rep} {n : Nat} {l : PLine} {prev : Nat} (h : s.Sound) :
    (s.openStart r n l prev).1.Sound := by
  unfold State.openStart
  repeat' (first
    | (simp (maxDischargeDepth := 60) +contextual [*]; done)
    | simp only [sound_mk, soundOf_parts]
    | with_reducible refine sound_foldl _ (fun t x ht => ?_) ?_
    | with_reducible refine sound_foldl_fst _ (fun t b x ht => ?_) ?_
    | with_reducible refine sound_ite (fun _ => ?_) (fun _ => ?_)
    | split | with_reducible refine sound_fst ?_ (by assumption) | with_reducible refine sound_snd ?_ (by assumption)
    | with_reducible refine sound_ringTake ?_ (by assumption)
    | with_reducible refine sound_calResults ?_ (by assumption)
    | with_reducible refine sound_modeCheck ?_ (by assumption)
    | dsimp only)

@[simp ↓] theorem sound_repeatStart {s : State} {n : Nat} {l : PLine} {prev : Nat} (h : s.Sound) :
    (s.repeatStart n l prev).1.Sound := by
  unfold State.repeatStart
  repeat' (first
    | (simp (maxDischargeDepth := 60) +contextual [*]; done)
    | simp only [sound_mk, soundOf_parts]
    | with_reducible refine sound_foldl _ (fun t x ht => ?_) ?_
    | with_reducible refine sound_foldl_fst _ (fun t b x ht => ?_) ?_
    | with_reducible refine sound_ite (fun _ => ?_) (fun _ => ?_)
    | split | with_reducible refine sound_fst ?_ (by assumption) | with_reducible refine sound_snd ?_ (by assumption)
    | with_reducible refine sound_ringTake ?_ (by assumption)
    | with_reducible refine sound_calResults ?_ (by assumption)
    | with_reducible refine sound_modeCheck ?_ (by assumption)
    | dsimp only)

@[simp ↓] theorem sound_newOffset {s before : State} (h : s.Sound) : (s.newOffset before).Sound := by
  unfold State.newOffset; repeat' first | (simp (maxDischargeDepth := 60) +contextual [*]; done) | split

@[simp ↓] theorem sound_entryPhase {s : State} {l : PLine} {prev : Nat} (h : s.Sound) : (s.entryPhase l prev).1.Sound := by
  unfold State.entryPhase
  repeat' (first
    | (simp (maxDischargeDepth := 60) +contextual [*]; done)
    | simp only [sound_mk, soundOf_parts]
    | with_reducible refine sound_foldl _ (fun t x ht => ?_) ?_
    | with_reducible refine sound_foldl_fst _ (fun t b x ht => ?_) ?_
    | with_reducible refine sound_ite (fun _ => ?_) (fun _ => ?_)
    | split | with_reducible refine sound_fst ?_ (by assumption) | with_reducible refine sound_snd ?_ (by assumption)
    | with_reducible refine sound_ringTake ?_ (by assumption)
    | with_reducible refine sound_calResults ?_ (by assumption)
    | with_reducible refine sound_modeCheck ?_ (by assumption)
    | dsimp only)

@[simp ↓] theorem sound_startRepeat {s : State} {n : Nat} {l : PLine} {r : RepStart} (h : s.Sound) :
    (s.startRepeat n l r).Sound := by
  unfold State.startRepeat
  repeat' (first
    | (simp (maxDischargeDepth := 60) +contextual [*]; done)
    | simp only [sound_mk, soundOf_parts]
    | with_reducible refine sound_foldl _ (fun t x ht => ?_) ?_
    | with_reducible refine sound_foldl_fst _ (fun t b x ht => ?_) ?_
    | with_reducible refine sound_ite (fun _ => ?_) (fun _ => ?_)
    | split | with_reducible refine sound_fst ?_ (by assumption) | with_reducible refine sound_snd ?_ (by assumption)
    | with_reducible refine sound_ringTake ?_ (by assumption)
    | with_reducible refine sound_calResults ?_ (by assumption)
    | with_reducible refine sound_modeCheck ?_ (by assumption)
    | dsimp only)

@[simp ↓] theorem sound_switchLine {s : State} {n : Nat} {l : PLine} (h : s.Sound) : (s.switchLine n l).Sound := by
  unfold State.switchLine; repeat' first | (simp (maxDischargeDepth := 60) +contextual [*]; done) | split

@[simp ↓] theorem sound_changeOnStart {s : State} {n : Nat} (h : s.Sound) : (s.changeOnStart n).Sound := by
  unfold State.changeOnStart; repeat' first | (simp (maxDischargeDepth := 60) +contextual [*]; done) | split

@[simp ↓] theorem sound_lineStart {s : State} {n : Nat} {l : PLine} {prev : Nat} (h : s.Sound) :
    (s.lineStart n l prev).1.Sound := by
  unfold State.lineStart; repeat' first | (simp (maxDischargeDepth := 60) +contextual [*]; done) | split

@[simp ↓] theorem sound_lineTurn {s : State} {n : Nat} {l : PLine} {sw start leaves : Bool} (h : s.Sound) :
    (s.lineTurn n l sw start leaves).Sound := by
  unfold State.lineTurn; repeat' first | (simp (maxDischargeDepth := 60) +contextual [*]; done) | split

@[simp ↓] theorem sound_lineOpen {s : State} {n : Nat} {l : PLine} {prev : Nat} {fresh : Bool} {start : Option
    RepStart} (h : s.Sound) :
    (s.lineOpen n l prev fresh start).Sound := by
  unfold State.lineOpen; repeat' first | (simp (maxDischargeDepth := 60) +contextual [*]; done) | split

@[simp ↓] theorem sound_lineChanges {s : State} {n : Nat} {l : PLine} {prev : Nat} (h : s.Sound) :
    (s.lineChanges n l prev).Sound := by
  unfold State.lineChanges
  repeat' (first
    | with_reducible assumption
    | simp only [sound_mk, soundOf_parts]
    | with_reducible refine sound_lineStart ?_
    | with_reducible refine sound_lineTurn ?_
    | with_reducible refine sound_lineOpen ?_
    | with_reducible refine sound_foldl _ (fun t x ht => ?_) ?_
    | with_reducible refine sound_foldl_fst _ (fun t b x ht => ?_) ?_
    | with_reducible refine sound_ite (fun _ => ?_) (fun _ => ?_)
    | with_reducible refine sound_set ?_ | split | with_reducible refine sound_fst ?_ (by assumption) | with_reducible refine sound_snd ?_ (by assumption)
    | with_reducible refine sound_ringTake ?_ (by assumption)
    | with_reducible refine sound_calResults ?_ (by assumption)
    | with_reducible refine sound_modeCheck ?_ (by assumption)
    | (intro _; try dsimp only)
    | dsimp only)

@[simp ↓] theorem sound_overspeedLine {s : State} {n : Nat} (h : s.Sound) : (s.overspeedLine n).Sound := by
  unfold State.overspeedLine; repeat' first | (simp (maxDischargeDepth := 60) +contextual [*]; done) | split

@[simp ↓] theorem sound_lineOut {s : State} {n : Nat} {l : PLine} {calib : Bool} (h : s.Sound) :
    (s.lineOut n l calib).Sound := by
  unfold State.lineOut; repeat' first | (simp (maxDischargeDepth := 60) +contextual [*]; done) | split

@[simp ↓] theorem sound_sendCount {s : State} (h : s.Sound) : s.sendCount.Sound := by
  unfold State.sendCount; repeat' first | (simp (maxDischargeDepth := 60) +contextual [*]; done) | split

@[simp ↓] theorem sound_tellStart {s : State} {n : Nat} (h : s.Sound) : (s.tellStart n).Sound := by
  unfold State.tellStart; repeat' first | (simp (maxDischargeDepth := 60) +contextual [*]; done) | split

theorem sound_execMarkSearchDone {dt rep : Nat} {s : State} {t : State} (h : s.Sound) (e : execMarkSearchDone dt rep
    s = .next t) :
    t.Sound := by
  unfold execMarkSearchDone at e; refine sound_act (fun u hu => ?_) h e; repeat' first | (simp (maxDischargeDepth := 60) +contextual [*]; done) | split

@[simp ↓] theorem sound_jobStarts {s : State} {c : Nat} (h : s.Sound) : (s.jobStarts c).Sound := by
  unfold State.jobStarts; repeat' first | (simp (maxDischargeDepth := 60) +contextual [*]; done) | split

@[simp ↓] theorem sound_issueLine {s : State} {l : PLine} {calib : Bool} (h : s.Sound) : (s.issueLine l calib).Sound := by
  unfold State.issueLine; repeat' first | (simp (maxDischargeDepth := 60) +contextual [*]; done) | split

@[simp ↓] theorem sound_deferred {s : State} {l : PLine} (h : s.Sound) : (s.deferred l).Sound := by
  unfold State.deferred; repeat' first | (simp (maxDischargeDepth := 60) +contextual [*]; done) | split

theorem sound_execTriggerIssue {dt : Nat} {s : State} {t : State} (h : s.Sound)
    (e : execTriggerIssue dt s = .next t) :
    t.Sound := by
  unfold execTriggerIssue at e; refine sound_act (fun u hu => ?_) h e; repeat' first | (simp (maxDischargeDepth := 60) +contextual [*]; done) | split

theorem sound_execCalLineTimer {dt : Nat} {s : State} {t : State} (h : s.Sound)
    (e : execCalLineTimer dt s = .next t) :
    t.Sound := by
  unfold execCalLineTimer at e; refine sound_act (fun u hu => ?_) h e; repeat' first | (simp (maxDischargeDepth := 60) +contextual [*]; done) | split

theorem sound_execWebCountSend {dt : Nat} {s : State} {t : State} (h : s.Sound)
    (e : execWebCountSend dt s = .next t) :
    t.Sound := by
  unfold execWebCountSend at e; refine sound_act (fun u hu => ?_) h e; repeat' first | (simp (maxDischargeDepth := 60) +contextual [*]; done) | split

@[simp ↓] theorem sound_adoptCount {s : State} {d : Int} (h : s.Sound) : (s.adoptCount d).Sound := by
  unfold State.adoptCount; repeat' first | (simp (maxDischargeDepth := 60) +contextual [*]; done) | split

@[simp ↓] theorem sound_forgetFrom {s : State} {next : Nat} (h : s.Sound) : (s.forgetFrom next).Sound := by
  unfold State.forgetFrom; repeat' first | (simp (maxDischargeDepth := 60) +contextual [*]; done) | split

@[simp ↓] theorem sound_showWaiting {s : State} (h : s.Sound) : s.showWaiting.Sound := by
  unfold State.showWaiting
  repeat' (first
    | (simp (maxDischargeDepth := 60) +contextual [*]; done)
    | simp only [sound_mk, soundOf_parts]
    | with_reducible refine sound_foldl _ (fun t x ht => ?_) ?_
    | with_reducible refine sound_foldl_fst _ (fun t b x ht => ?_) ?_
    | with_reducible refine sound_ite (fun _ => ?_) (fun _ => ?_)
    | split | with_reducible refine sound_fst ?_ (by assumption) | with_reducible refine sound_snd ?_ (by assumption)
    | with_reducible refine sound_ringTake ?_ (by assumption)
    | with_reducible refine sound_calResults ?_ (by assumption)
    | with_reducible refine sound_modeCheck ?_ (by assumption)
    | dsimp only)

@[simp ↓] theorem sound_stepBack {s : State} {next : Nat} (h : s.Sound) : (s.stepBack next).Sound := by
  unfold State.stepBack; repeat' first | (simp (maxDischargeDepth := 60) +contextual [*]; done) | split

@[simp ↓] theorem sound_pairAnew {s : State} {next : Nat} (h : s.Sound) : (s.pairAnew next).Sound := by
  unfold State.pairAnew; repeat' first | (simp (maxDischargeDepth := 60) +contextual [*]; done) | split

@[simp ↓] theorem sound_adoptLine {s : State} {next target : Nat} (h : s.Sound) : (s.adoptLine next target).Sound := by
  unfold State.adoptLine; repeat' first | (simp (maxDischargeDepth := 60) +contextual [*]; done) | split

@[simp ↓] theorem sound_takeCount {s : State} {p : List Byte} (h : s.Sound) : (s.takeCount p).Sound := by
  unfold State.takeCount; repeat' first | (simp (maxDischargeDepth := 60) +contextual [*]; done) | split

theorem sound_execWebCountFrame {dt : Nat} {frame : List Nat} {s : State} {t : State} (h : s.Sound)
    (e : execWebCountFrame dt frame s = .next t) :
    t.Sound := by
  unfold execWebCountFrame at e; refine sound_act (fun u hu => ?_) h e
  repeat' (first
    | (simp (maxDischargeDepth := 60) +contextual [*]; done)
    | simp only [sound_mk, soundOf_parts]
    | with_reducible refine sound_foldl _ (fun t x ht => ?_) ?_
    | with_reducible refine sound_foldl_fst _ (fun t b x ht => ?_) ?_
    | with_reducible refine sound_ite (fun _ => ?_) (fun _ => ?_)
    | split | with_reducible refine sound_fst ?_ (by assumption) | with_reducible refine sound_snd ?_ (by assumption)
    | with_reducible refine sound_ringTake ?_ (by assumption)
    | with_reducible refine sound_calResults ?_ (by assumption)
    | with_reducible refine sound_modeCheck ?_ (by assumption)
    | dsimp only)

end Sys2Proof.Machine
end

