-- ==== Sys2Proof/Laws/SoundEvents.lean ====
section
/-! SUPPORT. Laws/SoundEvents.lean: soundness is kept by the operations and commands of Machine/Events.lean. -/
namespace Sys2Proof.Machine
open Reg

@[simp ↓] theorem sound_modChan {s : State} {k : Nat} {f : Chan → Chan} (h : s.Sound) : (s.modChan k f).Sound := by
  unfold State.modChan; repeat' first | (simp (maxDischargeDepth := 60) +contextual [*]; done) | split

@[simp ↓] theorem sound_modCell {s : State} {c : Nat} {f : Cell → Cell} (h : s.Sound) : (s.modCell c f).Sound := by
  unfold State.modCell; repeat' first | (simp (maxDischargeDepth := 60) +contextual [*]; done) | split

@[simp ↓] theorem sound_taskRefused {s : State} (h : s.Sound) : s.taskRefused.Sound := by
  unfold State.taskRefused; repeat' first | (simp (maxDischargeDepth := 60) +contextual [*]; done) | split

@[simp ↓] theorem sound_taskMark {s : State} {m : Nat} (h : s.Sound) : (s.taskMark m).Sound := by
  unfold State.taskMark; repeat' first | (simp (maxDischargeDepth := 60) +contextual [*]; done) | split

@[simp ↓] theorem sound_taskStart {s : State} {n : Nat} (h : s.Sound) : (s.taskStart n).Sound := by
  unfold State.taskStart; repeat' first | (simp (maxDischargeDepth := 60) +contextual [*]; done) | split

@[simp ↓] theorem sound_taskStop {s : State} {n : Nat} (h : s.Sound) : (s.taskStop n).Sound := by
  unfold State.taskStop; repeat' first | (simp (maxDischargeDepth := 60) +contextual [*]; done) | split

@[simp ↓] theorem sound_taskLatch {s : State} {n : Nat} (h : s.Sound) : (s.taskLatch n).Sound := by
  unfold State.taskLatch; repeat' first | (simp (maxDischargeDepth := 60) +contextual [*]; done) | split

@[simp ↓] theorem sound_taskCount {s : State} {n : Nat} (h : s.Sound) : (s.taskCount n).Sound := by
  unfold State.taskCount; repeat' first | (simp (maxDischargeDepth := 60) +contextual [*]; done) | split

@[simp ↓] theorem sound_taskHost {s : State} {n : Nat} (h : s.Sound) : (s.taskHost n).Sound := by
  unfold State.taskHost; repeat' first | (simp (maxDischargeDepth := 60) +contextual [*]; done) | split

@[simp ↓] theorem sound_taskToggle {s : State} {n : Nat} (h : s.Sound) : (s.taskToggle n).Sound := by
  unfold State.taskToggle; repeat' first | (simp (maxDischargeDepth := 60) +contextual [*]; done) | split

@[simp ↓] theorem sound_taskDet {s : State} {d : Nat} (h : s.Sound) : (s.taskDet d).Sound := by
  unfold State.taskDet; repeat' first | (simp (maxDischargeDepth := 60) +contextual [*]; done) | split

@[simp ↓] theorem sound_taskZero {s : State} {n : Nat} (h : s.Sound) : (s.taskZero n).Sound := by
  unfold State.taskZero; repeat' first | (simp (maxDischargeDepth := 60) +contextual [*]; done) | split

@[simp ↓] theorem sound_taskExposure {s : State} (h : s.Sound) : s.taskExposure.Sound := by
  unfold State.taskExposure; repeat' first | (simp (maxDischargeDepth := 60) +contextual [*]; done) | split

@[simp ↓] theorem sound_taskSwitch {s : State} (h : s.Sound) : s.taskSwitch.Sound := by
  unfold State.taskSwitch; repeat' first | (simp (maxDischargeDepth := 60) +contextual [*]; done) | split

@[simp ↓] theorem sound_taskTrace {s : State} (h : s.Sound) : s.taskTrace.Sound := by
  unfold State.taskTrace; repeat' first | (simp (maxDischargeDepth := 60) +contextual [*]; done) | split

@[simp ↓] theorem sound_taskAct {s : State} {c : Nat} (h : s.Sound) : (s.taskAct c).Sound := by
  unfold State.taskAct; repeat' first | (simp (maxDischargeDepth := 60) +contextual [*]; done) | split

@[simp ↓] theorem sound_taskEvent {s : State} {c : Nat} (h : s.Sound) : (s.taskEvent c).Sound := by
  unfold State.taskEvent; repeat' first | (simp (maxDischargeDepth := 60) +contextual [*]; done) | split

@[simp ↓] theorem sound_reach {s : State} {cycle c : Nat} (h : s.Sound) : (s.reach cycle c).Sound := by
  unfold State.reach; repeat' first | (simp (maxDischargeDepth := 60) +contextual [*]; done) | split

@[simp ↓] theorem sound_consume {s : State} {dst : Nat} (h : s.Sound) : (s.consume dst).Sound := by
  unfold State.consume; repeat' first | (simp (maxDischargeDepth := 60) +contextual [*]; done) | split

@[simp ↓] theorem sound_rateExceeded {s : State} {k : Nat} (h : s.Sound) : (s.rateExceeded k).Sound := by
  unfold State.rateExceeded; repeat' first | (simp (maxDischargeDepth := 60) +contextual [*]; done) | split

@[simp ↓] theorem sound_chanDelivers {s : State} {k : Nat} (h : s.Sound) : (s.chanDelivers k).Sound := by
  unfold State.chanDelivers; repeat' first | (simp (maxDischargeDepth := 60) +contextual [*]; done) | split

@[simp ↓] theorem sound_chanArrive {s : State} {k : Nat} (h : s.Sound) : (s.chanArrive k).1.Sound := by
  unfold State.chanArrive
  repeat' (first
    | (simp (maxDischargeDepth := 60) +contextual [*]; done)
    | simp only [sound_mk, soundOf_parts]
    | with_reducible refine sound_foldl _ (fun t x ht => ?_) ?_
    | with_reducible refine sound_foldl_fst _ (fun t b x ht => ?_) ?_
    | with_reducible refine sound_ite (fun _ => ?_) (fun _ => ?_)
    | split | with_reducible refine sound_fst ?_ (by assumption) | with_reducible refine sound_snd ?_ (by assumption)
    | with_reducible refine sound_ringTake ?_ (by assumption)
    | with_reducible refine sound_calResults ?_ (by assumption)
    | with_reducible refine sound_modeCheck ?_ (by assumption)
    | dsimp only)

@[simp ↓] theorem sound_chanRelease {s : State} {k : Nat} (h : s.Sound) : (s.chanRelease k).1.Sound := by
  unfold State.chanRelease
  repeat' (first
    | (simp (maxDischargeDepth := 60) +contextual [*]; done)
    | simp only [sound_mk, soundOf_parts]
    | with_reducible refine sound_foldl _ (fun t x ht => ?_) ?_
    | with_reducible refine sound_foldl_fst _ (fun t b x ht => ?_) ?_
    | with_reducible refine sound_ite (fun _ => ?_) (fun _ => ?_)
    | split | with_reducible refine sound_fst ?_ (by assumption) | with_reducible refine sound_snd ?_ (by assumption)
    | with_reducible refine sound_ringTake ?_ (by assumption)
    | with_reducible refine sound_calResults ?_ (by assumption)
    | with_reducible refine sound_modeCheck ?_ (by assumption)
    | dsimp only)

@[simp ↓] theorem sound_runChannels {s : State} {fired : List (Nat × Nat)} (h : s.Sound) : (s.runChannels
    fired).1.Sound := by
  unfold State.runChannels
  repeat' (first
    | (simp (maxDischargeDepth := 60) +contextual [*]; done)
    | simp only [sound_mk, soundOf_parts]
    | with_reducible refine sound_foldl _ (fun t x ht => ?_) ?_
    | with_reducible refine sound_foldl_fst _ (fun t b x ht => ?_) ?_
    | with_reducible refine sound_ite (fun _ => ?_) (fun _ => ?_)
    | split | with_reducible refine sound_fst ?_ (by assumption) | with_reducible refine sound_snd ?_ (by assumption)
    | with_reducible refine sound_ringTake ?_ (by assumption)
    | with_reducible refine sound_calResults ?_ (by assumption)
    | with_reducible refine sound_modeCheck ?_ (by assumption)
    | dsimp only)

@[simp ↓] theorem sound_glitchReport {s : State} {c : Nat} (h : s.Sound) : (s.glitchReport c).Sound := by
  unfold State.glitchReport; repeat' first | (simp (maxDischargeDepth := 60) +contextual [*]; done) | split

@[simp ↓] theorem sound_cellSample {s : State} {ins : List Nat} {c : Nat} (h : s.Sound) : (s.cellSample ins c).Sound := by
  unfold State.cellSample; repeat' first | (simp (maxDischargeDepth := 60) +contextual [*]; done) | split

theorem sound_execLutGlitchExpiry {dt cell : Nat} {s : State} {t : State} (h : s.Sound)
    (e : execLutGlitchExpiry dt cell s = .next t) :
    t.Sound := by
  unfold execLutGlitchExpiry at e; refine sound_act (fun u hu => ?_) h e; repeat' first | (simp (maxDischargeDepth := 60) +contextual [*]; done) | split

@[simp ↓] theorem sound_runPending {s : State} (h : s.Sound) : s.runPending.Sound := by
  unfold State.runPending; repeat' first | (simp (maxDischargeDepth := 60) +contextual [*]; done) | split

@[simp ↓] theorem sound_runTasks {s : State} {dsts : List Nat} (h : s.Sound) : (s.runTasks dsts).Sound := by
  unfold State.runTasks; repeat' first | (simp (maxDischargeDepth := 60) +contextual [*]; done) | split

@[simp ↓] theorem sound_cellFires {s : State} {c : Nat} (h : s.Sound) : (s.cellFires c).Sound := by
  unfold State.cellFires; repeat' first | (simp (maxDischargeDepth := 60) +contextual [*]; done) | split

@[simp ↓] theorem sound_runCycle {s : State} (h : s.Sound) : s.runCycle.Sound := by
  unfold State.runCycle; repeat' first | (simp (maxDischargeDepth := 60) +contextual [*]; done) | split

theorem sound_execEventDeliver {dt : Nat} {s : State} {t : State} (h : s.Sound)
    (e : execEventDeliver dt s = .next t) :
    t.Sound := by
  unfold execEventDeliver at e; refine sound_act (fun u hu => ?_) h e; repeat' first | (simp (maxDischargeDepth := 60) +contextual [*]; done) | split

theorem sound_execChanHoldoffEnd {dt chan : Nat} {s : State} {t : State} (h : s.Sound)
    (e : execChanHoldoffEnd dt chan s = .next t) :
    t.Sound := by
  unfold execChanHoldoffEnd at e; refine sound_act (fun u hu => ?_) h e; repeat' first | (simp (maxDischargeDepth := 60) +contextual [*]; done) | split

theorem sound_execChanRateWindow {dt chan : Nat} {s : State} {t : State} (h : s.Sound)
    (e : execChanRateWindow dt chan s = .next t) :
    t.Sound := by
  unfold execChanRateWindow at e; refine sound_act (fun u hu => ?_) h e; repeat' first | (simp (maxDischargeDepth := 60) +contextual [*]; done) | split

theorem sound_execTimerExpire {dt n : Nat} {s : State} {t : State} (h : s.Sound)
    (e : execTimerExpire dt n s = .next t) :
    t.Sound := by
  unfold execTimerExpire at e; refine sound_act (fun u hu => ?_) h e; repeat' first | (simp (maxDischargeDepth := 60) +contextual [*]; done) | split

theorem sound_execMarkPulse {dt marker : Nat} {s : State} {t : State} (h : s.Sound)
    (e : execMarkPulse dt marker s = .next t) :
    t.Sound := by
  unfold execMarkPulse at e; refine sound_act (fun u hu => ?_) h e; repeat' first | (simp (maxDischargeDepth := 60) +contextual [*]; done) | split

theorem sound_execTimerStart {dt n : Nat} {s : State} {t : State} (h : s.Sound)
    (e : execTimerStart dt n s = .next t) :
    t.Sound := by
  unfold execTimerStart at e; refine sound_act (fun u hu => ?_) h e; repeat' first | (simp (maxDischargeDepth := 60) +contextual [*]; done) | split

theorem sound_execTimerStop {dt n : Nat} {s : State} {t : State} (h : s.Sound)
    (e : execTimerStop dt n s = .next t) :
    t.Sound := by
  unfold execTimerStop at e; refine sound_act (fun u hu => ?_) h e; repeat' first | (simp (maxDischargeDepth := 60) +contextual [*]; done) | split

theorem sound_execLatch {dt n : Nat} {s : State} {t : State} (h : s.Sound)
    (e : execLatch dt n s = .next t) :
    t.Sound := by
  unfold execLatch at e; refine sound_act (fun u hu => ?_) h e; repeat' first | (simp (maxDischargeDepth := 60) +contextual [*]; done) | split

theorem sound_execEvtCount {dt n : Nat} {s : State} {t : State} (h : s.Sound)
    (e : execEvtCount dt n s = .next t) :
    t.Sound := by
  unfold execEvtCount at e; refine sound_act (fun u hu => ?_) h e; repeat' first | (simp (maxDischargeDepth := 60) +contextual [*]; done) | split

theorem sound_execHostEvt {dt n : Nat} {s : State} {t : State} (h : s.Sound)
    (e : execHostEvt dt n s = .next t) :
    t.Sound := by
  unfold execHostEvt at e; refine sound_act (fun u hu => ?_) h e; repeat' first | (simp (maxDischargeDepth := 60) +contextual [*]; done) | split

theorem sound_execEcatToggle {dt n : Nat} {s : State} {t : State} (h : s.Sound)
    (e : execEcatToggle dt n s = .next t) :
    t.Sound := by
  unfold execEcatToggle at e; refine sound_act (fun u hu => ?_) h e; repeat' first | (simp (maxDischargeDepth := 60) +contextual [*]; done) | split

theorem sound_execFcSyncGroup {dt group : Nat} {s : State} {t : State} (h : s.Sound)
    (e : execFcSyncGroup dt group s = .next t) :
    t.Sound := by
  unfold execFcSyncGroup at e; refine sound_act (fun u hu => ?_) h e; repeat' first | (simp (maxDischargeDepth := 60) +contextual [*]; done) | split

theorem sound_execDetStart {dt det : Nat} {s : State} {t : State} (h : s.Sound)
    (e : execDetStart dt det s = .next t) :
    t.Sound := by
  unfold execDetStart at e; refine sound_act (fun u hu => ?_) h e; repeat' first | (simp (maxDischargeDepth := 60) +contextual [*]; done) | split

theorem sound_execPulseZero {dt n : Nat} {s : State} {t : State} (h : s.Sound)
    (e : execPulseZero dt n s = .next t) :
    t.Sound := by
  unfold execPulseZero at e; refine sound_act (fun u hu => ?_) h e; repeat' first | (simp (maxDischargeDepth := 60) +contextual [*]; done) | split

theorem sound_execHoldRequest {dt : Nat} {s : State} {t : State} (h : s.Sound)
    (e : execHoldRequest dt s = .next t) :
    t.Sound := by
  unfold execHoldRequest at e; refine sound_act (fun u hu => ?_) h e; repeat' first | (simp (maxDischargeDepth := 60) +contextual [*]; done) | split

theorem sound_execTraceMark {dt : Nat} {s : State} {t : State} (h : s.Sound)
    (e : execTraceMark dt s = .next t) :
    t.Sound := by
  unfold execTraceMark at e; refine sound_act (fun u hu => ?_) h e; repeat' first | (simp (maxDischargeDepth := 60) +contextual [*]; done) | split

@[simp ↓] theorem sound_softEvents {s : State} {via : Path} {mask : Nat} (h : s.Sound) : (s.softEvents via mask).Sound := by
  unfold State.softEvents; repeat' first | (simp (maxDischargeDepth := 60) +contextual [*]; done) | split

theorem sound_execEvtSoft {dt : Nat} {via : Path} {mask : Nat} {s : State} {t : State} (h : s.Sound)
    (e : execEvtSoft dt via mask s = .next t) :
    t.Sound := by
  unfold execEvtSoft at e; refine sound_act (fun u hu => ?_) h e; repeat' first | (simp (maxDischargeDepth := 60) +contextual [*]; done) | split

@[simp ↓] theorem sound_eventSave {s : State} {via : Path} (h : s.Sound) : (s.eventSave via).Sound := by
  unfold State.eventSave; repeat' first | (simp (maxDischargeDepth := 60) +contextual [*]; done) | split

theorem sound_execEvtSave {dt : Nat} {via : Path} {s : State} {t : State} (h : s.Sound)
    (e : execEvtSave dt via s = .next t) :
    t.Sound := by
  unfold execEvtSave at e; refine sound_act (fun u hu => ?_) h e; repeat' first | (simp (maxDischargeDepth := 60) +contextual [*]; done) | split

@[simp ↓] theorem sound_writeChan {s : State} {via : Path} {k v : Nat} (h : s.Sound) : (s.writeChan via k v).Sound := by
  unfold State.writeChan; repeat' first | (simp (maxDischargeDepth := 60) +contextual [*]; done) | split

theorem sound_execChanCfgWrite {dt : Nat} {via : Path} {chan value : Nat} {s : State} {t : State} (h : s.Sound)
    (e : execChanCfgWrite dt via chan value s = .next t) :
    t.Sound := by
  unfold execChanCfgWrite at e; refine sound_act (fun u hu => ?_) h e; repeat' first | (simp (maxDischargeDepth := 60) +contextual [*]; done) | split

@[simp ↓] theorem sound_writeCell {s : State} {via : Path} {c v : Nat} (h : s.Sound) : (s.writeCell via c v).Sound := by
  unfold State.writeCell; repeat' first | (simp (maxDischargeDepth := 60) +contextual [*]; done) | split

theorem sound_execCellCfgWrite {dt : Nat} {via : Path} {cell value : Nat} {s : State} {t : State} (h : s.Sound)
    (e : execCellCfgWrite dt via cell value s = .next t) :
    t.Sound := by
  unfold execCellCfgWrite at e; refine sound_act (fun u hu => ?_) h e; repeat' first | (simp (maxDischargeDepth := 60) +contextual [*]; done) | split

@[simp ↓] theorem sound_eventClear {s : State} {via : Path} (h : s.Sound) : (s.eventClear via).Sound := by
  unfold State.eventClear; repeat' first | (simp (maxDischargeDepth := 60) +contextual [*]; done) | split

theorem sound_execEvtClear {dt : Nat} {via : Path} {s : State} {t : State} (h : s.Sound)
    (e : execEvtClear dt via s = .next t) :
    t.Sound := by
  unfold execEvtClear at e; refine sound_act (fun u hu => ?_) h e; repeat' first | (simp (maxDischargeDepth := 60) +contextual [*]; done) | split

@[simp ↓] theorem sound_dcLatch {s : State} {input : Nat} {level : Bool} (h : s.Sound) : (s.dcLatch input
    level).Sound := by
  unfold State.dcLatch; repeat' first | (simp (maxDischargeDepth := 60) +contextual [*]; done) | split

theorem sound_execDigitalInputEdge {dt input : Nat} {level : Bool} {held : Nat} {s : State} {t : State} (h : s.Sound)
    (e : execDigitalInputEdge dt input level held s = .next t) :
    t.Sound := by
  unfold execDigitalInputEdge at e; refine sound_act (fun u hu => ?_) h e
  repeat' (first
    | (simp (maxDischargeDepth := 60) +contextual [*]; done)
    | simp only [sound_mk, soundOf_parts]
    | with_reducible refine sound_foldl _ (fun t x ht => ?_) ?_
    | with_reducible refine sound_foldl_fst _ (fun t b x ht => ?_) ?_
    | with_reducible refine sound_ite (fun _ => ?_) (fun _ => ?_)
    | split | with_reducible refine sound_fst ?_ (by assumption) | with_reducible refine sound_snd ?_ (by assumption)
    | with_reducible refine sound_ringTake ?_ (by assumption)
    | with_reducible refine sound_calResults ?_ (by assumption)
    | with_reducible refine sound_modeCheck ?_ (by assumption)
    | dsimp only)

end Sys2Proof.Machine
end

