-- ==== Sys2Proof/Laws/SoundLogbook.lean ====
section
/-! SUPPORT. Laws/SoundLogbook.lean: soundness is kept by the operations and commands of Machine/Logbook.lean. -/
namespace Sys2Proof.Machine
open Reg

@[simp ↓] theorem sound_programMayFail {s : State} {copy : Nat} (h : s.Sound) : (s.programMayFail copy).Sound := by
  unfold State.programMayFail; repeat' first | (simp (maxDischargeDepth := 60) +contextual [*]; done) | split

theorem sound_execLogbookCountersTimer {dt : Nat} {s : State} {t : State} (h : s.Sound)
    (e : execLogbookCountersTimer dt s = .next t) :
    t.Sound := by
  unfold execLogbookCountersTimer at e; refine sound_act (fun u hu => ?_) h e; repeat' first | (simp (maxDischargeDepth := 60) +contextual [*]; done) | split

@[simp ↓] theorem sound_nandSeen {s : State} {n : NandWear} (h : s.Sound) : (s.nandSeen n).Sound := by
  unfold State.nandSeen; repeat' first | (simp (maxDischargeDepth := 60) +contextual [*]; done) | split

@[simp ↓] theorem sound_commitWear {s : State} (h : s.Sound) : s.commitWear.Sound := by
  unfold State.commitWear; repeat' first | (simp (maxDischargeDepth := 60) +contextual [*]; done) | split

theorem sound_execLogbookWearTimer {dt : Nat} {s : State} {t : State} (h : s.Sound)
    (e : execLogbookWearTimer dt s = .next t) :
    t.Sound := by
  unfold execLogbookWearTimer at e; refine sound_act (fun u hu => ?_) h e; repeat' first | (simp (maxDischargeDepth := 60) +contextual [*]; done) | split

@[simp ↓] theorem sound_factoryReset {s : State} {via : Path} {v : Nat} (h : s.Sound) : (s.factoryReset via v).Sound := by
  unfold State.factoryReset; repeat' first | (simp (maxDischargeDepth := 60) +contextual [*]; done) | split

theorem sound_execLogbookFactoryReset {dt : Nat} {via : Path} {value : Nat} {s : State} {t : State} (h : s.Sound)
    (e : execLogbookFactoryReset dt via value s = .next t) :
    t.Sound := by
  unfold execLogbookFactoryReset at e; refine sound_act (fun u hu => ?_) h e; repeat' first | (simp (maxDischargeDepth := 60) +contextual [*]; done) | split

@[simp ↓] theorem sound_logbookClear {s : State} {via : Path} (h : s.Sound) : (s.logbookClear via).Sound := by
  unfold State.logbookClear; repeat' first | (simp (maxDischargeDepth := 60) +contextual [*]; done) | split

theorem sound_execLbkClear {dt : Nat} {via : Path} {s : State} {t : State} (h : s.Sound)
    (e : execLbkClear dt via s = .next t) :
    t.Sound := by
  unfold execLbkClear at e; refine sound_act (fun u hu => ?_) h e; repeat' first | (simp (maxDischargeDepth := 60) +contextual [*]; done) | split

@[simp ↓] theorem sound_snapFree {s : State} {slot : Nat} (h : s.Sound) : (s.snapFree slot).Sound := by
  unfold State.snapFree; repeat' first | (simp (maxDischargeDepth := 60) +contextual [*]; done) | split

@[simp ↓] theorem sound_snapTake {s : State} {via : Path} {slot : Nat} (h : s.Sound) : (s.snapTake via slot).Sound := by
  unfold State.snapTake; repeat' first | (simp (maxDischargeDepth := 60) +contextual [*]; done) | split

theorem sound_execSnapTake {dt : Nat} {via : Path} {slot : Nat} {s : State} {t : State} (h : s.Sound)
    (e : execSnapTake dt via slot s = .next t) :
    t.Sound := by
  unfold execSnapTake at e; refine sound_act (fun u hu => ?_) h e; repeat' first | (simp (maxDischargeDepth := 60) +contextual [*]; done) | split

theorem sound_execSnapDone {dt : Nat} {s : State} {t : State} (h : s.Sound)
    (e : execSnapDone dt s = .next t) :
    t.Sound := by
  unfold execSnapDone at e; refine sound_act (fun u hu => ?_) h e; repeat' first | (simp (maxDischargeDepth := 60) +contextual [*]; done) | split

@[simp ↓] theorem sound_snapDelete {s : State} {via : Path} {slot : Nat} (h : s.Sound) : (s.snapDelete via slot).Sound := by
  unfold State.snapDelete; repeat' first | (simp (maxDischargeDepth := 60) +contextual [*]; done) | split

theorem sound_execSnapDelete {dt : Nat} {via : Path} {slot : Nat} {s : State} {t : State} (h : s.Sound)
    (e : execSnapDelete dt via slot s = .next t) :
    t.Sound := by
  unfold execSnapDelete at e; refine sound_act (fun u hu => ?_) h e; repeat' first | (simp (maxDischargeDepth := 60) +contextual [*]; done) | split

theorem sound_execRoMeasure {dt : Nat} {tiles easels : List Int} {s : State} {t : State} (h : s.Sound)
    (e : execRoMeasure dt tiles easels s = .next t) :
    t.Sound := by
  unfold execRoMeasure at e; refine sound_act (fun u hu => ?_) h e; repeat' first | (simp (maxDischargeDepth := 60) +contextual [*]; done) | split

theorem sound_execFanDeficit {dt fan : Nat} {s : State} {t : State} (h : s.Sound)
    (e : execFanDeficit dt fan s = .next t) :
    t.Sound := by
  unfold execFanDeficit at e; refine sound_act (fun u hu => ?_) h e; repeat' first | (simp (maxDischargeDepth := 60) +contextual [*]; done) | split

theorem sound_execFanTrayChange {dt : Nat} {serial : List Nat} {s : State} {t : State} (h : s.Sound)
    (e : execFanTrayChange dt serial s = .next t) :
    t.Sound := by
  unfold execFanTrayChange at e; refine sound_act (fun u hu => ?_) h e; repeat' first | (simp (maxDischargeDepth := 60) +contextual [*]; done) | split

@[simp ↓] theorem sound_growFree {s : State} {o : Obj} {i : Nat} (h : s.Sound) :
    (s.growFree o i).Sound := by
  unfold State.growFree; simp [*]

@[simp ↓] theorem sound_perfMeasure {s : State} (h : s.Sound) : s.perfMeasure.Sound := by
  unfold State.perfMeasure; repeat' first | (simp (maxDischargeDepth := 60) +contextual [*]; done) | split

theorem sound_execObsSampleTimer {dt : Nat} {s : State} {t : State} (h : s.Sound)
    (e : execObsSampleTimer dt s = .next t) :
    t.Sound := by
  unfold execObsSampleTimer at e; refine sound_act (fun u hu => ?_) h e; repeat' first | (simp (maxDischargeDepth := 60) +contextual [*]; done) | split

end Sys2Proof.Machine
end

