-- ==== Sys2Proof/Laws/SoundReset.lean ====
section
/-! SUPPORT. Laws/SoundReset.lean: soundness is kept by the operations and commands of Machine/Reset.lean. -/
namespace Sys2Proof.Machine
open Reg

@[simp ↓] theorem sound_resumeIds {s : State} (h : s.Sound) : s.resumeIds.Sound := by
  unfold State.resumeIds; repeat' first | (simp (maxDischargeDepth := 60) +contextual [*]; done) | split

@[simp ↓] theorem sound_storedBase {s : State} (h : s.Sound) : s.storedBase.Sound := by
  unfold State.storedBase; repeat' first | (simp (maxDischargeDepth := 60) +contextual [*]; done) | split

@[simp ↓] theorem sound_resetDone {s : State} {o : Obj} {cause : Nat} (h : s.Sound) : (s.resetDone o cause).Sound := by
  unfold State.resetDone; repeat' first | (simp (maxDischargeDepth := 60) +contextual [*]; done) | split

@[simp ↓] theorem sound_standingCauses {s : State} (h : s.Sound) : s.standingCauses.Sound := by
  unfold State.standingCauses; repeat' first | (simp (maxDischargeDepth := 60) +contextual [*]; done) | split

@[simp ↓] theorem sound_switchReset {s : State} (h : s.Sound) : s.switchReset.Sound := by
  unfold State.switchReset; repeat' first | (simp (maxDischargeDepth := 60) +contextual [*]; done) | split

@[simp ↓] theorem sound_ringsOff {s : State} {f : Nat → Bool} (h : s.Sound) : (s.ringsOff f).Sound := by
  unfold State.ringsOff; repeat' first | (simp (maxDischargeDepth := 60) +contextual [*]; done) | split

@[simp ↓] theorem sound_barsHeld {s : State} (h : s.Sound) : s.barsHeld.Sound := by
  unfold State.barsHeld; repeat' first | (simp (maxDischargeDepth := 60) +contextual [*]; done) | split

@[simp ↓] theorem sound_testsEnd {s : State} (h : s.Sound) : s.testsEnd.Sound := by
  unfold State.testsEnd; repeat' first | (simp (maxDischargeDepth := 60) +contextual [*]; done) | split

@[simp ↓] theorem sound_loseWork {s : State} (h : s.Sound) : s.loseWork.Sound := by
  unfold State.loseWork; repeat' first | (simp (maxDischargeDepth := 60) +contextual [*]; done) | split

@[simp ↓] theorem sound_dormantAgain {s : State} (h : s.Sound) : s.dormantAgain.Sound := by
  unfold State.dormantAgain; repeat' first | (simp (maxDischargeDepth := 60) +contextual [*]; done) | split

@[simp ↓] theorem sound_ferriesDrain {s : State} (h : s.Sound) : s.ferriesDrain.Sound := by
  unfold State.ferriesDrain; repeat' first | (simp (maxDischargeDepth := 60) +contextual [*]; done) | split

@[simp ↓] theorem sound_warmReset {s : State} {cause : Nat} (h : s.Sound) : (s.warmReset cause).Sound := by
  unfold State.warmReset; repeat' first | (simp (maxDischargeDepth := 60) +contextual [*]; done) | split

theorem sound_execResetWarm {dt : Nat} {via : Path} {s : State} {t : State} (h : s.Sound)
    (e : execResetWarm dt via s = .next t) :
    t.Sound := by
  unfold execResetWarm at e; refine sound_act (fun u hu => ?_) h e; repeat' first | (simp (maxDischargeDepth := 60) +contextual [*]; done) | split

theorem sound_execSupervisorRestart {dt : Nat} {s : State} {t : State} (h : s.Sound)
    (e : execSupervisorRestart dt s = .next t) :
    t.Sound := by
  unfold execSupervisorRestart at e; refine sound_act (fun u hu => ?_) h e; repeat' first | (simp (maxDischargeDepth := 60) +contextual [*]; done) | split

@[simp ↓] theorem sound_reconcile {s : State} (h : s.Sound) : s.reconcile.Sound := by
  unfold State.reconcile; repeat' first | (simp (maxDischargeDepth := 60) +contextual [*]; done) | split

@[simp ↓] theorem sound_unitsBack {s old : State} (h : s.Sound) (h1 : old.Sound) : (s.unitsBack old).Sound := by
  unfold State.unitsBack; repeat' first | (simp (maxDischargeDepth := 60) +contextual [*]; done) | split

@[simp ↓] theorem sound_countersBack {s : State} (h : s.Sound) : s.countersBack.Sound := by
  unfold State.countersBack; repeat' first | (simp (maxDischargeDepth := 60) +contextual [*]; done) | split

@[simp ↓] theorem sound_gainsBack {s : State} (h : s.Sound) : s.gainsBack.Sound := by
  unfold State.gainsBack; repeat' first | (simp (maxDischargeDepth := 60) +contextual [*]; done) | split

@[simp ↓] theorem sound_parametersBack {s : State} (h : s.Sound) : s.parametersBack.Sound := by
  unfold State.parametersBack
  split
  · simp [h]
  split
  · exact h
  simp only [sound_mk, soundOf_parts]
  refine sound_gainsBack (sound_foldl _ (fun t x ht => ?_) h)
  split <;> simp [ht]

@[simp ↓] theorem sound_filtersBack {s : State} (h : s.Sound) : s.filtersBack.Sound := by
  unfold State.filtersBack
  repeat' (first
    | (simp (maxDischargeDepth := 60) +contextual [*]; done)
    | simp only [sound_mk, soundOf_parts]
    | with_reducible refine sound_foldl _ (fun t x ht => ?_) ?_
    | with_reducible refine sound_foldl_fst _ (fun t b x ht => ?_) ?_
    | with_reducible refine sound_ite (fun _ => ?_) (fun _ => ?_)
    | split | with_reducible refine sound_fst ?_ (by assumption) | with_reducible refine sound_snd ?_ (by assumption)
    | with_reducible refine sound_ringTake ?_ (by assumption)
    | with_reducible refine sound_calResults ?_ (by assumption)
    | with_reducible refine sound_modeCheck ?_ (by assumption)
    | dsimp only)

@[simp ↓] theorem sound_storesBack {s : State} (h : s.Sound) : s.storesBack.Sound := by
  unfold State.storesBack; repeat' first | (simp (maxDischargeDepth := 60) +contextual [*]; done) | split

@[simp ↓] theorem sound_calibrationBack {s : State} (h : s.Sound) : s.calibrationBack.Sound := by
  unfold State.calibrationBack; repeat' first | (simp (maxDischargeDepth := 60) +contextual [*]; done) | split

@[simp ↓] theorem sound_hostlinkBack {s : State} (h : s.Sound) : s.hostlinkBack.Sound := by
  unfold State.hostlinkBack; repeat' first | (simp (maxDischargeDepth := 60) +contextual [*]; done) | split

@[simp ↓] theorem sound_bootFirmware {s : State} {fails : Nat} (h : s.Sound) : (s.bootFirmware fails).Sound := by
  unfold State.bootFirmware; repeat' first | (simp (maxDischargeDepth := 60) +contextual [*]; done) | split

@[simp ↓] theorem sound_coldStart {old : State} (h : old.Sound) : old.coldStart.Sound := by
  unfold State.coldStart; repeat' first | (simp (maxDischargeDepth := 60) +contextual [*]; done) | split

@[simp ↓] theorem sound_jobsReset {s old : State} (h : s.Sound) : (s.jobsReset old).Sound := by
  unfold State.jobsReset; repeat' first | (simp (maxDischargeDepth := 60) +contextual [*]; done) | split

@[simp ↓] theorem sound_coldReset {s : State} {cause fails : Nat} (h : s.Sound) : (s.coldReset cause fails).Sound := by
  unfold State.coldReset; repeat' first | (simp (maxDischargeDepth := 60) +contextual [*]; done) | split

theorem sound_execResetCold {dt : Nat} {via : Path} {bootFails : Nat} {s : State} {t : State} (h : s.Sound)
    (e : execResetCold dt via bootFails s = .next t) :
    t.Sound := by
  unfold execResetCold at e; refine sound_act (fun u hu => ?_) h e; repeat' first | (simp (maxDischargeDepth := 60) +contextual [*]; done) | split

theorem sound_execResetButton {dt heldMs bootFails : Nat} {s : State} {t : State} (h : s.Sound)
    (e : execResetButton dt heldMs bootFails s = .next t) :
    t.Sound := by
  unfold execResetButton at e; refine sound_act (fun u hu => ?_) h e; repeat' first | (simp (maxDischargeDepth := 60) +contextual [*]; done) | split

theorem sound_execAoBrownout {dt bootFails : Nat} {s : State} {t : State} (h : s.Sound)
    (e : execAoBrownout dt bootFails s = .next t) :
    t.Sound := by
  unfold execAoBrownout at e; refine sound_act (fun u hu => ?_) h e; repeat' first | (simp (maxDischargeDepth := 60) +contextual [*]; done) | split

@[simp ↓] theorem sound_stageFound {s : State} {i : Nat} {serial : Option (List Byte)} (h : s.Sound) :
    (s.stageFound i serial).Sound := by
  unfold State.stageFound; repeat' first | (simp (maxDischargeDepth := 60) +contextual [*]; done) | split

@[simp ↓] theorem sound_stagesFound {s : State} {stages : List (List Nat)} (h : s.Sound) :
    (s.stagesFound stages).Sound := by
  unfold State.stagesFound; repeat' first | (simp (maxDischargeDepth := 60) +contextual [*]; done) | split

theorem sound_execPowerOn {dt : Nat} {stages : List (List Nat)} {bootFails : Nat} {s : State} {t : State} (h0 : s.Sound)
    (e : execPowerOn dt stages bootFails s = .next t) : t.Sound := by
  unfold execPowerOn at e
  dsimp only at e
  split at e
  all_goals cases e
  · exact sound_advance h0
  · exact sound_of (sound_stagesFound (sound_coldReset (sound_advance h0))) rfl rfl rfl rfl rfl rfl

@[simp ↓] theorem sound_ioSupply {s : State} {milliVolt : Nat} (h : s.Sound) : (s.ioSupply milliVolt).Sound := by
  unfold State.ioSupply; repeat' first | (simp (maxDischargeDepth := 60) +contextual [*]; done) | split

theorem sound_execIoSupplyLow {dt milliVolt : Nat} {s : State} {t : State} (h : s.Sound)
    (e : execIoSupplyLow dt milliVolt s = .next t) :
    t.Sound := by
  unfold execIoSupplyLow at e; refine sound_act (fun u hu => ?_) h e; repeat' first | (simp (maxDischargeDepth := 60) +contextual [*]; done) | split

theorem sound_execIoSupplyReturn {dt milliVolt : Nat} {s : State} {t : State} (h : s.Sound)
    (e : execIoSupplyReturn dt milliVolt s = .next t) :
    t.Sound := by
  unfold execIoSupplyReturn at e; refine sound_act (fun u hu => ?_) h e; repeat' first | (simp (maxDischargeDepth := 60) +contextual [*]; done) | split

end Sys2Proof.Machine
end

