-- ==== Sys2Proof/Laws/SoundDictionary.lean ====
section
/-! SUPPORT. Laws/SoundDictionary.lean: soundness is kept by the operations and commands of Machine/Dictionary.lean. -/
namespace Sys2Proof.Machine
open Reg

@[simp ↓] theorem sound_storePackage {s : State} {p : List Byte} (h : s.Sound) : (s.storePackage p).1.Sound := by
  unfold State.storePackage
  repeat' (first
    | (simp (maxDischargeDepth := 60) +contextual [*]; done)
    | simp only [sound_mk, soundOf_parts]
    | with_reducible refine sound_foldl _ (fun t x ht => ?_) ?_
    | with_reducible refine sound_foldl_fst _ (fun t b x ht => ?_) ?_
    | with_reducible refine sound_ite (fun _ => ?_) (fun _ => ?_)
    | split | with_reducible refine sound_fst ?_ (by assumption) | with_reducible refine sound_snd ?_ (by assumption)
    | with_reducible refine sound_ringTake ?_ (by assumption)
    | with_reducible refine sound_calResults ?_ (by assumption)
    | with_reducible refine sound_modeCheck ?_ (by assumption)
    | dsimp only)

@[simp ↓] theorem sound_storeImage {s : State} {image : List Byte} {signatureOk : Bool} (h : s.Sound) :
    (s.storeImage image signatureOk).Sound := by
  unfold State.storeImage; repeat' first | (simp (maxDischargeDepth := 60) +contextual [*]; done) | split

@[simp ↓] theorem sound_fwActivate {s : State} {via : Path} (h : s.Sound) : (s.fwActivate via).Sound := by
  unfold State.fwActivate; repeat' first | (simp (maxDischargeDepth := 60) +contextual [*]; done) | split

theorem sound_execFwActivate {dt : Nat} {via : Path} {s : State} {t : State} (h : s.Sound)
    (e : execFwActivate dt via s = .next t) :
    t.Sound := by
  unfold execFwActivate at e; refine sound_act (fun u hu => ?_) h e; repeat' first | (simp (maxDischargeDepth := 60) +contextual [*]; done) | split

@[simp ↓] theorem sound_hlClear {s : State} {via : Path} (h : s.Sound) : (s.hlClear via).Sound := by
  unfold State.hlClear; repeat' first | (simp (maxDischargeDepth := 60) +contextual [*]; done) | split

theorem sound_execHlClear {dt : Nat} {via : Path} {s : State} {t : State} (h : s.Sound)
    (e : execHlClear dt via s = .next t) :
    t.Sound := by
  unfold execHlClear at e; refine sound_act (fun u hu => ?_) h e; repeat' first | (simp (maxDischargeDepth := 60) +contextual [*]; done) | split

@[simp ↓] theorem sound_ecatClear {s : State} {via : Path} (h : s.Sound) : (s.ecatClear via).Sound := by
  unfold State.ecatClear; repeat' first | (simp (maxDischargeDepth := 60) +contextual [*]; done) | split

theorem sound_execEcatClear {dt : Nat} {via : Path} {s : State} {t : State} (h : s.Sound)
    (e : execEcatClear dt via s = .next t) :
    t.Sound := by
  unfold execEcatClear at e; refine sound_act (fun u hu => ?_) h e; repeat' first | (simp (maxDischargeDepth := 60) +contextual [*]; done) | split

@[simp ↓] theorem sound_saveParameters {s : State} {via : Path} {v : Nat} (h : s.Sound) :
    (s.saveParameters via v).Sound := by
  unfold State.saveParameters; repeat' first | (simp (maxDischargeDepth := 60) +contextual [*]; done) | split

@[simp ↓] theorem sound_loadDefaults {s : State} {via : Path} {v : Nat} (h : s.Sound) : (s.loadDefaults via v).Sound := by
  unfold State.loadDefaults; repeat' first | (simp (maxDischargeDepth := 60) +contextual [*]; done) | split

@[simp ↓] theorem sound_wide {s : State} {via : Path} {o : Obj} (h : s.Sound) : (s.wide via o).Sound := by
  unfold State.wide; repeat' first | (simp (maxDischargeDepth := 60) +contextual [*]; done) | split

theorem sound_execStoreParameters {dt : Nat} {via : Path} {value : Nat} {s : State} {t : State} (h : s.Sound)
    (e : execStoreParameters dt via value s = .next t) :
    t.Sound := by
  unfold execStoreParameters at e; refine sound_act (fun u hu => ?_) h e; repeat' first | (simp (maxDischargeDepth := 60) +contextual [*]; done) | split

theorem sound_execRestoreDefaults {dt : Nat} {via : Path} {value : Nat} {s : State} {t : State} (h : s.Sound)
    (e : execRestoreDefaults dt via value s = .next t) :
    t.Sound := by
  unfold execRestoreDefaults at e; refine sound_act (fun u hu => ?_) h e; repeat' first | (simp (maxDischargeDepth := 60) +contextual [*]; done) | split

@[simp ↓] theorem sound_mapped {s t : State} {via : Path} {k : Key} (h : s.Sound) (ht : t.Sound) :
    (s.mapped via k t).Sound := by
  unfold State.mapped; repeat' first | (simp (maxDischargeDepth := 60) +contextual [*]; done) | split

@[simp ↓] theorem sound_writeMap {s : State} {via : Path} {index sub : Nat} {data : List Byte} (h : s.Sound) :
    (s.writeMap via index sub data).Sound := by
  unfold State.writeMap; repeat' first | (simp (maxDischargeDepth := 60) +contextual [*]; done) | split

@[simp ↓] theorem sound_writeAssigned {s : State} {via : Path} {index : Nat} {data : List Byte} (h : s.Sound) :
    (s.writeAssigned via index data).Sound := by
  unfold State.writeAssigned; repeat' first | (simp (maxDischargeDepth := 60) +contextual [*]; done) | split

theorem sound_commands : ∀ e ∈ commandsA ++ commandsB ++ commandsC, ∀ (s : State) (via : Path) (i v : Nat), s.Sound →
    (e.2 s via i v).Sound := by
  simp only [commandsA, commandsB, commandsC, List.mem_append, or_imp, forall_and, List.forall_mem_cons,
    List.not_mem_nil, false_implies, implies_true, and_true, and_assoc]
  repeat' apply And.intro
  all_goals intro s via i v h
  all_goals (repeat' first | (simp (maxDischargeDepth := 60) +contextual [*]; done) | split)

@[simp ↓] theorem sound_runCommand {s : State} {via : Path} {o : Obj} {i v : Nat} (h : s.Sound) :
    (s.runCommand via o i v).Sound := by
  unfold State.runCommand
  split
  · rename_i e he
    exact sound_commands e (List.mem_of_find?_eq_some he) s via i v h
  · exact sound_refuse h

@[simp ↓] theorem sound_linkTypeWritten {s : State} {b v : Nat} (h : s.Sound) : (s.linkTypeWritten b v).Sound := by
  unfold State.linkTypeWritten; repeat' first | (simp (maxDischargeDepth := 60) +contextual [*]; done) | split

@[simp ↓] theorem sound_cascadeWritten {s : State} {v : Nat} (h : s.Sound) : (s.cascadeWritten v).Sound := by
  unfold State.cascadeWritten; repeat' first | (simp (maxDischargeDepth := 60) +contextual [*]; done) | split

@[simp ↓] theorem sound_afterWrite {s : State} {o : Obj} {i v : Nat} (h : s.Sound) : (s.afterWrite o i v).Sound := by
  unfold State.afterWrite; repeat' first | (simp (maxDischargeDepth := 60) +contextual [*]; done) | split

theorem sound_writesOwn : ∀ e ∈ writesOwn, ∀ (s : State) (via : Path) (i v : Nat), s.Sound → (e.2 s via i v).Sound := by
  simp only [writesOwn, List.map_cons, List.map_nil, List.cons_append, List.nil_append, List.forall_mem_cons,
    List.not_mem_nil, false_implies, implies_true, and_true]
  refine ⟨?_, ?_, ?_, ?_, ?_, ?_, ?_, ?_, ?_, ?_, ?_, ?_, ?_, ?_, ?_⟩
  all_goals intro s via i v h
  all_goals simp (maxDischargeDepth := 60) +contextual [*]

@[simp ↓] theorem sound_writeAccepted {s : State} {via : Path} {o : Obj} {i v : Nat} (h : s.Sound) :
    (s.writeAccepted via o i v).Sound := by
  unfold State.writeAccepted
  simp only
  split
  · rename_i e he
    have ht := sound_writesOwn e (List.mem_of_find?_eq_some he) s via i (o.unreserved v) h
    split
    · exact sound_remember ht
    · exact ht
  · simp (maxDischargeDepth := 60) +contextual [*]

@[simp ↓] theorem sound_writeNum {s : State} {via : Path} {o : Obj} {i : Nat} {v : Int} (h : s.Sound) :
    (s.writeNum via o i v).Sound := by
  unfold State.writeNum; repeat' first | (simp (maxDischargeDepth := 60) +contextual [*]; done) | split

@[simp ↓] theorem sound_writeContent {s : State} {via : Path} {o : Obj} {i : Nat} {b : List Byte} (h : s.Sound) :
    (s.writeContent via o i b).Sound := by
  unfold State.writeContent; repeat' first | (simp (maxDischargeDepth := 60) +contextual [*]; done) | split

@[simp ↓] theorem sound_asMirror {s : State} {via : Path} {k : Key} {f : State → State} (hf : ∀ (x0 : State),
    x0.Sound → (f x0).Sound) (h : s.Sound) :
    (s.asMirror via k f).Sound := by
  unfold State.asMirror; repeat' first | (simp (maxDischargeDepth := 60) +contextual [*]; done) | split

@[simp ↓] theorem sound_m8JobLoad {s : State} {via : Path} (h : s.Sound) : (s.m8JobLoad via).Sound := by
  unfold State.m8JobLoad; repeat' first | (simp (maxDischargeDepth := 60) +contextual [*]; done) | split

@[simp ↓] theorem sound_writeMirror {s : State} {via : Path} {o : Obj} {i : Nat} {v : Int} (h : s.Sound) :
    (s.writeMirror via o i v).Sound := by
  unfold State.writeMirror; repeat' first | (simp (maxDischargeDepth := 60) +contextual [*]; done) | split

@[simp ↓] theorem sound_writeValue {s : State} {via : Path} {o : Obj} {i : Nat} {v : Int} (h : s.Sound) :
    (s.writeValue via o i v).Sound := by
  unfold State.writeValue; repeat' first | (simp (maxDischargeDepth := 60) +contextual [*]; done) | split

@[simp ↓] theorem sound_writeObj {s : State} {via : Path} {o : Obj} {i : Nat} {data : List Byte} (h : s.Sound) :
    (s.writeObj via o i data).Sound := by
  unfold State.writeObj; repeat' first | (simp (maxDischargeDepth := 60) +contextual [*]; done) | split

@[simp ↓] theorem sound_writeAt {s : State} {via : Path} {index sub : Nat} {data : List Byte} (h : s.Sound) :
    (s.writeAt via index sub data).Sound := by
  unfold State.writeAt; repeat' first | (simp (maxDischargeDepth := 60) +contextual [*]; done) | split

theorem sound_execObjectWrite {dt : Nat} {via : Path} {index sub : Nat} {data : List Nat} {s : State} {t : State} (h
    : s.Sound)     (e : execObjectWrite dt via index sub data s = .next t) :
    t.Sound := by
  unfold execObjectWrite at e; refine sound_act (fun u hu => ?_) h e; repeat' first | (simp (maxDischargeDepth := 60) +contextual [*]; done) | split

theorem sound_execM8MirrorWrite {dt : Nat} {via : Path} {index sub value : Nat} {s : State} {t : State} (h : s.Sound)
    (e : execM8MirrorWrite dt via index sub value s = .next t) :
    t.Sound := by
  unfold execM8MirrorWrite at e; refine sound_act (fun u hu => ?_) h e; repeat' first | (simp (maxDischargeDepth := 60) +contextual [*]; done) | split

theorem sound_execM8JobLoad {dt : Nat} {via : Path} {s : State} {t : State} (h : s.Sound)
    (e : execM8JobLoad dt via s = .next t) :
    t.Sound := by
  unfold execM8JobLoad at e; refine sound_act (fun u hu => ?_) h e; repeat' first | (simp (maxDischargeDepth := 60) +contextual [*]; done) | split

@[simp ↓] theorem sound_rowsRead {s : State} {index sub : Nat} (h : s.Sound) : (s.rowsRead index sub).Sound := by
  unfold State.rowsRead; repeat' first | (simp (maxDischargeDepth := 60) +contextual [*]; done) | split

end Sys2Proof.Machine
end

