-- ==== Sys2Proof/Laws/SoundHostLink.lean ====
section
/-! SUPPORT. Laws/SoundHostLink.lean: soundness is kept by the operations and commands of Machine/HostLink.lean. -/
namespace Sys2Proof.Machine
open Reg

theorem sound_execHlIrqStatusWrite {dt fn : Nat} {hi : Bool} {value : Nat} {s : State} {t : State} (h : s.Sound)
    (e : execHlIrqStatusWrite dt fn hi value s = .next t) :
    t.Sound := by
  unfold execHlIrqStatusWrite at e; refine sound_act (fun u hu => ?_) h e; repeat' first | (simp (maxDischargeDepth := 60) +contextual [*]; done) | split

theorem sound_execMsixUnmask {dt fn vector : Nat} {s : State} {t : State} (h : s.Sound)
    (e : execMsixUnmask dt fn vector s = .next t) :
    t.Sound := by
  unfold execMsixUnmask at e; refine sound_act (fun u hu => ?_) h e; repeat' first | (simp (maxDischargeDepth := 60) +contextual [*]; done) | split

theorem sound_execHlWhCommitLoRead {dt fn chan : Nat} {s : State} {t : State} (h : s.Sound)
    (e : execHlWhCommitLoRead dt fn chan s = .next t) :
    t.Sound := by
  unfold execHlWhCommitLoRead at e; refine sound_act (fun u hu => ?_) h e; repeat' first | (simp (maxDischargeDepth := 60) +contextual [*]; done) | split

theorem sound_execApertureWrite {dt fn offset : Nat} {data : List Nat} {s : State} {t : State} (h : s.Sound)
    (e : execApertureWrite dt fn offset data s = .next t) :
    t.Sound := by
  unfold execApertureWrite at e; refine sound_act (fun u hu => ?_) h e; repeat' first | (simp (maxDischargeDepth := 60) +contextual [*]; done) | split

theorem sound_execHlWindowRead {dt fn offset width : Nat} {s : State} {t : State} (h : s.Sound)
    (e : execHlWindowRead dt fn offset width s = .next t) :
    t.Sound := by
  unfold execHlWindowRead at e; refine sound_act (fun u hu => ?_) h e
  repeat' (first
    | (simp (maxDischargeDepth := 60) +contextual [*]; done)
    | simp only [sound_mk, soundOf_parts]
    | with_reducible refine sound_foldl _ (fun t x ht => ?_) ?_
    | with_reducible refine sound_foldl_fst _ (fun t b x ht => ?_) ?_
    | with_reducible refine sound_ite (fun _ => ?_) (fun _ => ?_)
    | split | with_reducible refine sound_fst ?_ (by assumption) | with_reducible refine sound_snd ?_ (by assumption)
    | with_reducible refine sound_ringTake ?_ (by assumption)
    | with_reducible refine sound_calResults ?_ (by assumption)
    | with_reducible refine sound_modeCheck ?_ (by assumption)
    | dsimp only)

@[simp ↓] theorem sound_windowObj {s : State} {fn : Nat} {o : Obj} {i : Nat} {high : Bool} {n raw : Nat} (h : s.Sound) :
    (s.windowObj fn o i high n raw).Sound := by
  unfold State.windowObj; repeat' first | (simp (maxDischargeDepth := 60) +contextual [*]; done) | split

theorem sound_execHlWindowWrite {dt fn offset : Nat} {data : List Nat} {s : State} {t : State} (h : s.Sound)
    (e : execHlWindowWrite dt fn offset data s = .next t) :
    t.Sound := by
  unfold execHlWindowWrite at e; refine sound_act (fun u hu => ?_) h e
  repeat' (first
    | (simp (maxDischargeDepth := 60) +contextual [*]; done)
    | simp only [sound_mk, soundOf_parts]
    | with_reducible refine sound_foldl _ (fun t x ht => ?_) ?_
    | with_reducible refine sound_foldl_fst _ (fun t b x ht => ?_) ?_
    | with_reducible refine sound_ite (fun _ => ?_) (fun _ => ?_)
    | split | with_reducible refine sound_fst ?_ (by assumption) | with_reducible refine sound_snd ?_ (by assumption)
    | with_reducible refine sound_ringTake ?_ (by assumption)
    | with_reducible refine sound_calResults ?_ (by assumption)
    | with_reducible refine sound_modeCheck ?_ (by assumption)
    | dsimp only)

theorem sound_execHlMboxTailWrite {dt fn value : Nat} {s : State} {t : State} (h : s.Sound)
    (e : execHlMboxTailWrite dt fn value s = .next t) :
    t.Sound := by
  unfold execHlMboxTailWrite at e; refine sound_act (fun u hu => ?_) h e; repeat' first | (simp (maxDischargeDepth := 60) +contextual [*]; done) | split

theorem sound_execDictRead {dt index sub bufLen : Nat} {s : State} {t : State} (h : s.Sound)
    (e : execDictRead dt index sub bufLen s = .next t) :
    t.Sound := by
  unfold execDictRead at e; refine sound_act (fun u hu => ?_) h e
  repeat' (first
    | (simp (maxDischargeDepth := 60) +contextual [*]; done)
    | simp only [sound_mk, soundOf_parts]
    | with_reducible refine sound_foldl _ (fun t x ht => ?_) ?_
    | with_reducible refine sound_foldl_fst _ (fun t b x ht => ?_) ?_
    | with_reducible refine sound_ite (fun _ => ?_) (fun _ => ?_)
    | split | with_reducible refine sound_fst ?_ (by assumption) | with_reducible refine sound_snd ?_ (by assumption)
    | with_reducible refine sound_ringTake ?_ (by assumption)
    | with_reducible refine sound_calResults ?_ (by assumption)
    | with_reducible refine sound_modeCheck ?_ (by assumption)
    | dsimp only)

theorem sound_execDictWrite {dt index sub : Nat} {data : List Nat} {s : State} {t : State} (h : s.Sound)
    (e : execDictWrite dt index sub data s = .next t) :
    t.Sound := by
  unfold execDictWrite at e; refine sound_act (fun u hu => ?_) h e; repeat' first | (simp (maxDischargeDepth := 60) +contextual [*]; done) | split

theorem sound_execPkgStore {dt : Nat} {package : List Nat} {s : State} {t : State} (h : s.Sound)
    (e : execPkgStore dt package s = .next t) :
    t.Sound := by
  unfold execPkgStore at e; refine sound_act (fun u hu => ?_) h e; repeat' first | (simp (maxDischargeDepth := 60) +contextual [*]; done) | split

theorem sound_execFwStore {dt : Nat} {image : List Nat} {signatureOk : Bool} {s : State} {t : State} (h : s.Sound)
    (e : execFwStore dt image signatureOk s = .next t) :
    t.Sound := by
  unfold execFwStore at e; refine sound_act (fun u hu => ?_) h e; repeat' first | (simp (maxDischargeDepth := 60) +contextual [*]; done) | split

@[simp ↓] theorem sound_camOp {s : State} {r : CamReq} (h : s.Sound) : (s.camOp r).Sound := by
  unfold State.camOp; repeat' first | (simp (maxDischargeDepth := 60) +contextual [*]; done) | split

theorem sound_execCamRead {dt fn bay addr len : Nat} {s : State} {t : State} (h : s.Sound)
    (e : execCamRead dt fn bay addr len s = .next t) :
    t.Sound := by
  unfold execCamRead at e; refine sound_act (fun u hu => ?_) h e; repeat' first | (simp (maxDischargeDepth := 60) +contextual [*]; done) | split

theorem sound_execCamWrite {dt fn bay addr : Nat} {data : List Nat} {s : State} {t : State} (h : s.Sound)
    (e : execCamWrite dt fn bay addr data s = .next t) :
    t.Sound := by
  unfold execCamWrite at e; refine sound_act (fun u hu => ?_) h e; repeat' first | (simp (maxDischargeDepth := 60) +contextual [*]; done) | split

theorem sound_execCamReply {dt bay : Nat} {data : List Nat} {s : State} {t : State} (h : s.Sound)
    (e : execCamReply dt bay data s = .next t) :
    t.Sound := by
  unfold execCamReply at e; refine sound_act (fun u hu => ?_) h e; repeat' first | (simp (maxDischargeDepth := 60) +contextual [*]; done) | split

theorem sound_execPtTimeout {dt bay : Nat} {s : State} {t : State} (h : s.Sound)
    (e : execPtTimeout dt bay s = .next t) :
    t.Sound := by
  unfold execPtTimeout at e; refine sound_act (fun u hu => ?_) h e; repeat' first | (simp (maxDischargeDepth := 60) +contextual [*]; done) | split

theorem sound_execLinkDown {dt fn : Nat} {s : State} {t : State} (h : s.Sound)
    (e : execLinkDown dt fn s = .next t) :
    t.Sound := by
  unfold execLinkDown at e; refine sound_act (fun u hu => ?_) h e; repeat' first | (simp (maxDischargeDepth := 60) +contextual [*]; done) | split

theorem sound_execHostLinkUp {dt fn gen width : Nat} {s : State} {t : State} (h : s.Sound)
    (e : execHostLinkUp dt fn gen width s = .next t) :
    t.Sound := by
  unfold execHostLinkUp at e; refine sound_act (fun u hu => ?_) h e; repeat' first | (simp (maxDischargeDepth := 60) +contextual [*]; done) | split

end Sys2Proof.Machine
end

