-- ==== Sys2Proof/Laws/SoundEtherCat.lean ====
section
/-! SUPPORT. Laws/SoundEtherCat.lean: soundness is kept by the operations and commands of Machine/EtherCat.lean. -/
namespace Sys2Proof.Machine
open Reg

theorem sound_execAlStateRequest {dt target : Nat} {sm : SmConfig} {s : State} {t : State} (h : s.Sound)
    (e : execAlStateRequest dt target sm s = .next t) :
    t.Sound := by
  unfold execAlStateRequest at e; refine sound_act (fun u hu => ?_) h e; repeat' first | (simp (maxDischargeDepth := 60) +contextual [*]; done) | split

theorem sound_execSm2Watchdog {dt : Nat} {s : State} {t : State} (h : s.Sound)
    (e : execSm2Watchdog dt s = .next t) :
    t.Sound := by
  unfold execSm2Watchdog at e; refine sound_act (fun u hu => ?_) h e; repeat' first | (simp (maxDischargeDepth := 60) +contextual [*]; done) | split

@[simp ↓] theorem sound_rxActs {s : State} {es : List (Key × Nat × Nat)} {prev buf : List Byte} (h : s.Sound) :
    (s.rxActs es prev buf).Sound := by
  unfold State.rxActs; repeat' first | (simp (maxDischargeDepth := 60) +contextual [*]; done) | split

theorem sound_execRxpdoBuffer {dt : Nat} {buffer : List Nat} {s : State} {t : State} (h : s.Sound)
    (e : execRxpdoBuffer dt buffer s = .next t) :
    t.Sound := by
  unfold execRxpdoBuffer at e; refine sound_act (fun u hu => ?_) h e
  repeat' (first
    | (simp (maxDischargeDepth := 60) +contextual [*]; done)
    | simp only [sound_mk, soundOf_parts]
    | with_reducible refine sound_set ?_
    | with_reducible refine sound_rxActs ?_
    | with_reducible refine sound_foldl _ (fun t x ht => ?_) ?_
    | with_reducible refine sound_foldl_fst _ (fun t b x ht => ?_) ?_
    | with_reducible refine sound_ite (fun _ => ?_) (fun _ => ?_)
    | split | with_reducible refine sound_fst ?_ (by assumption) | with_reducible refine sound_snd ?_ (by assumption)
    | with_reducible refine sound_ringTake ?_ (by assumption)
    | with_reducible refine sound_calResults ?_ (by assumption)
    | with_reducible refine sound_modeCheck ?_ (by assumption)
    | (intro _; try dsimp only)
    | dsimp only)

@[simp ↓] theorem sound_answered {s : State} {b : List Byte} (h : s.Sound) : (s.answered b).Sound := by
  unfold State.answered; repeat' first | (simp (maxDischargeDepth := 60) +contextual [*]; done) | split

@[simp ↓] theorem sound_aborted {s : State} {code : Nat} (h : s.Sound) : (s.aborted code).Sound := by
  unfold State.aborted; repeat' first | (simp (maxDischargeDepth := 60) +contextual [*]; done) | split

@[simp ↓] theorem sound_writeEntries {s : State} {index : Nat} {a2 : List (Nat × Nat)} {a3 : List Byte} (h : s.Sound) :
    (s.writeEntries index a2 a3).Sound := by
  induction a2 generalizing s index a3 with
  | nil => unfold State.writeEntries; repeat' first | (simp (maxDischargeDepth := 60) +contextual [*]; done) | split
  | cons x l ih => unfold State.writeEntries; repeat' first | (simp (maxDischargeDepth := 60) +contextual [*]; done) | split

@[simp ↓] theorem sound_writeComplete {s : State} {index sub : Nat} {data : List Byte} (h : s.Sound) :
    (s.writeComplete index sub data).Sound := by
  unfold State.writeComplete; repeat' first | (simp (maxDischargeDepth := 60) +contextual [*]; done) | split

theorem sound_execSdoDownload {dt index sub : Nat} {complete : Bool} {data : List Nat} {s : State} {t : State} (h :
    s.Sound)     (e : execSdoDownload dt index sub complete data s = .next t) :
    t.Sound := by
  unfold execSdoDownload at e; refine sound_act (fun u hu => ?_) h e; repeat' first | (simp (maxDischargeDepth := 60) +contextual [*]; done) | split

theorem sound_execSdoUpload {dt index sub : Nat} {complete : Bool} {s : State} {t : State} (h : s.Sound) (e :
    execSdoUpload dt index sub complete s = .next t) :
    t.Sound := by
  unfold execSdoUpload at e; refine sound_act (fun u hu => ?_) h e
  repeat' (first
    | (simp (maxDischargeDepth := 60) +contextual [*]; done)
    | simp only [sound_mk, soundOf_parts]
    | with_reducible refine sound_foldl _ (fun t x ht => ?_) ?_
    | with_reducible refine sound_foldl_fst _ (fun t b x ht => ?_) ?_
    | with_reducible refine sound_ite (fun _ => ?_) (fun _ => ?_)
    | split | with_reducible refine sound_fst ?_ (by assumption) | with_reducible refine sound_snd ?_ (by assumption)
    | with_reducible refine sound_ringTake ?_ (by assumption)
    | with_reducible refine sound_calResults ?_ (by assumption)
    | with_reducible refine sound_modeCheck ?_ (by assumption)
    | dsimp only)

theorem sound_execSdoInfo {dt kind index sub : Nat} {s : State} {t : State} (h : s.Sound)
    (e : execSdoInfo dt kind index sub s = .next t) :
    t.Sound := by
  unfold execSdoInfo at e; refine sound_act (fun u hu => ?_) h e; repeat' first | (simp (maxDischargeDepth := 60) +contextual [*]; done) | split

theorem sound_execSdoSegmentTimeout {dt : Nat} {s : State} {t : State} (h : s.Sound)
    (e : execSdoSegmentTimeout dt s = .next t) :
    t.Sound := by
  unfold execSdoSegmentTimeout at e; refine sound_act (fun u hu => ?_) h e; repeat' first | (simp (maxDischargeDepth := 60) +contextual [*]; done) | split

theorem sound_execMailboxUnsupported {dt proto : Nat} {s : State} {t : State} (h : s.Sound)
    (e : execMailboxUnsupported dt proto s = .next t) :
    t.Sound := by
  unfold execMailboxUnsupported at e; refine sound_act (fun u hu => ?_) h e; repeat' first | (simp (maxDischargeDepth := 60) +contextual [*]; done) | split

@[simp ↓] theorem sound_foeError {s : State} {code detail : Nat} (h : s.Sound) : (s.foeError code detail).Sound := by
  unfold State.foeError; repeat' first | (simp (maxDischargeDepth := 60) +contextual [*]; done) | split

theorem sound_execFoeWrite {dt : Nat} {name : List Nat} {password : Nat} {data : List Nat} {signatureOk : Bool} {s :
    State} {t : State} (h : s.Sound)     (e : execFoeWrite dt name password data signatureOk s = .next t) :
    t.Sound := by
  unfold execFoeWrite at e; refine sound_act (fun u hu => ?_) h e; repeat' first | (simp (maxDischargeDepth := 60) +contextual [*]; done) | split

theorem sound_execSync0 {dt which : Nat} {s : State} {t : State} (h : s.Sound)
    (e : execSync0 dt which s = .next t) :
    t.Sound := by
  unfold execSync0 at e; refine sound_act (fun u hu => ?_) h e; repeat' first | (simp (maxDischargeDepth := 60) +contextual [*]; done) | split

theorem sound_execSyncLost {dt : Nat} {s : State} {t : State} (h : s.Sound)
    (e : execSyncLost dt s = .next t) :
    t.Sound := by
  unfold execSyncLost at e; refine sound_act (fun u hu => ?_) h e; repeat' first | (simp (maxDischargeDepth := 60) +contextual [*]; done) | split

theorem sound_execDcTimeStep {dt : Nat} {delta : Int} {s : State} {t : State} (h : s.Sound)
    (e : execDcTimeStep dt delta s = .next t) :
    t.Sound := by
  unfold execDcTimeStep at e; refine sound_act (fun u hu => ?_) h e; repeat' first | (simp (maxDischargeDepth := 60) +contextual [*]; done) | split

theorem sound_execDcLockLost {dt : Nat} {difference : Int} {s : State} {t : State} (h : s.Sound)
    (e : execDcLockLost dt difference s = .next t) :
    t.Sound := by
  unfold execDcLockLost at e; refine sound_act (fun u hu => ?_) h e; repeat' first | (simp (maxDischargeDepth := 60) +contextual [*]; done) | split

theorem sound_execDcLocked {dt : Nat} {s : State} {t : State} (h : s.Sound)
    (e : execDcLocked dt s = .next t) :
    t.Sound := by
  unfold execDcLocked at e; refine sound_act (fun u hu => ?_) h e; repeat' first | (simp (maxDischargeDepth := 60) +contextual [*]; done) | split

end Sys2Proof.Machine
end

