-- ==== Sys2Proof/Laws/State.lean ====
section
/-! SUPPORT. Laws/State.lean: which fields of State the shared updates leave as they are, one lemma per field and update, each true
by rfl. -/
namespace Sys2Proof.Machine

variable (s : State) (o : Obj) (i : Nat)

/-! ## A register written -/

@[simp] theorem set_pending (v : Nat) : (s.set o i v).pending = s.pending := rfl
@[simp] theorem set_powered (v : Nat) : (s.set o i v).powered = s.powered := rfl
@[simp] theorem set_now (v : Nat) : (s.set o i v).now = s.now := rfl
@[simp] theorem set_dc (v : Nat) : (s.set o i v).dc = s.dc := rfl
@[simp] theorem set_blobs (v : Nat) : (s.set o i v).blobs = s.blobs := rfl
@[simp] theorem set_sat (v : Nat) : (s.set o i v).sat = s.sat := rfl
@[simp] theorem set_held (v : Nat) : (s.set o i v).held = s.held := rfl
@[simp] theorem set_written (v : Nat) : (s.set o i v).written = s.written := rfl
@[simp] theorem set_writtenBlobs (v : Nat) : (s.set o i v).writtenBlobs = s.writtenBlobs := rfl
@[simp] theorem set_abort (v : Nat) : (s.set o i v).abort = s.abort := rfl
@[simp] theorem set_free (v : Nat) : (s.set o i v).free = s.free := rfl
@[simp] theorem set_trace (v : Nat) : (s.set o i v).trace = s.trace := rfl
@[simp] theorem set_evt (v : Nat) : (s.set o i v).evt = s.evt := rfl
@[simp] theorem set_host (v : Nat) : (s.set o i v).host = s.host := rfl
@[simp] theorem set_ecat (v : Nat) : (s.set o i v).ecat = s.ecat := rfl
@[simp] theorem set_nv (v : Nat) : (s.set o i v).nv = s.nv := rfl
@[simp] theorem set_decls (v : Nat) : (s.set o i v).decls = s.decls := rfl
@[simp] theorem set_fails (v : Nat) : (s.set o i v).fails = s.fails := rfl
@[simp] theorem set_marks (v : Nat) : (s.set o i v).marks = s.marks := rfl
@[simp] theorem set_sramCe (v : Nat) : (s.set o i v).sramCe = s.sramCe := rfl
@[simp] theorem set_motion (v : Nat) : (s.set o i v).motion = s.motion := rfl
@[simp] theorem set_filter (v : Nat) : (s.set o i v).filter = s.filter := rfl
@[simp] theorem set_trig (v : Nat) : (s.set o i v).trig = s.trig := rfl
@[simp] theorem set_lanes (v : Nat) : (s.set o i v).lanes = s.lanes := rfl
@[simp] theorem set_quads (v : Nat) : (s.set o i v).quads = s.quads := rfl
@[simp] theorem set_bays (v : Nat) : (s.set o i v).bays = s.bays := rfl
@[simp] theorem set_cascade (v : Nat) : (s.set o i v).cascade = s.cascade := rfl
@[simp] theorem set_web (v : Nat) : (s.set o i v).web = s.web := rfl
@[simp] theorem set_reject (v : Nat) : (s.set o i v).reject = s.reject := rfl
@[simp] theorem set_bars (v : Nat) : (s.set o i v).bars = s.bars := rfl
@[simp] theorem set_easels (v : Nat) : (s.set o i v).easels = s.easels := rfl
@[simp] theorem set_segs (v : Nat) : (s.set o i v).segs = s.segs := rfl
@[simp] theorem set_notes (v : Nat) : (s.set o i v).notes = s.notes := rfl
@[simp] theorem set_views (v : Nat) : (s.set o i v).views = s.views := rfl
@[simp] theorem set_regs (v : Nat) : (s.set o i v).regs = s.regs := rfl
@[simp] theorem set_tiles (v : Nat) : (s.set o i v).tiles = s.tiles := rfl
@[simp] theorem set_tide (v : Nat) : (s.set o i v).tide = s.tide := rfl
@[simp] theorem set_tideNext (v : Nat) : (s.set o i v).tideNext = s.tideNext := rfl
@[simp] theorem set_tideWin (v : Nat) : (s.set o i v).tideWin = s.tideWin := rfl
@[simp] theorem set_asm (v : Nat) : (s.set o i v).asm = s.asm := rfl
@[simp] theorem set_bench (v : Nat) : (s.set o i v).bench = s.bench := rfl
@[simp] theorem set_cal (v : Nat) : (s.set o i v).cal = s.cal := rfl
@[simp] theorem set_trim (v : Nat) : (s.set o i v).trim = s.trim := rfl
@[simp] theorem set_wharf (v : Nat) : (s.set o i v).wharf = s.wharf := rfl
@[simp] theorem set_dramUnit (v : Nat) : (s.set o i v).dramUnit = s.dramUnit := rfl
@[simp] theorem set_power (v : Nat) : (s.set o i v).power = s.power := rfl
@[simp] theorem set_upkeep (v : Nat) : (s.set o i v).upkeep = s.upkeep := rfl
@[simp] theorem set_dram (v : Nat) : (s.set o i v).dram = s.dram := rfl

/-! ## A string or domain written -/

@[simp] theorem setBlob_pending (b : List Byte) : (s.setBlob o i b).pending = s.pending := rfl
@[simp] theorem setBlob_powered (b : List Byte) : (s.setBlob o i b).powered = s.powered := rfl
@[simp] theorem setBlob_now (b : List Byte) : (s.setBlob o i b).now = s.now := rfl
@[simp] theorem setBlob_dc (b : List Byte) : (s.setBlob o i b).dc = s.dc := rfl
@[simp] theorem setBlob_dict (b : List Byte) : (s.setBlob o i b).dict = s.dict := rfl
@[simp] theorem setBlob_sat (b : List Byte) : (s.setBlob o i b).sat = s.sat := rfl
@[simp] theorem setBlob_held (b : List Byte) : (s.setBlob o i b).held = s.held := rfl
@[simp] theorem setBlob_written (b : List Byte) : (s.setBlob o i b).written = s.written := rfl
@[simp] theorem setBlob_writtenBlobs (b : List Byte) : (s.setBlob o i b).writtenBlobs = s.writtenBlobs := rfl
@[simp] theorem setBlob_abort (b : List Byte) : (s.setBlob o i b).abort = s.abort := rfl
@[simp] theorem setBlob_free (b : List Byte) : (s.setBlob o i b).free = s.free := rfl
@[simp] theorem setBlob_trace (b : List Byte) : (s.setBlob o i b).trace = s.trace := rfl
@[simp] theorem setBlob_evt (b : List Byte) : (s.setBlob o i b).evt = s.evt := rfl
@[simp] theorem setBlob_host (b : List Byte) : (s.setBlob o i b).host = s.host := rfl
@[simp] theorem setBlob_ecat (b : List Byte) : (s.setBlob o i b).ecat = s.ecat := rfl
@[simp] theorem setBlob_nv (b : List Byte) : (s.setBlob o i b).nv = s.nv := rfl
@[simp] theorem setBlob_decls (b : List Byte) : (s.setBlob o i b).decls = s.decls := rfl
@[simp] theorem setBlob_fails (b : List Byte) : (s.setBlob o i b).fails = s.fails := rfl
@[simp] theorem setBlob_marks (b : List Byte) : (s.setBlob o i b).marks = s.marks := rfl
@[simp] theorem setBlob_sramCe (b : List Byte) : (s.setBlob o i b).sramCe = s.sramCe := rfl
@[simp] theorem setBlob_motion (b : List Byte) : (s.setBlob o i b).motion = s.motion := rfl
@[simp] theorem setBlob_filter (b : List Byte) : (s.setBlob o i b).filter = s.filter := rfl
@[simp] theorem setBlob_trig (b : List Byte) : (s.setBlob o i b).trig = s.trig := rfl
@[simp] theorem setBlob_lanes (b : List Byte) : (s.setBlob o i b).lanes = s.lanes := rfl
@[simp] theorem setBlob_quads (b : List Byte) : (s.setBlob o i b).quads = s.quads := rfl
@[simp] theorem setBlob_bays (b : List Byte) : (s.setBlob o i b).bays = s.bays := rfl
@[simp] theorem setBlob_cascade (b : List Byte) : (s.setBlob o i b).cascade = s.cascade := rfl
@[simp] theorem setBlob_web (b : List Byte) : (s.setBlob o i b).web = s.web := rfl
@[simp] theorem setBlob_reject (b : List Byte) : (s.setBlob o i b).reject = s.reject := rfl
@[simp] theorem setBlob_bars (b : List Byte) : (s.setBlob o i b).bars = s.bars := rfl
@[simp] theorem setBlob_easels (b : List Byte) : (s.setBlob o i b).easels = s.easels := rfl
@[simp] theorem setBlob_segs (b : List Byte) : (s.setBlob o i b).segs = s.segs := rfl
@[simp] theorem setBlob_notes (b : List Byte) : (s.setBlob o i b).notes = s.notes := rfl
@[simp] theorem setBlob_views (b : List Byte) : (s.setBlob o i b).views = s.views := rfl
@[simp] theorem setBlob_regs (b : List Byte) : (s.setBlob o i b).regs = s.regs := rfl
@[simp] theorem setBlob_tiles (b : List Byte) : (s.setBlob o i b).tiles = s.tiles := rfl
@[simp] theorem setBlob_tide (b : List Byte) : (s.setBlob o i b).tide = s.tide := rfl
@[simp] theorem setBlob_tideNext (b : List Byte) : (s.setBlob o i b).tideNext = s.tideNext := rfl
@[simp] theorem setBlob_tideWin (b : List Byte) : (s.setBlob o i b).tideWin = s.tideWin := rfl
@[simp] theorem setBlob_asm (b : List Byte) : (s.setBlob o i b).asm = s.asm := rfl
@[simp] theorem setBlob_bench (b : List Byte) : (s.setBlob o i b).bench = s.bench := rfl
@[simp] theorem setBlob_cal (b : List Byte) : (s.setBlob o i b).cal = s.cal := rfl
@[simp] theorem setBlob_trim (b : List Byte) : (s.setBlob o i b).trim = s.trim := rfl
@[simp] theorem setBlob_wharf (b : List Byte) : (s.setBlob o i b).wharf = s.wharf := rfl
@[simp] theorem setBlob_dramUnit (b : List Byte) : (s.setBlob o i b).dramUnit = s.dramUnit := rfl
@[simp] theorem setBlob_power (b : List Byte) : (s.setBlob o i b).power = s.power := rfl
@[simp] theorem setBlob_upkeep (b : List Byte) : (s.setBlob o i b).upkeep = s.upkeep := rfl
@[simp] theorem setBlob_dram (b : List Byte) : (s.setBlob o i b).dram = s.dram := rfl

/-! ## A function of the host link changed -/

@[simp] theorem modFn_pending (f : Nat) (g : Fn → Fn) : (s.modFn f g).pending = s.pending := rfl
@[simp] theorem modFn_powered (f : Nat) (g : Fn → Fn) : (s.modFn f g).powered = s.powered := rfl
@[simp] theorem modFn_now (f : Nat) (g : Fn → Fn) : (s.modFn f g).now = s.now := rfl
@[simp] theorem modFn_dc (f : Nat) (g : Fn → Fn) : (s.modFn f g).dc = s.dc := rfl
@[simp] theorem modFn_dict (f : Nat) (g : Fn → Fn) : (s.modFn f g).dict = s.dict := rfl
@[simp] theorem modFn_blobs (f : Nat) (g : Fn → Fn) : (s.modFn f g).blobs = s.blobs := rfl
@[simp] theorem modFn_sat (f : Nat) (g : Fn → Fn) : (s.modFn f g).sat = s.sat := rfl
@[simp] theorem modFn_held (f : Nat) (g : Fn → Fn) : (s.modFn f g).held = s.held := rfl
@[simp] theorem modFn_written (f : Nat) (g : Fn → Fn) : (s.modFn f g).written = s.written := rfl
@[simp] theorem modFn_writtenBlobs (f : Nat) (g : Fn → Fn) : (s.modFn f g).writtenBlobs = s.writtenBlobs := rfl
@[simp] theorem modFn_abort (f : Nat) (g : Fn → Fn) : (s.modFn f g).abort = s.abort := rfl
@[simp] theorem modFn_free (f : Nat) (g : Fn → Fn) : (s.modFn f g).free = s.free := rfl
@[simp] theorem modFn_trace (f : Nat) (g : Fn → Fn) : (s.modFn f g).trace = s.trace := rfl
@[simp] theorem modFn_evt (f : Nat) (g : Fn → Fn) : (s.modFn f g).evt = s.evt := rfl
@[simp] theorem modFn_ecat (f : Nat) (g : Fn → Fn) : (s.modFn f g).ecat = s.ecat := rfl
@[simp] theorem modFn_nv (f : Nat) (g : Fn → Fn) : (s.modFn f g).nv = s.nv := rfl
@[simp] theorem modFn_decls (f : Nat) (g : Fn → Fn) : (s.modFn f g).decls = s.decls := rfl
@[simp] theorem modFn_fails (f : Nat) (g : Fn → Fn) : (s.modFn f g).fails = s.fails := rfl
@[simp] theorem modFn_marks (f : Nat) (g : Fn → Fn) : (s.modFn f g).marks = s.marks := rfl
@[simp] theorem modFn_sramCe (f : Nat) (g : Fn → Fn) : (s.modFn f g).sramCe = s.sramCe := rfl
@[simp] theorem modFn_motion (f : Nat) (g : Fn → Fn) : (s.modFn f g).motion = s.motion := rfl
@[simp] theorem modFn_filter (f : Nat) (g : Fn → Fn) : (s.modFn f g).filter = s.filter := rfl
@[simp] theorem modFn_trig (f : Nat) (g : Fn → Fn) : (s.modFn f g).trig = s.trig := rfl
@[simp] theorem modFn_lanes (f : Nat) (g : Fn → Fn) : (s.modFn f g).lanes = s.lanes := rfl
@[simp] theorem modFn_quads (f : Nat) (g : Fn → Fn) : (s.modFn f g).quads = s.quads := rfl
@[simp] theorem modFn_bays (f : Nat) (g : Fn → Fn) : (s.modFn f g).bays = s.bays := rfl
@[simp] theorem modFn_cascade (f : Nat) (g : Fn → Fn) : (s.modFn f g).cascade = s.cascade := rfl
@[simp] theorem modFn_web (f : Nat) (g : Fn → Fn) : (s.modFn f g).web = s.web := rfl
@[simp] theorem modFn_reject (f : Nat) (g : Fn → Fn) : (s.modFn f g).reject = s.reject := rfl
@[simp] theorem modFn_bars (f : Nat) (g : Fn → Fn) : (s.modFn f g).bars = s.bars := rfl
@[simp] theorem modFn_easels (f : Nat) (g : Fn → Fn) : (s.modFn f g).easels = s.easels := rfl
@[simp] theorem modFn_segs (f : Nat) (g : Fn → Fn) : (s.modFn f g).segs = s.segs := rfl
@[simp] theorem modFn_notes (f : Nat) (g : Fn → Fn) : (s.modFn f g).notes = s.notes := rfl
@[simp] theorem modFn_views (f : Nat) (g : Fn → Fn) : (s.modFn f g).views = s.views := rfl
@[simp] theorem modFn_regs (f : Nat) (g : Fn → Fn) : (s.modFn f g).regs = s.regs := rfl
@[simp] theorem modFn_tiles (f : Nat) (g : Fn → Fn) : (s.modFn f g).tiles = s.tiles := rfl
@[simp] theorem modFn_tide (f : Nat) (g : Fn → Fn) : (s.modFn f g).tide = s.tide := rfl
@[simp] theorem modFn_tideNext (f : Nat) (g : Fn → Fn) : (s.modFn f g).tideNext = s.tideNext := rfl
@[simp] theorem modFn_tideWin (f : Nat) (g : Fn → Fn) : (s.modFn f g).tideWin = s.tideWin := rfl
@[simp] theorem modFn_asm (f : Nat) (g : Fn → Fn) : (s.modFn f g).asm = s.asm := rfl
@[simp] theorem modFn_bench (f : Nat) (g : Fn → Fn) : (s.modFn f g).bench = s.bench := rfl
@[simp] theorem modFn_cal (f : Nat) (g : Fn → Fn) : (s.modFn f g).cal = s.cal := rfl
@[simp] theorem modFn_trim (f : Nat) (g : Fn → Fn) : (s.modFn f g).trim = s.trim := rfl
@[simp] theorem modFn_wharf (f : Nat) (g : Fn → Fn) : (s.modFn f g).wharf = s.wharf := rfl
@[simp] theorem modFn_dramUnit (f : Nat) (g : Fn → Fn) : (s.modFn f g).dramUnit = s.dramUnit := rfl
@[simp] theorem modFn_power (f : Nat) (g : Fn → Fn) : (s.modFn f g).power = s.power := rfl
@[simp] theorem modFn_upkeep (f : Nat) (g : Fn → Fn) : (s.modFn f g).upkeep = s.upkeep := rfl
@[simp] theorem modFn_dram (f : Nat) (g : Fn → Fn) : (s.modFn f g).dram = s.dram := rfl

/-! ## A write accepted -/

@[simp] theorem accept_pending : (s.accept).pending = s.pending := rfl
@[simp] theorem accept_powered : (s.accept).powered = s.powered := rfl
@[simp] theorem accept_now : (s.accept).now = s.now := rfl
@[simp] theorem accept_dc : (s.accept).dc = s.dc := rfl
@[simp] theorem accept_dict : (s.accept).dict = s.dict := rfl
@[simp] theorem accept_blobs : (s.accept).blobs = s.blobs := rfl
@[simp] theorem accept_sat : (s.accept).sat = s.sat := rfl
@[simp] theorem accept_held : (s.accept).held = s.held := rfl
@[simp] theorem accept_written : (s.accept).written = s.written := rfl
@[simp] theorem accept_writtenBlobs : (s.accept).writtenBlobs = s.writtenBlobs := rfl
@[simp] theorem accept_free : (s.accept).free = s.free := rfl
@[simp] theorem accept_trace : (s.accept).trace = s.trace := rfl
@[simp] theorem accept_evt : (s.accept).evt = s.evt := rfl
@[simp] theorem accept_host : (s.accept).host = s.host := rfl
@[simp] theorem accept_ecat : (s.accept).ecat = s.ecat := rfl
@[simp] theorem accept_nv : (s.accept).nv = s.nv := rfl
@[simp] theorem accept_decls : (s.accept).decls = s.decls := rfl
@[simp] theorem accept_fails : (s.accept).fails = s.fails := rfl
@[simp] theorem accept_marks : (s.accept).marks = s.marks := rfl
@[simp] theorem accept_sramCe : (s.accept).sramCe = s.sramCe := rfl
@[simp] theorem accept_motion : (s.accept).motion = s.motion := rfl
@[simp] theorem accept_filter : (s.accept).filter = s.filter := rfl
@[simp] theorem accept_trig : (s.accept).trig = s.trig := rfl
@[simp] theorem accept_lanes : (s.accept).lanes = s.lanes := rfl
@[simp] theorem accept_quads : (s.accept).quads = s.quads := rfl
@[simp] theorem accept_bays : (s.accept).bays = s.bays := rfl
@[simp] theorem accept_cascade : (s.accept).cascade = s.cascade := rfl
@[simp] theorem accept_web : (s.accept).web = s.web := rfl
@[simp] theorem accept_reject : (s.accept).reject = s.reject := rfl
@[simp] theorem accept_bars : (s.accept).bars = s.bars := rfl
@[simp] theorem accept_easels : (s.accept).easels = s.easels := rfl
@[simp] theorem accept_segs : (s.accept).segs = s.segs := rfl
@[simp] theorem accept_notes : (s.accept).notes = s.notes := rfl
@[simp] theorem accept_views : (s.accept).views = s.views := rfl
@[simp] theorem accept_regs : (s.accept).regs = s.regs := rfl
@[simp] theorem accept_tiles : (s.accept).tiles = s.tiles := rfl
@[simp] theorem accept_tide : (s.accept).tide = s.tide := rfl
@[simp] theorem accept_tideNext : (s.accept).tideNext = s.tideNext := rfl
@[simp] theorem accept_tideWin : (s.accept).tideWin = s.tideWin := rfl
@[simp] theorem accept_asm : (s.accept).asm = s.asm := rfl
@[simp] theorem accept_bench : (s.accept).bench = s.bench := rfl
@[simp] theorem accept_cal : (s.accept).cal = s.cal := rfl
@[simp] theorem accept_trim : (s.accept).trim = s.trim := rfl
@[simp] theorem accept_wharf : (s.accept).wharf = s.wharf := rfl
@[simp] theorem accept_dramUnit : (s.accept).dramUnit = s.dramUnit := rfl
@[simp] theorem accept_power : (s.accept).power = s.power := rfl
@[simp] theorem accept_upkeep : (s.accept).upkeep = s.upkeep := rfl
@[simp] theorem accept_dram : (s.accept).dram = s.dram := rfl

/-! ## The other shared updates are writes of registers -/

theorem setInt_eq (v : Int) : s.setInt o i v = s.set o i (ofSigned o.ty.bits v) := rfl

theorem volume_eq (n : Nat) : s.volume o i n = s.set o i (s.get o i + n) := rfl

theorem life_eq (n : Nat) : s.life o i n = s.set o i (min 0xFFFFFFFF (s.get o i + n)) := rfl

theorem fresh_eq : s.fresh = (s.free, { s with free := s.free + 1 }) := rfl

theorem tally_eq : s.tally o i = s.tallyN o i 1 := rfl

@[simp] theorem accept_abort : s.accept.abort = 0 := rfl

end Sys2Proof.Machine
end

