-- ==== Sys2Proof/Laws/Time.lean ====
section
/-! SUPPORT. Laws/Time.lean: what passing time may do to a state, and what a command's frame says of its outcome. -/
namespace Sys2Proof.Machine

/-- The trace island's writing moves the trace, and TRACE_HEAD among the registers. -/
theorem traceDrain_eq (n : Nat) (s : State) : ∃ d tr, s.traceDrain n = { s with dict := d, trace := tr } ∧
    ∀ k, Reg.TRACE_HEAD.avoids k → Dict.look d k = s.dict.look k := by
  induction n generalizing s with
  | zero => exact ⟨s.dict, s.trace, rfl, fun _ _ => rfl⟩
  | succ n ih =>
    simp only [State.traceDrain]
    split
    · exact ⟨s.dict, s.trace, rfl, fun _ _ => rfl⟩
    · obtain ⟨d, tr, e, h⟩ := ih ({ s with trace := _ }.set Reg.TRACE_HEAD 0 (s.get Reg.TRACE_HEAD + 1))
      refine ⟨d, tr, e, fun k hk => ?_⟩
      rw [h k hk]
      simp only [State.set]
      exact Dict.look_write_avoids hk

/-- Passing time moves the clocks, the trace, the emergency messages that wait, and TRACE_HEAD among the registers. -/
theorem advance_eq (s : State) (dt : Ns) : ∃ d tr ec, s.advance dt =
      { s with now := s.now + dt, dc := (s.advance dt).dc, dict := d, trace := tr, ecat := ec } ∧
    ∀ k, Reg.TRACE_HEAD.avoids k → Dict.look d k = s.dict.look k := by
  unfold State.advance
  split
  · rename_i h; subst h; exact ⟨s.dict, s.trace, s.ecat, rfl, fun _ _ => rfl⟩
  · obtain ⟨d, tr, e, h⟩ := traceDrain_eq (min (dt / 2) s.trace.queue.length)
      { s with now := s.now + dt, dc := (s.dc + dt) % 2 ^ 64, ecat := { s.ecat with emcyQ := [] } }
    exact ⟨d, tr, { s.ecat with emcyQ := [] }, by rw [e], h⟩

@[simp] theorem advance_pending (s : State) (dt : Ns) : (s.advance dt).pending = s.pending := by
  obtain ⟨d, tr, ec, e, -⟩ := advance_eq s dt; rw [e]

@[simp] theorem advance_powered (s : State) (dt : Ns) : (s.advance dt).powered = s.powered := by
  obtain ⟨d, tr, ec, e, -⟩ := advance_eq s dt; rw [e]

@[simp] theorem advance_blobs (s : State) (dt : Ns) : (s.advance dt).blobs = s.blobs := by
  obtain ⟨d, tr, ec, e, -⟩ := advance_eq s dt; rw [e]

@[simp] theorem advance_sat (s : State) (dt : Ns) : (s.advance dt).sat = s.sat := by
  obtain ⟨d, tr, ec, e, -⟩ := advance_eq s dt; rw [e]

@[simp] theorem advance_held (s : State) (dt : Ns) : (s.advance dt).held = s.held := by
  obtain ⟨d, tr, ec, e, -⟩ := advance_eq s dt; rw [e]

@[simp] theorem advance_written (s : State) (dt : Ns) : (s.advance dt).written = s.written := by
  obtain ⟨d, tr, ec, e, -⟩ := advance_eq s dt; rw [e]

@[simp] theorem advance_writtenBlobs (s : State) (dt : Ns) : (s.advance dt).writtenBlobs = s.writtenBlobs := by
  obtain ⟨d, tr, ec, e, -⟩ := advance_eq s dt; rw [e]

@[simp] theorem advance_abort (s : State) (dt : Ns) : (s.advance dt).abort = s.abort := by
  obtain ⟨d, tr, ec, e, -⟩ := advance_eq s dt; rw [e]

@[simp] theorem advance_free (s : State) (dt : Ns) : (s.advance dt).free = s.free := by
  obtain ⟨d, tr, ec, e, -⟩ := advance_eq s dt; rw [e]

@[simp] theorem advance_evt (s : State) (dt : Ns) : (s.advance dt).evt = s.evt := by
  obtain ⟨d, tr, ec, e, -⟩ := advance_eq s dt; rw [e]

@[simp] theorem advance_host (s : State) (dt : Ns) : (s.advance dt).host = s.host := by
  obtain ⟨d, tr, ec, e, -⟩ := advance_eq s dt; rw [e]

@[simp] theorem advance_nv (s : State) (dt : Ns) : (s.advance dt).nv = s.nv := by
  obtain ⟨d, tr, ec, e, -⟩ := advance_eq s dt; rw [e]

@[simp] theorem advance_decls (s : State) (dt : Ns) : (s.advance dt).decls = s.decls := by
  obtain ⟨d, tr, ec, e, -⟩ := advance_eq s dt; rw [e]

@[simp] theorem advance_fails (s : State) (dt : Ns) : (s.advance dt).fails = s.fails := by
  obtain ⟨d, tr, ec, e, -⟩ := advance_eq s dt; rw [e]

@[simp] theorem advance_marks (s : State) (dt : Ns) : (s.advance dt).marks = s.marks := by
  obtain ⟨d, tr, ec, e, -⟩ := advance_eq s dt; rw [e]

@[simp] theorem advance_sramCe (s : State) (dt : Ns) : (s.advance dt).sramCe = s.sramCe := by
  obtain ⟨d, tr, ec, e, -⟩ := advance_eq s dt; rw [e]

@[simp] theorem advance_motion (s : State) (dt : Ns) : (s.advance dt).motion = s.motion := by
  obtain ⟨d, tr, ec, e, -⟩ := advance_eq s dt; rw [e]

@[simp] theorem advance_filter (s : State) (dt : Ns) : (s.advance dt).filter = s.filter := by
  obtain ⟨d, tr, ec, e, -⟩ := advance_eq s dt; rw [e]

@[simp] theorem advance_trig (s : State) (dt : Ns) : (s.advance dt).trig = s.trig := by
  obtain ⟨d, tr, ec, e, -⟩ := advance_eq s dt; rw [e]

@[simp] theorem advance_lanes (s : State) (dt : Ns) : (s.advance dt).lanes = s.lanes := by
  obtain ⟨d, tr, ec, e, -⟩ := advance_eq s dt; rw [e]

@[simp] theorem advance_quads (s : State) (dt : Ns) : (s.advance dt).quads = s.quads := by
  obtain ⟨d, tr, ec, e, -⟩ := advance_eq s dt; rw [e]

@[simp] theorem advance_bays (s : State) (dt : Ns) : (s.advance dt).bays = s.bays := by
  obtain ⟨d, tr, ec, e, -⟩ := advance_eq s dt; rw [e]

@[simp] theorem advance_cascade (s : State) (dt : Ns) : (s.advance dt).cascade = s.cascade := by
  obtain ⟨d, tr, ec, e, -⟩ := advance_eq s dt; rw [e]

@[simp] theorem advance_web (s : State) (dt : Ns) : (s.advance dt).web = s.web := by
  obtain ⟨d, tr, ec, e, -⟩ := advance_eq s dt; rw [e]

@[simp] theorem advance_reject (s : State) (dt : Ns) : (s.advance dt).reject = s.reject := by
  obtain ⟨d, tr, ec, e, -⟩ := advance_eq s dt; rw [e]

@[simp] theorem advance_bars (s : State) (dt : Ns) : (s.advance dt).bars = s.bars := by
  obtain ⟨d, tr, ec, e, -⟩ := advance_eq s dt; rw [e]

@[simp] theorem advance_easels (s : State) (dt : Ns) : (s.advance dt).easels = s.easels := by
  obtain ⟨d, tr, ec, e, -⟩ := advance_eq s dt; rw [e]

@[simp] theorem advance_segs (s : State) (dt : Ns) : (s.advance dt).segs = s.segs := by
  obtain ⟨d, tr, ec, e, -⟩ := advance_eq s dt; rw [e]

@[simp] theorem advance_notes (s : State) (dt : Ns) : (s.advance dt).notes = s.notes := by
  obtain ⟨d, tr, ec, e, -⟩ := advance_eq s dt; rw [e]

@[simp] theorem advance_views (s : State) (dt : Ns) : (s.advance dt).views = s.views := by
  obtain ⟨d, tr, ec, e, -⟩ := advance_eq s dt; rw [e]

@[simp] theorem advance_regs (s : State) (dt : Ns) : (s.advance dt).regs = s.regs := by
  obtain ⟨d, tr, ec, e, -⟩ := advance_eq s dt; rw [e]

@[simp] theorem advance_tiles (s : State) (dt : Ns) : (s.advance dt).tiles = s.tiles := by
  obtain ⟨d, tr, ec, e, -⟩ := advance_eq s dt; rw [e]

@[simp] theorem advance_tide (s : State) (dt : Ns) : (s.advance dt).tide = s.tide := by
  obtain ⟨d, tr, ec, e, -⟩ := advance_eq s dt; rw [e]

@[simp] theorem advance_tideNext (s : State) (dt : Ns) : (s.advance dt).tideNext = s.tideNext := by
  obtain ⟨d, tr, ec, e, -⟩ := advance_eq s dt; rw [e]

@[simp] theorem advance_tideWin (s : State) (dt : Ns) : (s.advance dt).tideWin = s.tideWin := by
  obtain ⟨d, tr, ec, e, -⟩ := advance_eq s dt; rw [e]

@[simp] theorem advance_asm (s : State) (dt : Ns) : (s.advance dt).asm = s.asm := by
  obtain ⟨d, tr, ec, e, -⟩ := advance_eq s dt; rw [e]

@[simp] theorem advance_bench (s : State) (dt : Ns) : (s.advance dt).bench = s.bench := by
  obtain ⟨d, tr, ec, e, -⟩ := advance_eq s dt; rw [e]

@[simp] theorem advance_cal (s : State) (dt : Ns) : (s.advance dt).cal = s.cal := by
  obtain ⟨d, tr, ec, e, -⟩ := advance_eq s dt; rw [e]

@[simp] theorem advance_trim (s : State) (dt : Ns) : (s.advance dt).trim = s.trim := by
  obtain ⟨d, tr, ec, e, -⟩ := advance_eq s dt; rw [e]

@[simp] theorem advance_wharf (s : State) (dt : Ns) : (s.advance dt).wharf = s.wharf := by
  obtain ⟨d, tr, ec, e, -⟩ := advance_eq s dt; rw [e]

@[simp] theorem advance_dramUnit (s : State) (dt : Ns) : (s.advance dt).dramUnit = s.dramUnit := by
  obtain ⟨d, tr, ec, e, -⟩ := advance_eq s dt; rw [e]

@[simp] theorem advance_power (s : State) (dt : Ns) : (s.advance dt).power = s.power := by
  obtain ⟨d, tr, ec, e, -⟩ := advance_eq s dt; rw [e]

@[simp] theorem advance_upkeep (s : State) (dt : Ns) : (s.advance dt).upkeep = s.upkeep := by
  obtain ⟨d, tr, ec, e, -⟩ := advance_eq s dt; rw [e]

@[simp] theorem advance_dram (s : State) (dt : Ns) : (s.advance dt).dram = s.dram := by
  obtain ⟨d, tr, ec, e, -⟩ := advance_eq s dt; rw [e]

@[simp] theorem advance_now (s : State) (dt : Ns) : (s.advance dt).now = s.now + dt := by
  obtain ⟨d, tr, ec, e, -⟩ := advance_eq s dt; rw [e]

/-- A register other than TRACE_HEAD reads after some time what it read before. -/
theorem advance_get (s : State) (dt : Ns) {o : Obj} {i : Nat} (h : Reg.TRACE_HEAD.avoids (o.key i)) :
    (s.advance dt).get o i = s.get o i := by
  obtain ⟨d, tr, ec, e, hd⟩ := advance_eq s dt
  apply get_congr
  rw [e]
  exact hd _ h

/-- A command that names a unit the module has completes, and the queue of waiting commands is as before. -/
theorem act_next {ok : Bool} {dt : Ns} {s : State} {f : State → State} (h : ok = true) :
    ∃ t, act ok dt s f = .next t ∧ t.pending = s.pending := by
  unfold act
  simp only [h, if_true]
  split
  · exact ⟨_, rfl, rfl⟩
  · exact ⟨_, rfl, by simp⟩

/-- A powered module's command has its effect after its time. -/
theorem act_powered {ok : Bool} {dt : Ns} {s : State} {f : State → State} (h : ok = true) (hp : s.powered = true) :
    act ok dt s f = .next { f (s.advance dt) with pending := s.pending } := by
  unfold act; simp only [h, hp, if_true]

/-- On an unpowered module only time passes. -/
theorem act_unpowered {ok : Bool} {dt : Ns} {s : State} {f : State → State} (h : ok = true) (hp : s.powered = false) :
    act ok dt s f = .next (s.advance dt) := by
  unfold act; simp [h, hp]

/-- A command that names a unit the module does not have stops. -/
theorem act_fault {ok : Bool} {dt : Ns} {s : State} {f : State → State} (h : ok = false) :
    act ok dt s f = .fault .noSuchUnit := by
  unfold act; simp [h]

end Sys2Proof.Machine
end

