-- ==== Sys2Proof/Laws/Updates.lean ====
section
/-! SUPPORT. Laws/Updates.lean: which fields of State an update of one unit's record leaves as they are, one lemma per field and
update, each true by rfl. -/
namespace Sys2Proof.Machine

variable (s : State)

/-! ## modBay -/

@[simp] theorem modBay_get (b : Nat) (f : Bay → Bay) (o : Obj) (i : Nat) : (s.modBay b f).get o i = s.get o i := rfl
@[simp] theorem modBay_pending (b : Nat) (f : Bay → Bay) : (s.modBay b f).pending = s.pending := rfl
@[simp] theorem modBay_powered (b : Nat) (f : Bay → Bay) : (s.modBay b f).powered = s.powered := rfl
@[simp] theorem modBay_now (b : Nat) (f : Bay → Bay) : (s.modBay b f).now = s.now := rfl
@[simp] theorem modBay_dc (b : Nat) (f : Bay → Bay) : (s.modBay b f).dc = s.dc := rfl
@[simp] theorem modBay_dict (b : Nat) (f : Bay → Bay) : (s.modBay b f).dict = s.dict := rfl
@[simp] theorem modBay_blobs (b : Nat) (f : Bay → Bay) : (s.modBay b f).blobs = s.blobs := rfl
@[simp] theorem modBay_sat (b : Nat) (f : Bay → Bay) : (s.modBay b f).sat = s.sat := rfl
@[simp] theorem modBay_held (b : Nat) (f : Bay → Bay) : (s.modBay b f).held = s.held := rfl
@[simp] theorem modBay_written (b : Nat) (f : Bay → Bay) : (s.modBay b f).written = s.written := rfl
@[simp] theorem modBay_writtenBlobs (b : Nat) (f : Bay → Bay) : (s.modBay b f).writtenBlobs = s.writtenBlobs := rfl
@[simp] theorem modBay_abort (b : Nat) (f : Bay → Bay) : (s.modBay b f).abort = s.abort := rfl
@[simp] theorem modBay_free (b : Nat) (f : Bay → Bay) : (s.modBay b f).free = s.free := rfl
@[simp] theorem modBay_trace (b : Nat) (f : Bay → Bay) : (s.modBay b f).trace = s.trace := rfl
@[simp] theorem modBay_evt (b : Nat) (f : Bay → Bay) : (s.modBay b f).evt = s.evt := rfl
@[simp] theorem modBay_host (b : Nat) (f : Bay → Bay) : (s.modBay b f).host = s.host := rfl
@[simp] theorem modBay_ecat (b : Nat) (f : Bay → Bay) : (s.modBay b f).ecat = s.ecat := rfl
@[simp] theorem modBay_nv (b : Nat) (f : Bay → Bay) : (s.modBay b f).nv = s.nv := rfl
@[simp] theorem modBay_decls (b : Nat) (f : Bay → Bay) : (s.modBay b f).decls = s.decls := rfl
@[simp] theorem modBay_fails (b : Nat) (f : Bay → Bay) : (s.modBay b f).fails = s.fails := rfl
@[simp] theorem modBay_marks (b : Nat) (f : Bay → Bay) : (s.modBay b f).marks = s.marks := rfl
@[simp] theorem modBay_sramCe (b : Nat) (f : Bay → Bay) : (s.modBay b f).sramCe = s.sramCe := rfl
@[simp] theorem modBay_motion (b : Nat) (f : Bay → Bay) : (s.modBay b f).motion = s.motion := rfl
@[simp] theorem modBay_filter (b : Nat) (f : Bay → Bay) : (s.modBay b f).filter = s.filter := rfl
@[simp] theorem modBay_trig (b : Nat) (f : Bay → Bay) : (s.modBay b f).trig = s.trig := rfl
@[simp] theorem modBay_lanes (b : Nat) (f : Bay → Bay) : (s.modBay b f).lanes = s.lanes := rfl
@[simp] theorem modBay_quads (b : Nat) (f : Bay → Bay) : (s.modBay b f).quads = s.quads := rfl
@[simp] theorem modBay_cascade (b : Nat) (f : Bay → Bay) : (s.modBay b f).cascade = s.cascade := rfl
@[simp] theorem modBay_web (b : Nat) (f : Bay → Bay) : (s.modBay b f).web = s.web := rfl
@[simp] theorem modBay_reject (b : Nat) (f : Bay → Bay) : (s.modBay b f).reject = s.reject := rfl
@[simp] theorem modBay_bars (b : Nat) (f : Bay → Bay) : (s.modBay b f).bars = s.bars := rfl
@[simp] theorem modBay_easels (b : Nat) (f : Bay → Bay) : (s.modBay b f).easels = s.easels := rfl
@[simp] theorem modBay_segs (b : Nat) (f : Bay → Bay) : (s.modBay b f).segs = s.segs := rfl
@[simp] theorem modBay_notes (b : Nat) (f : Bay → Bay) : (s.modBay b f).notes = s.notes := rfl
@[simp] theorem modBay_views (b : Nat) (f : Bay → Bay) : (s.modBay b f).views = s.views := rfl
@[simp] theorem modBay_regs (b : Nat) (f : Bay → Bay) : (s.modBay b f).regs = s.regs := rfl
@[simp] theorem modBay_tiles (b : Nat) (f : Bay → Bay) : (s.modBay b f).tiles = s.tiles := rfl
@[simp] theorem modBay_tide (b : Nat) (f : Bay → Bay) : (s.modBay b f).tide = s.tide := rfl
@[simp] theorem modBay_tideNext (b : Nat) (f : Bay → Bay) : (s.modBay b f).tideNext = s.tideNext := rfl
@[simp] theorem modBay_tideWin (b : Nat) (f : Bay → Bay) : (s.modBay b f).tideWin = s.tideWin := rfl
@[simp] theorem modBay_asm (b : Nat) (f : Bay → Bay) : (s.modBay b f).asm = s.asm := rfl
@[simp] theorem modBay_bench (b : Nat) (f : Bay → Bay) : (s.modBay b f).bench = s.bench := rfl
@[simp] theorem modBay_cal (b : Nat) (f : Bay → Bay) : (s.modBay b f).cal = s.cal := rfl
@[simp] theorem modBay_trim (b : Nat) (f : Bay → Bay) : (s.modBay b f).trim = s.trim := rfl
@[simp] theorem modBay_wharf (b : Nat) (f : Bay → Bay) : (s.modBay b f).wharf = s.wharf := rfl
@[simp] theorem modBay_dramUnit (b : Nat) (f : Bay → Bay) : (s.modBay b f).dramUnit = s.dramUnit := rfl
@[simp] theorem modBay_power (b : Nat) (f : Bay → Bay) : (s.modBay b f).power = s.power := rfl
@[simp] theorem modBay_upkeep (b : Nat) (f : Bay → Bay) : (s.modBay b f).upkeep = s.upkeep := rfl
@[simp] theorem modBay_dram (b : Nat) (f : Bay → Bay) : (s.modBay b f).dram = s.dram := rfl

/-! ## modLane -/

@[simp] theorem modLane_get (l : Nat) (f : Lane → Lane) (o : Obj) (i : Nat) : (s.modLane l f).get o i = s.get o i := rfl
@[simp] theorem modLane_pending (l : Nat) (f : Lane → Lane) : (s.modLane l f).pending = s.pending := rfl
@[simp] theorem modLane_powered (l : Nat) (f : Lane → Lane) : (s.modLane l f).powered = s.powered := rfl
@[simp] theorem modLane_now (l : Nat) (f : Lane → Lane) : (s.modLane l f).now = s.now := rfl
@[simp] theorem modLane_dc (l : Nat) (f : Lane → Lane) : (s.modLane l f).dc = s.dc := rfl
@[simp] theorem modLane_dict (l : Nat) (f : Lane → Lane) : (s.modLane l f).dict = s.dict := rfl
@[simp] theorem modLane_blobs (l : Nat) (f : Lane → Lane) : (s.modLane l f).blobs = s.blobs := rfl
@[simp] theorem modLane_sat (l : Nat) (f : Lane → Lane) : (s.modLane l f).sat = s.sat := rfl
@[simp] theorem modLane_held (l : Nat) (f : Lane → Lane) : (s.modLane l f).held = s.held := rfl
@[simp] theorem modLane_written (l : Nat) (f : Lane → Lane) : (s.modLane l f).written = s.written := rfl
@[simp] theorem modLane_writtenBlobs (l : Nat) (f : Lane → Lane) : (s.modLane l f).writtenBlobs = s.writtenBlobs := rfl
@[simp] theorem modLane_abort (l : Nat) (f : Lane → Lane) : (s.modLane l f).abort = s.abort := rfl
@[simp] theorem modLane_free (l : Nat) (f : Lane → Lane) : (s.modLane l f).free = s.free := rfl
@[simp] theorem modLane_trace (l : Nat) (f : Lane → Lane) : (s.modLane l f).trace = s.trace := rfl
@[simp] theorem modLane_evt (l : Nat) (f : Lane → Lane) : (s.modLane l f).evt = s.evt := rfl
@[simp] theorem modLane_host (l : Nat) (f : Lane → Lane) : (s.modLane l f).host = s.host := rfl
@[simp] theorem modLane_ecat (l : Nat) (f : Lane → Lane) : (s.modLane l f).ecat = s.ecat := rfl
@[simp] theorem modLane_nv (l : Nat) (f : Lane → Lane) : (s.modLane l f).nv = s.nv := rfl
@[simp] theorem modLane_decls (l : Nat) (f : Lane → Lane) : (s.modLane l f).decls = s.decls := rfl
@[simp] theorem modLane_fails (l : Nat) (f : Lane → Lane) : (s.modLane l f).fails = s.fails := rfl
@[simp] theorem modLane_marks (l : Nat) (f : Lane → Lane) : (s.modLane l f).marks = s.marks := rfl
@[simp] theorem modLane_sramCe (l : Nat) (f : Lane → Lane) : (s.modLane l f).sramCe = s.sramCe := rfl
@[simp] theorem modLane_motion (l : Nat) (f : Lane → Lane) : (s.modLane l f).motion = s.motion := rfl
@[simp] theorem modLane_filter (l : Nat) (f : Lane → Lane) : (s.modLane l f).filter = s.filter := rfl
@[simp] theorem modLane_trig (l : Nat) (f : Lane → Lane) : (s.modLane l f).trig = s.trig := rfl
@[simp] theorem modLane_quads (l : Nat) (f : Lane → Lane) : (s.modLane l f).quads = s.quads := rfl
@[simp] theorem modLane_bays (l : Nat) (f : Lane → Lane) : (s.modLane l f).bays = s.bays := rfl
@[simp] theorem modLane_cascade (l : Nat) (f : Lane → Lane) : (s.modLane l f).cascade = s.cascade := rfl
@[simp] theorem modLane_web (l : Nat) (f : Lane → Lane) : (s.modLane l f).web = s.web := rfl
@[simp] theorem modLane_reject (l : Nat) (f : Lane → Lane) : (s.modLane l f).reject = s.reject := rfl
@[simp] theorem modLane_bars (l : Nat) (f : Lane → Lane) : (s.modLane l f).bars = s.bars := rfl
@[simp] theorem modLane_easels (l : Nat) (f : Lane → Lane) : (s.modLane l f).easels = s.easels := rfl
@[simp] theorem modLane_segs (l : Nat) (f : Lane → Lane) : (s.modLane l f).segs = s.segs := rfl
@[simp] theorem modLane_notes (l : Nat) (f : Lane → Lane) : (s.modLane l f).notes = s.notes := rfl
@[simp] theorem modLane_views (l : Nat) (f : Lane → Lane) : (s.modLane l f).views = s.views := rfl
@[simp] theorem modLane_regs (l : Nat) (f : Lane → Lane) : (s.modLane l f).regs = s.regs := rfl
@[simp] theorem modLane_tiles (l : Nat) (f : Lane → Lane) : (s.modLane l f).tiles = s.tiles := rfl
@[simp] theorem modLane_tide (l : Nat) (f : Lane → Lane) : (s.modLane l f).tide = s.tide := rfl
@[simp] theorem modLane_tideNext (l : Nat) (f : Lane → Lane) : (s.modLane l f).tideNext = s.tideNext := rfl
@[simp] theorem modLane_tideWin (l : Nat) (f : Lane → Lane) : (s.modLane l f).tideWin = s.tideWin := rfl
@[simp] theorem modLane_asm (l : Nat) (f : Lane → Lane) : (s.modLane l f).asm = s.asm := rfl
@[simp] theorem modLane_bench (l : Nat) (f : Lane → Lane) : (s.modLane l f).bench = s.bench := rfl
@[simp] theorem modLane_cal (l : Nat) (f : Lane → Lane) : (s.modLane l f).cal = s.cal := rfl
@[simp] theorem modLane_trim (l : Nat) (f : Lane → Lane) : (s.modLane l f).trim = s.trim := rfl
@[simp] theorem modLane_wharf (l : Nat) (f : Lane → Lane) : (s.modLane l f).wharf = s.wharf := rfl
@[simp] theorem modLane_dramUnit (l : Nat) (f : Lane → Lane) : (s.modLane l f).dramUnit = s.dramUnit := rfl
@[simp] theorem modLane_power (l : Nat) (f : Lane → Lane) : (s.modLane l f).power = s.power := rfl
@[simp] theorem modLane_upkeep (l : Nat) (f : Lane → Lane) : (s.modLane l f).upkeep = s.upkeep := rfl
@[simp] theorem modLane_dram (l : Nat) (f : Lane → Lane) : (s.modLane l f).dram = s.dram := rfl

/-! ## modQuad -/

@[simp] theorem modQuad_get (q : Nat) (f : Quad → Quad) (o : Obj) (i : Nat) : (s.modQuad q f).get o i = s.get o i := rfl
@[simp] theorem modQuad_pending (q : Nat) (f : Quad → Quad) : (s.modQuad q f).pending = s.pending := rfl
@[simp] theorem modQuad_powered (q : Nat) (f : Quad → Quad) : (s.modQuad q f).powered = s.powered := rfl
@[simp] theorem modQuad_now (q : Nat) (f : Quad → Quad) : (s.modQuad q f).now = s.now := rfl
@[simp] theorem modQuad_dc (q : Nat) (f : Quad → Quad) : (s.modQuad q f).dc = s.dc := rfl
@[simp] theorem modQuad_dict (q : Nat) (f : Quad → Quad) : (s.modQuad q f).dict = s.dict := rfl
@[simp] theorem modQuad_blobs (q : Nat) (f : Quad → Quad) : (s.modQuad q f).blobs = s.blobs := rfl
@[simp] theorem modQuad_sat (q : Nat) (f : Quad → Quad) : (s.modQuad q f).sat = s.sat := rfl
@[simp] theorem modQuad_held (q : Nat) (f : Quad → Quad) : (s.modQuad q f).held = s.held := rfl
@[simp] theorem modQuad_written (q : Nat) (f : Quad → Quad) : (s.modQuad q f).written = s.written := rfl
@[simp] theorem modQuad_writtenBlobs (q : Nat) (f : Quad → Quad) : (s.modQuad q f).writtenBlobs = s.writtenBlobs := rfl
@[simp] theorem modQuad_abort (q : Nat) (f : Quad → Quad) : (s.modQuad q f).abort = s.abort := rfl
@[simp] theorem modQuad_free (q : Nat) (f : Quad → Quad) : (s.modQuad q f).free = s.free := rfl
@[simp] theorem modQuad_trace (q : Nat) (f : Quad → Quad) : (s.modQuad q f).trace = s.trace := rfl
@[simp] theorem modQuad_evt (q : Nat) (f : Quad → Quad) : (s.modQuad q f).evt = s.evt := rfl
@[simp] theorem modQuad_host (q : Nat) (f : Quad → Quad) : (s.modQuad q f).host = s.host := rfl
@[simp] theorem modQuad_ecat (q : Nat) (f : Quad → Quad) : (s.modQuad q f).ecat = s.ecat := rfl
@[simp] theorem modQuad_nv (q : Nat) (f : Quad → Quad) : (s.modQuad q f).nv = s.nv := rfl
@[simp] theorem modQuad_decls (q : Nat) (f : Quad → Quad) : (s.modQuad q f).decls = s.decls := rfl
@[simp] theorem modQuad_fails (q : Nat) (f : Quad → Quad) : (s.modQuad q f).fails = s.fails := rfl
@[simp] theorem modQuad_marks (q : Nat) (f : Quad → Quad) : (s.modQuad q f).marks = s.marks := rfl
@[simp] theorem modQuad_sramCe (q : Nat) (f : Quad → Quad) : (s.modQuad q f).sramCe = s.sramCe := rfl
@[simp] theorem modQuad_motion (q : Nat) (f : Quad → Quad) : (s.modQuad q f).motion = s.motion := rfl
@[simp] theorem modQuad_filter (q : Nat) (f : Quad → Quad) : (s.modQuad q f).filter = s.filter := rfl
@[simp] theorem modQuad_trig (q : Nat) (f : Quad → Quad) : (s.modQuad q f).trig = s.trig := rfl
@[simp] theorem modQuad_lanes (q : Nat) (f : Quad → Quad) : (s.modQuad q f).lanes = s.lanes := rfl
@[simp] theorem modQuad_bays (q : Nat) (f : Quad → Quad) : (s.modQuad q f).bays = s.bays := rfl
@[simp] theorem modQuad_cascade (q : Nat) (f : Quad → Quad) : (s.modQuad q f).cascade = s.cascade := rfl
@[simp] theorem modQuad_web (q : Nat) (f : Quad → Quad) : (s.modQuad q f).web = s.web := rfl
@[simp] theorem modQuad_reject (q : Nat) (f : Quad → Quad) : (s.modQuad q f).reject = s.reject := rfl
@[simp] theorem modQuad_bars (q : Nat) (f : Quad → Quad) : (s.modQuad q f).bars = s.bars := rfl
@[simp] theorem modQuad_easels (q : Nat) (f : Quad → Quad) : (s.modQuad q f).easels = s.easels := rfl
@[simp] theorem modQuad_segs (q : Nat) (f : Quad → Quad) : (s.modQuad q f).segs = s.segs := rfl
@[simp] theorem modQuad_notes (q : Nat) (f : Quad → Quad) : (s.modQuad q f).notes = s.notes := rfl
@[simp] theorem modQuad_views (q : Nat) (f : Quad → Quad) : (s.modQuad q f).views = s.views := rfl
@[simp] theorem modQuad_regs (q : Nat) (f : Quad → Quad) : (s.modQuad q f).regs = s.regs := rfl
@[simp] theorem modQuad_tiles (q : Nat) (f : Quad → Quad) : (s.modQuad q f).tiles = s.tiles := rfl
@[simp] theorem modQuad_tide (q : Nat) (f : Quad → Quad) : (s.modQuad q f).tide = s.tide := rfl
@[simp] theorem modQuad_tideNext (q : Nat) (f : Quad → Quad) : (s.modQuad q f).tideNext = s.tideNext := rfl
@[simp] theorem modQuad_tideWin (q : Nat) (f : Quad → Quad) : (s.modQuad q f).tideWin = s.tideWin := rfl
@[simp] theorem modQuad_asm (q : Nat) (f : Quad → Quad) : (s.modQuad q f).asm = s.asm := rfl
@[simp] theorem modQuad_bench (q : Nat) (f : Quad → Quad) : (s.modQuad q f).bench = s.bench := rfl
@[simp] theorem modQuad_cal (q : Nat) (f : Quad → Quad) : (s.modQuad q f).cal = s.cal := rfl
@[simp] theorem modQuad_trim (q : Nat) (f : Quad → Quad) : (s.modQuad q f).trim = s.trim := rfl
@[simp] theorem modQuad_wharf (q : Nat) (f : Quad → Quad) : (s.modQuad q f).wharf = s.wharf := rfl
@[simp] theorem modQuad_dramUnit (q : Nat) (f : Quad → Quad) : (s.modQuad q f).dramUnit = s.dramUnit := rfl
@[simp] theorem modQuad_power (q : Nat) (f : Quad → Quad) : (s.modQuad q f).power = s.power := rfl
@[simp] theorem modQuad_upkeep (q : Nat) (f : Quad → Quad) : (s.modQuad q f).upkeep = s.upkeep := rfl
@[simp] theorem modQuad_dram (q : Nat) (f : Quad → Quad) : (s.modQuad q f).dram = s.dram := rfl

/-! ## modBar -/

@[simp] theorem modBar_get (b : Nat) (f : Bar → Bar) (o : Obj) (i : Nat) : (s.modBar b f).get o i = s.get o i := rfl
@[simp] theorem modBar_pending (b : Nat) (f : Bar → Bar) : (s.modBar b f).pending = s.pending := rfl
@[simp] theorem modBar_powered (b : Nat) (f : Bar → Bar) : (s.modBar b f).powered = s.powered := rfl
@[simp] theorem modBar_now (b : Nat) (f : Bar → Bar) : (s.modBar b f).now = s.now := rfl
@[simp] theorem modBar_dc (b : Nat) (f : Bar → Bar) : (s.modBar b f).dc = s.dc := rfl
@[simp] theorem modBar_dict (b : Nat) (f : Bar → Bar) : (s.modBar b f).dict = s.dict := rfl
@[simp] theorem modBar_blobs (b : Nat) (f : Bar → Bar) : (s.modBar b f).blobs = s.blobs := rfl
@[simp] theorem modBar_sat (b : Nat) (f : Bar → Bar) : (s.modBar b f).sat = s.sat := rfl
@[simp] theorem modBar_held (b : Nat) (f : Bar → Bar) : (s.modBar b f).held = s.held := rfl
@[simp] theorem modBar_written (b : Nat) (f : Bar → Bar) : (s.modBar b f).written = s.written := rfl
@[simp] theorem modBar_writtenBlobs (b : Nat) (f : Bar → Bar) : (s.modBar b f).writtenBlobs = s.writtenBlobs := rfl
@[simp] theorem modBar_abort (b : Nat) (f : Bar → Bar) : (s.modBar b f).abort = s.abort := rfl
@[simp] theorem modBar_free (b : Nat) (f : Bar → Bar) : (s.modBar b f).free = s.free := rfl
@[simp] theorem modBar_trace (b : Nat) (f : Bar → Bar) : (s.modBar b f).trace = s.trace := rfl
@[simp] theorem modBar_evt (b : Nat) (f : Bar → Bar) : (s.modBar b f).evt = s.evt := rfl
@[simp] theorem modBar_host (b : Nat) (f : Bar → Bar) : (s.modBar b f).host = s.host := rfl
@[simp] theorem modBar_ecat (b : Nat) (f : Bar → Bar) : (s.modBar b f).ecat = s.ecat := rfl
@[simp] theorem modBar_nv (b : Nat) (f : Bar → Bar) : (s.modBar b f).nv = s.nv := rfl
@[simp] theorem modBar_decls (b : Nat) (f : Bar → Bar) : (s.modBar b f).decls = s.decls := rfl
@[simp] theorem modBar_fails (b : Nat) (f : Bar → Bar) : (s.modBar b f).fails = s.fails := rfl
@[simp] theorem modBar_marks (b : Nat) (f : Bar → Bar) : (s.modBar b f).marks = s.marks := rfl
@[simp] theorem modBar_sramCe (b : Nat) (f : Bar → Bar) : (s.modBar b f).sramCe = s.sramCe := rfl
@[simp] theorem modBar_motion (b : Nat) (f : Bar → Bar) : (s.modBar b f).motion = s.motion := rfl
@[simp] theorem modBar_filter (b : Nat) (f : Bar → Bar) : (s.modBar b f).filter = s.filter := rfl
@[simp] theorem modBar_trig (b : Nat) (f : Bar → Bar) : (s.modBar b f).trig = s.trig := rfl
@[simp] theorem modBar_lanes (b : Nat) (f : Bar → Bar) : (s.modBar b f).lanes = s.lanes := rfl
@[simp] theorem modBar_quads (b : Nat) (f : Bar → Bar) : (s.modBar b f).quads = s.quads := rfl
@[simp] theorem modBar_bays (b : Nat) (f : Bar → Bar) : (s.modBar b f).bays = s.bays := rfl
@[simp] theorem modBar_cascade (b : Nat) (f : Bar → Bar) : (s.modBar b f).cascade = s.cascade := rfl
@[simp] theorem modBar_web (b : Nat) (f : Bar → Bar) : (s.modBar b f).web = s.web := rfl
@[simp] theorem modBar_reject (b : Nat) (f : Bar → Bar) : (s.modBar b f).reject = s.reject := rfl
@[simp] theorem modBar_easels (b : Nat) (f : Bar → Bar) : (s.modBar b f).easels = s.easels := rfl
@[simp] theorem modBar_segs (b : Nat) (f : Bar → Bar) : (s.modBar b f).segs = s.segs := rfl
@[simp] theorem modBar_notes (b : Nat) (f : Bar → Bar) : (s.modBar b f).notes = s.notes := rfl
@[simp] theorem modBar_views (b : Nat) (f : Bar → Bar) : (s.modBar b f).views = s.views := rfl
@[simp] theorem modBar_regs (b : Nat) (f : Bar → Bar) : (s.modBar b f).regs = s.regs := rfl
@[simp] theorem modBar_tiles (b : Nat) (f : Bar → Bar) : (s.modBar b f).tiles = s.tiles := rfl
@[simp] theorem modBar_tide (b : Nat) (f : Bar → Bar) : (s.modBar b f).tide = s.tide := rfl
@[simp] theorem modBar_tideNext (b : Nat) (f : Bar → Bar) : (s.modBar b f).tideNext = s.tideNext := rfl
@[simp] theorem modBar_tideWin (b : Nat) (f : Bar → Bar) : (s.modBar b f).tideWin = s.tideWin := rfl
@[simp] theorem modBar_asm (b : Nat) (f : Bar → Bar) : (s.modBar b f).asm = s.asm := rfl
@[simp] theorem modBar_bench (b : Nat) (f : Bar → Bar) : (s.modBar b f).bench = s.bench := rfl
@[simp] theorem modBar_cal (b : Nat) (f : Bar → Bar) : (s.modBar b f).cal = s.cal := rfl
@[simp] theorem modBar_trim (b : Nat) (f : Bar → Bar) : (s.modBar b f).trim = s.trim := rfl
@[simp] theorem modBar_wharf (b : Nat) (f : Bar → Bar) : (s.modBar b f).wharf = s.wharf := rfl
@[simp] theorem modBar_dramUnit (b : Nat) (f : Bar → Bar) : (s.modBar b f).dramUnit = s.dramUnit := rfl
@[simp] theorem modBar_power (b : Nat) (f : Bar → Bar) : (s.modBar b f).power = s.power := rfl
@[simp] theorem modBar_upkeep (b : Nat) (f : Bar → Bar) : (s.modBar b f).upkeep = s.upkeep := rfl
@[simp] theorem modBar_dram (b : Nat) (f : Bar → Bar) : (s.modBar b f).dram = s.dram := rfl

/-! ## modEasel -/

@[simp] theorem modEasel_get (k : Nat) (f : Easel → Easel) (o : Obj) (i : Nat) : (s.modEasel k f).get o i = s.get o i := rfl
@[simp] theorem modEasel_pending (k : Nat) (f : Easel → Easel) : (s.modEasel k f).pending = s.pending := rfl
@[simp] theorem modEasel_powered (k : Nat) (f : Easel → Easel) : (s.modEasel k f).powered = s.powered := rfl
@[simp] theorem modEasel_now (k : Nat) (f : Easel → Easel) : (s.modEasel k f).now = s.now := rfl
@[simp] theorem modEasel_dc (k : Nat) (f : Easel → Easel) : (s.modEasel k f).dc = s.dc := rfl
@[simp] theorem modEasel_dict (k : Nat) (f : Easel → Easel) : (s.modEasel k f).dict = s.dict := rfl
@[simp] theorem modEasel_blobs (k : Nat) (f : Easel → Easel) : (s.modEasel k f).blobs = s.blobs := rfl
@[simp] theorem modEasel_sat (k : Nat) (f : Easel → Easel) : (s.modEasel k f).sat = s.sat := rfl
@[simp] theorem modEasel_held (k : Nat) (f : Easel → Easel) : (s.modEasel k f).held = s.held := rfl
@[simp] theorem modEasel_written (k : Nat) (f : Easel → Easel) : (s.modEasel k f).written = s.written := rfl
@[simp] theorem modEasel_writtenBlobs (k : Nat) (f : Easel → Easel) : (s.modEasel k f).writtenBlobs = s.writtenBlobs := rfl
@[simp] theorem modEasel_abort (k : Nat) (f : Easel → Easel) : (s.modEasel k f).abort = s.abort := rfl
@[simp] theorem modEasel_free (k : Nat) (f : Easel → Easel) : (s.modEasel k f).free = s.free := rfl
@[simp] theorem modEasel_trace (k : Nat) (f : Easel → Easel) : (s.modEasel k f).trace = s.trace := rfl
@[simp] theorem modEasel_evt (k : Nat) (f : Easel → Easel) : (s.modEasel k f).evt = s.evt := rfl
@[simp] theorem modEasel_host (k : Nat) (f : Easel → Easel) : (s.modEasel k f).host = s.host := rfl
@[simp] theorem modEasel_ecat (k : Nat) (f : Easel → Easel) : (s.modEasel k f).ecat = s.ecat := rfl
@[simp] theorem modEasel_nv (k : Nat) (f : Easel → Easel) : (s.modEasel k f).nv = s.nv := rfl
@[simp] theorem modEasel_decls (k : Nat) (f : Easel → Easel) : (s.modEasel k f).decls = s.decls := rfl
@[simp] theorem modEasel_fails (k : Nat) (f : Easel → Easel) : (s.modEasel k f).fails = s.fails := rfl
@[simp] theorem modEasel_marks (k : Nat) (f : Easel → Easel) : (s.modEasel k f).marks = s.marks := rfl
@[simp] theorem modEasel_sramCe (k : Nat) (f : Easel → Easel) : (s.modEasel k f).sramCe = s.sramCe := rfl
@[simp] theorem modEasel_motion (k : Nat) (f : Easel → Easel) : (s.modEasel k f).motion = s.motion := rfl
@[simp] theorem modEasel_filter (k : Nat) (f : Easel → Easel) : (s.modEasel k f).filter = s.filter := rfl
@[simp] theorem modEasel_trig (k : Nat) (f : Easel → Easel) : (s.modEasel k f).trig = s.trig := rfl
@[simp] theorem modEasel_lanes (k : Nat) (f : Easel → Easel) : (s.modEasel k f).lanes = s.lanes := rfl
@[simp] theorem modEasel_quads (k : Nat) (f : Easel → Easel) : (s.modEasel k f).quads = s.quads := rfl
@[simp] theorem modEasel_bays (k : Nat) (f : Easel → Easel) : (s.modEasel k f).bays = s.bays := rfl
@[simp] theorem modEasel_cascade (k : Nat) (f : Easel → Easel) : (s.modEasel k f).cascade = s.cascade := rfl
@[simp] theorem modEasel_web (k : Nat) (f : Easel → Easel) : (s.modEasel k f).web = s.web := rfl
@[simp] theorem modEasel_reject (k : Nat) (f : Easel → Easel) : (s.modEasel k f).reject = s.reject := rfl
@[simp] theorem modEasel_bars (k : Nat) (f : Easel → Easel) : (s.modEasel k f).bars = s.bars := rfl
@[simp] theorem modEasel_segs (k : Nat) (f : Easel → Easel) : (s.modEasel k f).segs = s.segs := rfl
@[simp] theorem modEasel_notes (k : Nat) (f : Easel → Easel) : (s.modEasel k f).notes = s.notes := rfl
@[simp] theorem modEasel_views (k : Nat) (f : Easel → Easel) : (s.modEasel k f).views = s.views := rfl
@[simp] theorem modEasel_regs (k : Nat) (f : Easel → Easel) : (s.modEasel k f).regs = s.regs := rfl
@[simp] theorem modEasel_tiles (k : Nat) (f : Easel → Easel) : (s.modEasel k f).tiles = s.tiles := rfl
@[simp] theorem modEasel_tide (k : Nat) (f : Easel → Easel) : (s.modEasel k f).tide = s.tide := rfl
@[simp] theorem modEasel_tideNext (k : Nat) (f : Easel → Easel) : (s.modEasel k f).tideNext = s.tideNext := rfl
@[simp] theorem modEasel_tideWin (k : Nat) (f : Easel → Easel) : (s.modEasel k f).tideWin = s.tideWin := rfl
@[simp] theorem modEasel_asm (k : Nat) (f : Easel → Easel) : (s.modEasel k f).asm = s.asm := rfl
@[simp] theorem modEasel_bench (k : Nat) (f : Easel → Easel) : (s.modEasel k f).bench = s.bench := rfl
@[simp] theorem modEasel_cal (k : Nat) (f : Easel → Easel) : (s.modEasel k f).cal = s.cal := rfl
@[simp] theorem modEasel_trim (k : Nat) (f : Easel → Easel) : (s.modEasel k f).trim = s.trim := rfl
@[simp] theorem modEasel_wharf (k : Nat) (f : Easel → Easel) : (s.modEasel k f).wharf = s.wharf := rfl
@[simp] theorem modEasel_dramUnit (k : Nat) (f : Easel → Easel) : (s.modEasel k f).dramUnit = s.dramUnit := rfl
@[simp] theorem modEasel_power (k : Nat) (f : Easel → Easel) : (s.modEasel k f).power = s.power := rfl
@[simp] theorem modEasel_upkeep (k : Nat) (f : Easel → Easel) : (s.modEasel k f).upkeep = s.upkeep := rfl
@[simp] theorem modEasel_dram (k : Nat) (f : Easel → Easel) : (s.modEasel k f).dram = s.dram := rfl

/-! ## modCtx -/

@[simp] theorem modCtx_get (b : Nat) (f : Ctx → Ctx) (o : Obj) (i : Nat) : (s.modCtx b f).get o i = s.get o i := rfl
@[simp] theorem modCtx_pending (b : Nat) (f : Ctx → Ctx) : (s.modCtx b f).pending = s.pending := rfl
@[simp] theorem modCtx_powered (b : Nat) (f : Ctx → Ctx) : (s.modCtx b f).powered = s.powered := rfl
@[simp] theorem modCtx_now (b : Nat) (f : Ctx → Ctx) : (s.modCtx b f).now = s.now := rfl
@[simp] theorem modCtx_dc (b : Nat) (f : Ctx → Ctx) : (s.modCtx b f).dc = s.dc := rfl
@[simp] theorem modCtx_dict (b : Nat) (f : Ctx → Ctx) : (s.modCtx b f).dict = s.dict := rfl
@[simp] theorem modCtx_blobs (b : Nat) (f : Ctx → Ctx) : (s.modCtx b f).blobs = s.blobs := rfl
@[simp] theorem modCtx_sat (b : Nat) (f : Ctx → Ctx) : (s.modCtx b f).sat = s.sat := rfl
@[simp] theorem modCtx_held (b : Nat) (f : Ctx → Ctx) : (s.modCtx b f).held = s.held := rfl
@[simp] theorem modCtx_written (b : Nat) (f : Ctx → Ctx) : (s.modCtx b f).written = s.written := rfl
@[simp] theorem modCtx_writtenBlobs (b : Nat) (f : Ctx → Ctx) : (s.modCtx b f).writtenBlobs = s.writtenBlobs := rfl
@[simp] theorem modCtx_abort (b : Nat) (f : Ctx → Ctx) : (s.modCtx b f).abort = s.abort := rfl
@[simp] theorem modCtx_free (b : Nat) (f : Ctx → Ctx) : (s.modCtx b f).free = s.free := rfl
@[simp] theorem modCtx_trace (b : Nat) (f : Ctx → Ctx) : (s.modCtx b f).trace = s.trace := rfl
@[simp] theorem modCtx_evt (b : Nat) (f : Ctx → Ctx) : (s.modCtx b f).evt = s.evt := rfl
@[simp] theorem modCtx_host (b : Nat) (f : Ctx → Ctx) : (s.modCtx b f).host = s.host := rfl
@[simp] theorem modCtx_ecat (b : Nat) (f : Ctx → Ctx) : (s.modCtx b f).ecat = s.ecat := rfl
@[simp] theorem modCtx_nv (b : Nat) (f : Ctx → Ctx) : (s.modCtx b f).nv = s.nv := rfl
@[simp] theorem modCtx_decls (b : Nat) (f : Ctx → Ctx) : (s.modCtx b f).decls = s.decls := rfl
@[simp] theorem modCtx_fails (b : Nat) (f : Ctx → Ctx) : (s.modCtx b f).fails = s.fails := rfl
@[simp] theorem modCtx_marks (b : Nat) (f : Ctx → Ctx) : (s.modCtx b f).marks = s.marks := rfl
@[simp] theorem modCtx_sramCe (b : Nat) (f : Ctx → Ctx) : (s.modCtx b f).sramCe = s.sramCe := rfl
@[simp] theorem modCtx_motion (b : Nat) (f : Ctx → Ctx) : (s.modCtx b f).motion = s.motion := rfl
@[simp] theorem modCtx_filter (b : Nat) (f : Ctx → Ctx) : (s.modCtx b f).filter = s.filter := rfl
@[simp] theorem modCtx_trig (b : Nat) (f : Ctx → Ctx) : (s.modCtx b f).trig = s.trig := rfl
@[simp] theorem modCtx_lanes (b : Nat) (f : Ctx → Ctx) : (s.modCtx b f).lanes = s.lanes := rfl
@[simp] theorem modCtx_quads (b : Nat) (f : Ctx → Ctx) : (s.modCtx b f).quads = s.quads := rfl
@[simp] theorem modCtx_bays (b : Nat) (f : Ctx → Ctx) : (s.modCtx b f).bays = s.bays := rfl
@[simp] theorem modCtx_cascade (b : Nat) (f : Ctx → Ctx) : (s.modCtx b f).cascade = s.cascade := rfl
@[simp] theorem modCtx_web (b : Nat) (f : Ctx → Ctx) : (s.modCtx b f).web = s.web := rfl
@[simp] theorem modCtx_reject (b : Nat) (f : Ctx → Ctx) : (s.modCtx b f).reject = s.reject := rfl
@[simp] theorem modCtx_bars (b : Nat) (f : Ctx → Ctx) : (s.modCtx b f).bars = s.bars := rfl
@[simp] theorem modCtx_segs (b : Nat) (f : Ctx → Ctx) : (s.modCtx b f).segs = s.segs := rfl
@[simp] theorem modCtx_notes (b : Nat) (f : Ctx → Ctx) : (s.modCtx b f).notes = s.notes := rfl
@[simp] theorem modCtx_views (b : Nat) (f : Ctx → Ctx) : (s.modCtx b f).views = s.views := rfl
@[simp] theorem modCtx_regs (b : Nat) (f : Ctx → Ctx) : (s.modCtx b f).regs = s.regs := rfl
@[simp] theorem modCtx_tiles (b : Nat) (f : Ctx → Ctx) : (s.modCtx b f).tiles = s.tiles := rfl
@[simp] theorem modCtx_tide (b : Nat) (f : Ctx → Ctx) : (s.modCtx b f).tide = s.tide := rfl
@[simp] theorem modCtx_tideNext (b : Nat) (f : Ctx → Ctx) : (s.modCtx b f).tideNext = s.tideNext := rfl
@[simp] theorem modCtx_tideWin (b : Nat) (f : Ctx → Ctx) : (s.modCtx b f).tideWin = s.tideWin := rfl
@[simp] theorem modCtx_asm (b : Nat) (f : Ctx → Ctx) : (s.modCtx b f).asm = s.asm := rfl
@[simp] theorem modCtx_bench (b : Nat) (f : Ctx → Ctx) : (s.modCtx b f).bench = s.bench := rfl
@[simp] theorem modCtx_cal (b : Nat) (f : Ctx → Ctx) : (s.modCtx b f).cal = s.cal := rfl
@[simp] theorem modCtx_trim (b : Nat) (f : Ctx → Ctx) : (s.modCtx b f).trim = s.trim := rfl
@[simp] theorem modCtx_wharf (b : Nat) (f : Ctx → Ctx) : (s.modCtx b f).wharf = s.wharf := rfl
@[simp] theorem modCtx_dramUnit (b : Nat) (f : Ctx → Ctx) : (s.modCtx b f).dramUnit = s.dramUnit := rfl
@[simp] theorem modCtx_power (b : Nat) (f : Ctx → Ctx) : (s.modCtx b f).power = s.power := rfl
@[simp] theorem modCtx_upkeep (b : Nat) (f : Ctx → Ctx) : (s.modCtx b f).upkeep = s.upkeep := rfl
@[simp] theorem modCtx_dram (b : Nat) (f : Ctx → Ctx) : (s.modCtx b f).dram = s.dram := rfl

/-! ## modView -/

@[simp] theorem modView_get (v : Nat) (f : View → View) (o : Obj) (i : Nat) : (s.modView v f).get o i = s.get o i := rfl
@[simp] theorem modView_pending (v : Nat) (f : View → View) : (s.modView v f).pending = s.pending := rfl
@[simp] theorem modView_powered (v : Nat) (f : View → View) : (s.modView v f).powered = s.powered := rfl
@[simp] theorem modView_now (v : Nat) (f : View → View) : (s.modView v f).now = s.now := rfl
@[simp] theorem modView_dc (v : Nat) (f : View → View) : (s.modView v f).dc = s.dc := rfl
@[simp] theorem modView_dict (v : Nat) (f : View → View) : (s.modView v f).dict = s.dict := rfl
@[simp] theorem modView_blobs (v : Nat) (f : View → View) : (s.modView v f).blobs = s.blobs := rfl
@[simp] theorem modView_sat (v : Nat) (f : View → View) : (s.modView v f).sat = s.sat := rfl
@[simp] theorem modView_held (v : Nat) (f : View → View) : (s.modView v f).held = s.held := rfl
@[simp] theorem modView_written (v : Nat) (f : View → View) : (s.modView v f).written = s.written := rfl
@[simp] theorem modView_writtenBlobs (v : Nat) (f : View → View) : (s.modView v f).writtenBlobs = s.writtenBlobs := rfl
@[simp] theorem modView_abort (v : Nat) (f : View → View) : (s.modView v f).abort = s.abort := rfl
@[simp] theorem modView_free (v : Nat) (f : View → View) : (s.modView v f).free = s.free := rfl
@[simp] theorem modView_trace (v : Nat) (f : View → View) : (s.modView v f).trace = s.trace := rfl
@[simp] theorem modView_evt (v : Nat) (f : View → View) : (s.modView v f).evt = s.evt := rfl
@[simp] theorem modView_host (v : Nat) (f : View → View) : (s.modView v f).host = s.host := rfl
@[simp] theorem modView_ecat (v : Nat) (f : View → View) : (s.modView v f).ecat = s.ecat := rfl
@[simp] theorem modView_nv (v : Nat) (f : View → View) : (s.modView v f).nv = s.nv := rfl
@[simp] theorem modView_decls (v : Nat) (f : View → View) : (s.modView v f).decls = s.decls := rfl
@[simp] theorem modView_fails (v : Nat) (f : View → View) : (s.modView v f).fails = s.fails := rfl
@[simp] theorem modView_marks (v : Nat) (f : View → View) : (s.modView v f).marks = s.marks := rfl
@[simp] theorem modView_sramCe (v : Nat) (f : View → View) : (s.modView v f).sramCe = s.sramCe := rfl
@[simp] theorem modView_motion (v : Nat) (f : View → View) : (s.modView v f).motion = s.motion := rfl
@[simp] theorem modView_filter (v : Nat) (f : View → View) : (s.modView v f).filter = s.filter := rfl
@[simp] theorem modView_trig (v : Nat) (f : View → View) : (s.modView v f).trig = s.trig := rfl
@[simp] theorem modView_lanes (v : Nat) (f : View → View) : (s.modView v f).lanes = s.lanes := rfl
@[simp] theorem modView_quads (v : Nat) (f : View → View) : (s.modView v f).quads = s.quads := rfl
@[simp] theorem modView_bays (v : Nat) (f : View → View) : (s.modView v f).bays = s.bays := rfl
@[simp] theorem modView_cascade (v : Nat) (f : View → View) : (s.modView v f).cascade = s.cascade := rfl
@[simp] theorem modView_web (v : Nat) (f : View → View) : (s.modView v f).web = s.web := rfl
@[simp] theorem modView_reject (v : Nat) (f : View → View) : (s.modView v f).reject = s.reject := rfl
@[simp] theorem modView_bars (v : Nat) (f : View → View) : (s.modView v f).bars = s.bars := rfl
@[simp] theorem modView_easels (v : Nat) (f : View → View) : (s.modView v f).easels = s.easels := rfl
@[simp] theorem modView_segs (v : Nat) (f : View → View) : (s.modView v f).segs = s.segs := rfl
@[simp] theorem modView_notes (v : Nat) (f : View → View) : (s.modView v f).notes = s.notes := rfl
@[simp] theorem modView_regs (v : Nat) (f : View → View) : (s.modView v f).regs = s.regs := rfl
@[simp] theorem modView_tiles (v : Nat) (f : View → View) : (s.modView v f).tiles = s.tiles := rfl
@[simp] theorem modView_tide (v : Nat) (f : View → View) : (s.modView v f).tide = s.tide := rfl
@[simp] theorem modView_tideNext (v : Nat) (f : View → View) : (s.modView v f).tideNext = s.tideNext := rfl
@[simp] theorem modView_tideWin (v : Nat) (f : View → View) : (s.modView v f).tideWin = s.tideWin := rfl
@[simp] theorem modView_asm (v : Nat) (f : View → View) : (s.modView v f).asm = s.asm := rfl
@[simp] theorem modView_bench (v : Nat) (f : View → View) : (s.modView v f).bench = s.bench := rfl
@[simp] theorem modView_cal (v : Nat) (f : View → View) : (s.modView v f).cal = s.cal := rfl
@[simp] theorem modView_trim (v : Nat) (f : View → View) : (s.modView v f).trim = s.trim := rfl
@[simp] theorem modView_wharf (v : Nat) (f : View → View) : (s.modView v f).wharf = s.wharf := rfl
@[simp] theorem modView_dramUnit (v : Nat) (f : View → View) : (s.modView v f).dramUnit = s.dramUnit := rfl
@[simp] theorem modView_power (v : Nat) (f : View → View) : (s.modView v f).power = s.power := rfl
@[simp] theorem modView_upkeep (v : Nat) (f : View → View) : (s.modView v f).upkeep = s.upkeep := rfl
@[simp] theorem modView_dram (v : Nat) (f : View → View) : (s.modView v f).dram = s.dram := rfl

/-! ## modStrip -/

@[simp] theorem modStrip_get (v n : Nat) (f : CStrip → CStrip) (o : Obj) (i : Nat) : (s.modStrip v n f).get o i = s.get o i := rfl
@[simp] theorem modStrip_pending (v n : Nat) (f : CStrip → CStrip) : (s.modStrip v n f).pending = s.pending := rfl
@[simp] theorem modStrip_powered (v n : Nat) (f : CStrip → CStrip) : (s.modStrip v n f).powered = s.powered := rfl
@[simp] theorem modStrip_now (v n : Nat) (f : CStrip → CStrip) : (s.modStrip v n f).now = s.now := rfl
@[simp] theorem modStrip_dc (v n : Nat) (f : CStrip → CStrip) : (s.modStrip v n f).dc = s.dc := rfl
@[simp] theorem modStrip_dict (v n : Nat) (f : CStrip → CStrip) : (s.modStrip v n f).dict = s.dict := rfl
@[simp] theorem modStrip_blobs (v n : Nat) (f : CStrip → CStrip) : (s.modStrip v n f).blobs = s.blobs := rfl
@[simp] theorem modStrip_sat (v n : Nat) (f : CStrip → CStrip) : (s.modStrip v n f).sat = s.sat := rfl
@[simp] theorem modStrip_held (v n : Nat) (f : CStrip → CStrip) : (s.modStrip v n f).held = s.held := rfl
@[simp] theorem modStrip_written (v n : Nat) (f : CStrip → CStrip) : (s.modStrip v n f).written = s.written := rfl
@[simp] theorem modStrip_writtenBlobs (v n : Nat) (f : CStrip → CStrip) : (s.modStrip v n f).writtenBlobs = s.writtenBlobs := rfl
@[simp] theorem modStrip_abort (v n : Nat) (f : CStrip → CStrip) : (s.modStrip v n f).abort = s.abort := rfl
@[simp] theorem modStrip_free (v n : Nat) (f : CStrip → CStrip) : (s.modStrip v n f).free = s.free := rfl
@[simp] theorem modStrip_trace (v n : Nat) (f : CStrip → CStrip) : (s.modStrip v n f).trace = s.trace := rfl
@[simp] theorem modStrip_evt (v n : Nat) (f : CStrip → CStrip) : (s.modStrip v n f).evt = s.evt := rfl
@[simp] theorem modStrip_host (v n : Nat) (f : CStrip → CStrip) : (s.modStrip v n f).host = s.host := rfl
@[simp] theorem modStrip_ecat (v n : Nat) (f : CStrip → CStrip) : (s.modStrip v n f).ecat = s.ecat := rfl
@[simp] theorem modStrip_nv (v n : Nat) (f : CStrip → CStrip) : (s.modStrip v n f).nv = s.nv := rfl
@[simp] theorem modStrip_decls (v n : Nat) (f : CStrip → CStrip) : (s.modStrip v n f).decls = s.decls := rfl
@[simp] theorem modStrip_fails (v n : Nat) (f : CStrip → CStrip) : (s.modStrip v n f).fails = s.fails := rfl
@[simp] theorem modStrip_marks (v n : Nat) (f : CStrip → CStrip) : (s.modStrip v n f).marks = s.marks := rfl
@[simp] theorem modStrip_sramCe (v n : Nat) (f : CStrip → CStrip) : (s.modStrip v n f).sramCe = s.sramCe := rfl
@[simp] theorem modStrip_motion (v n : Nat) (f : CStrip → CStrip) : (s.modStrip v n f).motion = s.motion := rfl
@[simp] theorem modStrip_filter (v n : Nat) (f : CStrip → CStrip) : (s.modStrip v n f).filter = s.filter := rfl
@[simp] theorem modStrip_trig (v n : Nat) (f : CStrip → CStrip) : (s.modStrip v n f).trig = s.trig := rfl
@[simp] theorem modStrip_lanes (v n : Nat) (f : CStrip → CStrip) : (s.modStrip v n f).lanes = s.lanes := rfl
@[simp] theorem modStrip_quads (v n : Nat) (f : CStrip → CStrip) : (s.modStrip v n f).quads = s.quads := rfl
@[simp] theorem modStrip_bays (v n : Nat) (f : CStrip → CStrip) : (s.modStrip v n f).bays = s.bays := rfl
@[simp] theorem modStrip_cascade (v n : Nat) (f : CStrip → CStrip) : (s.modStrip v n f).cascade = s.cascade := rfl
@[simp] theorem modStrip_web (v n : Nat) (f : CStrip → CStrip) : (s.modStrip v n f).web = s.web := rfl
@[simp] theorem modStrip_reject (v n : Nat) (f : CStrip → CStrip) : (s.modStrip v n f).reject = s.reject := rfl
@[simp] theorem modStrip_bars (v n : Nat) (f : CStrip → CStrip) : (s.modStrip v n f).bars = s.bars := rfl
@[simp] theorem modStrip_easels (v n : Nat) (f : CStrip → CStrip) : (s.modStrip v n f).easels = s.easels := rfl
@[simp] theorem modStrip_segs (v n : Nat) (f : CStrip → CStrip) : (s.modStrip v n f).segs = s.segs := rfl
@[simp] theorem modStrip_notes (v n : Nat) (f : CStrip → CStrip) : (s.modStrip v n f).notes = s.notes := rfl
@[simp] theorem modStrip_regs (v n : Nat) (f : CStrip → CStrip) : (s.modStrip v n f).regs = s.regs := rfl
@[simp] theorem modStrip_tiles (v n : Nat) (f : CStrip → CStrip) : (s.modStrip v n f).tiles = s.tiles := rfl
@[simp] theorem modStrip_tide (v n : Nat) (f : CStrip → CStrip) : (s.modStrip v n f).tide = s.tide := rfl
@[simp] theorem modStrip_tideNext (v n : Nat) (f : CStrip → CStrip) : (s.modStrip v n f).tideNext = s.tideNext := rfl
@[simp] theorem modStrip_tideWin (v n : Nat) (f : CStrip → CStrip) : (s.modStrip v n f).tideWin = s.tideWin := rfl
@[simp] theorem modStrip_asm (v n : Nat) (f : CStrip → CStrip) : (s.modStrip v n f).asm = s.asm := rfl
@[simp] theorem modStrip_bench (v n : Nat) (f : CStrip → CStrip) : (s.modStrip v n f).bench = s.bench := rfl
@[simp] theorem modStrip_cal (v n : Nat) (f : CStrip → CStrip) : (s.modStrip v n f).cal = s.cal := rfl
@[simp] theorem modStrip_trim (v n : Nat) (f : CStrip → CStrip) : (s.modStrip v n f).trim = s.trim := rfl
@[simp] theorem modStrip_wharf (v n : Nat) (f : CStrip → CStrip) : (s.modStrip v n f).wharf = s.wharf := rfl
@[simp] theorem modStrip_dramUnit (v n : Nat) (f : CStrip → CStrip) : (s.modStrip v n f).dramUnit = s.dramUnit := rfl
@[simp] theorem modStrip_power (v n : Nat) (f : CStrip → CStrip) : (s.modStrip v n f).power = s.power := rfl
@[simp] theorem modStrip_upkeep (v n : Nat) (f : CStrip → CStrip) : (s.modStrip v n f).upkeep = s.upkeep := rfl
@[simp] theorem modStrip_dram (v n : Nat) (f : CStrip → CStrip) : (s.modStrip v n f).dram = s.dram := rfl

/-! ## modReg -/

@[simp] theorem modReg_get (v : Nat) (f : RegView → RegView) (o : Obj) (i : Nat) : (s.modReg v f).get o i = s.get o i := rfl
@[simp] theorem modReg_pending (v : Nat) (f : RegView → RegView) : (s.modReg v f).pending = s.pending := rfl
@[simp] theorem modReg_powered (v : Nat) (f : RegView → RegView) : (s.modReg v f).powered = s.powered := rfl
@[simp] theorem modReg_now (v : Nat) (f : RegView → RegView) : (s.modReg v f).now = s.now := rfl
@[simp] theorem modReg_dc (v : Nat) (f : RegView → RegView) : (s.modReg v f).dc = s.dc := rfl
@[simp] theorem modReg_dict (v : Nat) (f : RegView → RegView) : (s.modReg v f).dict = s.dict := rfl
@[simp] theorem modReg_blobs (v : Nat) (f : RegView → RegView) : (s.modReg v f).blobs = s.blobs := rfl
@[simp] theorem modReg_sat (v : Nat) (f : RegView → RegView) : (s.modReg v f).sat = s.sat := rfl
@[simp] theorem modReg_held (v : Nat) (f : RegView → RegView) : (s.modReg v f).held = s.held := rfl
@[simp] theorem modReg_written (v : Nat) (f : RegView → RegView) : (s.modReg v f).written = s.written := rfl
@[simp] theorem modReg_writtenBlobs (v : Nat) (f : RegView → RegView) : (s.modReg v f).writtenBlobs = s.writtenBlobs := rfl
@[simp] theorem modReg_abort (v : Nat) (f : RegView → RegView) : (s.modReg v f).abort = s.abort := rfl
@[simp] theorem modReg_free (v : Nat) (f : RegView → RegView) : (s.modReg v f).free = s.free := rfl
@[simp] theorem modReg_trace (v : Nat) (f : RegView → RegView) : (s.modReg v f).trace = s.trace := rfl
@[simp] theorem modReg_evt (v : Nat) (f : RegView → RegView) : (s.modReg v f).evt = s.evt := rfl
@[simp] theorem modReg_host (v : Nat) (f : RegView → RegView) : (s.modReg v f).host = s.host := rfl
@[simp] theorem modReg_ecat (v : Nat) (f : RegView → RegView) : (s.modReg v f).ecat = s.ecat := rfl
@[simp] theorem modReg_nv (v : Nat) (f : RegView → RegView) : (s.modReg v f).nv = s.nv := rfl
@[simp] theorem modReg_decls (v : Nat) (f : RegView → RegView) : (s.modReg v f).decls = s.decls := rfl
@[simp] theorem modReg_fails (v : Nat) (f : RegView → RegView) : (s.modReg v f).fails = s.fails := rfl
@[simp] theorem modReg_marks (v : Nat) (f : RegView → RegView) : (s.modReg v f).marks = s.marks := rfl
@[simp] theorem modReg_sramCe (v : Nat) (f : RegView → RegView) : (s.modReg v f).sramCe = s.sramCe := rfl
@[simp] theorem modReg_motion (v : Nat) (f : RegView → RegView) : (s.modReg v f).motion = s.motion := rfl
@[simp] theorem modReg_filter (v : Nat) (f : RegView → RegView) : (s.modReg v f).filter = s.filter := rfl
@[simp] theorem modReg_trig (v : Nat) (f : RegView → RegView) : (s.modReg v f).trig = s.trig := rfl
@[simp] theorem modReg_lanes (v : Nat) (f : RegView → RegView) : (s.modReg v f).lanes = s.lanes := rfl
@[simp] theorem modReg_quads (v : Nat) (f : RegView → RegView) : (s.modReg v f).quads = s.quads := rfl
@[simp] theorem modReg_bays (v : Nat) (f : RegView → RegView) : (s.modReg v f).bays = s.bays := rfl
@[simp] theorem modReg_cascade (v : Nat) (f : RegView → RegView) : (s.modReg v f).cascade = s.cascade := rfl
@[simp] theorem modReg_web (v : Nat) (f : RegView → RegView) : (s.modReg v f).web = s.web := rfl
@[simp] theorem modReg_reject (v : Nat) (f : RegView → RegView) : (s.modReg v f).reject = s.reject := rfl
@[simp] theorem modReg_bars (v : Nat) (f : RegView → RegView) : (s.modReg v f).bars = s.bars := rfl
@[simp] theorem modReg_easels (v : Nat) (f : RegView → RegView) : (s.modReg v f).easels = s.easels := rfl
@[simp] theorem modReg_segs (v : Nat) (f : RegView → RegView) : (s.modReg v f).segs = s.segs := rfl
@[simp] theorem modReg_notes (v : Nat) (f : RegView → RegView) : (s.modReg v f).notes = s.notes := rfl
@[simp] theorem modReg_views (v : Nat) (f : RegView → RegView) : (s.modReg v f).views = s.views := rfl
@[simp] theorem modReg_tiles (v : Nat) (f : RegView → RegView) : (s.modReg v f).tiles = s.tiles := rfl
@[simp] theorem modReg_tide (v : Nat) (f : RegView → RegView) : (s.modReg v f).tide = s.tide := rfl
@[simp] theorem modReg_tideNext (v : Nat) (f : RegView → RegView) : (s.modReg v f).tideNext = s.tideNext := rfl
@[simp] theorem modReg_tideWin (v : Nat) (f : RegView → RegView) : (s.modReg v f).tideWin = s.tideWin := rfl
@[simp] theorem modReg_asm (v : Nat) (f : RegView → RegView) : (s.modReg v f).asm = s.asm := rfl
@[simp] theorem modReg_bench (v : Nat) (f : RegView → RegView) : (s.modReg v f).bench = s.bench := rfl
@[simp] theorem modReg_cal (v : Nat) (f : RegView → RegView) : (s.modReg v f).cal = s.cal := rfl
@[simp] theorem modReg_trim (v : Nat) (f : RegView → RegView) : (s.modReg v f).trim = s.trim := rfl
@[simp] theorem modReg_wharf (v : Nat) (f : RegView → RegView) : (s.modReg v f).wharf = s.wharf := rfl
@[simp] theorem modReg_dramUnit (v : Nat) (f : RegView → RegView) : (s.modReg v f).dramUnit = s.dramUnit := rfl
@[simp] theorem modReg_power (v : Nat) (f : RegView → RegView) : (s.modReg v f).power = s.power := rfl
@[simp] theorem modReg_upkeep (v : Nat) (f : RegView → RegView) : (s.modReg v f).upkeep = s.upkeep := rfl
@[simp] theorem modReg_dram (v : Nat) (f : RegView → RegView) : (s.modReg v f).dram = s.dram := rfl

/-! ## modField -/

@[simp] theorem modField_get (v r : Nat) (f : RField → RField) (o : Obj) (i : Nat) : (s.modField v r f).get o i = s.get o i := rfl
@[simp] theorem modField_pending (v r : Nat) (f : RField → RField) : (s.modField v r f).pending = s.pending := rfl
@[simp] theorem modField_powered (v r : Nat) (f : RField → RField) : (s.modField v r f).powered = s.powered := rfl
@[simp] theorem modField_now (v r : Nat) (f : RField → RField) : (s.modField v r f).now = s.now := rfl
@[simp] theorem modField_dc (v r : Nat) (f : RField → RField) : (s.modField v r f).dc = s.dc := rfl
@[simp] theorem modField_dict (v r : Nat) (f : RField → RField) : (s.modField v r f).dict = s.dict := rfl
@[simp] theorem modField_blobs (v r : Nat) (f : RField → RField) : (s.modField v r f).blobs = s.blobs := rfl
@[simp] theorem modField_sat (v r : Nat) (f : RField → RField) : (s.modField v r f).sat = s.sat := rfl
@[simp] theorem modField_held (v r : Nat) (f : RField → RField) : (s.modField v r f).held = s.held := rfl
@[simp] theorem modField_written (v r : Nat) (f : RField → RField) : (s.modField v r f).written = s.written := rfl
@[simp] theorem modField_writtenBlobs (v r : Nat) (f : RField → RField) : (s.modField v r f).writtenBlobs = s.writtenBlobs := rfl
@[simp] theorem modField_abort (v r : Nat) (f : RField → RField) : (s.modField v r f).abort = s.abort := rfl
@[simp] theorem modField_free (v r : Nat) (f : RField → RField) : (s.modField v r f).free = s.free := rfl
@[simp] theorem modField_trace (v r : Nat) (f : RField → RField) : (s.modField v r f).trace = s.trace := rfl
@[simp] theorem modField_evt (v r : Nat) (f : RField → RField) : (s.modField v r f).evt = s.evt := rfl
@[simp] theorem modField_host (v r : Nat) (f : RField → RField) : (s.modField v r f).host = s.host := rfl
@[simp] theorem modField_ecat (v r : Nat) (f : RField → RField) : (s.modField v r f).ecat = s.ecat := rfl
@[simp] theorem modField_nv (v r : Nat) (f : RField → RField) : (s.modField v r f).nv = s.nv := rfl
@[simp] theorem modField_decls (v r : Nat) (f : RField → RField) : (s.modField v r f).decls = s.decls := rfl
@[simp] theorem modField_fails (v r : Nat) (f : RField → RField) : (s.modField v r f).fails = s.fails := rfl
@[simp] theorem modField_marks (v r : Nat) (f : RField → RField) : (s.modField v r f).marks = s.marks := rfl
@[simp] theorem modField_sramCe (v r : Nat) (f : RField → RField) : (s.modField v r f).sramCe = s.sramCe := rfl
@[simp] theorem modField_motion (v r : Nat) (f : RField → RField) : (s.modField v r f).motion = s.motion := rfl
@[simp] theorem modField_filter (v r : Nat) (f : RField → RField) : (s.modField v r f).filter = s.filter := rfl
@[simp] theorem modField_trig (v r : Nat) (f : RField → RField) : (s.modField v r f).trig = s.trig := rfl
@[simp] theorem modField_lanes (v r : Nat) (f : RField → RField) : (s.modField v r f).lanes = s.lanes := rfl
@[simp] theorem modField_quads (v r : Nat) (f : RField → RField) : (s.modField v r f).quads = s.quads := rfl
@[simp] theorem modField_bays (v r : Nat) (f : RField → RField) : (s.modField v r f).bays = s.bays := rfl
@[simp] theorem modField_cascade (v r : Nat) (f : RField → RField) : (s.modField v r f).cascade = s.cascade := rfl
@[simp] theorem modField_web (v r : Nat) (f : RField → RField) : (s.modField v r f).web = s.web := rfl
@[simp] theorem modField_reject (v r : Nat) (f : RField → RField) : (s.modField v r f).reject = s.reject := rfl
@[simp] theorem modField_bars (v r : Nat) (f : RField → RField) : (s.modField v r f).bars = s.bars := rfl
@[simp] theorem modField_easels (v r : Nat) (f : RField → RField) : (s.modField v r f).easels = s.easels := rfl
@[simp] theorem modField_segs (v r : Nat) (f : RField → RField) : (s.modField v r f).segs = s.segs := rfl
@[simp] theorem modField_notes (v r : Nat) (f : RField → RField) : (s.modField v r f).notes = s.notes := rfl
@[simp] theorem modField_views (v r : Nat) (f : RField → RField) : (s.modField v r f).views = s.views := rfl
@[simp] theorem modField_tiles (v r : Nat) (f : RField → RField) : (s.modField v r f).tiles = s.tiles := rfl
@[simp] theorem modField_tide (v r : Nat) (f : RField → RField) : (s.modField v r f).tide = s.tide := rfl
@[simp] theorem modField_tideNext (v r : Nat) (f : RField → RField) : (s.modField v r f).tideNext = s.tideNext := rfl
@[simp] theorem modField_tideWin (v r : Nat) (f : RField → RField) : (s.modField v r f).tideWin = s.tideWin := rfl
@[simp] theorem modField_asm (v r : Nat) (f : RField → RField) : (s.modField v r f).asm = s.asm := rfl
@[simp] theorem modField_bench (v r : Nat) (f : RField → RField) : (s.modField v r f).bench = s.bench := rfl
@[simp] theorem modField_cal (v r : Nat) (f : RField → RField) : (s.modField v r f).cal = s.cal := rfl
@[simp] theorem modField_trim (v r : Nat) (f : RField → RField) : (s.modField v r f).trim = s.trim := rfl
@[simp] theorem modField_wharf (v r : Nat) (f : RField → RField) : (s.modField v r f).wharf = s.wharf := rfl
@[simp] theorem modField_dramUnit (v r : Nat) (f : RField → RField) : (s.modField v r f).dramUnit = s.dramUnit := rfl
@[simp] theorem modField_power (v r : Nat) (f : RField → RField) : (s.modField v r f).power = s.power := rfl
@[simp] theorem modField_upkeep (v r : Nat) (f : RField → RField) : (s.modField v r f).upkeep = s.upkeep := rfl
@[simp] theorem modField_dram (v r : Nat) (f : RField → RField) : (s.modField v r f).dram = s.dram := rfl

/-! ## modRep -/

@[simp] theorem modRep_get (k : Nat) (f : Rep → Rep) (o : Obj) (i : Nat) : (s.modRep k f).get o i = s.get o i := rfl
@[simp] theorem modRep_pending (k : Nat) (f : Rep → Rep) : (s.modRep k f).pending = s.pending := rfl
@[simp] theorem modRep_powered (k : Nat) (f : Rep → Rep) : (s.modRep k f).powered = s.powered := rfl
@[simp] theorem modRep_now (k : Nat) (f : Rep → Rep) : (s.modRep k f).now = s.now := rfl
@[simp] theorem modRep_dc (k : Nat) (f : Rep → Rep) : (s.modRep k f).dc = s.dc := rfl
@[simp] theorem modRep_dict (k : Nat) (f : Rep → Rep) : (s.modRep k f).dict = s.dict := rfl
@[simp] theorem modRep_blobs (k : Nat) (f : Rep → Rep) : (s.modRep k f).blobs = s.blobs := rfl
@[simp] theorem modRep_sat (k : Nat) (f : Rep → Rep) : (s.modRep k f).sat = s.sat := rfl
@[simp] theorem modRep_held (k : Nat) (f : Rep → Rep) : (s.modRep k f).held = s.held := rfl
@[simp] theorem modRep_written (k : Nat) (f : Rep → Rep) : (s.modRep k f).written = s.written := rfl
@[simp] theorem modRep_writtenBlobs (k : Nat) (f : Rep → Rep) : (s.modRep k f).writtenBlobs = s.writtenBlobs := rfl
@[simp] theorem modRep_abort (k : Nat) (f : Rep → Rep) : (s.modRep k f).abort = s.abort := rfl
@[simp] theorem modRep_free (k : Nat) (f : Rep → Rep) : (s.modRep k f).free = s.free := rfl
@[simp] theorem modRep_trace (k : Nat) (f : Rep → Rep) : (s.modRep k f).trace = s.trace := rfl
@[simp] theorem modRep_evt (k : Nat) (f : Rep → Rep) : (s.modRep k f).evt = s.evt := rfl
@[simp] theorem modRep_host (k : Nat) (f : Rep → Rep) : (s.modRep k f).host = s.host := rfl
@[simp] theorem modRep_ecat (k : Nat) (f : Rep → Rep) : (s.modRep k f).ecat = s.ecat := rfl
@[simp] theorem modRep_nv (k : Nat) (f : Rep → Rep) : (s.modRep k f).nv = s.nv := rfl
@[simp] theorem modRep_decls (k : Nat) (f : Rep → Rep) : (s.modRep k f).decls = s.decls := rfl
@[simp] theorem modRep_fails (k : Nat) (f : Rep → Rep) : (s.modRep k f).fails = s.fails := rfl
@[simp] theorem modRep_marks (k : Nat) (f : Rep → Rep) : (s.modRep k f).marks = s.marks := rfl
@[simp] theorem modRep_sramCe (k : Nat) (f : Rep → Rep) : (s.modRep k f).sramCe = s.sramCe := rfl
@[simp] theorem modRep_motion (k : Nat) (f : Rep → Rep) : (s.modRep k f).motion = s.motion := rfl
@[simp] theorem modRep_filter (k : Nat) (f : Rep → Rep) : (s.modRep k f).filter = s.filter := rfl
@[simp] theorem modRep_trig (k : Nat) (f : Rep → Rep) : (s.modRep k f).trig = s.trig := rfl
@[simp] theorem modRep_lanes (k : Nat) (f : Rep → Rep) : (s.modRep k f).lanes = s.lanes := rfl
@[simp] theorem modRep_quads (k : Nat) (f : Rep → Rep) : (s.modRep k f).quads = s.quads := rfl
@[simp] theorem modRep_bays (k : Nat) (f : Rep → Rep) : (s.modRep k f).bays = s.bays := rfl
@[simp] theorem modRep_cascade (k : Nat) (f : Rep → Rep) : (s.modRep k f).cascade = s.cascade := rfl
@[simp] theorem modRep_reject (k : Nat) (f : Rep → Rep) : (s.modRep k f).reject = s.reject := rfl
@[simp] theorem modRep_bars (k : Nat) (f : Rep → Rep) : (s.modRep k f).bars = s.bars := rfl
@[simp] theorem modRep_easels (k : Nat) (f : Rep → Rep) : (s.modRep k f).easels = s.easels := rfl
@[simp] theorem modRep_segs (k : Nat) (f : Rep → Rep) : (s.modRep k f).segs = s.segs := rfl
@[simp] theorem modRep_notes (k : Nat) (f : Rep → Rep) : (s.modRep k f).notes = s.notes := rfl
@[simp] theorem modRep_views (k : Nat) (f : Rep → Rep) : (s.modRep k f).views = s.views := rfl
@[simp] theorem modRep_regs (k : Nat) (f : Rep → Rep) : (s.modRep k f).regs = s.regs := rfl
@[simp] theorem modRep_tiles (k : Nat) (f : Rep → Rep) : (s.modRep k f).tiles = s.tiles := rfl
@[simp] theorem modRep_tide (k : Nat) (f : Rep → Rep) : (s.modRep k f).tide = s.tide := rfl
@[simp] theorem modRep_tideNext (k : Nat) (f : Rep → Rep) : (s.modRep k f).tideNext = s.tideNext := rfl
@[simp] theorem modRep_tideWin (k : Nat) (f : Rep → Rep) : (s.modRep k f).tideWin = s.tideWin := rfl
@[simp] theorem modRep_asm (k : Nat) (f : Rep → Rep) : (s.modRep k f).asm = s.asm := rfl
@[simp] theorem modRep_bench (k : Nat) (f : Rep → Rep) : (s.modRep k f).bench = s.bench := rfl
@[simp] theorem modRep_cal (k : Nat) (f : Rep → Rep) : (s.modRep k f).cal = s.cal := rfl
@[simp] theorem modRep_trim (k : Nat) (f : Rep → Rep) : (s.modRep k f).trim = s.trim := rfl
@[simp] theorem modRep_wharf (k : Nat) (f : Rep → Rep) : (s.modRep k f).wharf = s.wharf := rfl
@[simp] theorem modRep_dramUnit (k : Nat) (f : Rep → Rep) : (s.modRep k f).dramUnit = s.dramUnit := rfl
@[simp] theorem modRep_power (k : Nat) (f : Rep → Rep) : (s.modRep k f).power = s.power := rfl
@[simp] theorem modRep_upkeep (k : Nat) (f : Rep → Rep) : (s.modRep k f).upkeep = s.upkeep := rfl
@[simp] theorem modRep_dram (k : Nat) (f : Rep → Rep) : (s.modRep k f).dram = s.dram := rfl

/-! ## modSched -/

@[simp] theorem modSched_get (f : Sched → Sched) (o : Obj) (i : Nat) : (s.modSched f).get o i = s.get o i := rfl
@[simp] theorem modSched_pending (f : Sched → Sched) : (s.modSched f).pending = s.pending := rfl
@[simp] theorem modSched_powered (f : Sched → Sched) : (s.modSched f).powered = s.powered := rfl
@[simp] theorem modSched_now (f : Sched → Sched) : (s.modSched f).now = s.now := rfl
@[simp] theorem modSched_dc (f : Sched → Sched) : (s.modSched f).dc = s.dc := rfl
@[simp] theorem modSched_dict (f : Sched → Sched) : (s.modSched f).dict = s.dict := rfl
@[simp] theorem modSched_blobs (f : Sched → Sched) : (s.modSched f).blobs = s.blobs := rfl
@[simp] theorem modSched_sat (f : Sched → Sched) : (s.modSched f).sat = s.sat := rfl
@[simp] theorem modSched_held (f : Sched → Sched) : (s.modSched f).held = s.held := rfl
@[simp] theorem modSched_written (f : Sched → Sched) : (s.modSched f).written = s.written := rfl
@[simp] theorem modSched_writtenBlobs (f : Sched → Sched) : (s.modSched f).writtenBlobs = s.writtenBlobs := rfl
@[simp] theorem modSched_abort (f : Sched → Sched) : (s.modSched f).abort = s.abort := rfl
@[simp] theorem modSched_free (f : Sched → Sched) : (s.modSched f).free = s.free := rfl
@[simp] theorem modSched_trace (f : Sched → Sched) : (s.modSched f).trace = s.trace := rfl
@[simp] theorem modSched_evt (f : Sched → Sched) : (s.modSched f).evt = s.evt := rfl
@[simp] theorem modSched_host (f : Sched → Sched) : (s.modSched f).host = s.host := rfl
@[simp] theorem modSched_ecat (f : Sched → Sched) : (s.modSched f).ecat = s.ecat := rfl
@[simp] theorem modSched_nv (f : Sched → Sched) : (s.modSched f).nv = s.nv := rfl
@[simp] theorem modSched_decls (f : Sched → Sched) : (s.modSched f).decls = s.decls := rfl
@[simp] theorem modSched_fails (f : Sched → Sched) : (s.modSched f).fails = s.fails := rfl
@[simp] theorem modSched_marks (f : Sched → Sched) : (s.modSched f).marks = s.marks := rfl
@[simp] theorem modSched_sramCe (f : Sched → Sched) : (s.modSched f).sramCe = s.sramCe := rfl
@[simp] theorem modSched_motion (f : Sched → Sched) : (s.modSched f).motion = s.motion := rfl
@[simp] theorem modSched_filter (f : Sched → Sched) : (s.modSched f).filter = s.filter := rfl
@[simp] theorem modSched_trig (f : Sched → Sched) : (s.modSched f).trig = s.trig := rfl
@[simp] theorem modSched_lanes (f : Sched → Sched) : (s.modSched f).lanes = s.lanes := rfl
@[simp] theorem modSched_quads (f : Sched → Sched) : (s.modSched f).quads = s.quads := rfl
@[simp] theorem modSched_bays (f : Sched → Sched) : (s.modSched f).bays = s.bays := rfl
@[simp] theorem modSched_cascade (f : Sched → Sched) : (s.modSched f).cascade = s.cascade := rfl
@[simp] theorem modSched_reject (f : Sched → Sched) : (s.modSched f).reject = s.reject := rfl
@[simp] theorem modSched_bars (f : Sched → Sched) : (s.modSched f).bars = s.bars := rfl
@[simp] theorem modSched_easels (f : Sched → Sched) : (s.modSched f).easels = s.easels := rfl
@[simp] theorem modSched_segs (f : Sched → Sched) : (s.modSched f).segs = s.segs := rfl
@[simp] theorem modSched_notes (f : Sched → Sched) : (s.modSched f).notes = s.notes := rfl
@[simp] theorem modSched_views (f : Sched → Sched) : (s.modSched f).views = s.views := rfl
@[simp] theorem modSched_regs (f : Sched → Sched) : (s.modSched f).regs = s.regs := rfl
@[simp] theorem modSched_tiles (f : Sched → Sched) : (s.modSched f).tiles = s.tiles := rfl
@[simp] theorem modSched_tide (f : Sched → Sched) : (s.modSched f).tide = s.tide := rfl
@[simp] theorem modSched_tideNext (f : Sched → Sched) : (s.modSched f).tideNext = s.tideNext := rfl
@[simp] theorem modSched_tideWin (f : Sched → Sched) : (s.modSched f).tideWin = s.tideWin := rfl
@[simp] theorem modSched_asm (f : Sched → Sched) : (s.modSched f).asm = s.asm := rfl
@[simp] theorem modSched_bench (f : Sched → Sched) : (s.modSched f).bench = s.bench := rfl
@[simp] theorem modSched_cal (f : Sched → Sched) : (s.modSched f).cal = s.cal := rfl
@[simp] theorem modSched_trim (f : Sched → Sched) : (s.modSched f).trim = s.trim := rfl
@[simp] theorem modSched_wharf (f : Sched → Sched) : (s.modSched f).wharf = s.wharf := rfl
@[simp] theorem modSched_dramUnit (f : Sched → Sched) : (s.modSched f).dramUnit = s.dramUnit := rfl
@[simp] theorem modSched_power (f : Sched → Sched) : (s.modSched f).power = s.power := rfl
@[simp] theorem modSched_upkeep (f : Sched → Sched) : (s.modSched f).upkeep = s.upkeep := rfl
@[simp] theorem modSched_dram (f : Sched → Sched) : (s.modSched f).dram = s.dram := rfl

/-! ## modTile -/

@[simp] theorem modTile_get (k : Nat) (f : Tile → Tile) (o : Obj) (i : Nat) : (s.modTile k f).get o i = s.get o i := rfl
@[simp] theorem modTile_pending (k : Nat) (f : Tile → Tile) : (s.modTile k f).pending = s.pending := rfl
@[simp] theorem modTile_powered (k : Nat) (f : Tile → Tile) : (s.modTile k f).powered = s.powered := rfl
@[simp] theorem modTile_now (k : Nat) (f : Tile → Tile) : (s.modTile k f).now = s.now := rfl
@[simp] theorem modTile_dc (k : Nat) (f : Tile → Tile) : (s.modTile k f).dc = s.dc := rfl
@[simp] theorem modTile_dict (k : Nat) (f : Tile → Tile) : (s.modTile k f).dict = s.dict := rfl
@[simp] theorem modTile_blobs (k : Nat) (f : Tile → Tile) : (s.modTile k f).blobs = s.blobs := rfl
@[simp] theorem modTile_sat (k : Nat) (f : Tile → Tile) : (s.modTile k f).sat = s.sat := rfl
@[simp] theorem modTile_held (k : Nat) (f : Tile → Tile) : (s.modTile k f).held = s.held := rfl
@[simp] theorem modTile_written (k : Nat) (f : Tile → Tile) : (s.modTile k f).written = s.written := rfl
@[simp] theorem modTile_writtenBlobs (k : Nat) (f : Tile → Tile) : (s.modTile k f).writtenBlobs = s.writtenBlobs := rfl
@[simp] theorem modTile_abort (k : Nat) (f : Tile → Tile) : (s.modTile k f).abort = s.abort := rfl
@[simp] theorem modTile_free (k : Nat) (f : Tile → Tile) : (s.modTile k f).free = s.free := rfl
@[simp] theorem modTile_trace (k : Nat) (f : Tile → Tile) : (s.modTile k f).trace = s.trace := rfl
@[simp] theorem modTile_evt (k : Nat) (f : Tile → Tile) : (s.modTile k f).evt = s.evt := rfl
@[simp] theorem modTile_host (k : Nat) (f : Tile → Tile) : (s.modTile k f).host = s.host := rfl
@[simp] theorem modTile_ecat (k : Nat) (f : Tile → Tile) : (s.modTile k f).ecat = s.ecat := rfl
@[simp] theorem modTile_nv (k : Nat) (f : Tile → Tile) : (s.modTile k f).nv = s.nv := rfl
@[simp] theorem modTile_decls (k : Nat) (f : Tile → Tile) : (s.modTile k f).decls = s.decls := rfl
@[simp] theorem modTile_fails (k : Nat) (f : Tile → Tile) : (s.modTile k f).fails = s.fails := rfl
@[simp] theorem modTile_marks (k : Nat) (f : Tile → Tile) : (s.modTile k f).marks = s.marks := rfl
@[simp] theorem modTile_sramCe (k : Nat) (f : Tile → Tile) : (s.modTile k f).sramCe = s.sramCe := rfl
@[simp] theorem modTile_motion (k : Nat) (f : Tile → Tile) : (s.modTile k f).motion = s.motion := rfl
@[simp] theorem modTile_filter (k : Nat) (f : Tile → Tile) : (s.modTile k f).filter = s.filter := rfl
@[simp] theorem modTile_trig (k : Nat) (f : Tile → Tile) : (s.modTile k f).trig = s.trig := rfl
@[simp] theorem modTile_lanes (k : Nat) (f : Tile → Tile) : (s.modTile k f).lanes = s.lanes := rfl
@[simp] theorem modTile_quads (k : Nat) (f : Tile → Tile) : (s.modTile k f).quads = s.quads := rfl
@[simp] theorem modTile_bays (k : Nat) (f : Tile → Tile) : (s.modTile k f).bays = s.bays := rfl
@[simp] theorem modTile_cascade (k : Nat) (f : Tile → Tile) : (s.modTile k f).cascade = s.cascade := rfl
@[simp] theorem modTile_web (k : Nat) (f : Tile → Tile) : (s.modTile k f).web = s.web := rfl
@[simp] theorem modTile_reject (k : Nat) (f : Tile → Tile) : (s.modTile k f).reject = s.reject := rfl
@[simp] theorem modTile_bars (k : Nat) (f : Tile → Tile) : (s.modTile k f).bars = s.bars := rfl
@[simp] theorem modTile_easels (k : Nat) (f : Tile → Tile) : (s.modTile k f).easels = s.easels := rfl
@[simp] theorem modTile_segs (k : Nat) (f : Tile → Tile) : (s.modTile k f).segs = s.segs := rfl
@[simp] theorem modTile_notes (k : Nat) (f : Tile → Tile) : (s.modTile k f).notes = s.notes := rfl
@[simp] theorem modTile_views (k : Nat) (f : Tile → Tile) : (s.modTile k f).views = s.views := rfl
@[simp] theorem modTile_regs (k : Nat) (f : Tile → Tile) : (s.modTile k f).regs = s.regs := rfl
@[simp] theorem modTile_tide (k : Nat) (f : Tile → Tile) : (s.modTile k f).tide = s.tide := rfl
@[simp] theorem modTile_tideNext (k : Nat) (f : Tile → Tile) : (s.modTile k f).tideNext = s.tideNext := rfl
@[simp] theorem modTile_tideWin (k : Nat) (f : Tile → Tile) : (s.modTile k f).tideWin = s.tideWin := rfl
@[simp] theorem modTile_asm (k : Nat) (f : Tile → Tile) : (s.modTile k f).asm = s.asm := rfl
@[simp] theorem modTile_bench (k : Nat) (f : Tile → Tile) : (s.modTile k f).bench = s.bench := rfl
@[simp] theorem modTile_cal (k : Nat) (f : Tile → Tile) : (s.modTile k f).cal = s.cal := rfl
@[simp] theorem modTile_trim (k : Nat) (f : Tile → Tile) : (s.modTile k f).trim = s.trim := rfl
@[simp] theorem modTile_wharf (k : Nat) (f : Tile → Tile) : (s.modTile k f).wharf = s.wharf := rfl
@[simp] theorem modTile_dramUnit (k : Nat) (f : Tile → Tile) : (s.modTile k f).dramUnit = s.dramUnit := rfl
@[simp] theorem modTile_power (k : Nat) (f : Tile → Tile) : (s.modTile k f).power = s.power := rfl
@[simp] theorem modTile_upkeep (k : Nat) (f : Tile → Tile) : (s.modTile k f).upkeep = s.upkeep := rfl
@[simp] theorem modTile_dram (k : Nat) (f : Tile → Tile) : (s.modTile k f).dram = s.dram := rfl

/-! ## modJob -/

@[simp] theorem modJob_get (n : Nat) (f : Job → Job) (o : Obj) (i : Nat) : (s.modJob n f).get o i = s.get o i := rfl
@[simp] theorem modJob_pending (n : Nat) (f : Job → Job) : (s.modJob n f).pending = s.pending := rfl
@[simp] theorem modJob_powered (n : Nat) (f : Job → Job) : (s.modJob n f).powered = s.powered := rfl
@[simp] theorem modJob_now (n : Nat) (f : Job → Job) : (s.modJob n f).now = s.now := rfl
@[simp] theorem modJob_dc (n : Nat) (f : Job → Job) : (s.modJob n f).dc = s.dc := rfl
@[simp] theorem modJob_dict (n : Nat) (f : Job → Job) : (s.modJob n f).dict = s.dict := rfl
@[simp] theorem modJob_blobs (n : Nat) (f : Job → Job) : (s.modJob n f).blobs = s.blobs := rfl
@[simp] theorem modJob_sat (n : Nat) (f : Job → Job) : (s.modJob n f).sat = s.sat := rfl
@[simp] theorem modJob_held (n : Nat) (f : Job → Job) : (s.modJob n f).held = s.held := rfl
@[simp] theorem modJob_written (n : Nat) (f : Job → Job) : (s.modJob n f).written = s.written := rfl
@[simp] theorem modJob_writtenBlobs (n : Nat) (f : Job → Job) : (s.modJob n f).writtenBlobs = s.writtenBlobs := rfl
@[simp] theorem modJob_abort (n : Nat) (f : Job → Job) : (s.modJob n f).abort = s.abort := rfl
@[simp] theorem modJob_free (n : Nat) (f : Job → Job) : (s.modJob n f).free = s.free := rfl
@[simp] theorem modJob_trace (n : Nat) (f : Job → Job) : (s.modJob n f).trace = s.trace := rfl
@[simp] theorem modJob_evt (n : Nat) (f : Job → Job) : (s.modJob n f).evt = s.evt := rfl
@[simp] theorem modJob_host (n : Nat) (f : Job → Job) : (s.modJob n f).host = s.host := rfl
@[simp] theorem modJob_ecat (n : Nat) (f : Job → Job) : (s.modJob n f).ecat = s.ecat := rfl
@[simp] theorem modJob_nv (n : Nat) (f : Job → Job) : (s.modJob n f).nv = s.nv := rfl
@[simp] theorem modJob_decls (n : Nat) (f : Job → Job) : (s.modJob n f).decls = s.decls := rfl
@[simp] theorem modJob_fails (n : Nat) (f : Job → Job) : (s.modJob n f).fails = s.fails := rfl
@[simp] theorem modJob_marks (n : Nat) (f : Job → Job) : (s.modJob n f).marks = s.marks := rfl
@[simp] theorem modJob_sramCe (n : Nat) (f : Job → Job) : (s.modJob n f).sramCe = s.sramCe := rfl
@[simp] theorem modJob_motion (n : Nat) (f : Job → Job) : (s.modJob n f).motion = s.motion := rfl
@[simp] theorem modJob_filter (n : Nat) (f : Job → Job) : (s.modJob n f).filter = s.filter := rfl
@[simp] theorem modJob_trig (n : Nat) (f : Job → Job) : (s.modJob n f).trig = s.trig := rfl
@[simp] theorem modJob_lanes (n : Nat) (f : Job → Job) : (s.modJob n f).lanes = s.lanes := rfl
@[simp] theorem modJob_quads (n : Nat) (f : Job → Job) : (s.modJob n f).quads = s.quads := rfl
@[simp] theorem modJob_bays (n : Nat) (f : Job → Job) : (s.modJob n f).bays = s.bays := rfl
@[simp] theorem modJob_cascade (n : Nat) (f : Job → Job) : (s.modJob n f).cascade = s.cascade := rfl
@[simp] theorem modJob_web (n : Nat) (f : Job → Job) : (s.modJob n f).web = s.web := rfl
@[simp] theorem modJob_reject (n : Nat) (f : Job → Job) : (s.modJob n f).reject = s.reject := rfl
@[simp] theorem modJob_bars (n : Nat) (f : Job → Job) : (s.modJob n f).bars = s.bars := rfl
@[simp] theorem modJob_easels (n : Nat) (f : Job → Job) : (s.modJob n f).easels = s.easels := rfl
@[simp] theorem modJob_segs (n : Nat) (f : Job → Job) : (s.modJob n f).segs = s.segs := rfl
@[simp] theorem modJob_notes (n : Nat) (f : Job → Job) : (s.modJob n f).notes = s.notes := rfl
@[simp] theorem modJob_views (n : Nat) (f : Job → Job) : (s.modJob n f).views = s.views := rfl
@[simp] theorem modJob_regs (n : Nat) (f : Job → Job) : (s.modJob n f).regs = s.regs := rfl
@[simp] theorem modJob_tiles (n : Nat) (f : Job → Job) : (s.modJob n f).tiles = s.tiles := rfl
@[simp] theorem modJob_tide (n : Nat) (f : Job → Job) : (s.modJob n f).tide = s.tide := rfl
@[simp] theorem modJob_tideNext (n : Nat) (f : Job → Job) : (s.modJob n f).tideNext = s.tideNext := rfl
@[simp] theorem modJob_tideWin (n : Nat) (f : Job → Job) : (s.modJob n f).tideWin = s.tideWin := rfl
@[simp] theorem modJob_asm (n : Nat) (f : Job → Job) : (s.modJob n f).asm = s.asm := rfl
@[simp] theorem modJob_bench (n : Nat) (f : Job → Job) : (s.modJob n f).bench = s.bench := rfl
@[simp] theorem modJob_cal (n : Nat) (f : Job → Job) : (s.modJob n f).cal = s.cal := rfl
@[simp] theorem modJob_trim (n : Nat) (f : Job → Job) : (s.modJob n f).trim = s.trim := rfl
@[simp] theorem modJob_dramUnit (n : Nat) (f : Job → Job) : (s.modJob n f).dramUnit = s.dramUnit := rfl
@[simp] theorem modJob_power (n : Nat) (f : Job → Job) : (s.modJob n f).power = s.power := rfl
@[simp] theorem modJob_upkeep (n : Nat) (f : Job → Job) : (s.modJob n f).upkeep = s.upkeep := rfl
@[simp] theorem modJob_dram (n : Nat) (f : Job → Job) : (s.modJob n f).dram = s.dram := rfl

/-! ## modRing -/

@[simp] theorem modRing_get (r : Nat) (f : Ring → Ring) (o : Obj) (i : Nat) : (s.modRing r f).get o i = s.get o i := rfl
@[simp] theorem modRing_pending (r : Nat) (f : Ring → Ring) : (s.modRing r f).pending = s.pending := rfl
@[simp] theorem modRing_powered (r : Nat) (f : Ring → Ring) : (s.modRing r f).powered = s.powered := rfl
@[simp] theorem modRing_now (r : Nat) (f : Ring → Ring) : (s.modRing r f).now = s.now := rfl
@[simp] theorem modRing_dc (r : Nat) (f : Ring → Ring) : (s.modRing r f).dc = s.dc := rfl
@[simp] theorem modRing_dict (r : Nat) (f : Ring → Ring) : (s.modRing r f).dict = s.dict := rfl
@[simp] theorem modRing_blobs (r : Nat) (f : Ring → Ring) : (s.modRing r f).blobs = s.blobs := rfl
@[simp] theorem modRing_sat (r : Nat) (f : Ring → Ring) : (s.modRing r f).sat = s.sat := rfl
@[simp] theorem modRing_held (r : Nat) (f : Ring → Ring) : (s.modRing r f).held = s.held := rfl
@[simp] theorem modRing_written (r : Nat) (f : Ring → Ring) : (s.modRing r f).written = s.written := rfl
@[simp] theorem modRing_writtenBlobs (r : Nat) (f : Ring → Ring) : (s.modRing r f).writtenBlobs = s.writtenBlobs := rfl
@[simp] theorem modRing_abort (r : Nat) (f : Ring → Ring) : (s.modRing r f).abort = s.abort := rfl
@[simp] theorem modRing_free (r : Nat) (f : Ring → Ring) : (s.modRing r f).free = s.free := rfl
@[simp] theorem modRing_trace (r : Nat) (f : Ring → Ring) : (s.modRing r f).trace = s.trace := rfl
@[simp] theorem modRing_evt (r : Nat) (f : Ring → Ring) : (s.modRing r f).evt = s.evt := rfl
@[simp] theorem modRing_ecat (r : Nat) (f : Ring → Ring) : (s.modRing r f).ecat = s.ecat := rfl
@[simp] theorem modRing_nv (r : Nat) (f : Ring → Ring) : (s.modRing r f).nv = s.nv := rfl
@[simp] theorem modRing_decls (r : Nat) (f : Ring → Ring) : (s.modRing r f).decls = s.decls := rfl
@[simp] theorem modRing_fails (r : Nat) (f : Ring → Ring) : (s.modRing r f).fails = s.fails := rfl
@[simp] theorem modRing_marks (r : Nat) (f : Ring → Ring) : (s.modRing r f).marks = s.marks := rfl
@[simp] theorem modRing_sramCe (r : Nat) (f : Ring → Ring) : (s.modRing r f).sramCe = s.sramCe := rfl
@[simp] theorem modRing_motion (r : Nat) (f : Ring → Ring) : (s.modRing r f).motion = s.motion := rfl
@[simp] theorem modRing_filter (r : Nat) (f : Ring → Ring) : (s.modRing r f).filter = s.filter := rfl
@[simp] theorem modRing_trig (r : Nat) (f : Ring → Ring) : (s.modRing r f).trig = s.trig := rfl
@[simp] theorem modRing_lanes (r : Nat) (f : Ring → Ring) : (s.modRing r f).lanes = s.lanes := rfl
@[simp] theorem modRing_quads (r : Nat) (f : Ring → Ring) : (s.modRing r f).quads = s.quads := rfl
@[simp] theorem modRing_bays (r : Nat) (f : Ring → Ring) : (s.modRing r f).bays = s.bays := rfl
@[simp] theorem modRing_cascade (r : Nat) (f : Ring → Ring) : (s.modRing r f).cascade = s.cascade := rfl
@[simp] theorem modRing_web (r : Nat) (f : Ring → Ring) : (s.modRing r f).web = s.web := rfl
@[simp] theorem modRing_reject (r : Nat) (f : Ring → Ring) : (s.modRing r f).reject = s.reject := rfl
@[simp] theorem modRing_bars (r : Nat) (f : Ring → Ring) : (s.modRing r f).bars = s.bars := rfl
@[simp] theorem modRing_easels (r : Nat) (f : Ring → Ring) : (s.modRing r f).easels = s.easels := rfl
@[simp] theorem modRing_segs (r : Nat) (f : Ring → Ring) : (s.modRing r f).segs = s.segs := rfl
@[simp] theorem modRing_notes (r : Nat) (f : Ring → Ring) : (s.modRing r f).notes = s.notes := rfl
@[simp] theorem modRing_views (r : Nat) (f : Ring → Ring) : (s.modRing r f).views = s.views := rfl
@[simp] theorem modRing_regs (r : Nat) (f : Ring → Ring) : (s.modRing r f).regs = s.regs := rfl
@[simp] theorem modRing_tiles (r : Nat) (f : Ring → Ring) : (s.modRing r f).tiles = s.tiles := rfl
@[simp] theorem modRing_tide (r : Nat) (f : Ring → Ring) : (s.modRing r f).tide = s.tide := rfl
@[simp] theorem modRing_tideNext (r : Nat) (f : Ring → Ring) : (s.modRing r f).tideNext = s.tideNext := rfl
@[simp] theorem modRing_tideWin (r : Nat) (f : Ring → Ring) : (s.modRing r f).tideWin = s.tideWin := rfl
@[simp] theorem modRing_asm (r : Nat) (f : Ring → Ring) : (s.modRing r f).asm = s.asm := rfl
@[simp] theorem modRing_bench (r : Nat) (f : Ring → Ring) : (s.modRing r f).bench = s.bench := rfl
@[simp] theorem modRing_cal (r : Nat) (f : Ring → Ring) : (s.modRing r f).cal = s.cal := rfl
@[simp] theorem modRing_trim (r : Nat) (f : Ring → Ring) : (s.modRing r f).trim = s.trim := rfl
@[simp] theorem modRing_wharf (r : Nat) (f : Ring → Ring) : (s.modRing r f).wharf = s.wharf := rfl
@[simp] theorem modRing_dramUnit (r : Nat) (f : Ring → Ring) : (s.modRing r f).dramUnit = s.dramUnit := rfl
@[simp] theorem modRing_power (r : Nat) (f : Ring → Ring) : (s.modRing r f).power = s.power := rfl
@[simp] theorem modRing_upkeep (r : Nat) (f : Ring → Ring) : (s.modRing r f).upkeep = s.upkeep := rfl
@[simp] theorem modRing_dram (r : Nat) (f : Ring → Ring) : (s.modRing r f).dram = s.dram := rfl

/-! ## modChan -/

@[simp] theorem modChan_get (k : Nat) (f : Chan → Chan) (o : Obj) (i : Nat) : (s.modChan k f).get o i = s.get o i := rfl
@[simp] theorem modChan_pending (k : Nat) (f : Chan → Chan) : (s.modChan k f).pending = s.pending := rfl
@[simp] theorem modChan_powered (k : Nat) (f : Chan → Chan) : (s.modChan k f).powered = s.powered := rfl
@[simp] theorem modChan_now (k : Nat) (f : Chan → Chan) : (s.modChan k f).now = s.now := rfl
@[simp] theorem modChan_dc (k : Nat) (f : Chan → Chan) : (s.modChan k f).dc = s.dc := rfl
@[simp] theorem modChan_dict (k : Nat) (f : Chan → Chan) : (s.modChan k f).dict = s.dict := rfl
@[simp] theorem modChan_blobs (k : Nat) (f : Chan → Chan) : (s.modChan k f).blobs = s.blobs := rfl
@[simp] theorem modChan_sat (k : Nat) (f : Chan → Chan) : (s.modChan k f).sat = s.sat := rfl
@[simp] theorem modChan_held (k : Nat) (f : Chan → Chan) : (s.modChan k f).held = s.held := rfl
@[simp] theorem modChan_written (k : Nat) (f : Chan → Chan) : (s.modChan k f).written = s.written := rfl
@[simp] theorem modChan_writtenBlobs (k : Nat) (f : Chan → Chan) : (s.modChan k f).writtenBlobs = s.writtenBlobs := rfl
@[simp] theorem modChan_abort (k : Nat) (f : Chan → Chan) : (s.modChan k f).abort = s.abort := rfl
@[simp] theorem modChan_free (k : Nat) (f : Chan → Chan) : (s.modChan k f).free = s.free := rfl
@[simp] theorem modChan_trace (k : Nat) (f : Chan → Chan) : (s.modChan k f).trace = s.trace := rfl
@[simp] theorem modChan_host (k : Nat) (f : Chan → Chan) : (s.modChan k f).host = s.host := rfl
@[simp] theorem modChan_ecat (k : Nat) (f : Chan → Chan) : (s.modChan k f).ecat = s.ecat := rfl
@[simp] theorem modChan_nv (k : Nat) (f : Chan → Chan) : (s.modChan k f).nv = s.nv := rfl
@[simp] theorem modChan_decls (k : Nat) (f : Chan → Chan) : (s.modChan k f).decls = s.decls := rfl
@[simp] theorem modChan_fails (k : Nat) (f : Chan → Chan) : (s.modChan k f).fails = s.fails := rfl
@[simp] theorem modChan_marks (k : Nat) (f : Chan → Chan) : (s.modChan k f).marks = s.marks := rfl
@[simp] theorem modChan_sramCe (k : Nat) (f : Chan → Chan) : (s.modChan k f).sramCe = s.sramCe := rfl
@[simp] theorem modChan_motion (k : Nat) (f : Chan → Chan) : (s.modChan k f).motion = s.motion := rfl
@[simp] theorem modChan_filter (k : Nat) (f : Chan → Chan) : (s.modChan k f).filter = s.filter := rfl
@[simp] theorem modChan_trig (k : Nat) (f : Chan → Chan) : (s.modChan k f).trig = s.trig := rfl
@[simp] theorem modChan_lanes (k : Nat) (f : Chan → Chan) : (s.modChan k f).lanes = s.lanes := rfl
@[simp] theorem modChan_quads (k : Nat) (f : Chan → Chan) : (s.modChan k f).quads = s.quads := rfl
@[simp] theorem modChan_bays (k : Nat) (f : Chan → Chan) : (s.modChan k f).bays = s.bays := rfl
@[simp] theorem modChan_cascade (k : Nat) (f : Chan → Chan) : (s.modChan k f).cascade = s.cascade := rfl
@[simp] theorem modChan_web (k : Nat) (f : Chan → Chan) : (s.modChan k f).web = s.web := rfl
@[simp] theorem modChan_reject (k : Nat) (f : Chan → Chan) : (s.modChan k f).reject = s.reject := rfl
@[simp] theorem modChan_bars (k : Nat) (f : Chan → Chan) : (s.modChan k f).bars = s.bars := rfl
@[simp] theorem modChan_easels (k : Nat) (f : Chan → Chan) : (s.modChan k f).easels = s.easels := rfl
@[simp] theorem modChan_segs (k : Nat) (f : Chan → Chan) : (s.modChan k f).segs = s.segs := rfl
@[simp] theorem modChan_notes (k : Nat) (f : Chan → Chan) : (s.modChan k f).notes = s.notes := rfl
@[simp] theorem modChan_views (k : Nat) (f : Chan → Chan) : (s.modChan k f).views = s.views := rfl
@[simp] theorem modChan_regs (k : Nat) (f : Chan → Chan) : (s.modChan k f).regs = s.regs := rfl
@[simp] theorem modChan_tiles (k : Nat) (f : Chan → Chan) : (s.modChan k f).tiles = s.tiles := rfl
@[simp] theorem modChan_tide (k : Nat) (f : Chan → Chan) : (s.modChan k f).tide = s.tide := rfl
@[simp] theorem modChan_tideNext (k : Nat) (f : Chan → Chan) : (s.modChan k f).tideNext = s.tideNext := rfl
@[simp] theorem modChan_tideWin (k : Nat) (f : Chan → Chan) : (s.modChan k f).tideWin = s.tideWin := rfl
@[simp] theorem modChan_asm (k : Nat) (f : Chan → Chan) : (s.modChan k f).asm = s.asm := rfl
@[simp] theorem modChan_bench (k : Nat) (f : Chan → Chan) : (s.modChan k f).bench = s.bench := rfl
@[simp] theorem modChan_cal (k : Nat) (f : Chan → Chan) : (s.modChan k f).cal = s.cal := rfl
@[simp] theorem modChan_trim (k : Nat) (f : Chan → Chan) : (s.modChan k f).trim = s.trim := rfl
@[simp] theorem modChan_wharf (k : Nat) (f : Chan → Chan) : (s.modChan k f).wharf = s.wharf := rfl
@[simp] theorem modChan_dramUnit (k : Nat) (f : Chan → Chan) : (s.modChan k f).dramUnit = s.dramUnit := rfl
@[simp] theorem modChan_power (k : Nat) (f : Chan → Chan) : (s.modChan k f).power = s.power := rfl
@[simp] theorem modChan_upkeep (k : Nat) (f : Chan → Chan) : (s.modChan k f).upkeep = s.upkeep := rfl
@[simp] theorem modChan_dram (k : Nat) (f : Chan → Chan) : (s.modChan k f).dram = s.dram := rfl

/-! ## modCell -/

@[simp] theorem modCell_get (c : Nat) (f : Cell → Cell) (o : Obj) (i : Nat) : (s.modCell c f).get o i = s.get o i := rfl
@[simp] theorem modCell_pending (c : Nat) (f : Cell → Cell) : (s.modCell c f).pending = s.pending := rfl
@[simp] theorem modCell_powered (c : Nat) (f : Cell → Cell) : (s.modCell c f).powered = s.powered := rfl
@[simp] theorem modCell_now (c : Nat) (f : Cell → Cell) : (s.modCell c f).now = s.now := rfl
@[simp] theorem modCell_dc (c : Nat) (f : Cell → Cell) : (s.modCell c f).dc = s.dc := rfl
@[simp] theorem modCell_dict (c : Nat) (f : Cell → Cell) : (s.modCell c f).dict = s.dict := rfl
@[simp] theorem modCell_blobs (c : Nat) (f : Cell → Cell) : (s.modCell c f).blobs = s.blobs := rfl
@[simp] theorem modCell_sat (c : Nat) (f : Cell → Cell) : (s.modCell c f).sat = s.sat := rfl
@[simp] theorem modCell_held (c : Nat) (f : Cell → Cell) : (s.modCell c f).held = s.held := rfl
@[simp] theorem modCell_written (c : Nat) (f : Cell → Cell) : (s.modCell c f).written = s.written := rfl
@[simp] theorem modCell_writtenBlobs (c : Nat) (f : Cell → Cell) : (s.modCell c f).writtenBlobs = s.writtenBlobs := rfl
@[simp] theorem modCell_abort (c : Nat) (f : Cell → Cell) : (s.modCell c f).abort = s.abort := rfl
@[simp] theorem modCell_free (c : Nat) (f : Cell → Cell) : (s.modCell c f).free = s.free := rfl
@[simp] theorem modCell_trace (c : Nat) (f : Cell → Cell) : (s.modCell c f).trace = s.trace := rfl
@[simp] theorem modCell_host (c : Nat) (f : Cell → Cell) : (s.modCell c f).host = s.host := rfl
@[simp] theorem modCell_ecat (c : Nat) (f : Cell → Cell) : (s.modCell c f).ecat = s.ecat := rfl
@[simp] theorem modCell_nv (c : Nat) (f : Cell → Cell) : (s.modCell c f).nv = s.nv := rfl
@[simp] theorem modCell_decls (c : Nat) (f : Cell → Cell) : (s.modCell c f).decls = s.decls := rfl
@[simp] theorem modCell_fails (c : Nat) (f : Cell → Cell) : (s.modCell c f).fails = s.fails := rfl
@[simp] theorem modCell_marks (c : Nat) (f : Cell → Cell) : (s.modCell c f).marks = s.marks := rfl
@[simp] theorem modCell_sramCe (c : Nat) (f : Cell → Cell) : (s.modCell c f).sramCe = s.sramCe := rfl
@[simp] theorem modCell_motion (c : Nat) (f : Cell → Cell) : (s.modCell c f).motion = s.motion := rfl
@[simp] theorem modCell_filter (c : Nat) (f : Cell → Cell) : (s.modCell c f).filter = s.filter := rfl
@[simp] theorem modCell_trig (c : Nat) (f : Cell → Cell) : (s.modCell c f).trig = s.trig := rfl
@[simp] theorem modCell_lanes (c : Nat) (f : Cell → Cell) : (s.modCell c f).lanes = s.lanes := rfl
@[simp] theorem modCell_quads (c : Nat) (f : Cell → Cell) : (s.modCell c f).quads = s.quads := rfl
@[simp] theorem modCell_bays (c : Nat) (f : Cell → Cell) : (s.modCell c f).bays = s.bays := rfl
@[simp] theorem modCell_cascade (c : Nat) (f : Cell → Cell) : (s.modCell c f).cascade = s.cascade := rfl
@[simp] theorem modCell_web (c : Nat) (f : Cell → Cell) : (s.modCell c f).web = s.web := rfl
@[simp] theorem modCell_reject (c : Nat) (f : Cell → Cell) : (s.modCell c f).reject = s.reject := rfl
@[simp] theorem modCell_bars (c : Nat) (f : Cell → Cell) : (s.modCell c f).bars = s.bars := rfl
@[simp] theorem modCell_easels (c : Nat) (f : Cell → Cell) : (s.modCell c f).easels = s.easels := rfl
@[simp] theorem modCell_segs (c : Nat) (f : Cell → Cell) : (s.modCell c f).segs = s.segs := rfl
@[simp] theorem modCell_notes (c : Nat) (f : Cell → Cell) : (s.modCell c f).notes = s.notes := rfl
@[simp] theorem modCell_views (c : Nat) (f : Cell → Cell) : (s.modCell c f).views = s.views := rfl
@[simp] theorem modCell_regs (c : Nat) (f : Cell → Cell) : (s.modCell c f).regs = s.regs := rfl
@[simp] theorem modCell_tiles (c : Nat) (f : Cell → Cell) : (s.modCell c f).tiles = s.tiles := rfl
@[simp] theorem modCell_tide (c : Nat) (f : Cell → Cell) : (s.modCell c f).tide = s.tide := rfl
@[simp] theorem modCell_tideNext (c : Nat) (f : Cell → Cell) : (s.modCell c f).tideNext = s.tideNext := rfl
@[simp] theorem modCell_tideWin (c : Nat) (f : Cell → Cell) : (s.modCell c f).tideWin = s.tideWin := rfl
@[simp] theorem modCell_asm (c : Nat) (f : Cell → Cell) : (s.modCell c f).asm = s.asm := rfl
@[simp] theorem modCell_bench (c : Nat) (f : Cell → Cell) : (s.modCell c f).bench = s.bench := rfl
@[simp] theorem modCell_cal (c : Nat) (f : Cell → Cell) : (s.modCell c f).cal = s.cal := rfl
@[simp] theorem modCell_trim (c : Nat) (f : Cell → Cell) : (s.modCell c f).trim = s.trim := rfl
@[simp] theorem modCell_wharf (c : Nat) (f : Cell → Cell) : (s.modCell c f).wharf = s.wharf := rfl
@[simp] theorem modCell_dramUnit (c : Nat) (f : Cell → Cell) : (s.modCell c f).dramUnit = s.dramUnit := rfl
@[simp] theorem modCell_power (c : Nat) (f : Cell → Cell) : (s.modCell c f).power = s.power := rfl
@[simp] theorem modCell_upkeep (c : Nat) (f : Cell → Cell) : (s.modCell c f).upkeep = s.upkeep := rfl
@[simp] theorem modCell_dram (c : Nat) (f : Cell → Cell) : (s.modCell c f).dram = s.dram := rfl

/-! ## modPulse -/

@[simp] theorem modPulse_get (n : Nat) (f : Pulse → Pulse) (o : Obj) (i : Nat) : (s.modPulse n f).get o i = s.get o i := rfl
@[simp] theorem modPulse_pending (n : Nat) (f : Pulse → Pulse) : (s.modPulse n f).pending = s.pending := rfl
@[simp] theorem modPulse_powered (n : Nat) (f : Pulse → Pulse) : (s.modPulse n f).powered = s.powered := rfl
@[simp] theorem modPulse_now (n : Nat) (f : Pulse → Pulse) : (s.modPulse n f).now = s.now := rfl
@[simp] theorem modPulse_dc (n : Nat) (f : Pulse → Pulse) : (s.modPulse n f).dc = s.dc := rfl
@[simp] theorem modPulse_dict (n : Nat) (f : Pulse → Pulse) : (s.modPulse n f).dict = s.dict := rfl
@[simp] theorem modPulse_blobs (n : Nat) (f : Pulse → Pulse) : (s.modPulse n f).blobs = s.blobs := rfl
@[simp] theorem modPulse_sat (n : Nat) (f : Pulse → Pulse) : (s.modPulse n f).sat = s.sat := rfl
@[simp] theorem modPulse_held (n : Nat) (f : Pulse → Pulse) : (s.modPulse n f).held = s.held := rfl
@[simp] theorem modPulse_written (n : Nat) (f : Pulse → Pulse) : (s.modPulse n f).written = s.written := rfl
@[simp] theorem modPulse_writtenBlobs (n : Nat) (f : Pulse → Pulse) : (s.modPulse n f).writtenBlobs = s.writtenBlobs := rfl
@[simp] theorem modPulse_abort (n : Nat) (f : Pulse → Pulse) : (s.modPulse n f).abort = s.abort := rfl
@[simp] theorem modPulse_free (n : Nat) (f : Pulse → Pulse) : (s.modPulse n f).free = s.free := rfl
@[simp] theorem modPulse_trace (n : Nat) (f : Pulse → Pulse) : (s.modPulse n f).trace = s.trace := rfl
@[simp] theorem modPulse_evt (n : Nat) (f : Pulse → Pulse) : (s.modPulse n f).evt = s.evt := rfl
@[simp] theorem modPulse_host (n : Nat) (f : Pulse → Pulse) : (s.modPulse n f).host = s.host := rfl
@[simp] theorem modPulse_ecat (n : Nat) (f : Pulse → Pulse) : (s.modPulse n f).ecat = s.ecat := rfl
@[simp] theorem modPulse_nv (n : Nat) (f : Pulse → Pulse) : (s.modPulse n f).nv = s.nv := rfl
@[simp] theorem modPulse_decls (n : Nat) (f : Pulse → Pulse) : (s.modPulse n f).decls = s.decls := rfl
@[simp] theorem modPulse_fails (n : Nat) (f : Pulse → Pulse) : (s.modPulse n f).fails = s.fails := rfl
@[simp] theorem modPulse_marks (n : Nat) (f : Pulse → Pulse) : (s.modPulse n f).marks = s.marks := rfl
@[simp] theorem modPulse_sramCe (n : Nat) (f : Pulse → Pulse) : (s.modPulse n f).sramCe = s.sramCe := rfl
@[simp] theorem modPulse_filter (n : Nat) (f : Pulse → Pulse) : (s.modPulse n f).filter = s.filter := rfl
@[simp] theorem modPulse_trig (n : Nat) (f : Pulse → Pulse) : (s.modPulse n f).trig = s.trig := rfl
@[simp] theorem modPulse_lanes (n : Nat) (f : Pulse → Pulse) : (s.modPulse n f).lanes = s.lanes := rfl
@[simp] theorem modPulse_quads (n : Nat) (f : Pulse → Pulse) : (s.modPulse n f).quads = s.quads := rfl
@[simp] theorem modPulse_bays (n : Nat) (f : Pulse → Pulse) : (s.modPulse n f).bays = s.bays := rfl
@[simp] theorem modPulse_cascade (n : Nat) (f : Pulse → Pulse) : (s.modPulse n f).cascade = s.cascade := rfl
@[simp] theorem modPulse_web (n : Nat) (f : Pulse → Pulse) : (s.modPulse n f).web = s.web := rfl
@[simp] theorem modPulse_reject (n : Nat) (f : Pulse → Pulse) : (s.modPulse n f).reject = s.reject := rfl
@[simp] theorem modPulse_bars (n : Nat) (f : Pulse → Pulse) : (s.modPulse n f).bars = s.bars := rfl
@[simp] theorem modPulse_easels (n : Nat) (f : Pulse → Pulse) : (s.modPulse n f).easels = s.easels := rfl
@[simp] theorem modPulse_segs (n : Nat) (f : Pulse → Pulse) : (s.modPulse n f).segs = s.segs := rfl
@[simp] theorem modPulse_notes (n : Nat) (f : Pulse → Pulse) : (s.modPulse n f).notes = s.notes := rfl
@[simp] theorem modPulse_views (n : Nat) (f : Pulse → Pulse) : (s.modPulse n f).views = s.views := rfl
@[simp] theorem modPulse_regs (n : Nat) (f : Pulse → Pulse) : (s.modPulse n f).regs = s.regs := rfl
@[simp] theorem modPulse_tiles (n : Nat) (f : Pulse → Pulse) : (s.modPulse n f).tiles = s.tiles := rfl
@[simp] theorem modPulse_tide (n : Nat) (f : Pulse → Pulse) : (s.modPulse n f).tide = s.tide := rfl
@[simp] theorem modPulse_tideNext (n : Nat) (f : Pulse → Pulse) : (s.modPulse n f).tideNext = s.tideNext := rfl
@[simp] theorem modPulse_tideWin (n : Nat) (f : Pulse → Pulse) : (s.modPulse n f).tideWin = s.tideWin := rfl
@[simp] theorem modPulse_asm (n : Nat) (f : Pulse → Pulse) : (s.modPulse n f).asm = s.asm := rfl
@[simp] theorem modPulse_bench (n : Nat) (f : Pulse → Pulse) : (s.modPulse n f).bench = s.bench := rfl
@[simp] theorem modPulse_cal (n : Nat) (f : Pulse → Pulse) : (s.modPulse n f).cal = s.cal := rfl
@[simp] theorem modPulse_trim (n : Nat) (f : Pulse → Pulse) : (s.modPulse n f).trim = s.trim := rfl
@[simp] theorem modPulse_wharf (n : Nat) (f : Pulse → Pulse) : (s.modPulse n f).wharf = s.wharf := rfl
@[simp] theorem modPulse_dramUnit (n : Nat) (f : Pulse → Pulse) : (s.modPulse n f).dramUnit = s.dramUnit := rfl
@[simp] theorem modPulse_power (n : Nat) (f : Pulse → Pulse) : (s.modPulse n f).power = s.power := rfl
@[simp] theorem modPulse_upkeep (n : Nat) (f : Pulse → Pulse) : (s.modPulse n f).upkeep = s.upkeep := rfl
@[simp] theorem modPulse_dram (n : Nat) (f : Pulse → Pulse) : (s.modPulse n f).dram = s.dram := rfl

/-! ## modMarker -/

@[simp] theorem modMarker_get (m : Nat) (f : Marker → Marker) (o : Obj) (i : Nat) : (s.modMarker m f).get o i = s.get o i := rfl
@[simp] theorem modMarker_pending (m : Nat) (f : Marker → Marker) : (s.modMarker m f).pending = s.pending := rfl
@[simp] theorem modMarker_powered (m : Nat) (f : Marker → Marker) : (s.modMarker m f).powered = s.powered := rfl
@[simp] theorem modMarker_now (m : Nat) (f : Marker → Marker) : (s.modMarker m f).now = s.now := rfl
@[simp] theorem modMarker_dc (m : Nat) (f : Marker → Marker) : (s.modMarker m f).dc = s.dc := rfl
@[simp] theorem modMarker_dict (m : Nat) (f : Marker → Marker) : (s.modMarker m f).dict = s.dict := rfl
@[simp] theorem modMarker_blobs (m : Nat) (f : Marker → Marker) : (s.modMarker m f).blobs = s.blobs := rfl
@[simp] theorem modMarker_sat (m : Nat) (f : Marker → Marker) : (s.modMarker m f).sat = s.sat := rfl
@[simp] theorem modMarker_held (m : Nat) (f : Marker → Marker) : (s.modMarker m f).held = s.held := rfl
@[simp] theorem modMarker_written (m : Nat) (f : Marker → Marker) : (s.modMarker m f).written = s.written := rfl
@[simp] theorem modMarker_writtenBlobs (m : Nat) (f : Marker → Marker) : (s.modMarker m f).writtenBlobs = s.writtenBlobs := rfl
@[simp] theorem modMarker_abort (m : Nat) (f : Marker → Marker) : (s.modMarker m f).abort = s.abort := rfl
@[simp] theorem modMarker_free (m : Nat) (f : Marker → Marker) : (s.modMarker m f).free = s.free := rfl
@[simp] theorem modMarker_trace (m : Nat) (f : Marker → Marker) : (s.modMarker m f).trace = s.trace := rfl
@[simp] theorem modMarker_evt (m : Nat) (f : Marker → Marker) : (s.modMarker m f).evt = s.evt := rfl
@[simp] theorem modMarker_host (m : Nat) (f : Marker → Marker) : (s.modMarker m f).host = s.host := rfl
@[simp] theorem modMarker_ecat (m : Nat) (f : Marker → Marker) : (s.modMarker m f).ecat = s.ecat := rfl
@[simp] theorem modMarker_nv (m : Nat) (f : Marker → Marker) : (s.modMarker m f).nv = s.nv := rfl
@[simp] theorem modMarker_decls (m : Nat) (f : Marker → Marker) : (s.modMarker m f).decls = s.decls := rfl
@[simp] theorem modMarker_fails (m : Nat) (f : Marker → Marker) : (s.modMarker m f).fails = s.fails := rfl
@[simp] theorem modMarker_marks (m : Nat) (f : Marker → Marker) : (s.modMarker m f).marks = s.marks := rfl
@[simp] theorem modMarker_sramCe (m : Nat) (f : Marker → Marker) : (s.modMarker m f).sramCe = s.sramCe := rfl
@[simp] theorem modMarker_filter (m : Nat) (f : Marker → Marker) : (s.modMarker m f).filter = s.filter := rfl
@[simp] theorem modMarker_trig (m : Nat) (f : Marker → Marker) : (s.modMarker m f).trig = s.trig := rfl
@[simp] theorem modMarker_lanes (m : Nat) (f : Marker → Marker) : (s.modMarker m f).lanes = s.lanes := rfl
@[simp] theorem modMarker_quads (m : Nat) (f : Marker → Marker) : (s.modMarker m f).quads = s.quads := rfl
@[simp] theorem modMarker_bays (m : Nat) (f : Marker → Marker) : (s.modMarker m f).bays = s.bays := rfl
@[simp] theorem modMarker_cascade (m : Nat) (f : Marker → Marker) : (s.modMarker m f).cascade = s.cascade := rfl
@[simp] theorem modMarker_web (m : Nat) (f : Marker → Marker) : (s.modMarker m f).web = s.web := rfl
@[simp] theorem modMarker_reject (m : Nat) (f : Marker → Marker) : (s.modMarker m f).reject = s.reject := rfl
@[simp] theorem modMarker_bars (m : Nat) (f : Marker → Marker) : (s.modMarker m f).bars = s.bars := rfl
@[simp] theorem modMarker_easels (m : Nat) (f : Marker → Marker) : (s.modMarker m f).easels = s.easels := rfl
@[simp] theorem modMarker_segs (m : Nat) (f : Marker → Marker) : (s.modMarker m f).segs = s.segs := rfl
@[simp] theorem modMarker_notes (m : Nat) (f : Marker → Marker) : (s.modMarker m f).notes = s.notes := rfl
@[simp] theorem modMarker_views (m : Nat) (f : Marker → Marker) : (s.modMarker m f).views = s.views := rfl
@[simp] theorem modMarker_regs (m : Nat) (f : Marker → Marker) : (s.modMarker m f).regs = s.regs := rfl
@[simp] theorem modMarker_tiles (m : Nat) (f : Marker → Marker) : (s.modMarker m f).tiles = s.tiles := rfl
@[simp] theorem modMarker_tide (m : Nat) (f : Marker → Marker) : (s.modMarker m f).tide = s.tide := rfl
@[simp] theorem modMarker_tideNext (m : Nat) (f : Marker → Marker) : (s.modMarker m f).tideNext = s.tideNext := rfl
@[simp] theorem modMarker_tideWin (m : Nat) (f : Marker → Marker) : (s.modMarker m f).tideWin = s.tideWin := rfl
@[simp] theorem modMarker_asm (m : Nat) (f : Marker → Marker) : (s.modMarker m f).asm = s.asm := rfl
@[simp] theorem modMarker_bench (m : Nat) (f : Marker → Marker) : (s.modMarker m f).bench = s.bench := rfl
@[simp] theorem modMarker_cal (m : Nat) (f : Marker → Marker) : (s.modMarker m f).cal = s.cal := rfl
@[simp] theorem modMarker_trim (m : Nat) (f : Marker → Marker) : (s.modMarker m f).trim = s.trim := rfl
@[simp] theorem modMarker_wharf (m : Nat) (f : Marker → Marker) : (s.modMarker m f).wharf = s.wharf := rfl
@[simp] theorem modMarker_dramUnit (m : Nat) (f : Marker → Marker) : (s.modMarker m f).dramUnit = s.dramUnit := rfl
@[simp] theorem modMarker_power (m : Nat) (f : Marker → Marker) : (s.modMarker m f).power = s.power := rfl
@[simp] theorem modMarker_upkeep (m : Nat) (f : Marker → Marker) : (s.modMarker m f).upkeep = s.upkeep := rfl
@[simp] theorem modMarker_dram (m : Nat) (f : Marker → Marker) : (s.modMarker m f).dram = s.dram := rfl

/-! ## modSinCos -/

@[simp] theorem modSinCos_get (k : Nat) (f : SinCos → SinCos) (o : Obj) (i : Nat) : (s.modSinCos k f).get o i = s.get o i := rfl
@[simp] theorem modSinCos_pending (k : Nat) (f : SinCos → SinCos) : (s.modSinCos k f).pending = s.pending := rfl
@[simp] theorem modSinCos_powered (k : Nat) (f : SinCos → SinCos) : (s.modSinCos k f).powered = s.powered := rfl
@[simp] theorem modSinCos_now (k : Nat) (f : SinCos → SinCos) : (s.modSinCos k f).now = s.now := rfl
@[simp] theorem modSinCos_dc (k : Nat) (f : SinCos → SinCos) : (s.modSinCos k f).dc = s.dc := rfl
@[simp] theorem modSinCos_dict (k : Nat) (f : SinCos → SinCos) : (s.modSinCos k f).dict = s.dict := rfl
@[simp] theorem modSinCos_blobs (k : Nat) (f : SinCos → SinCos) : (s.modSinCos k f).blobs = s.blobs := rfl
@[simp] theorem modSinCos_sat (k : Nat) (f : SinCos → SinCos) : (s.modSinCos k f).sat = s.sat := rfl
@[simp] theorem modSinCos_held (k : Nat) (f : SinCos → SinCos) : (s.modSinCos k f).held = s.held := rfl
@[simp] theorem modSinCos_written (k : Nat) (f : SinCos → SinCos) : (s.modSinCos k f).written = s.written := rfl
@[simp] theorem modSinCos_writtenBlobs (k : Nat) (f : SinCos → SinCos) : (s.modSinCos k f).writtenBlobs = s.writtenBlobs := rfl
@[simp] theorem modSinCos_abort (k : Nat) (f : SinCos → SinCos) : (s.modSinCos k f).abort = s.abort := rfl
@[simp] theorem modSinCos_free (k : Nat) (f : SinCos → SinCos) : (s.modSinCos k f).free = s.free := rfl
@[simp] theorem modSinCos_trace (k : Nat) (f : SinCos → SinCos) : (s.modSinCos k f).trace = s.trace := rfl
@[simp] theorem modSinCos_evt (k : Nat) (f : SinCos → SinCos) : (s.modSinCos k f).evt = s.evt := rfl
@[simp] theorem modSinCos_host (k : Nat) (f : SinCos → SinCos) : (s.modSinCos k f).host = s.host := rfl
@[simp] theorem modSinCos_ecat (k : Nat) (f : SinCos → SinCos) : (s.modSinCos k f).ecat = s.ecat := rfl
@[simp] theorem modSinCos_nv (k : Nat) (f : SinCos → SinCos) : (s.modSinCos k f).nv = s.nv := rfl
@[simp] theorem modSinCos_decls (k : Nat) (f : SinCos → SinCos) : (s.modSinCos k f).decls = s.decls := rfl
@[simp] theorem modSinCos_fails (k : Nat) (f : SinCos → SinCos) : (s.modSinCos k f).fails = s.fails := rfl
@[simp] theorem modSinCos_marks (k : Nat) (f : SinCos → SinCos) : (s.modSinCos k f).marks = s.marks := rfl
@[simp] theorem modSinCos_sramCe (k : Nat) (f : SinCos → SinCos) : (s.modSinCos k f).sramCe = s.sramCe := rfl
@[simp] theorem modSinCos_filter (k : Nat) (f : SinCos → SinCos) : (s.modSinCos k f).filter = s.filter := rfl
@[simp] theorem modSinCos_trig (k : Nat) (f : SinCos → SinCos) : (s.modSinCos k f).trig = s.trig := rfl
@[simp] theorem modSinCos_lanes (k : Nat) (f : SinCos → SinCos) : (s.modSinCos k f).lanes = s.lanes := rfl
@[simp] theorem modSinCos_quads (k : Nat) (f : SinCos → SinCos) : (s.modSinCos k f).quads = s.quads := rfl
@[simp] theorem modSinCos_bays (k : Nat) (f : SinCos → SinCos) : (s.modSinCos k f).bays = s.bays := rfl
@[simp] theorem modSinCos_cascade (k : Nat) (f : SinCos → SinCos) : (s.modSinCos k f).cascade = s.cascade := rfl
@[simp] theorem modSinCos_web (k : Nat) (f : SinCos → SinCos) : (s.modSinCos k f).web = s.web := rfl
@[simp] theorem modSinCos_reject (k : Nat) (f : SinCos → SinCos) : (s.modSinCos k f).reject = s.reject := rfl
@[simp] theorem modSinCos_bars (k : Nat) (f : SinCos → SinCos) : (s.modSinCos k f).bars = s.bars := rfl
@[simp] theorem modSinCos_easels (k : Nat) (f : SinCos → SinCos) : (s.modSinCos k f).easels = s.easels := rfl
@[simp] theorem modSinCos_segs (k : Nat) (f : SinCos → SinCos) : (s.modSinCos k f).segs = s.segs := rfl
@[simp] theorem modSinCos_notes (k : Nat) (f : SinCos → SinCos) : (s.modSinCos k f).notes = s.notes := rfl
@[simp] theorem modSinCos_views (k : Nat) (f : SinCos → SinCos) : (s.modSinCos k f).views = s.views := rfl
@[simp] theorem modSinCos_regs (k : Nat) (f : SinCos → SinCos) : (s.modSinCos k f).regs = s.regs := rfl
@[simp] theorem modSinCos_tiles (k : Nat) (f : SinCos → SinCos) : (s.modSinCos k f).tiles = s.tiles := rfl
@[simp] theorem modSinCos_tide (k : Nat) (f : SinCos → SinCos) : (s.modSinCos k f).tide = s.tide := rfl
@[simp] theorem modSinCos_tideNext (k : Nat) (f : SinCos → SinCos) : (s.modSinCos k f).tideNext = s.tideNext := rfl
@[simp] theorem modSinCos_tideWin (k : Nat) (f : SinCos → SinCos) : (s.modSinCos k f).tideWin = s.tideWin := rfl
@[simp] theorem modSinCos_asm (k : Nat) (f : SinCos → SinCos) : (s.modSinCos k f).asm = s.asm := rfl
@[simp] theorem modSinCos_bench (k : Nat) (f : SinCos → SinCos) : (s.modSinCos k f).bench = s.bench := rfl
@[simp] theorem modSinCos_cal (k : Nat) (f : SinCos → SinCos) : (s.modSinCos k f).cal = s.cal := rfl
@[simp] theorem modSinCos_trim (k : Nat) (f : SinCos → SinCos) : (s.modSinCos k f).trim = s.trim := rfl
@[simp] theorem modSinCos_wharf (k : Nat) (f : SinCos → SinCos) : (s.modSinCos k f).wharf = s.wharf := rfl
@[simp] theorem modSinCos_dramUnit (k : Nat) (f : SinCos → SinCos) : (s.modSinCos k f).dramUnit = s.dramUnit := rfl
@[simp] theorem modSinCos_power (k : Nat) (f : SinCos → SinCos) : (s.modSinCos k f).power = s.power := rfl
@[simp] theorem modSinCos_upkeep (k : Nat) (f : SinCos → SinCos) : (s.modSinCos k f).upkeep = s.upkeep := rfl
@[simp] theorem modSinCos_dram (k : Nat) (f : SinCos → SinCos) : (s.modSinCos k f).dram = s.dram := rfl

/-! ## modCyl -/

@[simp] theorem modCyl_get (f : Cyl → Cyl) (o : Obj) (i : Nat) : (s.modCyl f).get o i = s.get o i := rfl
@[simp] theorem modCyl_pending (f : Cyl → Cyl) : (s.modCyl f).pending = s.pending := rfl
@[simp] theorem modCyl_powered (f : Cyl → Cyl) : (s.modCyl f).powered = s.powered := rfl
@[simp] theorem modCyl_now (f : Cyl → Cyl) : (s.modCyl f).now = s.now := rfl
@[simp] theorem modCyl_dc (f : Cyl → Cyl) : (s.modCyl f).dc = s.dc := rfl
@[simp] theorem modCyl_dict (f : Cyl → Cyl) : (s.modCyl f).dict = s.dict := rfl
@[simp] theorem modCyl_blobs (f : Cyl → Cyl) : (s.modCyl f).blobs = s.blobs := rfl
@[simp] theorem modCyl_sat (f : Cyl → Cyl) : (s.modCyl f).sat = s.sat := rfl
@[simp] theorem modCyl_held (f : Cyl → Cyl) : (s.modCyl f).held = s.held := rfl
@[simp] theorem modCyl_written (f : Cyl → Cyl) : (s.modCyl f).written = s.written := rfl
@[simp] theorem modCyl_writtenBlobs (f : Cyl → Cyl) : (s.modCyl f).writtenBlobs = s.writtenBlobs := rfl
@[simp] theorem modCyl_abort (f : Cyl → Cyl) : (s.modCyl f).abort = s.abort := rfl
@[simp] theorem modCyl_free (f : Cyl → Cyl) : (s.modCyl f).free = s.free := rfl
@[simp] theorem modCyl_trace (f : Cyl → Cyl) : (s.modCyl f).trace = s.trace := rfl
@[simp] theorem modCyl_evt (f : Cyl → Cyl) : (s.modCyl f).evt = s.evt := rfl
@[simp] theorem modCyl_host (f : Cyl → Cyl) : (s.modCyl f).host = s.host := rfl
@[simp] theorem modCyl_ecat (f : Cyl → Cyl) : (s.modCyl f).ecat = s.ecat := rfl
@[simp] theorem modCyl_nv (f : Cyl → Cyl) : (s.modCyl f).nv = s.nv := rfl
@[simp] theorem modCyl_decls (f : Cyl → Cyl) : (s.modCyl f).decls = s.decls := rfl
@[simp] theorem modCyl_fails (f : Cyl → Cyl) : (s.modCyl f).fails = s.fails := rfl
@[simp] theorem modCyl_marks (f : Cyl → Cyl) : (s.modCyl f).marks = s.marks := rfl
@[simp] theorem modCyl_sramCe (f : Cyl → Cyl) : (s.modCyl f).sramCe = s.sramCe := rfl
@[simp] theorem modCyl_filter (f : Cyl → Cyl) : (s.modCyl f).filter = s.filter := rfl
@[simp] theorem modCyl_trig (f : Cyl → Cyl) : (s.modCyl f).trig = s.trig := rfl
@[simp] theorem modCyl_lanes (f : Cyl → Cyl) : (s.modCyl f).lanes = s.lanes := rfl
@[simp] theorem modCyl_quads (f : Cyl → Cyl) : (s.modCyl f).quads = s.quads := rfl
@[simp] theorem modCyl_bays (f : Cyl → Cyl) : (s.modCyl f).bays = s.bays := rfl
@[simp] theorem modCyl_cascade (f : Cyl → Cyl) : (s.modCyl f).cascade = s.cascade := rfl
@[simp] theorem modCyl_web (f : Cyl → Cyl) : (s.modCyl f).web = s.web := rfl
@[simp] theorem modCyl_reject (f : Cyl → Cyl) : (s.modCyl f).reject = s.reject := rfl
@[simp] theorem modCyl_bars (f : Cyl → Cyl) : (s.modCyl f).bars = s.bars := rfl
@[simp] theorem modCyl_easels (f : Cyl → Cyl) : (s.modCyl f).easels = s.easels := rfl
@[simp] theorem modCyl_segs (f : Cyl → Cyl) : (s.modCyl f).segs = s.segs := rfl
@[simp] theorem modCyl_notes (f : Cyl → Cyl) : (s.modCyl f).notes = s.notes := rfl
@[simp] theorem modCyl_views (f : Cyl → Cyl) : (s.modCyl f).views = s.views := rfl
@[simp] theorem modCyl_regs (f : Cyl → Cyl) : (s.modCyl f).regs = s.regs := rfl
@[simp] theorem modCyl_tiles (f : Cyl → Cyl) : (s.modCyl f).tiles = s.tiles := rfl
@[simp] theorem modCyl_tide (f : Cyl → Cyl) : (s.modCyl f).tide = s.tide := rfl
@[simp] theorem modCyl_tideNext (f : Cyl → Cyl) : (s.modCyl f).tideNext = s.tideNext := rfl
@[simp] theorem modCyl_tideWin (f : Cyl → Cyl) : (s.modCyl f).tideWin = s.tideWin := rfl
@[simp] theorem modCyl_asm (f : Cyl → Cyl) : (s.modCyl f).asm = s.asm := rfl
@[simp] theorem modCyl_bench (f : Cyl → Cyl) : (s.modCyl f).bench = s.bench := rfl
@[simp] theorem modCyl_cal (f : Cyl → Cyl) : (s.modCyl f).cal = s.cal := rfl
@[simp] theorem modCyl_trim (f : Cyl → Cyl) : (s.modCyl f).trim = s.trim := rfl
@[simp] theorem modCyl_wharf (f : Cyl → Cyl) : (s.modCyl f).wharf = s.wharf := rfl
@[simp] theorem modCyl_dramUnit (f : Cyl → Cyl) : (s.modCyl f).dramUnit = s.dramUnit := rfl
@[simp] theorem modCyl_power (f : Cyl → Cyl) : (s.modCyl f).power = s.power := rfl
@[simp] theorem modCyl_upkeep (f : Cyl → Cyl) : (s.modCyl f).upkeep = s.upkeep := rfl
@[simp] theorem modCyl_dram (f : Cyl → Cyl) : (s.modCyl f).dram = s.dram := rfl

/-! ## modGrp -/

@[simp] theorem modGrp_get (g : Nat) (f : FGroup → FGroup) (o : Obj) (i : Nat) : (s.modGrp g f).get o i = s.get o i := rfl
@[simp] theorem modGrp_pending (g : Nat) (f : FGroup → FGroup) : (s.modGrp g f).pending = s.pending := rfl
@[simp] theorem modGrp_powered (g : Nat) (f : FGroup → FGroup) : (s.modGrp g f).powered = s.powered := rfl
@[simp] theorem modGrp_now (g : Nat) (f : FGroup → FGroup) : (s.modGrp g f).now = s.now := rfl
@[simp] theorem modGrp_dc (g : Nat) (f : FGroup → FGroup) : (s.modGrp g f).dc = s.dc := rfl
@[simp] theorem modGrp_dict (g : Nat) (f : FGroup → FGroup) : (s.modGrp g f).dict = s.dict := rfl
@[simp] theorem modGrp_blobs (g : Nat) (f : FGroup → FGroup) : (s.modGrp g f).blobs = s.blobs := rfl
@[simp] theorem modGrp_sat (g : Nat) (f : FGroup → FGroup) : (s.modGrp g f).sat = s.sat := rfl
@[simp] theorem modGrp_held (g : Nat) (f : FGroup → FGroup) : (s.modGrp g f).held = s.held := rfl
@[simp] theorem modGrp_written (g : Nat) (f : FGroup → FGroup) : (s.modGrp g f).written = s.written := rfl
@[simp] theorem modGrp_writtenBlobs (g : Nat) (f : FGroup → FGroup) : (s.modGrp g f).writtenBlobs = s.writtenBlobs := rfl
@[simp] theorem modGrp_abort (g : Nat) (f : FGroup → FGroup) : (s.modGrp g f).abort = s.abort := rfl
@[simp] theorem modGrp_free (g : Nat) (f : FGroup → FGroup) : (s.modGrp g f).free = s.free := rfl
@[simp] theorem modGrp_trace (g : Nat) (f : FGroup → FGroup) : (s.modGrp g f).trace = s.trace := rfl
@[simp] theorem modGrp_evt (g : Nat) (f : FGroup → FGroup) : (s.modGrp g f).evt = s.evt := rfl
@[simp] theorem modGrp_host (g : Nat) (f : FGroup → FGroup) : (s.modGrp g f).host = s.host := rfl
@[simp] theorem modGrp_ecat (g : Nat) (f : FGroup → FGroup) : (s.modGrp g f).ecat = s.ecat := rfl
@[simp] theorem modGrp_nv (g : Nat) (f : FGroup → FGroup) : (s.modGrp g f).nv = s.nv := rfl
@[simp] theorem modGrp_decls (g : Nat) (f : FGroup → FGroup) : (s.modGrp g f).decls = s.decls := rfl
@[simp] theorem modGrp_fails (g : Nat) (f : FGroup → FGroup) : (s.modGrp g f).fails = s.fails := rfl
@[simp] theorem modGrp_marks (g : Nat) (f : FGroup → FGroup) : (s.modGrp g f).marks = s.marks := rfl
@[simp] theorem modGrp_sramCe (g : Nat) (f : FGroup → FGroup) : (s.modGrp g f).sramCe = s.sramCe := rfl
@[simp] theorem modGrp_motion (g : Nat) (f : FGroup → FGroup) : (s.modGrp g f).motion = s.motion := rfl
@[simp] theorem modGrp_trig (g : Nat) (f : FGroup → FGroup) : (s.modGrp g f).trig = s.trig := rfl
@[simp] theorem modGrp_lanes (g : Nat) (f : FGroup → FGroup) : (s.modGrp g f).lanes = s.lanes := rfl
@[simp] theorem modGrp_quads (g : Nat) (f : FGroup → FGroup) : (s.modGrp g f).quads = s.quads := rfl
@[simp] theorem modGrp_bays (g : Nat) (f : FGroup → FGroup) : (s.modGrp g f).bays = s.bays := rfl
@[simp] theorem modGrp_cascade (g : Nat) (f : FGroup → FGroup) : (s.modGrp g f).cascade = s.cascade := rfl
@[simp] theorem modGrp_web (g : Nat) (f : FGroup → FGroup) : (s.modGrp g f).web = s.web := rfl
@[simp] theorem modGrp_reject (g : Nat) (f : FGroup → FGroup) : (s.modGrp g f).reject = s.reject := rfl
@[simp] theorem modGrp_bars (g : Nat) (f : FGroup → FGroup) : (s.modGrp g f).bars = s.bars := rfl
@[simp] theorem modGrp_easels (g : Nat) (f : FGroup → FGroup) : (s.modGrp g f).easels = s.easels := rfl
@[simp] theorem modGrp_segs (g : Nat) (f : FGroup → FGroup) : (s.modGrp g f).segs = s.segs := rfl
@[simp] theorem modGrp_notes (g : Nat) (f : FGroup → FGroup) : (s.modGrp g f).notes = s.notes := rfl
@[simp] theorem modGrp_views (g : Nat) (f : FGroup → FGroup) : (s.modGrp g f).views = s.views := rfl
@[simp] theorem modGrp_regs (g : Nat) (f : FGroup → FGroup) : (s.modGrp g f).regs = s.regs := rfl
@[simp] theorem modGrp_tiles (g : Nat) (f : FGroup → FGroup) : (s.modGrp g f).tiles = s.tiles := rfl
@[simp] theorem modGrp_tide (g : Nat) (f : FGroup → FGroup) : (s.modGrp g f).tide = s.tide := rfl
@[simp] theorem modGrp_tideNext (g : Nat) (f : FGroup → FGroup) : (s.modGrp g f).tideNext = s.tideNext := rfl
@[simp] theorem modGrp_tideWin (g : Nat) (f : FGroup → FGroup) : (s.modGrp g f).tideWin = s.tideWin := rfl
@[simp] theorem modGrp_asm (g : Nat) (f : FGroup → FGroup) : (s.modGrp g f).asm = s.asm := rfl
@[simp] theorem modGrp_bench (g : Nat) (f : FGroup → FGroup) : (s.modGrp g f).bench = s.bench := rfl
@[simp] theorem modGrp_cal (g : Nat) (f : FGroup → FGroup) : (s.modGrp g f).cal = s.cal := rfl
@[simp] theorem modGrp_trim (g : Nat) (f : FGroup → FGroup) : (s.modGrp g f).trim = s.trim := rfl
@[simp] theorem modGrp_wharf (g : Nat) (f : FGroup → FGroup) : (s.modGrp g f).wharf = s.wharf := rfl
@[simp] theorem modGrp_dramUnit (g : Nat) (f : FGroup → FGroup) : (s.modGrp g f).dramUnit = s.dramUnit := rfl
@[simp] theorem modGrp_power (g : Nat) (f : FGroup → FGroup) : (s.modGrp g f).power = s.power := rfl
@[simp] theorem modGrp_upkeep (g : Nat) (f : FGroup → FGroup) : (s.modGrp g f).upkeep = s.upkeep := rfl
@[simp] theorem modGrp_dram (g : Nat) (f : FGroup → FGroup) : (s.modGrp g f).dram = s.dram := rfl

/-! ## modDet -/

@[simp] theorem modDet_get (d : Nat) (f : Det → Det) (o : Obj) (i : Nat) : (s.modDet d f).get o i = s.get o i := rfl
@[simp] theorem modDet_pending (d : Nat) (f : Det → Det) : (s.modDet d f).pending = s.pending := rfl
@[simp] theorem modDet_powered (d : Nat) (f : Det → Det) : (s.modDet d f).powered = s.powered := rfl
@[simp] theorem modDet_now (d : Nat) (f : Det → Det) : (s.modDet d f).now = s.now := rfl
@[simp] theorem modDet_dc (d : Nat) (f : Det → Det) : (s.modDet d f).dc = s.dc := rfl
@[simp] theorem modDet_dict (d : Nat) (f : Det → Det) : (s.modDet d f).dict = s.dict := rfl
@[simp] theorem modDet_blobs (d : Nat) (f : Det → Det) : (s.modDet d f).blobs = s.blobs := rfl
@[simp] theorem modDet_sat (d : Nat) (f : Det → Det) : (s.modDet d f).sat = s.sat := rfl
@[simp] theorem modDet_held (d : Nat) (f : Det → Det) : (s.modDet d f).held = s.held := rfl
@[simp] theorem modDet_written (d : Nat) (f : Det → Det) : (s.modDet d f).written = s.written := rfl
@[simp] theorem modDet_writtenBlobs (d : Nat) (f : Det → Det) : (s.modDet d f).writtenBlobs = s.writtenBlobs := rfl
@[simp] theorem modDet_abort (d : Nat) (f : Det → Det) : (s.modDet d f).abort = s.abort := rfl
@[simp] theorem modDet_free (d : Nat) (f : Det → Det) : (s.modDet d f).free = s.free := rfl
@[simp] theorem modDet_trace (d : Nat) (f : Det → Det) : (s.modDet d f).trace = s.trace := rfl
@[simp] theorem modDet_evt (d : Nat) (f : Det → Det) : (s.modDet d f).evt = s.evt := rfl
@[simp] theorem modDet_host (d : Nat) (f : Det → Det) : (s.modDet d f).host = s.host := rfl
@[simp] theorem modDet_ecat (d : Nat) (f : Det → Det) : (s.modDet d f).ecat = s.ecat := rfl
@[simp] theorem modDet_nv (d : Nat) (f : Det → Det) : (s.modDet d f).nv = s.nv := rfl
@[simp] theorem modDet_decls (d : Nat) (f : Det → Det) : (s.modDet d f).decls = s.decls := rfl
@[simp] theorem modDet_fails (d : Nat) (f : Det → Det) : (s.modDet d f).fails = s.fails := rfl
@[simp] theorem modDet_marks (d : Nat) (f : Det → Det) : (s.modDet d f).marks = s.marks := rfl
@[simp] theorem modDet_sramCe (d : Nat) (f : Det → Det) : (s.modDet d f).sramCe = s.sramCe := rfl
@[simp] theorem modDet_motion (d : Nat) (f : Det → Det) : (s.modDet d f).motion = s.motion := rfl
@[simp] theorem modDet_trig (d : Nat) (f : Det → Det) : (s.modDet d f).trig = s.trig := rfl
@[simp] theorem modDet_lanes (d : Nat) (f : Det → Det) : (s.modDet d f).lanes = s.lanes := rfl
@[simp] theorem modDet_quads (d : Nat) (f : Det → Det) : (s.modDet d f).quads = s.quads := rfl
@[simp] theorem modDet_bays (d : Nat) (f : Det → Det) : (s.modDet d f).bays = s.bays := rfl
@[simp] theorem modDet_cascade (d : Nat) (f : Det → Det) : (s.modDet d f).cascade = s.cascade := rfl
@[simp] theorem modDet_web (d : Nat) (f : Det → Det) : (s.modDet d f).web = s.web := rfl
@[simp] theorem modDet_reject (d : Nat) (f : Det → Det) : (s.modDet d f).reject = s.reject := rfl
@[simp] theorem modDet_bars (d : Nat) (f : Det → Det) : (s.modDet d f).bars = s.bars := rfl
@[simp] theorem modDet_easels (d : Nat) (f : Det → Det) : (s.modDet d f).easels = s.easels := rfl
@[simp] theorem modDet_segs (d : Nat) (f : Det → Det) : (s.modDet d f).segs = s.segs := rfl
@[simp] theorem modDet_notes (d : Nat) (f : Det → Det) : (s.modDet d f).notes = s.notes := rfl
@[simp] theorem modDet_views (d : Nat) (f : Det → Det) : (s.modDet d f).views = s.views := rfl
@[simp] theorem modDet_regs (d : Nat) (f : Det → Det) : (s.modDet d f).regs = s.regs := rfl
@[simp] theorem modDet_tiles (d : Nat) (f : Det → Det) : (s.modDet d f).tiles = s.tiles := rfl
@[simp] theorem modDet_tide (d : Nat) (f : Det → Det) : (s.modDet d f).tide = s.tide := rfl
@[simp] theorem modDet_tideNext (d : Nat) (f : Det → Det) : (s.modDet d f).tideNext = s.tideNext := rfl
@[simp] theorem modDet_tideWin (d : Nat) (f : Det → Det) : (s.modDet d f).tideWin = s.tideWin := rfl
@[simp] theorem modDet_asm (d : Nat) (f : Det → Det) : (s.modDet d f).asm = s.asm := rfl
@[simp] theorem modDet_bench (d : Nat) (f : Det → Det) : (s.modDet d f).bench = s.bench := rfl
@[simp] theorem modDet_cal (d : Nat) (f : Det → Det) : (s.modDet d f).cal = s.cal := rfl
@[simp] theorem modDet_trim (d : Nat) (f : Det → Det) : (s.modDet d f).trim = s.trim := rfl
@[simp] theorem modDet_wharf (d : Nat) (f : Det → Det) : (s.modDet d f).wharf = s.wharf := rfl
@[simp] theorem modDet_dramUnit (d : Nat) (f : Det → Det) : (s.modDet d f).dramUnit = s.dramUnit := rfl
@[simp] theorem modDet_power (d : Nat) (f : Det → Det) : (s.modDet d f).power = s.power := rfl
@[simp] theorem modDet_upkeep (d : Nat) (f : Det → Det) : (s.modDet d f).upkeep = s.upkeep := rfl
@[simp] theorem modDet_dram (d : Nat) (f : Det → Det) : (s.modDet d f).dram = s.dram := rfl

end Sys2Proof.Machine
end

