-- ==== Sys2Proof/Tests/Slice0.lean ====
section
/-! SUPPORT. Tests/Slice0.lean: states and operands that meet the hypotheses of the statements, clause by clause, ill-formed
commands, and small tests against the spec's own numbers. -/
namespace Sys2Proof.Tests
open Sys2Proof Sys2Proof.Machine Sys2Proof.Machine.Reg

-- One theorem at a time: closed evaluations that wait for one another each hold a thread's stack.
set_option Elab.async false

/-! ## Small states -/

abbrev R : State := State.reset
def barImage : List Nat :=
  let h := [75, 76, 66, 49] ++ List.replicate 56 0
  h ++ leBytes 4 (crc32c h) ++ List.replicate 192 0
def M (m : Nat) : State := State.reset.set MODE 0 m
def bayOn (m : Nat) (b : Bay) : State := { (M m).set BAY_LINK_TYPE 11 1 with bays := List.replicate 12 b }
def laneIn (q l st : Nat) (x : Lane) : State :=
  { ((M 1).set BAY_LINK_TYPE q 2 |>.set CASCADE_ENABLE 0 1).set LANE_STATE (4 * q + l) st with lanes := List.replicate 52 x }
def quadIn (m : Nat) (x : Quad) : State := { (M m).set CASCADE_ENABLE 0 1 with quads := List.replicate 13 x }
def carry (s : State) : State := (List.range 4).foldl (fun t j => t.set LANE_STATE (48 + j) 8) s
def linkUp (role : Nat) (m : Nat) : State :=
  { carry (((M m).set CASCADE_ENABLE 0 1).set CASCADE_ROLE 0 role) with cascade := { exchanged := true, down := false, rxSeq := some 1 } }
def exch : State := (List.range 4).foldl (fun t j => t.set LANE_STATE (48 + j) 7) (linkUp 0 1)
def ctl (x : List Nat) : List Nat := x ++ List.replicate (24 - x.length) 0
def cam4 : CxpCamera := { maxRate := 6, connections := 4, highUplink := true, connIds := [some 0, some 1, some 2, some 3] }
def pkt : CamPacket := { lane := 3, slice := 3, epoch := 0, crcOk := true, lineReadable := true, streamId := 0, format := 1, tag := 9, firstPixel := 0, samples := [1, 2, 3, 4], last := true }
def camUp (b : Bay) : State := { (((((M 3).set BAY_LINK_TYPE 11 1).set BAY_STATE 11 2).set LANE_STATE 47 8).set INTAKE_TYPE 44 1).set INTAKE_WIDTH 11 4 with bays := List.replicate 12 b }
def easelOn (k : Easel) : State :=
  { (List.range 6).foldl (fun t i => t.set EASEL_STATE i 1) ((M 3).set BAY_LINK_TYPE 11 1) with easels := List.replicate 6 k, bays := List.replicate 12 { ferry := [List.replicate 24 0] } }
def mapBytes (n : Nat) : List Byte := [0, 0, 0, 0] ++ leBytes 4 0 ++ leBytes 4 n
def oneCam (m : Nat) : State :=
  { (((M m).set BAY_LINK_TYPE 0 1).set VIEW_WIDTH 0 64) with easels := List.replicate 6 { ctxs := [{ banks := [(0, { resample := mapBytes 64 })] }, {}] } }
def pk (slot : Nat) (secs : List (Nat × Nat × List Byte)) : List Byte :=
  let base := 64 + 24 * secs.length
  let dir := (secs.foldl (fun (a : List Byte × Nat) e => (a.1 ++ leBytes 2 e.1 ++ leBytes 2 e.2.1 ++ leBytes 4 (crc32c e.2.2) ++ leBytes 8 a.2 ++ leBytes 8 e.2.2.length, a.2 + e.2.2.length)) ([], base)).1
  let body := secs.flatMap (fun e => e.2.2)
  let h := [0x4D, 0x4A, 0x50, 0x4B] ++ leBytes 2 1 ++ leBytes 2 64 ++ leBytes 8 (base + body.length) ++ leBytes 2 slot ++ leBytes 2 secs.length ++ List.replicate 40 0
  h ++ leBytes 4 (crc32c h) ++ dir ++ body
def jobMin (slot : Nat) : List Byte := pk slot [(1, 0, []), (2, 0, [0, 0, 1] ++ List.replicate 13 0), (3, 0, tideBlank), (5, 0, List.replicate 16 0)]
def out1 : TaskOut := { frags := [{ strip := 0, view := 0, slice := 0, part := 0, x0 := 0, x1 := 3, r0 := 0, r1 := 3 }] }
def cellOn : Cell := { timing := true, out := true }
def strip0 : CStrip := { num := 0 }
def strip0c : CStrip := { num := 0, complete := true }
def out9 : OutLine := { num := 9, at_ := 0 }
def meas1 : TrimMeas := { dark := [], reference := [1, 1, 1, 1] }
def meas0 : TrimMeas := { dark := [], reference := [] }
def sg : Seg := { bay := 0, line := 10, planes := [List.replicate 64 7] }
def withSeg (g : Seg) (x : List CStrip) : State := { oneCam 3 with segs := List.replicate 12 [g], views := List.replicate 4 { strips := x } }
def casc : State := { carry ((((((oneCam 3).set CASCADE_ENABLE 0 1).set CASCADE_ROLE 0 0).set VIEW_CASCADE 0 1).set VIEW_CASCADE_OVERLAP 0 8)) with cascade := { exchanged := true, down := false, rxSeq := some 7 } }
def rp : Rep := { epoch := 0, number := 1, first := 0, phase := some 0, start := 0 }
def fab (x : CStrip) : State := { oneCam 3 with views := List.replicate 4 { strips := [x] } }
def relx : CStrip := { num := 0, released := true, complete := true }
def tk : Task := { view := 0, slice := 0, part := 0, strip := 0, r0 := 0, r1 := 255, out := some out1 }
def tiled (t : Task) : State := { M 3 with tiles := List.replicate 96 { queue := [t] } }
def overdue (n : Nat) : State := { M 3 with tiles := List.replicate 96 { queue := [tk], misses := n } }
def fragP : List Byte := leBytes 8 100 ++ leBytes 4 2 ++ [0, 0, 0, 0] ++ leBytes 4 5 ++ leBytes 4 6 ++ leBytes 4 4 ++ List.replicate 36 0
def mk (k : Marker) : State := { M 3 with motion := { R.motion with markers := List.replicate 16 k } }
def chanSet (k v : Nat) : State := (M 1).set CHAN_CFG k v
def chn : State := ((((M 3).set WH_ROW_BYTES 31 64).set WH_ROWS 31 1).set WH_SRC_ADDR 31 (2^34 + 2^33)).set WH_DST_ADDR 31 0x2E00000000
def jb : Job := { op := 1, src := ⟨0, 0x2E00000000, 64, 64, 1, 0⟩, dst := ⟨0, 0x2E00001000, 64, 64, 1, 0⟩, dstLimit := 4096, srcLimit := 0, level := 0, filter := 0, log2 := 16, status := 1 }
def busy (j : Job) : State := { chn with wharf := { jobs := [(31, j)] } }
def mb : State := { (M 3).set RING_ENABLE 4 1 with host := { R.host with mboxTail := 1 } }
def fwImg : List Byte := let b := [1, 2, 3]; [0x4B, 0x46, 0x57, 0x31] ++ leBytes 4 0 ++ leBytes 4 0x4D120000 ++ leBytes 8 67 ++ leBytes 4 (crc32c b) ++ List.replicate 40 0 ++ b
def mb1 : State := mb.set MODE 0 1
def cr : CamReq := { fn := 0, bay := 11, addr := 0, write := false, data := [], len := 4, sentAt := some 0 }
def cams : State := { (mb.set BAY_LINK_TYPE 11 1).set BAY_STATE 11 2 with host := { mb.host with pt := [cr] } }
def smOk : SmConfig := { sm2Length := divRoundUp (R.rxBits R.ecat.rxCount) 8, sm2Ok := true, sm3Length := divRoundUp (R.txBits R.ecat.txCount) 8, sm3Ok := true, dcActivation := 1, cycleNs := 1000000 }
def al (x : Nat) : State := (M 1).set ECAT_STATE 0 x
def libr (m : Nat) : State := { (M m).set PRELOAD_SLOT 0 9 with nv := { R.nv with pkgs := [(9, jobMin 9)] } }
def ldg (p : List Byte) : State := { (libr 2).set SWITCH_STATE 0 1 with web := { pendingJob := some p, pendingSlot := 9 } }
def ldd (m st : Nat) (p : List Byte) : State := { (libr m).set SWITCH_STATE 0 st with web := { pendingJob := some p, pendingSlot := 9 } }
def tideV0 : List Byte := leBytes 4 1 ++ List.replicate 12 0 ++ [0, 0, 0, 1, 0, 1] ++ List.replicate 58 0 ++ List.replicate 30 0 ++ [0x80, 0]
def jobV0 : List Byte := pk 9 [(1, 0, []), (2, 0, [0, 0, 1] ++ List.replicate 13 0), (3, 0, tideV0), (5, 0, List.replicate 16 0), (6, 0, List.replicate 64 0)]
def kept1 : State := { oneCam 3 with views := List.replicate 4 { strips := [strip0c] } }
def snp : State := { kept1.set SNAP_STATE 0 1 with upkeep := { snap := some (0, 63, 0, 1, 0) } }
def jbCopy : Job := { jb with op := 0 }
def jbSmall : Job := { jb with dstLimit := 1 }
def cam3 : CxpCamera := { cam4 with connections := 3 }
def tkDone : Task := { tk with counted := true }
def sgLast : Seg := { sg with bay := 11, view := 3 }
def smBad3 : SmConfig := { smOk with sm3Length := 0 }
def smDc2 : SmConfig := { smOk with dcActivation := 2 }
def moving : State := { (M 1).set OBS_STATE 0 1 with web := { job := some [] } }
def pktOld : CamPacket := { pkt with epoch := 1 }
def pktId4 : CamPacket := { pkt with streamId := 4 }
def pktCrc : CamPacket := { pkt with crcOk := false }
def pktId3 : CamPacket := { pkt with streamId := 3 }
def looping : State := { linkUp 0 1 with quads := List.replicate 13 { loopFar := true, loop := some (4, 0) } }
def exchFw : State := { exch with dict := exch.dict.put (FW_REVISION.key 0) 0 }

def laneAll (q st : Nat) (x : Lane) : State :=
  (List.range 4).foldl (fun t j => t.set LANE_STATE (4 * q + j) st) (laneIn q 0 st x)
def locked (seq at_ : Nat) : Lane := { relock := true, blockLock := true, alignSeq := some seq, alignAt := some at_ }
def trigUp (e last : Nat) : State :=
  { (R.set BAY_LINK_TYPE 11 1).set TRIG_PATH 11 1 with
    trig := { R.trig with running := true, lastIssue := some last, pend := [⟨7, 0, 458752⟩], highUntil := List.replicate 12 (some e) } }
def discovered (n : Nat) : State :=
  (List.range 4).foldl (fun t j => t.set LANE_STATE (44 + j) 2)
    ((bayOn 0 { step := 2, rate := 6, discAt := some 0 }).set BAY_CONNECTIONS 11 n)
def camOld : CxpCamera := { cam4 with revision := 0x10000 }
def islandUp (i v : Nat) (s : State) : State := s.set ISLAND_STATE i v
def pktEvent : CamPacket := { pkt with kind := .event }
def pktOther : CamPacket := { pkt with kind := .other }
def pktBad : CamPacket := { pkt with crcOk := false, streamId := 4 }
def pktSlice : CamPacket := { pkt with slice := 4 }
def mono : PixType := { planes := 1, bits := 8, stored := 8 }
def badTp : List Nat := List.replicate 24 1
def tp : List Nat := List.replicate 16 0 ++ leBytes 4 (crc32c (List.replicate 16 0))
def jobT : List Byte := pk 0 [(secMark, 0, [2, 1, 0, 0] ++ leBytes 4 1 ++ leBytes 2 5 ++ leBytes 2 0 ++ leBytes 2 0 ++ [255, 0] ++ [0, 255])]
def tmpl : List Byte := [2, 1, 0, 0] ++ leBytes 4 1 ++ leBytes 2 5 ++ leBytes 2 0 ++ leBytes 2 0 ++ [255, 0] ++ [0, 255]
def noteA : Note := { first := 1, last := 2, cause := 1 }
def rpOld : Rep := { rp with last := some 5 }
def rpGone : Rep := { rpOld with phase := none }
def rpLong : Rep := { rp with last := some 300 }
def marked (phase : Nat) (r : Rep) (px : List Byte) : State :=
  let u : State := { ((oneCam 3).set REG_METHOD 0 1).set REG_PHASE_STATE 0 phase with
    web := { job := some jobT, open_ := some r, sched := { scan := 5 } }, views := List.replicate 4 { strips := [strip0c] } }
  u.dramWrite (u.pixelAddr 0 0 5 0) px
def rowOf (r : Rep) (v : Nat) : State :=
  { (M 3).set VIEW_WIDTH v 64 with web := { open_ := some r }, regs := List.replicate 4 { fields := [{ rep := r.key }] } }
def field9 : RField := { rep := rpLong.key }
def tileRunning (t : Task) (deadline : Nat) : State :=
  { (M 3).set TILE_DEADLINE_NS 0 deadline with tiles := List.replicate 96 { queue := [t] } }
def trimAt (line ok : Nat) : State :=
  { ((M 3).set LINE_NUMBER 0 line).set BAR_CAM_MASK 0 2048 with
    trim := { R.trim with run := some (11, 1) }, bars := List.replicate 12 { measSum := 1, measN := 1 },
    nv := { R.nv with cal := { R.nv.cal with cams := List.replicate 12 { phiCal := (ok : Rat), rCal := [1, 1, 1, 1] } } } }
def camLow : CxpCamera := { cam4 with connIds := [some 0, some 1, some 2, some 4] }
def camNone : CxpCamera := { cam4 with connIds := [some 0, none, some 2, some 3] }
def strip0f : CStrip := { num := 0, complete := true, forced := true }
def strip1 : CStrip := { num := 1 }
def strip1c : CStrip := { num := 1, complete := true }
def strip1a : CStrip := { num := 1, acc := List.replicate 12 1 }
def cam64 : Cam := { bay := 0, j0 := 0, n := 64 }
def rpLate : Rep := { rp with phase := some 100 }
def tkSent : Task := { tk with sent := 1 }
def jbDec : Job := { jb with op := 2 }

/-- The conditions of `State.Sound`, as a check. -/
def soundCheck (s : State) : Bool :=
  s.dict.sorted && s.dict.all (fun e => decide (e.2 < 2 ^ 64)) && Memory.wf dramBlank s.dram && Memory.wf none s.host.hostMem &&
    decide (s.trace.queue.length ≤ 64) && decide (s.trace.ring.length ≤ 262144) && decide (s.ecat.emcyQ.length ≤ 16)

theorem sound_checked (s : State) (h : soundCheck s = true) : s.Sound := by
  simp only [soundCheck, Bool.and_eq_true, decide_eq_true_eq, List.all_eq_true] at h
  exact ⟨⟨h.1.1.1.1.1.1, h.1.1.1.1.1.2⟩, h.1.1.1.1.2, h.1.1.1.2, h.1.1.2, h.1.2, h.2⟩

/-- `Out`, as a check. -/
def outCheck (os : List Obj) (k : Key) : Bool := os.all (fun o => (List.range o.count).all (fun i => o.key i != k))

theorem out_checked (os : List Obj) (k : Key) (h : outCheck os k = true) : Out os k := by
  intro o ho i hi
  simp only [outCheck, List.all_eq_true, List.mem_range, bne_iff_ne] at h
  exact h o ho i hi

/-- What a read gave, where it gave something; the abort code, where it did not. -/
def given (e : Except Nat (List Byte)) : List Byte := match e with
  | .ok b => b
  | .error _ => [999]
def refusedBy {A : Type} (e : Except Nat A) : Nat := match e with
  | .ok _ => 0
  | .error c => c

/-- The object and instance a place is, as numbers. -/
def placeNo : Place → Nat
  | .noIndex => 1
  | .noSub => 2
  | .highest _ => 3
  | .obj o i => 16 * o.base + i

/-! ## Witnesses: the hypotheses of each statement hold together, clause by clause -/

def st1 : State := R
def st2 : State := R.set WEB_COUNT 0 (2^64-1)
def st3 : State := R.set WEB_INVERT 0 1
def st4 : State := { R.set ENC_FAULT 0 1 with motion := { R.motion with wires := 1 } }
def st5 : State := R.set ENC_ILLEGAL 0 0xFFFFFFFF
def st6 : State := R.set ENC_FAULT 0 32
def st7 : State := R.set WEB_TYPE 0 1
def st8 : State := R.set WEB_TYPE 0 2
def st9 : State := { R.set WEB_TYPE 0 3 with motion := { R.motion with polledAt := some 0 } }
def st10 : State := { R.set WEB_TYPE 0 2 with motion := { R.motion with polling := true, lastAbs := some 100 } }
def st11 : State := { R.set WEB_TYPE 0 2 with motion := { R.motion with polling := true } }
def st12 : State := { R.set ENC_Z_GATE 0 1 with motion := { R.motion with ab := [2, 0, 0] } }
def st13 : State := R.set OBS_STATE 0 1
def st14 : State := { R.set OBS_STATE 0 2 with motion := { R.motion with v := 5000/3, a := -7/2 } }
def st15 : State := { ((R.set CYL_TYPE 0 1).set CYL_TEETH 0 60).set OBS_STATE 0 1 with
  motion := { R.motion with cyl := { lastEdge := some 0, skip := 0 } } }
def st16 : State := { ((R.set CYL_TYPE 0 1).set CYL_TEETH 0 60).set OBS_STATE 0 1 |>.set WEB_COUNT 0 150 with
  motion := { R.motion with cyl := { lastEdge := some 0, skip := 0, period := some 100 } } }
def st17 : State := { ((R.set CYL_TYPE 0 1).set CYL_TEETH 0 60).set OBS_STATE 0 1 |>.set WEB_COUNT 0 151 with
  motion := { R.motion with cyl := { lastEdge := some 0, skip := 0, period := some 100, seenRef := true, edges := 59 } } }
def st18 : State := { ((R.set CYL_TYPE 0 1).set CYL_TEETH 0 60).set OBS_STATE 0 1 |>.set WEB_COUNT 0 151 with
  motion := { R.motion with cyl := { lastEdge := some 0, skip := 0, period := some 100 } } }
def st19 : State := { ((R.set CYL_TYPE 0 1).set CYL_TEETH 0 60).set OBS_STATE 0 1 |>.set WEB_COUNT 0 151 with
  motion := { R.motion with cyl := { lastEdge := some 0, skip := 0, period := some 100, seenRef := true, edges := 58 } } }
def st20 : State := R.set AUX_TYPE 1 1
def st21 : State := { R with motion := { R.motion with pulses := [{ backlog := [true, false] }, {}] } }
def st22 : State := R.set PULSE_Q 1 7
def st23 : State := { R with trig := { R.trig with running := true, pend := [⟨7, 0, 458752⟩] } }
def st24 : State := { R.set LINE_NUMBER 0 255 with
  trig := { R.trig with running := true, lastIssue := some 0, pend := [⟨7, 0, 458752⟩, ⟨9, 0, 589824⟩] } }
def st25 : State := { R with trig := { R.trig with running := true, lastIssue := some 10, pend := [⟨7, 0, 458752⟩] } }
def st26 : State := { R.set MODE 0 4 with trig := { R.trig with calNext := some 5 } }
def st27 : State := { R with trig := { R.trig with highUntil := List.replicate 12 (some 5) } }
def st28 : State := { R with trig := { R.trig with highUntil := List.replicate 12 (some 6) } }
def st29 : State := { R.set CASCADE_ENABLE 0 1 with cascade := { exchanged := true, down := false } }
def st30 : State := { carry ((R.set CASCADE_ENABLE 0 1).set CASCADE_ROLE 0 1) with
  cascade := { exchanged := true, down := false, rxSeq := some 3 } }
def st31 : State := { carry ((R.set CASCADE_ENABLE 0 1).set CASCADE_ROLE 0 1) with
  cascade := { exchanged := true, down := false, rxSeq := some 65535 } }
def st32 : State := R.set MODE 0 5
def st33 : State := (R.set MODE 0 2).set MODE_PENDING 0 3
def st34 : State := (R.set MODE 0 1).set MODE_PENDING 0 2
def st35 : State := R.set MODE 0 3
def st36 : State := (R.set MODE 0 5).set MODE_PENDING 0 1 |>.set HOLD_CAUSE 0 1
def st37 : State := (R.set MODE 0 5).set MODE_PENDING 0 1 |>.set HOLD_CAUSE 0 2
def st38 : State := moving
def st39 : State := R.set MODE 0 1
def st40 : State := R.set BAR_STATE 11 2
def st41 : State := R.set BAR_STATE 11 1
def st42 : State := { (R.set BAR_STATE 11 2).set MODE 0 3 with bars := List.replicate 12 { onSince := true } }
def st43 : State := R.set BAR_STATE 11 3
def st44 : State := R.set CAL_STATE 0 1
def st45 : State := R.set CAL_STATE 0 2
def st46 : State := { (R.set CAL_STATE 0 2).set MODE 0 4 with cal := { todo := [0, 1], lines := 1000000 } }
def st47 : State := { (R.set CAL_STATE 0 2).set MODE 0 4 with cal := { todo := [0], lines := 1000000 } }
def st48 : State := (R.set CAL_STATE 0 3).set MODE 0 4
def st49 : State := R.set MODE 0 2
def st50 : State := { ((M 3).set BAY_LINK_TYPE 11 1).setInt CAM_TEMP_MC 11 50000 with
  trim := { R.trim with written := List.replicate 12 (some 0) } }
def st51 : State := (M 1).set BAY_LINK_TYPE 11 1
def st52 : State := (M 1).set BAY_LINK_TYPE 0 2
def st53 : State := M 2
def st54 : State := { ((M 0).set BAY_LINK_TYPE 11 1).set LANE_STATE 47 1 with bays := List.replicate 12 { step := 1 } }
def st55 : State := bayOn 0 { step := 2 }
def st56 : State := (bayOn 0 { step := 2 }).set BAY_CONNECTIONS 11 4
def st57 : State := (bayOn 0 { step := 2, rate := 3 }).set BAY_CXP_MIN_SPEED 11 4
def st58 : State := bayOn 0 { step := 3, rate := 255, targets := [0, 1] }
def st59 : State := bayOn 0 { step := 3, rate := 1 }
def st60 : State := bayOn 0 { step := 3, rate := 0 }
def st61 : State := (bayOn 1 {}).set BAY_LINK_TYPE 11 1
def st62 : State := laneIn 12 3 1 {}
def st63 : State := laneIn 11 3 1 {}
def st64 : State := laneIn 12 3 4 {}
def st65 : State := laneIn 12 3 5 {}
def st66 : State := laneIn 12 3 7 {}
def st67 : State := laneIn 12 3 8 {}
def st68 : State := laneIn 11 3 8 {}
def st69 : State := laneIn 12 3 4 { relock := true }
def st70 : State := laneIn 11 3 4 { relock := true }
def st71 : State := laneIn 12 3 4 { validRun := 63 }
def st72 : State := laneIn 12 3 5 { alignSeq := some 4 }
def st73 : State := (quadIn 0 {}).set SLICE_STATE 64 2
def st74 : State := quadIn 1 {}
def st75 : State := (quadIn 0 { test := some (4, 0) }).set SLICE_STATE 64 2
def st76 : State := (quadIn 1 {}).set LB_MODE 12 2
def st77 : State := ((quadIn 1 {}).set LB_MODE 12 2).set LB_SLICE 12 3
def st78 : State := ((quadIn 3 {}).set LB_MODE 12 2).set LB_SLICE 12 3
def st79 : State := quadIn 1 { loop := some (4, 0) }
def st80 : State := quadIn 1 { check := some (4, 0) }
def st81 : State := exchFw
def st82 : State := exch
def st83 : State := linkUp 1 1
def st84 : State := linkUp 0 1
def st85 : State := linkUp 1 2
def st86 : State := looping
def st87 : State := camUp {}
def st88 : State := camUp { await := [out9] }
def st89 : State := M 5
def st90 : State := M 4
def st91 : State := camUp { pairLine := some 9, tagOf := some (9, 9) }
def st92 : State := camUp { pairLine := some 9, tagOf := some (9, 9), await := [out9] }
def st93 : State := { (M 3) with
  bars := List.replicate 12 { volt10mV := 48000, ratedCont := 60000, ratedPulse := 60000 } } |>.set BAR_STATE 0 1 |>.set EXP_CURRENT_MA 0 60000 |>.set EXP_CURRENT_MA 1 60000 |>.set BAR_STATE 1 1
def st94 : State := (easelOn {}).set EASEL_STATE 5 2
def st95 : State := easelOn { running := some (0, { num := 1 }) }
def st96 : State := easelOn {}
def st97 : State := (easelOn {}).set EASEL_CTX_PENDING 11 1
def st98 : State := ((easelOn {}).set BAY_LINK_TYPE 11 1).setBlob EASEL_LIN_LUT 11 [1]
def st99 : State := (easelOn {}).set EASEL_BYPASS 11 255
def st100 : State := (easelOn {}).set EASEL_PAL_PENDING 11 1
def st101 : State := easelOn { tokens := [5], misses := 1 }
def st102 : State := easelOn { tokens := [5], misses := 2 }
def st103 : State := (easelOn { tokens := [5], misses := 2 }).set EASEL_PHYS_STATE 6 3
def st104 : State := (M 1).set EASEL_PHYS_STATE 6 2
def st105 : State := M 1
def st106 : State := { (M 1).set EASEL_PHYS_STATE 6 2 with bench := { easelTest := some (6, 0) } }
def st107 : State := { M 1 with bench := { easelCheck := some (6, 0) } }
def st108 : State := withSeg sgLast []
def st109 : State := withSeg sg [strip0c]
def st110 : State := withSeg sg [strip0]
def st111 : State := { M 3 with notes := List.replicate 12 [{ first := 1, last := 2, cause := 1 }] }
def st112 : State := { withSeg sg [strip0] with notes := List.replicate 12 [{ first := 1, last := 2, cause := 1 }] }
def st113 : State := withSeg sg [{ num := 0, forceFrom := some 0 }]
def st114 : State := { M 3 with views := List.replicate 4 { holding := true } }
def st115 : State := casc
def st116 : State := M 3
def st117 : State := { (M 2).set VIEW_WIDTH 0 64 |>.set REG_LEARN_STATE 0 1 with regs := R.regs }
def st118 : State := fab relx
def st119 : State := { fab relx with web := { open_ := some rp } }
def st120 : State := tiled tk
def st121 : State := tiled tkDone
def st122 : State := (M 3).set TILE_PHYS_STATE 103 3
def st123 : State := (M 3).set TILE_PHYS_STATE 103 2
def st124 : State := (M 3).set TIDE_PENDING 0 1
def st125 : State := (M 3).set SWITCH_STATE 0 3
def st126 : State := (M 3).setBlob TIDE_IMAGE 0 [1, 2, 3]
def st127 : State := (overdue 1).set TILE_DEADLINE_NS 0 1000
def st128 : State := (overdue 2).set TILE_DEADLINE_NS 0 1000
def st129 : State := (List.range 8).foldl (fun t i => t.set TILE_PHYS_STATE (96 + i) 3) ((overdue 2).set TILE_DEADLINE_NS 0 1000)
def st130 : State := (M 1).set TILE_PHYS_STATE 103 2
def st131 : State := { M 1 with bench := { tileTest := some (103, 0) } }
def st132 : State := { M 1 with bench := { tileCheck := some (103, 0) } }
def st133 : State := { (M 3).set VIEW_WIDTH 0 64 with tide := [(R.get TIDE_GENERATION, tideV0)] }
def st134 : State := { casc with asm := { expired := [(0, 0, 1000, 0, 1000)] } }
def st135 : State := { M 3 with reject := { queue := [⟨1, 1, 0, 0⟩] } }
def st136 : State := mk { on := true }
def st137 : State := mk { on := true, endAt := some 100 }
def st138 : State := { M 1 with filter := { R.filter with groups := List.replicate 4 { nextAt := 100 } } }
def st139 : State := (M 1).set FC_FADE_STATE 3 1
def st140 : State := { M 1 with filter := { R.filter with groups := List.replicate 4 { standby := some [1] } } }
def st141 : State := { M 1 with filter := { R.filter with groups := List.replicate 4 { settle := 0 } } }
def st142 : State := { chanSet 63 (2 ^ 31 + 1) with evt := { fired := [(0, 1)] } }
def st143 : State := { chanSet 63 (2 ^ 31 + 1 + 256 * 0xFF) with evt := { fired := [(0, 1)] } }
def st144 : State := { M 1 with evt := { cells := List.replicate 32 cellOn } }
def st145 : State := { M 1 with evt := { chans := List.replicate 64 { held := true } } }
def st146 : State := chanSet 63 (2 ^ 31 + 1)
def st147 : State := (M 1).set TIMER_STATE 15 1
def st148 : State := { (M 1).set TIMER_STATE 15 1 with evt := { taskPend := [32] } }
def st149 : State := (M 3).set MARK_ENABLE 15 1
def st150 : State := (M 5).set MARK_ENABLE 15 1
def st151 : State := (M 3).set MARK_ENABLE 15 0
def st152 : State := (M 3).set TIMER_STATE 15 1
def st153 : State := (M 3).set DET_MODE 3 1
def st154 : State := M 0
def st155 : State := M 3 |>.set TRACE_FILTER 0 0xFFFFFFFF
def st156 : State := chanSet 0 (2 ^ 31 + 1)
def st157 : State := (List.range 4).foldl (fun t k => t.set CHAN_CFG k (2 ^ 31 + 256 + k + 2)) (M 1)
def st158 : State := { M 1 with motion := { R.motion with inputs := 1 } }
def st159 : State := (M 3).set DRAM_PKG_STATE 12 2
def st160 : State := (M 3).set DRAM_PKG_STATE 12 3
def st161 : State := { M 3 with dramUnit := { moving := some (0, 12) } }
def st162 : State := { M 5 with dramUnit := { moving := some (0, 12) } }
def st163 : State := (M 1).set DRAM_PKG_STATE 12 2
def st164 : State := { M 1 with bench := { dramTest := some (12, 0) } }
def st165 : State := { M 1 with bench := { dramCheck := some (12, 0) } }
def st166 : State := busy jb
def st167 : State := { M 5 with dram := [] }
def st168 : State := chn.set WH_DST_ADDR 31 5
def st169 : State := chn
def st170 : State := ((chn.set WH_OP 31 1).set WH_DST_LIMIT 31 64)
def st171 : State := (M 3).set WH_ALL_STOPPED 0 1
def st172 : State := busy jbCopy
def st173 : State := busy jbSmall
def st174 : State := M 3 |>.set RING_FUNCTION 3 1
def st175 : State := mb
def st176 : State := mb.set HL_APERTURE_BASE 1 197568495616
def st177 : State := mb.set HL_APERTURE_BASE 1 (206158430208 - 2)
def st178 : State := mb.set HL_APERTURE_BASE 1 (206158430208 - 1)
def st179 : State := mb.set HL_APERTURE_BASE 1 (197568495616 - 1)
def st180 : State := { M 3 with host := { R.host with rings := List.replicate 5 { causeAt := some 3 } } }
def st181 : State := mb1
def st182 : State := (mb.set BAY_LINK_TYPE 11 1).set BAY_STATE 11 2
def st183 : State := cams
def st184 : State := { M 3 with host := { R.host with fns := [{ up := true }, { up := true }] } }
def st185 : State := (M 3).set HL_LINK_MODE_ACTIVE 0 1
def st186 : State := (M 2).set ECAT_STATE 0 2
def st187 : State := (M 2).set ECAT_STATE 0 8
def st188 : State := al 4
def st189 : State := al 1
def st190 : State := al 8
def st191 : State := al 3
def st192 : State := al 2
def st193 : State := (al 2).set SM2_SYNC_MODE 0 2
def st194 : State := { (al 8).setBlob RXPDO_MAP 0 [] with
  ecat := { R.ecat with rxPrev := some (List.replicate (divRoundUp (R.rxBits R.ecat.rxCount) 8) 0) } }
def st195 : State := { al 8 with
  ecat := { R.ecat with rxPrev := some (List.replicate (divRoundUp (R.rxBits R.ecat.rxCount) 8) 0) } }
def st196 : State := (al 8).set ECAT_SYNC_MODE 0 2
def st197 : State := (M 1).set DC_LOCKED 0 1
def st198 : State := (M 3).set ECAT_STATE 0 3
def st199 : State := (M 1).set FW_STANDBY_STATE 0 1
def st200 : State := (M 2).set FW_STANDBY_STATE 0 1
def st201 : State := (M 3).set SWITCH_STATE 0 1
def st202 : State := (M 3).set SWITCH_STATE 0 4
def st203 : State := (M 1).set SWITCH_STATE 0 5
def st204 : State := libr 2
def st205 : State := ldg (pk 9 [(7, 0, [1])])
def st206 : State := ldg (jobMin 9)
def st207 : State := ldd 3 2 jobV0
def st208 : State := (ldd 2 2 (jobMin 9)).set VIEW_WIDTH 3 64
def st209 : State := (ldd 2 2 (jobMin 9))
def st210 : State := (ldd 3 2 (jobMin 9))
def st211 : State := (ldd 3 2 (jobMin 9)).set SWITCH_MODE 0 1
def st212 : State := (ldd 3 2 (jobMin 9)).set SWITCH_COUNT 0 100
def st213 : State := (ldd 1 2 (jobMin 9))
def st214 : State := (ldd 3 3 (jobMin 9))
def st215 : State := (M 3).set LIGHT_POWER_W 0 30000 |>.set PSU_STAGE_STATE 0 3 |>.set PSU_STAGE_STATE 1 3 |>.set PSU_STAGE_STATE 2 3
def st216 : State := (M 3).set PSU_STAGE_STATE 2 2
def st217 : State := (M 3).set MAINS_STATE 0 2
def st218 : State := { (M 3).set MAINS_STATE 0 2 with power := { lossAt := some 0, goodRun := 19 } }
def st219 : State := { (M 3).set MAINS_STATE 0 2 with power := { lossAt := some 0 } }
def st220 : State := { (M 3) with power := { hotAt := some 3 } }
def st221 : State := { (M 3) with power := { hotAt := some 0 } }
def st222 : State := { (M 3) with power := { wdtAt := some 3 } }
def st223 : State := (M 3).set IO_SUPPLY_LOW 0 1
def st224 : State := { M 0 with power := { rise := [50] } }
def st225 : State := { M 0 with power := { rise := [0, 3] } }
def st226 : State := (M 1).set ISLAND_STATE 73 3
def st227 : State := { (M 1).set ISLAND_STATE 73 3 with power := { lockRetry := [73] } }
def st228 : State := { (M 1).set ISLAND_STATE 0 3 with power := { lockRetry := [0] } }
def st229 : State := (M 1).set ISLAND_STATE 73 1
def st230 : State := (M 5).set ISLAND_STATE 73 1
def st231 : State := { M 1 with power := { moor := [73] } }
def st232 : State := (M 0).set MODE_PENDING 0 1
def st233 : State := ((M 0).set MODE_PENDING 0 1).set BAY_LINK_TYPE 11 1 |>.set BAY_STATE 11 3
def st234 : State := { M 0 with powered := false, power := { tripped := true, offAt := some 5 } }
def st235 : State := { M 0 with powered := false }
def st236 : State := (M 1).set PD_STATE 25 1
def st238 : State := (M 1).set FAN_STATE 5 1
def st239 : State := (M 3).set SNAP_STATE 0 1
def st240 : State := kept1.set PF_STATE 0 2
def st241 : State := kept1
def st242 : State := snp.set PF_STATE 0 2
def st243 : State := snp
def st244 : State := (M 3).set SEAM_LATE_DISCARD 3 4294967290
def st245 : State := (M 3).set SEAM_LATE_DISCARD 3 4294967295
def st246 : State := trigUp 3150 600
def st247 : State := trigUp 3001 601
def st248 : State := discovered 0
def st249 : State := discovered 2
def st250 : State := bayOn 1 { powered := [3] }
def st251 : State := laneAll 12 6 (locked 4 7)
def st252 : State := laneAll 11 6 { relock := true, blockLock := true }
def st253 : State := laneAll 12 6 { relock := true, blockLock := true }
def st254 : State := { (((M 0).set BAY_LINK_TYPE 11 1).set LANE_STATE 47 1) with bays := List.replicate 12 { step := 1 }, lanes := List.replicate 52 {} }
def st255 : State := laneIn 11 3 4 { validRun := 63 }
def st256 : State := { (((M 1).set BAY_LINK_TYPE 11 1).set LANE_STATE 47 8) with lanes := List.replicate 52 {} }
def st257 : State := islandUp 50 2 ((quadIn 1 {}).set SLICE_STATE 64 2)
def st258 : State := islandUp 50 4 ((quadIn 1 {}).set SLICE_STATE 64 2)
def st259 : State := (((quadIn 5 {}).set LB_MODE 12 2).set LB_SLICE 12 4).set HOLD_FROM_DORMANT 0 1
def st260 : State := ((quadIn 5 {}).set LB_MODE 12 2).set LB_SLICE 12 4
def st261 : State := islandUp 32 2 ((M 1).set EASEL_PHYS_STATE 6 2)
def st262 : State := islandUp 25 2 ((M 1).set TILE_PHYS_STATE 103 2)
def st263 : State := marked 0 rpOld [0, 255]
def st264 : State := marked 1 rp [0, 255]
def st265 : State := marked 1 rpOld [0, 255]
def st266 : State := marked 1 rp [255, 0]
def st267 : State := marked 1 rpGone [0, 255]
def st268 : State := rowOf rpLong 3
def st269 : State := tileRunning tk 1000
def st270 : State := (tiled tk).set TILE_EPOCH 5 1
def st271 : State := (((M 0).set MODE_PENDING 0 1).set CASCADE_ENABLE 0 1).set BAY_STATE 12 3
def st272 : State := (((M 0).set MODE_PENDING 0 1).set CASCADE_ENABLE 0 1).set BAY_STATE 12 2
def st273 : State := { M 3 with power := { halted := true } }
def st274 : State := withSeg sg [{ num := 0, forceFrom := some 0 }, { num := 1, forceFrom := some 1 }]
def st275 : State := { marked 0 rp [0, 255] with web := { open_ := some rp } }
def st276 : State := (M 0).set TILE_PHYS_STATE 103 2
def st277 : State := { R.set OBS_STATE 0 1 with motion := { R.motion with obsAt := some 0 } }
def st278 : State := { (((R.set CAL_STATE 0 3).set MODE 0 4).setBlob EASEL_LIN_LUT 0 [1]) with cal := { R.cal with cands := [(0, { stages := 1 })] } }
def st279 : State := trimAt 321 1
def st280 : State := ((trimAt 321 1).set EASEL_CTX_PENDING 10 1).set EASEL_CTX_PENDING 11 1
def st281 : State := trimAt 320 0
def st282 : State := { (M 1).set EASEL_PHYS_STATE 6 3 with bench := { easelCheck := some (6, 0) } }
def st283 : State := withSeg sg [strip0f]
def st284 : State := (withSeg sg [strip0]).set MODE 0 5
def st285 : State := { M 5 with notes := List.replicate 12 [noteA] }
def st286 : State := casc.set MODE 0 5
def st287 : State := { casc with views := List.replicate 4 { strips := [strip1c] } }
def st288 : State := { casc with views := List.replicate 4 { strips := [strip1] } }
def st289 : State := { casc with views := List.replicate 4 { strips := [strip1a] } }
def st290 : State := marked 0 rpOld [255, 0]
def st291 : State := marked 0 rp [255, 0]
def st292 : State := marked 1 rpLate [0, 255]
def st293 : State := { marked 1 rp [0, 255] with views := List.replicate 4 { strips := [strip0] } }
def st294 : State := tiled tkSent
def st295 : State := { casc with asm := { waiting := [{ view := 0, x0 := 0, x1 := 1000, y0 := 0, y1 := 1000 }] } }
def st296 : State := (M 1).set DET_FREQ_MHZ 3 40000000
def st297 : State := { chanSet 63 (2 ^ 31 + 1) with evt := { chans := List.replicate 64 { reg := true } } }
def st298 : State := { (chanSet 63 (2 ^ 31 + 1 + 256 * 0x83)).set CELL_CFG 0 32768 with evt := { chans := List.replicate 64 { held := true } } }
def st299 : State := { M 3 with evt := { taskPend := [16, 116, 120, 123, 126, 127] } }
def st300 : State := busy jbDec

theorem witness_EncoderCountsWeb_1 :
    ((st1.powered = true) ∧ (st1.get WEB_TYPE = 0) ∧ (st1.get ENC_FILTER_NS ≤ 100) ∧ (abStep (st1.motion.ab.getD 0 0) (quadPos true false) = AbStep.count true) ∧ (st1.wireFault 0 = false)) ∧
    ((st2.powered = true) ∧ (st2.get WEB_TYPE = 0) ∧ (st2.get ENC_FILTER_NS ≤ 100) ∧ (abStep (st2.motion.ab.getD 0 0) (quadPos true false) = AbStep.count true) ∧ (st2.wireFault 0 = false)) ∧
    ((st3.powered = true) ∧ (st3.get WEB_TYPE = 0) ∧ (st3.get ENC_FILTER_NS ≤ 100) ∧ (abStep (st3.motion.ab.getD 0 0) (quadPos false true) = AbStep.count false) ∧ (st3.wireFault 0 = false)) ∧
    ((st4.powered = true) ∧ (st4.get WEB_TYPE = 0) ∧ (st4.get ENC_FILTER_NS ≤ 100) ∧ (abStep (st4.motion.ab.getD 0 0) (quadPos true false) = AbStep.count true) ∧ (st4.wireFault 0 = true)) ∧
    ((st1.powered = true) ∧ (st1.get WEB_TYPE = 0) ∧ (st1.get ENC_FILTER_NS ≤ 100) ∧ (abStep (st1.motion.ab.getD 0 0) (quadPos true true) = AbStep.illegal)) ∧
    ((st5.powered = true) ∧ (st5.get WEB_TYPE = 0) ∧ (st5.get ENC_FILTER_NS ≤ 100) ∧ (abStep (st5.motion.ab.getD 0 0) (quadPos true true) = AbStep.illegal)) := ⟨by decide +kernel, by decide +kernel, by decide +kernel, by decide +kernel, by decide +kernel, by decide +kernel⟩
theorem witness_EncoderCountsWeb_2 :
    ((st1.powered = true) ∧ (2 < 9) ∧ (1000 < 1001)) ∧
    ((st1.powered = true) ∧ (8 < 9) ∧ (1000 < 1001)) ∧
    ((st1.powered = true) ∧ (2 < 9) ∧ (1000 ≤ 1000)) ∧
    ((st6.powered = true)) := ⟨by decide +kernel, by decide +kernel, by decide +kernel, by decide +kernel⟩
theorem witness_QuadrantEdgesCount :
    ((st7.powered = true) ∧ (soundCheck st7 = true) ∧ (1 < 4) ∧ (st7.get WEB_TYPE = 1) ∧ (st7.wireFault 0 = false) ∧ (abStep (st7.sinCos 0).quadrant 1 = AbStep.count true) ∧ (4400 < 4401)) ∧
    ((st7.powered = true) ∧ (soundCheck st7 = true) ∧ (3 < 4) ∧ (st7.get WEB_TYPE = 1) ∧ (st7.wireFault 0 = false) ∧ (abStep (st7.sinCos 0).quadrant 3 = AbStep.count false) ∧ (4400 < 4401)) := ⟨by decide +kernel, by decide +kernel⟩
theorem witness_SerialPollsAndIndex_1 :
    ((st8.powered = true) ∧ (soundCheck st8 = true) ∧ (st8.get WEB_TYPE = 2 ∨ st8.get WEB_TYPE = 3) ∧ (Option.all (fun t => decide (t + st8.get ENC_SERIAL_PERIOD_NS ≤ st8.now + 5)) st8.motion.polledAt = true)) ∧
    ((st9.powered = true) ∧ (soundCheck st9 = true) ∧ (st9.get WEB_TYPE = 2 ∨ st9.get WEB_TYPE = 3) ∧ (Option.all (fun t => decide (t + st9.get ENC_SERIAL_PERIOD_NS ≤ st9.now + 1000000)) st9.motion.polledAt = true)) ∧
    ((st10.powered = true) ∧ (soundCheck st10 = true) ∧ (st10.motion.polling = true) ∧ (st10.get WEB_TYPE = 2) ∧ (st10.wireFault 0 = false)) ∧
    ((st11.powered = true) ∧ (soundCheck st11 = true) ∧ (st11.motion.polling = true) ∧ (st11.get WEB_TYPE = 2) ∧ (st11.wireFault 0 = false)) ∧
    ((st11.powered = true) ∧ (soundCheck st11 = true) ∧ (st11.motion.polling = true)) ∧
    ((st12.powered = true) ∧ (soundCheck st12 = true) ∧ (st12.get ENC_FILTER_NS ≤ 100) ∧ (st12.get ENC_Z_GATE = 1 → st12.bothHigh = true)) := ⟨by decide +kernel, by decide +kernel, by decide +kernel, by decide +kernel, by decide +kernel, by decide +kernel⟩
theorem witness_SerialPollsAndIndex_2 :
    ((st1.powered = true) ∧ (soundCheck st1 = true) ∧ (st1.get ENC_FILTER_NS ≤ 100) ∧ (st1.get ENC_Z_GATE = 1 → st1.bothHigh = true)) ∧
    ((st1.powered = true) ∧ (soundCheck st1 = true) ∧ (0 < st1.get ENC_FILTER_NS)) := ⟨by decide +kernel, by decide +kernel⟩
theorem witness_ObserverAndCylinder_1 :
    ((st13.powered = true) ∧ (soundCheck st13 = true) ∧ (st13.get OBS_STATE = 1 ∨ st13.get OBS_STATE = 2) ∧ (Option.all (fun a => decide (a + 100 ≤ st13.now + 5)) st13.motion.obsAt = true)) ∧
    ((st14.powered = true) ∧ (soundCheck st14 = true) ∧ (st14.get OBS_STATE = 1 ∨ st14.get OBS_STATE = 2) ∧ (Option.all (fun a => decide (a + 100 ≤ st14.now + 5)) st14.motion.obsAt = true)) ∧
    ((st1.powered = true) ∧ (soundCheck st1 = true) ∧ (st1.get OBS_STATE ≠ 1) ∧ (st1.get OBS_STATE ≠ 2)) ∧
    ((st277.powered = true) ∧ (soundCheck st277 = true) ∧ (st277.motion.obsAt = some 0) ∧ (st277.now + 99 < 0 + 100)) ∧
    ((st13.powered = true) ∧ (soundCheck st13 = true) ∧ (st13.get OBS_STATE ≠ 0) ∧ (st13.motion.lastCount + st13.get OBS_STANDSTILL_MS * 1000000 ≤ st13.now + 10000000000)) ∧
    ((st15.powered = true) ∧ (soundCheck st15 = true) ∧ (st15.get CYL_TYPE ≠ 0) ∧ (st15.get CYL_TEETH ≠ 0) ∧ (st15.get OBS_STATE = 1) ∧ (st15.toothBroken = false) ∧ (st15.motion.cyl.lastEdge = some 0) ∧ (0 = (countDiff (st15.get WEB_COUNT) 0).toNat) ∧ (0 < 2 ^ 32) ∧ (st15.motion.cyl.skip = 0) ∧ (st15.motion.cyl.afterRef = none) ∧ (st15.motion.cyl.period = none)) := ⟨by decide +kernel, by decide +kernel, by decide +kernel, by decide +kernel, by decide +kernel, by decide +kernel⟩
theorem witness_ObserverAndCylinder_2 :
    ((st16.powered = true) ∧ (soundCheck st16 = true) ∧ (st16.get CYL_TYPE ≠ 0) ∧ (st16.get CYL_TEETH ≠ 0) ∧ (st16.get OBS_STATE = 1) ∧ (st16.toothBroken = false) ∧ (st16.motion.cyl.lastEdge = some 0) ∧ (150 = (countDiff (st16.get WEB_COUNT) 0).toNat) ∧ (150 < 2 ^ 32) ∧ (st16.motion.cyl.skip = 0) ∧ (st16.motion.cyl.afterRef = none) ∧ (st16.motion.cyl.period = some 100) ∧ (st16.get CYL_REF_KIND = 0) ∧ (2 * 150 ≤ 3 * 100)) ∧
    ((st17.powered = true) ∧ (soundCheck st17 = true) ∧ (st17.get CYL_TYPE ≠ 0) ∧ (st17.get CYL_TEETH ≠ 0) ∧ (st17.get OBS_STATE = 1) ∧ (st17.toothBroken = false) ∧ (st17.motion.cyl.lastEdge = some 0) ∧ (151 = (countDiff (st17.get WEB_COUNT) 0).toNat) ∧ (151 < 2 ^ 32) ∧ (st17.motion.cyl.skip = 0) ∧ (st17.motion.cyl.afterRef = none) ∧ (st17.motion.cyl.period = some 100) ∧ (st17.get CYL_REF_KIND = 0) ∧ (3 * 100 < 2 * 151) ∧ (st17.motion.cyl.seenRef = true → st17.motion.cyl.edges + 1 = st17.get CYL_TEETH)) ∧
    ((st18.powered = true) ∧ (soundCheck st18 = true) ∧ (st18.get CYL_TYPE ≠ 0) ∧ (st18.get CYL_TEETH ≠ 0) ∧ (st18.get OBS_STATE = 1) ∧ (st18.toothBroken = false) ∧ (st18.motion.cyl.lastEdge = some 0) ∧ (151 = (countDiff (st18.get WEB_COUNT) 0).toNat) ∧ (151 < 2 ^ 32) ∧ (st18.motion.cyl.skip = 0) ∧ (st18.motion.cyl.afterRef = none) ∧ (st18.motion.cyl.period = some 100) ∧ (st18.get CYL_REF_KIND = 0) ∧ (3 * 100 < 2 * 151) ∧ (st18.motion.cyl.seenRef = true → st18.motion.cyl.edges + 1 = st18.get CYL_TEETH)) ∧
    ((st19.powered = true) ∧ (soundCheck st19 = true) ∧ (st19.get CYL_TYPE ≠ 0) ∧ (st19.get CYL_TEETH ≠ 0) ∧ (st19.get OBS_STATE = 1) ∧ (st19.toothBroken = false) ∧ (st19.motion.cyl.lastEdge = some 0) ∧ (151 = (countDiff (st19.get WEB_COUNT) 0).toNat) ∧ (151 < 2 ^ 32) ∧ (st19.motion.cyl.skip = 0) ∧ (st19.motion.cyl.afterRef = none) ∧ (st19.motion.cyl.period = some 100) ∧ (st19.get CYL_REF_KIND = 0) ∧ (3 * 100 < 2 * 151) ∧ (st19.motion.cyl.seenRef = true) ∧ (st19.motion.cyl.edges + 1 ≠ st19.get CYL_TEETH)) := ⟨by decide +kernel, by decide +kernel, by decide +kernel, by decide +kernel⟩
theorem witness_AuxCountsAndPulseOutputs :
    ((st20.powered = true) ∧ (1 < 2) ∧ (st20.get AUX_TYPE 1 = 1) ∧ (st20.get ENC_FILTER_NS ≤ 100) ∧ (abStep (st20.motion.ab.getD (1 + 1) 0) (quadPos true false) = AbStep.count true) ∧ (st20.wireFault (1 + 1) = false)) ∧
    ((st21.powered = true) ∧ (0 < 2) ∧ ((st21.pulse 0).backlog = [true, false]) ∧ (Option.all (fun t => decide (t + st21.get PULSE_MIN_EDGE_NS ≤ st21.now + 5)) (st21.pulse 0).lastEdge = true) ∧ ([false].length < 2 ^ 16)) ∧
    ((st1.powered = true) ∧ (1 < 2) ∧ (4294967295 < 2 ^ 32) ∧ ((if true = true then 4294967295 else st1.get PULSE_Q 1) ≠ 0) ∧ ((if true = true then st1.get PULSE_P 1 else 4294967295) ≠ 0) ∧ ((if true = true then st1.get PULSE_P 1 else 4294967295) ≤ if true = true then 4294967295 else st1.get PULSE_Q 1)) ∧
    ((st22.powered = true) ∧ (1 < 2) ∧ (7 < 2 ^ 32) ∧ ((if false = true then 7 else st22.get PULSE_Q 1) ≠ 0) ∧ ((if false = true then st22.get PULSE_P 1 else 7) ≠ 0) ∧ ((if false = true then st22.get PULSE_P 1 else 7) ≤ if false = true then 7 else st22.get PULSE_Q 1)) ∧
    ((st1.powered = true) ∧ (1 < 2) ∧ (0 < 2 ^ 32) ∧ ((if true = true then 0 else st1.get PULSE_Q 1) = 0 ∨ (if true = true then 0 else st1.get PULSE_Q 1) < if true = true then st1.get PULSE_P 1 else 0)) := ⟨by decide +kernel, by decide +kernel, by decide +kernel, by decide +kernel, by decide +kernel⟩
theorem witness_LineTriggers_1 :
    ((st23.powered = true) ∧ (st23.trig.pend = [{ count := 7, created := 0, target := 458752 }]) ∧ (st23.trig.running = true) ∧ (st23.motion.behind = false) ∧ (Option.all (fun t => decide (t + st23.get TRIG_MIN_PERIOD_NS ≤ st23.now + 5)) st23.trig.lastIssue = true)) ∧
    ((st24.powered = true) ∧ (st24.trig.pend = [{ count := 7, created := 0, target := 458752 }, { count := 9, created := 0, target := 589824 }]) ∧ (st24.trig.running = true) ∧ (st24.motion.behind = false) ∧ (Option.all (fun t => decide (t + st24.get TRIG_MIN_PERIOD_NS ≤ st24.now + 2500)) st24.trig.lastIssue = true)) ∧
    ((st25.powered = true) ∧ (Option.any (fun a => decide (st25.now + 5 < a + st25.get TRIG_MIN_PERIOD_NS)) st25.trig.lastIssue = true ∨ st25.trig.running = false ∨ st25.motion.behind = true ∨ st25.trig.pend = [])) ∧
    ((st1.powered = true) ∧ (Option.any (fun a => decide (st1.now + 5 < a + st1.get TRIG_MIN_PERIOD_NS)) st1.trig.lastIssue = true ∨ st1.trig.running = false ∨ st1.motion.behind = true ∨ st1.trig.pend = [])) ∧
    ((st26.powered = true) ∧ (st26.get MODE = 4) ∧ (st26.trig.calNext = some 5) ∧ (5 ≤ st26.now + 5) ∧ (Option.all (fun t => decide (t + st26.get TRIG_MIN_PERIOD_NS ≤ st26.now + 5)) st26.trig.lastIssue = true)) ∧
    ((st1.powered = true) ∧ (st1.get MODE ≠ 4 ∨ st1.trig.calNext = none)) := ⟨by decide +kernel, by decide +kernel, by decide +kernel, by decide +kernel, by decide +kernel, by decide +kernel⟩
theorem witness_LineTriggers_2 :
    ((st27.powered = true) ∧ (11 < 12) ∧ (st27.trig.highUntil.getD 11 none = some 5) ∧ (5 ≤ st27.now + 5)) ∧
    ((st246.powered = true) ∧ (11 < 12) ∧ (st246.trig.highUntil.getD 11 none = some 3150) ∧ (st246.now + 3000 < 3150) ∧ ((if st246.get MODE = 4 then st246.trig.calNext else if st246.trig.running = true ∧ st246.motion.behind = false ∧ st246.trig.pend ≠ [] then some ((Option.map (fun x => x + st246.get TRIG_MIN_PERIOD_NS) st246.trig.lastIssue).getD (st246.now + 3000)) else none) = some 3100) ∧ (3100 < 3150 ∧ 3100 ≤ st246.now + 3000 + 100)) ∧
    ((st247.powered = true) ∧ (11 < 12) ∧ (st247.trig.highUntil.getD 11 none = some 3001) ∧ (st247.now + 3000 < 3001) ∧ (Option.all (fun r => decide ¬(fun r => r < 3001 ∧ r ≤ st247.now + 3000 + 100) r) (if st247.get MODE = 4 then st247.trig.calNext else if st247.trig.running = true ∧ st247.motion.behind = false ∧ st247.trig.pend ≠ [] then some ((Option.map (fun x => x + st247.get TRIG_MIN_PERIOD_NS) st247.trig.lastIssue).getD (st247.now + 3000)) else none) = true)) ∧
    ((st28.powered = true) ∧ (11 < 12) ∧ (st28.trig.highUntil.getD 11 none = some 6) ∧ (st28.now + 5 < 6) ∧ (Option.all (fun r => decide ¬(fun r => r < 6 ∧ r ≤ st28.now + 5 + 100) r) (if st28.get MODE = 4 then st28.trig.calNext else if st28.trig.running = true ∧ st28.motion.behind = false ∧ st28.trig.pend ≠ [] then some ((Option.map (fun x => x + st28.get TRIG_MIN_PERIOD_NS) st28.trig.lastIssue).getD (st28.now + 5)) else none) = true)) := ⟨by decide +kernel, by decide +kernel, by decide +kernel, by decide +kernel⟩
theorem witness_CascadeWebCounts :
    ((st29.powered = true) ∧ (soundCheck st29 = true) ∧ (st29.get CASCADE_ENABLE = 1) ∧ (st29.get CASCADE_ROLE = 0) ∧ (st29.cascade.exchanged = true) ∧ (st29.cascade.down = false) ∧ (st29.cascade.countAt + 20000 ≤ st29.now + 20000)) ∧
    ((st29.powered = true) ∧ (soundCheck st29 = true) ∧ (st29.now + 19999 < st29.cascade.countAt + 20000)) ∧
    ((st1.powered = true) ∧ (soundCheck st1 = true) ∧ (st1.now + 19999 < st1.cascade.countAt + 20000)) ∧
    ((st30.powered = true) ∧ (soundCheck st30 = true) ∧ (st30.get CASCADE_ENABLE = 1) ∧ (st30.get CASCADE_ROLE = 1) ∧ (st30.linkCarries = true) ∧ (st30.cascade.rxSeq = some 3) ∧ (3 < 65536) ∧ ((leBytes 8 0 ++ leBytes 8 3 ++ List.replicate 40 0).length = 56) ∧ (∀ (b : Byte), b ∈ leBytes 8 0 ++ leBytes 8 3 ++ List.replicate 40 0 → b < 256) ∧ (st30.cascade.adopt = false) ∧ ((countDiff (natAt (leBytes 8 0 ++ leBytes 8 3 ++ List.replicate 40 0) 8 8) ((st30.advance 5).countAtTime (natAt (leBytes 8 0 ++ leBytes 8 3 ++ List.replicate 40 0) 0 8))).natAbs ≤ st30.get CASCADE_COUNT_TOL)) ∧
    ((st31.powered = true) ∧ (soundCheck st31 = true) ∧ (st31.get CASCADE_ENABLE = 1) ∧ (st31.get CASCADE_ROLE = 1) ∧ (st31.linkCarries = true) ∧ (st31.cascade.rxSeq = some 65535) ∧ (65535 < 65536) ∧ ((leBytes 8 0 ++ leBytes 8 3 ++ List.replicate 40 0).length = 56) ∧ (∀ (b : Byte), b ∈ leBytes 8 0 ++ leBytes 8 3 ++ List.replicate 40 0 → b < 256) ∧ (st31.cascade.adopt = false) ∧ ((countDiff (natAt (leBytes 8 0 ++ leBytes 8 3 ++ List.replicate 40 0) 8 8) ((st31.advance 5).countAtTime (natAt (leBytes 8 0 ++ leBytes 8 3 ++ List.replicate 40 0) 0 8))).natAbs ≤ st31.get CASCADE_COUNT_TOL)) ∧
    ((st30.powered = true) ∧ (soundCheck st30 = true) ∧ (st30.get CASCADE_ENABLE = 1) ∧ (st30.get CASCADE_ROLE = 1) ∧ (st30.linkCarries = true) ∧ (st30.cascade.rxSeq = some 3) ∧ (3 < 65536) ∧ ((leBytes 8 0 ++ leBytes 8 300 ++ List.replicate 40 0).length = 56) ∧ (∀ (b : Byte), b ∈ leBytes 8 0 ++ leBytes 8 300 ++ List.replicate 40 0 → b < 256) ∧ (st30.cascade.adopt = false) ∧ (st30.get CASCADE_COUNT_TOL < (countDiff (natAt (leBytes 8 0 ++ leBytes 8 300 ++ List.replicate 40 0) 8 8) ((st30.advance 5).countAtTime (natAt (leBytes 8 0 ++ leBytes 8 300 ++ List.replicate 40 0) 0 8))).natAbs)) := ⟨by decide +kernel, by decide +kernel, by decide +kernel, by decide +kernel, by decide +kernel, by decide +kernel⟩
theorem witness_ModeRequests_1 :
    ((st1.powered = true) ∧ (st1.get ECAT_STATE ≠ 3) ∧ (st1.get MODE ≤ 5) ∧ (st1.get MODE_PENDING = 255)) ∧
    ((st32.powered = true) ∧ (st32.get ECAT_STATE ≠ 3) ∧ (st32.get MODE ≤ 5) ∧ (st32.get MODE_PENDING = 255)) ∧
    ((st1.powered = true) ∧ (st1.get ECAT_STATE ≠ 3) ∧ (3 ≤ 4) ∧ (3 ≠ st1.get MODE) ∧ (st1.get MODE_PENDING = 255) ∧ (¬(st1.get MODE, 3) ∈ [(0, 1), (1, 0), (1, 2), (1, 4), (2, 3), (2, 1), (3, 1), (3, 2), (4, 1), (5, 1)])) ∧
    ((st32.powered = true) ∧ (st32.get ECAT_STATE ≠ 3) ∧ (0 ≤ 4) ∧ (0 ≠ st32.get MODE) ∧ (st32.get MODE_PENDING = 255) ∧ (¬(st32.get MODE, 0) ∈ [(0, 1), (1, 0), (1, 2), (1, 4), (2, 3), (2, 1), (3, 1), (3, 2), (4, 1), (5, 1)])) ∧
    ((st33.powered = true) ∧ (st33.get ECAT_STATE ≠ 3) ∧ (4 ≤ 4) ∧ (st33.get MODE_PENDING ≠ 255) ∧ (¬(st33.get MODE = 2 ∧ st33.get MODE_PENDING = 3 ∧ (4 = 1 ∨ 4 = 2)))) ∧
    ((st34.powered = true) ∧ (st34.get ECAT_STATE ≠ 3) ∧ (1 ≤ 4) ∧ (st34.get MODE_PENDING ≠ 255) ∧ (¬(st34.get MODE = 2 ∧ st34.get MODE_PENDING = 3 ∧ (1 = 1 ∨ 1 = 2)))) := ⟨by decide +kernel, by decide +kernel, by decide +kernel, by decide +kernel, by decide +kernel, by decide +kernel⟩
theorem witness_ModeRequests_2 :
    ((st35.powered = true) ∧ (st35.get ECAT_STATE ≠ 3) ∧ (st35.get MODE ≠ 5)) ∧
    ((st1.powered = true) ∧ (st1.get ECAT_STATE ≠ 3) ∧ (st1.get MODE ≠ 5)) ∧
    ((st38.powered = true) ∧ (st38.get ECAT_STATE ≠ 3) ∧ (st38.get MODE = 1) ∧ (st38.get MODE_PENDING = 255) ∧ (st38.get OBS_STATE = 1) ∧ ((st38.advance 5).makereadyCheck.snd = 0)) ∧
    ((st36.powered = true) ∧ (st36.get ECAT_STATE ≠ 3) ∧ (st36.get MODE = 5) ∧ (st36.get MODE_PENDING = 1) ∧ (st36.get HOLD_FROM_DORMANT ≠ 1) ∧ (st36.get HOLD_CAUSE ≤ 1)) ∧
    ((st37.powered = true) ∧ (st37.get ECAT_STATE ≠ 3) ∧ (st37.get MODE = 5) ∧ (st37.get MODE_PENDING = 1) ∧ (st37.get HOLD_FROM_DORMANT ≠ 1) ∧ (1 < st37.get HOLD_CAUSE)) := ⟨by decide +kernel, by decide +kernel, by decide +kernel, by decide +kernel, by decide +kernel⟩
theorem witness_LightBars_1 :
    ((st39.powered = true) ∧ (11 < 12) ∧ (11 < st39.bars.length) ∧ (st39.get MODE ≠ 0) ∧ (st39.get HOLD_FROM_DORMANT ≠ 1)) ∧
    ((st39.powered = true) ∧ (11 < 12) ∧ (11 < st39.bars.length) ∧ (st39.get MODE ≠ 0) ∧ (st39.get HOLD_FROM_DORMANT ≠ 1) ∧ (bytesAt (List.map (fun x => x % 256) [75, 76, 66, 49]) 0 4 = [75, 76, 66, 49]) ∧ (crc32c (bytesAt (List.map (fun x => x % 256) [75, 76, 66, 49]) 0 60) ≠ natAt (List.map (fun x => x % 256) [75, 76, 66, 49]) 60 4)) ∧
    ((st39.powered = true) ∧ (11 < 12) ∧ (11 < st39.bars.length) ∧ (st39.get MODE ≠ 0) ∧ (st39.get HOLD_FROM_DORMANT ≠ 1) ∧ (bytesAt (List.map (fun x => x % 256) barImage) 0 4 = [75, 76, 66, 49]) ∧ (crc32c (bytesAt (List.map (fun x => x % 256) barImage) 0 60) = natAt (List.map (fun x => x % 256) barImage) 60 4)) ∧
    ((st40.powered = true) ∧ (11 < 12) ∧ (11 < st40.bars.length) ∧ (st40.get BAR_STATE 11 = 2) ∧ (st40.get BAR_MODE 11 = 0) ∧ (48000 < 2 ^ 16)) ∧
    ((st41.powered = true) ∧ (11 < 12) ∧ (11 < st41.bars.length) ∧ (st41.get BAR_STATE 11 ≠ 0) ∧ (st41.get BAR_STATE 11 ≠ 4) ∧ (st41.get MODE = 0 ∨ (st41.bar 11).onSince = true ∧ (st41.bar 11).wroteAt + 600000000000 ≤ st41.now + 5)) ∧
    ((st42.powered = true) ∧ (11 < 12) ∧ (11 < st42.bars.length) ∧ (st42.get BAR_STATE 11 ≠ 0) ∧ (st42.get BAR_STATE 11 ≠ 4) ∧ (st42.get MODE = 0 ∨ (st42.bar 11).onSince = true ∧ (st42.bar 11).wroteAt + 600000000000 ≤ st42.now + 600000000000)) := ⟨by decide +kernel, by decide +kernel, by decide +kernel, by decide +kernel, by decide +kernel, by decide +kernel⟩
theorem witness_LightBars_2 :
    ((st41.powered = true) ∧ (11 < 12) ∧ (11 < st41.bars.length) ∧ (BarFault.overTemp ≠ BarFault.cleared) ∧ (st41.get BAR_STATE 11 = 1 ∨ st41.get BAR_STATE 11 = 2)) ∧
    ((st43.powered = true) ∧ (11 < 12) ∧ (11 < st43.bars.length)) := ⟨by decide +kernel, by decide +kernel⟩
theorem witness_CalibrationProcedure_1 :
    ((st44.powered = true) ∧ (st44.get CAL_STATE = 1)) ∧
    ((st45.powered = true) ∧ (st45.get CAL_STATE ≠ 1)) ∧
    ((st46.powered = true) ∧ (st46.get CAL_STATE = 2) ∧ (st46.get CAL_LINES ≤ st46.cal.lines) ∧ (st46.cal.todo = [0, 1]) ∧ (1 ≠ 0)) ∧
    ((st47.powered = true) ∧ (st47.get CAL_STATE = 2) ∧ (st47.get CAL_LINES ≤ st47.cal.lines) ∧ (st47.cal.todo = [0])) ∧
    ((st44.powered = true) ∧ (st44.get CAL_STATE ≠ 2 ∨ st44.cal.lines < st44.get CAL_LINES)) ∧
    ((st48.powered = true) ∧ (st48.get CAL_STATE = 3) ∧ (∀ (e : Nat × CalCam), e ∈ st48.cal.cands → st48.get EASEL_CTX_PENDING (2 * (e.fst / 2) + st48.ctxOf e.fst) ≠ 1 ∧ st48.get EASEL_PAL_PENDING (2 * (e.fst / 2) + st48.ctxOf e.fst) ≠ 1 ∧ (bit e.snd.stages 3 = true → st48.jobPalette e.fst = false)) ∧ (st48.candFault = none)) := ⟨by decide +kernel, by decide +kernel, by decide +kernel, by decide +kernel, by decide +kernel, by decide +kernel⟩
theorem witness_CalibrationProcedure_2 :
    ((st278.powered = true) ∧ (st278.get CAL_STATE = 3) ∧ (∀ (e : Nat × CalCam), e ∈ st278.cal.cands → st278.get EASEL_CTX_PENDING (2 * (e.fst / 2) + st278.ctxOf e.fst) ≠ 1 ∧ st278.get EASEL_PAL_PENDING (2 * (e.fst / 2) + st278.ctxOf e.fst) ≠ 1 ∧ (bit e.snd.stages 3 = true → st278.jobPalette e.fst = false)) ∧ (st278.candFault = some (0, 4, 1)) ∧ (0 < 12)) ∧
    ((st45.powered = true) ∧ (st45.get CAL_STATE ≠ 3)) ∧
    ((st48.powered = true) ∧ (st48.get CAL_STATE ≠ 0)) := ⟨by decide +kernel, by decide +kernel, by decide +kernel⟩
theorem witness_Trims :
    ((st35.powered = true) ∧ (11 < 12) ∧ (st35.get MODE = 3)) ∧
    ((st49.powered = true) ∧ (11 < 12) ∧ (st49.get MODE ≠ 3)) ∧
    ((st50.powered = true) ∧ (11 < 12) ∧ (st50.bayUsed 11 = true) ∧ (st50.get TRIM_ENABLE = 1) ∧ (st50.trim.run = none) ∧ (st50.trim.last.getD 11 none = none) ∧ (∃ e, e ∈ (st50.advance 5).trimTemps 11 ∧ st50.get TRIM_TEMP_THRESHOLD_MK < (e.fst - e.snd).natAbs)) ∧
    ((st279.powered = true) ∧ (11 < 12) ∧ (st279.trim.run = some (11, 1)) ∧ (256 * 1 + 63 ≤ st279.lastLine) ∧ (st279.get LINE_NUMBER ≠ 0) ∧ (st279.trim.held = none) ∧ (((st279.advance 5).trimMath 11 meas1).snd.snd = true) ∧ (st279.get EASEL_CTX_PENDING (2 * (11 / 2) + st279.ctxOf 11) ≠ 1)) ∧
    ((st280.powered = true) ∧ (11 < 12) ∧ (st280.trim.run = some (11, 1)) ∧ (256 * 1 + 63 ≤ st280.lastLine) ∧ (st280.get LINE_NUMBER ≠ 0) ∧ (st280.trim.held = none) ∧ (((st280.advance 5).trimMath 11 meas1).snd.snd = true) ∧ (st280.get EASEL_CTX_PENDING (2 * (11 / 2) + st280.ctxOf 11) = 1)) ∧
    ((st281.powered = true) ∧ (11 < 12) ∧ (st281.trim.run = some (11, 1)) ∧ (256 * 1 + 63 ≤ st281.lastLine) ∧ (st281.get LINE_NUMBER ≠ 0) ∧ (st281.trim.held = none) ∧ (((st281.advance 5).trimMath 11 meas0).snd.snd = false)) := ⟨by decide +kernel, by decide +kernel, by decide +kernel, by decide +kernel, by decide +kernel, by decide +kernel⟩
theorem witness_CoaXPressBringUp_1 :
    ((st51.powered = true) ∧ (11 < 12) ∧ (st51.get MODE = 1) ∧ (st51.get BAY_LINK_TYPE 11 ≠ 0)) ∧
    ((st52.powered = true) ∧ (0 < 12) ∧ (st52.get MODE = 1) ∧ (st52.get BAY_LINK_TYPE ≠ 0)) ∧
    ((st53.powered = true) ∧ (11 < 12) ∧ (st53.get MODE ≠ 1)) ∧
    ((st54.powered = true) ∧ (11 < 12) ∧ (3 < 4) ∧ ((st54.bay 11).step = 1 ∨ (st54.bay 11).step = 2) ∧ (st54.get LANE_STATE (4 * 11 + 3) = 1) ∧ (st54.now + 6000000000 ≤ (st54.bay 11).entryAt + 6000000000)) ∧
    ((st55.powered = true) ∧ (11 < 12) ∧ ((st55.bay 11).step = 2)) ∧
    ((st55.powered = true) ∧ (11 < 12) ∧ ((st55.bay 11).step = 2) ∧ (camOld.revision < 65537 ∨ (st55.bay 11).discAt.getD (st55.now + 5) + 200000000 < st55.now + 5)) := ⟨by decide +kernel, by decide +kernel, by decide +kernel, by decide +kernel, by decide +kernel, by decide +kernel⟩
theorem witness_CoaXPressBringUp_2 :
    ((st56.powered = true) ∧ (11 < 12) ∧ ((st56.bay 11).step = 2) ∧ (65537 ≤ cam3.revision) ∧ (st56.now + 5 ≤ (st56.bay 11).discAt.getD (st56.now + 5) + 200000000) ∧ (cam3.connections < if st56.get BAY_CONNECTIONS 11 = 0 then cam3.connections else st56.get BAY_CONNECTIONS 11)) ∧
    ((st57.powered = true) ∧ (11 < 12) ∧ ((st57.bay 11).step = 2) ∧ (65537 ≤ cam4.revision) ∧ (st57.now + 5 ≤ (st57.bay 11).discAt.getD (st57.now + 5) + 200000000) ∧ ((if st57.get BAY_CONNECTIONS 11 = 0 then cam4.connections else st57.get BAY_CONNECTIONS 11) ≤ cam4.connections) ∧ (min (if cam4.revision < 131072 then min 4 cam4.maxRate else cam4.maxRate) (st57.bay 11).rate < st57.get BAY_CXP_MIN_SPEED 11)) ∧
    ((st248.powered = true) ∧ (11 < 12) ∧ ((st248.bay 11).step = 2) ∧ (65537 ≤ camLow.revision) ∧ (st248.now + 5 ≤ (st248.bay 11).discAt.getD (st248.now + 5) + 200000000) ∧ ((if st248.get BAY_CONNECTIONS 11 = 0 then camLow.connections else st248.get BAY_CONNECTIONS 11) ≤ camLow.connections) ∧ (st248.get BAY_CXP_MIN_SPEED 11 ≤ min (if camLow.revision < 131072 then min 4 camLow.maxRate else camLow.maxRate) (st248.bay 11).rate) ∧ ((List.filter (fun j => match if st248.get LANE_STATE (4 * 11 + j) = 2 then camLow.connIds.getD j none else none with | some i => decide (i < if st248.get BAY_CONNECTIONS 11 = 0 then camLow.connections else st248.get BAY_CONNECTIONS 11) | none => false) (List.range 4)).length < if st248.get BAY_CONNECTIONS 11 = 0 then camLow.connections else st248.get BAY_CONNECTIONS 11)) ∧
    ((st249.powered = true) ∧ (11 < 12) ∧ ((st249.bay 11).step = 2) ∧ (65537 ≤ camNone.revision) ∧ (st249.now + 5 ≤ (st249.bay 11).discAt.getD (st249.now + 5) + 200000000) ∧ ((if st249.get BAY_CONNECTIONS 11 = 0 then camNone.connections else st249.get BAY_CONNECTIONS 11) ≤ camNone.connections) ∧ (st249.get BAY_CXP_MIN_SPEED 11 ≤ min (if camNone.revision < 131072 then min 4 camNone.maxRate else camNone.maxRate) (st249.bay 11).rate) ∧ ((List.filter (fun j => match if st249.get LANE_STATE (4 * 11 + j) = 2 then camNone.connIds.getD j none else none with | some i => decide (i < if st249.get BAY_CONNECTIONS 11 = 0 then camNone.connections else st249.get BAY_CONNECTIONS 11) | none => false) (List.range 4)).length < if st249.get BAY_CONNECTIONS 11 = 0 then camNone.connections else st249.get BAY_CONNECTIONS 11)) ∧
    ((st248.powered = true) ∧ (11 < 12) ∧ ((st248.bay 11).step = 2) ∧ (65537 ≤ cam4.revision) ∧ (st248.now + 200000000 ≤ (st248.bay 11).discAt.getD (st248.now + 200000000) + 200000000) ∧ ((if st248.get BAY_CONNECTIONS 11 = 0 then cam4.connections else st248.get BAY_CONNECTIONS 11) ≤ cam4.connections) ∧ (st248.get BAY_CXP_MIN_SPEED 11 ≤ min (if cam4.revision < 131072 then min 4 cam4.maxRate else cam4.maxRate) (st248.bay 11).rate) ∧ ((if st248.get BAY_CONNECTIONS 11 = 0 then cam4.connections else st248.get BAY_CONNECTIONS 11) ≤ (List.filter (fun j => match if st248.get LANE_STATE (4 * 11 + j) = 2 then cam4.connIds.getD j none else none with | some i => decide (i < if st248.get BAY_CONNECTIONS 11 = 0 then cam4.connections else st248.get BAY_CONNECTIONS 11) | none => false) (List.range 4)).length)) ∧
    ((st249.powered = true) ∧ (11 < 12) ∧ ((st249.bay 11).step = 2) ∧ (65537 ≤ cam4.revision) ∧ (st249.now + 5 ≤ (st249.bay 11).discAt.getD (st249.now + 5) + 200000000) ∧ ((if st249.get BAY_CONNECTIONS 11 = 0 then cam4.connections else st249.get BAY_CONNECTIONS 11) ≤ cam4.connections) ∧ (st249.get BAY_CXP_MIN_SPEED 11 ≤ min (if cam4.revision < 131072 then min 4 cam4.maxRate else cam4.maxRate) (st249.bay 11).rate) ∧ ((if st249.get BAY_CONNECTIONS 11 = 0 then cam4.connections else st249.get BAY_CONNECTIONS 11) ≤ (List.filter (fun j => match if st249.get LANE_STATE (4 * 11 + j) = 2 then cam4.connIds.getD j none else none with | some i => decide (i < if st249.get BAY_CONNECTIONS 11 = 0 then cam4.connections else st249.get BAY_CONNECTIONS 11) | none => false) (List.range 4)).length)) := ⟨by decide +kernel, by decide +kernel, by decide +kernel, by decide +kernel, by decide +kernel, by decide +kernel⟩
theorem witness_CoaXPressBringUp_3 :
    ((st58.powered = true) ∧ (11 < 12) ∧ ((st58.bay 11).step = 3) ∧ (st58.now + 50000000 ≤ (st58.bay 11).stepAt + 50000000) ∧ ((st58.bay 11).rate < 256)) ∧
    ((st59.powered = true) ∧ (11 < 12) ∧ ((st59.bay 11).step = 3) ∧ ((st59.bay 11).stepAt + 50000000 ≤ st59.now + 50000000) ∧ (st59.get BAY_CXP_MIN_SPEED 11 < (st59.bay 11).rate)) ∧
    ((st60.powered = true) ∧ (11 < 12) ∧ ((st60.bay 11).step = 3) ∧ ((st60.bay 11).stepAt + 50000000 ≤ st60.now + 50000000) ∧ ((st60.bay 11).rate ≤ st60.get BAY_CXP_MIN_SPEED 11)) ∧
    ((st250.powered = true) ∧ (11 < 12) ∧ (st250.pocxpOn 11 = true) ∧ (18001 < 2 ^ 16)) ∧
    ((st250.powered = true) ∧ (11 < 12) ∧ (st250.pocxpOn 11 = true) ∧ (18000 < 2 ^ 16)) ∧
    ((st61.powered = true) ∧ (11 < 12) ∧ (st61.pocxpOn 11 = true) ∧ (18001 < 2 ^ 16)) := ⟨by decide +kernel, by decide +kernel, by decide +kernel, by decide +kernel, by decide +kernel, by decide +kernel⟩
theorem witness_CoaXPressBringUp_4 :
    ((st61.powered = true) ∧ (11 < 12) ∧ (st61.pocxpOn 11 = true) ∧ (0 < 2 ^ 16)) := by decide +kernel
theorem witness_LanesLockAndRelock_1 :
    ((st62.powered = true) ∧ (12 < 13) ∧ (3 < 4) ∧ (4 * 12 + 3 < st62.lanes.length) ∧ (st62.lockSequence 12 = true) ∧ (st62.now + 1000 ≤ (st62.lane (4 * 12 + 3)).since + laneLimit (st62.get LANE_STATE (4 * 12 + 3))) ∧ (st62.get LANE_STATE (4 * 12 + 3) = 1)) ∧
    ((st63.powered = true) ∧ (11 < 13) ∧ (3 < 4) ∧ (4 * 11 + 3 < st63.lanes.length) ∧ (st63.lockSequence 11 = true) ∧ (st63.now + 1000 ≤ (st63.lane (4 * 11 + 3)).since + laneLimit (st63.get LANE_STATE (4 * 11 + 3))) ∧ (st63.get LANE_STATE (4 * 11 + 3) = 1)) ∧
    ((st64.powered = true) ∧ (12 < 13) ∧ (3 < 4) ∧ (4 * 12 + 3 < st64.lanes.length) ∧ (st64.lockSequence 12 = true) ∧ (st64.now + 1000 ≤ (st64.lane (4 * 12 + 3)).since + laneLimit (st64.get LANE_STATE (4 * 12 + 3))) ∧ (st64.get LANE_STATE (4 * 12 + 3) = 4)) ∧
    ((st65.powered = true) ∧ (12 < 13) ∧ (3 < 4) ∧ (4 * 12 + 3 < st65.lanes.length) ∧ (st65.lockSequence 12 = true) ∧ (st65.now + 1000 ≤ (st65.lane (4 * 12 + 3)).since + laneLimit (st65.get LANE_STATE (4 * 12 + 3))) ∧ (st65.get LANE_STATE (4 * 12 + 3) = 5)) ∧
    ((st253.powered = true) ∧ (12 < 13) ∧ (3 < 4) ∧ (4 * 12 + 3 < st253.lanes.length) ∧ (st253.lockSequence 12 = true) ∧ (st253.now + 1000000 ≤ (st253.lane (4 * 12 + 3)).since + laneLimit (st253.get LANE_STATE (4 * 12 + 3))) ∧ (st253.get LANE_STATE (4 * 12 + 3) = 6) ∧ (st253.blockStepOver 12 = false)) ∧
    ((st251.powered = true) ∧ (12 < 13) ∧ (3 < 4) ∧ (4 * 12 + 3 < st251.lanes.length) ∧ (st251.lockSequence 12 = true) ∧ (st251.now + 1000000 ≤ (st251.lane (4 * 12 + 3)).since + laneLimit (st251.get LANE_STATE (4 * 12 + 3))) ∧ (st251.get LANE_STATE (4 * 12 + 3) = 6) ∧ (st251.blockStepOver 12 = true) ∧ ((st251.lane (4 * 12 + 3)).relock = true)) := ⟨by decide +kernel, by decide +kernel, by decide +kernel, by decide +kernel, by decide +kernel, by decide +kernel⟩
theorem witness_LanesLockAndRelock_2 :
    ((st252.powered = true) ∧ (11 < 13) ∧ (0 < 4) ∧ (4 * 11 + 0 < st252.lanes.length) ∧ (st252.lockSequence 11 = true) ∧ (st252.now + 5 ≤ (st252.lane (4 * 11 + 0)).since + laneLimit (st252.get LANE_STATE (4 * 11 + 0))) ∧ (st252.get LANE_STATE (4 * 11 + 0) = 6) ∧ (st252.blockStepOver 11 = true) ∧ ((st252.lane (4 * 11 + 0)).relock = true)) ∧
    ((st66.powered = true) ∧ (12 < 13) ∧ (3 < 4) ∧ (4 * 12 + 3 < st66.lanes.length) ∧ (st66.lockSequence 12 = true) ∧ ((st66.lane (4 * 12 + 3)).relock = false) ∧ (st66.get LANE_STATE (4 * 12 + 3) ∈ [1, 4, 5, 6, 7]) ∧ ((st66.lane (4 * 12 + 3)).since + laneLimit (st66.get LANE_STATE (4 * 12 + 3)) ≤ st66.now + 100000000000)) ∧
    ((st63.powered = true) ∧ (11 < 13) ∧ (3 < 4) ∧ (4 * 11 + 3 < st63.lanes.length) ∧ (st63.lockSequence 11 = true) ∧ ((st63.lane (4 * 11 + 3)).relock = false) ∧ (st63.get LANE_STATE (4 * 11 + 3) ∈ [1, 4, 5, 6, 7]) ∧ ((st63.lane (4 * 11 + 3)).since + laneLimit (st63.get LANE_STATE (4 * 11 + 3)) ≤ st63.now + 100000000000)) ∧
    ((st254.powered = true) ∧ (11 < 13) ∧ (3 < 4) ∧ (4 * 11 + 3 < st254.lanes.length) ∧ (st254.lockSequence 11 = false) ∧ ((st254.lane (4 * 11 + 3)).relock = false) ∧ (st254.get LANE_STATE (4 * 11 + 3) = 1) ∧ ((st254.bay 11).step = 1) ∧ ((st254.bay 11).entryAt + 6000000000 ≤ st254.now + 6000000000)) ∧
    ((st67.powered = true) ∧ (12 < 13) ∧ (3 < 4) ∧ (4 * 12 + 3 < st67.lanes.length) ∧ (st67.get LANE_STATE (4 * 12 + 3) = 8)) ∧
    ((st68.powered = true) ∧ (11 < 13) ∧ (3 < 4) ∧ (4 * 11 + 3 < st68.lanes.length) ∧ (st68.get LANE_STATE (4 * 11 + 3) = 8)) := ⟨by decide +kernel, by decide +kernel, by decide +kernel, by decide +kernel, by decide +kernel, by decide +kernel⟩
theorem witness_LanesLockAndRelock_3 :
    ((st69.powered = true) ∧ (12 < 13) ∧ (3 < 4) ∧ (4 * 12 + 3 < st69.lanes.length) ∧ ((st69.lane (4 * 12 + 3)).relock = true) ∧ ((st69.lane (4 * 12 + 3)).since + laneLimit (st69.get LANE_STATE (4 * 12 + 3)) ≤ st69.now + 100000000000)) ∧
    ((st70.powered = true) ∧ (11 < 13) ∧ (3 < 4) ∧ (4 * 11 + 3 < st70.lanes.length) ∧ ((st70.lane (4 * 11 + 3)).relock = true) ∧ ((st70.lane (4 * 11 + 3)).since + laneLimit (st70.get LANE_STATE (4 * 11 + 3)) ≤ st70.now + 100000000000)) ∧
    ((st251.powered = true) ∧ (12 < 13) ∧ (3 < 4) ∧ (4 * 12 + 3 < st251.lanes.length) ∧ ((st251.lane (4 * 12 + 3)).relock = true) ∧ (st251.now + 1000000 ≤ (st251.lane (4 * 12 + 3)).since + laneLimit (st251.get LANE_STATE (4 * 12 + 3))) ∧ (if st251.lockSequence 12 = true then st251.get LANE_STATE (4 * 12 + 3) = 6 ∧ st251.blockStepOver 12 = true else st251.get LANE_STATE (4 * 12 + 3) = 5)) ∧
    ((st252.powered = true) ∧ (11 < 13) ∧ (3 < 4) ∧ (4 * 11 + 3 < st252.lanes.length) ∧ ((st252.lane (4 * 11 + 3)).relock = true) ∧ (st252.now + 5 ≤ (st252.lane (4 * 11 + 3)).since + laneLimit (st252.get LANE_STATE (4 * 11 + 3))) ∧ (if st252.lockSequence 11 = true then st252.get LANE_STATE (4 * 11 + 3) = 6 ∧ st252.blockStepOver 11 = true else st252.get LANE_STATE (4 * 11 + 3) = 5)) ∧
    ((st71.powered = true) ∧ (12 < 13) ∧ (3 < 4) ∧ (4 * 12 + 3 < st71.lanes.length) ∧ (st71.lockSequence 12 = true) ∧ (st71.get LANE_STATE (4 * 12 + 3) ≠ 0) ∧ ((st71.lane (4 * 12 + 3)).blockLock = false) ∧ (12 = 12 → 3 = st71.get LANE_SLICE (4 * 12 + 3) ∧ 0 = st71.get SLICE_EPOCH (60 + 3)) ∧ ((2 ^ 66 - 3) % 4 = 1 ∨ (2 ^ 66 - 3) % 4 = 2 ∧ 12 ≠ 12) ∧ ((st71.lane (4 * 12 + 3)).validRun = 63)) ∧
    ((st255.powered = true) ∧ (11 < 13) ∧ (3 < 4) ∧ (4 * 11 + 3 < st255.lanes.length) ∧ (st255.lockSequence 11 = true) ∧ (st255.get LANE_STATE (4 * 11 + 3) ≠ 0) ∧ ((st255.lane (4 * 11 + 3)).blockLock = false) ∧ (11 = 12 → 3 = st255.get LANE_SLICE (4 * 11 + 3) ∧ 0 = st255.get SLICE_EPOCH (60 + 3)) ∧ (2 % 4 = 1 ∨ 2 % 4 = 2 ∧ 11 ≠ 12) ∧ ((st255.lane (4 * 11 + 3)).validRun = 63)) := ⟨by decide +kernel, by decide +kernel, by decide +kernel, by decide +kernel, by decide +kernel, by decide +kernel⟩
theorem witness_LanesLockAndRelock_4 :
    ((st71.powered = true) ∧ (12 < 13) ∧ (3 < 4) ∧ (4 * 12 + 3 < st71.lanes.length) ∧ (st71.lockSequence 12 = true) ∧ (st71.get LANE_STATE (4 * 12 + 3) ≠ 0) ∧ ((st71.lane (4 * 12 + 3)).blockLock = false) ∧ (12 = 12 → 3 = st71.get LANE_SLICE (4 * 12 + 3) ∧ 0 = st71.get SLICE_EPOCH (60 + 3)) ∧ (0 % 4 = 0 ∨ 0 % 4 = 3)) ∧
    ((st255.powered = true) ∧ (11 < 13) ∧ (3 < 4) ∧ (4 * 11 + 3 < st255.lanes.length) ∧ (st255.lockSequence 11 = true) ∧ (st255.get LANE_STATE (4 * 11 + 3) ≠ 0) ∧ ((st255.lane (4 * 11 + 3)).blockLock = false) ∧ (11 = 12 → 3 = st255.get LANE_SLICE (4 * 11 + 3) ∧ 0 = st255.get SLICE_EPOCH (60 + 3)) ∧ (3 % 4 = 0 ∨ 3 % 4 = 3)) ∧
    ((st71.powered = true) ∧ (12 < 13) ∧ (3 < 4) ∧ (4 * 12 + 3 < st71.lanes.length) ∧ (12 = 12) ∧ (st71.get LANE_STATE (4 * 12 + 3) ≠ 0) ∧ (3 ≠ st71.get LANE_SLICE (4 * 12 + 3) ∨ 1 ≠ st71.get SLICE_EPOCH (60 + 3))) ∧
    ((st71.powered = true) ∧ (12 < 13) ∧ (3 < 4) ∧ (4 * 12 + 3 < st71.lanes.length) ∧ (12 = 12) ∧ (st71.get LANE_STATE (4 * 12 + 3) ≠ 0) ∧ (4 ≠ st71.get LANE_SLICE (4 * 12 + 3) ∨ 0 ≠ st71.get SLICE_EPOCH (60 + 4))) ∧
    ((st256.powered = true) ∧ (11 < 13) ∧ (3 < 4) ∧ (4 * 11 + 3 < st256.lanes.length) ∧ (st256.lockSequence 11 = false) ∧ (st256.get LANE_STATE (4 * 11 + 3) ≠ 0)) ∧
    ((st256.powered = true) ∧ (11 < 13) ∧ (3 < 4) ∧ (4 * 11 + 3 < st256.lanes.length) ∧ (LaneSymbol.violation = LaneSymbol.violation ∨ LaneSymbol.violation = LaneSymbol.disparity) ∧ (st256.lockSequence 11 = false) ∧ (st256.get LANE_STATE (4 * 11 + 3) ≠ 0)) := ⟨by decide +kernel, by decide +kernel, by decide +kernel, by decide +kernel, by decide +kernel, by decide +kernel⟩
theorem witness_LanesLockAndRelock_5 :
    ((st256.powered = true) ∧ (11 < 13) ∧ (3 < 4) ∧ (4 * 11 + 3 < st256.lanes.length) ∧ (LaneSymbol.disparity = LaneSymbol.violation ∨ LaneSymbol.disparity = LaneSymbol.disparity) ∧ (st256.lockSequence 11 = false) ∧ (st256.get LANE_STATE (4 * 11 + 3) ≠ 0)) ∧
    ((st72.powered = true) ∧ (12 < 13) ∧ (3 < 4) ∧ (4 * 12 + 3 < st72.lanes.length) ∧ (12 = 12) ∧ ((st72.lane (4 * 12 + 3)).alignSeq = some 4) ∧ (4 ≠ 65541 % 65536)) ∧
    ((st72.powered = true) ∧ (12 < 13) ∧ (3 < 4) ∧ (4 * 12 + 3 < st72.lanes.length) ∧ (12 = 12) ∧ ((st72.lane (4 * 12 + 3)).alignSeq = some (65540 % 65536))) ∧
    ((st67.powered = true) ∧ (12 < 13) ∧ (3 < 4) ∧ (4 * 12 + 3 < st67.lanes.length) ∧ (st67.get MODE ≠ 0) ∧ (100000000000 ≠ 0) ∧ (st67.get LANE_STATE (4 * 12 + 3) = 8)) := ⟨by decide +kernel, by decide +kernel, by decide +kernel, by decide +kernel⟩
theorem witness_SlicesAndLoopbacks_1 :
    ((st73.powered = true) ∧ (12 < 13) ∧ (12 < st73.quads.length) ∧ (4 < 5) ∧ (st73.get MODE = 0 ∨ st73.get MODE = 1) ∧ (st73.get SLICE_STATE (5 * 12 + 4) = 2) ∧ ((st73.quad 12).test = none) ∧ (st73.asDormant = true ∨ st73.wrapperClosed (quadDomain 12) = false)) ∧
    ((st257.powered = true) ∧ (12 < 13) ∧ (12 < st257.quads.length) ∧ (4 < 5) ∧ (st257.get MODE = 0 ∨ st257.get MODE = 1) ∧ (st257.get SLICE_STATE (5 * 12 + 4) = 2) ∧ ((st257.quad 12).test = none) ∧ (st257.asDormant = true ∨ st257.wrapperClosed (quadDomain 12) = false)) ∧
    ((st258.powered = true) ∧ (12 < 13) ∧ (12 < st258.quads.length) ∧ (4 < 5) ∧ (st258.get MODE = 0 ∨ st258.get MODE = 1) ∧ (st258.get SLICE_STATE (5 * 12 + 4) = 2) ∧ ((st258.quad 12).test = none) ∧ (st258.asDormant = false) ∧ (st258.wrapperClosed (quadDomain 12) = true)) ∧
    ((st74.powered = true) ∧ (12 < 13) ∧ (12 < st74.quads.length) ∧ (4 < 5) ∧ (st74.get MODE = 0 ∨ st74.get MODE = 1) ∧ (st74.get SLICE_STATE (5 * 12 + 4) ≠ 2)) ∧
    ((st75.powered = true) ∧ (12 < 13) ∧ (12 < st75.quads.length) ∧ (4 < 5) ∧ ((st75.quad 12).test = some (4, 0)) ∧ (0 + 10000000000 ≤ st75.now + 10000000000) ∧ (1 ≠ 0) ∧ (0 = 0)) ∧
    ((st75.powered = true) ∧ (12 < 13) ∧ (12 < st75.quads.length) ∧ (4 < 5) ∧ ((st75.quad 12).test = some (4, 0)) ∧ (0 + 10000000000 ≤ st75.now + 10000000000) ∧ (1 ≠ 0) ∧ (1 ≠ 0)) := ⟨by decide +kernel, by decide +kernel, by decide +kernel, by decide +kernel, by decide +kernel, by decide +kernel⟩
theorem witness_SlicesAndLoopbacks_2 :
    ((st74.powered = true) ∧ (12 < 13) ∧ (12 < st74.quads.length) ∧ (st74.asDormant = false) ∧ (st74.quadUsed 12 = true) ∧ ((st74.quad 12).check = none) ∧ ((lowest 5 fun i => st74.get SLICE_STATE (5 * 12 + i) == 1 && decide ((st74.quad 12).checkedAt.getD i 0 + 600000000000 ≤ st74.now + 600000000000) && Option.map Prod.fst (st74.quad 12).loop != some i) = some 4)) ∧
    ((st80.powered = true) ∧ (12 < 13) ∧ (12 < st80.quads.length) ∧ (4 < 5) ∧ ((st80.quad 12).check = some (4, 0)) ∧ (0 + 1000000000 ≤ st80.now + 5000000000)) ∧
    ((st76.powered = true) ∧ (12 < 13) ∧ (12 < st76.quads.length) ∧ (st76.get LB_SLICE 12 < 5) ∧ (st76.get LB_MODE 12 ≠ 0) ∧ (st76.get LB_MODE 12 ≠ 3) ∧ (st76.get SLICE_STATE (5 * 12 + st76.get LB_SLICE 12) = 0 ∧ st76.get MODE = 1 ∨ st76.get SLICE_STATE (5 * 12 + st76.get LB_SLICE 12) = 1 ∧ st76.asDormant = false)) ∧
    ((st77.powered = true) ∧ (12 < 13) ∧ (12 < st77.quads.length) ∧ (st77.get LB_SLICE 12 < 5) ∧ (st77.get LB_MODE 12 ≠ 0) ∧ (st77.get LB_MODE 12 ≠ 3) ∧ (st77.get SLICE_STATE (5 * 12 + st77.get LB_SLICE 12) = 0 ∧ st77.get MODE = 1 ∨ st77.get SLICE_STATE (5 * 12 + st77.get LB_SLICE 12) = 1 ∧ st77.asDormant = false)) ∧
    ((st260.powered = true) ∧ (12 < 13) ∧ (12 < st260.quads.length) ∧ (st260.get LB_SLICE 12 < 5) ∧ (st260.get LB_MODE 12 ≠ 0) ∧ (st260.get LB_MODE 12 ≠ 3) ∧ (st260.get SLICE_STATE (5 * 12 + st260.get LB_SLICE 12) = 0 ∧ st260.get MODE = 1 ∨ st260.get SLICE_STATE (5 * 12 + st260.get LB_SLICE 12) = 1 ∧ st260.asDormant = false)) ∧
    ((st78.powered = true) ∧ (12 < 13) ∧ (12 < st78.quads.length) ∧ (st78.get LB_SLICE 12 < 5) ∧ (st78.get LB_MODE 12 ≠ 0) ∧ (st78.get LB_MODE 12 ≠ 3) ∧ (¬(st78.get SLICE_STATE (5 * 12 + st78.get LB_SLICE 12) = 0 ∧ st78.get MODE = 1 ∨ st78.get SLICE_STATE (5 * 12 + st78.get LB_SLICE 12) = 1 ∧ st78.asDormant = false))) := ⟨by decide +kernel, by decide +kernel, by decide +kernel, by decide +kernel, by decide +kernel, by decide +kernel⟩
theorem witness_SlicesAndLoopbacks_3 :
    ((st259.powered = true) ∧ (12 < 13) ∧ (12 < st259.quads.length) ∧ (st259.get LB_SLICE 12 < 5) ∧ (st259.get LB_MODE 12 ≠ 0) ∧ (st259.get LB_MODE 12 ≠ 3) ∧ (¬(st259.get SLICE_STATE (5 * 12 + st259.get LB_SLICE 12) = 0 ∧ st259.get MODE = 1 ∨ st259.get SLICE_STATE (5 * 12 + st259.get LB_SLICE 12) = 1 ∧ st259.asDormant = false))) ∧
    ((st79.powered = true) ∧ (12 < 13) ∧ (12 < st79.quads.length) ∧ ((st79.quad 12).loop = some (4, 0)) ∧ (0 < 1)) := ⟨by decide +kernel, by decide +kernel⟩
theorem witness_CascadeControlFrames_1 :
    ((st81.powered = true) ∧ (((st81.advance 5).takeFrame 4 (linkFrame 4 1 (ctl [1, 1, 1, 228]))).snd = some (ctl [1, 1, 1, 228])) ∧ (natAt (ctl [1, 1, 1, 228]) 0 1 = 1) ∧ (st81.exchanging = true) ∧ (natAt (ctl [1, 1, 1, 228]) 2 1 ≠ st81.get CASCADE_ROLE) ∧ (natAt (ctl [1, 1, 1, 228]) 1 1 = 1) ∧ (natAt (ctl [1, 1, 1, 228]) 4 4 / 65536 = st81.get FW_REVISION / 65536)) ∧
    ((st82.powered = true) ∧ (((st82.advance 5).takeFrame 4 (linkFrame 4 1 (ctl [1, 1, 0, 228]))).snd = some (ctl [1, 1, 0, 228])) ∧ (natAt (ctl [1, 1, 0, 228]) 0 1 = 1) ∧ (st82.exchanging = true) ∧ (natAt (ctl [1, 1, 0, 228]) 2 1 = st82.get CASCADE_ROLE ∨ natAt (ctl [1, 1, 0, 228]) 1 1 ≠ 1 ∨ natAt (ctl [1, 1, 0, 228]) 4 4 / 65536 ≠ st82.get FW_REVISION / 65536)) ∧
    ((st83.powered = true) ∧ (((st83.advance 5).takeFrame 4 (linkFrame 4 1 (ctl [2]))).snd = some (ctl [2])) ∧ (natAt (ctl [2]) 0 1 = 2) ∧ (st83.isSecondary = true)) ∧
    ((st84.powered = true) ∧ (((st84.advance 5).takeFrame 4 (linkFrame 4 1 (ctl [3]))).snd = some (ctl [3])) ∧ (natAt (ctl [3]) 0 1 = 3) ∧ (st84.isPrimary = true)) ∧
    ((st83.powered = true) ∧ (((st83.advance 5).takeFrame 4 (linkFrame 4 1 (ctl [4]))).snd = some (ctl [4])) ∧ (natAt (ctl [4]) 0 1 = 4) ∧ (st83.isSecondary = true)) ∧
    ((st83.powered = true) ∧ (((st83.advance 5).takeFrame 4 (linkFrame 4 1 (ctl [5, 0, 0, 1]))).snd = some (ctl [5, 0, 0, 1])) ∧ (natAt (ctl [5, 0, 0, 1]) 0 1 = 5) ∧ (natAt (ctl [5, 0, 0, 1]) 3 1 = 1) ∧ (st83.get MODE = 1)) := ⟨by decide +kernel, by decide +kernel, by decide +kernel, by decide +kernel, by decide +kernel, by decide +kernel⟩
theorem witness_CascadeControlFrames_2 :
    ((st85.powered = true) ∧ (((st85.advance 5).takeFrame 4 (linkFrame 4 1 (ctl [5, 0, 0, 1]))).snd = some (ctl [5, 0, 0, 1])) ∧ (natAt (ctl [5, 0, 0, 1]) 0 1 = 5) ∧ (natAt (ctl [5, 0, 0, 1]) 3 1 = 1) ∧ (st85.get MODE ≠ 1)) ∧
    ((st86.powered = true) ∧ (((st86.advance 5).takeFrame 4 (linkFrame 4 1 (ctl [6, 0, 1]))).snd = some (ctl [6, 0, 1])) ∧ (natAt (ctl [6, 0, 1]) 0 1 = 6) ∧ ((st86.quad 12).loopFar = true) ∧ ((st86.quad 12).loop.isSome = true) ∧ (natAt (ctl [6, 0, 1]) 2 1 = 1)) ∧
    ((st1.powered = true) ∧ (st1.get CASCADE_ENABLE = 0 ∨ st1.linkCarries = false) ∧ (Instr.capability 5 [] ∈ [Instr.capability 5 [], Instr.rttRequest 5 [] 3, Instr.rttReply 5 [], Instr.latency 5 [], Instr.lbRequest 5 [], Instr.lbReply 5 []])) ∧
    ((st29.powered = true) ∧ (st29.get CASCADE_ENABLE = 0 ∨ st29.linkCarries = false) ∧ (Instr.rttRequest 5 [] 3 ∈ [Instr.capability 5 [], Instr.rttRequest 5 [] 3, Instr.rttReply 5 [], Instr.latency 5 [], Instr.lbRequest 5 [], Instr.lbReply 5 []])) ∧
    ((st29.powered = true) ∧ (st29.get CASCADE_ENABLE = 0 ∨ st29.linkCarries = false) ∧ (Instr.lbReply 5 [] ∈ [Instr.capability 5 [], Instr.rttRequest 5 [] 3, Instr.rttReply 5 [], Instr.latency 5 [], Instr.lbRequest 5 [], Instr.lbReply 5 []])) ∧
    ((st84.powered = true) ∧ (st84.get CASCADE_ENABLE = 1) ∧ (st84.linkCarries = true) ∧ (frameOk [] = false) ∧ (Instr.capability 5 [] ∈ [Instr.capability 5 [], Instr.rttRequest 5 [] 3, Instr.rttReply 5 [], Instr.latency 5 [], Instr.lbRequest 5 [], Instr.lbReply 5 []])) := ⟨by decide +kernel, by decide +kernel, by decide +kernel, by decide +kernel, by decide +kernel, by decide +kernel⟩
theorem witness_CascadeControlFrames_3 :
    ((st84.powered = true) ∧ (st84.get CASCADE_ENABLE = 1) ∧ (st84.linkCarries = true) ∧ (frameOk [] = false) ∧ (Instr.rttRequest 5 [] 3 ∈ [Instr.capability 5 [], Instr.rttRequest 5 [] 3, Instr.rttReply 5 [], Instr.latency 5 [], Instr.lbRequest 5 [], Instr.lbReply 5 []])) ∧
    ((st84.powered = true) ∧ (st84.get CASCADE_ENABLE = 1) ∧ (st84.linkCarries = true) ∧ (frameOk [] = false) ∧ (Instr.lbReply 5 [] ∈ [Instr.capability 5 [], Instr.rttRequest 5 [] 3, Instr.rttReply 5 [], Instr.latency 5 [], Instr.lbRequest 5 [], Instr.lbReply 5 []])) := ⟨by decide +kernel, by decide +kernel⟩
theorem witness_LinesAndExposure_1 :
    ((st87.powered = true) ∧ (11 < 12) ∧ (pktOld.lane < 4) ∧ (pktOld.slice < 5) ∧ (st87.asDormant = false) ∧ (st87.isStale 11 pktOld = true)) ∧
    ((st87.powered = true) ∧ (11 < 12) ∧ (pktSlice.lane < 4) ∧ (pktSlice.slice < 5) ∧ (st87.asDormant = false) ∧ (st87.isStale 11 pktSlice = true)) ∧
    ((st87.powered = true) ∧ (11 < 12) ∧ (pktCrc.lane < 4) ∧ (pktCrc.slice < 5) ∧ (st87.asDormant = false) ∧ (st87.isStale 11 pktCrc = false) ∧ (st87.get MODE ≠ 5) ∧ (st87.get BAY_STATE 11 = 2) ∧ (st87.laneCarries 11 pktCrc.lane = true) ∧ (pktCrc.crcOk = false)) ∧
    ((st87.powered = true) ∧ (11 < 12) ∧ (pktBad.lane < 4) ∧ (pktBad.slice < 5) ∧ (st87.asDormant = false) ∧ (st87.isStale 11 pktBad = false) ∧ (st87.get MODE ≠ 5) ∧ (st87.get BAY_STATE 11 = 2) ∧ (st87.laneCarries 11 pktBad.lane = true) ∧ (pktBad.crcOk = false)) ∧
    ((st87.powered = true) ∧ (11 < 12) ∧ (pktEvent.lane < 4) ∧ (pktEvent.slice < 5) ∧ (st87.asDormant = false) ∧ (st87.isStale 11 pktEvent = false) ∧ (st87.get MODE ≠ 5) ∧ (st87.get BAY_STATE 11 = 2) ∧ (st87.laneCarries 11 pktEvent.lane = true) ∧ (pktEvent.crcOk = true) ∧ (pktEvent.kind = PacketKind.event ∨ pktEvent.kind = PacketKind.other ∨ pktEvent.kind = PacketKind.stream ∧ 3 < pktEvent.streamId)) ∧
    ((st87.powered = true) ∧ (11 < 12) ∧ (pktOther.lane < 4) ∧ (pktOther.slice < 5) ∧ (st87.asDormant = false) ∧ (st87.isStale 11 pktOther = false) ∧ (st87.get MODE ≠ 5) ∧ (st87.get BAY_STATE 11 = 2) ∧ (st87.laneCarries 11 pktOther.lane = true) ∧ (pktOther.crcOk = true) ∧ (pktOther.kind = PacketKind.event ∨ pktOther.kind = PacketKind.other ∨ pktOther.kind = PacketKind.stream ∧ 3 < pktOther.streamId)) := ⟨by decide +kernel, by decide +kernel, by decide +kernel, by decide +kernel, by decide +kernel, by decide +kernel⟩
theorem witness_LinesAndExposure_2 :
    ((st87.powered = true) ∧ (11 < 12) ∧ (pktId4.lane < 4) ∧ (pktId4.slice < 5) ∧ (st87.asDormant = false) ∧ (st87.isStale 11 pktId4 = false) ∧ (st87.get MODE ≠ 5) ∧ (st87.get BAY_STATE 11 = 2) ∧ (st87.laneCarries 11 pktId4.lane = true) ∧ (pktId4.crcOk = true) ∧ (pktId4.kind = PacketKind.event ∨ pktId4.kind = PacketKind.other ∨ pktId4.kind = PacketKind.stream ∧ 3 < pktId4.streamId)) ∧
    ((st87.powered = true) ∧ (11 < 12) ∧ (pktId3.lane < 4) ∧ (pktId3.slice < 5) ∧ (st87.asDormant = false) ∧ (st87.isStale 11 pktId3 = false) ∧ (st87.get MODE ≠ 5) ∧ (st87.get BAY_STATE 11 = 2) ∧ (st87.laneCarries 11 pktId3.lane = true) ∧ (pktId3.crcOk = true) ∧ (pktId3.kind = PacketKind.stream) ∧ (pktId3.streamId ≤ 3) ∧ (st87.subType 11 pktId3.streamId = none)) ∧
    ((st91.powered = true) ∧ (11 < 12) ∧ (pkt.lane < 4) ∧ (pkt.slice < 5) ∧ (st91.asDormant = false) ∧ (st91.isStale 11 pkt = false) ∧ (st91.get MODE ≠ 5) ∧ (st91.get BAY_STATE 11 = 2) ∧ (st91.laneCarries 11 pkt.lane = true) ∧ (pkt.crcOk = true) ∧ (pkt.kind = PacketKind.stream) ∧ (pkt.streamId ≤ 3) ∧ (st91.subType 11 pkt.streamId = some mono) ∧ (st91.tagLine 11 pkt.tag = some 9) ∧ (((st91.bay 11).await.all fun l => l.num != 9) = true)) ∧
    ((st92.powered = true) ∧ (11 < 12) ∧ (pkt.lane < 4) ∧ (pkt.slice < 5) ∧ (st92.asDormant = false) ∧ (st92.isStale 11 pkt = false) ∧ (st92.get MODE ≠ 5) ∧ (st92.get BAY_STATE 11 = 2) ∧ (st92.laneCarries 11 pkt.lane = true) ∧ (pkt.crcOk = true) ∧ (pkt.kind = PacketKind.stream) ∧ (pkt.streamId ≤ 3) ∧ (st92.subType 11 pkt.streamId = some mono) ∧ (st92.tagLine 11 pkt.tag = some 9) ∧ (∀ (a : OutLine), a ∈ (st92.bay 11).await → 9 ≤ a.num) ∧ (List.find? (fun l => l.num == 9) (st92.bay 11).await = some out9) ∧ (out9.replaced = false) ∧ (samePixels pkt.format (st92.get INTAKE_TYPE (4 * 11 + pkt.streamId)) = true)) ∧
    ((st88.powered = true) ∧ (11 < 12) ∧ (List.find? (fun l => l.num == 9) (st88.bay 11).await = some out9) ∧ ((st88.advance 1000000000000).isLate 11 out9 = true)) ∧
    ((st88.powered = true) ∧ (11 < 12) ∧ (List.find? (fun l => l.num == 9) (st88.bay 11).await = some out9) ∧ ((st88.advance 5).isLate 11 out9 = false)) := ⟨by decide +kernel, by decide +kernel, by decide +kernel, by decide +kernel, by decide +kernel, by decide +kernel⟩
theorem witness_LinesAndExposure_3 :
    ((st89.powered = true) ∧ (st89.get MODE ≠ 4) ∧ (st89.withinBudget st89.stagedSet = true)) ∧
    ((st93.powered = true) ∧ (st93.get MODE ≠ 4) ∧ (st93.withinBudget st93.stagedSet = false)) ∧
    ((st90.powered = true) ∧ (st90.get MODE = 4)) := ⟨by decide +kernel, by decide +kernel, by decide +kernel⟩
theorem witness_EaselLinesAndBanks_1 :
    ((st94.powered = true) ∧ (5 < 6) ∧ (1 < 2) ∧ (st94.get MODE ≠ 0) ∧ (st94.get MODE ≠ 5) ∧ (st94.get EASEL_INLINE_BAY 5 < 2) ∧ ((st94.bay (st94.bayOf 5 1)).ferry = [List.replicate 24 0]) ∧ (st94.get EASEL_STATE 5 ≠ 1)) ∧
    ((st95.powered = true) ∧ (5 < 6) ∧ (0 < 2) ∧ (st95.get MODE ≠ 0) ∧ (st95.get MODE ≠ 5) ∧ (st95.get EASEL_INLINE_BAY 5 < 2) ∧ ((st95.bay (st95.bayOf 5 0)).ferry = [List.replicate 24 0]) ∧ (st95.get EASEL_STATE 5 = 1) ∧ ((st95.easel 5).resumeLine ≤ st95.fullLine (natAt (List.replicate 24 0) 4 4)) ∧ (0 = 0) ∧ (20 ≤ (List.map (fun x => x % 256) tp).length) ∧ (crc32c (List.take ((List.map (fun x => x % 256) tp).length - 4) (List.map (fun x => x % 256) tp)) = leNat (List.drop ((List.map (fun x => x % 256) tp).length - 4) (List.map (fun x => x % 256) tp))) ∧ ((st95.easel 5).running.isSome = true) ∧ (0 < (st95.easel 5).ctxs.length)) ∧
    ((st96.powered = true) ∧ (5 < 6) ∧ (0 < 2) ∧ (st96.get MODE ≠ 0) ∧ (st96.get MODE ≠ 5) ∧ (st96.get EASEL_INLINE_BAY 5 < 2) ∧ ((st96.bay (st96.bayOf 5 0)).ferry = [List.replicate 24 0]) ∧ (st96.get EASEL_STATE 5 = 1) ∧ ((st96.easel 5).resumeLine ≤ st96.fullLine (natAt (List.replicate 24 0) 4 4)) ∧ (0 = 0 ∨ (st96.easel 5).dropped.contains (st96.fullLine (natAt (List.replicate 24 0) 4 4) / 256) = false) ∧ (crc32c (List.take ((List.map (fun x => x % 256) badTp).length - 4) (List.map (fun x => x % 256) badTp)) ≠ leNat (List.drop ((List.map (fun x => x % 256) badTp).length - 4) (List.map (fun x => x % 256) badTp))) ∧ (bit (natAt (List.replicate 24 0) 10 1) 1 = false) ∧ (st96.tileReplaced (st96.bayOf 5 0) (st96.fullLine (natAt (List.replicate 24 0) 4 4)) = false)) ∧
    ((st95.powered = true) ∧ (5 < 6) ∧ (5 < 7) ∧ (st95.get MODE ≠ 0) ∧ (st95.get MODE ≠ 5) ∧ (st95.get EASEL_PHYS 5 = 5) ∧ (st95.get EASEL_PHYS_STATE 5 = 0) ∧ ((st95.easel 5).running = some (0, { num := 1 }))) ∧
    ((st95.powered = true) ∧ (5 < 6) ∧ (6 < 7) ∧ (st95.get MODE ≠ 0) ∧ (st95.get MODE ≠ 5) ∧ (st95.get EASEL_PHYS 5 ≠ 6 ∨ st95.get EASEL_PHYS_STATE 6 ≠ 0)) ∧
    ((st96.powered = true) ∧ (5 < 6) ∧ ((st96.easel 5).winStart + 100000000 ≤ st96.now + 100000000)) := ⟨by decide +kernel, by decide +kernel, by decide +kernel, by decide +kernel, by decide +kernel, by decide +kernel⟩
theorem witness_EaselLinesAndBanks_2 :
    ((st97.powered = true) ∧ (5 < 6) ∧ (1 < 2) ∧ (st97.get EASEL_CTX_PENDING (2 * 5 + 1) = 1)) ∧
    ((st98.powered = true) ∧ (5 < 6) ∧ (1 < 2) ∧ (st98.get EASEL_CTX_PENDING (2 * 5 + 1) ≠ 1) ∧ (((st98.stagedBank (2 * 5 + 1)).check (st98.shape (st98.bayOf 5 1)).fst (st98.shape (st98.bayOf 5 1)).snd).fst ≠ 0)) ∧
    ((st99.powered = true) ∧ (5 < 6) ∧ (1 < 2) ∧ (st99.get EASEL_CTX_PENDING (2 * 5 + 1) ≠ 1) ∧ (((st99.stagedBank (2 * 5 + 1)).check (st99.shape (st99.bayOf 5 1)).fst (st99.shape (st99.bayOf 5 1)).snd).fst = 0) ∧ (st99.breaksGeometry 5 1 (st99.stagedBank (2 * 5 + 1)) = false)) ∧
    ((st100.powered = true) ∧ (5 < 6) ∧ (1 < 2) ∧ (st100.get EASEL_PAL_PENDING (2 * 5 + 1) = 1 ∨ st100.jobPalette (st100.bayOf 5 1) = true)) ∧
    ((st96.powered = true) ∧ (5 < 6) ∧ (1 < 2) ∧ (st96.get EASEL_PAL_PENDING (2 * 5 + 1) ≠ 1) ∧ (st96.jobPalette (st96.bayOf 5 1) = false)) := ⟨by decide +kernel, by decide +kernel, by decide +kernel, by decide +kernel, by decide +kernel⟩
theorem witness_EaselHeartbeatsAndSpare_1 :
    ((st96.powered = true) ∧ (5 < 6) ∧ (5 < st96.easels.length) ∧ (st96.get MODE ≠ 0) ∧ (st96.get MODE ≠ 5) ∧ (st96.get EASEL_STATE 5 = 1) ∧ ((st96.easel 5).sentAt + 5000000 ≤ st96.now + 5000000)) ∧
    ((st101.powered = true) ∧ (5 < 6) ∧ ((st101.easel 5).tokens = [5]) ∧ (5 ≤ st101.now + 5) ∧ (st101.get MODE ≠ 0) ∧ (st101.get MODE ≠ 5) ∧ ((st101.easel 5).misses < 2)) ∧
    ((st102.powered = true) ∧ (5 < 6) ∧ ((st102.easel 5).tokens = [5]) ∧ (5 ≤ st102.now + 5) ∧ (st102.get MODE ≠ 0) ∧ (st102.get MODE ≠ 5) ∧ (2 ≤ (st102.easel 5).misses) ∧ (st102.get EASEL_PHYS 5 < 7) ∧ (st102.get EASEL_PHYS_STATE (st102.get EASEL_PHYS 5) = 0) ∧ (st102.spareEasel = some 6)) ∧
    ((st103.powered = true) ∧ (5 < 6) ∧ ((st103.easel 5).tokens = [5]) ∧ (5 ≤ st103.now + 5) ∧ (st103.get MODE ≠ 0) ∧ (st103.get MODE ≠ 5) ∧ (2 ≤ (st103.easel 5).misses) ∧ (st103.get EASEL_PHYS 5 < 7) ∧ (st103.get EASEL_PHYS_STATE (st103.get EASEL_PHYS 5) = 0) ∧ (st103.spareEasel = none)) ∧
    ((st261.powered = true) ∧ (6 < 7) ∧ (st261.get MODE = 0 ∨ st261.get MODE = 1) ∧ (st261.get EASEL_PHYS_STATE 6 = 2) ∧ (st261.bench.easelTest = none) ∧ (st261.asDormant = true ∨ st261.wrapperClosed (26 + 6) = false)) ∧
    ((st104.powered = true) ∧ (6 < 7) ∧ (st104.get MODE = 1) ∧ (st104.get EASEL_PHYS_STATE 6 = 2) ∧ (st104.bench.easelTest = none) ∧ (st104.wrapperClosed (26 + 6) = true)) := ⟨by decide +kernel, by decide +kernel, by decide +kernel, by decide +kernel, by decide +kernel, by decide +kernel⟩
theorem witness_EaselHeartbeatsAndSpare_2 :
    ((st105.powered = true) ∧ (6 < 7) ∧ (st105.get EASEL_PHYS_STATE 6 ≠ 2)) ∧
    ((st106.powered = true) ∧ (6 < 7) ∧ (st106.bench.easelTest = some (6, 0))) ∧
    ((st105.powered = true) ∧ (st105.asDormant = false) ∧ (st105.spareEasel = some 6) ∧ (st105.bench.easelCheck = none) ∧ (st105.bench.easelAt + 600000000000 ≤ st105.now + 600000000000)) ∧
    ((st107.powered = true) ∧ (6 < 7) ∧ (st107.bench.easelCheck = some (6, 0))) ∧
    ((st107.powered = true) ∧ (6 < 7) ∧ (st107.bench.easelCheck = some (6, 0)) ∧ (st107.get EASEL_PHYS_STATE 6 = 1)) ∧
    ((st282.powered = true) ∧ (6 < 7) ∧ (st282.bench.easelCheck = some (6, 0)) ∧ (st282.get EASEL_PHYS_STATE 6 ≠ 1)) := ⟨by decide +kernel, by decide +kernel, by decide +kernel, by decide +kernel, by decide +kernel, by decide +kernel⟩
theorem witness_SegmentsAndCompletion_1 :
    ((st284.powered = true) ∧ (0 < 12) ∧ (st284.segs.getD 0 [] = [sg]) ∧ (sg.view < 4) ∧ (sg.bay = 0) ∧ (st284.get MODE = 0 ∨ st284.get MODE = 5 ∨ sg.ctxB = true ∧ (st284.easel (0 / 2)).heldB = true)) ∧
    ((st108.powered = true) ∧ (11 < 12) ∧ (st108.segs.getD 11 [] = [sgLast]) ∧ (sgLast.view < 4) ∧ (sgLast.bay = 11) ∧ (¬(st108.get MODE = 0 ∨ st108.get MODE = 5 ∨ sgLast.ctxB = true ∧ (st108.easel (11 / 2)).heldB = true)) ∧ (100 ≤ 100) ∧ (sgLast.ctxB = false)) ∧
    ((st109.powered = true) ∧ (0 < 12) ∧ (st109.segs.getD 0 [] = [sg]) ∧ (sg.view < 4) ∧ (sg.bay = 0) ∧ (¬(st109.get MODE = 0 ∨ st109.get MODE = 5 ∨ sg.ctxB = true ∧ (st109.easel (0 / 2)).heldB = true)) ∧ (99 < 100 ∨ sg.ctxB = true) ∧ (st109.viewState sg.view = 1) ∧ (st109.stagger 0 ≤ sg.line) ∧ (st109.strip sg.view ((sg.line - st109.stagger 0) / 256) = some strip0c) ∧ (strip0c.complete = true)) ∧
    ((st283.powered = true) ∧ (0 < 12) ∧ (st283.segs.getD 0 [] = [sg]) ∧ (sg.view < 4) ∧ (sg.bay = 0) ∧ (¬(st283.get MODE = 0 ∨ st283.get MODE = 5 ∨ sg.ctxB = true ∧ (st283.easel (0 / 2)).heldB = true)) ∧ (99 < 100 ∨ sg.ctxB = true) ∧ (st283.viewState sg.view = 1) ∧ (st283.stagger 0 ≤ sg.line) ∧ (st283.strip sg.view ((sg.line - st283.stagger 0) / 256) = some strip0f) ∧ (strip0f.complete = true)) ∧
    ((st110.powered = true) ∧ (0 < 12) ∧ (st110.segs.getD 0 [] = [sg]) ∧ (sg.view < 4) ∧ (sg.bay = 0) ∧ (¬(st110.get MODE = 0 ∨ st110.get MODE = 5 ∨ sg.ctxB = true ∧ (st110.easel (0 / 2)).heldB = true)) ∧ (99 < 100 ∨ sg.ctxB = true) ∧ (st110.viewState sg.view = 1) ∧ (st110.stagger 0 ≤ sg.line) ∧ (st110.strip sg.view ((sg.line - st110.stagger 0) / 256) = some strip0) ∧ (strip0.complete = false) ∧ (0 < strip0.acc.length) ∧ (bit (strip0.acc.getD 0 0) ((sg.line - st110.stagger 0) % 256) = false)) ∧
    ((st285.powered = true) ∧ (11 < 12) ∧ (st285.notes.getD 11 [] = [noteA]) ∧ (st285.get MODE = 5)) := ⟨by decide +kernel, by decide +kernel, by decide +kernel, by decide +kernel, by decide +kernel, by decide +kernel⟩
theorem witness_SegmentsAndCompletion_2 :
    ((st111.powered = true) ∧ (11 < 12) ∧ (st111.notes.getD 11 [] = [noteA]) ∧ (st111.get MODE ≠ 5)) ∧
    ((st112.powered = true) ∧ (0 < 12) ∧ (st112.notes.getD 0 [] = [noteA]) ∧ (st112.get MODE ≠ 5)) ∧
    ((st113.powered = true) ∧ (0 < 4) ∧ (st113.get MODE ≠ 5)) ∧
    ((st274.powered = true) ∧ (0 < 4) ∧ (st274.get MODE ≠ 5)) ∧
    ((st89.powered = true) ∧ (3 < 4) ∧ (st89.get MODE = 5)) ∧
    ((st114.powered = true) ∧ (3 < 4) ∧ ((st114.view 3).holding = true)) := ⟨by decide +kernel, by decide +kernel, by decide +kernel, by decide +kernel, by decide +kernel, by decide +kernel⟩
theorem witness_SegmentsAndCompletion_3 :
    ((st116.powered = true) ∧ (3 < 4) ∧ ((st116.view 3).holding = false)) ∧
    ((st286.powered = true) ∧ (st286.get CASCADE_ENABLE = 1) ∧ (st286.linkCarries = true) ∧ (st286.cascade.rxSeq = some 7) ∧ (7 < 65536) ∧ ((leBytes 8 256 ++ [0, R.planeBits 0] ++ leBytes 2 8 ++ leBytes 4 0 ++ List.replicate 8 1).length < 65536) ∧ (∀ (b : Byte), b ∈ leBytes 8 256 ++ [0, R.planeBits 0] ++ leBytes 2 8 ++ leBytes 4 0 ++ List.replicate 8 1 → b < 256) ∧ (st286.get MODE = 0 ∨ st286.get MODE = 5)) ∧
    ((st115.powered = true) ∧ (st115.get CASCADE_ENABLE = 1) ∧ (st115.linkCarries = true) ∧ (st115.cascade.rxSeq = some 7) ∧ (7 < 65536) ∧ ((leBytes 8 256 ++ [0, R.planeBits 0] ++ leBytes 2 8 ++ leBytes 4 0 ++ List.replicate 8 1).length < 65536) ∧ (∀ (b : Byte), b ∈ leBytes 8 256 ++ [0, R.planeBits 0] ++ leBytes 2 8 ++ leBytes 4 0 ++ List.replicate 8 1 → b < 256) ∧ (st115.get MODE ≠ 0) ∧ (st115.get MODE ≠ 5) ∧ (natAt (leBytes 8 256 ++ [0, R.planeBits 0] ++ leBytes 2 8 ++ leBytes 4 0 ++ List.replicate 8 1) 8 1 < 4 ∧ st115.get VIEW_CASCADE (natAt (leBytes 8 256 ++ [0, R.planeBits 0] ++ leBytes 2 8 ++ leBytes 4 0 ++ List.replicate 8 1) 8 1) ≠ 0 ∧ natAt (leBytes 8 256 ++ [0, R.planeBits 0] ++ leBytes 2 8 ++ leBytes 4 0 ++ List.replicate 8 1) 9 1 / 2 % 8 = st115.planeBits (natAt (leBytes 8 256 ++ [0, R.planeBits 0] ++ leBytes 2 8 ++ leBytes 4 0 ++ List.replicate 8 1) 8 1) / 2 ∧ natAt (leBytes 8 256 ++ [0, R.planeBits 0] ++ leBytes 2 8 ++ leBytes 4 0 ++ List.replicate 8 1) 10 2 = st115.get VIEW_CASCADE_OVERLAP (natAt (leBytes 8 256 ++ [0, R.planeBits 0] ++ leBytes 2 8 ++ leBytes 4 0 ++ List.replicate 8 1) 8 1)) ∧ (natAt (leBytes 8 256 ++ [0, R.planeBits 0] ++ leBytes 2 8 ++ leBytes 4 0 ++ List.replicate 8 1) 8 1 < st115.views.length) ∧ (st115.strip (natAt (leBytes 8 256 ++ [0, R.planeBits 0] ++ leBytes 2 8 ++ leBytes 4 0 ++ List.replicate 8 1) 8 1) (natAt (leBytes 8 256 ++ [0, R.planeBits 0] ++ leBytes 2 8 ++ leBytes 4 0 ++ List.replicate 8 1) 0 8 / 256) = none)) ∧
    ((st287.powered = true) ∧ (st287.get CASCADE_ENABLE = 1) ∧ (st287.linkCarries = true) ∧ (st287.cascade.rxSeq = some 7) ∧ (7 < 65536) ∧ ((leBytes 8 256 ++ [0, R.planeBits 0] ++ leBytes 2 8 ++ leBytes 4 0 ++ List.replicate 8 1).length < 65536) ∧ (∀ (b : Byte), b ∈ leBytes 8 256 ++ [0, R.planeBits 0] ++ leBytes 2 8 ++ leBytes 4 0 ++ List.replicate 8 1 → b < 256) ∧ (st287.get MODE ≠ 0) ∧ (st287.get MODE ≠ 5) ∧ (natAt (leBytes 8 256 ++ [0, R.planeBits 0] ++ leBytes 2 8 ++ leBytes 4 0 ++ List.replicate 8 1) 8 1 < 4 ∧ st287.get VIEW_CASCADE (natAt (leBytes 8 256 ++ [0, R.planeBits 0] ++ leBytes 2 8 ++ leBytes 4 0 ++ List.replicate 8 1) 8 1) ≠ 0 ∧ natAt (leBytes 8 256 ++ [0, R.planeBits 0] ++ leBytes 2 8 ++ leBytes 4 0 ++ List.replicate 8 1) 9 1 / 2 % 8 = st287.planeBits (natAt (leBytes 8 256 ++ [0, R.planeBits 0] ++ leBytes 2 8 ++ leBytes 4 0 ++ List.replicate 8 1) 8 1) / 2 ∧ natAt (leBytes 8 256 ++ [0, R.planeBits 0] ++ leBytes 2 8 ++ leBytes 4 0 ++ List.replicate 8 1) 10 2 = st287.get VIEW_CASCADE_OVERLAP (natAt (leBytes 8 256 ++ [0, R.planeBits 0] ++ leBytes 2 8 ++ leBytes 4 0 ++ List.replicate 8 1) 8 1)) ∧ (st287.strip (natAt (leBytes 8 256 ++ [0, R.planeBits 0] ++ leBytes 2 8 ++ leBytes 4 0 ++ List.replicate 8 1) 8 1) (natAt (leBytes 8 256 ++ [0, R.planeBits 0] ++ leBytes 2 8 ++ leBytes 4 0 ++ List.replicate 8 1) 0 8 / 256) = some strip1c) ∧ (st287.edgeCam (natAt (leBytes 8 256 ++ [0, R.planeBits 0] ++ leBytes 2 8 ++ leBytes 4 0 ++ List.replicate 8 1) 8 1) = some cam64) ∧ (strip1c.complete = true)) ∧
    ((st288.powered = true) ∧ (st288.get CASCADE_ENABLE = 1) ∧ (st288.linkCarries = true) ∧ (st288.cascade.rxSeq = some 7) ∧ (7 < 65536) ∧ ((leBytes 8 256 ++ [0, R.planeBits 0] ++ leBytes 2 8 ++ leBytes 4 0 ++ List.replicate 8 1).length < 65536) ∧ (∀ (b : Byte), b ∈ leBytes 8 256 ++ [0, R.planeBits 0] ++ leBytes 2 8 ++ leBytes 4 0 ++ List.replicate 8 1 → b < 256) ∧ (st288.get MODE ≠ 0) ∧ (st288.get MODE ≠ 5) ∧ (natAt (leBytes 8 256 ++ [0, R.planeBits 0] ++ leBytes 2 8 ++ leBytes 4 0 ++ List.replicate 8 1) 8 1 < 4 ∧ st288.get VIEW_CASCADE (natAt (leBytes 8 256 ++ [0, R.planeBits 0] ++ leBytes 2 8 ++ leBytes 4 0 ++ List.replicate 8 1) 8 1) ≠ 0 ∧ natAt (leBytes 8 256 ++ [0, R.planeBits 0] ++ leBytes 2 8 ++ leBytes 4 0 ++ List.replicate 8 1) 9 1 / 2 % 8 = st288.planeBits (natAt (leBytes 8 256 ++ [0, R.planeBits 0] ++ leBytes 2 8 ++ leBytes 4 0 ++ List.replicate 8 1) 8 1) / 2 ∧ natAt (leBytes 8 256 ++ [0, R.planeBits 0] ++ leBytes 2 8 ++ leBytes 4 0 ++ List.replicate 8 1) 10 2 = st288.get VIEW_CASCADE_OVERLAP (natAt (leBytes 8 256 ++ [0, R.planeBits 0] ++ leBytes 2 8 ++ leBytes 4 0 ++ List.replicate 8 1) 8 1)) ∧ (st288.strip (natAt (leBytes 8 256 ++ [0, R.planeBits 0] ++ leBytes 2 8 ++ leBytes 4 0 ++ List.replicate 8 1) 8 1) (natAt (leBytes 8 256 ++ [0, R.planeBits 0] ++ leBytes 2 8 ++ leBytes 4 0 ++ List.replicate 8 1) 0 8 / 256) = some strip1) ∧ (st288.edgeCam (natAt (leBytes 8 256 ++ [0, R.planeBits 0] ++ leBytes 2 8 ++ leBytes 4 0 ++ List.replicate 8 1) 8 1) = some cam64) ∧ (strip1.complete = false) ∧ (bit (strip1.acc.getD cam64.bay 0) (natAt (leBytes 8 256 ++ [0, R.planeBits 0] ++ leBytes 2 8 ++ leBytes 4 0 ++ List.replicate 8 1) 0 8 % 256) = false)) ∧
    ((st289.powered = true) ∧ (st289.get CASCADE_ENABLE = 1) ∧ (st289.linkCarries = true) ∧ (st289.cascade.rxSeq = some 7) ∧ (7 < 65536) ∧ ((leBytes 8 256 ++ [0, R.planeBits 0] ++ leBytes 2 8 ++ leBytes 4 0 ++ List.replicate 8 1).length < 65536) ∧ (∀ (b : Byte), b ∈ leBytes 8 256 ++ [0, R.planeBits 0] ++ leBytes 2 8 ++ leBytes 4 0 ++ List.replicate 8 1 → b < 256) ∧ (st289.get MODE ≠ 0) ∧ (st289.get MODE ≠ 5) ∧ (natAt (leBytes 8 256 ++ [0, R.planeBits 0] ++ leBytes 2 8 ++ leBytes 4 0 ++ List.replicate 8 1) 8 1 < 4 ∧ st289.get VIEW_CASCADE (natAt (leBytes 8 256 ++ [0, R.planeBits 0] ++ leBytes 2 8 ++ leBytes 4 0 ++ List.replicate 8 1) 8 1) ≠ 0 ∧ natAt (leBytes 8 256 ++ [0, R.planeBits 0] ++ leBytes 2 8 ++ leBytes 4 0 ++ List.replicate 8 1) 9 1 / 2 % 8 = st289.planeBits (natAt (leBytes 8 256 ++ [0, R.planeBits 0] ++ leBytes 2 8 ++ leBytes 4 0 ++ List.replicate 8 1) 8 1) / 2 ∧ natAt (leBytes 8 256 ++ [0, R.planeBits 0] ++ leBytes 2 8 ++ leBytes 4 0 ++ List.replicate 8 1) 10 2 = st289.get VIEW_CASCADE_OVERLAP (natAt (leBytes 8 256 ++ [0, R.planeBits 0] ++ leBytes 2 8 ++ leBytes 4 0 ++ List.replicate 8 1) 8 1)) ∧ (st289.strip (natAt (leBytes 8 256 ++ [0, R.planeBits 0] ++ leBytes 2 8 ++ leBytes 4 0 ++ List.replicate 8 1) 8 1) (natAt (leBytes 8 256 ++ [0, R.planeBits 0] ++ leBytes 2 8 ++ leBytes 4 0 ++ List.replicate 8 1) 0 8 / 256) = some strip1a) ∧ (st289.edgeCam (natAt (leBytes 8 256 ++ [0, R.planeBits 0] ++ leBytes 2 8 ++ leBytes 4 0 ++ List.replicate 8 1) 8 1) = some cam64) ∧ (strip1a.complete = false) ∧ (bit (strip1a.acc.getD cam64.bay 0) (natAt (leBytes 8 256 ++ [0, R.planeBits 0] ++ leBytes 2 8 ++ leBytes 4 0 ++ List.replicate 8 1) 0 8 % 256) = true)) := ⟨by decide +kernel, by decide +kernel, by decide +kernel, by decide +kernel, by decide +kernel, by decide +kernel⟩
theorem witness_SegmentsAndCompletion_4 :
    ((st115.powered = true) ∧ (st115.get CASCADE_ENABLE = 1) ∧ (st115.linkCarries = true) ∧ (st115.cascade.rxSeq = some 7) ∧ (7 < 65536) ∧ ((leBytes 8 256 ++ [0, 0] ++ leBytes 2 9 ++ leBytes 4 0 ++ List.replicate 8 1).length < 65536) ∧ (∀ (b : Byte), b ∈ leBytes 8 256 ++ [0, 0] ++ leBytes 2 9 ++ leBytes 4 0 ++ List.replicate 8 1 → b < 256) ∧ (st115.get MODE ≠ 0) ∧ (st115.get MODE ≠ 5) ∧ (¬(natAt (leBytes 8 256 ++ [0, 0] ++ leBytes 2 9 ++ leBytes 4 0 ++ List.replicate 8 1) 8 1 < 4 ∧ st115.get VIEW_CASCADE (natAt (leBytes 8 256 ++ [0, 0] ++ leBytes 2 9 ++ leBytes 4 0 ++ List.replicate 8 1) 8 1) ≠ 0 ∧ natAt (leBytes 8 256 ++ [0, 0] ++ leBytes 2 9 ++ leBytes 4 0 ++ List.replicate 8 1) 9 1 / 2 % 8 = st115.planeBits (natAt (leBytes 8 256 ++ [0, 0] ++ leBytes 2 9 ++ leBytes 4 0 ++ List.replicate 8 1) 8 1) / 2 ∧ natAt (leBytes 8 256 ++ [0, 0] ++ leBytes 2 9 ++ leBytes 4 0 ++ List.replicate 8 1) 10 2 = st115.get VIEW_CASCADE_OVERLAP (natAt (leBytes 8 256 ++ [0, 0] ++ leBytes 2 9 ++ leBytes 4 0 ++ List.replicate 8 1) 8 1)))) ∧
    ((st115.powered = true) ∧ (st115.get CASCADE_ENABLE = 1) ∧ (st115.linkCarries = true) ∧ (st115.cascade.rxSeq = some 7) ∧ (7 < 65536) ∧ ((leBytes 8 256 ++ [4, 0] ++ leBytes 2 8 ++ leBytes 4 0 ++ List.replicate 8 1).length < 65536) ∧ (∀ (b : Byte), b ∈ leBytes 8 256 ++ [4, 0] ++ leBytes 2 8 ++ leBytes 4 0 ++ List.replicate 8 1 → b < 256) ∧ (st115.get MODE ≠ 0) ∧ (st115.get MODE ≠ 5) ∧ (¬(natAt (leBytes 8 256 ++ [4, 0] ++ leBytes 2 8 ++ leBytes 4 0 ++ List.replicate 8 1) 8 1 < 4 ∧ st115.get VIEW_CASCADE (natAt (leBytes 8 256 ++ [4, 0] ++ leBytes 2 8 ++ leBytes 4 0 ++ List.replicate 8 1) 8 1) ≠ 0 ∧ natAt (leBytes 8 256 ++ [4, 0] ++ leBytes 2 8 ++ leBytes 4 0 ++ List.replicate 8 1) 9 1 / 2 % 8 = st115.planeBits (natAt (leBytes 8 256 ++ [4, 0] ++ leBytes 2 8 ++ leBytes 4 0 ++ List.replicate 8 1) 8 1) / 2 ∧ natAt (leBytes 8 256 ++ [4, 0] ++ leBytes 2 8 ++ leBytes 4 0 ++ List.replicate 8 1) 10 2 = st115.get VIEW_CASCADE_OVERLAP (natAt (leBytes 8 256 ++ [4, 0] ++ leBytes 2 8 ++ leBytes 4 0 ++ List.replicate 8 1) 8 1)))) := ⟨by decide +kernel, by decide +kernel⟩
theorem witness_MarksRowsAndLearning_1 :
    ((st275.powered = true) ∧ (st275.get REG_METHOD = 1) ∧ (st275.isSecondary = false) ∧ (st275.get MODE = 2 ∨ st275.get MODE = 3) ∧ (st275.unsearched = [rp]) ∧ (4000 ≠ rp.number)) ∧
    ((st275.powered = true) ∧ (st275.get REG_METHOD = 1) ∧ (st275.isSecondary = false) ∧ (st275.get MODE = 2 ∨ st275.get MODE = 3) ∧ (st275.unsearched = [rp]) ∧ (st275.markTemplate = none)) ∧
    ((st263.powered = true) ∧ (st263.get REG_METHOD = 1) ∧ (st263.isSecondary = false) ∧ (st263.get MODE = 2 ∨ st263.get MODE = 3) ∧ (st263.unsearched = [rpOld]) ∧ (st263.markTemplate = some tmpl) ∧ (st263.get REG_PHASE_STATE = 0 ∨ rpOld.phase = none) ∧ ((st263.advance 5).markSearch tmpl (max rpOld.first st263.web.sched.scan) (max (max rpOld.first st263.web.sched.scan) (st263.completeTo (max rpOld.first st263.web.sched.scan) (rpOld.last.getD st263.lastLine + templateTail tmpl) - templateTail tmpl)) = some 5)) ∧
    ((st267.powered = true) ∧ (st267.get REG_METHOD = 1) ∧ (st267.isSecondary = false) ∧ (st267.get MODE = 2 ∨ st267.get MODE = 3) ∧ (st267.unsearched = [rpGone]) ∧ (st267.markTemplate = some tmpl) ∧ (st267.get REG_PHASE_STATE = 0 ∨ rpGone.phase = none) ∧ ((st267.advance 5).markSearch tmpl (max rpGone.first st267.web.sched.scan) (max (max rpGone.first st267.web.sched.scan) (st267.completeTo (max rpGone.first st267.web.sched.scan) (rpGone.last.getD st267.lastLine + templateTail tmpl) - templateTail tmpl)) = some 5)) ∧
    ((st290.powered = true) ∧ (st290.get REG_METHOD = 1) ∧ (st290.isSecondary = false) ∧ (st290.get MODE = 2 ∨ st290.get MODE = 3) ∧ (st290.unsearched = [rpOld]) ∧ (st290.markTemplate = some tmpl) ∧ (st290.get REG_PHASE_STATE = 0 ∨ rpOld.phase = none) ∧ ((st290.advance 5).markSearch tmpl (max rpOld.first st290.web.sched.scan) (max (max rpOld.first st290.web.sched.scan) (st290.completeTo (max rpOld.first st290.web.sched.scan) (rpOld.last.getD st290.lastLine + templateTail tmpl) - templateTail tmpl)) = none)) ∧
    ((st291.powered = true) ∧ (st291.get REG_METHOD = 1) ∧ (st291.isSecondary = false) ∧ (st291.get MODE = 2 ∨ st291.get MODE = 3) ∧ (st291.unsearched = [rp]) ∧ (st291.markTemplate = some tmpl) ∧ (st291.get REG_PHASE_STATE = 0 ∨ rp.phase = none) ∧ ((st291.advance 5).markSearch tmpl (max rp.first st291.web.sched.scan) (max (max rp.first st291.web.sched.scan) (st291.completeTo (max rp.first st291.web.sched.scan) (rp.last.getD st291.lastLine + templateTail tmpl) - templateTail tmpl)) = none)) := ⟨by decide +kernel, by decide +kernel, by decide +kernel, by decide +kernel, by decide +kernel, by decide +kernel⟩
theorem witness_MarksRowsAndLearning_2 :
    ((st292.powered = true) ∧ (st292.get REG_METHOD = 1) ∧ (st292.isSecondary = false) ∧ (st292.get MODE = 2 ∨ st292.get MODE = 3) ∧ (st292.unsearched = [rpLate]) ∧ (st292.markTemplate = some tmpl) ∧ (st292.get REG_PHASE_STATE ≠ 0) ∧ (rpLate.phase ≠ none) ∧ (rpLate.markLine tmpl < ↑rpLate.first)) ∧
    ((st293.powered = true) ∧ (st293.get REG_METHOD = 1) ∧ (st293.isSecondary = false) ∧ (st293.get MODE = 2 ∨ st293.get MODE = 3) ∧ (st293.unsearched = [rp]) ∧ (st293.markTemplate = some tmpl) ∧ (st293.get REG_PHASE_STATE ≠ 0) ∧ (rp.phase ≠ none) ∧ (↑rp.first ≤ rp.markLine tmpl) ∧ (¬(Option.map CStrip.complete (st293.strip (st293.get REG_MARK_VIEW) (((rp.markLine tmpl + ↑(natAt tmpl 10 2)).toNat + templateTail tmpl) / 256))).getD (decide (256 * (((rp.markLine tmpl + ↑(natAt tmpl 10 2)).toNat + templateTail tmpl) / 256) + 255 < st293.get LINE_NUMBER)) = true)) ∧
    ((st266.powered = true) ∧ (st266.get REG_METHOD = 1) ∧ (st266.isSecondary = false) ∧ (st266.get MODE = 2 ∨ st266.get MODE = 3) ∧ (st266.unsearched = [rp]) ∧ (st266.markTemplate = some tmpl) ∧ (st266.get REG_PHASE_STATE ≠ 0) ∧ (rp.phase ≠ none) ∧ (↑rp.first ≤ rp.markLine tmpl) ∧ ((Option.map CStrip.complete (st266.strip (st266.get REG_MARK_VIEW) (((rp.markLine tmpl + ↑(natAt tmpl 10 2)).toNat + templateTail tmpl) / 256))).getD (decide (256 * (((rp.markLine tmpl + ↑(natAt tmpl 10 2)).toNat + templateTail tmpl) / 256) + 255 < st266.get LINE_NUMBER)) = true) ∧ ((st266.advance 5).markSearch tmpl (rp.markLine tmpl - ↑(natAt tmpl 10 2)).toNat ((rp.markLine tmpl + ↑(natAt tmpl 10 2)).toNat + 1) = none)) ∧
    ((st264.powered = true) ∧ (st264.get REG_METHOD = 1) ∧ (st264.isSecondary = false) ∧ (st264.get MODE = 2 ∨ st264.get MODE = 3) ∧ (st264.unsearched = [rp]) ∧ (st264.markTemplate = some tmpl) ∧ (st264.get REG_PHASE_STATE ≠ 0) ∧ (rp.phase ≠ none) ∧ (↑rp.first ≤ rp.markLine tmpl) ∧ ((Option.map CStrip.complete (st264.strip (st264.get REG_MARK_VIEW) (((rp.markLine tmpl + ↑(natAt tmpl 10 2)).toNat + templateTail tmpl) / 256))).getD (decide (256 * (((rp.markLine tmpl + ↑(natAt tmpl 10 2)).toNat + templateTail tmpl) / 256) + 255 < st264.get LINE_NUMBER)) = true) ∧ ((st264.advance 5).markSearch tmpl (rp.markLine tmpl - ↑(natAt tmpl 10 2)).toNat ((rp.markLine tmpl + ↑(natAt tmpl 10 2)).toNat + 1) = some 5)) ∧
    ((st265.powered = true) ∧ (st265.get REG_METHOD = 1) ∧ (st265.isSecondary = false) ∧ (st265.get MODE = 2 ∨ st265.get MODE = 3) ∧ (st265.unsearched = [rpOld]) ∧ (st265.markTemplate = some tmpl) ∧ (st265.get REG_PHASE_STATE ≠ 0) ∧ (rpOld.phase ≠ none) ∧ (↑rpOld.first ≤ rpOld.markLine tmpl) ∧ ((Option.map CStrip.complete (st265.strip (st265.get REG_MARK_VIEW) (((rpOld.markLine tmpl + ↑(natAt tmpl 10 2)).toNat + templateTail tmpl) / 256))).getD (decide (256 * (((rpOld.markLine tmpl + ↑(natAt tmpl 10 2)).toNat + templateTail tmpl) / 256) + 255 < st265.get LINE_NUMBER)) = true) ∧ ((st265.advance 5).markSearch tmpl (rpOld.markLine tmpl - ↑(natAt tmpl 10 2)).toNat ((rpOld.markLine tmpl + ↑(natAt tmpl 10 2)).toNat + 1) = some 5)) ∧
    ((st268.powered = true) ∧ (3 < 4) ∧ (st268.get MODE ≠ 0) ∧ (st268.get MODE ≠ 5) ∧ (List.find? (fun f => !st268.fieldDone f) (st268.reg 3).fields = some field9) ∧ (st268.repOf field9.rep = some rpLong) ∧ (st268.rowDue 3 rpLong (field9.first + field9.rows.length) = true)) := ⟨by decide +kernel, by decide +kernel, by decide +kernel, by decide +kernel, by decide +kernel, by decide +kernel⟩
theorem witness_MarksRowsAndLearning_3 :
    ((st268.powered = true) ∧ (3 < 4) ∧ (List.find? (fun f => !st268.fieldDone f) (st268.reg 3).fields = some field9) ∧ (4000 ≠ field9.first + field9.rows.length)) ∧
    ((st53.powered = true) ∧ (st53.get MODE = 2)) ∧
    ((st116.powered = true) ∧ (st116.get MODE ≠ 2)) ∧
    ((st53.powered = true) ∧ (st53.get MODE = 1 ∨ st53.get MODE = 2) ∧ (st53.learningAny = false)) ∧
    ((st117.powered = true) ∧ (st117.get MODE = 1 ∨ st117.get MODE = 2) ∧ (st117.learningAny = true)) ∧
    ((st116.powered = true) ∧ (st116.get MODE ≠ 1) ∧ (st116.get MODE ≠ 2)) := ⟨by decide +kernel, by decide +kernel, by decide +kernel, by decide +kernel, by decide +kernel, by decide +kernel⟩
theorem witness_TasksOfTheFabric_1 :
    ((st118.powered = true) ∧ (soundCheck st118 = true) ∧ (st118.get MODE ≠ 0) ∧ (st118.get MODE ≠ 5) ∧ (0 < 4) ∧ (List.find? (fun x => x.released && x.analysis && !x.issued && !x.left_) ((st118.advance 5).tilesWake.view 0).strips = some relx) ∧ ((st118.advance 5).tilesWake.canIssue 0 relx = true)) ∧
    ((st119.powered = true) ∧ (soundCheck st119 = true) ∧ (st119.get MODE ≠ 0) ∧ (st119.get MODE ≠ 5) ∧ (0 < 4) ∧ (List.find? (fun x => x.released && x.analysis && !x.issued && !x.left_) ((st119.advance 5).tilesWake.view 0).strips = some relx) ∧ ((st119.advance 5).tilesWake.canIssue 0 relx = true)) ∧
    ((st119.powered = true) ∧ (soundCheck st119 = true) ∧ (st119.get MODE ≠ 0) ∧ (st119.get MODE ≠ 5) ∧ (0 < 4) ∧ (List.find? (fun x => x.released && x.analysis && !x.issued && !x.left_) ((st119.advance 5).tilesWake.view 0).strips = some relx) ∧ ((st119.advance 5).tilesWake.canIssue 0 relx = true) ∧ (∃ i, i < 256 ∧ ((st119.advance 5).tilesWake.repAt (256 * relx.num + i)).isSome = true ∧ (st119.advance 5).tilesWake.lineInspected 0 (256 * relx.num + i) = false) ∧ (bit relx.flags 3 = false)) ∧
    ((st118.powered = true) ∧ (soundCheck st118 = true) ∧ (st118.get MODE ≠ 0) ∧ (st118.get MODE ≠ 5) ∧ (0 < 4) ∧ (List.find? (fun x => x.released && x.analysis && !x.issued && !x.left_) ((st118.advance 5).tilesWake.view 0).strips = some relx) ∧ ((st118.advance 5).tilesWake.canIssue 0 relx = true) ∧ (∀ (i : Nat), i < 256 → (st118.advance 5).tilesWake.repAt (256 * relx.num + i) = none)) ∧
    ((st120.powered = true) ∧ (soundCheck st120 = true) ∧ (st120.get MODE ≠ 0) ∧ (st120.get MODE ≠ 5) ∧ (5 < 104) ∧ (st120.tileStale 5 0 = false) ∧ ((st120.advance 5).tilesWake.servedBy 5 = some 5) ∧ (((st120.advance 5).tilesWake.tile 5).queue = [tk]) ∧ (((st120.advance 5).tilesWake.headRun 5).snd = some (tk, out1)) ∧ (tk.sent < out1.frags.length)) ∧
    ((st294.powered = true) ∧ (soundCheck st294 = true) ∧ (st294.get MODE ≠ 0) ∧ (st294.get MODE ≠ 5) ∧ (5 < 104) ∧ (st294.tileStale 5 0 = false) ∧ ((st294.advance 5).tilesWake.servedBy 5 = some 5) ∧ (((st294.advance 5).tilesWake.tile 5).queue = [tkSent]) ∧ (((st294.advance 5).tilesWake.headRun 5).snd = some (tkSent, out1)) ∧ (out1.frags.length ≤ tkSent.sent)) := ⟨by decide +kernel, by decide +kernel, by decide +kernel, by decide +kernel, by decide +kernel, by decide +kernel⟩
theorem witness_TasksOfTheFabric_2 :
    ((st121.powered = true) ∧ (soundCheck st121 = true) ∧ (st121.get MODE ≠ 0) ∧ (st121.get MODE ≠ 5) ∧ (5 < 104) ∧ (st121.tileStale 5 0 = false) ∧ ((st121.advance 5).tilesWake.servedBy 5 = some 5) ∧ (((st121.advance 5).tilesWake.tile 5).queue = [tkDone]) ∧ (((st121.advance 5).tilesWake.headRun 5).snd = some (tkDone, out1)) ∧ (tkDone.counted = true ∨ ∀ (d : Nat), (st121.advance 5).tilesWake.tileDeadline tkDone = some d → st121.now + 5 ≤ ((st121.advance 5).tilesWake.tile 5).clock + d)) ∧
    ((st269.powered = true) ∧ (soundCheck st269 = true) ∧ (st269.get MODE ≠ 0) ∧ (st269.get MODE ≠ 5) ∧ (5 < 104) ∧ (st269.tileStale 5 0 = false) ∧ ((st269.advance 1000).tilesWake.servedBy 5 = some 5) ∧ (((st269.advance 1000).tilesWake.tile 5).queue = [tk]) ∧ (((st269.advance 1000).tilesWake.headRun 5).snd = some (tk, out1)) ∧ (tk.counted = true ∨ ∀ (d : Nat), (st269.advance 1000).tilesWake.tileDeadline tk = some d → st269.now + 1000 ≤ ((st269.advance 1000).tilesWake.tile 5).clock + d)) ∧
    ((st122.powered = true) ∧ (soundCheck st122 = true) ∧ (st122.get MODE ≠ 0) ∧ (st122.get MODE ≠ 5) ∧ (103 < 104) ∧ (st122.tileStale 103 0 = true)) ∧
    ((st123.powered = true) ∧ (soundCheck st123 = true) ∧ (st123.get MODE ≠ 0) ∧ (st123.get MODE ≠ 5) ∧ (103 < 104) ∧ (st123.tileStale 103 0 = true)) ∧
    ((st270.powered = true) ∧ (soundCheck st270 = true) ∧ (st270.get MODE ≠ 0) ∧ (st270.get MODE ≠ 5) ∧ (5 < 104) ∧ (st270.tileStale 5 0 = true)) ∧
    ((st116.powered = true) ∧ (soundCheck st116 = true) ∧ (st116.get MODE ≠ 0) ∧ (st116.get MODE ≠ 5) ∧ (st116.tideWin + 100000000 ≤ st116.now + 100000000)) := ⟨by decide +kernel, by decide +kernel, by decide +kernel, by decide +kernel, by decide +kernel, by decide +kernel⟩
theorem witness_TideCommits :
    ((st124.powered = true) ∧ (st124.get TIDE_PENDING = 1 ∨ st124.get SWITCH_STATE = 1 ∨ st124.get SWITCH_STATE = 2 ∨ st124.get SWITCH_STATE = 3)) ∧
    ((st125.powered = true) ∧ (st125.get TIDE_PENDING = 1 ∨ st125.get SWITCH_STATE = 1 ∨ st125.get SWITCH_STATE = 2 ∨ st125.get SWITCH_STATE = 3)) ∧
    ((st126.powered = true) ∧ (st126.get TIDE_PENDING ≠ 1) ∧ (st126.get SWITCH_STATE ≠ 1) ∧ (st126.get SWITCH_STATE ≠ 2) ∧ (st126.get SWITCH_STATE ≠ 3) ∧ (65535 < 65536) ∧ (tideCheck (tideImage (st126.blob TIDE_IMAGE)) = some 65535)) ∧
    ((st116.powered = true) ∧ (st116.get TIDE_PENDING ≠ 1) ∧ (st116.get SWITCH_STATE ≠ 1) ∧ (st116.get SWITCH_STATE ≠ 2) ∧ (st116.get SWITCH_STATE ≠ 3) ∧ (tideCheck (tideImage (st116.blob TIDE_IMAGE)) = none) ∧ (st116.tideLimits (tideImage (st116.blob TIDE_IMAGE)) = 0) ∧ (st116.get MODE = 2 ∨ st116.get MODE = 3 ∨ st116.get MODE = 5)) ∧
    ((st89.powered = true) ∧ (st89.get TIDE_PENDING ≠ 1) ∧ (st89.get SWITCH_STATE ≠ 1) ∧ (st89.get SWITCH_STATE ≠ 2) ∧ (st89.get SWITCH_STATE ≠ 3) ∧ (tideCheck (tideImage (st89.blob TIDE_IMAGE)) = none) ∧ (st89.tideLimits (tideImage (st89.blob TIDE_IMAGE)) = 0) ∧ (st89.get MODE = 2 ∨ st89.get MODE = 3 ∨ st89.get MODE = 5)) ∧
    ((st90.powered = true) ∧ (st90.get TIDE_PENDING ≠ 1) ∧ (st90.get SWITCH_STATE ≠ 1) ∧ (st90.get SWITCH_STATE ≠ 2) ∧ (st90.get SWITCH_STATE ≠ 3) ∧ (tideCheck (tideImage (st90.blob TIDE_IMAGE)) = none) ∧ (st90.tideLimits (tideImage (st90.blob TIDE_IMAGE)) = 0) ∧ (st90.get MODE = 0 ∨ st90.get MODE = 1 ∨ st90.get MODE = 4)) := ⟨by decide +kernel, by decide +kernel, by decide +kernel, by decide +kernel, by decide +kernel, by decide +kernel⟩
theorem witness_TileHeartbeatsAndSpares_1 :
    ((st127.powered = true) ∧ (5 < 96) ∧ (st127.get MODE ≠ 0) ∧ (st127.get MODE ≠ 5) ∧ (List.findIdx? (fun t => !t.counted) ((st127.advance 1000000).tilesWake.tile 5).queue = some 0) ∧ (st127.get TILE_PHYS 5 < 104) ∧ (st127.get TILE_PHYS_STATE (st127.get TILE_PHYS 5) = 0) ∧ (((st127.advance 1000000).tilesWake.tile 5).queue[0]?.bind (st127.advance 1000000).tilesWake.tileDeadline = some 1000) ∧ (((st127.advance 1000000).tilesWake.tile 5).clock + 1000 < st127.now + 1000000) ∧ (((st127.advance 1000000).tilesWake.tile 5).misses < 2)) ∧
    ((st128.powered = true) ∧ (5 < 96) ∧ (st128.get MODE ≠ 0) ∧ (st128.get MODE ≠ 5) ∧ (List.findIdx? (fun t => !t.counted) ((st128.advance 1000000).tilesWake.tile 5).queue = some 0) ∧ (st128.get TILE_PHYS 5 < 104) ∧ (st128.get TILE_PHYS_STATE (st128.get TILE_PHYS 5) = 0) ∧ (((st128.advance 1000000).tilesWake.tile 5).queue[0]?.bind (st128.advance 1000000).tilesWake.tileDeadline = some 1000) ∧ (((st128.advance 1000000).tilesWake.tile 5).clock + 1000 < st128.now + 1000000) ∧ (2 ≤ ((st128.advance 1000000).tilesWake.tile 5).misses) ∧ (st128.spareTile = some 96)) ∧
    ((st129.powered = true) ∧ (5 < 96) ∧ (st129.get MODE ≠ 0) ∧ (st129.get MODE ≠ 5) ∧ (List.findIdx? (fun t => !t.counted) ((st129.advance 1000000).tilesWake.tile 5).queue = some 0) ∧ (st129.get TILE_PHYS 5 < 104) ∧ (st129.get TILE_PHYS_STATE (st129.get TILE_PHYS 5) = 0) ∧ (((st129.advance 1000000).tilesWake.tile 5).queue[0]?.bind (st129.advance 1000000).tilesWake.tileDeadline = some 1000) ∧ (((st129.advance 1000000).tilesWake.tile 5).clock + 1000 < st129.now + 1000000) ∧ (2 ≤ ((st129.advance 1000000).tilesWake.tile 5).misses) ∧ (st129.spareTile = none)) ∧
    ((st133.powered = true) ∧ (0 < 96) ∧ (0 < st133.tiles.length) ∧ (st133.get MODE = 2 ∨ st133.get MODE = 3) ∧ ((st133.advance 5000000).tilesWake.tileState 0 = 1) ∧ (((st133.advance 5000000).tilesWake.tile 0).lastTask + 5000000 ≤ st133.now + 5000000) ∧ (((st133.advance 5000000).tilesWake.tile 0).queue.length < 4)) ∧
    ((st262.powered = true) ∧ (103 < 104) ∧ (st262.get MODE = 0 ∨ st262.get MODE = 1) ∧ (st262.get TILE_PHYS_STATE 103 = 2) ∧ (st262.bench.tileTest = none) ∧ (st262.asDormant = true ∨ st262.wrapperClosed (103 / 4) = false)) ∧
    ((st276.powered = true) ∧ (103 < 104) ∧ (st276.get MODE = 0 ∨ st276.get MODE = 1) ∧ (st276.get TILE_PHYS_STATE 103 = 2) ∧ (st276.bench.tileTest = none) ∧ (st276.asDormant = true ∨ st276.wrapperClosed (103 / 4) = false)) := ⟨by decide +kernel, by decide +kernel, by decide +kernel, by decide +kernel, by decide +kernel, by decide +kernel⟩
theorem witness_TileHeartbeatsAndSpares_2 :
    ((st130.powered = true) ∧ (103 < 104) ∧ (st130.get MODE = 1) ∧ (st130.get TILE_PHYS_STATE 103 = 2) ∧ (st130.bench.tileTest = none) ∧ (st130.wrapperClosed (103 / 4) = true)) ∧
    ((st105.powered = true) ∧ (103 < 104) ∧ (st105.get TILE_PHYS_STATE 103 ≠ 2)) ∧
    ((st131.powered = true) ∧ (103 < 104) ∧ (st131.bench.tileTest = some (103, 0))) ∧
    ((st105.powered = true) ∧ (103 < 104) ∧ (st105.asDormant = false) ∧ (st105.get TILE_PHYS_STATE 103 = 1) ∧ (st105.bench.tileCheck = none) ∧ ((st105.bench.tileAt.look 103).getD 0 + 600000000000 ≤ st105.now + 600000000000)) ∧
    ((st132.powered = true) ∧ (103 < 104) ∧ (st132.bench.tileCheck = some (103, 0)) ∧ (st132.get TILE_PHYS_STATE 103 = 1)) := ⟨by decide +kernel, by decide +kernel, by decide +kernel, by decide +kernel, by decide +kernel⟩
theorem witness_BoundaryRejectsAndMarkers_1 :
    ((st295.powered = true) ∧ (st295.get CASCADE_ENABLE = 1) ∧ (st295.get CASCADE_ROLE = 0) ∧ (st295.linkCarries = true) ∧ (st295.cascade.rxSeq = some 7) ∧ (7 < 65536) ∧ (fragP.length = 64) ∧ (∀ (b : Byte), b ∈ fragP → b < 256) ∧ (st295.get MODE ≠ 0) ∧ (st295.get MODE ≠ 5) ∧ ((st295.candOfPayload fragP).view < 4) ∧ (st295.get VIEW_CASCADE (st295.candOfPayload fragP).view = 1) ∧ ((st295.asm.waiting.any fun c => c.own && c.near (st295.candOfPayload fragP)) = true)) ∧
    ((st115.powered = true) ∧ (st115.get CASCADE_ENABLE = 1) ∧ (st115.get CASCADE_ROLE = 0) ∧ (st115.linkCarries = true) ∧ (st115.cascade.rxSeq = some 7) ∧ (7 < 65536) ∧ (fragP.length = 64) ∧ (∀ (b : Byte), b ∈ fragP → b < 256) ∧ (st115.get MODE ≠ 0) ∧ (st115.get MODE ≠ 5) ∧ ((st115.candOfPayload fragP).view < 4) ∧ (st115.get VIEW_CASCADE (st115.candOfPayload fragP).view = 1) ∧ ((st115.asm.waiting.any fun c => c.own && c.near (st115.candOfPayload fragP)) = false) ∧ ((st115.asm.expired.any fun e => (st115.candOfPayload fragP).near { view := e.fst, x0 := e.snd.fst, x1 := e.snd.snd.fst, y0 := e.snd.snd.snd.fst, y1 := e.snd.snd.snd.snd }) = false)) ∧
    ((st134.powered = true) ∧ (st134.get CASCADE_ENABLE = 1) ∧ (st134.get CASCADE_ROLE = 0) ∧ (st134.linkCarries = true) ∧ (st134.cascade.rxSeq = some 7) ∧ (7 < 65536) ∧ (fragP.length = 64) ∧ (∀ (b : Byte), b ∈ fragP → b < 256) ∧ (st134.get MODE ≠ 0) ∧ (st134.get MODE ≠ 5) ∧ ((st134.candOfPayload fragP).view < 4) ∧ (st134.get VIEW_CASCADE (st134.candOfPayload fragP).view = 1) ∧ ((st134.asm.waiting.any fun c => c.own && c.near (st134.candOfPayload fragP)) = false) ∧ ((st134.asm.expired.any fun e => (st134.candOfPayload fragP).near { view := e.fst, x0 := e.snd.fst, x1 := e.snd.snd.fst, y0 := e.snd.snd.snd.fst, y1 := e.snd.snd.snd.snd }) = true)) ∧
    ((st116.powered = true) ∧ (st116.get MODE ≠ 5)) ∧
    ((st89.powered = true) ∧ (st89.get MODE = 5)) ∧
    ((st135.powered = true) ∧ (st135.reject.queue = [{ word := 1, rep := 1, row := 0, seq := 0 }]) ∧ (st135.reject.holdUntil ≤ st135.now + 5)) := ⟨by decide +kernel, by decide +kernel, by decide +kernel, by decide +kernel, by decide +kernel, by decide +kernel⟩
theorem witness_BoundaryRejectsAndMarkers_2 :
    ((st136.powered = true) ∧ (15 < 16) ∧ ((st136.marker 15).on = true) ∧ ((st136.advance 5).markEnded (st136.marker 15) = true)) ∧
    ((st137.powered = true) ∧ (15 < 16) ∧ ((st137.marker 15).on = true) ∧ ((st137.advance 5).markEnded (st137.marker 15) = false)) ∧
    ((st136.powered = true) ∧ (15 < 16) ∧ ((st136.marker 15).on = true) ∧ ((st136.marker 15).since + st136.get MARK_MAX_ON_MS 15 * 1000000 ≤ st136.now + 1000000000000)) ∧
    ((st136.powered = true) ∧ (15 < 16) ∧ ((st136.marker 15).on = true)) := ⟨by decide +kernel, by decide +kernel, by decide +kernel, by decide +kernel⟩
theorem witness_FilterChainGroups_1 :
    ((st138.powered = true) ∧ (3 < 4) ∧ (3 < st138.filter.groups.length) ∧ ((st138.grp 3).nextAt ≤ st138.now + 3200) ∧ ((groupChans 3)[0]? = some ((groupChans 3).headD 0))) ∧
    ((st105.powered = true) ∧ (3 < 4) ∧ (3 < st105.filter.groups.length) ∧ (st105.now + 5 < (st105.grp 3).nextAt)) ∧
    ((st105.powered = true) ∧ (3 < 4) ∧ (3 < st105.filter.groups.length) ∧ (2 ≤ 2) ∧ (∀ (d : Nat), d < 4 → st105.detGroup d = 3 → (st105.set FC_PRESET 3 2).detTooFast d = false)) ∧
    ((st296.powered = true) ∧ (0 < 4) ∧ (0 < st296.filter.groups.length) ∧ (2 ≤ 2) ∧ (3 < 4) ∧ (st296.detGroup 3 = 0) ∧ ((st296.set FC_PRESET 0 2).detTooFast 3 = true)) ∧
    ((st105.powered = true) ∧ (3 < 4) ∧ (3 < st105.filter.groups.length) ∧ (2 < 3)) ∧
    ((st139.powered = true) ∧ (3 < 4) ∧ (3 < st139.filter.groups.length) ∧ (st139.get FC_FADE_STATE 3 = 1)) := ⟨by decide +kernel, by decide +kernel, by decide +kernel, by decide +kernel, by decide +kernel, by decide +kernel⟩
theorem witness_FilterChainGroups_2 :
    ((st140.powered = true) ∧ (3 < 4) ∧ (3 < st140.filter.groups.length) ∧ (st140.get FC_FADE_STATE 3 ≠ 1) ∧ (bankOk (st140.get FC_PRESET 3) (st140.grp 3).standby = false)) ∧
    ((st105.powered = true) ∧ (3 < 4) ∧ (3 < st105.filter.groups.length) ∧ (st105.get FC_FADE_STATE 3 ≠ 1) ∧ (bankOk (st105.get FC_PRESET 3) (st105.grp 3).standby = true)) ∧
    ((st141.powered = true) ∧ (3 < 4) ∧ (3 < st141.filter.groups.length) ∧ (st141.get FC_FADE_STATE 3 ≠ 1) ∧ (bankOk (st141.get FC_PRESET 3) (st141.grp 3).standby = true)) ∧
    ((st105.powered = true) ∧ (3 < 4) ∧ (3 < st105.filter.groups.length) ∧ (st105.get FC_FADE_STATE 3 ≠ 1)) ∧
    ((st105.powered = true) ∧ (3 < 4) ∧ (3 < st105.filter.groups.length) ∧ (15 ≤ 15)) ∧
    ((st105.powered = true) ∧ (3 < 4) ∧ (3 < st105.filter.groups.length) ∧ (0 ≤ 15)) := ⟨by decide +kernel, by decide +kernel, by decide +kernel, by decide +kernel, by decide +kernel, by decide +kernel⟩
theorem witness_FilterChainGroups_3 :
    ((st105.powered = true) ∧ (3 < 4) ∧ (3 < st105.filter.groups.length) ∧ (15 < 16)) ∧
    ((st105.powered = true) ∧ (3 < 4) ∧ (3 < st105.filter.groups.length)) := ⟨by decide +kernel, by decide +kernel⟩
theorem witness_EventCycle_1 :
    ((st142.powered = true) ∧ (63 < 64) ∧ (st142.evt.cycle < (st142.now + 8) / 4) ∧ (st142.chanDeaf 63 = false) ∧ ((st142.chan 63).held = false) ∧ ((st142.chan 63).freeAt ≤ (st142.now + 8) / 4) ∧ ((st142.chan 63).reg = true ∨ ∃ e, e ∈ st142.evt.fired ∧ e.fst < (st142.advance 8).nextCycle ∧ st142.chanTakes 63 e = true)) ∧
    ((st143.powered = true) ∧ (63 < 64) ∧ (st143.evt.cycle < (st143.now + 8) / 4) ∧ (st143.chanDeaf 63 = false) ∧ ((st143.chan 63).held = false) ∧ ((st143.chan 63).freeAt ≤ (st143.now + 8) / 4) ∧ ((st143.chan 63).reg = true ∨ ∃ e, e ∈ st143.evt.fired ∧ e.fst < (st143.advance 8).nextCycle ∧ st143.chanTakes 63 e = true)) ∧
    ((st297.powered = true) ∧ (63 < 64) ∧ (st297.evt.cycle < (st297.now + 8) / 4) ∧ (st297.chanDeaf 63 = false) ∧ ((st297.chan 63).held = false) ∧ ((st297.chan 63).freeAt ≤ (st297.now + 8) / 4) ∧ ((st297.chan 63).reg = true ∨ ∃ e, e ∈ st297.evt.fired ∧ e.fst < (st297.advance 8).nextCycle ∧ st297.chanTakes 63 e = true)) ∧
    ((st105.powered = true) ∧ ((st105.now + 3) / 4 ≤ st105.evt.cycle)) ∧
    ((st144.powered = true) ∧ (31 < 32) ∧ (st144.evt.cells[31]? = some cellOn) ∧ (cellOn.timing = true) ∧ (cellOn.reportAt ≤ (st144.now + 5) / 4)) ∧
    ((st145.powered = true) ∧ (63 < 64) ∧ ((st145.chan 63).held = true) ∧ ((st145.chan 63).freeAt ≤ (st145.now + 5) / 4)) := ⟨by decide +kernel, by decide +kernel, by decide +kernel, by decide +kernel, by decide +kernel, by decide +kernel⟩
theorem witness_EventCycle_2 :
    ((st298.powered = true) ∧ (63 < 64) ∧ ((st298.chan 63).held = true) ∧ ((st298.chan 63).freeAt ≤ (st298.now + 5) / 4)) ∧
    ((st146.powered = true) ∧ (63 < 64) ∧ (63 < st146.evt.chans.length) ∧ (st146.chanOn 63 = true) ∧ ((st146.chan 63).windowEnd ≤ (st146.now + 5) / 4)) ∧
    ((st147.powered = true) ∧ (15 < 16) ∧ (st147.get TIMER_STATE 15 ≠ 0) ∧ (st147.evt.timerAt.getD 15 0 ≤ (st147.now + 5) / 4) ∧ (st147.evt.taskPend.contains (17 + 15) = false)) ∧
    ((st148.powered = true) ∧ (15 < 16) ∧ (st148.get TIMER_STATE 15 ≠ 0) ∧ (st148.evt.timerAt.getD 15 0 ≤ (st148.now + 5) / 4) ∧ (st148.evt.taskPend.contains (17 + 15) = true)) := ⟨by decide +kernel, by decide +kernel, by decide +kernel, by decide +kernel⟩
theorem witness_TaskInputs_1 :
    ((st148.powered = true) ∧ (st148.evt.taskPend.contains 32 = true) ∧ ((∃ n, n < 16 ∧ (Instr.timerStart 5 15, 32) ∈ [(Instr.markPulse 5 n, 1 + n), (Instr.timerStart 5 n, 17 + n), (Instr.timerStop 5 n, 33 + n), (Instr.latch 5 n, 49 + n), (Instr.evtCount 5 n, 65 + n), (Instr.hostEvt 5 n, 81 + n), (Instr.ecatToggle 5 n, 97 + n)]) ∨ (∃ n, n < 4 ∧ (Instr.timerStart 5 15, 32) ∈ [(Instr.fcSyncGroup 5 n, 113 + n), (Instr.detStart 5 n, 117 + n)]) ∨ (∃ n, n < 2 ∧ (Instr.timerStart 5 15, 32) = (Instr.pulseZero 5 n, 122 + n)) ∨ (Instr.timerStart 5 15, 32) ∈ [(Instr.holdRequest 5, 126), (Instr.traceMark 5, 127)])) ∧
    ((st299.powered = true) ∧ (st299.evt.taskPend.contains 126 = true) ∧ ((∃ n, n < 16 ∧ (Instr.holdRequest 5, 126) ∈ [(Instr.markPulse 5 n, 1 + n), (Instr.timerStart 5 n, 17 + n), (Instr.timerStop 5 n, 33 + n), (Instr.latch 5 n, 49 + n), (Instr.evtCount 5 n, 65 + n), (Instr.hostEvt 5 n, 81 + n), (Instr.ecatToggle 5 n, 97 + n)]) ∨ (∃ n, n < 4 ∧ (Instr.holdRequest 5, 126) ∈ [(Instr.fcSyncGroup 5 n, 113 + n), (Instr.detStart 5 n, 117 + n)]) ∨ (∃ n, n < 2 ∧ (Instr.holdRequest 5, 126) = (Instr.pulseZero 5 n, 122 + n)) ∨ (Instr.holdRequest 5, 126) ∈ [(Instr.holdRequest 5, 126), (Instr.traceMark 5, 127)])) ∧
    ((st299.powered = true) ∧ (st299.evt.taskPend.contains 16 = true) ∧ ((∃ n, n < 16 ∧ (Instr.markPulse 5 15, 16) ∈ [(Instr.markPulse 5 n, 1 + n), (Instr.timerStart 5 n, 17 + n), (Instr.timerStop 5 n, 33 + n), (Instr.latch 5 n, 49 + n), (Instr.evtCount 5 n, 65 + n), (Instr.hostEvt 5 n, 81 + n), (Instr.ecatToggle 5 n, 97 + n)]) ∨ (∃ n, n < 4 ∧ (Instr.markPulse 5 15, 16) ∈ [(Instr.fcSyncGroup 5 n, 113 + n), (Instr.detStart 5 n, 117 + n)]) ∨ (∃ n, n < 2 ∧ (Instr.markPulse 5 15, 16) = (Instr.pulseZero 5 n, 122 + n)) ∨ (Instr.markPulse 5 15, 16) ∈ [(Instr.holdRequest 5, 126), (Instr.traceMark 5, 127)])) ∧
    ((st299.powered = true) ∧ (st299.evt.taskPend.contains 116 = true) ∧ ((∃ n, n < 16 ∧ (Instr.fcSyncGroup 5 3, 116) ∈ [(Instr.markPulse 5 n, 1 + n), (Instr.timerStart 5 n, 17 + n), (Instr.timerStop 5 n, 33 + n), (Instr.latch 5 n, 49 + n), (Instr.evtCount 5 n, 65 + n), (Instr.hostEvt 5 n, 81 + n), (Instr.ecatToggle 5 n, 97 + n)]) ∨ (∃ n, n < 4 ∧ (Instr.fcSyncGroup 5 3, 116) ∈ [(Instr.fcSyncGroup 5 n, 113 + n), (Instr.detStart 5 n, 117 + n)]) ∨ (∃ n, n < 2 ∧ (Instr.fcSyncGroup 5 3, 116) = (Instr.pulseZero 5 n, 122 + n)) ∨ (Instr.fcSyncGroup 5 3, 116) ∈ [(Instr.holdRequest 5, 126), (Instr.traceMark 5, 127)])) ∧
    ((st299.powered = true) ∧ (st299.evt.taskPend.contains 120 = true) ∧ ((∃ n, n < 16 ∧ (Instr.detStart 5 3, 120) ∈ [(Instr.markPulse 5 n, 1 + n), (Instr.timerStart 5 n, 17 + n), (Instr.timerStop 5 n, 33 + n), (Instr.latch 5 n, 49 + n), (Instr.evtCount 5 n, 65 + n), (Instr.hostEvt 5 n, 81 + n), (Instr.ecatToggle 5 n, 97 + n)]) ∨ (∃ n, n < 4 ∧ (Instr.detStart 5 3, 120) ∈ [(Instr.fcSyncGroup 5 n, 113 + n), (Instr.detStart 5 n, 117 + n)]) ∨ (∃ n, n < 2 ∧ (Instr.detStart 5 3, 120) = (Instr.pulseZero 5 n, 122 + n)) ∨ (Instr.detStart 5 3, 120) ∈ [(Instr.holdRequest 5, 126), (Instr.traceMark 5, 127)])) ∧
    ((st299.powered = true) ∧ (st299.evt.taskPend.contains 123 = true) ∧ ((∃ n, n < 16 ∧ (Instr.pulseZero 5 1, 123) ∈ [(Instr.markPulse 5 n, 1 + n), (Instr.timerStart 5 n, 17 + n), (Instr.timerStop 5 n, 33 + n), (Instr.latch 5 n, 49 + n), (Instr.evtCount 5 n, 65 + n), (Instr.hostEvt 5 n, 81 + n), (Instr.ecatToggle 5 n, 97 + n)]) ∨ (∃ n, n < 4 ∧ (Instr.pulseZero 5 1, 123) ∈ [(Instr.fcSyncGroup 5 n, 113 + n), (Instr.detStart 5 n, 117 + n)]) ∨ (∃ n, n < 2 ∧ (Instr.pulseZero 5 1, 123) = (Instr.pulseZero 5 n, 122 + n)) ∨ (Instr.pulseZero 5 1, 123) ∈ [(Instr.holdRequest 5, 126), (Instr.traceMark 5, 127)])) := ⟨by decide +kernel, by decide +kernel, by decide +kernel, by decide +kernel, by decide +kernel, by decide +kernel⟩
theorem witness_TaskInputs_2 :
    ((st299.powered = true) ∧ (st299.evt.taskPend.contains 127 = true) ∧ ((∃ n, n < 16 ∧ (Instr.traceMark 5, 127) ∈ [(Instr.markPulse 5 n, 1 + n), (Instr.timerStart 5 n, 17 + n), (Instr.timerStop 5 n, 33 + n), (Instr.latch 5 n, 49 + n), (Instr.evtCount 5 n, 65 + n), (Instr.hostEvt 5 n, 81 + n), (Instr.ecatToggle 5 n, 97 + n)]) ∨ (∃ n, n < 4 ∧ (Instr.traceMark 5, 127) ∈ [(Instr.fcSyncGroup 5 n, 113 + n), (Instr.detStart 5 n, 117 + n)]) ∨ (∃ n, n < 2 ∧ (Instr.traceMark 5, 127) = (Instr.pulseZero 5 n, 122 + n)) ∨ (Instr.traceMark 5, 127) ∈ [(Instr.holdRequest 5, 126), (Instr.traceMark 5, 127)])) ∧
    ((st149.powered = true) ∧ (15 < 16) ∧ (15 < st149.motion.markers.length) ∧ (st149.evt.taskPend.contains (1 + 15) = false) ∧ (st149.get MODE ≠ 5) ∧ (st149.get MARK_ENABLE 15 ≠ 0)) ∧
    ((st150.powered = true) ∧ (15 < 16) ∧ (st150.evt.taskPend.contains (1 + 15) = false) ∧ (st150.get MODE = 5 ∨ st150.get MARK_ENABLE 15 = 0)) ∧
    ((st151.powered = true) ∧ (15 < 16) ∧ (st151.evt.taskPend.contains (1 + 15) = false) ∧ (st151.get MODE = 5 ∨ st151.get MARK_ENABLE 15 = 0)) ∧
    ((st116.powered = true) ∧ (15 < 16) ∧ (st116.get TIMER_STATE 15 = 0) ∧ (st116.evt.taskPend.contains (17 + 15) = false)) ∧
    ((st152.powered = true) ∧ (15 < 16) ∧ (st152.get TIMER_STATE 15 ≠ 0) ∧ (st152.evt.taskPend.contains (17 + 15) = false)) := ⟨by decide +kernel, by decide +kernel, by decide +kernel, by decide +kernel, by decide +kernel, by decide +kernel⟩
theorem witness_TaskInputs_3 :
    ((st116.powered = true) ∧ (15 < 16) ∧ (st116.evt.taskPend.contains (33 + 15) = false)) ∧
    ((st116.powered = true) ∧ (15 < 16) ∧ (st116.evt.taskPend.contains (49 + 15) = false)) ∧
    ((st116.powered = true) ∧ (15 < 16) ∧ (st116.evt.taskPend.contains (65 + 15) = false)) ∧
    ((st116.powered = true) ∧ (15 < 16) ∧ (st116.evt.taskPend.contains (97 + 15) = false)) ∧
    ((st116.powered = true) ∧ (15 < 16) ∧ (st116.evt.taskPend.contains (81 + 15) = false) ∧ (st116.ringRuns 3 = false) ∧ (3 < st116.host.rings.length) ∧ (List.foldl (fun n f => n + Frame.bytes 3 f) 0 (st116.ring 3).staged + 64 ≤ 2 ^ 26)) ∧
    ((st116.powered = true) ∧ (3 < 4) ∧ (st116.evt.taskPend.contains (113 + 3) = false)) := ⟨by decide +kernel, by decide +kernel, by decide +kernel, by decide +kernel, by decide +kernel, by decide +kernel⟩
theorem witness_TaskInputs_4 :
    ((st153.powered = true) ∧ (3 < 4) ∧ (st153.evt.taskPend.contains (117 + 3) = false) ∧ (st153.get DET_MODE 3 = 1)) ∧
    ((st116.powered = true) ∧ (3 < 4) ∧ (st116.evt.taskPend.contains (117 + 3) = false) ∧ (st116.get DET_MODE 3 ≠ 1)) ∧
    ((st116.powered = true) ∧ (1 < 2) ∧ (st116.evt.taskPend.contains (122 + 1) = false)) ∧
    ((st116.powered = true) ∧ (st116.evt.taskPend.contains 126 = false)) ∧
    ((st154.powered = true) ∧ (st154.evt.taskPend.contains 126 = false)) ∧
    ((st90.powered = true) ∧ (st90.evt.taskPend.contains 126 = false)) := ⟨by decide +kernel, by decide +kernel, by decide +kernel, by decide +kernel, by decide +kernel, by decide +kernel⟩
theorem witness_TaskInputs_5 :
    ((st155.powered = true) ∧ (st155.evt.taskPend.contains 127 = false) ∧ (st155.traceOn 8 = true) ∧ ((st155.advance 5).trace.queue.length < 64)) := by decide +kernel
theorem witness_EventConfiguration_1 :
    ((st116.powered = true) ∧ (65535 ≤ 65535)) ∧
    ((st116.powered = true) ∧ (65535 < 65536)) ∧
    ((st116.powered = true)) ∧
    ((st156.powered = true) ∧ (63 < 64) ∧ (2 ^ 31 + 1 ≤ 4294967295) ∧ (bit (2 ^ 31 + 1) 31 = true) ∧ (st156.producerUsed 63 (bits (2 ^ 31 + 1) 7 0) = true)) ∧
    ((st157.powered = true) ∧ (63 < 64) ∧ (2 ^ 31 + 256 + 1 ≤ 4294967295) ∧ (bit (2 ^ 31 + 256 + 1) 31 = true) ∧ (st157.producerUsed 63 (bits (2 ^ 31 + 256 + 1) 7 0) = false) ∧ (st157.consumerFull 63 (bits (2 ^ 31 + 256 + 1) 15 8) = true)) ∧
    ((st105.powered = true) ∧ (63 < 64) ∧ (2 ^ 31 + 1 ≤ 4294967295) ∧ (bit (2 ^ 31 + 1) 31 = false ∨ st105.producerUsed 63 (bits (2 ^ 31 + 1) 7 0) = false ∧ st105.consumerFull 63 (bits (2 ^ 31 + 1) 15 8) = false)) := ⟨by decide +kernel, by decide +kernel, by decide +kernel, by decide +kernel, by decide +kernel, by decide +kernel⟩
theorem witness_EventConfiguration_2 :
    ((st105.powered = true) ∧ (63 < 64) ∧ (2 ^ 32 - 1 ≤ 4294967295) ∧ (bit (2 ^ 32 - 1) 31 = false ∨ st105.producerUsed 63 (bits (2 ^ 32 - 1) 7 0) = false ∧ st105.consumerFull 63 (bits (2 ^ 32 - 1) 15 8) = false)) ∧
    ((st105.powered = true) ∧ (31 < 32) ∧ (2 ^ 32 - 1 ≤ 4294967295)) ∧
    ((st105.powered = true) ∧ (15 < 16) ∧ (inputFilter 15 ≤ 100) ∧ (bit st105.motion.inputs 15 ≠ true) ∧ (true = false ∨ st105.get IO_SUPPLY_LOW ≠ 1)) ∧
    ((st158.powered = true) ∧ (0 < 16) ∧ (inputFilter 0 ≤ 1000) ∧ (bit st158.motion.inputs 0 ≠ false) ∧ (false = false ∨ st158.get IO_SUPPLY_LOW ≠ 1)) ∧
    ((st105.powered = true) ∧ (15 < 16) ∧ (99 < inputFilter 15)) ∧
    ((st105.powered = true) ∧ (13 < 16) ∧ (999 < inputFilter 13)) := ⟨by decide +kernel, by decide +kernel, by decide +kernel, by decide +kernel, by decide +kernel, by decide +kernel⟩
theorem witness_MemoryErrors_1 :
    ((st105.powered = true) ∧ (6 ≤ 6)) ∧
    ((st105.powered = true) ∧ (0 ≤ 6)) ∧
    ((st105.powered = true) ∧ (3 ≠ 0)) ∧
    ((st116.powered = true) ∧ (0 < 13) ∧ (st116.get DRAM_PKG_STATE ≠ 2) ∧ (st116.get DRAM_PKG_STATE ≠ 3)) ∧
    ((st159.powered = true) ∧ (12 < 13) ∧ (st159.get DRAM_PKG_STATE 12 = 2 ∨ st159.get DRAM_PKG_STATE 12 = 3)) ∧
    ((st116.powered = true) ∧ (12 < 13)) := ⟨by decide +kernel, by decide +kernel, by decide +kernel, by decide +kernel, by decide +kernel, by decide +kernel⟩
theorem witness_MemoryErrors_2 :
    ((st116.powered = true) ∧ (11 < 13) ∧ (st116.get DRAM_PKG_STATE 11 = 0) ∧ (st116.get DRAM_PKG_CHANNEL 11 < 255) ∧ ((lowest 13 fun q => st116.get DRAM_PKG_STATE q == 1) = some 12)) ∧
    ((st159.powered = true) ∧ (11 < 13) ∧ (st159.get DRAM_PKG_STATE 11 = 0) ∧ (st159.get DRAM_PKG_CHANNEL 11 < 255) ∧ ((lowest 13 fun q => st159.get DRAM_PKG_STATE q == 1) = none)) ∧
    ((st160.powered = true) ∧ (12 < 13) ∧ (st160.get DRAM_PKG_STATE 12 = 2 ∨ st160.get DRAM_PKG_STATE 12 = 3)) ∧
    ((st116.powered = true)) := ⟨by decide +kernel, by decide +kernel, by decide +kernel, by decide +kernel⟩
theorem witness_MigrationAndSparePackage_1 :
    ((st116.powered = true) ∧ (0 < 13) ∧ (st116.get MODE ≠ 0) ∧ (st116.get MODE ≠ 5) ∧ (st116.dramUnit.moving = none) ∧ (st116.get DRAM_PKG_STATE = 0) ∧ ((lowest 13 fun q => st116.get DRAM_PKG_STATE q == 1) = some 12)) ∧
    ((st159.powered = true) ∧ (0 < 13) ∧ (st159.get MODE ≠ 0) ∧ (st159.get MODE ≠ 5) ∧ (st159.dramUnit.moving = none) ∧ (st159.get DRAM_PKG_STATE = 0) ∧ ((lowest 13 fun q => st159.get DRAM_PKG_STATE q == 1) = none)) ∧
    ((st116.powered = true) ∧ (12 < 13) ∧ (st116.get MODE ≠ 0) ∧ (st116.get MODE ≠ 5) ∧ (st116.dramUnit.moving = none) ∧ (st116.get DRAM_PKG_STATE 12 ≠ 0)) ∧
    ((st161.powered = true) ∧ (0 < 13) ∧ (12 < 13) ∧ (0 ≠ 12) ∧ (st161.dramUnit.moving = some (0, 12)) ∧ (st161.get MODE ≠ 5)) ∧
    ((st162.powered = true) ∧ (0 < 13) ∧ (12 < 13) ∧ (0 ≠ 12) ∧ (st162.dramUnit.moving = some (0, 12)) ∧ (st162.get MODE = 5)) ∧
    ((st163.powered = true) ∧ (12 < 13) ∧ (st163.get MODE = 0 ∨ st163.get MODE = 1) ∧ (st163.get DRAM_PKG_STATE 12 = 2) ∧ (st163.bench.dramTest = none)) := ⟨by decide +kernel, by decide +kernel, by decide +kernel, by decide +kernel, by decide +kernel, by decide +kernel⟩
theorem witness_MigrationAndSparePackage_2 :
    ((st116.powered = true) ∧ (12 < 13) ∧ (st116.get DRAM_PKG_STATE 12 ≠ 2)) ∧
    ((st164.powered = true) ∧ (12 < 13) ∧ (st164.bench.dramTest = some (12, 0)) ∧ (0 = 0)) ∧
    ((st164.powered = true) ∧ (12 < 13) ∧ (st164.bench.dramTest = some (12, 0)) ∧ (1 ≠ 0)) ∧
    ((st105.powered = true) ∧ (st105.asDormant = false) ∧ ((lowest 13 fun q => st105.get DRAM_PKG_STATE q == 1) = some 12) ∧ (st105.bench.dramCheck = none) ∧ (st105.dramUnit.moving = none) ∧ (st105.bench.dramAt + 600000000000 ≤ st105.now + 600000000000)) ∧
    ((st165.powered = true) ∧ (12 < 13) ∧ (st165.bench.dramCheck = some (12, 0))) := ⟨by decide +kernel, by decide +kernel, by decide +kernel, by decide +kernel, by decide +kernel⟩
theorem witness_WharfChannels_1 :
    ((st166.powered = true) ∧ (31 < 32) ∧ (st166.chanOpen Path.sdo 31 = true) ∧ ((st166.job 31).isSome = true)) ∧
    ((st167.powered = true) ∧ (8 < 32) ∧ (st167.chanOpen Path.sdo 8 = true) ∧ (st167.job 8 = none) ∧ (st167.get MODE = 0 ∨ st167.get MODE = 5)) ∧
    ((st116.powered = true) ∧ (31 < 32) ∧ (st116.chanOpen Path.sdo 31 = true) ∧ (st116.job 31 = none) ∧ (st116.get MODE ≠ 0) ∧ (st116.get MODE ≠ 5) ∧ (st116.badParam 31 = true)) ∧
    ((st168.powered = true) ∧ (31 < 32) ∧ (st168.chanOpen Path.sdo 31 = true) ∧ (st168.job 31 = none) ∧ (st168.get MODE ≠ 0) ∧ (st168.get MODE ≠ 5) ∧ (st168.badParam 31 = false) ∧ ((st168.jobOfChan 31).badAddr = true)) ∧
    ((st169.powered = true) ∧ (31 < 32) ∧ (st169.chanOpen Path.sdo 31 = true) ∧ (st169.job 31 = none) ∧ (st169.get MODE ≠ 0) ∧ (st169.get MODE ≠ 5) ∧ (st169.badParam 31 = false) ∧ ((st169.jobOfChan 31).badAddr = false) ∧ (st169.get WH_OP 31 = 0)) ∧
    ((st170.powered = true) ∧ (31 < 32) ∧ (st170.chanOpen Path.sdo 31 = true) ∧ (st170.job 31 = none) ∧ (st170.get MODE ≠ 0) ∧ (st170.get MODE ≠ 5) ∧ (st170.badParam 31 = false) ∧ ((st170.jobOfChan 31).badAddr = false) ∧ (st170.get WH_OP 31 ≠ 0)) := ⟨by decide +kernel, by decide +kernel, by decide +kernel, by decide +kernel, by decide +kernel, by decide +kernel⟩
theorem witness_WharfChannels_2 :
    ((st166.powered = true) ∧ (31 < 32) ∧ (st166.chanOpen Path.sdo 31 = true) ∧ (st166.job 31 = some jb) ∧ (jb.op = 1) ∧ (jb.status = 1) ∧ (0 < 5) ∧ (∀ (p : Nat), p ∈ jb.flushes → p ≤ 5)) ∧
    ((st116.powered = true) ∧ (7 < 32) ∧ (st116.chanOpen Path.sdo 7 = false)) ∧
    ((st116.powered = true) ∧ (8 < 32) ∧ (st116.chanOpen (Path.window 1) 8 = false)) ∧
    ((st116.powered = true) ∧ (8 < 32) ∧ (st116.chanOpen (Path.mailbox 1) 8 = false)) ∧
    ((st171.powered = true) ∧ (0 < 32) ∧ (st171.get WH_ALL_STOPPED = 1)) ∧
    ((st116.powered = true) ∧ (8 < 32) ∧ (st116.get WH_ALL_STOPPED ≠ 1)) := ⟨by decide +kernel, by decide +kernel, by decide +kernel, by decide +kernel, by decide +kernel, by decide +kernel⟩
theorem witness_WharfChannels_3 :
    ((st166.powered = true) ∧ (31 < 32) ∧ (st166.get WH_ALL_STOPPED ≠ 1)) := by decide +kernel
theorem witness_WharfJobsEnd :
    ((st172.powered = true) ∧ (7 ≤ 31) ∧ (31 < 32) ∧ (st172.get MODE ≠ 0) ∧ (st172.get MODE ≠ 5) ∧ (st172.get WH_ALL_STOPPED ≠ 1) ∧ (st172.job 31 = some jbCopy) ∧ (jbCopy.status = 1) ∧ (jbCopy.seen = []) ∧ (jbCopy.op = 0)) ∧
    ((st173.powered = true) ∧ (7 ≤ 31) ∧ (31 < 32) ∧ (st173.get MODE ≠ 0) ∧ (st173.get MODE ≠ 5) ∧ (st173.get WH_ALL_STOPPED ≠ 1) ∧ (st173.job 31 = some jbSmall) ∧ (jbSmall.status = 1) ∧ (jbSmall.seen = []) ∧ (jbSmall.op = 1) ∧ (jbSmall.dstLimit < (compress jbSmall.level jbSmall.filter jbSmall.log2 jbSmall.src.bytes jbSmall.flushes (List.flatMap (fun r => (st173.advance 5).serveHigh.serveArchive.srcRow jbSmall (some (List.map (fun x => x % 256) [])) (st173.advance 5).serveHigh.serveArchive.fresh.fst r) (List.range jbSmall.src.rows))).length)) ∧
    ((st166.powered = true) ∧ (7 ≤ 31) ∧ (31 < 32) ∧ (st166.get MODE ≠ 0) ∧ (st166.get MODE ≠ 5) ∧ (st166.get WH_ALL_STOPPED ≠ 1) ∧ (st166.job 31 = some jb) ∧ (jb.status = 1) ∧ (jb.seen = []) ∧ (jb.op = 1) ∧ ((compress jb.level jb.filter jb.log2 jb.src.bytes jb.flushes (List.flatMap (fun r => (st166.advance 5).serveHigh.serveArchive.srcRow jb (some (List.map (fun x => x % 256) [])) (st166.advance 5).serveHigh.serveArchive.fresh.fst r) (List.range jb.src.rows))).length ≤ jb.dstLimit)) ∧
    ((st300.powered = true) ∧ (7 ≤ 31) ∧ (31 < 32) ∧ (st300.get MODE ≠ 0) ∧ (st300.get MODE ≠ 5) ∧ (st300.get WH_ALL_STOPPED ≠ 1) ∧ (st300.job 31 = some jbDec) ∧ (jbDec.status = 1) ∧ (jbDec.seen = []) ∧ (jbDec.op = 2)) := ⟨by decide +kernel, by decide +kernel, by decide +kernel, by decide +kernel⟩
theorem witness_FastPathAndRings_1 :
    ((st174.powered = true) ∧ (1 < 2) ∧ (1 < st174.host.fns.length) ∧ (3 < 4) ∧ (3 < st174.host.rings.length) ∧ (st174.asDormant = false) ∧ (st174.get RING_FUNCTION 3 = 1) ∧ (((st174.ring 3).prod + 2 ^ 32 - 0 % 2 ^ 32) % 2 ^ 32 ≤ st174.ringBytes 3)) ∧
    ((st174.powered = true) ∧ (1 < 2) ∧ (1 < st174.host.fns.length) ∧ (3 < 4) ∧ (3 < st174.host.rings.length) ∧ (st174.asDormant = false) ∧ (st174.get RING_FUNCTION 3 = 1) ∧ (st174.ringBytes 3 < ((st174.ring 3).prod + 2 ^ 32 - 1 % 2 ^ 32) % 2 ^ 32)) ∧
    ((st175.powered = true) ∧ (0 < 2) ∧ (0 < st175.host.fns.length) ∧ (st175.mboxOf 0 = true)) ∧
    ((st175.powered = true) ∧ (1 < 2) ∧ (1 < st175.host.fns.length) ∧ (st175.mboxOf 1 = false)) ∧
    ((st175.powered = true) ∧ (1 < 2) ∧ (1 < st175.host.fns.length)) ∧
    ((st175.powered = true) ∧ (1 < 2) ∧ (1 < st175.host.fns.length) ∧ (63 < 64)) := ⟨by decide +kernel, by decide +kernel, by decide +kernel, by decide +kernel, by decide +kernel, by decide +kernel⟩
theorem witness_FastPathAndRings_2 :
    ((st175.powered = true) ∧ (1 < 2) ∧ (1 < st175.host.fns.length) ∧ (31 < 32) ∧ (st175.asDormant = false)) ∧
    ((st176.powered = true) ∧ (1 < 2) ∧ (1 < st176.host.fns.length) ∧ (0 + [1, 2].length ≤ 2 ^ 30) ∧ (st176.asDormant = false) ∧ (197568495616 ≤ st176.get HL_APERTURE_BASE 1 + 0) ∧ (st176.get HL_APERTURE_BASE 1 + 0 + [1, 2].length ≤ 206158430208)) ∧
    ((st177.powered = true) ∧ (1 < 2) ∧ (1 < st177.host.fns.length) ∧ (0 + [1, 2].length ≤ 2 ^ 30) ∧ (st177.asDormant = false) ∧ (197568495616 ≤ st177.get HL_APERTURE_BASE 1 + 0) ∧ (st177.get HL_APERTURE_BASE 1 + 0 + [1, 2].length ≤ 206158430208)) ∧
    ((st178.powered = true) ∧ (1 < 2) ∧ (1 < st178.host.fns.length) ∧ (0 + [1, 2].length ≤ 2 ^ 30) ∧ (st178.asDormant = false) ∧ (st178.get HL_APERTURE_BASE 1 + 0 < 197568495616 ∨ 206158430208 < st178.get HL_APERTURE_BASE 1 + 0 + [1, 2].length)) ∧
    ((st179.powered = true) ∧ (1 < 2) ∧ (1 < st179.host.fns.length) ∧ (0 + [1, 2].length ≤ 2 ^ 30) ∧ (st179.asDormant = false) ∧ (st179.get HL_APERTURE_BASE 1 + 0 < 197568495616 ∨ 206158430208 < st179.get HL_APERTURE_BASE 1 + 0 + [1, 2].length)) ∧
    ((st116.powered = true) ∧ (4 < 5) ∧ (4 < st116.host.rings.length) ∧ (st116.get RING_ENABLE 4 ≠ 1)) := ⟨by decide +kernel, by decide +kernel, by decide +kernel, by decide +kernel, by decide +kernel, by decide +kernel⟩
theorem witness_FastPathAndRings_3 :
    ((st116.powered = true) ∧ (3 < 5) ∧ (3 < st116.host.rings.length) ∧ (st116.get RING_ENABLE 3 ≠ 1)) ∧
    ((st175.powered = true) ∧ (4 < 5) ∧ (4 < st175.host.rings.length)) ∧
    ((st175.powered = true) ∧ (0 < 5) ∧ (0 < st175.host.rings.length)) ∧
    ((st116.powered = true) ∧ (4 < 5) ∧ (4 < st116.host.rings.length) ∧ (1 < 2)) ∧
    ((st180.powered = true) ∧ (4 < 5) ∧ (4 < st180.host.rings.length) ∧ ((st180.ring 4).causeAt = some 3) ∧ (3 ≤ st180.now + 5) ∧ (st180.get RING_FUNCTION 4 < st180.host.fns.length)) := ⟨by decide +kernel, by decide +kernel, by decide +kernel, by decide +kernel, by decide +kernel⟩
theorem witness_MailboxOperations_1 :
    ((st175.powered = true) ∧ (st175.mboxNext st175.mboxFn = true) ∧ (st175.host.fns.length = 2) ∧ (st175.get RING_FUNCTION 4 < 2) ∧ (given (((st175.advance 5).rowsRead (MODE.base / 256) (MODE.base % 256)).readAt (Path.mailbox st175.mboxFn) (MODE.base / 256) (MODE.base % 256)) = [3]) ∧ ([3].length ≤ 1)) ∧
    ((st175.powered = true) ∧ (st175.mboxNext st175.mboxFn = true) ∧ (st175.host.fns.length = 2) ∧ (st175.get RING_FUNCTION 4 < 2) ∧ (refusedBy (((st175.advance 5).rowsRead 1 1).readAt (Path.mailbox st175.mboxFn) 1 1) = 100794368)) ∧
    ((st175.powered = true) ∧ (st175.mboxNext st175.mboxFn = true) ∧ (st175.host.fns.length = 2) ∧ (st175.get RING_FUNCTION 4 < 2) ∧ (11 < 12) ∧ (100 ≤ 100) ∧ (100 ≤ 1000000)) ∧
    ((st175.powered = true) ∧ (st175.mboxNext st175.mboxFn = true) ∧ (st175.host.fns.length = 2) ∧ (st175.get RING_FUNCTION 4 < 2) ∧ (11 < 12) ∧ (100 ≤ 1000000) ∧ (1000000 ≤ 1000000)) ∧
    ((st175.powered = true) ∧ (st175.mboxNext st175.mboxFn = true) ∧ (st175.host.fns.length = 2) ∧ (st175.get RING_FUNCTION 4 < 2) ∧ (∀ (b : Byte), b ∈ jobMin 4095 → b < 256) ∧ (st175.get MODE = 0 ∨ st175.get WH_ALL_STOPPED = 0) ∧ (st175.get MODE ≠ 5) ∧ (Package.ok (jobMin 4095) (st175.get FW_REVISION) = true) ∧ (natAt (jobMin 4095) 16 2 < 4096) ∧ (st175.get ACTIVE_SLOT ≠ natAt (jobMin 4095) 16 2) ∧ (st175.web.pendingSlot ≠ natAt (jobMin 4095) 16 2) ∧ (st175.get PF_STATE ≠ 2) ∧ ((jobMin 4095).length ≤ st175.jobBytesFree + (Option.map List.length (st175.nv.pkgs.look (natAt (jobMin 4095) 16 2))).getD 0)) ∧
    ((st175.powered = true) ∧ (st175.mboxNext st175.mboxFn = true) ∧ (st175.host.fns.length = 2) ∧ (st175.get RING_FUNCTION 4 < 2) ∧ (∀ (b : Byte), b ∈ [1] → b < 256) ∧ (st175.get MODE = 0 ∨ st175.get WH_ALL_STOPPED = 0) ∧ (st175.get MODE ≠ 5) ∧ (Package.ok [1] (st175.get FW_REVISION) = false)) := ⟨by decide +kernel, by decide +kernel, by decide +kernel, by decide +kernel, by decide +kernel, by decide +kernel⟩
theorem witness_MailboxOperations_2 :
    ((st181.powered = true) ∧ (st181.mboxNext st181.mboxFn = true) ∧ (st181.host.fns.length = 2) ∧ (st181.get RING_FUNCTION 4 < 2) ∧ (∀ (b : Byte), b ∈ fwImg → b < 256) ∧ (st181.get MODE = 0 ∨ st181.get WH_ALL_STOPPED = 0) ∧ (st181.get MODE ≤ 1) ∧ (imageCheck fwImg true = 0)) ∧
    ((st181.powered = true) ∧ (st181.mboxNext st181.mboxFn = true) ∧ (st181.host.fns.length = 2) ∧ (st181.get RING_FUNCTION 4 < 2) ∧ (∀ (b : Byte), b ∈ fwImg → b < 256) ∧ (st181.get MODE = 0 ∨ st181.get WH_ALL_STOPPED = 0) ∧ (st181.get MODE ≤ 1) ∧ (imageCheck fwImg false ≠ 0)) ∧
    ((st175.powered = true) ∧ (st175.mboxNext st175.mboxFn = true) ∧ (st175.host.fns.length = 2) ∧ (st175.get RING_FUNCTION 4 < 2) ∧ (∀ (b : Byte), b ∈ fwImg → b < 256) ∧ (st175.get MODE = 0 ∨ st175.get WH_ALL_STOPPED = 0) ∧ (1 < st175.get MODE)) := ⟨by decide +kernel, by decide +kernel, by decide +kernel⟩
theorem witness_PassThroughAndLinks_1 :
    ((st182.powered = true) ∧ (0 < 2) ∧ (st182.host.fns.length = 2) ∧ (st182.mboxNext 0 = true) ∧ (11 < 12) ∧ (4 ≤ 512) ∧ (512 ≤ 512) ∧ (512 % 4 = 0) ∧ (st182.get BAY_STATE 11 = 2) ∧ (∀ (r : CamReq), r ∈ st182.host.pt → r.bay ≠ 11)) ∧
    ((st175.powered = true) ∧ (0 < 2) ∧ (st175.host.fns.length = 2) ∧ (st175.mboxNext 0 = true) ∧ (11 < 12) ∧ (4 ≤ 4) ∧ (4 ≤ 512) ∧ (4 % 4 = 0) ∧ (st175.get BAY_STATE 11 ≠ 1) ∧ (st175.get BAY_STATE 11 ≠ 2)) ∧
    ((st182.powered = true) ∧ (0 < 2) ∧ (st182.host.fns.length = 2) ∧ (st182.mboxNext 0 = true) ∧ (11 < 12) ∧ (∀ (b : Nat), b ∈ [1, 2, 3, 4] → b < 256) ∧ (4 ≤ [1, 2, 3, 4].length) ∧ ([1, 2, 3, 4].length ≤ 512) ∧ ([1, 2, 3, 4].length % 4 = 0) ∧ (st182.touchesOwned 11 4294963200 [1, 2, 3, 4].length = false) ∧ (st182.get BAY_STATE 11 = 2) ∧ (∀ (r : CamReq), r ∈ st182.host.pt → r.bay ≠ 11)) ∧
    ((st182.powered = true) ∧ (0 < 2) ∧ (st182.host.fns.length = 2) ∧ (st182.mboxNext 0 = true) ∧ (11 < 12) ∧ (∀ (b : Nat), b ∈ [1, 2, 3, 4] → b < 256) ∧ (4 ≤ [1, 2, 3, 4].length) ∧ ([1, 2, 3, 4].length ≤ 512) ∧ ([1, 2, 3, 4].length % 4 = 0) ∧ (st182.touchesOwned 11 (ownedRegisters.headD 0) [1, 2, 3, 4].length = true)) ∧
    ((st182.powered = true) ∧ (0 < 2) ∧ (st182.host.fns.length = 2) ∧ (st182.mboxNext 0 = true) ∧ (11 < 12) ∧ (∀ (b : Nat), b ∈ [1, 2, 3, 4] → b < 256) ∧ (4 ≤ [1, 2, 3, 4].length) ∧ ([1, 2, 3, 4].length ≤ 512) ∧ ([1, 2, 3, 4].length % 4 = 0) ∧ (st182.touchesOwned 11 (ownedRegisters.headD 0 - 3) [1, 2, 3, 4].length = true)) ∧
    ((st183.powered = true) ∧ (0 < 2) ∧ (st183.host.fns.length = 2) ∧ (11 < 12) ∧ (st183.ptFirst 11 = some cr) ∧ (cr.sentAt = some 0) ∧ (st183.mboxOf cr.fn = true) ∧ (st183.get BAY_STATE 11 = 2) ∧ (∀ (b : Nat), b ∈ [1, 2, 3, 4] → b < 256) ∧ (cr.write = true ∨ [1, 2, 3, 4].length = cr.len) ∧ (st183.now + 5 < 0 + st183.get HL_PT_TIMEOUT_MS * 1000000)) := ⟨by decide +kernel, by decide +kernel, by decide +kernel, by decide +kernel, by decide +kernel, by decide +kernel⟩
theorem witness_PassThroughAndLinks_2 :
    ((st183.powered = true) ∧ (0 < 2) ∧ (st183.host.fns.length = 2) ∧ (11 < 12) ∧ (st183.ptFirst 11 = some cr) ∧ (cr.sentAt = some 0) ∧ (st183.mboxOf cr.fn = true) ∧ (st183.get BAY_STATE 11 = 2) ∧ (0 + st183.get HL_PT_TIMEOUT_MS * 1000000 ≤ st183.now + 1000000000000)) ∧
    ((st184.powered = true) ∧ (1 < 2) ∧ (st184.host.fns.length = 2) ∧ ((st184.fn 1).up = true)) ∧
    ((st116.powered = true) ∧ (0 < 2) ∧ (st116.host.fns.length = 2) ∧ ((st116.fn 0).up = false) ∧ (1 ≤ 4) ∧ (4 ≤ st116.get HL_MAX_GEN) ∧ (0 = 0 ∨ st116.get HL_LINK_MODE_ACTIVE = 1) ∧ (16 ∈ [1, 2, 4, 8] ∨ 16 = 16 ∧ st116.get HL_LINK_MODE_ACTIVE ≠ 1)) ∧
    ((st185.powered = true) ∧ (1 < 2) ∧ (st185.host.fns.length = 2) ∧ ((st185.fn 1).up = false) ∧ (1 ≤ 1) ∧ (1 ≤ st185.get HL_MAX_GEN) ∧ (1 = 0 ∨ st185.get HL_LINK_MODE_ACTIVE = 1) ∧ (8 ∈ [1, 2, 4, 8] ∨ 8 = 16 ∧ st185.get HL_LINK_MODE_ACTIVE ≠ 1)) := ⟨by decide +kernel, by decide +kernel, by decide +kernel, by decide +kernel⟩
theorem witness_DictionaryPaths_1 :
    ((st116.powered = true) ∧ (11 < 12) ∧ (100 ≤ 100) ∧ (100 ≤ 1000000)) ∧
    ((st116.powered = true) ∧ (11 < 12) ∧ (100 ≤ 1000000) ∧ (1000000 ≤ 1000000)) ∧
    ((st116.powered = true) ∧ (11 < 12) ∧ (99 < 100)) ∧
    ((st116.powered = true) ∧ (11 < 12) ∧ (1000000 < 1000001) ∧ (1000001 < 2 ^ 32)) ∧
    ((st116.powered = true) ∧ (11 < 12) ∧ ([1, 2, 3].length ≠ 4)) ∧
    ((st116.powered = true) ∧ (11 < 12) ∧ (([] : List Byte).length ≠ 4)) := ⟨by decide +kernel, by decide +kernel, by decide +kernel, by decide +kernel, by decide +kernel, by decide +kernel⟩
theorem witness_DictionaryPaths_2 :
    ((st105.powered = true) ∧ (65536 ≤ 65536) ∧ (65536 < 2 ^ 32) ∧ (st105.get MODE < 2)) ∧
    ((st53.powered = true) ∧ (65536 ≤ 65536) ∧ (65536 < 2 ^ 32) ∧ (2 ≤ st53.get MODE)) ∧
    ((st53.powered = true) ∧ (512 ≤ 512)) ∧
    ((st53.powered = true) ∧ (isMap 1 = false) ∧ (placeNo (st53.place 1 1) = 1)) ∧
    ((st53.powered = true) ∧ (isMap 8976 = false) ∧ (placeNo (st53.place 8976 200) = 2)) ∧
    ((st53.powered = true) ∧ (isMap (MODE.base / 256) = false) ∧ (placeNo (st53.place (MODE.base / 256) (MODE.base % 256)) = 16 * MODE.base + 0) ∧ (MODE.acc = Acc.ro)) := ⟨by decide +kernel, by decide +kernel, by decide +kernel, by decide +kernel, by decide +kernel, by decide +kernel⟩
theorem witness_DictionaryPaths_3 :
    ((st53.powered = true) ∧ (isMap 8976 = false) ∧ (placeNo (st53.place 8976 2) = 16 * EXP_WIDTH_NS.base + 0) ∧ (EXP_WIDTH_NS.ty.bytes ≠ 0) ∧ (EXP_WIDTH_NS.acc ≠ Acc.ro) ∧ ([1, 2, 3].length ≠ EXP_WIDTH_NS.ty.bytes)) ∧
    ((st53.powered = true) ∧ (1 < 2) ∧ (1 < st53.host.fns.length) ∧ (8 * MODE.base < 2 ^ 27) ∧ (8 * MODE.base % 8 = 0) ∧ (((((st53.advance 5).volume HL_WINDOW_ACCESSES 0).rowsRead (8 * MODE.base / 8 / 256) (8 * MODE.base / 8 % 256)).windowValue 1 (8 * MODE.base / 8 / 256) (8 * MODE.base / 8 % 256)).toOption = some 2)) ∧
    ((st53.powered = true) ∧ (1 < 2) ∧ (1 < st53.host.fns.length) ∧ (8 * 257 < 2 ^ 27) ∧ (8 * 257 % 8 = 0) ∧ (refusedBy ((((st53.advance 5).volume HL_WINDOW_ACCESSES 0).rowsRead (8 * 257 / 8 / 256) (8 * 257 / 8 % 256)).windowValue 1 (8 * 257 / 8 / 256) (8 * 257 / 8 % 256)) = 100794368)) ∧
    ((st53.powered = true) ∧ (1 < 2) ∧ (11 < 12) ∧ (100 ≤ 1000000) ∧ (1000000 ≤ 1000000)) ∧
    ((st53.powered = true) ∧ (1 < 2) ∧ (8 * MODE.base < 2 ^ 27) ∧ ([1].length ≠ 4) ∧ ([1].length ≠ 8)) ∧
    ((st186.powered = true) ∧ (st186.coeOpen = true) ∧ (11 < 12) ∧ (100 ≤ 100) ∧ (100 ≤ 1000000)) := ⟨by decide +kernel, by decide +kernel, by decide +kernel, by decide +kernel, by decide +kernel, by decide +kernel⟩
theorem witness_DictionaryPaths_4 :
    ((st187.powered = true) ∧ (st187.coeOpen = true) ∧ (given (((st187.advance 5).rowsRead (MODE.base / 256) (MODE.base % 256)).readAt Path.sdo (MODE.base / 256) (MODE.base % 256)) = [2])) ∧
    ((st187.powered = true) ∧ (st187.coeOpen = true) ∧ (refusedBy (((st187.advance 5).rowsRead 1 1).readAt Path.sdo 1 1) = 100794368)) := ⟨by decide +kernel, by decide +kernel⟩
theorem witness_FieldNetworkStates_1 :
    ((st188.powered = true) ∧ (8 ∈ [1, 2, 3, 4, 8]) ∧ (8 ≠ st188.get ECAT_STATE) ∧ ((st188.get ECAT_STATE, 8) ∈ alLegal) ∧ ((st188.get ECAT_STATE, 8) ≠ (2, 4)) ∧ (8 = 3 → st188.get MODE ≤ 1)) ∧
    ((st189.powered = true) ∧ (3 ∈ [1, 2, 3, 4, 8]) ∧ (3 ≠ st189.get ECAT_STATE) ∧ ((st189.get ECAT_STATE, 3) ∈ alLegal) ∧ ((st189.get ECAT_STATE, 3) ≠ (2, 4)) ∧ (3 = 3 → st189.get MODE ≤ 1)) ∧
    ((st190.powered = true) ∧ (4 ∈ [1, 2, 3, 4, 8]) ∧ (4 ≠ st190.get ECAT_STATE) ∧ ((st190.get ECAT_STATE, 4) ∈ alLegal) ∧ ((st190.get ECAT_STATE, 4) ≠ (2, 4)) ∧ (4 = 3 → st190.get MODE ≤ 1)) ∧
    ((st191.powered = true) ∧ (1 ∈ [1, 2, 3, 4, 8]) ∧ (1 ≠ st191.get ECAT_STATE) ∧ ((st191.get ECAT_STATE, 1) ∈ alLegal) ∧ ((st191.get ECAT_STATE, 1) ≠ (2, 4)) ∧ (1 = 3 → st191.get MODE ≤ 1)) ∧
    ((st192.powered = true) ∧ (4 ∈ [1, 2, 3, 4, 8]) ∧ (4 ≠ st192.get ECAT_STATE) ∧ ((st192.get ECAT_STATE, 4) = (2, 4)) ∧ (st192.safeopCode smOk = 0)) ∧
    ((st192.powered = true) ∧ (4 ∈ [1, 2, 3, 4, 8]) ∧ (4 ≠ st192.get ECAT_STATE) ∧ ((st192.get ECAT_STATE, 4) = (2, 4)) ∧ (st192.safeopCode smBad3 ≠ 0)) := ⟨by decide +kernel, by decide +kernel, by decide +kernel, by decide +kernel, by decide +kernel, by decide +kernel⟩
theorem witness_FieldNetworkStates_2 :
    ((st193.powered = true) ∧ (4 ∈ [1, 2, 3, 4, 8]) ∧ (4 ≠ st193.get ECAT_STATE) ∧ ((st193.get ECAT_STATE, 4) = (2, 4)) ∧ (st193.safeopCode smDc2 ≠ 0)) ∧
    ((st116.powered = true) ∧ (3 ∈ [1, 2, 3, 4, 8]) ∧ (3 ≠ st116.get ECAT_STATE) ∧ (3 = 3) ∧ (1 < st116.get MODE)) ∧
    ((st189.powered = true) ∧ (8 ∈ [1, 2, 3, 4, 8]) ∧ (8 ≠ st189.get ECAT_STATE) ∧ (¬(st189.get ECAT_STATE, 8) ∈ alLegal)) ∧
    ((st189.powered = true) ∧ (¬5 ∈ [1, 2, 3, 4, 8])) ∧
    ((st190.powered = true) ∧ (st190.get ECAT_STATE = 8)) ∧
    ((st190.powered = true) ∧ (st190.get ECAT_STATE = 8) ∧ (∀ (b : Nat), b ∈ List.replicate (divRoundUp (R.rxBits R.ecat.rxCount) 8) 0 → b < 256) ∧ ((List.replicate (divRoundUp (R.rxBits R.ecat.rxCount) 8) 0).length = divRoundUp (st190.rxBits st190.ecat.rxCount) 8) ∧ (st190.ecat.rxPrev = none) ∧ (st190.get MODE ≠ 0)) := ⟨by decide +kernel, by decide +kernel, by decide +kernel, by decide +kernel, by decide +kernel, by decide +kernel⟩
theorem witness_FieldNetworkStates_3 :
    ((st194.powered = true) ∧ (st194.get ECAT_STATE = 8) ∧ (∀ (b : Nat), b ∈ List.replicate (divRoundUp (R.rxBits R.ecat.rxCount) 8) 255 → b < 256) ∧ ((List.replicate (divRoundUp (R.rxBits R.ecat.rxCount) 8) 255).length = divRoundUp (st194.rxBits st194.ecat.rxCount) 8) ∧ (st194.ecat.rxPrev = some (List.replicate (divRoundUp (R.rxBits R.ecat.rxCount) 8) 0)) ∧ (st194.get MODE ≠ 0) ∧ (st194.get MODE ≠ 5) ∧ (rises st194.rxEntries PDO_CONTROL 0 (List.replicate (divRoundUp (R.rxBits R.ecat.rxCount) 8) 0) (List.replicate (divRoundUp (R.rxBits R.ecat.rxCount) 8) 255) = true)) ∧
    ((st195.powered = true) ∧ (st195.get ECAT_STATE = 8) ∧ (∀ (b : Nat), b ∈ List.replicate (divRoundUp (R.rxBits R.ecat.rxCount) 8) 1 → b < 256) ∧ ((List.replicate (divRoundUp (R.rxBits R.ecat.rxCount) 8) 1).length = divRoundUp (st195.rxBits st195.ecat.rxCount) 8) ∧ (st195.ecat.rxPrev = some (List.replicate (divRoundUp (R.rxBits R.ecat.rxCount) 8) 0)) ∧ (st195.get MODE ≠ 0) ∧ (st195.get MODE ≠ 5) ∧ (rises st195.rxEntries PDO_CONTROL 0 (List.replicate (divRoundUp (R.rxBits R.ecat.rxCount) 8) 0) (List.replicate (divRoundUp (R.rxBits R.ecat.rxCount) 8) 1) = true)) ∧
    ((st196.powered = true) ∧ (st196.get ECAT_STATE = 8) ∧ (st196.get ECAT_SYNC_MODE = 2)) ∧
    ((st190.powered = true)) ∧
    ((st190.powered = true) ∧ (1 < 2) ∧ ((st190.evt.xing.look (131 + 1)).getD 0 < 15)) := ⟨by decide +kernel, by decide +kernel, by decide +kernel, by decide +kernel, by decide +kernel⟩
theorem witness_ClocksAndFiles_1 :
    ((st105.powered = true)) ∧
    ((st197.powered = true) ∧ (st197.get DC_LOCKED = 1) ∧ (1000 < (-1001).natAbs)) ∧
    ((st197.powered = true) ∧ ((-1000).natAbs ≤ 1000)) ∧
    ((st192.powered = true) ∧ (st192.coeOpen = true)) ∧
    ((st188.powered = true) ∧ (st188.coeOpen = true) ∧ (2 ≠ 1) ∧ (subsOf 1 = []) ∧ (isMap 1 = false)) ∧
    ((st190.powered = true) ∧ (st190.coeOpen = true)) := ⟨by decide +kernel, by decide +kernel, by decide +kernel, by decide +kernel, by decide +kernel, by decide +kernel⟩
theorem witness_ClocksAndFiles_2 :
    ((st192.powered = true) ∧ (st192.get ECAT_STATE ≠ 1) ∧ (5 ≠ 3) ∧ (5 ≠ 4)) ∧
    ((st191.powered = true) ∧ (∀ (b : Nat), b ∈ fwImg → b < 256) ∧ (List.take 5 [77, 49, 50, 70, 87, 65] = [77, 49, 50, 70, 87]) ∧ (fwImg.length ≤ imageLimit) ∧ (st191.get MODE ≤ 1) ∧ (st191.get ECAT_STATE = 3) ∧ (imageCheck fwImg true = 0)) ∧
    ((st191.powered = true) ∧ (∀ (b : Nat), b ∈ fwImg → b < 256) ∧ (List.take 5 [77, 49, 50, 70, 87] = [77, 49, 50, 70, 87]) ∧ (fwImg.length ≤ imageLimit) ∧ (st191.get MODE ≤ 1) ∧ (st191.get ECAT_STATE = 3) ∧ (imageCheck fwImg false ≠ 0)) ∧
    ((st198.powered = true) ∧ (∀ (b : Nat), b ∈ fwImg → b < 256) ∧ (List.take 5 [77, 49, 50, 70, 87] = [77, 49, 50, 70, 87]) ∧ (fwImg.length ≤ imageLimit) ∧ (1 < st198.get MODE) ∧ (st198.get ECAT_STATE ≠ 1)) := ⟨by decide +kernel, by decide +kernel, by decide +kernel, by decide +kernel⟩
theorem witness_ParametersAndFirmware_1 :
    ((st105.powered = true) ∧ (st105.get MODE ≤ 1)) ∧
    ((st53.powered = true) ∧ (1 < st53.get MODE)) ∧
    ((st105.powered = true) ∧ (5 < 2 ^ 32) ∧ (5 ≠ 1702257011)) ∧
    ((st116.powered = true)) ∧
    ((st116.powered = true) ∧ (2 ^ 32 - 1 < 2 ^ 32) ∧ (2 ^ 32 - 1 ≠ 1684107116)) ∧
    ((st116.powered = true) ∧ (4095 ≤ 4095)) := ⟨by decide +kernel, by decide +kernel, by decide +kernel, by decide +kernel, by decide +kernel, by decide +kernel⟩
theorem witness_ParametersAndFirmware_2 :
    ((st199.powered = true) ∧ (st199.get MODE < 2) ∧ (st199.get FW_STANDBY_STATE = 1)) ∧
    ((st105.powered = true) ∧ (2 ≤ st105.get MODE ∨ st105.get FW_STANDBY_STATE ≠ 1)) ∧
    ((st200.powered = true) ∧ (2 ≤ st200.get MODE ∨ st200.get FW_STANDBY_STATE ≠ 1)) := ⟨by decide +kernel, by decide +kernel, by decide +kernel⟩
theorem witness_JobsLoad_1 :
    ((st90.powered = true) ∧ (st90.get MODE ≠ 1) ∧ (st90.get MODE ≠ 2) ∧ (st90.get MODE ≠ 3)) ∧
    ((st89.powered = true) ∧ (st89.get MODE ≠ 1) ∧ (st89.get MODE ≠ 2) ∧ (st89.get MODE ≠ 3)) ∧
    ((st201.powered = true) ∧ (st201.get MODE = 1 ∨ st201.get MODE = 2 ∨ st201.get MODE = 3) ∧ (st201.get SWITCH_STATE ≠ 0) ∧ (st201.get SWITCH_STATE ≠ 2) ∧ (st201.get SWITCH_STATE ≠ 5)) ∧
    ((st202.powered = true) ∧ (st202.get MODE = 1 ∨ st202.get MODE = 2 ∨ st202.get MODE = 3) ∧ (st202.get SWITCH_STATE ≠ 0) ∧ (st202.get SWITCH_STATE ≠ 2) ∧ (st202.get SWITCH_STATE ≠ 5)) ∧
    ((st116.powered = true) ∧ (st116.get MODE = 1 ∨ st116.get MODE = 2 ∨ st116.get MODE = 3) ∧ (st116.get SWITCH_STATE = 0 ∨ st116.get SWITCH_STATE = 2 ∨ st116.get SWITCH_STATE = 5) ∧ (st116.nv.pkgs.look (st116.get PRELOAD_SLOT) = none)) ∧
    ((st203.powered = true) ∧ (st203.get MODE = 1 ∨ st203.get MODE = 2 ∨ st203.get MODE = 3) ∧ (st203.get SWITCH_STATE = 0 ∨ st203.get SWITCH_STATE = 2 ∨ st203.get SWITCH_STATE = 5) ∧ (st203.nv.pkgs.look (st203.get PRELOAD_SLOT) = none)) := ⟨by decide +kernel, by decide +kernel, by decide +kernel, by decide +kernel, by decide +kernel, by decide +kernel⟩
theorem witness_JobsLoad_2 :
    ((st204.powered = true) ∧ (st204.get MODE = 1 ∨ st204.get MODE = 2 ∨ st204.get MODE = 3) ∧ (st204.get SWITCH_STATE = 0 ∨ st204.get SWITCH_STATE = 2 ∨ st204.get SWITCH_STATE = 5) ∧ (st204.nv.pkgs.look (st204.get PRELOAD_SLOT) = some (jobMin 9))) ∧
    ((st205.powered = true) ∧ (st205.get MODE ≠ 0) ∧ (st205.get MODE ≠ 5) ∧ (st205.get WH_ALL_STOPPED ≠ 1) ∧ (st205.loadEngine.wharf.load ≠ 2) ∧ (st205.dramUnit.reload = []) ∧ (st205.web.pendingJob = some (pk 9 [(7, 0, [1])])) ∧ (st205.get SWITCH_STATE = 1) ∧ (st205.learningAny = false) ∧ (st205.get TIDE_PENDING ≠ 1) ∧ (∀ (b : Nat), b < 12 → st205.get EASEL_PAL_PENDING (2 * (b / 2) + st205.ctxOf b) ≠ 1) ∧ (st205.loadOk (pk 9 [(7, 0, [1])]) st205.web.pendingSlot = false)) ∧
    ((st206.powered = true) ∧ (st206.get MODE ≠ 0) ∧ (st206.get MODE ≠ 5) ∧ (st206.get WH_ALL_STOPPED ≠ 1) ∧ (st206.loadEngine.wharf.load ≠ 2) ∧ (st206.dramUnit.reload = []) ∧ (st206.web.pendingJob = some (jobMin 9)) ∧ (st206.get SWITCH_STATE = 1) ∧ (st206.learningAny = false) ∧ (st206.get TIDE_PENDING ≠ 1) ∧ (∀ (b : Nat), b < 12 → st206.get EASEL_PAL_PENDING (2 * (b / 2) + st206.ctxOf b) ≠ 1) ∧ (st206.loadOk (jobMin 9) st206.web.pendingSlot = true) ∧ (st206.ecat.m8Load = false)) ∧
    ((st89.powered = true) ∧ (st89.get MODE = 0 ∨ st89.get MODE = 5 ∨ st89.get WH_ALL_STOPPED = 1 ∨ st89.loadEngine.wharf.load = 2)) ∧
    ((st171.powered = true) ∧ (st171.get MODE = 0 ∨ st171.get MODE = 5 ∨ st171.get WH_ALL_STOPPED = 1 ∨ st171.loadEngine.wharf.load = 2)) := ⟨by decide +kernel, by decide +kernel, by decide +kernel, by decide +kernel, by decide +kernel⟩
theorem witness_JobsSwitch_1 :
    ((st89.powered = true) ∧ (st89.get MODE ≠ 1) ∧ (st89.get MODE ≠ 2) ∧ (st89.get MODE ≠ 3)) ∧
    ((st116.powered = true) ∧ (st116.get MODE = 1 ∨ st116.get MODE = 2 ∨ st116.get MODE = 3) ∧ (st116.get SWITCH_STATE ≠ 2)) ∧
    ((st207.powered = true) ∧ (st207.get MODE = 1 ∨ st207.get MODE = 2 ∨ st207.get MODE = 3) ∧ (st207.get SWITCH_STATE = 2) ∧ (st207.web.pendingJob = some jobV0) ∧ (st207.get MODE = 3) ∧ ((Package.views jobV0).all (st207.brings jobV0 st207.web.pendingSlot) = false)) ∧
    ((st208.powered = true) ∧ (st208.get MODE = 1 ∨ st208.get MODE = 2 ∨ st208.get MODE = 3) ∧ (st208.get SWITCH_STATE = 2) ∧ (st208.web.pendingJob = some (jobMin 9)) ∧ (st208.get MODE ≠ 3 ∨ (Package.views (jobMin 9)).all (st208.brings (jobMin 9) st208.web.pendingSlot) = true) ∧ (st208.exceeds (jobMin 9) st208.web.pendingSlot = true)) ∧
    ((st209.powered = true) ∧ (st209.get MODE = 1 ∨ st209.get MODE = 2 ∨ st209.get MODE = 3) ∧ (st209.get SWITCH_STATE = 2) ∧ (st209.web.pendingJob = some (jobMin 9)) ∧ (st209.get MODE ≠ 3 ∨ (Package.views (jobMin 9)).all (st209.brings (jobMin 9) st209.web.pendingSlot) = true) ∧ (st209.exceeds (jobMin 9) st209.web.pendingSlot = false) ∧ (st209.get MODE ≠ 1) ∧ (st209.get SWITCH_MODE = 0 ∧ countDiff (st209.get SWITCH_COUNT) (st209.get WEB_HIGH_WATER) ≤ 0)) ∧
    ((st210.powered = true) ∧ (st210.get MODE = 1 ∨ st210.get MODE = 2 ∨ st210.get MODE = 3) ∧ (st210.get SWITCH_STATE = 2) ∧ (st210.web.pendingJob = some (jobMin 9)) ∧ (st210.get MODE ≠ 3 ∨ (Package.views (jobMin 9)).all (st210.brings (jobMin 9) st210.web.pendingSlot) = true) ∧ (st210.exceeds (jobMin 9) st210.web.pendingSlot = false) ∧ (st210.get MODE ≠ 1) ∧ (st210.get SWITCH_MODE = 0 ∧ countDiff (st210.get SWITCH_COUNT) (st210.get WEB_HIGH_WATER) ≤ 0)) := ⟨by decide +kernel, by decide +kernel, by decide +kernel, by decide +kernel, by decide +kernel, by decide +kernel⟩
theorem witness_JobsSwitch_2 :
    ((st211.powered = true) ∧ (st211.get MODE = 1 ∨ st211.get MODE = 2 ∨ st211.get MODE = 3) ∧ (st211.get SWITCH_STATE = 2) ∧ (st211.web.pendingJob = some (jobMin 9)) ∧ (st211.get MODE ≠ 3 ∨ (Package.views (jobMin 9)).all (st211.brings (jobMin 9) st211.web.pendingSlot) = true) ∧ (st211.exceeds (jobMin 9) st211.web.pendingSlot = false) ∧ (st211.get MODE ≠ 1) ∧ (¬(st211.get SWITCH_MODE = 0 ∧ countDiff (st211.get SWITCH_COUNT) (st211.get WEB_HIGH_WATER) ≤ 0))) ∧
    ((st212.powered = true) ∧ (st212.get MODE = 1 ∨ st212.get MODE = 2 ∨ st212.get MODE = 3) ∧ (st212.get SWITCH_STATE = 2) ∧ (st212.web.pendingJob = some (jobMin 9)) ∧ (st212.get MODE ≠ 3 ∨ (Package.views (jobMin 9)).all (st212.brings (jobMin 9) st212.web.pendingSlot) = true) ∧ (st212.exceeds (jobMin 9) st212.web.pendingSlot = false) ∧ (st212.get MODE ≠ 1) ∧ (¬(st212.get SWITCH_MODE = 0 ∧ countDiff (st212.get SWITCH_COUNT) (st212.get WEB_HIGH_WATER) ≤ 0))) ∧
    ((st213.powered = true) ∧ (st213.get MODE = 1 ∨ st213.get MODE = 2 ∨ st213.get MODE = 3) ∧ (st213.get SWITCH_STATE = 2) ∧ (st213.web.pendingJob = some (jobMin 9)) ∧ (st213.get MODE = 1) ∧ (st213.exceeds (jobMin 9) st213.web.pendingSlot = false)) ∧
    ((st214.powered = true) ∧ (st214.get SWITCH_STATE = 3)) ∧
    ((st210.powered = true) ∧ (st210.get SWITCH_STATE ≠ 3)) := ⟨by decide +kernel, by decide +kernel, by decide +kernel, by decide +kernel, by decide +kernel⟩
theorem witness_PowerStagesAndMains_1 :
    ((st116.powered = true)) ∧
    ((st215.powered = true) ∧ (10 * st215.capacity < st215.required) ∧ (bit (st215.get HOLD_CAUSE) 4 = false)) ∧
    ((st116.powered = true) ∧ (2 < 3) ∧ (st116.get PSU_STAGE_STATE 2 = 0)) ∧
    ((st216.powered = true) ∧ (2 < 3) ∧ (st216.get PSU_STAGE_STATE 2 ≠ 0)) ∧
    ((st217.powered = true)) ∧
    ((st218.powered = true)) := ⟨by decide +kernel, by decide +kernel, by decide +kernel, by decide +kernel, by decide +kernel, by decide +kernel⟩
theorem witness_PowerStagesAndMains_2 :
    ((st116.powered = true) ∧ (st116.power.peakAt + 12000000 ≤ st116.now + 12000000) ∧ (st116.power.lossAt = none) ∧ (st116.get MAINS_STATE ≠ 2)) ∧
    ((st217.powered = true) ∧ (st217.power.peakAt + 12000000 ≤ st217.now + 12000000) ∧ (st217.power.lossAt = none) ∧ (st217.get MAINS_STATE = 2)) ∧
    ((st219.powered = true) ∧ (st219.power.lossAt = some 0) ∧ (st219.get MAINS_STATE = 2) ∧ (0 + 20000000 ≤ st219.now + 20000000)) ∧
    ((st219.powered = true) ∧ (st219.power.lossAt = some 0) ∧ (st219.get MAINS_STATE = 2) ∧ (st219.now + 19999999 < 0 + 20000000)) := ⟨by decide +kernel, by decide +kernel, by decide +kernel, by decide +kernel⟩
theorem witness_HeatWatchdogAndSupply_1 :
    ((st116.powered = true)) ∧
    ((st220.powered = true)) ∧
    ((st221.powered = true) ∧ (st221.power.hotAt = some 0) ∧ (0 + 1000000 ≤ st221.now + 1000000)) ∧
    ((st220.powered = true) ∧ (st220.power.hotAt = some 3) ∧ (st220.now + 1000002 < 3 + 1000000)) ∧
    ((st222.powered = true) ∧ (st222.power.wdtAt = some 3) ∧ (3 + 2000000000 ≤ st222.now + 2000000003)) ∧
    ((st222.powered = true) ∧ (st222.power.wdtAt = some 3) ∧ (st222.now + 2000000002 < 3 + 2000000000)) := ⟨by decide +kernel, by decide +kernel, by decide +kernel, by decide +kernel, by decide +kernel, by decide +kernel⟩
theorem witness_HeatWatchdogAndSupply_2 :
    ((st116.powered = true) ∧ (17999 < 18000)) ∧
    ((st223.powered = true) ∧ (18000 ≤ 18000)) := ⟨by decide +kernel, by decide +kernel⟩
theorem witness_DomainsAndIslands_1 :
    ((st224.powered = true) ∧ (50 < 51) ∧ (st224.power.rise = [50]) ∧ (st224.testing = false)) ∧
    ((st225.powered = true) ∧ (0 < 51) ∧ (st225.power.rise = [0, 3]) ∧ (st225.testing = false)) ∧
    ((st224.powered = true) ∧ (50 < 51) ∧ (st224.power.rise = [50]) ∧ (st224.testing = false) ∧ (55 < 56) ∧ (55 ≠ 50)) ∧
    ((st226.powered = true) ∧ (73 < 74) ∧ (st226.get ISLAND_STATE 73 = 3) ∧ (1024 ≤ 1024)) ∧
    ((st226.powered = true) ∧ (73 < 74) ∧ (st226.get ISLAND_STATE 73 ≠ 3 ∨ 1023 < 1024)) ∧
    ((st226.powered = true) ∧ (73 < 74) ∧ (st226.get ISLAND_STATE 73 = 3) ∧ (st226.power.lockRetry.contains 73 = false)) := ⟨by decide +kernel, by decide +kernel, by decide +kernel, by decide +kernel, by decide +kernel, by decide +kernel⟩
theorem witness_DomainsAndIslands_2 :
    ((st227.powered = true) ∧ (73 < 74) ∧ (st227.get ISLAND_STATE 73 = 3) ∧ (st227.power.lockRetry.contains 73 = true)) ∧
    ((st228.powered = true) ∧ (0 < 74) ∧ (st228.get ISLAND_STATE = 3) ∧ (st228.power.lockRetry.contains 0 = true)) ∧
    ((st229.powered = true) ∧ (73 < 74) ∧ (st229.canWake 73 = true) ∧ (st229.get MODE ≠ 5)) ∧
    ((st230.powered = true) ∧ (73 < 74) ∧ (st230.canWake 73 = false ∨ st230.get MODE = 5)) ∧
    ((st231.powered = true) ∧ (73 < 74) ∧ (st231.power.moor.contains 73 = true)) ∧
    ((st105.powered = true) ∧ (73 < 74) ∧ (st105.power.moor.contains 73 = false)) := ⟨by decide +kernel, by decide +kernel, by decide +kernel, by decide +kernel, by decide +kernel, by decide +kernel⟩
theorem witness_DomainsAndIslands_3 :
    ((st232.powered = true) ∧ (st232.get MODE_PENDING = 1) ∧ (st232.get MODE = 0) ∧ (st232.power.rise = []) ∧ (∀ (i : Nat), i < 51 → st232.get ISLAND_STATE i ≠ 3) ∧ (∀ (q : Nat), q < 13 → st232.quadUsed q = true → st232.get BAY_STATE q = 2)) ∧
    ((st272.powered = true) ∧ (st272.get MODE_PENDING = 1) ∧ (st272.get MODE = 0) ∧ (st272.power.rise = []) ∧ (∀ (i : Nat), i < 51 → st272.get ISLAND_STATE i ≠ 3) ∧ (∀ (q : Nat), q < 13 → st272.quadUsed q = true → st272.get BAY_STATE q = 2)) ∧
    ((st233.powered = true) ∧ (st233.get MODE_PENDING = 1) ∧ (st233.get MODE = 0) ∧ (st233.power.rise = []) ∧ (∀ (i : Nat), i < 51 → st233.get ISLAND_STATE i ≠ 3) ∧ (11 < 13) ∧ (st233.quadUsed 11 = true) ∧ (st233.get BAY_STATE 11 = 3) ∧ (∀ (c : Nat), c < 13 → st233.quadUsed c = true → st233.get BAY_STATE c = 2 ∨ st233.get BAY_STATE c = 3)) ∧
    ((st271.powered = true) ∧ (st271.get MODE_PENDING = 1) ∧ (st271.get MODE = 0) ∧ (st271.power.rise = []) ∧ (∀ (i : Nat), i < 51 → st271.get ISLAND_STATE i ≠ 3) ∧ (12 < 13) ∧ (st271.quadUsed 12 = true) ∧ (st271.get BAY_STATE 12 = 3) ∧ (∀ (c : Nat), c < 13 → st271.quadUsed c = true → st271.get BAY_STATE c = 2 ∨ st271.get BAY_STATE c = 3)) := ⟨by decide +kernel, by decide +kernel, by decide +kernel, by decide +kernel⟩
theorem witness_Resets_1 :
    ((st116.powered = true)) ∧
    ((st116.powered = true) ∧ (1999 < 2000)) ∧
    ((st116.powered = true) ∧ (2000 ≤ 2000) ∧ (2000 < 5000)) ∧
    ((st116.powered = true) ∧ (2000 ≤ 4999) ∧ (4999 < 5000)) ∧
    ((st116.powered = true) ∧ (5000 ≤ 5000)) ∧
    ((st234.power.tripped = true) ∧ (st234.now + 59999999999 < st234.power.offAt.getD 0 + 60000000000)) := ⟨by decide +kernel, by decide +kernel, by decide +kernel, by decide +kernel, by decide +kernel, by decide +kernel⟩
theorem witness_Resets_2 :
    ((st234.power.tripped = false ∨ st234.power.offAt.getD 0 + 60000000000 ≤ st234.now + 60000000005)) ∧
    ((st235.power.tripped = false ∨ st235.power.offAt.getD 0 + 60000000000 ≤ st235.now + 5)) := ⟨by decide +kernel, by decide +kernel⟩
theorem witness_LogbookAndWear_1 :
    ((st116.powered = true) ∧ (st116.power.halted = false) ∧ (st116.upkeep.countersAt + 600000000000 ≤ st116.now + 600000000000)) ∧
    ((st116.powered = true) ∧ (st116.power.halted = true ∨ st116.now + 599999999999 < st116.upkeep.countersAt + 600000000000)) ∧
    ((st273.powered = true) ∧ (st273.power.halted = true ∨ st273.now + 600000000000 < st273.upkeep.countersAt + 600000000000)) ∧
    ((st116.powered = true) ∧ (st116.power.halted = false) ∧ (st116.upkeep.wearAt + 86400000000000 ≤ st116.now + 86400000000000)) ∧
    ((st116.powered = true) ∧ (st116.power.halted = true ∨ st116.now + 86399999999999 < st116.upkeep.wearAt + 86400000000000)) ∧
    ((st273.powered = true) ∧ (st273.power.halted = true ∨ st273.now + 86400000000000 < st273.upkeep.wearAt + 86400000000000)) := ⟨by decide +kernel, by decide +kernel, by decide +kernel, by decide +kernel, by decide +kernel, by decide +kernel⟩
theorem witness_LogbookAndWear_2 :
    ((st154.powered = true) ∧ (4 ≠ 1701865847)) ∧
    ((st105.powered = true) ∧ (1701865847 = 1701865847) ∧ (st105.get MODE ≠ 0)) ∧
    ((st154.powered = true) ∧ (1701865847 = 1701865847) ∧ (st154.get MODE = 0)) ∧
    ((st236.powered = true) ∧ (103 < 104) ∧ ((List.replicate 104 9)[103]? = some 9) ∧ (st236.get PD_STATE (103 / 4) = 1)) ∧
    ((st105.powered = true) ∧ (103 < 104) ∧ (st105.get PD_STATE (103 / 4) ≠ 1)) ∧
    ((st105.powered = true) ∧ (5 < 6) ∧ (st105.get FAN_STATE 5 ≠ 1)) := ⟨by decide +kernel, by decide +kernel, by decide +kernel, by decide +kernel, by decide +kernel, by decide +kernel⟩
theorem witness_LogbookAndWear_3 :
    ((st238.powered = true) ∧ (5 < 6) ∧ (st238.get FAN_STATE 5 = 1)) ∧
    ((st105.powered = true) ∧ (st105.blob FAN_TRAY_SERIAL ≠ [1, 2])) ∧
    ((st105.powered = true) ∧ (st105.blob FAN_TRAY_SERIAL = R.blob FAN_TRAY_SERIAL)) ∧
    ((st105.powered = true) ∧ (st105.upkeep.sampleAt + 1000000 ≤ st105.now + 1000000)) ∧
    ((st105.powered = true) ∧ (st105.now + 999999 < st105.upkeep.sampleAt + 1000000)) := ⟨by decide +kernel, by decide +kernel, by decide +kernel, by decide +kernel, by decide +kernel⟩
theorem witness_Snapshots_1 :
    ((st105.powered = true) ∧ (63 < 64)) ∧
    ((st90.powered = true) ∧ (63 ≤ 63) ∧ (st90.get MODE ≠ 1) ∧ (st90.get MODE ≠ 2) ∧ (st90.get MODE ≠ 3)) ∧
    ((st239.powered = true) ∧ (63 ≤ 63) ∧ (st239.get MODE = 1 ∨ st239.get MODE = 2 ∨ st239.get MODE = 3) ∧ (st239.get SNAP_STATE = 1)) ∧
    ((st116.powered = true) ∧ (63 ≤ 63) ∧ (st116.get MODE = 1 ∨ st116.get MODE = 2 ∨ st116.get MODE = 3) ∧ (st116.get SNAP_STATE ≠ 1) ∧ (st116.strip (st116.get SNAP_VIEW) (st116.get SNAP_FIRST_STRIP) = none)) ∧
    ((st240.powered = true) ∧ (63 ≤ 63) ∧ (st240.get MODE = 1 ∨ st240.get MODE = 2 ∨ st240.get MODE = 3) ∧ (st240.get SNAP_STATE ≠ 1) ∧ ((st240.strip (st240.get SNAP_VIEW) (st240.get SNAP_FIRST_STRIP)).isSome = true) ∧ (st240.get PF_STATE = 2 ∨ st240.snapBytesFree + (Option.map Snapshot.size (st240.snapOf 63)).getD 0 < 64 + st240.get SNAP_STRIPS * st240.snapBlock (st240.get SNAP_VIEW))) ∧
    ((st241.powered = true) ∧ (63 ≤ 63) ∧ (st241.get MODE = 1 ∨ st241.get MODE = 2 ∨ st241.get MODE = 3) ∧ (st241.get SNAP_STATE ≠ 1) ∧ ((st241.strip (st241.get SNAP_VIEW) (st241.get SNAP_FIRST_STRIP)).isSome = true) ∧ (st241.get PF_STATE ≠ 2) ∧ (64 + st241.get SNAP_STRIPS * st241.snapBlock (st241.get SNAP_VIEW) ≤ st241.snapBytesFree + (Option.map Snapshot.size (st241.snapOf 63)).getD 0)) := ⟨by decide +kernel, by decide +kernel, by decide +kernel, by decide +kernel, by decide +kernel, by decide +kernel⟩
theorem witness_Snapshots_2 :
    ((st242.powered = true) ∧ (st242.upkeep.snap = some (0, 63, 0, 1, 0)) ∧ (st242.get PF_STATE = 2)) ∧
    ((st243.powered = true) ∧ (st243.upkeep.snap = some (0, 63, 0, 1, 0)) ∧ (st243.get PF_STATE ≠ 2)) ∧
    ((st243.powered = true) ∧ (63 ≤ 63) ∧ (Option.any (fun x => x.snd.fst == 63) st243.upkeep.snap = true)) ∧
    ((st105.powered = true) ∧ (63 ≤ 63) ∧ (Option.any (fun x => x.snd.fst == 63) st105.upkeep.snap = false)) := ⟨by decide +kernel, by decide +kernel, by decide +kernel, by decide +kernel⟩
theorem witness_ClearCommands :
    ((st116.powered = true) ∧ (11 < 12)) ∧
    ((st116.powered = true)) ∧
    ((st116.powered = true) ∧ (5 < 6)) ∧
    ((st116.powered = true) ∧ (3 < 6)) ∧
    ((st116.powered = true) ∧ (3 < 4)) := ⟨by decide +kernel, by decide +kernel, by decide +kernel, by decide +kernel, by decide +kernel⟩
theorem witness_TalliesSaturate :
    ((3 < SEAM_LATE_DISCARD.count) ∧ (SEAM_LATE_DISCARD.ty = Ty.u32) ∧ (outCheck bookRegs (SEAM_LATE_DISCARD.key 3) = true) ∧ (st116.get SEAM_LATE_DISCARD 3 + 5 < 4294967295)) ∧
    ((3 < SEAM_LATE_DISCARD.count) ∧ (SEAM_LATE_DISCARD.ty = Ty.u32) ∧ (outCheck bookRegs (SEAM_LATE_DISCARD.key 3) = true) ∧ (st244.get SEAM_LATE_DISCARD 3 < 4294967295) ∧ (4294967295 ≤ st244.get SEAM_LATE_DISCARD 3 + 5)) ∧
    ((3 < SEAM_LATE_DISCARD.count) ∧ (SEAM_LATE_DISCARD.ty = Ty.u32) ∧ (outCheck bookRegs (SEAM_LATE_DISCARD.key 3) = true) ∧ (st244.get SEAM_LATE_DISCARD 3 < 4294967295) ∧ (4294967295 ≤ st244.get SEAM_LATE_DISCARD 3 + 5) ∧ ((st244.evt.xing.look 188).getD 0 < 15)) ∧
    ((3 < SEAM_LATE_DISCARD.count) ∧ (SEAM_LATE_DISCARD.ty = Ty.u32) ∧ (outCheck bookRegs (SEAM_LATE_DISCARD.key 3) = true) ∧ (st245.get SEAM_LATE_DISCARD 3 = 4294967295)) := ⟨by decide +kernel, by decide +kernel, by decide +kernel, by decide +kernel⟩
theorem witness_SelfTestsOfQuarantineOnly :
    ((st105.powered = true) ∧ (12 < 13) ∧ (4 ≤ 4) ∧ (st105.get SLICE_STATE (5 * 12 + 4) ≠ 2)) ∧
    ((st105.powered = true) ∧ (6 ≤ 6) ∧ (st105.get EASEL_PHYS_STATE 6 ≠ 2)) ∧
    ((st105.powered = true) ∧ (103 ≤ 103) ∧ (st105.get TILE_PHYS_STATE 103 ≠ 2)) ∧
    ((st105.powered = true) ∧ (12 < 13) ∧ (st105.get DRAM_PKG_STATE 12 ≠ 2)) := ⟨by decide +kernel, by decide +kernel, by decide +kernel, by decide +kernel⟩

/-! ## Ill-formed commands: each check of `Instr.wf` refuses one -/

theorem illFormed_1 : [
    .encWireFault 0 9 0,
    .sincosQuadrantEdge 0 2 0 0,
    .sincosQuadrantEdge 0 0 4 0,
    .auxCount 0 2 true true 0,
    .pulseEdge 0 2,
    .pulseDividerWrite 0 .sdo 2 true 0,
    .triggerWidthEnd 0 12,
    .bayRetry 0 .sdo 12,
    .cxpSignalDetect 0 12 { lane := 0 },
    .cxpSignalDetect 0 0 { lane := 4 },
    .cxpDiscoveryDone 0 12 none,
    .cxpStepUpLock 0 12].all (fun c => !Instr.wf c) = true := by decide
theorem illFormed_2 : [
    .cxpStepUpTimeout 0 12,
    .laneStepDone 0 13 0 0,
    .laneStepDone 0 0 4 0,
    .laneStepTimeout 0 13 0,
    .laneStepTimeout 0 0 4,
    .laneLockLoss 0 13 0,
    .laneLockLoss 0 0 4,
    .laneRetrainFail 0 13 0,
    .laneRetrainFail 0 0 4,
    .laneRetrainDone 0 13 0,
    .laneRetrainDone 0 0 4,
    .blockLockGained 0 13 0 []].all (fun c => !Instr.wf c) = true := by decide
theorem illFormed_3 : [
    .blockLockGained 0 0 4 [],
    .alignOrderFault 0 4 0,
    .pocxpOverload 0 12 0 0 true,
    .laneBer 0 13 0 0 0,
    .laneBer 0 0 4 0 0,
    .sliceSelftest 0 .sdo 13 0,
    .sliceSelftestDone 0 13 0 0,
    .spareSliceCheckDone 0 13 0 0,
    .spareSliceCheckDone 0 0 5 0,
    .lbRunStart 0 .sdo 13 true,
    .lbRunStop 0 .sdo 13 0 0,
    .bayClear 0 .sdo 12].all (fun c => !Instr.wf c) = true := by decide
theorem illFormed_4 : [
    .cameraPacket 0 12 pkt,
    .cameraPacket 0 0 { pkt with lane := 4 },
    .cameraPacket 0 0 { pkt with slice := 5 },
    .lineLate 0 12 0,
    .tilePacket 0 6 0 [],
    .tilePacket 0 0 2 [],
    .easelLineDone 0 6 0 true,
    .easelLineDone 0 0 7 true,
    .easelLoadWindow 0 6,
    .easelCtxCommit 0 .sdo 6 0,
    .easelCtxCommit 0 .sdo 0 2,
    .easelPalCommit 0 .sdo 6 0,
    .easelPalCommit 0 .sdo 0 2].all (fun c => !Instr.wf c) = true := by decide
theorem illFormed_5 : [
    .easelClear 0 .sdo 6,
    .easelHbDeadline 0 6,
    .joinerSegment 0 12 0,
    .completionNote 0 12,
    .seamForcedComplete 0 4,
    .seamClear 0 .sdo 4,
    .regRowDone 0 4 0,
    .taskIssue 0 4,
    .fragment 0 ⟨104, 0⟩,
    .taskEnd 0 ⟨104, 0⟩ 0,
    .tileDeadline 0 96,
    .tileHeartbeatTask 0 96].all (fun c => !Instr.wf c) = true := by decide
theorem illFormed_6 : [
    .spareTileCheck 0 104,
    .markWidthEnd 0 16,
    .markOnLimit 0 16,
    .markerOvercurrent 0 16,
    .filterOutput 0 4 [],
    .fcPresetWrite 0 .sdo 4 0,
    .fcCoefCommit 0 .sdo 4,
    .fcCoefFactory 0 .sdo 4,
    .digitalInputEdge 0 16 true 0,
    .lutGlitchExpiry 0 32,
    .chanHoldoffEnd 0 64,
    .chanRateWindow 0 64].all (fun c => !Instr.wf c) = true := by decide
theorem illFormed_7 : [
    .timerExpire 0 16,
    .markPulse 0 16,
    .timerStart 0 16,
    .timerStop 0 16,
    .latch 0 16,
    .evtCount 0 16,
    .hostEvt 0 16,
    .ecatToggle 0 16,
    .fcSyncGroup 0 4,
    .detStart 0 4,
    .pulseZero 0 2,
    .chanCfgWrite 0 .sdo 64 0].all (fun c => !Instr.wf c) = true := by decide
theorem illFormed_8 : [
    .cellCfgWrite 0 .sdo 32 0,
    .dramPoisonRead 0 13 .supervisor,
    .dramPkgDead 0 13 .training,
    .whStart 0 .sdo 32,
    .whAbort 0 .sdo 32,
    .whFlush 0 .sdo 32 0,
    .whJobDone 0 32 [],
    .hlRingConsWrite 0 2 0 0,
    .hlRingConsWrite 0 0 4 0,
    .hlMboxTailWrite 0 2 0,
    .hlIrqStatusWrite 0 2 true 0,
    .msixUnmask 0 2 0].all (fun c => !Instr.wf c) = true := by decide
theorem illFormed_9 : [
    .msixUnmask 0 0 64,
    .hlWhCommitLoRead 0 2 0,
    .hlWhCommitLoRead 0 0 32,
    .hlWindowRead 0 2 0 0,
    .hlWindowRead 0 0 (2 ^ 27) 0,
    .hlWindowWrite 0 2 0 [],
    .hlWindowWrite 0 0 (2 ^ 27) [],
    .apertureWrite 0 2 0 [],
    .apertureWrite 0 0 (2 ^ 30) [0],
    .ringEnableWrite 0 .sdo 5 0,
    .camRead 0 2 0 0 0,
    .camWrite 0 2 0 0 []].all (fun c => !Instr.wf c) = true := by decide
theorem illFormed_10 : [
    .camReply 0 12 [],
    .ptTimeout 0 12,
    .ringCoalesceExpiry 0 5,
    .linkDown 0 2,
    .sync0 0 2,
    .barIdentRead 0 12 none 0,
    .barLifeTick 0 12 0 0 0,
    .barLifeWrite 0 12,
    .barFault 0 12 .overTemp,
    .trimDue 0 12,
    .trimNow 0 .sdo 12,
    .psuStageFault 0 3].all (fun c => !Instr.wf c) = true := by decide
theorem illFormed_11 : [
    .domainPowergood 0 56,
    .domainPowergoodTimeout 0 56,
    .islandRelease 0 74 0,
    .islandLockTimeout 0 74,
    .islandWake 0 74,
    .mooringToken 0 74,
    .fanDeficit 0 6,
    .hostLinkUp 0 2 0 0,
    .spareTileCheckDone 0 104 true,
    .seamHoldbackEnd 0 4].all (fun c => !Instr.wf c) = true := by decide
/-! ## Witnesses of the general statements -/

/-- READY with a clear command waiting. -/
def queued : State := { M 1 with pending := [.bayClear 5 .sdo 3] }

theorem witness_StepRunsFrontCommand : (M 1).pending = [] := by decide +kernel

theorem witness_CommandsComplete : Instr.wf (.bayClear 5 .sdo 3) = true ∧ Instr.wf (.bayClear 5 .sdo 12) = false := by decide

theorem witness_SafetyKept : soundCheck queued = true ∧ queued.pending.all Instr.wf = true := by decide +kernel

theorem witness_CommandFrames : ∃ f t, footprint (.bayClear 5 .sdo 3) = some f ∧ exec (.bayClear 5 .sdo 3) (M 1) = .next t ∧
    f.dram = false ∧ f.host = false ∧ f.blobs = false := ⟨_, _, rfl, rfl, rfl, rfl, rfl⟩

theorem witness_CommandFrames_register :
    ((footprint (.bayClear 5 .sdo 3)).any (fun f => outCheck f.regs (MODE.key 0))) = true := by decide +kernel

theorem witness_PlainWriteFrame : isMap 8987 = false ∧ placeNo ((M 1).place 8987 2) = 16 * EXP_WIDTH_NS.base + 11 ∧
    EXP_WIDTH_NS.ty.bytes ≠ 0 ∧ EXP_WIDTH_NS.mirror = false ∧ EXP_WIDTH_NS.acc ≠ .cmd ∧
    writesOwn.all (fun e => e.1 != EXP_WIDTH_NS.base) = true ∧ MODE.key 0 ≠ EXP_WIDTH_NS.key 11 ∧
    outCheck (bookRegs ++ logRegs ++ [HL_DICT_ERRORS, BAR_CURRENT_MA, BAR_STATE, TRACE_HEAD]) (MODE.key 0) = true := by
  decide +kernel

theorem witness_PlainWriteFrame_next : ∃ t, exec (.objectWrite 5 .sdo 8987 2 (leBytes 4 100)) (M 1) = .next t := ⟨_, rfl⟩

theorem witness_UnpoweredOnlyTimePasses : ({ M 1 with powered := false } : State).powered = false ∧
    Instr.wf (.bayClear 5 .sdo 3) = true := by decide +kernel

theorem witness_DictionaryUnambiguous : MODE.base ≠ EXP_WIDTH_NS.base ∧ 0 < MODE.count ∧ 11 < EXP_WIDTH_NS.count ∧
    rows.any (fun o => o.base == MODE.base) = true ∧ rows.any (fun o => o.base == EXP_WIDTH_NS.base) = true := by decide +kernel

/-! ## Small tests; the expected numbers come from the spec or from the published check values of the two CRCs -/

/-- The state a command answers, where it answers one. -/
def after (c : Instr) (s : State) : State := match exec c s with
  | .next t => t
  | _ => s

/-- The CRC catalogue's check value of CRC-32C over the digits 1 to 9. -/
theorem test_crc32c_check : crc32c [0x31, 0x32, 0x33, 0x34, 0x35, 0x36, 0x37, 0x38, 0x39] = 0xE3069283 := by decide +kernel

/-- The CRC catalogue's check value of CRC-32 over the digits 1 to 9. -/
theorem test_crc32_check : crc32 [0x31, 0x32, 0x33, 0x34, 0x35, 0x36, 0x37, 0x38, 0x39] = 0xCBF43926 := by decide +kernel

/-- R301: 64 clocks for the constants and 8 for the one NOP. -/
theorem test_tide_clocks_of_nop : tideClocks tideV0 0 = 72 := by decide +kernel

/-- R357: with 0.625 µm in a count (0xA000 / 65,536), 1 mm is 1,600 counts. -/
theorem test_counts_of_a_millimetre : umToCounts 1000 0xA000 = 1600 := by decide +kernel

/-- R269: physical tile 95 serves logical tile 95 at the factory, and tile 96 is a spare. -/
theorem test_factory_tiles : State.reset.get TILE_PHYS 95 = 95 ∧ State.reset.get TILE_PHYS_STATE 96 = 1 := by decide +kernel

/-- R535: 99 ns is below the least trigger width of 100 ns: abort code 0x0609_0032, and the value stays. -/
theorem test_width_too_low : (after (.objectWrite 5 .sdo 8976 2 (leBytes 4 99)) (M 1)).abort = 0x06090032 ∧
    (after (.objectWrite 5 .sdo 8976 2 (leBytes 4 99)) (M 1)).get EXP_WIDTH_NS = 2000 := by decide +kernel

/-- R11: MODE is read-only: abort code 0x0601_0002. -/
theorem test_mode_read_only : (after (.objectWrite 5 .sdo (MODE.base / 256) (MODE.base % 256) [1]) (M 1)).abort = 0x06010002 := by
  decide +kernel

/-- R59, R66: HOLD is entered at once from READY, with cause COMMAND. -/
theorem test_hold_at_once : (after (.modeRequest 5 .sdo 5) (M 1)).get MODE = 5 ∧
    (after (.modeRequest 5 .sdo 5) (M 1)).get HOLD_CAUSE = 1 := by decide +kernel

/-- R60: INSPECT is not to be had from DORMANT: ILLEGAL. -/
theorem test_inspect_from_dormant : (after (.modeRequest 5 .sdo 3) (M 0)).get MODE_RESULT = 3 := by decide +kernel

/-- R102, by hand: after a lone 1 the scrambler's register feeds it back 39 and 58 bits later; the descrambler undoes it. -/
theorem test_scrambler : (scramble 64 0 1).1 = 1 + 2 ^ 39 + 2 ^ 58 ∧ (descramble 64 0 (1 + 2 ^ 39 + 2 ^ 58)).1 = 1 := by decide +kernel

/-- R248, by hand: scores 1, 4 and 3 around a peak at 2 put it a quarter of a pixel on, 36 sixteenths. -/
theorem test_sub_pixel : subPixel 2 1 4 3 = 36 := by decide +kernel

/-- R369: a held change of the A/B state is one count. -/
theorem test_one_count : (after (.encCount 5 true false 1000) State.reset).get WEB_COUNT = 1 ∨
    (after (.encCount 5 true false 1000) State.reset).get WEB_COUNT = 2 ^ 64 - 1 := by decide +kernel

/-- R664: a self-test of a spare tile is refused with 0x0800_0022. -/
theorem test_selftest_of_spare : (after (.tileSelftest 5 .sdo 103) (M 1)).abort = 0x08000022 := by decide +kernel

/-- R597: the watchdog's expiry enters HOLD with cause SUPERVISOR. -/
theorem test_watchdog_holds : (after (.wdtExpiry 5) (M 3)).get MODE = 5 ∧ bit ((after (.wdtExpiry 5) (M 3)).get HOLD_CAUSE) 1 = true := by
  decide +kernel

/-- R550: a channel in FAULT stays there when its bar is taken off and connected again, until READY is entered. -/
theorem test_bar_fault_latched :
    let s := after (.barFault 5 11 .openLoad) ((M 1).set BAR_STATE 11 1)
    (after (.barIdentRead 5 11 (some barImage) 20000) (after (.barIdentRead 5 11 none 20000) s)).get BAR_STATE 11 = 3 := by
  decide +kernel

/-- R625: a group whose last tile of use goes to QUARANTINE loses its power. -/
theorem test_empty_group_off :
    let s := { ((((M 1).set PD_STATE 25 1).set TILE_PHYS_STATE 100 3).set TILE_PHYS_STATE 101 2).set TILE_PHYS_STATE 102 2 with
      bench := { tileCheck := some (103, 0) } }
    (after (.spareTileCheckDone 5 103 false) s).get PD_STATE 25 = 0 := by decide +kernel

/-- A step runs the command that waits and leaves the queue without it. -/
theorem test_step_takes_front : (match Sys2Proof.Machine.step queued with
    | .next t => t.pending
    | _ => [.powerCheck 0]) = [] := by decide +kernel

end Sys2Proof.Tests
end

section
/-! SUPPORT. Repeat numbers and epochs (R22): what opening a repeat writes, and that making a job active leaves the numbering
as it is. -/
namespace Sys2Proof.Machine
open Reg

/-! ## Opening a repeat -/

section
variable (s : State)

/-- The number counts on modulo 2^32 (R22). -/
theorem openRepeat_number (line count : Nat) (phase : Option Nat) (unreg : Bool) :
    (s.openRepeat line count phase unreg).get REPEAT_NUMBER = (s.get REPEAT_NUMBER + 1) % 2 ^ 32 := by
  unfold State.openRepeat
  rw [get_set_other (by decide), get_set_other (by decide), get_set_other (by decide)]
  exact get_set_fits (by decide) (Nat.mod_lt _ (by decide))

/-- The epoch counts on modulo 2^16, where the number wraps and only there (R22). -/
theorem openRepeat_epoch (line count : Nat) (phase : Option Nat) (unreg : Bool) :
    (s.openRepeat line count phase unreg).get REPEAT_EPOCH =
      (if (s.get REPEAT_NUMBER + 1) % 2 ^ 32 = 0 then s.get REPEAT_EPOCH + 1 else s.get REPEAT_EPOCH) % 2 ^ 16 := by
  unfold State.openRepeat
  rw [get_set_other (by decide), get_set_other (by decide)]
  exact get_set_same (by decide)

/-- The repeat that is open then carries the epoch and the number that the registers show (R22). -/
theorem openRepeat_key (line count : Nat) (phase : Option Nat) (unreg : Bool) :
    (s.openRepeat line count phase unreg).web.open_.map Rep.key =
      some ((s.openRepeat line count phase unreg).get REPEAT_EPOCH * 2 ^ 32 +
        (s.openRepeat line count phase unreg).get REPEAT_NUMBER) := by
  rw [openRepeat_epoch, openRepeat_number]
  rfl

/-! ## Making a job active -/

/-- The registers that making a job active may move (R31, R41, R50). -/
def activateRegs : List Obj :=
  presetRegs ++ (logRegs ++ (bookRegs ++
    [ACTIVE_SLOT, BAR_CURRENT_MA, BAR_STATE, EXP_APPLY_STRIP, EXP_COMMIT_REPLACED, EXP_PENDING, JOB_STAMP, JOB_START_COUNT,
      LIGHT_POWER_W, REG_CAPTURES, REG_LEARN_STATE, REG_SLOT_ACTIVE, REG_UP_PRESENT, SWITCH_LINE, SWITCH_RESULT,
      TIDE_APPLY_LINE, TIDE_BANK_ACTIVE, TIDE_GENERATION, TIDE_PENDING]))

/-- Making a job active leaves every other register as it is. -/
theorem activateJob_get {o : Obj} {i : Nat} (ho : Out activateRegs (o.key i)) (p : Package) (slot n c strip : Nat) :
    (s.activateJob p slot n c strip).get o i = s.get o i := by
  simp only [activateRegs, out_append] at ho
  exact get_of_keep (keep_activateJob ho (holds_reg s (o.key i)))

theorem out_activateRegs_repeatNumber : Out activateRegs (REPEAT_NUMBER.key 0) := out_of_check (by decide +kernel)

theorem out_activateRegs_repeatEpoch : Out activateRegs (REPEAT_EPOCH.key 0) := out_of_check (by decide +kernel)

end

/-! ## The statement -/

/-- Settles O60: what opening a repeat writes, and the frame of making a job active, to which neither register belongs. -/
theorem repeatNumbers : Obligations.RepeatNumbers := by
  unfold Obligations.RepeatNumbers
  intro s
  constructor
  · intro line count phase unreg
    exact ⟨openRepeat_number s line count phase unreg, openRepeat_epoch s line count phase unreg,
      openRepeat_key s line count phase unreg⟩
  · intro p slot n c strip
    exact ⟨activateJob_get s out_activateRegs_repeatNumber p slot n c strip,
      activateJob_get s out_activateRegs_repeatEpoch p slot n c strip⟩

end Sys2Proof.Machine
end

section
/-! SUPPORT. Refused commands, and the self-tests of units that are not in quarantine (R535, R664): what a tally may move, what a
refusal may move, and that each of the four self-test commands is refused with one abort code. -/
namespace Sys2Proof.Machine
open Reg

/-! ## What a tally moves: registers, SAT bits, events and the trace -/

/-- `t` is `s` but for the registers, the SAT bits, the events and the trace. -/
def State.BooksOnly (s t : State) : Prop :=
  ∃ d sa ev tr, t = { s with dict := d, sat := sa, evt := ev, trace := tr }

theorem booksOnly_refl (s : State) : s.BooksOnly s := ⟨_, _, _, _, rfl⟩

theorem State.BooksOnly.trans {s t u : State} (h : s.BooksOnly t) (h' : t.BooksOnly u) : s.BooksOnly u := by
  obtain ⟨_, _, _, _, rfl⟩ := h
  obtain ⟨_, _, _, _, rfl⟩ := h'
  exact ⟨_, _, _, _, rfl⟩

section
variable (s : State)

theorem booksOnly_bump (o : Obj) (i n : Nat) : s.BooksOnly (s.bump o i n).1 := by
  unfold State.bump
  dsimp only
  split
  · exact booksOnly_refl s
  · exact ⟨_, _, _, _, rfl⟩

theorem booksOnly_markSat (k : Key) : s.BooksOnly (s.markSat k) := ⟨_, _, _, _, rfl⟩

theorem booksOnly_pulseIn (p : Nat) : s.BooksOnly (s.pulseIn p) := by
  unfold State.pulseIn
  split <;> exact ⟨_, _, _, _, rfl⟩

theorem booksOnly_lostPulse (p : Nat) : s.BooksOnly (s.lostPulse p).1 :=
  State.BooksOnly.trans ⟨_, _, _, _, rfl⟩ (booksOnly_bump _ _ _ _)

theorem booksOnly_pulseSaturated : s.BooksOnly s.pulseSaturated := by
  unfold State.pulseSaturated
  dsimp only
  split
  · split
    · exact (booksOnly_lostPulse s _).trans (booksOnly_markSat _ _)
    · exact booksOnly_lostPulse s _
  · exact booksOnly_pulseIn s _

theorem booksOnly_traceAdd (r : TraceRec) : s.BooksOnly (s.traceAdd r) := by
  unfold State.traceAdd
  dsimp only
  split
  · exact ⟨_, _, _, _, rfl⟩
  · have lost : s.BooksOnly { (s.bump TRACE_LOST 0 1).1 with
        trace := { (s.bump TRACE_LOST 0 1).1.trace with lostFlag := true } } :=
      (booksOnly_bump s _ _ _).trans ⟨_, _, _, _, rfl⟩
    split
    · exact lost.trans ((booksOnly_markSat _ _).trans (booksOnly_pulseSaturated _))
    · exact lost

theorem booksOnly_traceRec (typ island code arg0 arg1 : Nat) : s.BooksOnly (s.traceRec typ island code arg0 arg1) := by
  unfold State.traceRec
  split
  · exact booksOnly_traceAdd s _
  · exact booksOnly_refl s

theorem booksOnly_traceEvent (p : Nat) : s.BooksOnly (s.traceEvent p) := by
  unfold State.traceEvent
  split
  · exact booksOnly_traceRec s _ _ _ _ _
  · exact booksOnly_refl s

theorem booksOnly_saturate (k : Key) : s.BooksOnly (s.saturate k) :=
  (booksOnly_markSat s k).trans ((booksOnly_traceRec _ _ _ _ _ _).trans
    ((booksOnly_pulseSaturated _).trans (booksOnly_traceEvent _ _)))

theorem booksOnly_tallyN (o : Obj) (i n : Nat) : s.BooksOnly (s.tallyN o i n) := by
  unfold State.tallyN
  dsimp only
  split
  · exact booksOnly_refl s
  · split
    · exact (booksOnly_bump s o i n).trans (booksOnly_saturate _ _)
    · exact booksOnly_bump s o i n

/-! ## What a refusal moves -/

/-- A refusal records its abort code, and beside the books the dictionary window's function record. -/
theorem refuse_eq (via : Path) (k : Key) (code : Nat) : ∃ d sa ev tr, s.refuse via k code =
    { s with abort := code, dict := d, sat := sa, evt := ev, trace := tr, host := (s.refuse via k code).host } := by
  cases via
  case window f =>
    obtain ⟨d, sa, ev, tr, h⟩ := booksOnly_tallyN
      (({ s with abort := code } : State).modFn f (fun x => { x with errAddr := k, errCode := code })) HL_DICT_ERRORS 0 1
    refine ⟨d, sa, ev, tr, ?_⟩
    simp only [State.refuse, tally_eq, h]
    rfl
  all_goals exact ⟨_, _, _, _, rfl⟩

@[simp] theorem refuse_abort (via : Path) (k : Key) (code : Nat) : (s.refuse via k code).abort = code := by
  obtain ⟨_, _, _, _, h⟩ := refuse_eq s via k code; rw [h]

@[simp] theorem refuse_quads (via : Path) (k : Key) (code : Nat) : (s.refuse via k code).quads = s.quads := by
  obtain ⟨_, _, _, _, h⟩ := refuse_eq s via k code; rw [h]

@[simp] theorem refuse_bench (via : Path) (k : Key) (code : Nat) : (s.refuse via k code).bench = s.bench := by
  obtain ⟨_, _, _, _, h⟩ := refuse_eq s via k code; rw [h]

@[simp] theorem refuse_dram (via : Path) (k : Key) (code : Nat) : (s.refuse via k code).dram = s.dram := by
  obtain ⟨_, _, _, _, h⟩ := refuse_eq s via k code; rw [h]

/-- A refusal leaves every register as it is but those of the books and the tally of the dictionary window's errors. -/
theorem refuse_get {o : Obj} {i : Nat} (h : Out bookRegs (o.key i) ∧ Out [HL_DICT_ERRORS] (o.key i)) (via : Path) (k : Key)
    (code : Nat) : (s.refuse via k code).get o i = s.get o i :=
  get_of_keep (keep_refuse h (holds_reg s (o.key i)))

end

/-! ## A command that is refused -/

/-- The registers that a refused command may move, the trace's head with the time that passes before it. -/
def refusalRegs : List Obj := bookRegs ++ ([HL_DICT_ERRORS] ++ [TRACE_HEAD])

/-- `t` follows `s` by a command refused with `code`: the units' records, the memory and all but a few registers are as before. -/
structure State.RefusedTo (s : State) (code : Nat) (t : State) : Prop where
  abort : t.abort = code
  quads : t.quads = s.quads
  bench : t.bench = s.bench
  dram : t.dram = s.dram
  get : ∀ {o : Obj} {i : Nat}, Out refusalRegs (o.key i) → t.get o i = s.get o i

/-- Where the effect of a command on a powered module is a refusal, the command is refused. -/
theorem act_refused {dt : Ns} {s : State} {f : State → State} {ok : Bool} {via : Path} {k : Key} {code : Nat} (hok : ok = true)
    (hp : s.powered = true) (hf : f (s.advance dt) = (s.advance dt).refuse via k code) :
    ∃ t, act ok dt s f = .next t ∧ s.RefusedTo code t := by
  refine ⟨_, act_powered hok hp, ?_⟩
  rw [hf]
  refine ⟨by simp, by simp, by simp, by simp, fun {o i} ho => ?_⟩
  simp only [refusalRegs, out_append] at ho
  obtain ⟨hbook, herr, hhead⟩ := ho
  calc ((s.advance dt).refuse via k code).get o i
    _ = (s.advance dt).get o i := refuse_get _ ⟨hbook, herr⟩ via k code
    _ = s.get o i := advance_get s dt (hhead.avoids (by simp))

/-! ## The registers of the kinds of unit, and of their self-tests -/

/-- The units' states, the self-tests' results and the domains' states. -/
def selfTestRegs : List Obj :=
  [SLICE_STATE, EASEL_PHYS_STATE, TILE_PHYS_STATE, DRAM_PKG_STATE, SLICE_SELFTEST_RESULT, EASEL_SELFTEST_RESULT,
    TILE_SELFTEST_RESULT, DRAM_SELFTEST_RESULT, PD_STATE]

/-- None of these registers is among the registers that a refused command may move. -/
theorem out_refusalRegs_of_selfTest {o : Obj} (ho : o ∈ selfTestRegs) {i : Nat} (hi : i < o.count) :
    Out refusalRegs (o.key i) := by
  have check : (selfTestRegs.all fun o => (List.range o.count).all fun i => refusalRegs.all fun r => r.avoidsB (o.key i)) = true := by
    decide +kernel
  exact out_of_check (List.all_eq_true.1 (List.all_eq_true.1 check o ho) i (List.mem_range.2 hi))

theorem State.RefusedTo.selfTest_get {s t : State} {code : Nat} (h : s.RefusedTo code t) (o : Obj) {i : Nat}
    (hi : i < o.count) (ho : o ∈ selfTestRegs := by simp [selfTestRegs]) : t.get o i = s.get o i :=
  h.get (out_refusalRegs_of_selfTest ho hi)

/-- Passing time leaves them as they are, too. -/
theorem advance_selfTest_get (s : State) (dt : Ns) {o : Obj} (ho : o ∈ selfTestRegs) {i : Nat} (hi : i < o.count) :
    (s.advance dt).get o i = s.get o i :=
  advance_get s dt ((out_refusalRegs_of_selfTest ho hi).avoids (by simp [refusalRegs]))

/-! ## A self-test of a unit that is not in QUARANTINE (R664) -/

section
variable {s : State} (via : Path)

theorem sliceSelftest_of_not_quarantine {q j : Nat} (hj : j ≤ 4) (h : s.get SLICE_STATE (5 * q + j) ≠ 2) :
    s.sliceSelftest via q j = s.refuse via (SLICE_SELFTEST.key q) abortMode := by
  unfold State.sliceSelftest
  dsimp only
  rw [if_neg (Nat.not_lt.2 hj), if_pos h, ite_self]

theorem easelSelftest_of_not_quarantine {p : Nat} (hp : p ≤ 6) (h : s.get EASEL_PHYS_STATE p ≠ 2) :
    s.easelSelftest via p = s.refuse via (EASEL_SELFTEST.key 0) abortMode := by
  unfold State.easelSelftest
  dsimp only
  rw [if_neg (Nat.not_lt.2 hp), if_pos h, ite_self]

theorem tileSelftest_of_not_quarantine {p : Nat} (hp : p ≤ 103) (h : s.get TILE_PHYS_STATE p ≠ 2) :
    s.tileSelftest via p = s.refuse via (TILE_SELFTEST.key 0) abortMode := by
  unfold State.tileSelftest
  dsimp only
  rw [if_neg (Nat.not_lt.2 hp), if_pos h, ite_self]

theorem dramSelftest_of_not_quarantine {p : Nat} (hp : p ≤ 12) (h : s.get DRAM_PKG_STATE p ≠ 2) :
    s.dramSelftest via p = s.refuse via (DRAM_SELFTEST.key 0) abortMode := by
  unfold State.dramSelftest
  dsimp only
  rw [if_neg (Nat.not_lt.2 hp), if_pos h, ite_self]

/-- A command whose write is refused wherever a unit is not in QUARANTINE is refused where that is so before its time passes. -/
theorem act_refused_of_not_quarantine (o : Obj) (i : Nat) (dt : Ns) {f : State → State} {ok : Bool} {k : Key} (hok : ok = true)
    (hp : s.powered = true) (hi : i < o.count) (h : s.get o i ≠ 2)
    (hf : ∀ u : State, u.get o i ≠ 2 → f u = u.refuse via k abortMode) (ho : o ∈ selfTestRegs := by simp [selfTestRegs]) :
    ∃ t, act ok dt s f = .next t ∧ s.RefusedTo abortMode t := by
  refine act_refused hok hp (hf _ ?_)
  rwa [advance_selfTest_get s dt ho hi]

end

/-! ## The statement -/

/-- Settles O59: each command's write on a unit that is not in QUARANTINE is a refusal, and the registers that a refused command may
move hold no unit's state and no self-test's result. -/
theorem selfTestsOfQuarantineOnly : Obligations.SelfTestsOfQuarantineOnly := by
  unfold Obligations.SelfTestsOfQuarantineOnly
  intro s hpow dt via
  refine ⟨fun q j hq hj h => ?slice, fun p hp h => ?easel, fun p hp h => ?tile, fun p hp h => ?dram⟩
  case slice =>
    obtain ⟨t, ht, r⟩ := act_refused_of_not_quarantine via SLICE_STATE (5 * q + j) dt (decide_eq_true hq) hpow
      (show 5 * q + j < 65 by omega) h fun u hu => sliceSelftest_of_not_quarantine via hj hu
    exact ⟨t, ht, r.abort, r.quads, r.selfTest_get SLICE_SELFTEST_RESULT hq, fun _ hu => r.selfTest_get SLICE_STATE hu,
      fun _ hu => r.selfTest_get PD_STATE hu⟩
  case easel =>
    obtain ⟨t, ht, r⟩ := act_refused_of_not_quarantine via EASEL_PHYS_STATE p dt rfl hpow
      (Nat.lt_succ_of_le hp) h fun u hu => easelSelftest_of_not_quarantine via hp hu
    exact ⟨t, ht, r.abort, r.bench, r.selfTest_get EASEL_SELFTEST_RESULT Nat.one_pos, fun _ hu => r.selfTest_get EASEL_PHYS_STATE hu,
      fun _ hu => r.selfTest_get PD_STATE hu⟩
  case tile =>
    obtain ⟨t, ht, r⟩ := act_refused_of_not_quarantine via TILE_PHYS_STATE p dt rfl hpow
      (Nat.lt_succ_of_le hp) h fun u hu => tileSelftest_of_not_quarantine via hp hu
    exact ⟨t, ht, r.abort, r.bench, r.selfTest_get TILE_SELFTEST_RESULT Nat.one_pos, fun _ hu => r.selfTest_get TILE_PHYS_STATE hu,
      fun _ hu => r.selfTest_get PD_STATE hu⟩
  case dram =>
    obtain ⟨t, ht, r⟩ := act_refused_of_not_quarantine via DRAM_PKG_STATE p dt rfl hpow
      hp h fun u hu => dramSelftest_of_not_quarantine via (Nat.le_of_lt_succ hp) hu
    exact ⟨t, ht, r.abort, r.bench, r.dram, r.selfTest_get DRAM_SELFTEST_RESULT Nat.one_pos,
      fun _ hu => r.selfTest_get DRAM_PKG_STATE hu⟩

end Sys2Proof.Machine
end
